-- ==== Sys2Proof/Word.lean ====
section
/-! DEFINITION. The word types of the Smital S8: registers and scalars are 64 bits (R5, R190), memory is bytes. -/

namespace Sys2Proof

/-- One byte of memory or of a frame. -/
abbrev Byte := BitVec 8

/-- A 64-bit register, scalar or field. -/
abbrev Word := BitVec 64

/-- A status, fault or completion code (R10). -/
abbrev Code := BitVec 16

end Sys2Proof
end

