-- ==== Sys2Proof/Syntax.lean ====
section
/-! DEFINITION. The commands of the Smital S8, one constructor of `Instr` per row of spec/opcode_table.json,
and the types of their operands.

The table gives its rows no operand fields, so the operands are the model's (log 2): a sequencer instruction
carries the logical core that issues it and the fields of its instruction format (R195); a host command carries its
frame (R442); a packet, flit, message or record row carries that record; a timer row carries what it concerns;
a row that reports a measurement carries the measured value. -/

namespace Sys2Proof

/-- Partition and cadence-domain number (R463, R35). -/
abbrev Part := Fin 16
/-- Torus port and link-die number n of LDn (R17). -/
abbrev Port := Fin 6
/-- Module index x + 4y + 16z (R28). -/
abbrev ModIx := Fin 64

/-- A logical core named by compute die and die core slot (R465). -/
structure CoreId where
  die  : Fin 8
  slot : Fin 144
  deriving DecidableEq, Repr

/-- A physical core site (R12). -/
structure SiteId where
  die  : Fin 8
  site : Fin 160
  deriving DecidableEq, Repr

/-- The core stations (R20). -/
inductive Station | mx | vx | tx | lx
  deriving DecidableEq, Repr

/-- Format R of R195, with the guard of R193 in bits 55:52. -/
structure FmtR where
  guard : BitVec 4
  d  : BitVec 5
  a  : BitVec 5
  b  : BitVec 5
  c  : BitVec 5
  fn : BitVec 8
  x  : BitVec 24
  deriving DecidableEq, Repr

/-- Format I of R195. -/
structure FmtI where
  guard : BitVec 4
  d   : BitVec 5
  a   : BitVec 5
  imm : BitVec 42
  deriving DecidableEq, Repr

/-- Format L of R195. -/
structure FmtL where
  guard : BitVec 4
  d     : BitVec 5
  a     : BitVec 5
  bound : BitVec 24
  len   : BitVec 18
  deriving DecidableEq, Repr

/-- Format J of R195. -/
structure FmtJ where
  guard : BitVec 4
  rsv   : BitVec 10
  off   : BitVec 42
  deriving DecidableEq, Repr

/-- Format T of R195. -/
structure FmtT where
  guard : BitVec 4
  q0 : BitVec 4
  q1 : BitVec 4
  q2 : BitVec 4
  q3 : BitVec 4
  t0 : BitVec 5
  t1 : BitVec 5
  fn : BitVec 8
  m  : BitVec 8
  s  : BitVec 5
  s2 : BitVec 5
  deriving DecidableEq, Repr

/-- Format Q of R195. -/
structure FmtQ where
  guard : BitVec 4
  qn   : BitVec 4
  prod : BitVec 4
  cons : BitVec 4
  dstn : BitVec 2
  fmt  : BitVec 4
  rlog : BitVec 5
  base : BitVec 9
  rsv  : BitVec 20
  deriving DecidableEq, Repr

/-- The common body of a management message (R416); `TYPE` is the row. `src` is the sending module. -/
structure Mgmt where
  src    : ModIx
  dom    : Part
  run    : Nat
  seg    : Nat
  code   : Code
  module : Nat
  tick   : Word
  time   : Word
  hash   : Word
  deriving DecidableEq, Repr

/-- The six values of a SETTINGS message (R417): P in us, S, m, EPOCH, K0 and the slice. -/
structure Settings where
  period : Word
  spokes : Word
  margin : Word
  epoch  : Word
  k0     : Word
  slice  : Word
  deriving DecidableEq, Repr

/-- A command frame of a session (R442); `CMD` is the row, `BODY_LEN` the length of `body`. -/
structure Frame where
  session : Nat
  queue   : Code
  cmdId   : Word
  body    : List Byte
  deriving DecidableEq, Repr

/-- A host command on its way through FORWARD and INTAKE (R277, R417): the command code, the partition, the
receiving module and its TBC at arrival, and the frame. -/
structure HostCmd where
  cmd     : Code
  part    : Part
  origin  : ModIx
  arrival : Word
  frame   : Frame
  deriving DecidableEq, Repr

/-- What training finds at a CXL port (R320, R321, R576): `poison` lists the 64-byte units, by number, that the device returns
with poison. -/
structure CxlDevice where
  type3    : Bool
  capacity : Nat
  width    : Nat
  rate     : Nat
  ideOk    : Bool
  poison   : List Nat
  deriving DecidableEq, Repr

/-- Whose access to the second tier got no response (R322): a core's, a die station's for a partition, or that of the host or
another agent outside the compute dies. -/
inductive CxlUser
  | core (c : CoreId)
  | station (die : Fin 8) (part : Part)
  | agent
  deriving DecidableEq, Repr

/-- A flit (R382). `errs` are the symbol errors of the codeword, or of the two codewords, that carried it (R381, R383). -/
structure Flit where
  errs     : List Nat
  typ      : BitVec 4
  vc       : BitVec 4
  seq      : BitVec 12
  ack      : BitVec 12
  creditVc : BitVec 4
  credits  : BitVec 12
  payload  : List Byte
  crc      : BitVec 32
  deriving DecidableEq, Repr

/-- A LANE_CTL flit, and the codeword pair that it names (R379). -/
structure LaneCtlFlit where
  flit : Flit
  pair : Nat
  deriving DecidableEq, Repr

/-- An IPv4 address, an IPv6 address and the bytes that a frame of the host link carries. -/
abbrev Ip4 := BitVec 32
abbrev Ip6 := BitVec 128
abbrev Octets := List Byte

/-- What a frame of the host link holds, and whether MACsec protects the frame (R432). -/
structure Protected (α : Type) where
  prot : Bool
  body : α
  deriving DecidableEq, Repr

/-- The first nine bytes of a private write over I3C: `OP` and the register address (R606). -/
structure I3cHead where
  op   : Byte
  addr : Word
  deriving DecidableEq, Repr

/-- What a training stage finds on the 18 physical lanes (R394): the partner's lane whose pattern it carries with its polarity, if
any, and the corrected symbols of the lane check. -/
structure TrainFind where
  seen   : List (Option (Fin 18 × Bool))
  counts : List Nat
  deriving DecidableEq, Repr

/-- The identity record of an IDENT flit (R394). -/
structure IdentRecord where
  magic    : Code
  serial   : BitVec 40
  port     : Byte
  x        : Byte
  y        : Byte
  z        : Byte
  level    : Byte
  features : Byte
  state    : Byte
  mapHash  : Word
  deriving DecidableEq, Repr

/-- A fabric packet (R404); `OP` is the row where a row carries it. `rsv` holds what is reserved in it: bits 0 to 4 `FLAGS`[7:3], 5
to 8 `PART`[7:4], 9 bit 6 of `ROUTE`, 10 bit 6 of `STAMP`; bit 11 says that its `OP` is reserved, or that it is an MGMT packet with
a reserved `TYPE` or field, which has no row (R405, R417). -/
structure Packet where
  rsv       : BitVec 12
  mc        : Bool
  nr        : Bool
  poison    : Bool
  part      : Part
  detour    : Bool
  via       : ModIx
  run       : Nat
  stamped   : Bool
  seg       : Nat
  status    : Code
  srcModule : ModIx
  srcDie    : Byte
  dstModule : ModIx
  dstDie    : Byte
  tag       : Code
  len       : Nat
  tick      : Word
  addr      : Word
  mask      : Word
  payload   : List Byte
  deriving DecidableEq, Repr

/-- One row of an exchange segment: its 16-byte tag and its payload (R253). -/
structure ExRow where
  batchRow : Nat
  rank     : Nat
  payload  : List Byte
  deriving DecidableEq, Repr

/-- An exchange segment (R253), with the stamp it travels under (R42, R406). `formed` says that its magic is 0x4558 and its
reserved bytes are zero; `mask` names the modules it is multicast to, and is zero otherwise (R414). -/
structure ExSegment where
  formed    : Bool
  mask      : Word
  tick      : Word
  seg       : Nat
  run       : Nat
  layer     : Code
  srcModule : ModIx
  srcDie    : Fin 8
  dstModule : ModIx
  dstDie    : Fin 8
  round     : Nat
  rowsField : Nat
  rowBytes  : Nat
  cfgHash   : Word
  runs      : List (Nat × Nat)
  rows      : List ExRow
  counts    : List Nat
  weights   : List Byte
  deriving DecidableEq, Repr

/-- The header of a Brosin packet (R434): `rsv` is its bytes 31:24, `udp` the bytes of the datagram after it, and `prot` says that
MACsec protects the frame (R432). -/
structure BrosinHdr where
  magic   : Code
  typ     : Byte
  flags   : Code
  len     : Nat
  udp     : Nat
  rsv     : Word
  prot    : Bool
  window  : Nat
  ack     : BitVec 32
  seq     : BitVec 32
  session : Nat
  deriving DecidableEq, Repr

/-- Whether a header breaks none of R434, the limit of its session apart: magic, type, reserved bits and `LEN`. -/
def BrosinHdr.wellFormed (h : BrosinHdr) : Bool :=
  decide (h.magic = 0x4252) && decide (1 ≤ h.typ.toNat ∧ h.typ.toNat ≤ 10) && decide (h.flags.toNat < 4)
    && decide (h.rsv = 0) && decide (h.len = h.udp) && decide (h.len ≤ 8192)

/-- The agents of R475 that carry deadline counters, in the order of its table. -/
inductive Agent | refresh | retirement | scrub | pageCopy | pannierFill | tierCopy | ingest | host
  deriving DecidableEq, Repr

/-- What waited at an arbiter in one window (R471): for each partition the cycles its requests asked for,
the URGENT requests and the BACKGROUND requests. -/
structure ArbLoad where
  demand     : List Nat
  urgent     : Nat
  background : Nat
  deriving DecidableEq, Repr

/-- A residue check that fails on real issue (R137 to R140): the resident tile it is found on, counted from the first that the
command serves, the token, the K position within the tile, the weight row, and the residue by which the row's computed value
differs. -/
structure ResidueErr where
  pass  : Nat
  token : Nat
  pos   : Nat
  row   : Fin 64
  delta : Nat
  deriving DecidableEq, Repr

/-- An MXRUN or MXWALK: the fields of its word, and the residue check that fails while it issues, if one does (R140, R195). -/
structure MxIssue extends FmtT where
  err : Option ResidueErr
  deriving DecidableEq, Repr

/-- A residue check that fails on a ballast cycle of a site (R153): the row and the difference. -/
structure BallastErr where
  site  : SiteId
  row   : Fin 64
  delta : Nat
  deriving DecidableEq, Repr

/-- The inputs of one power estimate (R523): the sum of its terms before the calibration gain, in W; how long E has
stayed above the effective cap (R529), in us; whether ballast could not hold the slope (R532); the ballast cycles of the
microsecond by site, and the residue checks that failed on them (R153). -/
structure EstimateInput where
  sum     : Nat
  aboveUs : Nat
  unheld  : Bool
  ballast : List (SiteId × Nat)
  errs    : List BallastErr
  deriving DecidableEq, Repr

/-- One reading of the junction and coolant sensors (R540), in 1/16 degree C; `tj` in the die order of R156. -/
structure ThermalInput where
  tj     : List Int
  inlet  : Int
  outlet : Int
  deriving DecidableEq, Repr

/-- How a bring-up stage ended (R583): `code` 0 for success, else with the boot stage that failed (R555); the trained GDDR7
rates for stage 5 (R313); the time since the start of RAMP. -/
structure StageResult where
  code    : Code
  boot    : Nat
  mdRates : List Nat
  timeUs  : Nat
  deriving DecidableEq, Repr

/-- The commands: one constructor per row of spec/opcode_table.json. -/
inductive Instr where
  /-- R617: A write to a register that has no row of its own is stored, or discarded as a whole when a field breaks its stated limits or the register is locked. -/
  | registerWrite (addr value : Word)
  /-- R38: Setting CAD.DOM_CTRL.ENABLE to 1 checks the domain settings, the time base, the partition and pending changes, and starts settings collection by the master. -/
  | domEnable (n : Part)
  /-- R39: Setting CAD.DOM_CTRL.ENABLE to 0 stops the domain, unlocks its registers and applies any protection change pending on it. -/
  | domDisable (n : Part)
  /-- R141: A write with ARM set arms an injected residue mismatch at the next contribution, if debug unlock is in force. -/
  | mxResidueInject (s : SiteId) (value : Word)
  /-- R165: A W1C write to LX.QSTATn clears flags of the stream's sticky status. -/
  | lxQstatClear (s : SiteId) (q : Fin 16) (value : Word)
  /-- R154: Writing CLEAR to MX.CTR_CLEAR zeroes the MX counters. -/
  | mxCtrClear (s : SiteId) (value : Word)
  /-- R187: Writing CLEAR to VX.CTR_CLEAR zeroes the VX counters. -/
  | vxCtrClear (s : SiteId) (value : Word)
  /-- R188: Writing CLEAR to TX.CTR_CLEAR zeroes the TX counters. -/
  | txCtrClear (s : SiteId) (value : Word)
  /-- R189: Writing CLEAR to LX.CTR_CLEAR zeroes the LX counters. -/
  | lxCtrClear (s : SiteId) (value : Word)
  /-- R269: Writing CLEAR to EX.CTR_CLEAR zeroes the EX counters. -/
  | exCtrClear (die : Fin 8) (value : Word)
  /-- R304: Writing CLEAR to SV.CTR_CLEAR zeroes the SV die counters. -/
  | svCtrClear (die : Fin 8) (value : Word)
  /-- R304: Writing CLEAR to SV.P_CTR_CLEAR zeroes the partition's serving counters. -/
  | svPCtrClear (die : Fin 8) (n : Part) (value : Word)
  /-- R305: Writing CLEAR to KV.CTR_CLEAR zeroes KV.P_ALLOCS of every partition. -/
  | kvCtrClear (die : Fin 8) (value : Word)
  /-- R349: Writing CLEAR to MEM.CTR_CLEAR zeroes the MEM counters. -/
  | memCtrClear (value : Word)
  /-- R350: Writing CLEAR to CXL.CTR_CLEAR zeroes the port's counters. -/
  | cxlCtrClear (p : Fin 4) (value : Word)
  /-- R351: Writing CLEAR to PN.CTR_CLEAR zeroes the Pannier counters. -/
  | pnCtrClear (die : Fin 8) (value : Word)
  /-- R426: Writing CLEAR to FAB.CTR_CLEAR zeroes the fabric and port counters. -/
  | fabCtrClear (value : Word)
  /-- R427: Writing CLEAR to CE.CTR_CLEAR zeroes the collective-engine counters. -/
  | ceCtrClear (p : Port) (value : Word)
  /-- R460: Writing CLEAR to HP.CTR_CLEAR zeroes the host-port counters. -/
  | hpCtrClear (value : Word)
  /-- R461: Writing CLEAR to NX.CTR_CLEAR zeroes the net-station counters. -/
  | nxCtrClear (value : Word)
  /-- R487: Writing CLEAR to ARB.CTR_CLEAR zeroes every arbiter counter. -/
  | arbCtrClear (value : Word)
  /-- R515: Writing CLEAR to INT.CTR_CLEAR zeroes the integrity counters. -/
  | intCtrClear (value : Word)
  /-- R516: Writing CLEAR to DER.CTR_CLEAR zeroes the Derailleur scan and rotation counters. -/
  | derCtrClear (value : Word)
  /-- R547: Writing CLEAR to PWR.CTR_CLEAR zeroes the power counters. -/
  | pwrCtrClear (value : Word)
  /-- R548: Writing CLEAR to FWL.CTR_CLEAR zeroes the Freewheel counters. -/
  | fwlCtrClear (value : Word)
  /-- R313: A write changing MEM.CTRL.ECC, allowed only with every domain disabled, resets MEM.ILV_SIZE and starts clearing all close memory. -/
  | memCtrlWrite (value : Word)
  /-- R313: A write of MEM.ILV_SIZE re-divides close memory into interleaved and column zones, or is discarded with 0x060D. -/
  | memIlvSizeWrite (value : Word)
  /-- R313: Clearing of close memory after an ECC change completes and MEM.STATUS leaves CLEARING. -/
  | memClearDone
  /-- R337: A write of PN.SIZE resizes the Pannier when the directory is empty, or is discarded with 0x060D. -/
  | pnSizeWrite (die : Fin 8) (value : Word)
  /-- R337: A write of PN.P_QUOTA sets a partition's Pannier quota, or is discarded with 0x060D. -/
  | pnPQuotaWrite (die : Fin 8) (n : Part) (value : Word)
  /-- R426: Writing GO to FAB.PORT_RETRAIN takes the port DOWN and trains it again. -/
  | fabPortRetrain (p : Port) (value : Word)
  /-- R426: Writing FAB.PORT_CTRL.ENABLE holds the port DISABLED or lets it train. -/
  | fabPortCtrlWrite (p : Port) (value : Word)
  /-- R534: A write of PWR.CAP sets the commanded cap, recomputes the effective cap and counts as a heartbeat when made over I3C. -/
  | pwrCapWrite (i3c : Bool) (value : Word)
  /-- R538: Any write to PWR.HEARTBEAT is a heartbeat that arms the monitor or clears SAFE_CAP. -/
  | pwrHeartbeatWrite (value : Word)
  /-- R538: A write of PWR.HB_CTRL sets the heartbeat timeout, and writing 0 to ARMED disarms the monitor. -/
  | pwrHbCtrlWrite (value : Word)
  /-- R29: Every 100 us a link carrying the time base starts a two-way timestamp exchange. -/
  | timeSyncSend (p : Port)
  /-- R29: A TIME_SYNC message completes a delay exchange; the child compensates delay and updates its error bound, entering LOCKED when below 100 ns. -/
  | timeSync (p : Port) (time t1 t2 t3 bound : Word)
  /-- R73: CAD.TB_ERR_BOUND exceeds 1,000 ns; running domains commit their current tick and then enter SUSPENDED. -/
  | tbUnlocked (bound : Word)
  /-- R32: The primary package time-base path fails and Derailleur moves distribution to the spare path. -/
  | tbPathFail
  /-- R33: A PTP synchronisation updates CAD.PTP_OFFSET with host time minus TBC. -/
  | ptpSync (hostTime : Word)
  /-- R34: At each whole second of TBC or host time the PPS output pulses. -/
  | ppsOutPulse
  /-- R610: A qualified rising edge on PPS_IN loads TBC into CAD.PPS_IN_STAMP. -/
  | ppsInEdge
  /-- R37: At the scheduled start of the first tick of an enabled domain, segment 0 starts. -/
  | tickStart (n : Part)
  /-- R44: Once every check on a segment has finished, the module sends its CLEAN or DIRTY vote to master and deputy. -/
  | voteCast (n : Part)
  /-- R45: Every 50 us a module that has not yet voted on a segment sends a WAIT frame. -/
  | waitFrameSend (n : Part)
  /-- R46: The master receives a vote and, when it holds all votes of a segment in order, broadcasts PASS, RETRACT or COMMIT. -/
  | vote (m : Mgmt)
  /-- R45: The master or deputy receives a WAIT frame, which keeps the member from being declared silent. -/
  | wait (m : Mgmt)
  /-- R46: A member receives PASS for a segment, making its stamped data real and letting segment j + 2 or an empty segment start. -/
  | pass (m : Mgmt)
  /-- R48: A member receives RETRACT, stops the domain, discards stamped work, restores the checkpoint, acknowledges and restarts the segment. -/
  | retract (m : Mgmt)
  /-- R52: The master or deputy receives a member's acknowledgement of a RETRACT. -/
  | retractAck (m : Mgmt)
  /-- R54: A member receives ABORT, discards the tick, restores the last committed state and suspends the domain. -/
  | abort (m : Mgmt)
  /-- R55: A member receives COMMIT and schedules its apply time. -/
  | commit (m : Mgmt)
  /-- R56: At the apply time the module applies the STATE journal, publishes APPEND pages, applies request-table updates, releases results and events, and starts the next step. -/
  | commitApply (n : Part)
  /-- R51: A member sends neither vote nor WAIT within CAD.SILENT_TIMEOUT and the master broadcasts RETRACT with 0x0104. -/
  | silentTimeout (n : Part) (silent : ModIx)
  /-- R52: The silent member's acknowledgement misses CAD.REJOIN_TIMEOUT and the master broadcasts ABORT. -/
  | rejoinTimeout (n : Part)
  /-- R53: The deputy sees no result from the master within CAD.SILENT_TIMEOUT and becomes master. -/
  | masterFailover (n : Part)
  /-- R38: The master receives a member's domain settings and starts the slice or reports 0x0105. -/
  | settings (m : Mgmt) (d : Settings)
  /-- R64: Admission for a tick closes: the intake is applied and the batch for the tick is built. -/
  | admissionClose (n : Part)
  /-- R198: The NOP instruction does nothing. -/
  | nop (c : CoreId) (f : FmtJ)
  /-- R198: BR branches forward by OFF words. -/
  | br (c : CoreId) (f : FmtJ)
  /-- R225: CALL pushes the return word and jumps. -/
  | call (c : CoreId) (f : FmtJ)
  /-- R225: RET pops the return word into the program counter. -/
  | ret (c : CoreId) (f : FmtJ)
  /-- R221: LOOP runs its body n times, writing the pass index to sD. -/
  | loop (c : CoreId) (f : FmtL)
  /-- R223: LOOPW repeats its body while a predicate holds, faulting at 4 × BOUND passes. -/
  | loopw (c : CoreId) (f : FmtL)
  /-- R224: BREAK leaves the innermost loop. -/
  | breakLoop (c : CoreId) (f : FmtJ)
  /-- R226: SEGEND ends a segment once streams, stations and outstanding operations are complete, taking the checkpoint. -/
  | segend (c : CoreId) (f : FmtJ)
  /-- R227: STEPEND ends missing segments as empty ones and the last segment, then waits for the commit apply. -/
  | stepend (c : CoreId) (f : FmtJ)
  /-- R624: TRAP kills the segment with 0x0311 and sends a CODE event with the trap code. -/
  | trap (c : CoreId) (f : FmtI)
  /-- R196: An unassigned opcode raises fault 0x0301 at issue. -/
  | illegalOpcode (c : CoreId) (w : Word)
  /-- R197: ADD sums two scalars modulo 2^64. -/
  | add (c : CoreId) (f : FmtR)
  /-- R197: SUB subtracts two scalars modulo 2^64. -/
  | sub (c : CoreId) (f : FmtR)
  /-- R198: MUL writes the low 64 bits of a product. -/
  | mul (c : CoreId) (f : FmtR)
  /-- R198: MULH writes the high 64 bits of the signed product. -/
  | mulh (c : CoreId) (f : FmtR)
  /-- R198: AND writes the bitwise AND. -/
  | and (c : CoreId) (f : FmtR)
  /-- R198: OR writes the bitwise OR. -/
  | or (c : CoreId) (f : FmtR)
  /-- R198: XOR writes the bitwise XOR. -/
  | xor (c : CoreId) (f : FmtR)
  /-- R198: SHL shifts a scalar left. -/
  | shl (c : CoreId) (f : FmtR)
  /-- R198: SHR shifts a scalar right logically. -/
  | shr (c : CoreId) (f : FmtR)
  /-- R198: SRA shifts a scalar right arithmetically. -/
  | sra (c : CoreId) (f : FmtR)
  /-- R198: MIN writes the signed minimum. -/
  | min (c : CoreId) (f : FmtR)
  /-- R198: MAX writes the signed maximum. -/
  | max (c : CoreId) (f : FmtR)
  /-- R198: CLZ counts leading zero bits. -/
  | clz (c : CoreId) (f : FmtR)
  /-- R197: ADDI adds a sign-extended immediate. -/
  | addi (c : CoreId) (f : FmtI)
  /-- R193: LI loads a 64-bit literal word. -/
  | li (c : CoreId) (f : FmtI) (literal : Word)
  /-- R198: SEL selects one of two scalars by a predicate. -/
  | sel (c : CoreId) (f : FmtR)
  /-- R198: CMP sets a predicate from a condition on two scalars. -/
  | cmp (c : CoreId) (f : FmtR)
  /-- R198: PLOG combines two predicates. -/
  | plog (c : CoreId) (f : FmtR)
  /-- R215: LD loads a 64-bit word through LX. -/
  | ld (c : CoreId) (f : FmtI)
  /-- R215: ST stores a 64-bit word through LX, under its memory class. -/
  | st (c : CoreId) (f : FmtI)
  /-- R199: ATOM performs an indivisible read-modify-write, refused on STATE unless add, max or L64 add with NR. -/
  | atom (c : CoreId) (f : FmtR)
  /-- R201: RDSR reads a special register. -/
  | rdsr (c : CoreId) (f : FmtI)
  /-- R218: WAITV starts waiting until a memory word meets a condition. -/
  | waitv (c : CoreId) (f : FmtR)
  /-- R218: A WAITV poll interval expires and the word is read again, completing WAITV when the condition holds. -/
  | waitvPoll (c : CoreId)
  /-- R198: TDLD loads a tile descriptor from memory. -/
  | tdld (c : CoreId) (f : FmtI)
  /-- R198: TDST stores a tile descriptor to memory. -/
  | tdst (c : CoreId) (f : FmtI)
  /-- R198: TDMOV copies a tile descriptor. -/
  | tdmov (c : CoreId) (f : FmtR)
  /-- R200: TDSET sets a descriptor field from a scalar. -/
  | tdset (c : CoreId) (f : FmtR)
  /-- R200: TDGET reads a descriptor field into a scalar. -/
  | tdget (c : CoreId) (f : FmtR)
  /-- R200: TDADD adds a signed scalar to a descriptor field. -/
  | tdadd (c : CoreId) (f : FmtR)
  /-- R200: TDSETI sets a descriptor field from a literal word. -/
  | tdseti (c : CoreId) (f : FmtR) (literal : Word)
  /-- R203: QOPEN opens or reconfigures a stream handle after checking its fields. -/
  | qopen (c : CoreId) (f : FmtQ)
  /-- R203: QCLOSE closes a stream once it is empty. -/
  | qclose (c : CoreId) (f : FmtT)
  /-- R203: QSYNC waits until a stream is empty. -/
  | qsync (c : CoreId) (f : FmtT)
  /-- R203: QSTAT reads a stream's state and optionally clears its sticky status. -/
  | qstat (c : CoreId) (f : FmtT)
  /-- R162: A station waits on one stream beyond LX.STALL_LIMIT and the segment is killed with 0x0308. -/
  | streamStall (c : CoreId) (st : Station)
  /-- R219: The sequencer waits beyond LX.STALL_LIMIT and the segment is killed with 0x030C. -/
  | waitLimit (c : CoreId)
  /-- R204: MXLD loads the next resident tile into a free MX bank. -/
  | mxld (c : CoreId) (f : FmtT)
  /-- R121: A resident tile's load into a bank completes and issue on that bank may start. -/
  | mxLoadComplete (c : CoreId) (bank : Bool)
  /-- R204: MXRUN streams an activation tile against the oldest loaded bank into an accumulator set. -/
  | mxrun (c : CoreId) (f : MxIssue)
  /-- R618: MXOUT reads an accumulator set out to a stream once its contributions are in. -/
  | mxout (c : CoreId) (f : FmtT)
  /-- R205: MXSAVE writes 4,096 save records of a set. -/
  | mxsave (c : CoreId) (f : FmtT)
  /-- R205: MXRST restores 4,096 save records into a set after checking them. -/
  | mxrst (c : CoreId) (f : FmtT)
  /-- R143: MXWALK runs a group walk over a group table. -/
  | mxwalk (c : CoreId) (f : MxIssue)
  /-- R172: VXOP with an FP32 function computes element-wise FP32 results. -/
  | vxFp32Op (c : CoreId) (f : FmtT)
  /-- R172: VXOP with an INT32 function computes element-wise INT32 results. -/
  | vxInt32Op (c : CoreId) (f : FmtT)
  /-- R174: VXOP with a transcendental function applies it to the exact fused input. -/
  | vxTranscendental (c : CoreId) (f : FmtT)
  /-- R175: VXOP with RSUM, RMAX or RMIN reduces each row in a fixed tree. -/
  | vxRowReduction (c : CoreId) (f : FmtT)
  /-- R172: VXOP with CVT converts a tile to RFMT. -/
  | vxCvt (c : CoreId) (f : FmtT)
  /-- R176: VXOP with LADD adds two L64 tiles exactly in 72 bits. -/
  | vxLadd (c : CoreId) (f : FmtT)
  /-- R178: TXOP QUANT quantises a tile into a block format and merges its scale summary. -/
  | quant (c : CoreId) (f : FmtT)
  /-- R179: TXOP DEQUANT expands a block-format tile to BF16, FP16 or FP32. -/
  | dequant (c : CoreId) (f : FmtT)
  /-- R179: TXOP CONVERT converts a tile between plain formats. -/
  | convert (c : CoreId) (f : FmtT)
  /-- R177: TXOP TRANSPOSE transposes a whole tile. -/
  | transpose (c : CoreId) (f : FmtT)
  /-- R180: TXOP GATHER emits source rows named by an index stream. -/
  | gather (c : CoreId) (f : FmtT)
  /-- R180: TXOP SCATTER writes source rows to indexed rows of a result tile. -/
  | scatter (c : CoreId) (f : FmtT)
  /-- R182: TLD loads a tile from memory or fabric into a stream. -/
  | tld (c : CoreId) (f : FmtT)
  /-- R182: TST stores the next tile of a stream through a destination descriptor. -/
  | tst (c : CoreId) (f : FmtT)
  /-- R244: EX ROUTE checks the layer configuration, gates tokens and starts the count phase. -/
  | route (c : CoreId) (f : FmtR)
  /-- R268: EX DISPATCH returns the round count once the count phase ends and sends round-0 segments. -/
  | dispatch (c : CoreId) (f : FmtR)
  /-- R259: EX WAITIN writes the round's group tables and returns its work record once rows are in place. -/
  | waitin (c : CoreId) (f : FmtR)
  /-- R262: EX RETURN sends a round's outputs home in RETURN segments. -/
  | returnRows (c : CoreId) (f : FmtR)
  /-- R263: EX COMBINE writes the gate-weighted combined rows once all RETURN segments have arrived and closes the layer. -/
  | combine (c : CoreId) (f : FmtR)
  /-- R268: EX QUERY returns an expert's total count and whether it was shipped. -/
  | exQuery (c : CoreId) (f : FmtR)
  /-- R247: A COUNT exchange segment arrives; its hash is checked and, when the last arrives, the count phase ends and decisions are made. -/
  | countRecord (n : Part) (x : ExSegment)
  /-- R255: A DISPATCH segment arrives and its rows are placed in the fixed order. -/
  | dispatchSegment (n : Part) (x : ExSegment)
  /-- R262: A RETURN segment arrives with rows' outputs for their source die. -/
  | returnSegment (n : Part) (x : ExSegment)
  /-- R251: A SHIP segment lands an expert's weights in the exchange pool. -/
  | shipSegment (n : Part) (x : ExSegment)
  /-- R267: A count record misses EX.COUNT_TIMEOUT and fault 0x0404 is raised. -/
  | exCountTimeout (die : Fin 8) (n : Part)
  /-- R267: Expected segments stop for EX.DATA_TIMEOUT and fault 0x0405 is raised. -/
  | exDataTimeout (die : Fin 8) (n : Part)
  /-- R288: KV ALLOC allocates pages for named batch rows. -/
  | alloc (c : CoreId) (f : FmtR)
  /-- R303: KV PAGE returns the address of the page holding a position. -/
  | kvPage (c : CoreId) (f : FmtR)
  /-- R293: SV DRAFTSYNC returns once a range of VERIFY rows has its draft tokens. -/
  | draftsync (c : CoreId) (f : FmtR)
  /-- R297: SV YIELD returns a checked sequence's yield count and end reason. -/
  | yield (c : CoreId) (f : FmtR)
  /-- R344: A background demotion or promotion page copy completes, releasing waiting ALLOCs or apply. -/
  | kvPageCopyDone (die : Fin 8) (n : Part) (entry : Nat)
  /-- R290: SAMPLE feeds a logits slice to the sampler, which samples, drafts or verifies owned rows on LAST. -/
  | sample (c : CoreId) (f : FmtT)
  /-- R297: STOPCHK evaluates stop conditions for named sequences and sends yields to every copy. -/
  | stopchk (c : CoreId) (f : FmtT)
  /-- R147: CLAIM takes the next tile-list index or EMPTY and logs the claiming core. -/
  | claim (c : CoreId) (f : FmtR)
  /-- R216: FENCE orders the core's writes, loads or both. -/
  | fence (c : CoreId) (f : FmtR)
  /-- R217: BAR enters a die barrier, which releases when the count of cores has arrived. -/
  | bar (c : CoreId) (f : FmtR)
  /-- R418: COLL kind ALLREDUCE_SUM contributes a tile to an exact sum delivered to every contributor. -/
  | allreduceSum (c : CoreId) (f : FmtT)
  /-- R418: COLL kind REDUCE_SUM contributes a tile to a sum delivered to the root's contributors. -/
  | reduceSum (c : CoreId) (f : FmtT)
  /-- R418: COLL kind REDUCE_SCATTER_SUM contributes a tile to a sum whose rows are split among contributors. -/
  | reduceScatterSum (c : CoreId) (f : FmtT)
  /-- R418: COLL kind ALLREDUCE_MAX contributes a tile to an element-wise maximum. -/
  | allreduceMax (c : CoreId) (f : FmtT)
  /-- R418: COLL kind ALLGATHER contributes rows to a concatenation in contributor order. -/
  | allgather (c : CoreId) (f : FmtT)
  /-- R418: COLL kind BROADCAST delivers the root's tile to every contributor. -/
  | broadcast (c : CoreId) (f : FmtT)
  /-- R418: COLL kind BARRIER completes once every contributor has arrived. -/
  | barrier (c : CoreId) (f : FmtT)
  /-- R423: CWAIT waits until a collective has delivered to the core. -/
  | cwait (c : CoreId) (f : FmtR)
  /-- R231: DIGEST folds a tile into a SHA-384 state. -/
  | digest (c : CoreId) (f : FmtR)
  /-- R229: AUDB opens an audit unit and decides whether it is sampled. -/
  | audb (c : CoreId) (f : FmtI)
  /-- R229: AUDE closes the audit unit and queues its replay if sampled. -/
  | aude (c : CoreId) (f : FmtJ)
  /-- R316: Periodic scrub reads every close-memory unit and writes back corrected data. -/
  | memScrub (unit : BitVec 50) (bad : Nat)
  /-- R317: A retirement copy completes, accesses resume and event 0x0605 is raised. -/
  | frameRetireCopyDone (md : Fin 4) (frame : Nat)
  /-- R321: A CXL port finishes training and enters service or is refused. -/
  | cxlTrained (p : Fin 4) (dev : CxlDevice)
  /-- R322: A CXL link goes down, outstanding accesses fail with 0x0604 and the port retrains. -/
  | cxlLinkDown (p : Fin 4)
  /-- R322: A second-tier access gets no response within CXL.TIMEOUT and raises 0x0604. -/
  | cxlTimeout (p : Fin 4) (user : CxlUser)
  /-- R333: A Pannier item's last byte is filled, it becomes VALID and the next fill starts. -/
  | pnFillComplete (die : Fin 8)
  /-- R339: At a tier-cache epoch end, frames are ranked and new copies start. -/
  | tcEpochEnd
  /-- R339: A tier-cache copy completes and its reads may be served from close memory. -/
  | tcCopyDone (frame : Nat)
  /-- R340: A tier-cache hit unserved within 1 us is served by the device instead. -/
  | tcHitFallback (frame : Nat)
  /-- R357: MODEL_LOAD checks a manifest and sends it to every module of the slice. -/
  | modelLoad (f : Frame)
  /-- R358: A module receives a manifest, checks placement and reports to the master. -/
  | manifestReceive (m : Mgmt) (manifest : List Byte) (timeout : Word)
  /-- R363: The master receives a module's report of placement, verification or an unrecoverable shard. -/
  | report (m : Mgmt) (version : Code) (shard : Nat)
  /-- R359: A reader starts fetching a shard when one of its 16 fetch slots frees. -/
  | shardFetchStart (n : Part) (version : Code) (shard : Nat)
  /-- R360: A shard's last byte arrives and its digest is compared. -/
  | shardVerify (n : Part) (version : Code) (shard : Nat) (bytes : List Byte)
  /-- R361: No byte of a try arrives for TIMEOUT and the try fails. -/
  | shardFetchTimeout (n : Part) (version : Code) (shard : Nat)
  /-- R361: The 10 ms or 20 ms retry delay expires and the next try starts. -/
  | shardRetryTimer (n : Part) (version : Code) (shard : Nat)
  /-- R362: A reader receives a request to resend its verified copy to a module whose digest failed. -/
  | shardResendRequest (n : Part) (version : Code) (shard : Nat) (target : ModIx)
  /-- R367: MODEL_ACTIVATE is forwarded into the intake and makes a version ACTIVE when applied. -/
  | modelActivate (f : Frame)
  /-- R373: MODEL_DROP frees a LOADING, READY or FAILED version at intake. -/
  | modelDrop (f : Frame)
  /-- R366: MODEL_REPAIR fetches a shard again and rewrites only poisoned units. -/
  | modelRepair (f : Frame)
  /-- R374: MODEL_QUERY returns the receiving module's version slots. -/
  | modelQuery (f : Frame)
  /-- R379: At the end of a 10 ms window, a lane above the SER limit is retired and moved to a spare. -/
  | laneSerWindow (p : Port) (lane : Fin 18) (count : Nat)
  /-- R379: A lane loses lock and is moved to a spare lane. -/
  | laneLockLoss (p : Port) (lane : Fin 18)
  /-- R379: A LANE_CTL flit names the spare and codeword pair for a lane move. -/
  | laneCtl (p : Port) (lane : Fin 16) (spare : Fin 18) (x : LaneCtlFlit)
  /-- R379: Data flits have not resumed 10 us after a lane move and the port goes DOWN. -/
  | laneMoveTimeout (p : Port)
  /-- R384: A DATA flit is accepted in sequence or discarded with a NAK, and its ACK and credits are taken. -/
  | dataFlit (p : Port) (fl : Flit)
  /-- R384: A NAK flit makes the sender resend from ACK + 1. -/
  | nak (p : Port) (fl : Flit)
  /-- R384: An IDLE flit is accepted and its ACK and credits are taken. -/
  | idleFlit (p : Port) (fl : Flit)
  /-- R385: More than FAB.RETRY_LIMIT NAKs in 1 ms take the port DOWN to train again. -/
  | linkNakLimit (p : Port)
  /-- R385: No accepted flit for 10 us takes the port DOWN to train again. -/
  | linkRxTimeout (p : Port)
  /-- R394: A port starts link training. -/
  | portTrain (p : Port)
  /-- R394: A training stage completes and the next stage starts. -/
  | trainStageComplete (p : Port) (found : TrainFind)
  /-- R394: A training stage passes its limit. -/
  | trainStageTimeout (p : Port)
  /-- R394: An IDENT flit arrives; on three identical records the port is evaluated to UP, MISWIRED or VERSION_HOLD. -/
  | ident (p : Port) (fl : Flit)
  /-- R390: FABRIC_MAP installs a fabric map and every port re-evaluates its partner. -/
  | fabricMap (f : Frame)
  /-- R398: A LINK_STATE message updates the link-state database and routes are recomputed. -/
  | linkState (m : Mgmt) (seqNo : Word) (ports : List Word)
  /-- R398: Every 10 ms the module floods LINK_STATE about its ports. -/
  | linkStateTimer
  /-- R408: A READ packet is checked at the target and answered with READ_RESP. -/
  | read (pk : Packet)
  /-- R408: A WRITE packet, possibly multicast, takes effect under its stamp and class and is acknowledged. -/
  | write (pk : Packet)
  /-- R410: An ATOM_ADD packet adds modulo 2^64 indivisibly. -/
  | atomAdd (pk : Packet)
  /-- R410: An ATOM_MAX packet takes the signed maximum indivisibly. -/
  | atomMax (pk : Packet)
  /-- R410: An ATOM_CAS packet stores when the old word equals the compare value. -/
  | atomCas (pk : Packet)
  /-- R410: An ATOM_SWAP packet exchanges a word indivisibly. -/
  | atomSwap (pk : Packet)
  /-- R410: An ATOM_LADD packet adds an L64 operand under R114. -/
  | atomLadd (pk : Packet)
  /-- R408: A READ_RESP delivers data or a fault to the source. -/
  | readResp (pk : Packet)
  /-- R408: A WRITE_ACK completes a write at the source. -/
  | writeAck (pk : Packet)
  /-- R408: An ATOM_RESP delivers the old value or a fault to the source. -/
  | atomResp (pk : Packet)
  /-- R422: A CE receives collective partial sums and combines them exactly. -/
  | collPart (pk : Packet)
  /-- R423: A collective result is written through the contributor's destination descriptor. -/
  | collResult (pk : Packet)
  /-- R412: A request gets no response within FAB.DEAD_TIMEOUT and is declared dead with poison. -/
  | fabDeadTimeout (tag : Code)
  /-- R407: A held stamped packet is discarded after FAB.DEAD_TIMEOUT. -/
  | fabHeldTimeout (tag : Code)
  /-- R424: A collective instance misses CE.COLL_TIMEOUT and raises 0x080C. -/
  | ceCollTimeout (n : Part) (group : Code) (inst : Nat)
  /-- R430: A host lane fails; the spare is switched in over I3C or the port goes DOWN. -/
  | hostLaneFail (lane : Fin 5)
  /-- R431: The port answers ARP for its own IPv4 address. -/
  | arpRequest (target : Protected Ip4)
  /-- R431: The port answers IPv6 Neighbor Discovery for its own address. -/
  | neighborSolicitation (target : Protected Ip6)
  /-- R431: The port answers ICMP or ICMPv6 echo. -/
  | echoRequest (v6 : Bool) (dst : BitVec 128) (payload : Protected Octets)
  /-- R432: An MKA frame takes part in MACsec key agreement. -/
  | mkaFrame (agreed : Bool)
  /-- R437: An OPEN packet opens a session or is refused with 0x090D. -/
  | openReq (src : BitVec 128) (v4 : Bool) (h : BrosinHdr) (payload : List Byte)
  /-- R437: An OPEN_OK answers a net-station OPEN and establishes the session. -/
  | openOk (h : BrosinHdr) (payload : List Byte)
  /-- R439: A CLOSE packet ends a session at once. -/
  | close (h : BrosinHdr) (payload : List Byte)
  /-- R438: A DATA packet is delivered in sequence and its frames go to command queues. -/
  | data (h : BrosinHdr) (payload : List Byte)
  /-- R438: An ACK packet acknowledges packets of a session. -/
  | ack (h : BrosinHdr) (payload : List Byte)
  /-- R439: A KEEPALIVE packet keeps a session alive. -/
  | keepalive (h : BrosinHdr) (payload : List Byte)
  /-- R454: An EVENT_ACK frees acknowledged packets from a channel's ring. -/
  | eventAck (h : BrosinHdr) (payload : List Byte)
  /-- R458: A NET message arrives and is written into the partition's receive ring, then acknowledged. -/
  | net (h : BrosinHdr) (payload : List Byte)
  /-- R438: 20 us after an unacknowledged receipt an ACK packet is sent. -/
  | ackTimer (session : Nat)
  /-- R439: The retransmission time expires and the oldest unacknowledged packet is resent. -/
  | brosinRto (session : Nat)
  /-- R439: After 100 ms without sending, a KEEPALIVE is sent. -/
  | keepaliveTimer (session : Nat)
  /-- R439: Nothing is received for HP.SESSION_TIMEOUT and the session is lost. -/
  | sessionTimeout (session : Nat)
  /-- R446: The NOP command completes with 0x0000. -/
  | hostNop (f : Frame)
  /-- R445: A frame with an unassigned CMD completes with 0x0902. -/
  | unknownCommand (cmd : Code) (f : Frame)
  /-- R277: SUBMIT is stamped with the arrival TBC and forwarded to the slice master for intake. -/
  | submit (f : Frame)
  /-- R280: CANCEL is forwarded for intake and sets CANCEL on the named request. -/
  | cancel (f : Frame)
  /-- R277: The master receives a forwarded command and places it in an intake. -/
  | forward (m : Mgmt) (f : HostCmd)
  /-- R278: A module receives an intake with its configuration hash, to apply at admission close or at once while disabled. -/
  | intake (m : Mgmt) (cmds : List HostCmd)
  /-- R449: RESULT_READ returns a DONE entry's result record and read count. -/
  | resultRead (f : Frame)
  /-- R450: RESULT_ACK frees a DONE entry when its intake is applied. -/
  | resultAck (f : Frame)
  /-- R234: PROGRAM_INSTALL checks and installs a step-program image. -/
  | programInstall (f : Frame)
  /-- R235: PROGRAM_REMOVE removes an installed program at intake. -/
  | programRemove (f : Frame)
  /-- R331: PN_LOAD enters Pannier items, evicting lower-priority ones where needed. -/
  | pnLoad (f : Frame)
  /-- R331: PN_PIN sets the pin flag on an item. -/
  | pnPin (f : Frame)
  /-- R331: PN_UNPIN clears the pin flag on an item. -/
  | pnUnpin (f : Frame)
  /-- R331: PN_DROP removes unpinned matching items. -/
  | pnDrop (f : Frame)
  /-- R331: PN_QUERY returns a die's Pannier directory. -/
  | pnQuery (f : Frame)
  /-- R447: MEM_READ returns committed or current memory bytes to the host. -/
  | memRead (f : Frame)
  /-- R447: MEM_WRITE writes host bytes to memory. -/
  | memWrite (f : Frame)
  /-- R448: REG_READ returns a register value on a management session. -/
  | regRead (f : Frame)
  /-- R448: REG_WRITE writes a register on a management session. -/
  | regWrite (f : Frame)
  /-- R452: CHANNEL_OPEN opens an event channel to a destination. -/
  | channelOpen (f : Frame)
  /-- R452: CHANNEL_CLOSE closes an event channel. -/
  | channelClose (f : Frame)
  /-- R562: The SPDM responder answers GET_VERSION with version 1.3. -/
  | getVersion (h : BrosinHdr) (msg : List Byte)
  /-- R562: The SPDM responder answers GET_CAPABILITIES. -/
  | getCapabilities (h : BrosinHdr) (msg : List Byte)
  /-- R562: The SPDM responder negotiates P-384 and SHA-384. -/
  | negotiateAlgorithms (h : BrosinHdr) (msg : List Byte)
  /-- R562: The SPDM responder returns certificate chain digests. -/
  | getDigests (h : BrosinHdr) (msg : List Byte)
  /-- R561: The SPDM responder returns the certificate chain of slot 0. -/
  | getCertificate (h : BrosinHdr) (msg : List Byte)
  /-- R562: The SPDM responder signs a challenge with the Alias key. -/
  | challenge (h : BrosinHdr) (msg : List Byte)
  /-- R563: The SPDM responder returns the measurement blocks. -/
  | getMeasurements (h : BrosinHdr) (msg : List Byte)
  /-- R562: The SPDM responder takes one chunk of a large message. -/
  | chunkSend (h : BrosinHdr) (msg : List Byte)
  /-- R562: The SPDM responder returns one chunk of a large response. -/
  | chunkGet (h : BrosinHdr) (msg : List Byte)
  /-- R562: Any other SPDM request is answered with UnsupportedRequest. -/
  | spdmUnsupportedRequest (h : BrosinHdr) (msg : List Byte)
  /-- R470: An arbiter window ends; credits reset and URGENT saturation is reported. -/
  | arbWindowEnd (a : Fin 14) (load : ArbLoad)
  /-- R475: An agent's deadline counter expires and its oldest request becomes URGENT. -/
  | agentDeadline (a : Fin 14) (agent : Agent)
  /-- R485: PART_QUERY returns a partition's configuration, status and credits. -/
  | partQuery (f : Frame)
  /-- R485: PREEMPT requests pre-emption of a best-effort domain. -/
  | preempt (f : Frame)
  /-- R481: A pre-emption hold of one spoke length ends and the segment starts again. -/
  | preemptHoldEnd (n : Part)
  /-- R494: A sampled unit starts replaying on the first available site. -/
  | replayStart (die : Fin 8)
  /-- R496: A replay finishes and its digest is compared, starting a third run or deciding fault. -/
  | replayComplete (die : Fin 8) (digest : Option (List Byte))
  /-- R501: Derailleur starts a structural scan of a site, one per die at a time. -/
  | scanStart (die : Fin 8)
  /-- R501: A scan ends; the site goes to WATCH or SPARE, or is retired. -/
  | scanComplete (die : Fin 8) (pass : Bool)
  /-- R502: A WATCH site's watch period ends and it becomes IN_SERVICE. -/
  | watchExpire (s : SiteId)
  /-- R506: A SPARE site's periodic scan becomes due. -/
  | spareScanDue (s : SiteId)
  /-- R507: The rotation period expires and the oldest-scanned in-service site is rotated through scan. -/
  | rotateDue (die : Fin 8)
  /-- R509: A die's PLL loses lock; Derailleur switches to a spare PLL or the die stops. -/
  | pllLockLoss (d : Fin 20)
  /-- R514: INT_SNAPSHOT_READ returns a snapshot record by ring index. -/
  | intSnapshotRead (f : Frame)
  /-- R514: INT_SNAPSHOT_CLEAR erases every snapshot. -/
  | intSnapshotClear (f : Frame)
  /-- R514: DER_QUERY returns a die's site states and slot map. -/
  | derQuery (f : Frame)
  /-- R514: DER_QUARANTINE quarantines a site under R500. -/
  | derQuarantine (f : Frame)
  /-- R514: DER_SCAN scans a SPARE site now and returns the result. -/
  | derScan (f : Frame)
  /-- R518: Input reaching 38.0 V takes the module from OFF to STANDBY and boot stage 1 runs. -/
  | inputRise
  /-- R539: Input below 38.0 V for 100 us acts as shelf loss with event 0x0C0D. -/
  | inputLow
  /-- R539: Input below 36.0 V for 10 us switches every rail off and enters OFF. -/
  | inputFail
  /-- R598: Input above 54.0 V for 10 us switches the main rails off and enters TRIPPED. -/
  | inputHigh
  /-- R520: PWR_EN rising in STANDBY latches MOD_ID and enters STAGGER. -/
  | pwrEnRise (straps : BitVec 6)
  /-- R532: PWR_EN falling stops issue and ramps ballast down, or takes TRIPPED to STANDBY. -/
  | pwrEnFall
  /-- R532: The ramp-down ends and the module enters STANDBY or, on a warm reset, RAMP. -/
  | rampDownDone
  /-- R520: The stagger delay of n × PWR.STAGGER ends and the module enters RAMP. -/
  | staggerEnd
  /-- R587: MOD_RESET_N held low for 10 us causes a cold reset. -/
  | modReset
  /-- R537: PWR_ALERT_N falling sets SHELF_LOSS and brings E to the shelf cap within 50 us. -/
  | shelfAlert
  /-- R537: PWR_ALERT_N high for 100 ms clears SHELF_LOSS. -/
  | shelfAlertClear
  /-- R523: Every 1 us Cobalt computes E and the controller sets issue levels, ballast, cap tracking and pre-emption. -/
  | powerEstimate (e : EstimateInput)
  /-- R524: Every 10 ms the calibration gain is adjusted against measured input power. -/
  | calibration (measured : Option Nat) (meanE : Nat) (vin : Nat)
  /-- R540: Every 100 us sensors are read and thermal ceilings, hold and trips are applied. -/
  | thermalSample (t : ThermalInput)
  /-- R538: No heartbeat within the timeout sets SAFE_CAP. -/
  | heartbeatTimeout
  /-- R530: Parking or unparking of a site completes after 0.5 ms. -/
  | siteUnparkDone (s : SiteId)
  /-- R546: PWR_CAP writes the commanded cap, counts as a heartbeat and returns the applied cap. -/
  | pwrCap (f : Frame)
  /-- R546: PWR_HEARTBEAT is a heartbeat. -/
  | pwrHeartbeat (f : Frame)
  /-- R546: PWR_QUERY returns the power status registers. -/
  | pwrQuery (f : Frame)
  /-- R565: SEC_ENROLL installs the Operator and Custodian keys. -/
  | secEnroll (f : Frame)
  /-- R569: SEC_CHANGE checks approval tokens and a change body, applying it at once or pending a commit. -/
  | secChange (f : Frame)
  /-- R577: SEC_QUERY returns the setup digest and security state. -/
  | secQuery (f : Frame)
  /-- R574: SEC_KEY_LOAD unwraps a key into a slot. -/
  | secKeyLoad (f : Frame)
  /-- R575: SEC_KEY_ERASE empties a key slot. -/
  | secKeyErase (f : Frame)
  /-- R577: SEC_RECORD_READ returns a signed record or the certificate chain. -/
  | secRecordRead (f : Frame)
  /-- R564: SEC_REPORT returns a signed REPORT record with the nonce and measurements. -/
  | secReport (f : Frame)
  /-- R559: SEC_RECORD_LOAD verifies and stores a DEBUG_AUTH, REVOKE or voltage-table record pair. -/
  | secRecordLoad (f : Frame)
  /-- R583: A bring-up stage completes and the next starts; after stage 6 the module is ON and READY. -/
  | rampStageComplete (r : StageResult)
  /-- R583: A bring-up stage passes its limit and fails with 0x0E01. -/
  | bringupStageTimeout
  /-- R585: 10 ms after READY with no torus port UP, the module chooses its time-base role. -/
  | tbRoleTimeout
  /-- R604: While a stage has failed, the UART sends the stage and code line once per second. -/
  | uartStageLine
  /-- R592: BOOT_FW_WRITE writes image bytes into the slot that is not CURRENT. -/
  | bootFwWrite (f : Frame)
  /-- R592: BOOT_FW_ACTIVATE checks an image and sets its slot to TRIAL. -/
  | bootFwActivate (f : Frame)
  /-- R592: BOOT_FW_COMMIT makes the running TRIAL slot CURRENT and may advance the fused SVN. -/
  | bootFwCommit (f : Frame)
  /-- R587: BOOT_RESET with kind 0 causes a cold reset. -/
  | bootResetCold (f : Frame)
  /-- R587: BOOT_RESET with kind 1 causes a warm reset that keeps close memory and selected registers. -/
  | bootResetWarm (f : Frame)
  /-- R589: BOOT_PART_RESET resets one partition on this module after its tick commits. -/
  | bootPartReset (f : Frame)
  /-- R590: BOOT_CORE_RESET zeros and clears one idle site. -/
  | bootCoreReset (f : Frame)
  /-- R592: A trial boot not READY within 2 s is marked BAD and the module warm-resets into CURRENT. -/
  | trialReadyTimeout
  /-- R592: A trial not committed within BOOT.TRIAL_TIMEOUT of READY is marked BAD. -/
  | trialTimeout
  /-- R605: SETDASA assigns the module's dynamic I3C address from its static address. -/
  | i3cSetdasa (addr : BitVec 7)
  /-- R605: ENTDAA assigns the module a dynamic I3C address. -/
  | i3cEntdaa (addr : BitVec 7)
  /-- R606: A private write with OP 0x01 reads a register. -/
  | i3cRegisterRead (addr : I3cHead)
  /-- R606: A private write with OP 0x02 writes a register. -/
  | i3cRegisterWrite (addr : I3cHead) (value : Word)
  /-- R606: A 10-byte private read returns the value and status of the last access. -/
  | i3cPrivateRead
  /-- R518: MOD_RESET_N returning high while PWR_EN is high lets a module held in STANDBY leave it and enter STAGGER. -/
  | modResetNRelease
  /-- R584: The host Ethernet port completes training and HP.STATUS goes to UP, upon which event 0x0E07 is raised. -/
  | hostPortTrained
  /-- R591: A record or snapshot write that Cobalt began in flash completes within 1 s, releasing any reset that waits for it. -/
  | flashRecordWritten
  /-- R475: The JESD239 refresh interval of a GDDR7 device expires and a refresh request is presented to its memory-port arbiter with its own deadline. -/
  | gddr7Refresh (md : Fin 4) (device : Fin 12)
  deriving DecidableEq, Repr

end Sys2Proof
end

