-- ==== Sys2Proof/Decode.lean ====
section
/-! DEFINITION. The decoder over the rows of spec/opcode_table.json that give bits, and the reading of a sequencer word. The
table gives its rows no bits: a command of this block reaches it as a record and not as a word, so no word spells a command by
the table (log 2). What the spec itself gives bits, the instruction words of a step program (R193 to R198), `seqInstr` reads. -/

namespace Sys2Proof

/-- The command that a word spells by the table's bits: none, for the table gives its rows no bits. -/
def decodeTableWord (_nbits _w : Nat) : Option Instr := none

/-! ## Sequencer words (R193, R195, R198) -/

/-- Format R of a word. -/
def wordR (w : Word) : FmtR :=
  { guard := w.extractLsb' 52 4, d := w.extractLsb' 47 5, a := w.extractLsb' 42 5, b := w.extractLsb' 37 5,
    c := w.extractLsb' 32 5, fn := w.extractLsb' 24 8, x := w.extractLsb' 0 24 }

/-- Format I of a word. -/
def wordI (w : Word) : FmtI :=
  { guard := w.extractLsb' 52 4, d := w.extractLsb' 47 5, a := w.extractLsb' 42 5, imm := w.extractLsb' 0 42 }

/-- Format L of a word. -/
def wordL (w : Word) : FmtL :=
  { guard := w.extractLsb' 52 4, d := w.extractLsb' 47 5, a := w.extractLsb' 42 5, bound := w.extractLsb' 18 24,
    len := w.extractLsb' 0 18 }

/-- Format J of a word. -/
def wordJ (w : Word) : FmtJ :=
  { guard := w.extractLsb' 52 4, rsv := w.extractLsb' 42 10, off := w.extractLsb' 0 42 }

/-- Format T of a word. -/
def wordT (w : Word) : FmtT :=
  { guard := w.extractLsb' 52 4, q0 := w.extractLsb' 48 4, q1 := w.extractLsb' 44 4, q2 := w.extractLsb' 40 4,
    q3 := w.extractLsb' 36 4, t0 := w.extractLsb' 31 5, t1 := w.extractLsb' 26 5, fn := w.extractLsb' 18 8,
    m := w.extractLsb' 10 8, s := w.extractLsb' 5 5, s2 := w.extractLsb' 0 5 }

/-- Format Q of a word. -/
def wordQ (w : Word) : FmtQ :=
  { guard := w.extractLsb' 52 4, qn := w.extractLsb' 48 4, prod := w.extractLsb' 44 4, cons := w.extractLsb' 40 4,
    dstn := w.extractLsb' 38 2, fmt := w.extractLsb' 34 4, rlog := w.extractLsb' 29 5, base := w.extractLsb' 20 9,
    rsv := w.extractLsb' 0 20 }

/-- Control and scalar instructions, opcodes 0x00 to 0x21. -/
def seqScalar (c : CoreId) (w literal : Word) : Option Instr :=
  match (w.extractLsb' 56 8).toNat with
  | 0x00 => some (.nop c (wordJ w))
  | 0x01 => some (.br c (wordJ w))
  | 0x02 => some (.call c (wordJ w))
  | 0x03 => some (.ret c (wordJ w))
  | 0x04 => some (.loop c (wordL w))
  | 0x05 => some (.loopw c (wordL w))
  | 0x06 => some (.breakLoop c (wordJ w))
  | 0x07 => some (.segend c (wordJ w))
  | 0x08 => some (.stepend c (wordJ w))
  | 0x09 => some (.trap c (wordI w))
  | 0x10 => some (.add c (wordR w))
  | 0x11 => some (.sub c (wordR w))
  | 0x12 => some (.mul c (wordR w))
  | 0x13 => some (.mulh c (wordR w))
  | 0x14 => some (.and c (wordR w))
  | 0x15 => some (.or c (wordR w))
  | 0x16 => some (.xor c (wordR w))
  | 0x17 => some (.shl c (wordR w))
  | 0x18 => some (.shr c (wordR w))
  | 0x19 => some (.sra c (wordR w))
  | 0x1A => some (.min c (wordR w))
  | 0x1B => some (.max c (wordR w))
  | 0x1C => some (.clz c (wordR w))
  | 0x1D => some (.addi c (wordI w))
  | 0x1E => some (.li c (wordI w) literal)
  | 0x1F => some (.sel c (wordR w))
  | 0x20 => some (.cmp c (wordR w))
  | 0x21 => some (.plog c (wordR w))
  | _ => none

/-- Memory, descriptor and stream instructions, opcodes 0x28 to 0x43. -/
def seqMemory (c : CoreId) (w literal : Word) : Option Instr :=
  match (w.extractLsb' 56 8).toNat with
  | 0x28 => some (.ld c (wordI w))
  | 0x29 => some (.st c (wordI w))
  | 0x2A => some (.atom c (wordR w))
  | 0x2B => some (.rdsr c (wordI w))
  | 0x2C => some (.waitv c (wordR w))
  | 0x30 => some (.tdld c (wordI w))
  | 0x31 => some (.tdst c (wordI w))
  | 0x32 => some (.tdmov c (wordR w))
  | 0x33 => some (.tdset c (wordR w))
  | 0x34 => some (.tdget c (wordR w))
  | 0x35 => some (.tdadd c (wordR w))
  | 0x36 => some (.tdseti c (wordR w) literal)
  | 0x40 => some (.qopen c (wordQ w))
  | 0x41 => some (.qclose c (wordT w))
  | 0x42 => some (.qsync c (wordT w))
  | 0x43 => some (.qstat c (wordT w))
  | _ => none

/-- The row of a VXOP by its function code (R207); a reserved code is refused by any row at issue. -/
def seqVx (c : CoreId) (f : FmtT) : Instr :=
  let k := f.fn.toNat
  if k < 0x10 then .vxFp32Op c f
  else if k < 0x20 then .vxInt32Op c f
  else if k < 0x30 then .vxTranscendental c f
  else if k < 0x38 then .vxRowReduction c f
  else if k = 0x3C then .vxLadd c f
  else .vxCvt c f

/-- The row of a TXOP by its function code (R208). -/
def seqTx (c : CoreId) (f : FmtT) : Instr :=
  match f.fn.toNat with
  | 1 => .dequant c f
  | 2 => .convert c f
  | 3 => .transpose c f
  | 4 => .gather c f
  | 5 => .scatter c f
  | _ => .quant c f

/-- The row of a COLL by its kind (R211, R418). -/
def seqColl (c : CoreId) (f : FmtT) : Instr :=
  match f.fn.toNat with
  | 2 => .reduceSum c f
  | 3 => .reduceScatterSum c f
  | 4 => .allreduceMax c f
  | 5 => .allgather c f
  | 6 => .broadcast c f
  | 7 => .barrier c f
  | _ => .allreduceSum c f

/-- The row of a DCMD by its station and command (R209, R268, R303). -/
def seqDcmd (c : CoreId) (f : FmtR) : Instr :=
  match f.x.toNat, f.fn.toNat with
  | 0, 2 => .kvPage c f
  | 1, 1 => .route c f
  | 1, 2 => .dispatch c f
  | 1, 3 => .waitin c f
  | 1, 4 => .returnRows c f
  | 1, 5 => .combine c f
  | 1, 6 => .exQuery c f
  | 2, 1 => .draftsync c f
  | 2, 2 => .yield c f
  | _, _ => .alloc c f

/-- Station, synchronisation, fabric and integrity instructions, opcodes 0x50 to 0x82. -/
def seqStation (c : CoreId) (w : Word) : Option Instr :=
  match (w.extractLsb' 56 8).toNat with
  | 0x50 => some (.mxld c (wordT w))
  | 0x51 => some (.mxrun c ⟨wordT w, none⟩)
  | 0x52 => some (.mxout c (wordT w))
  | 0x53 => some (.mxsave c (wordT w))
  | 0x54 => some (.mxrst c (wordT w))
  | 0x55 => some (.mxwalk c ⟨wordT w, none⟩)
  | 0x58 => some (seqVx c (wordT w))
  | 0x5A => some (seqTx c (wordT w))
  | 0x5C => some (.tld c (wordT w))
  | 0x5D => some (.tst c (wordT w))
  | 0x60 => some (seqDcmd c (wordR w))
  | 0x61 => some (.sample c (wordT w))
  | 0x62 => some (.stopchk c (wordT w))
  | 0x63 => some (.claim c (wordR w))
  | 0x70 => some (.fence c (wordR w))
  | 0x71 => some (.bar c (wordR w))
  | 0x72 => some (seqColl c (wordT w))
  | 0x73 => some (.cwait c (wordR w))
  | 0x80 => some (.digest c (wordR w))
  | 0x81 => some (.audb c (wordI w))
  | 0x82 => some (.aude c (wordJ w))
  | _ => none

/-- The command that a core's sequencer issues for an instruction word and the word after it (R193, R195, R198); none for an
unassigned opcode, which is 0x0301 (R196). No residue check of it fails (R140). -/
def seqInstr (c : CoreId) (w literal : Word) : Option Instr :=
  match seqScalar c w literal with
  | some i => some i
  | none =>
    match seqMemory c w literal with
    | some i => some i
    | none => seqStation c w

end Sys2Proof
end

