-- ==== Sys2Proof/Machine/Numeric.lean ====
section
/-! DEFINITION. Exact arithmetic on binary fractions, the IEEE 754-2019 binary formats of R79 to R81, rounding to nearest
with ties to even, and the correctly rounded functions of R174. -/

namespace Sys2Proof.Machine

/-! ## Integers and bytes -/

/-- The low `n` bytes of a natural number, least significant first (R3). -/
def natBytes : Nat → Nat → List Byte
  | 0, _ => []
  | n + 1, v => BitVec.ofNat 8 v :: natBytes n (v / 256)

/-- The number that little-endian bytes spell (R3). -/
def bytesNat : List Byte → Nat
  | [] => 0
  | b :: l => b.toNat + 256 * bytesNat l

/-- Bytes `off` to `off + n - 1` of a record as a number. -/
def fieldNat (l : List Byte) (off n : Nat) : Nat := bytesNat ((l.drop off).take n)

/-- Whether bytes are all zero. -/
def zeros (bs : List Byte) : Bool := bs.all (fun b => b == 0)

/-- Bytes `off` to `off + n − 1`. -/
def sub (bs : List Byte) (off n : Nat) : List Byte := (bs.drop off).take n

/-- The two's-complement value of the low `w` bits of a number. -/
def signed (w v : Nat) : Int :=
  if v % 2 ^ w < 2 ^ (w - 1) then ((v % 2 ^ w : Nat) : Int) else ((v % 2 ^ w : Nat) : Int) - (2 ^ w : Nat)

/-- An integer modulo 2^w. -/
def wrap (w : Nat) (v : Int) : Nat := (v % ((2 ^ w : Nat) : Int)).toNat

/-- An integer clamped to a range. -/
def clampInt (lo hi v : Int) : Int := if v < lo then lo else if hi < v then hi else v

/-- `m / 2^k` rounded to nearest, ties to even. -/
def rneShift (m k : Nat) : Nat :=
  if k = 0 then m
  else if Nat.log2 m + 2 < k then 0
  else
    let q := m / 2 ^ k
    let r := m % 2 ^ k
    let half := 2 ^ (k - 1)
    if half < r ∨ (r = half ∧ q % 2 = 1) then q + 1 else q

/-! ## Exact binary fractions -/

/-- The number m × 2^e. -/
structure Dy where
  m : Int
  e : Int
  deriving DecidableEq, Repr

/-- Zero. -/
def Dy.zero : Dy := ⟨0, 0⟩

/-- The significand of a dyadic at a smaller exponent. -/
def Dy.at (x : Dy) (e : Int) : Int := x.m * ((2 ^ (x.e - e).toNat : Nat) : Int)

/-- Sum. -/
def Dy.add (x y : Dy) : Dy :=
  let e := min x.e y.e
  ⟨x.at e + y.at e, e⟩

/-- Negation. -/
def Dy.neg (x : Dy) : Dy := ⟨-x.m, x.e⟩

/-- Product. -/
def Dy.mul (x y : Dy) : Dy := ⟨x.m * y.m, x.e + y.e⟩

/-- Product with a power of two. -/
def Dy.shift (x : Dy) (k : Int) : Dy := ⟨x.m, x.e + k⟩

/-- Order. -/
def Dy.le (x y : Dy) : Bool :=
  let e := min x.e y.e
  decide (x.at e ≤ y.at e)

/-- Strict order. -/
def Dy.lt (x y : Dy) : Bool := !(y.le x)

/-- Magnitude. -/
def Dy.abs (x : Dy) : Dy := ⟨(x.m.natAbs : Int), x.e⟩

/-- floor(log2) of the magnitude of a non-zero dyadic. -/
def Dy.log2 (x : Dy) : Int := (Nat.log2 x.m.natAbs : Int) + x.e

/-- floor(x / 2^k). -/
def Dy.floorAt (x : Dy) (k : Int) : Int :=
  if k ≤ x.e then x.at k else x.m / ((2 ^ (k - x.e).toNat : Nat) : Int)

/-- x / 2^k rounded to the nearest integer, ties to even. -/
def Dy.rneAt (x : Dy) (k : Int) : Int :=
  if k ≤ x.e then x.at k
  else
    let n := rneShift x.m.natAbs (k - x.e).toNat
    if x.m < 0 then -(n : Int) else (n : Int)

/-! ## Floating-point values -/

/-- A floating-point format: exponent and fraction widths. The bias is 2^(ew − 1) − 1. -/
structure FpFmt where
  ew : Nat
  mw : Nat
  deriving DecidableEq, Repr

/-- FP32, BF16 and FP16 of R79. -/
def fpSingle : FpFmt := ⟨8, 23⟩
def fpBrain : FpFmt := ⟨8, 7⟩
def fpHalf : FpFmt := ⟨5, 10⟩

/-- The exponent bias. -/
def FpFmt.bias (f : FpFmt) : Nat := 2 ^ (f.ew - 1) - 1

/-- A floating-point datum: a signed exact magnitude, an infinity or a NaN. -/
inductive Fv
  | fin (neg : Bool) (m : Nat) (e : Int)
  | inf (neg : Bool)
  | nan
  deriving DecidableEq, Repr

/-- The datum a code stands for (R79). -/
def FpFmt.decode (f : FpFmt) (code : Nat) : Fv :=
  let frac := code % 2 ^ f.mw
  let ex := code / 2 ^ f.mw % 2 ^ f.ew
  let neg := code / 2 ^ (f.mw + f.ew) % 2 = 1
  if ex = 2 ^ f.ew - 1 then (if frac = 0 then .inf neg else .nan)
  else if ex = 0 then .fin neg frac (1 - (f.bias : Int) - f.mw)
  else .fin neg (2 ^ f.mw + frac) ((ex : Int) - f.bias - f.mw)

/-- The canonical NaN code (R81). -/
def FpFmt.nanCode (f : FpFmt) : Nat := (2 ^ f.ew - 1) * 2 ^ f.mw + 2 ^ (f.mw - 1)

/-- The code of an infinity. -/
def FpFmt.infCode (f : FpFmt) (neg : Bool) : Nat :=
  (2 ^ f.ew - 1) * 2 ^ f.mw + (if neg then 2 ^ (f.mw + f.ew) else 0)

/-- The code of the largest finite value. -/
def FpFmt.maxCode (f : FpFmt) (neg : Bool) : Nat := f.infCode neg - 1

/-- A magnitude m × 2^e rounded to nearest, ties to even, with gradual underflow: its code without the sign, at or above
the code of infinity where it is out of range. -/
def FpFmt.roundMag (f : FpFmt) (m : Nat) (e : Int) : Nat :=
  if m = 0 then 0
  else
    let emin := 1 - (f.bias : Int) - f.mw
    let q := max ((Nat.log2 m : Int) + e - f.mw) emin
    let n := if q ≤ e then m * 2 ^ (e - q).toNat else rneShift m (q - e).toNat
    (q - emin).toNat * 2 ^ f.mw + n

/-- The code of a signed magnitude; out of range it is an infinity, or the largest finite value when `sat`. -/
def FpFmt.round (f : FpFmt) (sat neg : Bool) (m : Nat) (e : Int) : Nat :=
  let c := f.roundMag m e
  if f.infCode false ≤ c then (if sat then f.maxCode neg else f.infCode neg)
  else c + (if neg then 2 ^ (f.mw + f.ew) else 0)

/-- Whether a magnitude rounds out of range. -/
def FpFmt.overflows (f : FpFmt) (m : Nat) (e : Int) : Bool := decide (f.infCode false ≤ f.roundMag m e)

/-- The code of a datum. -/
def FpFmt.encode (f : FpFmt) : Fv → Nat
  | .fin neg m e => f.round false neg m e
  | .inf neg => f.infCode neg
  | .nan => f.nanCode

/-- The exact value of a finite datum. -/
def Fv.dy : Fv → Dy
  | .fin neg m e => ⟨if neg then -(m : Int) else m, e⟩
  | _ => Dy.zero

/-- Whether a datum is a NaN, an infinity, a zero, negative in sign. -/
def Fv.isNan : Fv → Bool
  | .nan => true
  | _ => false
def Fv.isInf : Fv → Bool
  | .inf _ => true
  | _ => false
def Fv.isZero : Fv → Bool
  | .fin _ m _ => m == 0
  | _ => false
def Fv.isNeg : Fv → Bool
  | .fin n _ _ => n
  | .inf n => n
  | .nan => false

/-- A dyadic as a datum, with the sign of zero given. -/
def Dy.fv (x : Dy) (zneg : Bool) : Fv :=
  if x.m = 0 then .fin zneg 0 0 else .fin (decide (x.m < 0)) x.m.natAbs x.e

/-- Exact negation. -/
def Fv.neg : Fv → Fv
  | .fin n m e => .fin (!n) m e
  | .inf n => .inf (!n)
  | .nan => .nan

/-- Exact magnitude. -/
def Fv.abs : Fv → Fv
  | .fin _ m e => .fin false m e
  | .inf _ => .inf false
  | .nan => .nan

/-- IEEE 754-2019 addition before rounding: exact, with the sign of a zero sum under rounding to nearest. -/
def Fv.add (x y : Fv) : Fv :=
  match x, y with
  | .nan, _ => .nan
  | _, .nan => .nan
  | .inf a, .inf b => if a = b then .inf a else .nan
  | .inf a, _ => .inf a
  | _, .inf b => .inf b
  | .fin a _ _, .fin b _ _ => ((x.dy).add y.dy).fv (a && b)

/-- IEEE 754-2019 multiplication before rounding. -/
def Fv.mul (x y : Fv) : Fv :=
  match x, y with
  | .nan, _ => .nan
  | _, .nan => .nan
  | .inf a, .inf b => .inf (a ^^ b)
  | .inf a, .fin b m _ => if m = 0 then .nan else .inf (a ^^ b)
  | .fin a m _, .inf b => if m = 0 then .nan else .inf (a ^^ b)
  | .fin a m e, .fin b n k => .fin (a ^^ b) (m * n) (e + k)

/-- Quiet order: none when unordered. -/
def Fv.lt? (x y : Fv) : Option Bool :=
  match x, y with
  | .nan, _ => none
  | _, .nan => none
  | .inf a, .inf b => some (a && !b)
  | .inf a, _ => some a
  | _, .inf b => some (!b)
  | _, _ => some (x.dy.lt y.dy)

/-- Quiet equality: false when unordered. -/
def Fv.eqv (x y : Fv) : Bool :=
  match x.lt? y, y.lt? x with
  | some false, some false => true
  | _, _ => false

/-- IEEE 754-2019 minimum and maximum (R619): a NaN operand gives NaN, and −0 orders below +0. -/
def Fv.minimum (x y : Fv) : Fv :=
  match x.lt? y, y.lt? x with
  | some true, _ => x
  | _, some true => y
  | some false, some false => if x.isNeg then x else y
  | _, _ => .nan
def Fv.maximum (x y : Fv) : Fv :=
  match x.lt? y, y.lt? x with
  | some true, _ => y
  | _, some true => x
  | some false, some false => if x.isNeg then y else x
  | _, _ => .nan

/-- A datum rounded to FP32 (R172). -/
def Fv.to32 (x : Fv) : Fv := fpSingle.decode (fpSingle.encode x)

/-- A datum converted to a clamped 32-bit integer (R172): nearest, ties to even, a NaN gives −2^31. The flag says that it
clamped. -/
def Fv.toInt32 (x : Fv) : Int × Bool :=
  match x with
  | .nan => (-(2 ^ 31), false)
  | .inf n => (if n then -(2 ^ 31 - 1) else 2 ^ 31 - 1, true)
  | .fin _ _ _ =>
    let v := x.dy.rneAt 0
    let c := clampInt (-(2 ^ 31 - 1)) (2 ^ 31 - 1) v
    (c, decide (c ≠ v))

/-! ## Correctly rounded functions (R174)

Each result is bracketed by two integers in units of 2^(−p); the precision p grows until both ends round to the same
FP32 code. -/

/-- Integer square root by Newton steps from above. -/
def isqrtIter : Nat → Nat → Nat → Nat
  | 0, _, x => x
  | fuel + 1, n, x =>
    let y := (x + n / x) / 2
    if x ≤ y then x else isqrtIter fuel n y

/-- floor(sqrt n). -/
def isqrt (n : Nat) : Nat :=
  if n = 0 then 0 else isqrtIter (Nat.log2 n + 8) n (2 ^ (Nat.log2 n / 2 + 1))

/-- Rounds a positive number in the interval from m × 2^e, exclusive, to (m + 1) × 2^e, exclusive; `m` has at least
26 bits more than the format needs. -/
def roundSticky (neg exact : Bool) (m : Nat) (e : Int) : Fv :=
  if exact then .fin neg m e else .fin neg (2 * m + 1) (e - 1)

/-- 1 / x for a finite non-zero x, as a datum that rounds to the correct FP32 code. -/
def recipFv (neg : Bool) (m : Nat) (e : Int) : Fv :=
  let k := Nat.log2 m + 64
  roundSticky neg (2 ^ k % m == 0) (2 ^ k / m) (-(k : Int) - e)

/-- sqrt x for a finite positive x. -/
def sqrtFv (m : Nat) (e : Int) : Fv :=
  let m1 := if e % 2 = 0 then m else 2 * m
  let e1 := if e % 2 = 0 then e else e - 1
  let n := m1 * 2 ^ 128
  let r := isqrt n
  roundSticky false (r * r == n) r (e1 / 2 - 64)

/-- 1 / sqrt x for a finite positive x. -/
def rsqrtFv (m : Nat) (e : Int) : Fv :=
  let m1 := if e % 2 = 0 then m else 2 * m
  let e1 := if e % 2 = 0 then e else e - 1
  let k := Nat.log2 m1 + 64
  let n := 2 ^ (2 * k) / m1
  let r := isqrt n
  roundSticky false (r * r * m1 == 2 ^ (2 * k)) r (-(e1 / 2) - k)

/-- An interval of integers in units of 2^(−p). -/
structure Iv where
  lo : Int
  hi : Int
  deriving DecidableEq, Repr

/-- floor and ceiling of a product of two fixed-point numbers. -/
def mulFloor (p : Nat) (a b : Int) : Int := (a * b) / ((2 ^ p : Nat) : Int)
def mulCeil (p : Nat) (a b : Int) : Int := -((-(a * b)) / ((2 ^ p : Nat) : Int))

/-- Taylor sum of exp(r) for 0 ≤ r < 1/16 in units of 2^(−p): partial sums of floored terms, each short by at most one
unit. -/
def expTaylor (p : Nat) (r : Nat) : Nat → Nat → Nat → Nat → Nat
  | 0, _, _, acc => acc
  | fuel + 1, k, term, acc =>
    let t := term * r / 2 ^ p / (k + 1)
    if t = 0 then acc else expTaylor p r fuel (k + 1) t (acc + t)

/-- Squares an interval of positive numbers `n` times. -/
def sqIter (p : Nat) : Nat → Iv → Iv
  | 0, x => x
  | n + 1, x => sqIter p n ⟨mulFloor p x.lo x.lo, mulCeil p x.hi x.hi⟩

/-- An interval that holds exp(x) for 0 ≤ x in units of 2^(−p), by halving the argument to below 1/16. -/
def expPos (p : Nat) (lo hi : Nat) : Iv :=
  let j := Nat.log2 (hi / 2 ^ p + 1) + 6
  let q := p + 2 * j + 16
  let rl := lo * 2 ^ (q - p) / 2 ^ j
  let rh := hi * 2 ^ (q - p) / 2 ^ j + 1
  let tl := expTaylor q rl (q + 8) 0 (2 ^ q) (2 ^ q)
  let th := expTaylor q rh (q + 8) 0 (2 ^ q) (2 ^ q) + q + 16
  let s := sqIter q j ⟨tl, th⟩
  ⟨s.lo / ((2 ^ (q - p) : Nat) : Int), s.hi / ((2 ^ (q - p) : Nat) : Int) + 1⟩

/-- An interval that holds exp(x), `x` given as an interval in units of 2^(−p). -/
def expIv (p : Nat) (x : Iv) : Iv :=
  if 0 ≤ x.lo then expPos p x.lo.toNat x.hi.toNat
  else
    let y := expPos p (-x.hi).toNat (-x.lo).toNat
    let one := ((2 ^ (2 * p) : Nat) : Int)
    ⟨one / y.hi, one / y.lo + 1⟩

/-- Partial sum of atanh(a / b) in units of 2^(−p): sum of (a/b)^(2k+1) / (2k+1), floored terms. -/
def atanhSum (p a b : Nat) : Nat → Nat → Nat → Nat → Nat
  | 0, _, _, acc => acc
  | fuel + 1, k, pow, acc =>
    if pow = 0 then acc
    else atanhSum p a b fuel (k + 1) (pow * a / b * a / b) (acc + pow / (2 * k + 1))

/-- An interval that holds ln 2 = 2 atanh(1/3). -/
def ln2Iv (p : Nat) : Iv :=
  let s := 2 * atanhSum p 1 3 (p + 4) 0 (2 ^ p / 3) 0
  ⟨s, s + 4 * p + 16⟩

/-- An interval that holds ln(m / 2^l) for 2^l ≤ m < 2^(l+1): 2 atanh((m − 2^l) / (m + 2^l)). -/
def lnIv (p m l : Nat) : Iv :=
  let a := m - 2 ^ l
  let b := m + 2 ^ l
  let s := 2 * atanhSum p a b (2 * p + 4) 0 (2 ^ p * a / b) 0
  ⟨s, s + 8 * p + 16⟩

/-- The FP32 code both ends of an interval round to, or none. -/
def Iv.round32 (p : Nat) (x : Iv) : Option Nat :=
  let f := fun (v : Int) => fpSingle.encode ((⟨v, -(p : Int)⟩ : Dy).fv false)
  if f x.lo = f x.hi ∧ (x.lo < 0 ↔ x.hi < 0) then some (f x.lo) else none

/-- Tries rising precisions until one decides the rounding. -/
def decideRound (g : Nat → Option Nat) : List Nat → Nat
  | [] => fpSingle.nanCode
  | p :: ps =>
    match g p with
    | some c => c
    | none => decideRound g ps

/-- The precisions tried. -/
def precisions : List Nat := [200, 400, 800, 1600, 3200]

/-- x in units of 2^(−p) as an interval. -/
def Dy.iv (x : Dy) (p : Nat) : Iv :=
  let f := x.floorAt (-(p : Int))
  if x.at (min x.e (-(p : Int))) = (⟨f, -(p : Int)⟩ : Dy).at (min x.e (-(p : Int))) then ⟨f, f⟩ else ⟨f, f + 1⟩

/-- FP32 code of exp of a finite x. -/
def expCode (x : Dy) : Nat :=
  if x.m = 0 then fpSingle.encode (.fin false 1 0)
  else if x.le ⟨-110, 0⟩ then 0
  else if (⟨90, 0⟩ : Dy).le x then fpSingle.infCode false
  else decideRound (fun p => (expIv p (x.iv p)).round32 p) precisions

/-- FP32 code of 2^x of a finite x. -/
def exp2Code (x : Dy) : Nat :=
  if x.le ⟨-151, 0⟩ then 0
  else if (⟨128, 0⟩ : Dy).le x then fpSingle.infCode false
  else
    let n := x.floorAt 0
    let f := x.add ⟨-n, 0⟩
    if f.m = 0 then fpSingle.encode (.fin false 1 n)
    else
      decideRound (fun p =>
        let l := ln2Iv p
        let fi := f.iv p
        let y := expIv p ⟨mulFloor p fi.lo l.lo, mulCeil p fi.hi l.hi⟩
        let g := fun (v : Int) => fpSingle.encode ((⟨v, n - (p : Int)⟩ : Dy).fv false)
        if g y.lo = g y.hi then some (g y.lo) else none) precisions

/-- FP32 code of log2 of a finite positive x. -/
def log2Code (m : Nat) (e : Int) : Nat :=
  let l := Nat.log2 m
  let n := (l : Int) + e
  if m = 2 ^ l then fpSingle.encode ((⟨n, 0⟩ : Dy).fv false)
  else
    decideRound (fun p =>
      let a := lnIv p m l
      let b := ln2Iv p
      let lo := a.lo * ((2 ^ p : Nat) : Int) / b.hi + n * ((2 ^ p : Nat) : Int)
      let hi := a.hi * ((2 ^ p : Nat) : Int) / b.lo + 1 + n * ((2 ^ p : Nat) : Int)
      (⟨lo, hi⟩ : Iv).round32 p) precisions

/-- FP32 code of tanh of a finite x, from tanh |x| = (t − 1) / (t + 1) with t = exp(2 |x|). -/
def tanhCode (x : Dy) (zneg : Bool) : Nat :=
  if x.m = 0 then fpSingle.encode (.fin zneg 0 0)
  else
    let s := decide (x.m < 0)
    let a := x.abs
    let c :=
      if (⟨20, 0⟩ : Dy).le a then fpSingle.encode (.fin false 1 0)
      else
        decideRound (fun p =>
          let t := expIv p ((a.shift 1).iv p)
          let one := ((2 ^ p : Nat) : Int)
          let lo := (t.lo - one) * one / (t.hi + one)
          let hi := (t.hi - one) * one / (t.lo + one) + 1
          (⟨max lo 0, hi⟩ : Iv).round32 p) precisions
    c + (if s then 2 ^ 31 else 0)

end Sys2Proof.Machine
end

