-- ==== Sys2Proof/Machine/Sha.lean ====
section
/-! DEFINITION. SHA-384 and SHA-256 as FIPS 180-4 defines them, which the spec names for every digest (R231, R356, R360,
R562). -/

namespace Sys2Proof.Machine

/-- The eight working variables of a hash. -/
structure ShaVars (w : Nat) where
  a : BitVec w
  b : BitVec w
  c : BitVec w
  d : BitVec w
  e : BitVec w
  f : BitVec w
  g : BitVec w
  h : BitVec w
  deriving DecidableEq, Repr

/-- What tells one hash of the family from another: the two big and the two small sigma functions, and the round constants. -/
structure ShaKind (w : Nat) where
  bigA : BitVec w → BitVec w
  bigE : BitVec w → BitVec w
  small0 : BitVec w → BitVec w
  small1 : BitVec w → BitVec w
  ks : List (BitVec w)

/-- The variables after one round, with round constant and schedule word added. -/
def ShaVars.round {w : Nat} (k : ShaKind w) (v : ShaVars w) (kw : BitVec w) : ShaVars w :=
  let t1 := v.h + k.bigE v.e + ((v.e &&& v.f) ^^^ (~~~v.e &&& v.g)) + kw
  let t2 := k.bigA v.a + ((v.a &&& v.b) ^^^ (v.a &&& v.c) ^^^ (v.b &&& v.c))
  { a := t1 + t2, b := v.a, c := v.b, d := v.c, e := v.d + t1, f := v.e, g := v.f, h := v.g }

/-- The rounds over the constants left, with the sixteen schedule words in turn. -/
def shaRounds {w : Nat} (k : ShaKind w) : List (BitVec w) → List (BitVec w) → ShaVars w → ShaVars w
  | [], _, v => v
  | c :: cs, ws, v =>
    let next := k.small1 (ws.getD 14 0) + ws.getD 9 0 + k.small0 (ws.getD 1 0) + ws.getD 0 0
    shaRounds k cs (ws.drop 1 ++ [next]) (v.round k (c + ws.getD 0 0))

/-- One block of sixteen words. -/
def shaBlock {w : Nat} (k : ShaKind w) (v : ShaVars w) (ws : List (BitVec w)) : ShaVars w :=
  let r := shaRounds k k.ks ws v
  { a := v.a + r.a, b := v.b + r.b, c := v.c + r.c, d := v.d + r.d, e := v.e + r.e, f := v.f + r.f, g := v.g + r.g,
    h := v.h + r.h }

/-- A big-endian number of bytes. -/
def bytesBig (bs : List Byte) : Nat := bs.foldl (fun n b => 256 * n + b.toNat) 0

/-- A number as big-endian bytes. -/
def bigBytes (n v : Nat) : List Byte := (natBytes n v).reverse

/-- The message padded: a one bit, zeros, and the length in bits as the last two words of a block of sixteen words. -/
def shaPad (wordLen : Nat) (msg : List Byte) : List Byte :=
  let block := 16 * wordLen
  let used := (msg.length + 1 + 2 * wordLen) % block
  msg ++ [0x80] ++ List.replicate ((block - used) % block) 0 ++ bigBytes (2 * wordLen) (8 * msg.length)

/-- The big-endian words of some bytes. -/
def shaWords (w : Nat) (n : Nat) (bs : List Byte) : List (BitVec w) :=
  (List.range n).map (fun i => BitVec.ofNat w (bytesBig (sub bs (w / 8 * i) (w / 8))))

/-- A hash from its first variables. -/
def shaRun {w : Nat} (k : ShaKind w) (v : ShaVars w) (msg : List Byte) : ShaVars w :=
  let bs := shaPad (w / 8) msg
  (List.range (bs.length / (2 * w))).foldl (fun x i => shaBlock k x (shaWords w 16 (sub bs (2 * w * i) (2 * w)))) v

/-- The round constants of SHA-384, eight to a number with the first on top: the 64 bits behind the binary point of the cube
roots of the first 80 primes. -/
def shaTable : List Nat :=
  [0x428a2f98d728ae227137449123ef65cdb5c0fbcfec4d3b2fe9b5dba58189dbbc3956c25bf348b53859f111f1b605d019923f82a4af194f9bab1c5ed5da6d8118,
   0xd807aa98a303024212835b0145706fbe243185be4ee4b28c550c7dc3d5ffb4e272be5d74f27b896f80deb1fe3b1696b19bdc06a725c71235c19bf174cf692694,
   0xe49b69c19ef14ad2efbe4786384f25e30fc19dc68b8cd5b5240ca1cc77ac9c652de92c6f592b02754a7484aa6ea6e4835cb0a9dcbd41fbd476f988da831153b5,
   0x983e5152ee66dfaba831c66d2db43210b00327c898fb213fbf597fc7beef0ee4c6e00bf33da88fc2d5a79147930aa72506ca6351e003826f142929670a0e6e70,
   0x27b70a8546d22ffc2e1b21385c26c9264d2c6dfc5ac42aed53380d139d95b3df650a73548baf63de766a0abb3c77b2a881c2c92e47edaee692722c851482353b,
   0xa2bfe8a14cf10364a81a664bbc423001c24b8b70d0f89791c76c51a30654be30d192e819d6ef5218d69906245565a910f40e35855771202a106aa07032bbd1b8,
   0x19a4c116b8d2d0c81e376c085141ab532748774cdf8eeb9934b0bcb5e19b48a8391c0cb3c5c95a634ed8aa4ae3418acb5b9cca4f7763e373682e6ff3d6b2b8a3,
   0x748f82ee5defb2fc78a5636f43172f6084c87814a1f0ab728cc702081a6439ec90befffa23631e28a4506cebde82bde9bef9a3f7b2c67915c67178f2e372532b,
   0xca273eceea26619cd186b8c721c0c207eada7dd6cde0eb1ef57d4f7fee6ed17806f067aa72176fba0a637dc5a2c898a6113f9804bef90dae1b710b35131c471b,
   0x28db77f523047d8432caab7b40c724933c9ebe0a15c9bebc431d67c49c100d4c4cc5d4becb3e42b6597f299cfc657e2a5fcb6fab3ad6faec6c44198c4a475817]

/-- The round constants one by one; SHA-256 takes the high halves of the first 64. -/
def shaKs : List (BitVec 64) :=
  shaTable.flatMap (fun t => (List.range 8).map (fun i => BitVec.ofNat 64 (t / 2 ^ (64 * (7 - i)))))

def sha384Kind : ShaKind 64 where
  bigA x := x.rotateRight 28 ^^^ x.rotateRight 34 ^^^ x.rotateRight 39
  bigE x := x.rotateRight 14 ^^^ x.rotateRight 18 ^^^ x.rotateRight 41
  small0 x := x.rotateRight 1 ^^^ x.rotateRight 8 ^^^ x >>> 7
  small1 x := x.rotateRight 19 ^^^ x.rotateRight 61 ^^^ x >>> 6
  ks := shaKs

def sha256Kind : ShaKind 32 where
  bigA x := x.rotateRight 2 ^^^ x.rotateRight 13 ^^^ x.rotateRight 22
  bigE x := x.rotateRight 6 ^^^ x.rotateRight 11 ^^^ x.rotateRight 25
  small0 x := x.rotateRight 7 ^^^ x.rotateRight 18 ^^^ x >>> 3
  small1 x := x.rotateRight 17 ^^^ x.rotateRight 19 ^^^ x >>> 10
  ks := (shaKs.take 64).map (fun k => BitVec.ofNat 32 (k.toNat / 2 ^ 32))

/-- The SHA-384 digest of a message, 48 bytes (R231). -/
def sha384 (msg : List Byte) : List Byte :=
  let v := shaRun sha384Kind ⟨0xcbbb9d5dc1059ed8, 0x629a292a367cd507, 0x9159015a3070dd17, 0x152fecd8f70e5939,
    0x67332667ffc00b31, 0x8eb44a8768581511, 0xdb0c2e0d64f98fa7, 0x47b5481dbefa4fa4⟩ msg
  [v.a, v.b, v.c, v.d, v.e, v.f].flatMap (fun x => bigBytes 8 x.toNat)

/-- The first 8 bytes of a SHA-384 digest as a little-endian word (R18, R231, R360, R405). -/
def shaWord (msg : List Byte) : Word := BitVec.ofNat 64 (bytesNat ((sha384 msg).take 8))

/-- The SHA-256 digest of a message, 32 bytes (R356). -/
def sha256 (msg : List Byte) : List Byte :=
  let v := shaRun sha256Kind ⟨0x6a09e667, 0xbb67ae85, 0x3c6ef372, 0xa54ff53a, 0x510e527f, 0x9b05688c, 0x1f83d9ab, 0x5be0cd19⟩ msg
  [v.a, v.b, v.c, v.d, v.e, v.f, v.g, v.h].flatMap (fun x => bigBytes 4 x.toNat)

end Sys2Proof.Machine
end

