-- ==== Sys2Proof/Machine/Formats.lean ====
section
/-! DEFINITION. The format codes, element encodings and tile payloads of chapter 03 (R74 to R99, R111 to R114), and the
fields of a tile descriptor (R167). -/

namespace Sys2Proof.Machine

/-- The formats of R74. -/
inductive Fmt | bf16 | fp32 | e4m3 | e5m2 | mxf4 | si4 | a8 | w2i | w2s | wt | wb | l64 | int32 | fp16
  deriving DecidableEq, Repr

/-- The format of a code; 0xE and 0xF are reserved (R74). -/
def Fmt.ofCode (c : Nat) : Option Fmt :=
  [Fmt.bf16, .fp32, .e4m3, .e5m2, .mxf4, .si4, .a8, .w2i, .w2s, .wt, .wb, .l64, .int32, .fp16][c]?

/-- The code of a format. -/
def Fmt.code : Fmt → Nat
  | .bf16 => 0 | .fp32 => 1 | .e4m3 => 2 | .e5m2 => 3 | .mxf4 => 4 | .si4 => 5 | .a8 => 6 | .w2i => 7 | .w2s => 8
  | .wt => 9 | .wb => 10 | .l64 => 11 | .int32 => 12 | .fp16 => 13

/-- Elements per scaled block; 0 for a format without block scales (R74). -/
def Fmt.block : Fmt → Nat
  | .e4m3 | .e5m2 | .mxf4 | .si4 | .a8 => 32
  | .w2i | .w2s | .wt | .wb => 64
  | _ => 0

/-- Whether the format is one of the W2 formats, with row scales (R85). -/
def Fmt.w2 : Fmt → Bool
  | .w2i | .w2s | .wt | .wb => true
  | _ => false

/-- Formats whose tiles may carry an outlier list (R98, R160). -/
def Fmt.outliers : Fmt → Bool
  | .mxf4 | .si4 | .w2i | .w2s | .wt | .wb => true
  | _ => false

/-- Bytes of one block's elements, BB of R168. -/
def Fmt.blockBytes : Fmt → Nat
  | .e4m3 | .e5m2 | .a8 => 32
  | .mxf4 | .si4 | .w2i | .w2s => 16
  | .wt => 13
  | .wb => 8
  | _ => 1

/-- Bytes of `cols` elements of one row (R76, R87). -/
def Fmt.rowBytes (f : Fmt) (cols : Nat) : Nat :=
  match f with
  | .bf16 | .fp16 => 2 * cols
  | .fp32 | .int32 => 4 * cols
  | .l64 => 8 * cols
  | .e4m3 | .e5m2 | .a8 => cols
  | .mxf4 | .si4 => (cols + 1) / 2
  | .w2i | .w2s => (cols + 3) / 4
  | .wt => 13 * ((cols + 63) / 64)
  | .wb => (cols + 7) / 8

/-- Element size in bytes for alignment (R169): 1 for the formats of a byte or less. -/
def Fmt.align : Fmt → Nat
  | .bf16 | .fp16 => 2
  | .fp32 | .int32 => 4
  | .l64 => 8
  | _ => 1

/-- Block scales of one row. -/
def Fmt.blocks (f : Fmt) (cols : Nat) : Nat := if f.block = 0 then 0 else cols / f.block

/-! ## Element codes in a row -/

/-- The base-3 digits of a WT byte (R87). -/
def tritDigits (b : Nat) : List Nat := [b % 3, b / 3 % 3, b / 9 % 3, b / 27 % 3, b / 81 % 3]

/-- Element codes of one row from its bytes (R76, R87). WT codes are the digits d = t + 1. -/
def Fmt.unpackRow (f : Fmt) (cols : Nat) (bs : List Byte) : List Nat :=
  let ns := bs.map (·.toNat)
  let split := fun (k w : Nat) => ns.flatMap (fun b => (List.range k).map (fun i => b / 2 ^ (w * i) % 2 ^ w))
  match f with
  | .bf16 | .fp16 => (List.range cols).map (fun i => fieldNat bs (2 * i) 2)
  | .fp32 | .int32 => (List.range cols).map (fun i => fieldNat bs (4 * i) 4)
  | .l64 => (List.range cols).map (fun i => fieldNat bs (8 * i) 8)
  | .e4m3 | .e5m2 | .a8 => ns.take cols
  | .mxf4 | .si4 => (split 2 4).take cols
  | .w2i | .w2s => (split 4 2).take cols
  | .wb => (split 8 1).take cols
  | .wt => (List.range cols).map (fun i => (tritDigits (ns.getD (13 * (i / 64) + i % 64 / 5) 0)).getD (i % 64 % 5) 0)

/-- Groups a list into runs of `n`. -/
def chunksOf {α : Type} (n : Nat) : Nat → List α → List (List α)
  | 0, _ => []
  | fuel + 1, l => if l.isEmpty || n == 0 then [] else l.take n :: chunksOf n fuel (l.drop n)

/-- The runs of `n` of a list. -/
def runsOf {α : Type} (n : Nat) (l : List α) : List (List α) := chunksOf n l.length l

/-- One byte from small codes, least significant first. -/
def packByte (w : Nat) (l : List Nat) : Byte := BitVec.ofNat 8 (l.foldr (fun c acc => c + 2 ^ w * acc) 0)

/-- The bytes of one row from its element codes (R76, R87); a WT block of 64 takes 13 bytes, the last padded with digit
1. -/
def Fmt.packRow (f : Fmt) (codes : List Nat) : List Byte :=
  match f with
  | .bf16 | .fp16 => codes.flatMap (natBytes 2)
  | .fp32 | .int32 => codes.flatMap (natBytes 4)
  | .l64 => codes.flatMap (natBytes 8)
  | .e4m3 | .e5m2 | .a8 => codes.map (BitVec.ofNat 8)
  | .mxf4 | .si4 => (runsOf 2 codes).map (packByte 4)
  | .w2i | .w2s => (runsOf 4 codes).map (packByte 2)
  | .wb => (runsOf 8 codes).map (packByte 1)
  | .wt =>
    (runsOf 64 codes).flatMap (fun blk =>
      (runsOf 5 (blk ++ List.replicate (65 - blk.length) 1)).map (fun t =>
        BitVec.ofNat 8 (t.foldr (fun d acc => d + 3 * acc) 0)))

/-! ## Element and scale values -/

/-- OCP-style element formats (R83). -/
def fE4M3 : FpFmt := ⟨4, 3⟩
def fE5M2 : FpFmt := ⟨5, 2⟩
def fE2M1 : FpFmt := ⟨2, 1⟩

/-- A signed magnitude code without infinities: sign, exponent and fraction fields of R83. -/
def FpFmt.plain (f : FpFmt) (code : Nat) : Dy :=
  let frac := code % 2 ^ f.mw
  let ex := code / 2 ^ f.mw % 2 ^ f.ew
  let m : Nat := if ex = 0 then frac else 2 ^ f.mw + frac
  let e : Int := (if ex = 0 then 1 else (ex : Int)) - f.bias - f.mw
  ⟨if code / 2 ^ (f.mw + f.ew) % 2 = 1 then -(m : Int) else m, e⟩

/-- The value of an element code, none where it makes its block a NaN block (R80, R83, R86). -/
def Fmt.elem (f : Fmt) (code : Nat) : Option Dy :=
  match f with
  | .bf16 =>
    match fpBrain.decode code with
    | .fin n m e => some (Fv.fin n m e).dy
    | _ => none
  | .e4m3 => if code % 128 = 127 then none else some (fE4M3.plain code)
  | .e5m2 => if code / 4 % 32 = 31 then none else some (fE5M2.plain code)
  | .mxf4 => some (fE2M1.plain code)
  | .si4 => some ⟨signed 4 code, -2⟩
  | .a8 => some ⟨signed 8 code, -6⟩
  | .w2i => some ⟨signed 2 code, 0⟩
  | .w2s => some ⟨(if code / 2 % 2 = 1 then -1 else 1) * (1 + 2 * ((code % 2 : Nat) : Int)), -1⟩
  | .wt => some ⟨(code : Int) - 1, 0⟩
  | .wb => some ⟨if code % 2 = 1 then 1 else -1, 0⟩
  | _ => none

/-- The scale of an E8M0 byte, none for 0xFF (R82). -/
def e8m0 (b : Nat) : Option Dy := if b = 255 then none else some ⟨1, (b : Int) - 127⟩

/-- The scale of a UE4M4 byte, none for 0xFF (R85). -/
def ue4m4 (b : Nat) : Option Dy :=
  if b = 255 then none
  else if b / 16 = 0 then some ⟨((b % 16 : Nat) : Int), -10⟩
  else some ⟨((16 + b % 16 : Nat) : Int), (b / 16 : Int) - 11⟩

/-- The scale of a block in its format. -/
def Fmt.scale (f : Fmt) (b : Nat) : Option Dy := if f.w2 then ue4m4 b else e8m0 b

/-- Whether the bytes of a WT block are valid (R87). -/
def wtBlockOk (bs : List Byte) : Bool :=
  bs.all (fun b => decide (b.toNat ≤ 242)) && (match bs[12]? with
    | some b => (tritDigits b.toNat).getD 4 0 == 1
    | none => true)

/-! ## Tile descriptors (R167) -/

/-- Bits lo to lo + n − 1 of a descriptor. -/
def descField (d : BitVec 256) (lo n : Nat) : Nat := (d.extractLsb' lo n).toNat

/-- Replaces bits lo to lo + n − 1 of a descriptor. -/
def descSet (d : BitVec 256) (lo n v : Nat) : BitVec 256 :=
  let x := d.toNat
  BitVec.ofNat 256 (x / 2 ^ (lo + n) * 2 ^ (lo + n) + v % 2 ^ n * 2 ^ lo + x % 2 ^ lo)

def descAddr (d : BitVec 256) : Nat := descField d 0 56
def descFmt (d : BitVec 256) : Nat := descField d 56 4
def descGlobal (d : BitVec 256) : Bool := descField d 60 1 == 1
def descTrans (d : BitVec 256) : Bool := descField d 61 1 == 1
def descRows (d : BitVec 256) : Nat := descField d 64 16
def descCols (d : BitVec 256) : Nat := descField d 80 20
def descStride (d : BitVec 256) : Nat := descField d 100 28
def descScaleOff (d : BitVec 256) : Int := signed 32 (descField d 128 32)
def descRscaleOff (d : BitVec 256) : Int := signed 32 (descField d 160 32)
def descAuxOff (d : BitVec 256) : Int := signed 32 (descField d 192 32)
def descAnchor (d : BitVec 256) : Int := signed 16 (descField d 224 16)
def descOcap (d : BitVec 256) : Nat := descField d 240 9
def descStatus (d : BitVec 256) : BitVec 7 := d.extractLsb' 249 7

/-- A descriptor with its status flags (R110). -/
def descWithStatus (d : BitVec 256) (st : BitVec 7) : BitVec 256 := descSet d 249 7 st.toNat

/-- The descriptor field identifiers of R200: place, width and whether the field is signed. -/
def descFieldId (fn : Nat) : Option (Nat × Nat × Bool) :=
  match fn with
  | 0x00 => some (0, 56, false)
  | 0x01 => some (56, 4, false)
  | 0x02 => some (60, 1, false)
  | 0x03 => some (61, 1, false)
  | 0x04 => some (64, 16, false)
  | 0x05 => some (80, 20, false)
  | 0x06 => some (100, 28, false)
  | 0x07 => some (128, 32, true)
  | 0x08 => some (160, 32, true)
  | 0x09 => some (192, 32, true)
  | 0x0A => some (224, 16, true)
  | 0x0B => some (240, 9, false)
  | 0x0C => some (249, 7, false)
  | _ => none

/-- Status flags of R110. -/
def flagILO : BitVec 7 := 1
def flagIHI : BitVec 7 := 2
def flagNAN : BitVec 7 := 4
def flagRSAT : BitVec 7 := 8
def flagSAT : BitVec 7 := 16
def flagUNDER : BitVec 7 := 32
def flagSPILL : BitVec 7 := 64

/-- A flag if a condition holds. -/
def flagIf (c : Bool) (f : BitVec 7) : BitVec 7 := if c then f else 0

/-! ## Tile payloads (R121, R160) -/

/-- An outlier entry (R98). -/
structure Outlier where
  k : Nat
  n : Nat
  corr : Nat
  deriving DecidableEq, Repr

/-- A payload taken apart. -/
structure TileView where
  fmt : Fmt
  rows : Nat
  cols : Nat
  /-- Element codes by row. -/
  elems : List (List Nat)
  /-- Element bytes by row. -/
  raw : List (List Byte)
  /-- Block scale bytes by row. -/
  scales : List (List Nat)
  /-- BF16 row-scale codes. -/
  rscales : List Nat
  /-- Outlier header bits 63:16, and the entries in list order. -/
  outRsv : Nat
  outl : List Outlier
  deriving DecidableEq, Repr

/-- Bytes of a payload before its outlier list. -/
def payloadBytes (f : Fmt) (rows cols : Nat) : Nat :=
  rows * f.rowBytes cols + rows * f.blocks cols + (if f.w2 then 2 * rows else 0)

/-- Takes a payload apart in the order of R121. -/
def viewTile (f : Fmt) (rows cols : Nat) (pl : List Byte) (hasOutl : Bool) : TileView :=
  let rb := f.rowBytes cols
  let nb := f.blocks cols
  let raw := (List.range rows).map (fun r => (pl.drop (r * rb)).take rb)
  let p1 := pl.drop (rows * rb)
  let p2 := p1.drop (rows * nb)
  let p3 := p2.drop (if f.w2 then 2 * rows else 0)
  { fmt := f, rows := rows, cols := cols, elems := raw.map (f.unpackRow cols), raw := raw,
    scales := (List.range rows).map (fun r => ((p1.drop (r * nb)).take nb).map (·.toNat)),
    rscales := if f.w2 then (List.range rows).map (fun r => fieldNat p2 (2 * r) 2) else [],
    outRsv := if hasOutl then fieldNat p3 2 6 else 0,
    outl := if hasOutl then
        (List.range (fieldNat p3 0 2)).map (fun i =>
          ⟨fieldNat p3 (10 + 4 * i) 2, fieldNat p3 (9 + 4 * i) 1, fieldNat p3 (8 + 4 * i) 1⟩)
      else [] }

/-- Puts a payload together in the order of R121, with its outlier list if `hasOutl`. -/
def packTile (v : TileView) (hasOutl : Bool) : List Byte :=
  v.raw.flatten ++ (v.scales.flatMap (fun r => r.map (BitVec.ofNat 8)))
    ++ (if v.fmt.w2 then v.rscales.flatMap (natBytes 2) else [])
    ++ (if hasOutl then
          natBytes 8 v.outl.length
            ++ v.outl.flatMap (fun o => natBytes 1 o.corr ++ natBytes 1 o.n ++ natBytes 2 o.k)
        else [])

/-- The bytes of an outlier list that starts with this header. -/
def outlierBytes (header : List Byte) : Nat := 8 + 4 * fieldNat header 0 2

/-! ## Decoded blocks -/

/-- Whether a format has one row-wide block structure for contributions: blocks of 32 positions (R101). -/
def Fmt.scaleIdx (f : Fmt) (pos : Nat) : Nat := if f.block = 0 then 0 else pos / f.block

/-- Whether the block of 32 that starts at position 32 i of a row is a NaN block by its elements or scale (R80, R82, R87,
R95). Outlier corrections are looked at apart. -/
def TileView.nanBlock (v : TileView) (r i : Nat) : Bool :=
  let es := ((v.elems.getD r []).drop (32 * i)).take 32
  if v.fmt.block = 0 then es.any (fun c => (v.fmt.elem c).isNone)
  else
    let sb := (v.scales.getD r []).getD (v.fmt.scaleIdx (32 * i)) 0
    if sb = 255 then true
    else if v.fmt.w2 && sb == 0 then false
    else if v.fmt = .wt then !(wtBlockOk (((v.raw.getD r []).drop (13 * (i / 2))).take 13))
    else es.any (fun c => (v.fmt.elem c).isNone)

/-- Whether that block is a zero block (R130): UE4M4 scale 0x00, or only zero elements and no NaN scale; the caller looks
at outliers. -/
def TileView.zeroElems (v : TileView) (r i : Nat) : Bool :=
  let es := ((v.elems.getD r []).drop (32 * i)).take 32
  let sb := (v.scales.getD r []).getD (v.fmt.scaleIdx (32 * i)) 0
  if v.fmt.block ≠ 0 ∧ sb = 255 then false
  else if v.fmt.w2 && sb == 0 then true
  else !(v.nanBlock r i) && es.all (fun c => match v.fmt.elem c with
    | some d => d.m == 0
    | none => false)

/-- The scale of a position's block: 1 for BF16 (R101). -/
def TileView.scaleAt (v : TileView) (r pos : Nat) : Dy :=
  if v.fmt.block = 0 then ⟨1, 0⟩
  else ((v.fmt.scale ((v.scales.getD r []).getD (v.fmt.scaleIdx pos) 0)).getD Dy.zero)

/-- The element value of a position. -/
def TileView.elemAt (v : TileView) (r pos : Nat) : Dy :=
  (v.fmt.elem ((v.elems.getD r []).getD pos 0)).getD Dy.zero

/-- The value of a correction (E4M3), none for NaN (R98, R99). -/
def Outlier.value (o : Outlier) : Option Dy := Fmt.elem .e4m3 o.corr

/-- Whether an outlier entry acts in the scale block of position `pos` of row `r` (R99). -/
def TileView.corrects (v : TileView) (r pos : Nat) (o : Outlier) : Bool :=
  decide (o.n = r) && decide (v.fmt.scaleIdx o.k = v.fmt.scaleIdx pos)

/-- Whether the whole block of a position is a NaN block outside a dot product: its scale, its WT bytes or a correction says
so; a NaN element of MXF8 is NaN by itself (R82, R83, R87, R99). -/
def TileView.blockNan (v : TileView) (r pos : Nat) : Bool :=
  decide ((v.scales.getD r []).getD (v.fmt.scaleIdx pos) 0 = 255)
    || (decide (v.fmt = .wt) && !(wtBlockOk (((v.raw.getD r []).drop (13 * (pos / 64))).take 13)))
    || v.outl.any (fun o => v.corrects r pos o && o.value.isNone)

/-- The element value of R83 and R86 by itself: E5M2 has infinities, MXF8 has NaN. -/
def Fmt.elemFv (f : Fmt) (code : Nat) : Fv :=
  match f.elem code with
  | some d => d.fv false
  | none => if f = .e5m2 ∧ code % 4 = 0 then .inf (decide (code / 128 % 2 = 1)) else .nan

/-- The exact value of the element at (r, pos) with every outlier entry applied (R83, R84, R99). The row scale is not part of
it. -/
def TileView.valueAt (v : TileView) (r pos : Nat) : Fv :=
  if v.fmt.w2 && (v.scales.getD r []).getD (v.fmt.scaleIdx pos) 0 == 0 then .fin false 0 0
  else if v.blockNan r pos then .nan
  else
    match v.fmt.elemFv ((v.elems.getD r []).getD pos 0) with
    | .fin n m e =>
      let corr := v.outl.filter (fun o => o.n == r && o.k == pos)
      ((corr.foldl (fun a o => a.add (o.value.getD Dy.zero)) (Fv.fin n m e).dy).mul (v.scaleAt r pos)).fv false
    | x => x

/-! ## Plain element data -/

/-- The datum of a plain element code: BF16, FP16, FP32, INT32 (R172). L64 is converted with its anchor by the caller. -/
def Fmt.fv (f : Fmt) (code : Nat) : Fv :=
  match f with
  | .bf16 => fpBrain.decode code
  | .fp16 => fpHalf.decode code
  | .fp32 => fpSingle.decode code
  | .int32 => (⟨signed 32 code, 0⟩ : Dy).fv false
  | _ => .nan

/-- The floating-point format of a plain format. -/
def Fmt.fp : Fmt → FpFmt
  | .bf16 => fpBrain
  | .fp16 => fpHalf
  | _ => fpSingle

/-! ## L64 (R111 to R114) -/

/-- The L64 NaN code. -/
def l64Nan : Word := 0x8000000000000000#64

/-- The value of an L64 code under an anchor and a scale, none for NaN (R111, R113). -/
def l64Value (anchor : Int) (code : Word) : Option Dy :=
  if code = l64Nan then none else some ⟨code.toInt, anchor - 40⟩

/-- An exact L64 sum clamped for delivery (R114), with RSAT. -/
def l64Clamp (v : Int) : Word × Bool :=
  let c := clampInt (-(2 ^ 63 - 1)) (2 ^ 63 - 1) v
  (BitVec.ofInt 64 c, decide (c ≠ v))

/-- A partial sum clamped to 72 bits (R114). -/
def l64Partial (v : Int) : Int := clampInt (-(2 ^ 71)) (2 ^ 71 - 1) v

/-- One L64 add (R114, R176): NaN if either is NaN; 72-bit sum, clamped once. -/
def l64Add (a b : Word) : Word × Bool :=
  if a = l64Nan ∨ b = l64Nan then (l64Nan, false) else l64Clamp (l64Partial (a.toInt + b.toInt))

end Sys2Proof.Machine
end

