-- ==== Sys2Proof/Config.lean ====
section
/-! DEFINITION. What the spec leaves open: free values, and what production or a boot writes and the spec only names. Each is opaque: nothing in Lean can evaluate it or prove a value of it (log 3). -/

namespace Sys2Proof.Config

/-- A fresh free value; the argument is `State.freeCtr`, which the step that takes a value advances (log 3). -/
opaque freeValue : Nat → BitVec 64

/-- What a close-memory byte holds after a change of MEM.ILV_SIZE, until it is written: unspecified (R313, log 3). -/
opaque freeByte : Nat → Nat → BitVec 8

/-- Byte `i` of the public key of a Kodraul key number, ECDSA or LMS: the root key record lists it, and the spec gives neither its
value nor its layout (R550, log 60). -/
opaque kodraulByte : Nat → Bool → Nat → BitVec 8

/-- The secret number of KEYX that Cobalt generates at a boot (R560, R574, log 3). -/
opaque keyxSecret : Nat → Nat

/-- Byte `i` of the signature that the key named by the index makes over the bytes (R561 to R564, log 3). -/
opaque signByte : Nat → List (BitVec 8) → Nat → BitVec 8

/-- Byte `i` of the certificate chain of slot 0 for a value of BOOT_COUNT (R561, log 3). -/
opaque certByte : Nat → Nat → BitVec 8

/-- Length of the certificate chain, which the spec does not give (R561, log 54). -/
opaque certLen : Nat

/-- Byte `i` of what production wrote into the signed record of a kind and index, or of a key of the boot that an ALIAS record
names, where the spec gives no value (R550 to R560, log 54). -/
opaque recordByte : Nat → Nat → Nat → BitVec 8

/-- Length of the body of a record whose layout the spec does not give: FIRMWARE and REPAIR (R553, log 54). -/
opaque recordLen : Nat → Nat → Nat

/-- The images that production wrote into slots A and B (R580, log 54). -/
opaque madeImage : Bool → List (BitVec 8)

/-- The contents of the RD ROM that measurement 1 covers (R563, log 54). -/
opaque romBytes : List (BitVec 8)

/-- The module's 40-bit serial value (R14, log 19). -/
opaque serial : BitVec 40

/-- Byte stride between the resident tiles of a group walk, and the format code of its readout, as the template descriptor
gives them; the spec does not say in which of its bits (R142, log 20). -/
opaque walkStride : BitVec 256 → Nat
opaque walkFormat : BitVec 256 → Nat

/-- Rows that a die of another module routes to a shipped expert, as far as its module's count leaves it open: no count record
carries the share of a die (tick, segment, layer of the segment, module, die, expert; R246, R258, log 34). -/
opaque dieRows : Nat → Nat → Nat → Nat → Nat → Nat → Nat

/-- How many of the contribution bytes of an instance one collective engine combines (bytes, port): the six engines divide the
elements among themselves, and the spec does not say how (R418, log 37). -/
opaque ceShare : Nat → Nat → Nat

/-- The residue that MX expects of a weight row in a failing issue cycle, by event and row: the spec does not number the least
significant bit of a contribution (R137, R511, log 98). -/
opaque residue : Nat → Nat → Nat

/-- Byte `i` of the fixed patterns that ballast multiplies in an MX mode, as a snapshot lays operands out (R153, R511, log 98). -/
opaque ballastByte : Nat → Nat → BitVec 8

/-- Whether a GDDR7 device (memory-port die, device) reports the package repair that JESD239 defines (R319, log 103). -/
opaque repairs : Nat → Nat → Bool

/-- Byte `i` of the payload of a LANE_CTL flit (lane, spare, codeword pair): the spec gives what it names and no layout (R379,
log 106). -/
opaque laneCtlByte : Nat → Nat → Nat → Nat → BitVec 8

end Sys2Proof.Config
end

