-- ==== Sys2Proof/Machine/Aes.lean ====
section
/-! DEFINITION. AES-256 and AES-256-XTS as FIPS 197 and IEEE 1619 define them, which the spec names for the regions of memory and
for keys under way (R328, R574). -/

namespace Sys2Proof.Machine

/-- Multiplication in the field of AES. -/
def aesMul (a b : Byte) : Byte :=
  ((List.range 8).foldl (fun (r : Byte × Byte) i =>
    (if b.getLsbD i then r.1 ^^^ r.2 else r.1, (r.2 <<< 1) ^^^ (if r.2.getLsbD 7 then 0x1b else 0))) (0, a)).1

/-- The byte substitution: the inverse in the field (the 254th power), then the affine map. -/
def aesSub (a : Byte) : Byte :=
  let p2 := aesMul a a
  let p3 := aesMul p2 a
  let p6 := aesMul p3 p3
  let p12 := aesMul p6 p6
  let p15 := aesMul p12 p3
  let p60 := (fun x => aesMul x x) (aesMul p15 p15)
  let p240 := (fun x => aesMul x x) (aesMul p60 p60)
  let b := aesMul (aesMul p240 p12) p2
  b ^^^ b.rotateLeft 1 ^^^ b.rotateLeft 2 ^^^ b.rotateLeft 3 ^^^ b.rotateLeft 4 ^^^ 0x63

/-- Bytes combined by exclusive or. -/
def xorBytes (a b : List Byte) : List Byte := List.zipWith (fun x y => x ^^^ y) a b

/-- The words of the key schedule of a 32-byte key, four bytes each: words 8 to 59 one after another. -/
def aesWords (key : List Byte) : List (List Byte) :=
  (List.range 52).foldl (fun ws k =>
    let i := k + 8
    let t := ws.getD (i - 1) []
    let u :=
      if i % 8 = 0 then xorBytes ((t.drop 1 ++ t.take 1).map aesSub) [BitVec.ofNat 8 (2 ^ (i / 8 - 1)), 0, 0, 0]
      else if i % 8 = 4 then t.map aesSub
      else t
    ws ++ [xorBytes (ws.getD (i - 8) []) u]) ((List.range 8).map (fun i => sub key (4 * i) 4))

/-- One column mixed. -/
def aesMix (c : List Byte) : List Byte :=
  let x (i : Nat) : Byte := c.getD (i % 4) 0
  (List.range 4).map (fun i => aesMul 2 (x i) ^^^ aesMul 3 (x (i + 1)) ^^^ x (i + 2) ^^^ x (i + 3))

/-- The rows shifted: byte `r` of column `c` comes from column `c + r`. -/
def aesShift (s : List Byte) : List Byte :=
  (List.range 16).map (fun i => s.getD ((4 * (i / 4 + i % 4) + i % 4) % 16) 0)

/-- One block under the words of a key: 14 rounds, the last without the mixing of columns. -/
def aesBlock (ws : List (List Byte)) (block : List Byte) : List Byte :=
  let rk (r : Nat) : List Byte := ((ws.drop (4 * r)).take 4).flatten
  let s := (List.range 13).foldl (fun s k =>
    let t := aesShift (s.map aesSub)
    xorBytes ((List.range 4).flatMap (fun c => aesMix (sub t (4 * c) 4))) (rk (k + 1))) (xorBytes block (rk 0))
  xorBytes (aesShift (s.map aesSub)) (rk 14)

/-- The affine map of the byte substitution undone, then the inverse in the field. -/
def aesUnsub (b : Byte) : Byte :=
  let a := b.rotateLeft 1 ^^^ b.rotateLeft 3 ^^^ b.rotateLeft 6 ^^^ 0x05
  let c := aesSub a ^^^ 0x63
  c.rotateLeft 1 ^^^ c.rotateLeft 3 ^^^ c.rotateLeft 6

/-- One column with its mixing undone. -/
def aesUnmix (c : List Byte) : List Byte :=
  let x (i : Nat) : Byte := c.getD (i % 4) 0
  (List.range 4).map (fun i => aesMul 14 (x i) ^^^ aesMul 11 (x (i + 1)) ^^^ aesMul 13 (x (i + 2)) ^^^ aesMul 9 (x (i + 3)))

/-- The shift of the rows undone. -/
def aesUnshift (s : List Byte) : List Byte :=
  (List.range 16).map (fun i => s.getD ((4 * (i / 4 + 4 - i % 4) + i % 4) % 16) 0)

/-- The block that a key takes to another. -/
def aesUnblock (ws : List (List Byte)) (block : List Byte) : List Byte :=
  let rk (r : Nat) : List Byte := ((ws.drop (4 * r)).take 4).flatten
  let s := (List.range 13).foldl (fun s k =>
    let t := xorBytes ((aesUnshift s).map aesUnsub) (rk (13 - k))
    (List.range 4).flatMap (fun c => aesUnmix (sub t (4 * c) 4))) (xorBytes block (rk 14))
  xorBytes ((aesUnshift s).map aesUnsub) (rk 0)

/-- The tweak of the next block of a data unit: its 128-bit little-endian value doubled in the field of XTS. -/
def xtsNext (t : List Byte) : List Byte :=
  let v := 2 * bytesNat t
  natBytes 16 (if v < 2 ^ 128 then v else (v - 2 ^ 128) ^^^ 0x87)

/-- A data unit of whole blocks with each block masked by its tweak before and after a block function. -/
def xtsBlocks (f : List Byte → List Byte) : Nat → List Byte → List Byte → List Byte
  | 0, _, _ => []
  | k + 1, t, bs => xorBytes (f (xorBytes (bs.take 16) t)) t ++ xtsBlocks f k (xtsNext t) (bs.drop 16)

/-- AES-256-XTS of a 64-byte data unit under a 64-byte key, the data key first, with the tweak value of R328. -/
def xtsUnit (decrypt : Bool) (key : List Byte) (tweak : Nat) (bs : List Byte) : List Byte :=
  let ws := aesWords (key.take 32)
  xtsBlocks (if decrypt then aesUnblock ws else aesBlock ws) 4 (aesBlock (aesWords (key.drop 32)) (natBytes 16 tweak)) bs

end Sys2Proof.Machine
end

