-- ==== Sys2Proof/Machine/Assoc.lean ====
section
/-! DEFINITION. Finite tables as lists of (key, value) pairs: every sparse part of the state is one of these. A key that is
not listed has the default its reader gives. -/

namespace Sys2Proof.Machine

/-- The value of a key, if listed. -/
def Assoc.find {α β : Type} [DecidableEq α] (k : α) : List (α × β) → Option β
  | [] => none
  | (k', v) :: l => if k' = k then some v else Assoc.find k l

/-- The value of a key, or a default. -/
def Assoc.getD {α β : Type} [DecidableEq α] (k : α) (d : β) (l : List (α × β)) : β := (Assoc.find k l).getD d

/-- Gives a key a value, in place where it is listed. -/
def Assoc.put {α β : Type} [DecidableEq α] (k : α) (v : β) : List (α × β) → List (α × β)
  | [] => [(k, v)]
  | (k', v') :: l => if k' = k then (k, v) :: l else (k', v') :: Assoc.put k v l

/-- Removes a key. -/
def Assoc.del {α β : Type} [DecidableEq α] (k : α) (l : List (α × β)) : List (α × β) :=
  l.filter (fun p => !decide (p.1 = k))

/-- Replaces position `n` of a list by `f` of it. -/
def modNth {α : Type} (f : α → α) : Nat → List α → List α
  | _, [] => []
  | 0, x :: l => f x :: l
  | n + 1, x :: l => x :: modNth f n l

end Sys2Proof.Machine
end

