-- ==== Sys2Proof/Machine/Reg.lean ====
section
/-! DEFINITION. The registers of the Smital S8: their names, blocks, offsets, access types, reset values and writable
bits, as the register tables R72, R154, R187 to R189, R269, R304, R305, R349 to R351, R426, R427, R460, R461, R486, R487,
R515, R516, R547, R548, R578 and R595 give them, and the address arithmetic of R5, R156 and of the block rules. -/

namespace Sys2Proof.Machine

/-- The register blocks. -/
inductive Block
  | cad | mem | cxl | fab | hp | part | int | pwr | sec | boot | arb | der | fwl
  | mx | vx | tx | lx | pn | kv | ex | sv | ce | nx
  deriving DecidableEq, Repr

/-- Register access types of R6; `rwProt` is RW, changed only through a protection change (R324, R464, R547). -/
inductive Access | ro | rw | wo | w1c | rwProt
  deriving DecidableEq, Repr

/-- One row of a register table: block, offset, up to two index ranges with their strides, access, reset value and the
bits that are not reserved. -/
structure RegInfo where
  block : Block
  off : Nat
  n1 : Nat
  s1 : Nat
  n2 : Nat
  s2 : Nat
  acc : Access
  reset : Word
  mask : Word
  deriving DecidableEq, Repr

/-- The registers, one name for each row of a register table. -/
inductive Reg
  | cadTbc | cadTbStatus | cadTbErrBound | cadPtpOffset | cadPpsInStamp | cadPpsCtrl | cadSilentTimeout
  | cadRejoinTimeout | cadAdmCloseBw | cadAdmCxlBw | cadAdmFabBw | cadDomCtrl | cadDomPeriod | cadDomEpoch
  | cadDomSpokes | cadDomAdmLead | cadDomTick | cadDomStatus | cadDomSlice | cadDomMaxRetracts | cadDomRetracts
  | cadDomLateTicks | cadDomShift | cadDomIssueLevel | cadDomLastCommit | cadDomCode | mxStatus | mxIssueLevel
  | mxCyclesIssued | mxCyclesSkipped | mxCyclesStalled | mxOutlierSpill | mxIloReadouts | mxIhiReadouts
  | mxSatReadouts | mxNanReadouts | mxResidueErrs | mxResidueInject | mxBallastCycles | mxFault | mxWalkPos
  | mxListClaims | mxCtrClear | vxStatus | vxOps | vxTransOps | vxSpillProducts | vxNanOut | vxCyclesStalled
  | vxFault | vxCtrClear | txStatus | txQpolicy | txZeroBlocks | txUnderBlocks | txSatBlocks | txNanBlocks
  | txBytesIn | txCyclesStalled | txFault | txCtrClear | lxStatus | lxStallLimit | lxBytesLoaded | lxBytesStored
  | lxRemoteOps | lxCyclesStalled | lxFault | lxCtrClear | lxQstat | exStatus | exWshipThreshold | exPoolBase
  | exPoolSize | exCountTimeout | exDataTimeout | exSkewMeasured | exRowsSent | exRowsReceived | exShipsSent
  | exShipBytes | exEmptyExperts | exRoundsExtra | exNanRows | exFault | exCtrClear | svStatus | svTableBase
  | svCfgHash | svIntakeGuard | svRowsSampled | svDraftsProposed | svDraftsAccepted | svNanRows | svFault
  | svCtrClear | svPQuota | svPProgram | svPVocab | svPPrefill | svPLimits | svPAreaBase | svPAreaSize | svPEntries
  | svPLastBatch | svPTokens | svPTtftMisses | svPTbtMisses | svPTtftMax | svPTbtMax | svPCtrClear | kvStatus
  | kvFault | kvCtrClear | kvPPoolBase | kvPMapBase | kvPPoolPages | kvPPage | kvPMapStride | kvPFree | kvPAllocs
  | kvPCutPages | memStatus | memCtrl | memIlvSize | memScrubPeriod | memCeThresh | memSpareBase | memSpareFrames
  | memJournalBase | memTcBase | memTcSize | memTcEpoch | memTcThresh | memCeCount | memUeCount | memRetired
  | memErrLog | memTcHitBytes | memTcCopies | memCode | memCtrClear | memMdRate | memPCloseBytes | memPCxlBytes
  | memPDemote | memPT2Base | memPT2Pages | memRegA | memRegB | cxlStatus | cxlCtrl | cxlCapacity | cxlTimeout
  | cxlRdBytes | cxlWrBytes | cxlPoisonReads | cxlLinkDowns | cxlCode | cxlCtrClear | pnStatus | pnSize
  | pnFillDeadline | pnFreeFrames | pnHitBytes | pnMissBytes | pnFillBytes | pnEvictions | pnInvalidations | pnCode
  | pnCtrClear | pnPQuota | pnPUsed | pnPPinned | fabStatus | fabMapHash | fabDeadTimeout | fabRetryLimit
  | fabLaneSerLimit | fabDeadCount | fabLateResp | fabDiscards | fabRouteEpoch | fabDetours | fabBadPackets | fabCode
  | fabCtrClear | fabPortStatus | fabPortCtrl | fabPortRetrain | fabPeerSerial | fabPeerInfo | fabLaneMap
  | fabFecCorrected | fabFecUncorrected | fabNaks | fabTxFlits | fabRxFlits | fabLinkDowns | ceStatus | ceCollTimeout
  | ceColls | ceBytesReduced | ceRsatResults | ceNanResults | ceFault | ceCtrClear | hpStatus | hpCtrl | hpMac
  | hpIp6Hi | hpIp6Lo | hpIp4 | hpUdpPort | hpEvPortBase | hpVlan | hpMaxFrame | hpRto | hpSessionTimeout
  | hpMgmtPrefixHi | hpMgmtPrefixLo | hpMgmtPrefixLen | hpMgmtChan | hpPtpCtrl | hpSessions | hpRxFrames | hpTxFrames
  | hpRetransmits | hpBadFrames | hpMacsecDrops | hpEvReleased | hpCode | hpCtrClear | hpPQueues | hpPPrefixHi
  | hpPPrefixLo | hpPPrefixLen | hpPEvchan | hpPCmds | nxStatus | nxSent | nxReceived | nxDiscarded | nxCode
  | nxCtrClear | nxPeerHi | nxPeerLo | nxPeerPort | nxPTxCtl | nxPTxBase | nxPTxSize | nxPRxCtl | nxPRxBase
  | nxPRxSize | partStatus | partShareSum | partCode | partCfg | partPStatus | partSlowdown | partCredit | arbWindow
  | arbUrgentQuota | arbBurst | arbDlScrub | arbDlKv | arbDlTc | arbDlIngest | arbDlHost | arbCode | arbCtrClear
  | arbGrants | arbUrgent | arbBest | arbBack | arbUrgentSat | arbIdle | arbPgrants | intStatus | intAuditRate
  | intUnits | intSampled | intSkipped | intReplays | intAuditMismatches | intResidueEvents | intBallastEvents
  | intInjected | intClockEvents | intRetracts | intSnapshots | intCode | intCtrClear | derStatus | derWatchHours
  | derEventWindow | derSpareScanPeriod | derRotatePeriod | derQuarantines | derRetirements | derScans | derScanFails
  | derRotations | derCode | derCtrClear | derPll | derSite | pwrStatus | pwrCap | pwrSlope | pwrFloor | pwrCapPolicy
  | pwrShelfCap | pwrSafeCap | pwrHbCtrl | pwrHeartbeat | pwrStagger | pwrEffectiveCap | pwrEstimate | pwrMeasured
  | pwrCalGain | pwrEnergy | pwrExcess | pwrEmergTime | pwrPreempts | pwrThermCtrl | pwrCoolant | pwrCode
  | pwrCtrClear | pwrDie | pwrVf | fwlStatus | fwlKeep | fwlBallastMj | fwlUnheld | fwlCode | fwlCtrClear | fwlDie
  | secStatus | secChangeSeq | secSetupDigest | secLoadSeq | secDevLmsLeft | secAliasLmsLeft | secBootCount
  | secFusedSvn | secRevoked | secCode | secSlot | bootStatus | bootReadyTime | bootSlota | bootSlotb
  | bootTrialTimeout | bootCode
  deriving DecidableEq, Repr

/-- The table row of a register. -/
def Reg.info : Reg → RegInfo
  | .cadTbc => ⟨.cad, 0x0, 1, 0x0, 1, 0, .ro, 0x0, 0xFFFFFFFFFFFFFFFF⟩
  | .cadTbStatus => ⟨.cad, 0x8, 1, 0x0, 1, 0, .ro, 0x0, 0xFFFFFFFFFFFFFFFF⟩
  | .cadTbErrBound => ⟨.cad, 0x10, 1, 0x0, 1, 0, .ro, 0xFFFFFFFFFFFFFFFF, 0xFFFFFFFFFFFFFFFF⟩
  | .cadPtpOffset => ⟨.cad, 0x18, 1, 0x0, 1, 0, .ro, 0x0, 0xFFFFFFFFFFFFFFFF⟩
  | .cadPpsInStamp => ⟨.cad, 0x20, 1, 0x0, 1, 0, .ro, 0x0, 0xFFFFFFFFFFFFFFFF⟩
  | .cadPpsCtrl => ⟨.cad, 0x28, 1, 0x0, 1, 0, .rw, 0x1, 0x3⟩
  | .cadSilentTimeout => ⟨.cad, 0x30, 1, 0x0, 1, 0, .rw, 0xC8, 0xFFFFFFFFFFFFFFFF⟩
  | .cadRejoinTimeout => ⟨.cad, 0x38, 1, 0x0, 1, 0, .rw, 0x3E8, 0xFFFFFFFFFFFFFFFF⟩
  | .cadAdmCloseBw => ⟨.cad, 0x40, 1, 0x0, 1, 0, .ro, 0x697800, 0xFFFFFFFFFFFFFFFF⟩
  | .cadAdmCxlBw => ⟨.cad, 0x48, 1, 0x0, 1, 0, .ro, 0x69780, 0xFFFFFFFFFFFFFFFF⟩
  | .cadAdmFabBw => ⟨.cad, 0x50, 1, 0x0, 1, 0, .ro, 0x57E40, 0xFFFFFFFFFFFFFFFF⟩
  | .cadDomCtrl => ⟨.cad, 0x1000, 16, 0x100, 1, 0, .rw, 0x0, 0x1⟩
  | .cadDomPeriod => ⟨.cad, 0x1008, 16, 0x100, 1, 0, .rw, 0x3A98, 0xFFFFFFFFFFFFFFFF⟩
  | .cadDomEpoch => ⟨.cad, 0x1010, 16, 0x100, 1, 0, .rw, 0x0, 0xFFFFFFFFFFFFFFFF⟩
  | .cadDomSpokes => ⟨.cad, 0x1018, 16, 0x100, 1, 0, .rw, 0x210, 0x3F7F⟩
  | .cadDomAdmLead => ⟨.cad, 0x1020, 16, 0x100, 1, 0, .rw, 0x7D0, 0xFFFFFFFFFFFFFFFF⟩
  | .cadDomTick => ⟨.cad, 0x1028, 16, 0x100, 1, 0, .rw, 0x0, 0xFFFFFFFFFFFFFFFF⟩
  | .cadDomStatus => ⟨.cad, 0x1030, 16, 0x100, 1, 0, .ro, 0x0, 0xFFFFFFFFFFFFFFFF⟩
  | .cadDomSlice => ⟨.cad, 0x1038, 16, 0x100, 1, 0, .rw, 0x0, 0x3F3F⟩
  | .cadDomMaxRetracts => ⟨.cad, 0x1040, 16, 0x100, 1, 0, .rw, 0x8, 0xFFFFFFFFFFFFFFFF⟩
  | .cadDomRetracts => ⟨.cad, 0x1048, 16, 0x100, 1, 0, .ro, 0x0, 0xFFFFFFFFFFFFFFFF⟩
  | .cadDomLateTicks => ⟨.cad, 0x1050, 16, 0x100, 1, 0, .ro, 0x0, 0xFFFFFFFFFFFFFFFF⟩
  | .cadDomShift => ⟨.cad, 0x1058, 16, 0x100, 1, 0, .ro, 0x0, 0xFFFFFFFFFFFFFFFF⟩
  | .cadDomIssueLevel => ⟨.cad, 0x1060, 16, 0x100, 1, 0, .ro, 0xB, 0xFFFFFFFFFFFFFFFF⟩
  | .cadDomLastCommit => ⟨.cad, 0x1068, 16, 0x100, 1, 0, .ro, 0x0, 0xFFFFFFFFFFFFFFFF⟩
  | .cadDomCode => ⟨.cad, 0x1070, 16, 0x100, 1, 0, .ro, 0x0, 0xFFFFFFFFFFFFFFFF⟩
  | .mxStatus => ⟨.mx, 0x0, 1, 0x0, 1, 0, .ro, 0x0, 0xFFFFFFFFFFFFFFFF⟩
  | .mxIssueLevel => ⟨.mx, 0x8, 1, 0x0, 1, 0, .ro, 0x10, 0xFFFFFFFFFFFFFFFF⟩
  | .mxCyclesIssued => ⟨.mx, 0x10, 1, 0x0, 1, 0, .ro, 0x0, 0xFFFFFFFFFFFFFFFF⟩
  | .mxCyclesSkipped => ⟨.mx, 0x18, 1, 0x0, 1, 0, .ro, 0x0, 0xFFFFFFFFFFFFFFFF⟩
  | .mxCyclesStalled => ⟨.mx, 0x20, 1, 0x0, 1, 0, .ro, 0x0, 0xFFFFFFFFFFFFFFFF⟩
  | .mxOutlierSpill => ⟨.mx, 0x28, 1, 0x0, 1, 0, .ro, 0x0, 0xFFFFFFFFFFFFFFFF⟩
  | .mxIloReadouts => ⟨.mx, 0x30, 1, 0x0, 1, 0, .ro, 0x0, 0xFFFFFFFFFFFFFFFF⟩
  | .mxIhiReadouts => ⟨.mx, 0x38, 1, 0x0, 1, 0, .ro, 0x0, 0xFFFFFFFFFFFFFFFF⟩
  | .mxSatReadouts => ⟨.mx, 0x40, 1, 0x0, 1, 0, .ro, 0x0, 0xFFFFFFFFFFFFFFFF⟩
  | .mxNanReadouts => ⟨.mx, 0x48, 1, 0x0, 1, 0, .ro, 0x0, 0xFFFFFFFFFFFFFFFF⟩
  | .mxResidueErrs => ⟨.mx, 0x50, 1, 0x0, 1, 0, .ro, 0x0, 0xFFFFFFFFFFFFFFFF⟩
  | .mxResidueInject => ⟨.mx, 0x58, 1, 0x0, 1, 0, .rw, 0x0, 0xFF01⟩
  | .mxBallastCycles => ⟨.mx, 0x60, 1, 0x0, 1, 0, .ro, 0x0, 0xFFFFFFFFFFFFFFFF⟩
  | .mxFault => ⟨.mx, 0x68, 1, 0x0, 1, 0, .ro, 0x0, 0xFFFFFFFFFFFFFFFF⟩
  | .mxWalkPos => ⟨.mx, 0x70, 1, 0x0, 1, 0, .ro, 0x0, 0xFFFFFFFFFFFFFFFF⟩
  | .mxListClaims => ⟨.mx, 0x78, 1, 0x0, 1, 0, .ro, 0x0, 0xFFFFFFFFFFFFFFFF⟩
  | .mxCtrClear => ⟨.mx, 0x80, 1, 0x0, 1, 0, .wo, 0x0, 0xFFFFFFFFFFFFFFFF⟩
  | .vxStatus => ⟨.vx, 0x0, 1, 0x0, 1, 0, .ro, 0x0, 0xFFFFFFFFFFFFFFFF⟩
  | .vxOps => ⟨.vx, 0x8, 1, 0x0, 1, 0, .ro, 0x0, 0xFFFFFFFFFFFFFFFF⟩
  | .vxTransOps => ⟨.vx, 0x10, 1, 0x0, 1, 0, .ro, 0x0, 0xFFFFFFFFFFFFFFFF⟩
  | .vxSpillProducts => ⟨.vx, 0x18, 1, 0x0, 1, 0, .ro, 0x0, 0xFFFFFFFFFFFFFFFF⟩
  | .vxNanOut => ⟨.vx, 0x20, 1, 0x0, 1, 0, .ro, 0x0, 0xFFFFFFFFFFFFFFFF⟩
  | .vxCyclesStalled => ⟨.vx, 0x28, 1, 0x0, 1, 0, .ro, 0x0, 0xFFFFFFFFFFFFFFFF⟩
  | .vxFault => ⟨.vx, 0x30, 1, 0x0, 1, 0, .ro, 0x0, 0xFFFFFFFFFFFFFFFF⟩
  | .vxCtrClear => ⟨.vx, 0x38, 1, 0x0, 1, 0, .wo, 0x0, 0xFFFFFFFFFFFFFFFF⟩
  | .txStatus => ⟨.tx, 0x0, 1, 0x0, 1, 0, .ro, 0x0, 0xFFFFFFFFFFFFFFFF⟩
  | .txQpolicy => ⟨.tx, 0x8, 1, 0x0, 1, 0, .rw, 0x0, 0x1⟩
  | .txZeroBlocks => ⟨.tx, 0x10, 1, 0x0, 1, 0, .ro, 0x0, 0xFFFFFFFFFFFFFFFF⟩
  | .txUnderBlocks => ⟨.tx, 0x18, 1, 0x0, 1, 0, .ro, 0x0, 0xFFFFFFFFFFFFFFFF⟩
  | .txSatBlocks => ⟨.tx, 0x20, 1, 0x0, 1, 0, .ro, 0x0, 0xFFFFFFFFFFFFFFFF⟩
  | .txNanBlocks => ⟨.tx, 0x28, 1, 0x0, 1, 0, .ro, 0x0, 0xFFFFFFFFFFFFFFFF⟩
  | .txBytesIn => ⟨.tx, 0x30, 1, 0x0, 1, 0, .ro, 0x0, 0xFFFFFFFFFFFFFFFF⟩
  | .txCyclesStalled => ⟨.tx, 0x38, 1, 0x0, 1, 0, .ro, 0x0, 0xFFFFFFFFFFFFFFFF⟩
  | .txFault => ⟨.tx, 0x40, 1, 0x0, 1, 0, .ro, 0x0, 0xFFFFFFFFFFFFFFFF⟩
  | .txCtrClear => ⟨.tx, 0x48, 1, 0x0, 1, 0, .wo, 0x0, 0xFFFFFFFFFFFFFFFF⟩
  | .lxStatus => ⟨.lx, 0x0, 1, 0x0, 1, 0, .ro, 0x0, 0xFFFFFFFFFFFFFFFF⟩
  | .lxStallLimit => ⟨.lx, 0x8, 1, 0x0, 1, 0, .rw, 0xF4240, 0xFFFFFFFFFFFFFFFF⟩
  | .lxBytesLoaded => ⟨.lx, 0x10, 1, 0x0, 1, 0, .ro, 0x0, 0xFFFFFFFFFFFFFFFF⟩
  | .lxBytesStored => ⟨.lx, 0x18, 1, 0x0, 1, 0, .ro, 0x0, 0xFFFFFFFFFFFFFFFF⟩
  | .lxRemoteOps => ⟨.lx, 0x20, 1, 0x0, 1, 0, .ro, 0x0, 0xFFFFFFFFFFFFFFFF⟩
  | .lxCyclesStalled => ⟨.lx, 0x28, 1, 0x0, 1, 0, .ro, 0x0, 0xFFFFFFFFFFFFFFFF⟩
  | .lxFault => ⟨.lx, 0x30, 1, 0x0, 1, 0, .ro, 0x0, 0xFFFFFFFFFFFFFFFF⟩
  | .lxCtrClear => ⟨.lx, 0x38, 1, 0x0, 1, 0, .wo, 0x0, 0xFFFFFFFFFFFFFFFF⟩
  | .lxQstat => ⟨.lx, 0x100, 16, 0x8, 1, 0, .w1c, 0x0, 0x7F⟩
  | .exStatus => ⟨.ex, 0x0, 1, 0x0, 1, 0, .ro, 0x0, 0xFFFFFFFFFFFFFFFF⟩
  | .exWshipThreshold => ⟨.ex, 0x8, 1, 0x0, 1, 0, .rw, 0x800, 0xFFFFFFFFFFFFFFFF⟩
  | .exPoolBase => ⟨.ex, 0x10, 1, 0x0, 1, 0, .rw, 0x0, 0xFFFFFFFFFFFFFFFF⟩
  | .exPoolSize => ⟨.ex, 0x18, 1, 0x0, 1, 0, .rw, 0x0, 0xFFFFFFFFFFFFFFFF⟩
  | .exCountTimeout => ⟨.ex, 0x20, 1, 0x0, 1, 0, .rw, 0xC8, 0xFFFFFFFFFFFFFFFF⟩
  | .exDataTimeout => ⟨.ex, 0x28, 1, 0x0, 1, 0, .rw, 0xC8, 0xFFFFFFFFFFFFFFFF⟩
  | .exSkewMeasured => ⟨.ex, 0x30, 1, 0x0, 1, 0, .ro, 0x0, 0xFFFFFFFFFFFFFFFF⟩
  | .exRowsSent => ⟨.ex, 0x38, 1, 0x0, 1, 0, .ro, 0x0, 0xFFFFFFFFFFFFFFFF⟩
  | .exRowsReceived => ⟨.ex, 0x40, 1, 0x0, 1, 0, .ro, 0x0, 0xFFFFFFFFFFFFFFFF⟩
  | .exShipsSent => ⟨.ex, 0x48, 1, 0x0, 1, 0, .ro, 0x0, 0xFFFFFFFFFFFFFFFF⟩
  | .exShipBytes => ⟨.ex, 0x50, 1, 0x0, 1, 0, .ro, 0x0, 0xFFFFFFFFFFFFFFFF⟩
  | .exEmptyExperts => ⟨.ex, 0x58, 1, 0x0, 1, 0, .ro, 0x0, 0xFFFFFFFFFFFFFFFF⟩
  | .exRoundsExtra => ⟨.ex, 0x60, 1, 0x0, 1, 0, .ro, 0x0, 0xFFFFFFFFFFFFFFFF⟩
  | .exNanRows => ⟨.ex, 0x68, 1, 0x0, 1, 0, .ro, 0x0, 0xFFFFFFFFFFFFFFFF⟩
  | .exFault => ⟨.ex, 0x70, 1, 0x0, 1, 0, .ro, 0x0, 0xFFFFFFFFFFFFFFFF⟩
  | .exCtrClear => ⟨.ex, 0x78, 1, 0x0, 1, 0, .wo, 0x0, 0xFFFFFFFFFFFFFFFF⟩
  | .svStatus => ⟨.sv, 0x0, 1, 0x0, 1, 0, .ro, 0x0, 0xFFFFFFFFFFFFFFFF⟩
  | .svTableBase => ⟨.sv, 0x8, 1, 0x0, 1, 0, .rw, 0x0, 0xFFFFFFFFFFFFFFFF⟩
  | .svCfgHash => ⟨.sv, 0x10, 1, 0x0, 1, 0, .ro, 0x0, 0xFFFFFFFFFFFFFFFF⟩
  | .svIntakeGuard => ⟨.sv, 0x18, 1, 0x0, 1, 0, .rw, 0x32, 0xFFFFFFFFFFFFFFFF⟩
  | .svRowsSampled => ⟨.sv, 0x20, 1, 0x0, 1, 0, .ro, 0x0, 0xFFFFFFFFFFFFFFFF⟩
  | .svDraftsProposed => ⟨.sv, 0x28, 1, 0x0, 1, 0, .ro, 0x0, 0xFFFFFFFFFFFFFFFF⟩
  | .svDraftsAccepted => ⟨.sv, 0x30, 1, 0x0, 1, 0, .ro, 0x0, 0xFFFFFFFFFFFFFFFF⟩
  | .svNanRows => ⟨.sv, 0x38, 1, 0x0, 1, 0, .ro, 0x0, 0xFFFFFFFFFFFFFFFF⟩
  | .svFault => ⟨.sv, 0x40, 1, 0x0, 1, 0, .ro, 0x0, 0xFFFFFFFFFFFFFFFF⟩
  | .svCtrClear => ⟨.sv, 0x48, 1, 0x0, 1, 0, .wo, 0x0, 0xFFFFFFFFFFFFFFFF⟩
  | .svPQuota => ⟨.sv, 0x1000, 16, 0x100, 1, 0, .rw, 0x1000000000000, 0x1FFFF0000FFFF⟩
  | .svPProgram => ⟨.sv, 0x1008, 16, 0x100, 1, 0, .rw, 0x0, 0xFFFFFFFFFFFFFFFF⟩
  | .svPVocab => ⟨.sv, 0x1010, 16, 0x100, 1, 0, .rw, 0x0, 0xFFFFFFFFFFFFFFFF⟩
  | .svPPrefill => ⟨.sv, 0x1018, 16, 0x100, 1, 0, .rw, 0x200000000200, 0xFFFF0000FFFF⟩
  | .svPLimits => ⟨.sv, 0x1020, 16, 0x100, 1, 0, .rw, 0x1000000010000, 0x1FFFF0001FFFF⟩
  | .svPAreaBase => ⟨.sv, 0x1028, 16, 0x100, 1, 0, .rw, 0x0, 0xFFFFFFFFFFFFFFFF⟩
  | .svPAreaSize => ⟨.sv, 0x1030, 16, 0x100, 1, 0, .rw, 0x0, 0xFFFFFFFFFFFFFFFF⟩
  | .svPEntries => ⟨.sv, 0x1038, 16, 0x100, 1, 0, .ro, 0x0, 0xFFFFFFFFFFFFFFFF⟩
  | .svPLastBatch => ⟨.sv, 0x1040, 16, 0x100, 1, 0, .ro, 0x0, 0xFFFFFFFFFFFFFFFF⟩
  | .svPTokens => ⟨.sv, 0x1048, 16, 0x100, 1, 0, .ro, 0x0, 0xFFFFFFFFFFFFFFFF⟩
  | .svPTtftMisses => ⟨.sv, 0x1050, 16, 0x100, 1, 0, .ro, 0x0, 0xFFFFFFFFFFFFFFFF⟩
  | .svPTbtMisses => ⟨.sv, 0x1058, 16, 0x100, 1, 0, .ro, 0x0, 0xFFFFFFFFFFFFFFFF⟩
  | .svPTtftMax => ⟨.sv, 0x1060, 16, 0x100, 1, 0, .ro, 0x0, 0xFFFFFFFFFFFFFFFF⟩
  | .svPTbtMax => ⟨.sv, 0x1068, 16, 0x100, 1, 0, .ro, 0x0, 0xFFFFFFFFFFFFFFFF⟩
  | .svPCtrClear => ⟨.sv, 0x1070, 16, 0x100, 1, 0, .wo, 0x0, 0xFFFFFFFFFFFFFFFF⟩
  | .kvStatus => ⟨.kv, 0x0, 1, 0x0, 1, 0, .ro, 0x0, 0xFFFFFFFFFFFFFFFF⟩
  | .kvFault => ⟨.kv, 0x8, 1, 0x0, 1, 0, .ro, 0x0, 0xFFFFFFFFFFFFFFFF⟩
  | .kvCtrClear => ⟨.kv, 0x10, 1, 0x0, 1, 0, .wo, 0x0, 0xFFFFFFFFFFFFFFFF⟩
  | .kvPPoolBase => ⟨.kv, 0x1000, 16, 0x100, 1, 0, .rw, 0x0, 0xFFFFFFFFFFFFFFFF⟩
  | .kvPMapBase => ⟨.kv, 0x1008, 16, 0x100, 1, 0, .rw, 0x0, 0xFFFFFFFFFFFFFFFF⟩
  | .kvPPoolPages => ⟨.kv, 0x1010, 16, 0x100, 1, 0, .rw, 0x0, 0xFFFFFFFFFFFFFFFF⟩
  | .kvPPage => ⟨.kv, 0x1018, 16, 0x100, 1, 0, .rw, 0x10, 0xFFFFFFFF00FF⟩
  | .kvPMapStride => ⟨.kv, 0x1020, 16, 0x100, 1, 0, .rw, 0x400, 0xFFFFFFFFFFFFFFFF⟩
  | .kvPFree => ⟨.kv, 0x1028, 16, 0x100, 1, 0, .ro, 0x0, 0xFFFFFFFFFFFFFFFF⟩
  | .kvPAllocs => ⟨.kv, 0x1030, 16, 0x100, 1, 0, .ro, 0x0, 0xFFFFFFFFFFFFFFFF⟩
  | .kvPCutPages => ⟨.kv, 0x1038, 16, 0x100, 1, 0, .ro, 0x0, 0xFFFFFFFFFFFFFFFF⟩
  | .memStatus => ⟨.mem, 0x0, 1, 0x0, 1, 0, .ro, 0x0, 0xFFFFFFFFFFFFFFFF⟩
  | .memCtrl => ⟨.mem, 0x8, 1, 0x0, 1, 0, .rw, 0x1, 0x1⟩
  | .memIlvSize => ⟨.mem, 0x10, 1, 0x0, 1, 0, .rw, 0x5A00000000, 0xFFFFFFFFFFFFFFFF⟩
  | .memScrubPeriod => ⟨.mem, 0x18, 1, 0x0, 1, 0, .rw, 0x15180, 0xFFFFFFFFFFFFFFFF⟩
  | .memCeThresh => ⟨.mem, 0x20, 1, 0x0, 1, 0, .rw, 0x4, 0xFFFFFFFFFFFFFFFF⟩
  | .memSpareBase => ⟨.mem, 0x28, 1, 0x0, 1, 0, .rw, 0x0, 0xFFFFFFFFFFFFFFFF⟩
  | .memSpareFrames => ⟨.mem, 0x30, 1, 0x0, 1, 0, .rw, 0x0, 0xFFFFFFFFFFFFFFFF⟩
  | .memJournalBase => ⟨.mem, 0x38, 1, 0x0, 1, 0, .rw, 0x0, 0xFFFFFFFFFFFFFFFF⟩
  | .memTcBase => ⟨.mem, 0x40, 1, 0x0, 1, 0, .rw, 0x0, 0xFFFFFFFFFFFFFFFF⟩
  | .memTcSize => ⟨.mem, 0x48, 1, 0x0, 1, 0, .rw, 0x0, 0xFFFFFFFFFFFFFFFF⟩
  | .memTcEpoch => ⟨.mem, 0x50, 1, 0x0, 1, 0, .rw, 0x186A0, 0xFFFFFFFFFFFFFFFF⟩
  | .memTcThresh => ⟨.mem, 0x58, 1, 0x0, 1, 0, .rw, 0x8, 0xFFFFFFFFFFFFFFFF⟩
  | .memCeCount => ⟨.mem, 0x60, 1, 0x0, 1, 0, .ro, 0x0, 0xFFFFFFFFFFFFFFFF⟩
  | .memUeCount => ⟨.mem, 0x68, 1, 0x0, 1, 0, .ro, 0x0, 0xFFFFFFFFFFFFFFFF⟩
  | .memRetired => ⟨.mem, 0x70, 1, 0x0, 1, 0, .ro, 0x0, 0xFFFFFFFFFFFFFFFF⟩
  | .memErrLog => ⟨.mem, 0x78, 1, 0x0, 1, 0, .ro, 0x0, 0xFFFFFFFFFFFFFFFF⟩
  | .memTcHitBytes => ⟨.mem, 0x80, 1, 0x0, 1, 0, .ro, 0x0, 0xFFFFFFFFFFFFFFFF⟩
  | .memTcCopies => ⟨.mem, 0x88, 1, 0x0, 1, 0, .ro, 0x0, 0xFFFFFFFFFFFFFFFF⟩
  | .memCode => ⟨.mem, 0x90, 1, 0x0, 1, 0, .ro, 0x0, 0xFFFFFFFFFFFFFFFF⟩
  | .memCtrClear => ⟨.mem, 0x98, 1, 0x0, 1, 0, .wo, 0x0, 0xFFFFFFFFFFFFFFFF⟩
  | .memMdRate => ⟨.mem, 0x100, 4, 0x8, 1, 0, .ro, 0x28, 0xFFFFFFFFFFFFFFFF⟩
  | .memPCloseBytes => ⟨.mem, 0x200, 16, 0x8, 1, 0, .ro, 0x0, 0xFFFFFFFFFFFFFFFF⟩
  | .memPCxlBytes => ⟨.mem, 0x280, 16, 0x8, 1, 0, .ro, 0x0, 0xFFFFFFFFFFFFFFFF⟩
  | .memPDemote => ⟨.mem, 0x300, 16, 0x8, 1, 0, .rw, 0x20000, 0xFFFFFF⟩
  | .memPT2Base => ⟨.mem, 0x380, 16, 0x8, 1, 0, .rw, 0x0, 0xFFFFFFFFFFFFFFFF⟩
  | .memPT2Pages => ⟨.mem, 0x400, 16, 0x8, 1, 0, .rw, 0x0, 0xFFFFFFFFFFFFFFFF⟩
  | .memRegA => ⟨.mem, 0x1000, 64, 0x10, 1, 0, .rwProt, 0x0, 0xFFFFFFFFFFFFFFFF⟩
  | .memRegB => ⟨.mem, 0x1008, 64, 0x10, 1, 0, .rwProt, 0x0, 0xFFFFFFFFFFFFFFFF⟩
  | .cxlStatus => ⟨.cxl, 0x0, 4, 0x100, 1, 0, .ro, 0x0, 0xFFFFFFFFFFFFFFFF⟩
  | .cxlCtrl => ⟨.cxl, 0x8, 4, 0x100, 1, 0, .rw, 0x1, 0x3⟩
  | .cxlCapacity => ⟨.cxl, 0x10, 4, 0x100, 1, 0, .ro, 0x0, 0xFFFFFFFFFFFFFFFF⟩
  | .cxlTimeout => ⟨.cxl, 0x18, 4, 0x100, 1, 0, .rw, 0x14, 0xFFFFFFFFFFFFFFFF⟩
  | .cxlRdBytes => ⟨.cxl, 0x20, 4, 0x100, 1, 0, .ro, 0x0, 0xFFFFFFFFFFFFFFFF⟩
  | .cxlWrBytes => ⟨.cxl, 0x28, 4, 0x100, 1, 0, .ro, 0x0, 0xFFFFFFFFFFFFFFFF⟩
  | .cxlPoisonReads => ⟨.cxl, 0x30, 4, 0x100, 1, 0, .ro, 0x0, 0xFFFFFFFFFFFFFFFF⟩
  | .cxlLinkDowns => ⟨.cxl, 0x38, 4, 0x100, 1, 0, .ro, 0x0, 0xFFFFFFFFFFFFFFFF⟩
  | .cxlCode => ⟨.cxl, 0x40, 4, 0x100, 1, 0, .ro, 0x0, 0xFFFFFFFFFFFFFFFF⟩
  | .cxlCtrClear => ⟨.cxl, 0x48, 4, 0x100, 1, 0, .wo, 0x0, 0xFFFFFFFFFFFFFFFF⟩
  | .pnStatus => ⟨.pn, 0x0, 1, 0x0, 1, 0, .ro, 0x0, 0xFFFFFFFFFFFFFFFF⟩
  | .pnSize => ⟨.pn, 0x8, 1, 0x0, 1, 0, .rw, 0x0, 0xFFFFFFFFFFFFFFFF⟩
  | .pnFillDeadline => ⟨.pn, 0x10, 1, 0x0, 1, 0, .rw, 0x2710, 0xFFFFFFFFFFFFFFFF⟩
  | .pnFreeFrames => ⟨.pn, 0x18, 1, 0x0, 1, 0, .ro, 0x0, 0xFFFFFFFFFFFFFFFF⟩
  | .pnHitBytes => ⟨.pn, 0x20, 1, 0x0, 1, 0, .ro, 0x0, 0xFFFFFFFFFFFFFFFF⟩
  | .pnMissBytes => ⟨.pn, 0x28, 1, 0x0, 1, 0, .ro, 0x0, 0xFFFFFFFFFFFFFFFF⟩
  | .pnFillBytes => ⟨.pn, 0x30, 1, 0x0, 1, 0, .ro, 0x0, 0xFFFFFFFFFFFFFFFF⟩
  | .pnEvictions => ⟨.pn, 0x38, 1, 0x0, 1, 0, .ro, 0x0, 0xFFFFFFFFFFFFFFFF⟩
  | .pnInvalidations => ⟨.pn, 0x40, 1, 0x0, 1, 0, .ro, 0x0, 0xFFFFFFFFFFFFFFFF⟩
  | .pnCode => ⟨.pn, 0x48, 1, 0x0, 1, 0, .ro, 0x0, 0xFFFFFFFFFFFFFFFF⟩
  | .pnCtrClear => ⟨.pn, 0x50, 1, 0x0, 1, 0, .wo, 0x0, 0xFFFFFFFFFFFFFFFF⟩
  | .pnPQuota => ⟨.pn, 0x1000, 16, 0x100, 1, 0, .rw, 0x0, 0xFFFFFFFFFFFFFFFF⟩
  | .pnPUsed => ⟨.pn, 0x1008, 16, 0x100, 1, 0, .ro, 0x0, 0xFFFFFFFFFFFFFFFF⟩
  | .pnPPinned => ⟨.pn, 0x1010, 16, 0x100, 1, 0, .ro, 0x0, 0xFFFFFFFFFFFFFFFF⟩
  | .fabStatus => ⟨.fab, 0x0, 1, 0x0, 1, 0, .ro, 0x0, 0xFFFFFFFFFFFFFFFF⟩
  | .fabMapHash => ⟨.fab, 0x8, 1, 0x0, 1, 0, .ro, 0x0, 0xFFFFFFFFFFFFFFFF⟩
  | .fabDeadTimeout => ⟨.fab, 0x10, 1, 0x0, 1, 0, .rw, 0x14, 0xFFFFFFFFFFFFFFFF⟩
  | .fabRetryLimit => ⟨.fab, 0x18, 1, 0x0, 1, 0, .rw, 0x40, 0xFFFFFFFFFFFFFFFF⟩
  | .fabLaneSerLimit => ⟨.fab, 0x20, 1, 0x0, 1, 0, .rw, 0x10000, 0xFFFFFFFFFFFFFFFF⟩
  | .fabDeadCount => ⟨.fab, 0x28, 1, 0x0, 1, 0, .ro, 0x0, 0xFFFFFFFFFFFFFFFF⟩
  | .fabLateResp => ⟨.fab, 0x30, 1, 0x0, 1, 0, .ro, 0x0, 0xFFFFFFFFFFFFFFFF⟩
  | .fabDiscards => ⟨.fab, 0x38, 1, 0x0, 1, 0, .ro, 0x0, 0xFFFFFFFFFFFFFFFF⟩
  | .fabRouteEpoch => ⟨.fab, 0x40, 1, 0x0, 1, 0, .ro, 0x0, 0xFFFFFFFFFFFFFFFF⟩
  | .fabDetours => ⟨.fab, 0x48, 1, 0x0, 1, 0, .ro, 0x0, 0xFFFFFFFFFFFFFFFF⟩
  | .fabBadPackets => ⟨.fab, 0x50, 1, 0x0, 1, 0, .ro, 0x0, 0xFFFFFFFFFFFFFFFF⟩
  | .fabCode => ⟨.fab, 0x58, 1, 0x0, 1, 0, .ro, 0x0, 0xFFFFFFFFFFFFFFFF⟩
  | .fabCtrClear => ⟨.fab, 0x60, 1, 0x0, 1, 0, .wo, 0x0, 0xFFFFFFFFFFFFFFFF⟩
  | .fabPortStatus => ⟨.fab, 0x1000, 6, 0x100, 1, 0, .ro, 0x0, 0xFFFFFFFFFFFFFFFF⟩
  | .fabPortCtrl => ⟨.fab, 0x1008, 6, 0x100, 1, 0, .rw, 0x1, 0x1⟩
  | .fabPortRetrain => ⟨.fab, 0x1010, 6, 0x100, 1, 0, .wo, 0x0, 0xFFFFFFFFFFFFFFFF⟩
  | .fabPeerSerial => ⟨.fab, 0x1018, 6, 0x100, 1, 0, .ro, 0x0, 0xFFFFFFFFFFFFFFFF⟩
  | .fabPeerInfo => ⟨.fab, 0x1020, 6, 0x100, 1, 0, .ro, 0x0, 0xFFFFFFFFFFFFFFFF⟩
  | .fabLaneMap => ⟨.fab, 0x1028, 6, 0x100, 1, 0, .ro, 0x0, 0xFFFFFFFFFFFFFFFF⟩
  | .fabFecCorrected => ⟨.fab, 0x1030, 6, 0x100, 1, 0, .ro, 0x0, 0xFFFFFFFFFFFFFFFF⟩
  | .fabFecUncorrected => ⟨.fab, 0x1038, 6, 0x100, 1, 0, .ro, 0x0, 0xFFFFFFFFFFFFFFFF⟩
  | .fabNaks => ⟨.fab, 0x1040, 6, 0x100, 1, 0, .ro, 0x0, 0xFFFFFFFFFFFFFFFF⟩
  | .fabTxFlits => ⟨.fab, 0x1048, 6, 0x100, 1, 0, .ro, 0x0, 0xFFFFFFFFFFFFFFFF⟩
  | .fabRxFlits => ⟨.fab, 0x1050, 6, 0x100, 1, 0, .ro, 0x0, 0xFFFFFFFFFFFFFFFF⟩
  | .fabLinkDowns => ⟨.fab, 0x1058, 6, 0x100, 1, 0, .ro, 0x0, 0xFFFFFFFFFFFFFFFF⟩
  | .ceStatus => ⟨.ce, 0x0, 1, 0x0, 1, 0, .ro, 0x0, 0xFFFFFFFFFFFFFFFF⟩
  | .ceCollTimeout => ⟨.ce, 0x8, 1, 0x0, 1, 0, .rw, 0x3E8, 0xFFFFFFFFFFFFFFFF⟩
  | .ceColls => ⟨.ce, 0x10, 1, 0x0, 1, 0, .ro, 0x0, 0xFFFFFFFFFFFFFFFF⟩
  | .ceBytesReduced => ⟨.ce, 0x18, 1, 0x0, 1, 0, .ro, 0x0, 0xFFFFFFFFFFFFFFFF⟩
  | .ceRsatResults => ⟨.ce, 0x20, 1, 0x0, 1, 0, .ro, 0x0, 0xFFFFFFFFFFFFFFFF⟩
  | .ceNanResults => ⟨.ce, 0x28, 1, 0x0, 1, 0, .ro, 0x0, 0xFFFFFFFFFFFFFFFF⟩
  | .ceFault => ⟨.ce, 0x30, 1, 0x0, 1, 0, .ro, 0x0, 0xFFFFFFFFFFFFFFFF⟩
  | .ceCtrClear => ⟨.ce, 0x38, 1, 0x0, 1, 0, .wo, 0x0, 0xFFFFFFFFFFFFFFFF⟩
  | .hpStatus => ⟨.hp, 0x0, 1, 0x0, 1, 0, .ro, 0x0, 0xFFFFFFFFFFFFFFFF⟩
  | .hpCtrl => ⟨.hp, 0x8, 1, 0x0, 1, 0, .rw, 0x1, 0x17⟩
  | .hpMac => ⟨.hp, 0x10, 1, 0x0, 1, 0, .ro, 0x0, 0xFFFFFFFFFFFFFFFF⟩
  | .hpIp6Hi => ⟨.hp, 0x18, 1, 0x0, 1, 0, .rw, 0x0, 0xFFFFFFFFFFFFFFFF⟩
  | .hpIp6Lo => ⟨.hp, 0x20, 1, 0x0, 1, 0, .rw, 0x0, 0xFFFFFFFFFFFFFFFF⟩
  | .hpIp4 => ⟨.hp, 0x28, 1, 0x0, 1, 0, .rw, 0x0, 0xFFFFFFFF⟩
  | .hpUdpPort => ⟨.hp, 0x30, 1, 0x0, 1, 0, .rw, 0xBAC2, 0xFFFFFFFFFFFFFFFF⟩
  | .hpEvPortBase => ⟨.hp, 0x38, 1, 0x0, 1, 0, .rw, 0xC000, 0xFFFFFFFFFFFFFFFF⟩
  | .hpVlan => ⟨.hp, 0x40, 1, 0x0, 1, 0, .rw, 0x0, 0x1FFF⟩
  | .hpMaxFrame => ⟨.hp, 0x48, 1, 0x0, 1, 0, .rw, 0x2400, 0xFFFFFFFFFFFFFFFF⟩
  | .hpRto => ⟨.hp, 0x50, 1, 0x0, 1, 0, .rw, 0x64, 0xFFFFFFFFFFFFFFFF⟩
  | .hpSessionTimeout => ⟨.hp, 0x58, 1, 0x0, 1, 0, .rw, 0x3E8, 0xFFFFFFFFFFFFFFFF⟩
  | .hpMgmtPrefixHi => ⟨.hp, 0x60, 1, 0x0, 1, 0, .rw, 0x0, 0xFFFFFFFFFFFFFFFF⟩
  | .hpMgmtPrefixLo => ⟨.hp, 0x68, 1, 0x0, 1, 0, .rw, 0x0, 0xFFFFFFFFFFFFFFFF⟩
  | .hpMgmtPrefixLen => ⟨.hp, 0x70, 1, 0x0, 1, 0, .rw, 0x0, 0xFFFFFFFFFFFFFFFF⟩
  | .hpMgmtChan => ⟨.hp, 0x78, 1, 0x0, 1, 0, .rw, 0xFFF, 0xFFFFFFFFFFFFFFFF⟩
  | .hpPtpCtrl => ⟨.hp, 0x80, 1, 0x0, 1, 0, .rw, 0x0, 0x3FF⟩
  | .hpSessions => ⟨.hp, 0x88, 1, 0x0, 1, 0, .ro, 0x0, 0xFFFFFFFFFFFFFFFF⟩
  | .hpRxFrames => ⟨.hp, 0x90, 1, 0x0, 1, 0, .ro, 0x0, 0xFFFFFFFFFFFFFFFF⟩
  | .hpTxFrames => ⟨.hp, 0x98, 1, 0x0, 1, 0, .ro, 0x0, 0xFFFFFFFFFFFFFFFF⟩
  | .hpRetransmits => ⟨.hp, 0xA0, 1, 0x0, 1, 0, .ro, 0x0, 0xFFFFFFFFFFFFFFFF⟩
  | .hpBadFrames => ⟨.hp, 0xA8, 1, 0x0, 1, 0, .ro, 0x0, 0xFFFFFFFFFFFFFFFF⟩
  | .hpMacsecDrops => ⟨.hp, 0xB0, 1, 0x0, 1, 0, .ro, 0x0, 0xFFFFFFFFFFFFFFFF⟩
  | .hpEvReleased => ⟨.hp, 0xB8, 1, 0x0, 1, 0, .ro, 0x0, 0xFFFFFFFFFFFFFFFF⟩
  | .hpCode => ⟨.hp, 0xC0, 1, 0x0, 1, 0, .ro, 0x0, 0xFFFFFFFFFFFFFFFF⟩
  | .hpCtrClear => ⟨.hp, 0xC8, 1, 0x0, 1, 0, .wo, 0x0, 0xFFFFFFFFFFFFFFFF⟩
  | .hpPQueues => ⟨.hp, 0x1000, 16, 0x100, 1, 0, .rw, 0x0, 0xFFFFFFFFFFFFFFFF⟩
  | .hpPPrefixHi => ⟨.hp, 0x1008, 16, 0x100, 1, 0, .rw, 0x0, 0xFFFFFFFFFFFFFFFF⟩
  | .hpPPrefixLo => ⟨.hp, 0x1010, 16, 0x100, 1, 0, .rw, 0x0, 0xFFFFFFFFFFFFFFFF⟩
  | .hpPPrefixLen => ⟨.hp, 0x1018, 16, 0x100, 1, 0, .rw, 0x0, 0xFFFFFFFFFFFFFFFF⟩
  | .hpPEvchan => ⟨.hp, 0x1020, 16, 0x100, 1, 0, .rw, 0xFFF, 0xFFFFFFFFFFFFFFFF⟩
  | .hpPCmds => ⟨.hp, 0x1028, 16, 0x100, 1, 0, .ro, 0x0, 0xFFFFFFFFFFFFFFFF⟩
  | .nxStatus => ⟨.nx, 0x0, 1, 0x0, 1, 0, .ro, 0x0, 0xFFFFFFFFFFFFFFFF⟩
  | .nxSent => ⟨.nx, 0x8, 1, 0x0, 1, 0, .ro, 0x0, 0xFFFFFFFFFFFFFFFF⟩
  | .nxReceived => ⟨.nx, 0x10, 1, 0x0, 1, 0, .ro, 0x0, 0xFFFFFFFFFFFFFFFF⟩
  | .nxDiscarded => ⟨.nx, 0x18, 1, 0x0, 1, 0, .ro, 0x0, 0xFFFFFFFFFFFFFFFF⟩
  | .nxCode => ⟨.nx, 0x20, 1, 0x0, 1, 0, .ro, 0x0, 0xFFFFFFFFFFFFFFFF⟩
  | .nxCtrClear => ⟨.nx, 0x28, 1, 0x0, 1, 0, .wo, 0x0, 0xFFFFFFFFFFFFFFFF⟩
  | .nxPeerHi => ⟨.nx, 0x1000, 256, 0x20, 1, 0, .rw, 0x0, 0xFFFFFFFFFFFFFFFF⟩
  | .nxPeerLo => ⟨.nx, 0x1008, 256, 0x20, 1, 0, .rw, 0x0, 0xFFFFFFFFFFFFFFFF⟩
  | .nxPeerPort => ⟨.nx, 0x1010, 256, 0x20, 1, 0, .rw, 0x0, 0x800000000000FFFF⟩
  | .nxPTxCtl => ⟨.nx, 0x4000, 16, 0x100, 1, 0, .rw, 0x0, 0xFFFFFFFFFFFFFFFF⟩
  | .nxPTxBase => ⟨.nx, 0x4008, 16, 0x100, 1, 0, .rw, 0x0, 0xFFFFFFFFFFFFFFFF⟩
  | .nxPTxSize => ⟨.nx, 0x4010, 16, 0x100, 1, 0, .rw, 0x0, 0xFFFFFFFFFFFFFFFF⟩
  | .nxPRxCtl => ⟨.nx, 0x4018, 16, 0x100, 1, 0, .rw, 0x0, 0xFFFFFFFFFFFFFFFF⟩
  | .nxPRxBase => ⟨.nx, 0x4020, 16, 0x100, 1, 0, .rw, 0x0, 0xFFFFFFFFFFFFFFFF⟩
  | .nxPRxSize => ⟨.nx, 0x4028, 16, 0x100, 1, 0, .rw, 0x0, 0xFFFFFFFFFFFFFFFF⟩
  | .partStatus => ⟨.part, 0x0, 1, 0x0, 1, 0, .ro, 0x1, 0xFFFFFFFFFFFFFFFF⟩
  | .partShareSum => ⟨.part, 0x8, 1, 0x0, 1, 0, .ro, 0x100, 0xFFFFFFFFFFFFFFFF⟩
  | .partCode => ⟨.part, 0x10, 1, 0x0, 1, 0, .ro, 0x0, 0xFFFFFFFFFFFFFFFF⟩
  | .partCfg => ⟨.part, 0x1000, 16, 0x100, 1, 0, .rwProt, 0x8000010000FF0090, 0xFFFFFFFFFFFFFFFF⟩
  | .partPStatus => ⟨.part, 0x1008, 16, 0x100, 1, 0, .ro, 0x1000, 0xFFFFFFFFFFFFFFFF⟩
  | .partSlowdown => ⟨.part, 0x1010, 16, 0x100, 1, 0, .ro, 0x0, 0xFFFFFFFFFFFFFFFF⟩
  | .partCredit => ⟨.part, 0x1018, 16, 0x100, 1, 0, .ro, 0x0, 0xFFFFFFFFFFFFFFFF⟩
  | .arbWindow => ⟨.arb, 0x0, 1, 0x0, 1, 0, .rw, 0x200, 0xFFFFFFFFFFFFFFFF⟩
  | .arbUrgentQuota => ⟨.arb, 0x8, 1, 0x0, 1, 0, .rw, 0x40, 0xFFFFFFFFFFFFFFFF⟩
  | .arbBurst => ⟨.arb, 0x10, 1, 0x0, 1, 0, .rw, 0x10, 0xFFFFFFFFFFFFFFFF⟩
  | .arbDlScrub => ⟨.arb, 0x18, 1, 0x0, 1, 0, .rw, 0x32, 0xFFFFFFFFFFFFFFFF⟩
  | .arbDlKv => ⟨.arb, 0x20, 1, 0x0, 1, 0, .rw, 0xC8, 0xFFFFFFFFFFFFFFFF⟩
  | .arbDlTc => ⟨.arb, 0x28, 1, 0x0, 1, 0, .rw, 0x3E8, 0xFFFFFFFFFFFFFFFF⟩
  | .arbDlIngest => ⟨.arb, 0x30, 1, 0x0, 1, 0, .rw, 0x3E8, 0xFFFFFFFFFFFFFFFF⟩
  | .arbDlHost => ⟨.arb, 0x38, 1, 0x0, 1, 0, .rw, 0x64, 0xFFFFFFFFFFFFFFFF⟩
  | .arbCode => ⟨.arb, 0x40, 1, 0x0, 1, 0, .ro, 0x0, 0xFFFFFFFFFFFFFFFF⟩
  | .arbCtrClear => ⟨.arb, 0x48, 1, 0x0, 1, 0, .wo, 0x0, 0xFFFFFFFFFFFFFFFF⟩
  | .arbGrants => ⟨.arb, 0x1000, 14, 0x100, 1, 0, .ro, 0x0, 0xFFFFFFFFFFFFFFFF⟩
  | .arbUrgent => ⟨.arb, 0x1008, 14, 0x100, 1, 0, .ro, 0x0, 0xFFFFFFFFFFFFFFFF⟩
  | .arbBest => ⟨.arb, 0x1010, 14, 0x100, 1, 0, .ro, 0x0, 0xFFFFFFFFFFFFFFFF⟩
  | .arbBack => ⟨.arb, 0x1018, 14, 0x100, 1, 0, .ro, 0x0, 0xFFFFFFFFFFFFFFFF⟩
  | .arbUrgentSat => ⟨.arb, 0x1020, 14, 0x100, 1, 0, .ro, 0x0, 0xFFFFFFFFFFFFFFFF⟩
  | .arbIdle => ⟨.arb, 0x1028, 14, 0x100, 1, 0, .ro, 0x0, 0xFFFFFFFFFFFFFFFF⟩
  | .arbPgrants => ⟨.arb, 0x1080, 14, 0x100, 16, 8, .ro, 0x0, 0xFFFFFFFFFFFFFFFF⟩
  | .intStatus => ⟨.int, 0x0, 1, 0x0, 1, 0, .ro, 0x0, 0xFFFFFFFFFFFFFFFF⟩
  | .intAuditRate => ⟨.int, 0x8, 1, 0x0, 1, 0, .rw, 0x40C, 0x1F1F⟩
  | .intUnits => ⟨.int, 0x10, 1, 0x0, 1, 0, .ro, 0x0, 0xFFFFFFFFFFFFFFFF⟩
  | .intSampled => ⟨.int, 0x18, 1, 0x0, 1, 0, .ro, 0x0, 0xFFFFFFFFFFFFFFFF⟩
  | .intSkipped => ⟨.int, 0x20, 1, 0x0, 1, 0, .ro, 0x0, 0xFFFFFFFFFFFFFFFF⟩
  | .intReplays => ⟨.int, 0x28, 1, 0x0, 1, 0, .ro, 0x0, 0xFFFFFFFFFFFFFFFF⟩
  | .intAuditMismatches => ⟨.int, 0x30, 1, 0x0, 1, 0, .ro, 0x0, 0xFFFFFFFFFFFFFFFF⟩
  | .intResidueEvents => ⟨.int, 0x38, 1, 0x0, 1, 0, .ro, 0x0, 0xFFFFFFFFFFFFFFFF⟩
  | .intBallastEvents => ⟨.int, 0x40, 1, 0x0, 1, 0, .ro, 0x0, 0xFFFFFFFFFFFFFFFF⟩
  | .intInjected => ⟨.int, 0x48, 1, 0x0, 1, 0, .ro, 0x0, 0xFFFFFFFFFFFFFFFF⟩
  | .intClockEvents => ⟨.int, 0x50, 1, 0x0, 1, 0, .ro, 0x0, 0xFFFFFFFFFFFFFFFF⟩
  | .intRetracts => ⟨.int, 0x58, 1, 0x0, 1, 0, .ro, 0x0, 0xFFFFFFFFFFFFFFFF⟩
  | .intSnapshots => ⟨.int, 0x60, 1, 0x0, 1, 0, .ro, 0x0, 0xFFFFFFFFFFFFFFFF⟩
  | .intCode => ⟨.int, 0x68, 1, 0x0, 1, 0, .ro, 0x0, 0xFFFFFFFFFFFFFFFF⟩
  | .intCtrClear => ⟨.int, 0x70, 1, 0x0, 1, 0, .wo, 0x0, 0xFFFFFFFFFFFFFFFF⟩
  | .derStatus => ⟨.der, 0x0, 1, 0x0, 1, 0, .ro, 0x0, 0xFFFFFFFFFFFFFFFF⟩
  | .derWatchHours => ⟨.der, 0x8, 1, 0x0, 1, 0, .rw, 0x48, 0xFFFFFFFFFFFFFFFF⟩
  | .derEventWindow => ⟨.der, 0x10, 1, 0x0, 1, 0, .rw, 0x2D0, 0xFFFFFFFFFFFFFFFF⟩
  | .derSpareScanPeriod => ⟨.der, 0x18, 1, 0x0, 1, 0, .rw, 0x18, 0xFFFFFFFFFFFFFFFF⟩
  | .derRotatePeriod => ⟨.der, 0x20, 1, 0x0, 1, 0, .rw, 0xA8, 0xFFFFFFFFFFFFFFFF⟩
  | .derQuarantines => ⟨.der, 0x28, 1, 0x0, 1, 0, .ro, 0x0, 0xFFFFFFFFFFFFFFFF⟩
  | .derRetirements => ⟨.der, 0x30, 1, 0x0, 1, 0, .ro, 0x0, 0xFFFFFFFFFFFFFFFF⟩
  | .derScans => ⟨.der, 0x38, 1, 0x0, 1, 0, .ro, 0x0, 0xFFFFFFFFFFFFFFFF⟩
  | .derScanFails => ⟨.der, 0x40, 1, 0x0, 1, 0, .ro, 0x0, 0xFFFFFFFFFFFFFFFF⟩
  | .derRotations => ⟨.der, 0x48, 1, 0x0, 1, 0, .ro, 0x0, 0xFFFFFFFFFFFFFFFF⟩
  | .derCode => ⟨.der, 0x50, 1, 0x0, 1, 0, .ro, 0x0, 0xFFFFFFFFFFFFFFFF⟩
  | .derCtrClear => ⟨.der, 0x58, 1, 0x0, 1, 0, .wo, 0x0, 0xFFFFFFFFFFFFFFFF⟩
  | .derPll => ⟨.der, 0x100, 20, 0x8, 1, 0, .ro, 0x7, 0xFFFFFFFFFFFFFFFF⟩
  | .derSite => ⟨.der, 0x1000, 8, 0x800, 160, 8, .ro, 0x0, 0xFFFFFFFFFFFFFFFF⟩
  | .pwrStatus => ⟨.pwr, 0x0, 1, 0x0, 1, 0, .ro, 0x1, 0xFFFFFFFFFFFFFFFF⟩
  | .pwrCap => ⟨.pwr, 0x8, 1, 0x0, 1, 0, .rw, 0xE10, 0xFFFFFFFFFFFFFFFF⟩
  | .pwrSlope => ⟨.pwr, 0x10, 1, 0x0, 1, 0, .rw, 0xC8, 0xFFFFFFFFFFFFFFFF⟩
  | .pwrFloor => ⟨.pwr, 0x18, 1, 0x0, 1, 0, .ro, 0x9C4, 0xFFFFFFFFFFFFFFFF⟩
  | .pwrCapPolicy => ⟨.pwr, 0x20, 1, 0x0, 1, 0, .rwProt, 0x1, 0x1⟩
  | .pwrShelfCap => ⟨.pwr, 0x28, 1, 0x0, 1, 0, .rw, 0x708, 0xFFFFFFFFFFFFFFFF⟩
  | .pwrSafeCap => ⟨.pwr, 0x30, 1, 0x0, 1, 0, .rw, 0x870, 0xFFFFFFFFFFFFFFFF⟩
  | .pwrHbCtrl => ⟨.pwr, 0x38, 1, 0x0, 1, 0, .rw, 0x2710, 0x1FFFFFFFF⟩
  | .pwrHeartbeat => ⟨.pwr, 0x40, 1, 0x0, 1, 0, .wo, 0x0, 0xFFFFFFFFFFFFFFFF⟩
  | .pwrStagger => ⟨.pwr, 0x48, 1, 0x0, 1, 0, .rw, 0x4, 0xFFFFFFFFFFFFFFFF⟩
  | .pwrEffectiveCap => ⟨.pwr, 0x50, 1, 0x0, 1, 0, .ro, 0xE10, 0xFFFFFFFFFFFFFFFF⟩
  | .pwrEstimate => ⟨.pwr, 0x58, 1, 0x0, 1, 0, .ro, 0x0, 0xFFFFFFFFFFFFFFFF⟩
  | .pwrMeasured => ⟨.pwr, 0x60, 1, 0x0, 1, 0, .ro, 0x0, 0xFFFFFFFFFFFFFFFF⟩
  | .pwrCalGain => ⟨.pwr, 0x68, 1, 0x0, 1, 0, .ro, 0x1000, 0xFFFFFFFFFFFFFFFF⟩
  | .pwrEnergy => ⟨.pwr, 0x70, 1, 0x0, 1, 0, .ro, 0x0, 0xFFFFFFFFFFFFFFFF⟩
  | .pwrExcess => ⟨.pwr, 0x78, 1, 0x0, 1, 0, .ro, 0x0, 0xFFFFFFFFFFFFFFFF⟩
  | .pwrEmergTime => ⟨.pwr, 0x80, 1, 0x0, 1, 0, .ro, 0x0, 0xFFFFFFFFFFFFFFFF⟩
  | .pwrPreempts => ⟨.pwr, 0x88, 1, 0x0, 1, 0, .ro, 0x0, 0xFFFFFFFFFFFFFFFF⟩
  | .pwrThermCtrl => ⟨.pwr, 0x90, 1, 0x0, 1, 0, .rw, 0x5F6864, 0xFFFFFF⟩
  | .pwrCoolant => ⟨.pwr, 0x98, 1, 0x0, 1, 0, .ro, 0x0, 0xFFFFFFFFFFFFFFFF⟩
  | .pwrCode => ⟨.pwr, 0xA0, 1, 0x0, 1, 0, .ro, 0x0, 0xFFFFFFFFFFFFFFFF⟩
  | .pwrCtrClear => ⟨.pwr, 0xA8, 1, 0x0, 1, 0, .wo, 0x0, 0xFFFFFFFFFFFFFFFF⟩
  | .pwrDie => ⟨.pwr, 0x100, 20, 0x8, 1, 0, .ro, 0x0, 0xFFFFFFFFFFFFFFFF⟩
  | .pwrVf => ⟨.pwr, 0x400, 20, 0x80, 16, 8, .ro, 0x0, 0xFFFFFFFFFFFFFFFF⟩
  | .fwlStatus => ⟨.fwl, 0x0, 1, 0x0, 1, 0, .ro, 0x0, 0xFFFFFFFFFFFFFFFF⟩
  | .fwlKeep => ⟨.fwl, 0x8, 1, 0x0, 1, 0, .ro, 0x0, 0xFFFFFFFFFFFFFFFF⟩
  | .fwlBallastMj => ⟨.fwl, 0x10, 1, 0x0, 1, 0, .ro, 0x0, 0xFFFFFFFFFFFFFFFF⟩
  | .fwlUnheld => ⟨.fwl, 0x18, 1, 0x0, 1, 0, .ro, 0x0, 0xFFFFFFFFFFFFFFFF⟩
  | .fwlCode => ⟨.fwl, 0x20, 1, 0x0, 1, 0, .ro, 0x0, 0xFFFFFFFFFFFFFFFF⟩
  | .fwlCtrClear => ⟨.fwl, 0x28, 1, 0x0, 1, 0, .wo, 0x0, 0xFFFFFFFFFFFFFFFF⟩
  | .fwlDie => ⟨.fwl, 0x100, 8, 0x8, 1, 0, .ro, 0x0, 0xFFFFFFFFFFFFFFFF⟩
  | .secStatus => ⟨.sec, 0x0, 1, 0x0, 1, 0, .ro, 0x0, 0xFFFFFFFFFFFFFFFF⟩
  | .secChangeSeq => ⟨.sec, 0x8, 1, 0x0, 1, 0, .ro, 0x0, 0xFFFFFFFFFFFFFFFF⟩
  | .secSetupDigest => ⟨.sec, 0x10, 1, 0x0, 1, 0, .ro, 0x0, 0xFFFFFFFFFFFFFFFF⟩
  | .secLoadSeq => ⟨.sec, 0x18, 1, 0x0, 1, 0, .ro, 0x0, 0xFFFFFFFFFFFFFFFF⟩
  | .secDevLmsLeft => ⟨.sec, 0x20, 1, 0x0, 1, 0, .ro, 0x0, 0xFFFFFFFFFFFFFFFF⟩
  | .secAliasLmsLeft => ⟨.sec, 0x28, 1, 0x0, 1, 0, .ro, 0x8000, 0xFFFFFFFFFFFFFFFF⟩
  | .secBootCount => ⟨.sec, 0x30, 1, 0x0, 1, 0, .ro, 0x0, 0xFFFFFFFFFFFFFFFF⟩
  | .secFusedSvn => ⟨.sec, 0x38, 1, 0x0, 1, 0, .ro, 0x0, 0xFFFFFFFFFFFFFFFF⟩
  | .secRevoked => ⟨.sec, 0x40, 1, 0x0, 1, 0, .ro, 0x0, 0xFFFFFFFFFFFFFFFF⟩
  | .secCode => ⟨.sec, 0x48, 1, 0x0, 1, 0, .ro, 0x0, 0xFFFFFFFFFFFFFFFF⟩
  | .secSlot => ⟨.sec, 0x100, 64, 0x8, 1, 0, .ro, 0x0, 0xFFFFFFFFFFFFFFFF⟩
  | .bootStatus => ⟨.boot, 0x0, 1, 0x0, 1, 0, .ro, 0x0, 0xFFFFFFFFFFFFFFFF⟩
  | .bootReadyTime => ⟨.boot, 0x8, 1, 0x0, 1, 0, .ro, 0x0, 0xFFFFFFFFFFFFFFFF⟩
  | .bootSlota => ⟨.boot, 0x10, 1, 0x0, 1, 0, .ro, 0x0, 0xFFFFFFFFFFFFFFFF⟩
  | .bootSlotb => ⟨.boot, 0x18, 1, 0x0, 1, 0, .ro, 0x0, 0xFFFFFFFFFFFFFFFF⟩
  | .bootTrialTimeout => ⟨.boot, 0x20, 1, 0x0, 1, 0, .rw, 0x258, 0xFFFFFFFFFFFFFFFF⟩
  | .bootCode => ⟨.boot, 0x28, 1, 0x0, 1, 0, .ro, 0x0, 0xFFFFFFFFFFFFFFFF⟩

/-- All registers, block by block. -/
def Reg.ofCad : List Reg :=
  [.cadTbc, .cadTbStatus, .cadTbErrBound, .cadPtpOffset, .cadPpsInStamp, .cadPpsCtrl, .cadSilentTimeout,
   .cadRejoinTimeout, .cadAdmCloseBw, .cadAdmCxlBw, .cadAdmFabBw, .cadDomCtrl, .cadDomPeriod, .cadDomEpoch,
   .cadDomSpokes, .cadDomAdmLead, .cadDomTick, .cadDomStatus, .cadDomSlice, .cadDomMaxRetracts, .cadDomRetracts,
   .cadDomLateTicks, .cadDomShift, .cadDomIssueLevel, .cadDomLastCommit, .cadDomCode]
def Reg.ofMx : List Reg :=
  [.mxStatus, .mxIssueLevel, .mxCyclesIssued, .mxCyclesSkipped, .mxCyclesStalled, .mxOutlierSpill, .mxIloReadouts,
   .mxIhiReadouts, .mxSatReadouts, .mxNanReadouts, .mxResidueErrs, .mxResidueInject, .mxBallastCycles, .mxFault,
   .mxWalkPos, .mxListClaims, .mxCtrClear]
def Reg.ofVx : List Reg :=
  [.vxStatus, .vxOps, .vxTransOps, .vxSpillProducts, .vxNanOut, .vxCyclesStalled, .vxFault, .vxCtrClear]
def Reg.ofTx : List Reg :=
  [.txStatus, .txQpolicy, .txZeroBlocks, .txUnderBlocks, .txSatBlocks, .txNanBlocks, .txBytesIn, .txCyclesStalled,
   .txFault, .txCtrClear]
def Reg.ofLx : List Reg :=
  [.lxStatus, .lxStallLimit, .lxBytesLoaded, .lxBytesStored, .lxRemoteOps, .lxCyclesStalled, .lxFault, .lxCtrClear,
   .lxQstat]
def Reg.ofEx : List Reg :=
  [.exStatus, .exWshipThreshold, .exPoolBase, .exPoolSize, .exCountTimeout, .exDataTimeout, .exSkewMeasured,
   .exRowsSent, .exRowsReceived, .exShipsSent, .exShipBytes, .exEmptyExperts, .exRoundsExtra, .exNanRows, .exFault,
   .exCtrClear]
def Reg.ofSv : List Reg :=
  [.svStatus, .svTableBase, .svCfgHash, .svIntakeGuard, .svRowsSampled, .svDraftsProposed, .svDraftsAccepted,
   .svNanRows, .svFault, .svCtrClear, .svPQuota, .svPProgram, .svPVocab, .svPPrefill, .svPLimits, .svPAreaBase,
   .svPAreaSize, .svPEntries, .svPLastBatch, .svPTokens, .svPTtftMisses, .svPTbtMisses, .svPTtftMax, .svPTbtMax,
   .svPCtrClear]
def Reg.ofKv : List Reg :=
  [.kvStatus, .kvFault, .kvCtrClear, .kvPPoolBase, .kvPMapBase, .kvPPoolPages, .kvPPage, .kvPMapStride, .kvPFree,
   .kvPAllocs, .kvPCutPages]
def Reg.ofMem : List Reg :=
  [.memStatus, .memCtrl, .memIlvSize, .memScrubPeriod, .memCeThresh, .memSpareBase, .memSpareFrames, .memJournalBase,
   .memTcBase, .memTcSize, .memTcEpoch, .memTcThresh, .memCeCount, .memUeCount, .memRetired, .memErrLog,
   .memTcHitBytes, .memTcCopies, .memCode, .memCtrClear, .memMdRate, .memPCloseBytes, .memPCxlBytes, .memPDemote,
   .memPT2Base, .memPT2Pages, .memRegA, .memRegB]
def Reg.ofCxl : List Reg :=
  [.cxlStatus, .cxlCtrl, .cxlCapacity, .cxlTimeout, .cxlRdBytes, .cxlWrBytes, .cxlPoisonReads, .cxlLinkDowns,
   .cxlCode, .cxlCtrClear]
def Reg.ofPn : List Reg :=
  [.pnStatus, .pnSize, .pnFillDeadline, .pnFreeFrames, .pnHitBytes, .pnMissBytes, .pnFillBytes, .pnEvictions,
   .pnInvalidations, .pnCode, .pnCtrClear, .pnPQuota, .pnPUsed, .pnPPinned]
def Reg.ofFab : List Reg :=
  [.fabStatus, .fabMapHash, .fabDeadTimeout, .fabRetryLimit, .fabLaneSerLimit, .fabDeadCount, .fabLateResp,
   .fabDiscards, .fabRouteEpoch, .fabDetours, .fabBadPackets, .fabCode, .fabCtrClear, .fabPortStatus, .fabPortCtrl,
   .fabPortRetrain, .fabPeerSerial, .fabPeerInfo, .fabLaneMap, .fabFecCorrected, .fabFecUncorrected, .fabNaks,
   .fabTxFlits, .fabRxFlits, .fabLinkDowns]
def Reg.ofCe : List Reg :=
  [.ceStatus, .ceCollTimeout, .ceColls, .ceBytesReduced, .ceRsatResults, .ceNanResults, .ceFault, .ceCtrClear]
def Reg.ofHp : List Reg :=
  [.hpStatus, .hpCtrl, .hpMac, .hpIp6Hi, .hpIp6Lo, .hpIp4, .hpUdpPort, .hpEvPortBase, .hpVlan, .hpMaxFrame, .hpRto,
   .hpSessionTimeout, .hpMgmtPrefixHi, .hpMgmtPrefixLo, .hpMgmtPrefixLen, .hpMgmtChan, .hpPtpCtrl, .hpSessions,
   .hpRxFrames, .hpTxFrames, .hpRetransmits, .hpBadFrames, .hpMacsecDrops, .hpEvReleased, .hpCode, .hpCtrClear,
   .hpPQueues, .hpPPrefixHi, .hpPPrefixLo, .hpPPrefixLen, .hpPEvchan, .hpPCmds]
def Reg.ofNx : List Reg :=
  [.nxStatus, .nxSent, .nxReceived, .nxDiscarded, .nxCode, .nxCtrClear, .nxPeerHi, .nxPeerLo, .nxPeerPort, .nxPTxCtl,
   .nxPTxBase, .nxPTxSize, .nxPRxCtl, .nxPRxBase, .nxPRxSize]
def Reg.ofPart : List Reg :=
  [.partStatus, .partShareSum, .partCode, .partCfg, .partPStatus, .partSlowdown, .partCredit]
def Reg.ofArb : List Reg :=
  [.arbWindow, .arbUrgentQuota, .arbBurst, .arbDlScrub, .arbDlKv, .arbDlTc, .arbDlIngest, .arbDlHost, .arbCode,
   .arbCtrClear, .arbGrants, .arbUrgent, .arbBest, .arbBack, .arbUrgentSat, .arbIdle, .arbPgrants]
def Reg.ofInt : List Reg :=
  [.intStatus, .intAuditRate, .intUnits, .intSampled, .intSkipped, .intReplays, .intAuditMismatches,
   .intResidueEvents, .intBallastEvents, .intInjected, .intClockEvents, .intRetracts, .intSnapshots, .intCode,
   .intCtrClear]
def Reg.ofDer : List Reg :=
  [.derStatus, .derWatchHours, .derEventWindow, .derSpareScanPeriod, .derRotatePeriod, .derQuarantines,
   .derRetirements, .derScans, .derScanFails, .derRotations, .derCode, .derCtrClear, .derPll, .derSite]
def Reg.ofPwr : List Reg :=
  [.pwrStatus, .pwrCap, .pwrSlope, .pwrFloor, .pwrCapPolicy, .pwrShelfCap, .pwrSafeCap, .pwrHbCtrl, .pwrHeartbeat,
   .pwrStagger, .pwrEffectiveCap, .pwrEstimate, .pwrMeasured, .pwrCalGain, .pwrEnergy, .pwrExcess, .pwrEmergTime,
   .pwrPreempts, .pwrThermCtrl, .pwrCoolant, .pwrCode, .pwrCtrClear, .pwrDie, .pwrVf]
def Reg.ofFwl : List Reg :=
  [.fwlStatus, .fwlKeep, .fwlBallastMj, .fwlUnheld, .fwlCode, .fwlCtrClear, .fwlDie]
def Reg.ofSec : List Reg :=
  [.secStatus, .secChangeSeq, .secSetupDigest, .secLoadSeq, .secDevLmsLeft, .secAliasLmsLeft, .secBootCount,
   .secFusedSvn, .secRevoked, .secCode, .secSlot]
def Reg.ofBoot : List Reg :=
  [.bootStatus, .bootReadyTime, .bootSlota, .bootSlotb, .bootTrialTimeout, .bootCode]

/-- The registers of a block. -/
def Block.regs : Block → List Reg
  | .cad => Reg.ofCad
  | .mx => Reg.ofMx
  | .vx => Reg.ofVx
  | .tx => Reg.ofTx
  | .lx => Reg.ofLx
  | .ex => Reg.ofEx
  | .sv => Reg.ofSv
  | .kv => Reg.ofKv
  | .mem => Reg.ofMem
  | .cxl => Reg.ofCxl
  | .pn => Reg.ofPn
  | .fab => Reg.ofFab
  | .ce => Reg.ofCe
  | .hp => Reg.ofHp
  | .nx => Reg.ofNx
  | .part => Reg.ofPart
  | .arb => Reg.ofArb
  | .int => Reg.ofInt
  | .der => Reg.ofDer
  | .pwr => Reg.ofPwr
  | .fwl => Reg.ofFwl
  | .sec => Reg.ofSec
  | .boot => Reg.ofBoot

/-- A register instance: `i` is the block's instance (core site die × 160 + site of a core station, compute die of a die
station, link die of CE, 0 of a block that stands once), `j` the index inside the block (R426 and others), two indices
d and n folded as d × n2 + n. -/
structure RegKey where
  reg : Reg
  i : Nat
  j : Nat
  deriving DecidableEq, Repr

/-- The reset value of a register instance: the table's, where SV.P_QUOTA and PART.Pn_CFG differ for n = 0 (R304,
R486). -/
def RegKey.reset (k : RegKey) : Word :=
  match k.reg with
  | .svPQuota => if k.j = 0 then 0x1000000000000 else 0
  | .partCfg => if k.j = 0 then 0x8000010000FF0090 else 0
  | r => r.info.reset

/-- The first address of a block that stands once. -/
def Block.base : Block → Option Nat
  | .cad => some 0x3000001000000
  | .mem => some 0x3000006000000
  | .cxl => some 0x3000007000000
  | .fab => some 0x3000008000000
  | .hp => some 0x3000009000000
  | .part => some 0x300000A000000
  | .int => some 0x300000B000000
  | .pwr => some 0x300000C000000
  | .sec => some 0x300000D000000
  | .boot => some 0x300000E000000
  | .arb => some 0x300001A000000
  | .der => some 0x300001B000000
  | .fwl => some 0x300001C000000
  | _ => none

/-- The blocks that stand once. -/
def Block.single : List Block :=
  [.cad, .mem, .cxl, .fab, .hp, .part, .int, .pwr, .sec, .boot, .arb, .der, .fwl]

/-- First address of the station registers (R156). -/
def stationBase : Nat := 0x3100000000000

/-- The block of a station number on a die, with its instance (R156, R157): core stations 0 to 3 on core sites 0 to 159 of
a compute die, die stations 8 to 11 on a compute die, CE on a link die, NX on HD. FX has no register of its own. -/
def stationBlock (d c n : Nat) : Option (Block × Nat) :=
  if d < 8 ∧ c < 160 then
    match n with
    | 0 => some (.mx, d * 160 + c)
    | 1 => some (.vx, d * 160 + c)
    | 2 => some (.tx, d * 160 + c)
    | 3 => some (.lx, d * 160 + c)
    | _ => none
  else if d < 8 ∧ c = 0xFFF then
    match n with
    | 8 => some (.pn, d)
    | 9 => some (.kv, d)
    | 10 => some (.ex, d)
    | 11 => some (.sv, d)
    | _ => none
  else if 12 ≤ d ∧ d < 18 ∧ c = 0xFFF ∧ n = 12 then some (.ce, d - 12)
  else if d = 18 ∧ c = 0xFFF ∧ n = 14 then some (.nx, 0)
  else none

/-- The block, instance and offset of an address in register space, if it lies in a block. A block that stands once
reaches to the next multiple of 16 MiB. -/
def blockAt (a : Nat) : Option (Block × Nat × Nat) :=
  if stationBase ≤ a then
    let x := a - stationBase
    (stationBlock (x / 0x100000000) (x / 0x100000 % 0x1000) (x / 0x10000 % 16)).map
      (fun bi => (bi.1, bi.2, x % 0x10000))
  else
    (Block.single.find? (fun b =>
      match b.base with
      | some base => base ≤ a && a < base + 0x1000000
      | none => false)).bind
      (fun b => b.base.map (fun base => (b, 0, a - base)))

/-- The index of an offset in a register's range, if the offset names one of its instances. -/
def RegInfo.index (r : RegInfo) (off : Nat) : Option Nat :=
  if off < r.off then none
  else
    let x := off - r.off
    let j1 := if r.s1 = 0 then 0 else x / r.s1
    let y := x - j1 * r.s1
    let j2 := if r.s2 = 0 then 0 else y / r.s2
    if j1 < r.n1 ∧ j2 < r.n2 ∧ y - j2 * r.s2 = 0 then some (j1 * r.n2 + j2) else none

/-- Registers marked Shared in R304 and R305, and CE.COLL_TIMEOUT (R424): one value for every instance. What SV counts of a
partition, and its last batch, are the same on every die, and stand once (log 63). -/
def Reg.shared : Reg → Bool
  | .svPLastBatch | .svPTokens | .svPTtftMisses | .svPTbtMisses | .svPTtftMax | .svPTbtMax | .svTableBase | .svIntakeGuard | .svPQuota | .svPProgram | .svPVocab | .svPPrefill | .svPLimits | .svPAreaBase
  | .svPAreaSize | .kvPPoolPages | .kvPPage | .kvPMapStride | .ceCollTimeout => true
  | _ => false

/-- The one home of a register instance: Shared registers live at instance 0. -/
def RegKey.home (k : RegKey) : RegKey := if k.reg.shared then { k with i := 0 } else k

/-- The register an address names (R5, R156): none for an unaligned address, a reserved offset or no block. One outside register
space is treated alike, which is the model's choice (R616, log 108). -/
def regAt (a : Nat) : Option RegKey :=
  if a % 8 ≠ 0 then none
  else
    match blockAt a with
    | none => none
    | some (b, i, off) =>
      match b.regs.find? (fun r => (r.info.index off).isSome) with
      | none => none
      | some r => (r.info.index off).map (fun j => (⟨r, i, j⟩ : RegKey).home)

/-- The address of a register instance. -/
def RegKey.addr (k : RegKey) : Nat :=
  let r := k.reg.info
  let inner := r.off + (k.j / r.n2) * r.s1 + (k.j % r.n2) * r.s2
  match r.block with
  | .mx => stationBase + (k.i / 160) * 0x100000000 + (k.i % 160) * 0x100000 + inner
  | .vx => stationBase + (k.i / 160) * 0x100000000 + (k.i % 160) * 0x100000 + 0x10000 + inner
  | .tx => stationBase + (k.i / 160) * 0x100000000 + (k.i % 160) * 0x100000 + 0x20000 + inner
  | .lx => stationBase + (k.i / 160) * 0x100000000 + (k.i % 160) * 0x100000 + 0x30000 + inner
  | .pn => stationBase + k.i * 0x100000000 + 0xFFF00000 + 0x80000 + inner
  | .kv => stationBase + k.i * 0x100000000 + 0xFFF00000 + 0x90000 + inner
  | .ex => stationBase + k.i * 0x100000000 + 0xFFF00000 + 0xA0000 + inner
  | .sv => stationBase + k.i * 0x100000000 + 0xFFF00000 + 0xB0000 + inner
  | .ce => stationBase + (k.i + 12) * 0x100000000 + 0xFFF00000 + 0xC0000 + inner
  | .nx => stationBase + 18 * 0x100000000 + 0xFFF00000 + 0xE0000 + inner
  | b => b.base.getD 0 + inner

end Sys2Proof.Machine
end

