-- ==== Sys2Proof/Machine/State.lean ====
section
/-! DEFINITION. The state of the Smital S8 as plain data, and the state after reset. -/

namespace Sys2Proof.Machine

/-! ## Messages the module sends -/

/-- The management types of R417. -/
inductive MgmtType
  | vote | wait | pass | retract | retractAck | abort | commit | settings | forward | intake | linkState | timeSync
  | report
  deriving DecidableEq, Repr

/-- The packet operations of R405 that are not EXCHANGE or MGMT. -/
inductive PacketOp
  | read | write | atomAdd | atomMax | atomCas | atomSwap | atomLadd | readResp | writeAck | atomResp | collPart
  | collResult
  deriving DecidableEq, Repr

/-- The kinds of exchange segments (R253). -/
inductive ExKind | count | dispatch | ret | ship
  deriving DecidableEq, Repr

/-- The flit types that carry traffic (R382). -/
inductive FlitKind | data | idle | nak | ident | laneCtl
  deriving DecidableEq, Repr

/-- The Brosin packet types of R435. -/
inductive BrosinType | openReq | openOk | close | data | ack | keepalive | event | eventAck | net | spdm
  deriving DecidableEq, Repr

/-- What the module sends, newest first in `State.tx`. -/
inductive Msg
  /-- A completion frame (R442): session, `CMD`, `CMD_ID`, `STATUS`, body. -/
  | completion (session : Nat) (cmd : Code) (cmdId : Word) (status : Code) (body : List Byte)
  /-- An EVENT packet of a channel (R453, R454): sequence number, GAP, and its record's `KIND`, `CODE`, `TICK`, body. -/
  | event (chan : Nat) (seq : BitVec 32) (gap : Bool) (kind : Code) (code : Code) (tick : Word) (body : List Byte)
  /-- A management message to the listed modules (R417), with the words after its body. -/
  | mgmt (typ : MgmtType) (dst : List ModIx) (m : Mgmt) (data : List Word)
  /-- A command forwarded to the master (R277). -/
  | forward (dst : ModIx) (m : Mgmt) (f : HostCmd)
  /-- An intake sent to every module of the slice (R277). -/
  | intake (dst : List ModIx) (m : Mgmt) (cmds : List HostCmd)
  /-- A manifest on its way to every module of the slice (R357). -/
  | manifest (dst : List ModIx) (m : Mgmt) (bytes : List Byte) (timeout : Word)
  /-- A request to resend a shard's verified copy (R362). -/
  | shardResend (dst : ModIx) (n : Part) (version : Code) (shard : Nat)
  /-- A shard read from a storage endpoint (R359). -/
  | shardFetch (n : Part) (version : Code) (shard : Nat) (source : Nat)
  /-- A shard multicast to the modules that hold a copy (R359). -/
  | shardSend (n : Part) (version : Code) (shard : Nat) (dst : List ModIx) (bytes : List Byte)
  /-- A fabric packet (R404), with its multicast mask in the packet. -/
  | packet (op : PacketOp) (pk : Packet)
  /-- An exchange segment (R253). -/
  | exchange (kind : ExKind) (x : ExSegment)
  /-- A flit on a port (R382). -/
  | flit (p : Port) (kind : FlitKind) (fl : Flit)
  /-- The two codewords of five flits, as the symbols of each physical lane in use (R381). -/
  | codewords (p : Port) (first second : List (Nat × List (BitVec 10)))
  /-- A Brosin packet (R434): destination, session or channel number and sequence in the header. -/
  | brosin (typ : BrosinType) (dst : BitVec 128) (h : BrosinHdr) (payload : List Byte)
  /-- An ARP reply, a neighbour advertisement or an echo reply (R431). -/
  | arpReply (addr : BitVec 32)
  | neighborAdvertisement (addr : BitVec 128)
  | echoReply (v6 : Bool) (payload : List Byte)
  /-- A SPDM response (R562). -/
  | spdm (session : Nat) (payload : List Byte)
  /-- The UART line of a failed stage (R604). -/
  | uart (line : List Byte)
  /-- A pulse of PPS_OUT (R34). -/
  | pps
  /-- The bytes of an I3C private read (R606). -/
  | i3c (payload : List Byte)
  /-- An in-band interrupt of the I3C target (R606). -/
  | i3cIbi
  /-- The byte written to register 0x00 of the lane selector at I3C address 0x70: lane 4 in place of this lane (R430, R608). -/
  | laneSelect (lane : Fin 4)
  deriving DecidableEq, Repr

/-! ## Time base and cadence (02) -/

/-- Time-base states (R72). -/
inductive TbState | free | acquiring | locked | holdover | root
  deriving DecidableEq, Repr

/-- The time base of the module (R28 to R32, R585). -/
structure TimeBase where
  state : TbState
  /-- The time-base counter in ns. -/
  tbc : Word
  /-- TBC at the last edge of PPS_IN that was taken (R610). -/
  edge : Option Word
  /-- Whether TBC counts. -/
  runs : Bool
  /-- Port to the parent, and the root it leads to. -/
  parent : Option Port
  root : Option ModIx
  hops : Nat
  spare : Bool
  errBound : Word
  /-- The round trips of the last 64 exchanges with the parent, newest first (R29). -/
  trips : List Word
  /-- What TBC lacks of the parent's time, in ns, to be steered away (R29, R30). -/
  offset : Int
  deriving DecidableEq, Repr

/-- Domain states (R72). -/
inductive DomState | idle | starting | running | rewinding | suspended
  deriving DecidableEq, Repr

/-- An operation accepted on STATE memory (R62). -/
inductive JOp | store (bytes : List Byte) | add | max | ladd
  deriving DecidableEq, Repr

/-- The source of a journal entry or of a request (R62, R409). -/
inductive Source
  | core (c : CoreId)
  | die (d : Fin 8)
  | remote (m : ModIx) (die : Byte)
  | engine
  deriving DecidableEq, Repr

/-- One entry of a STATE journal (R62): physical address, operation, operand, source, segment. -/
structure JEntry where
  addr : Nat
  op : JOp
  val : Word
  src : Source
  seg : Nat
  /-- The compute die whose journal holds it (R63). -/
  die : Fin 8
  deriving DecidableEq, Repr

/-- Votes, WAIT frames and acknowledgements a master or deputy holds (R46 to R53). -/
structure Tally where
  votes : List (Nat × ModIx × Code)
  waits : List (Nat × ModIx)
  acks : List ModIx
  settings : List (ModIx × Settings)
  /-- Segments resolved by PASS. -/
  resolved : Nat
  /-- The member declared silent whose acknowledgement is awaited (R51, R52). -/
  silent : Option ModIx
  deriving DecidableEq, Repr

/-- One cadence domain (R35 to R72, R479 to R481). -/
structure Domain where
  state : DomState
  /-- The modules that are master and deputy now (R46, R53). -/
  master : ModIx
  deputy : Option ModIx
  tick : Nat
  /-- Retractions received in the tick: the RUN of R406. -/
  run : Nat
  /-- Segments voted, segments that have PASS. -/
  voted : Nat
  passed : Nat
  /-- The first error of each segment not yet resolved, and the site that made it (R44, R49). -/
  errs : List (Nat × Code × Option SiteId)
  tally : Tally
  /-- Votes that came before their tick or run (R406). -/
  early : List Mgmt
  /-- Scheduled apply time once COMMIT has arrived (R55). -/
  applyAt : Option Word
  /-- COMMIT of the current tick has been broadcast (R479). -/
  committed : Bool
  lastTick : Option Nat
  lastLate : Bool
  lastBound : Bool
  /-- Segments of the running tick in which a measured quantity exceeded its declaration (R69). -/
  bound : List Nat
  /-- Measured bytes of the running tick by segment: close memory by memory-port die, second tier by port (R347, R348). -/
  closeBy : List ((Nat × Nat) × Nat)
  cxlBy : List ((Nat × Nat) × Nat)
  /-- Fabric bytes of the running tick by segment and place: twice the torus port out of the module, one more into it (R65, R69). -/
  fabBy : List ((Nat × Nat) × Nat)
  /-- Health counts of the running tick by segment and counter (R115, R116). -/
  health : List ((Nat × Nat) × Nat)
  /-- TRAPs run and not yet reported: segment, run, code, logical core (R624). -/
  traps : List (Nat × Nat × Code × Nat)
  /-- The domain enters SUSPENDED after the current tick commits, with this code (R73, R505, R542). -/
  suspendAfter : Option Code
  journal : List JEntry
  /-- What the bytes of APPEND memory written in the running tick held before it (R54, R58, log 44). -/
  before : List Host.Cell
  /-- A RETRACT carrying 0x0A04 was received in this tick, the hold of R481 runs, and pre-emption stopped the
  domain (R479). -/
  preempted : Bool
  holding : Bool
  stopped : Bool
  /-- The apply of the commit waits for a promotion's copy (R344). -/
  applyWaits : Bool
  /-- Segment 0 of the tick waits for the end of the thermal hold (R542). -/
  heldStart : Bool
  /-- BOOT_PART_RESET waits for the commit (R589). -/
  resetAfter : Bool
  deriving DecidableEq, Repr

/-- A tally of nothing. -/
def Tally.empty : Tally := ⟨[], [], [], [], 0, none⟩

/-- A domain at reset (R72). -/
def Domain.init : Domain :=
  { state := .idle, master := 0, deputy := none, tick := 0, run := 0, voted := 0, passed := 0,
    errs := [], tally := Tally.empty, early := [], applyAt := none, committed := false, lastTick := none, lastLate := false,
    lastBound := false, bound := [], closeBy := [],
    cxlBy := [], fabBy := [], health := [], traps := [], suspendAfter := none, journal := [], before := [],
    preempted := false, holding := false, stopped := false, applyWaits := false, heldStart := false, resetAfter := false }

/-! ## Memory (09) -/

/-- A change of the key under which a range of region memory is read (R328, R329): the keys before and after, empty where there
is none, and what gives an address its tweak, MEM.ILV_SIZE and the close-memory bytes of a memory-port die. -/
structure Recode where
  old : List Byte
  new : List Byte
  ilv : Nat
  die : Nat
  deriving DecidableEq, Repr

/-- What the unlisted bytes of a range read as: zero, free values with a seed (R313), or what lay there under another key
(R329). -/
inductive Blur
  | zero
  | loose (seed : Nat)
  | coded (r : Recode)
  deriving DecidableEq, Repr

/-- Memory: bytes of the local address space that differ from what an unlisted address reads as, in rising order of
address, and the ranges (first, end) whose unlisted bytes have been cleared, lost or recoded, newest first (R313, R329). -/
structure Memory where
  cells : List Host.Cell
  blurs : List (Nat × Nat × Blur)
  deriving DecidableEq, Repr

/-- Frame retirement and the tier cache (R315 to R319, R338 to R340). Frames are (memory-port die, frame). -/
structure MemSys where
  /-- Poisoned 64-byte units, by local address / 64. -/
  poisoned : List Nat
  /-- Corrected errors of a frame in this scrub period. -/
  ceCount : List ((Fin 4 × Nat) × Nat)
  /-- Retired frame, the spare that serves it, and the offset on its die of the error that retired it. -/
  retired : List ((Fin 4 × Nat) × Nat × Nat)
  /-- Frames being copied, likewise. -/
  copying : List ((Fin 4 × Nat) × Nat × Nat)
  /-- Tier-cache slots: frame (local address / 2 MiB), and whether its copy is complete. -/
  tcSlots : List (Nat × Bool)
  /-- Bytes read from a candidate frame in this epoch. -/
  tcBytes : List (Nat × Nat)
  /-- Bytes that the last read of TCACHE memory hit, by frame, until the device serves them (R340). -/
  tcHits : List (Nat × Nat)
  deriving DecidableEq, Repr

/-- CXL port states (R350). -/
inductive CxlState | down | training | inService | refused
  deriving DecidableEq, Repr

/-- A CXL port (R320 to R322). -/
structure CxlPort where
  state : CxlState
  width : Nat
  rate : Nat
  ide : Bool
  capacity : Nat
  /-- Units of 64 bytes, by number, that the device returns with poison: the device keeps them (R320, R322). -/
  poison : List Nat
  deriving DecidableEq, Repr

/-- A CXL port at reset. -/
def CxlPort.init : CxlPort := ⟨.down, 0, 0, false, 0, []⟩

/-- Pannier item states (R330). -/
inductive PnState | queued | filling | valid
  deriving DecidableEq, Repr

/-- A Pannier directory item (R330). The list order of a directory is the order of entry. -/
structure PnItem where
  src : Nat
  bytes : Nat
  part : Part
  prio : Nat
  version : Code
  pin : Bool
  lastHit : Word
  state : PnState
  deriving DecidableEq, Repr

/-! ## Cores (05, 06, 04) -/

/-- A tile descriptor of R167: a 256-bit record that software reads and writes by fields. -/
abbrev Desc := BitVec 256

/-- A tile in a stream (R160): its descriptor with `STATUS` filled in, its payload in the order of R121, and whether an
outlier list is part of the payload. -/
structure Tile where
  desc : Desc
  payload : List Byte
  outl : Bool
  deriving DecidableEq, Repr

/-- An open stream (R159, R165): its configuration, the tiles in its ring, oldest first, and its sticky status. -/
structure Stream where
  prod : BitVec 4
  cons : BitVec 4
  dstn : BitVec 2
  fmt : BitVec 4
  rlog : BitVec 5
  base : BitVec 9
  tiles : List Tile
  sticky : BitVec 7
  deriving DecidableEq, Repr

/-- An open loop (R190, R221 to R223). `count` is none for LOOPW, whose predicate is `pred`. -/
structure LoopFrame where
  first : Nat
  last : Nat
  count : Option Nat
  pred : BitVec 3
  bound : Nat
  pass : Nat
  index : BitVec 5
  deriving DecidableEq, Repr

/-- An entry of the call stack (R190): return word and loop depth. -/
structure CallFrame where
  ret : Nat
  depth : Nat
  deriving DecidableEq, Repr

/-- Where a late result goes (R212): a scalar, a descriptor, or nowhere (a store, or a register written since). -/
inductive Dest | s (r : BitVec 5) | td (r : BitVec 5) | none
  deriving DecidableEq, Repr

/-- What a sequencer waits for (R214 to R219, R226, R227, R41). -/
inductive Wait
  | waitv (addr : Word) (val : Word) (cond : BitVec 8)
  | bar (n : Nat)
  | fence (kind : BitVec 8)
  | qsync (q : BitVec 4)
  | qclose (q : BitVec 4)
  | qopen (f : FmtQ)
  | cwait (h : Nat)
  | segend
  | stepend
  /-- Waiting for PASS before the next segment's first instruction (R41). -/
  | pass
  /-- Waiting for the commit apply after STEPEND (R227). -/
  | commit
  deriving DecidableEq, Repr

/-- Atomic operations of a core (R198) and of the fabric (R410). -/
inductive AtomOp | add | max | cas | swap | ladd
  deriving DecidableEq, Repr

/-- A command in a station queue with everything it named at issue (R213, R214). -/
inductive StCmd
  | mxld (q : BitVec 4)
  /-- `err`: a residue check fails on it (R140). -/
  | mxrun (q : BitVec 4) (td : Desc) (set acc rel : Bool) (err : Option ResidueErr)
  | mxout (q : BitVec 4) (td : Desc) (set : Bool)
  | mxsave (addr : Word) (set : Bool)
  | mxrst (addr : Word) (td : Desc) (set : Bool)
  /-- `tag` names the walk for its marker in the queue of LX (R206). -/
  | mxwalk (q : BitVec 4) (td : Desc) (addr : Word) (err : Option ResidueErr) (tag : Nat)
  | vx (fn : BitVec 8) (q0 q1 q2 q3 rfmt : BitVec 4) (bm cm : BitVec 2) (sx sy : Word)
  | tx (fn : BitVec 8) (q0 q1 q2 : BitVec 4) (td : Desc) (rows : Word)
  | tld (q : BitVec 4) (td : Desc)
  /-- `audit`: the sampled audit unit it was issued in (R229). -/
  | tst (q : BitVec 4) (td : Desc) (audit : Option Nat)
  | ld (tag : Nat) (addr : Word)
  | st (tag : Nat) (addr val : Word)
  | atom (tag : Nat) (op : AtomOp) (addr val cmp : Word) (nr : Bool)
  | tdld (tag : Nat) (addr : Word)
  | tdst (tag : Nat) (addr : Word) (td : Desc)
  | digest (td : Desc) (addr : Word)
  /-- The place of a group walk's stores in the order of LX accesses (R184, R206): no command of the queue of 8. -/
  | walk (td : Desc) (addr : Word) (tag : Nat)
  /-- SAMPLE (R290): streams of logits and samples, OUT, MODE, LAST, the row and the first vocabulary index. -/
  | sample (q0 q1 : BitVec 4) (outp : Bool) (mode : Nat) (last : Bool) (row vocab : Word)
  deriving DecidableEq, Repr

/-- An open accumulation (R104, R124, R126): exact sum in units of the window's least significant bit, anchor, row scale
as BF16, contributions, the anchor's status flags in the layout of R110, and whether the sum is NaN. -/
structure Acc where
  sum : Int
  anchor : BitVec 16
  rscale : BitVec 16
  count : Nat
  flags : BitVec 7
  nan : Bool
  deriving DecidableEq, Repr

/-- A bank of MX: its resident tile, and whether its load has completed (R120, R121). -/
structure MxBank where
  tile : Tile
  complete : Bool
  /-- Loads are numbered in order; MXRUN takes the lowest unreleased number (R204). -/
  order : Nat
  deriving DecidableEq, Repr

/-- What MX keeps of a claimed tile-list entry (R148). -/
structure ListItem where
  kAddr : Nat
  qpos : Nat
  kpos : Nat
  causal : Bool
  deriving DecidableEq, Repr

/-- The matrix station (R120 to R141). Accumulations are listed by set, token and row. -/
structure Mx where
  bank0 : Option MxBank
  bank1 : Option MxBank
  loads : Nat
  accs : List ((Bool × Nat × Nat) × Acc)
  /-- The tile-list item claimed last (R147, R148). -/
  item : Option ListItem
  /-- Sets that hold causal scores of an item: the set, its QPOS and KPOS (R149). -/
  masks : List (Bool × Nat × Nat)
  /-- Resident tiles that the command in progress has served (R140, R143). -/
  passes : Nat
  /-- The mode of the last tile issued, 0 W2A8 to 3 BF16 (R153, R511). -/
  mode : Nat
  /-- `EXPERT` of the group-table entry read last, for fault and audit records (R142). -/
  expert : Nat
  deriving DecidableEq, Repr

/-- An open or sampled audit unit (R190, R229). -/
structure Audit where
  /-- Names the unit among those of its core, for stores still queued when it closes. -/
  id : Nat
  unit : BitVec 16
  sampled : Bool
  /-- State captured at AUDB. -/
  s : List Word
  p : List Bool
  td : List Desc
  /-- Preamble and payload of the tiles stored by TST inside the unit, in order (R231). -/
  stored : List (List Byte)
  deriving DecidableEq, Repr

/-- A collective handle of a core (R423, R424): whether the core's part is over, and the tags of the writes of its result that
await an acknowledgement. -/
structure CollHandle where
  done : Bool
  acks : List Code
  deriving DecidableEq, Repr

/-- A checkpoint of a sequencer, named by the segment that starts from it, with the sticky status of its streams: one at the
start of the step and one at the end of each segment (R43, R191, R192). -/
structure Ckpt where
  seg : Nat
  s : Vector Word 32
  p : Vector Bool 8
  td : Vector Desc 32
  pc : Nat
  loops : List LoopFrame
  calls : List CallFrame
  streams : List (BitVec 4 × Stream)
  colls : List (Nat × CollHandle)
  deriving DecidableEq, Repr

/-- A piece of a tile that LX reads (R183): the other module it lies on, its local address, the bytes wanted, the tag of its
READ once sent, and its bytes once they have come. -/
structure Piece where
  dst : Option ModIx
  addr : Nat
  len : Nat
  tag : Option Code
  data : Option (List Byte)
  deriving DecidableEq, Repr

/-- An access of LX that touches another module and is in progress (R183): the command, the pieces it reads in payload order,
whether its outlier entries are among them, and the writes not yet sent. -/
structure LxRun where
  cmd : StCmd
  pieces : List Piece
  entries : Bool
  writes : List (Option ModIx × Nat × List Byte)
  deriving DecidableEq, Repr

/-- A COLL whose group descriptor and source tile are being read (R418 to R421): its kind, descriptors, handle, and the pieces
it reads, the group descriptor's first. -/
structure CollRun where
  kind : Nat
  src : Desc
  dst : Desc
  handle : Nat
  pieces : List Piece
  entries : Bool
  deriving DecidableEq, Repr

/-- A logical core: its sequencer (R190) and its core stations (R20). -/
structure Core where
  s : Vector Word 32
  p : Vector Bool 8
  td : Vector Desc 32
  pc : Nat
  loops : List LoopFrame
  calls : List CallFrame
  streams : List (BitVec 4 × Stream)
  audit : Option Audit
  /-- Issuing: a step runs on it. -/
  running : Bool
  /-- Segment in progress. -/
  seg : Nat
  wait : Option Wait
  /-- Outstanding late results, by tag (R212). -/
  late : List (Nat × Dest)
  nextTag : Nat
  mxq : List StCmd
  vxq : List StCmd
  txq : List StCmd
  lxq : List StCmd
  /-- SAMPLE commands whose tile has not come. -/
  svq : List StCmd
  mx : Mx
  /-- The tile accesses to other modules that LX is making, at most one a command. -/
  lxRuns : List LxRun
  colls : List (Nat × CollHandle)
  collRuns : List CollRun
  /-- COLLs issued on each group in the segment (R420). -/
  collCount : List (Nat × Nat)
  ckpts : List Ckpt
  /-- The fault that killed the segment (R220). -/
  killed : Option Code
  /-- TBC at the start of the step (R201 CYCLES). -/
  started : Word
  /-- MX issue cycles of the segment in progress (R69). -/
  issued : Nat
  deriving DecidableEq, Repr

/-- An idle matrix station. -/
def Mx.init : Mx := ⟨none, none, 0, [], none, [], 0, 0, 0⟩

/-- A core that has not started a step (log 6). -/
def Core.init : Core :=
  { s := Vector.replicate 32 0, p := Vector.replicate 8 false, td := Vector.replicate 32 0, pc := 0, loops := [],
    calls := [], streams := [], audit := none, running := false, seg := 0, wait := none, late := [], nextTag := 0,
    mxq := [], vxq := [], txq := [], lxq := [], svq := [], mx := Mx.init, lxRuns := [], colls := [], collRuns := [], collCount := [], ckpts := [], killed := none,
    started := 0, issued := 0 }

/-- A die barrier in use (R217): the count that the first arrival fixed and the cores that have arrived, and the groups that are
complete but for their accesses. -/
structure Barrier where
  count : Word
  arrived : List CoreId
  full : List (List CoreId)
  deriving DecidableEq, Repr

/-- A step program installed in a partition (R232 to R235): its image and header fields. -/
structure Program where
  id : BitVec 32
  segments : Nat
  tds : List Desc
  entry : Nat
  code : List Word
  skew : Nat
  /-- C_DENSE, C_EXPERT, B_CLOSE, B_CXL, B_FAB, B_STATE, each as its four coefficients (R233). -/
  cost : List (List Nat)
  segCost : List (List Nat)
  deriving DecidableEq, Repr

/-! ## The fabric (11) -/

/-- Port states (R426). -/
inductive PortState | down | training | ident | up | miswired | versionHold | disabled
  deriving DecidableEq, Repr

/-- Training stages (R394). -/
inductive TrainStage | phy | laneCheck | lock | ident
  deriving DecidableEq, Repr

/-- Reasons of MISWIRED (R394, R426). -/
inductive WireReason | port | serial | coord | map
  deriving DecidableEq, Repr

/-- A torus port (R376 to R397). -/
structure FabPort where
  state : PortState
  stage : TrainStage
  /-- For each physical lane the partner's lane that the cable joins to it, and whether with its polarity turned (R378). -/
  found : List (Option (Fin 18 × Bool))
  /-- Physical lanes found healthy at training, retired since, and the physical lane of each logical lane. -/
  healthy : BitVec 18
  failed : BitVec 18
  lanes : List Nat
  /-- A lane move in progress: data flits are held (R379). -/
  moving : Bool
  /-- The port carries no time base while a domain is enabled (R586). -/
  noTime : Bool
  reason : Option WireReason
  level : Nat
  features : Byte
  /-- The last identity records, newest first, at most three (R394). -/
  idents : List IdentRecord
  /-- Sequence numbers: next to send, last received in order; whether a NAK was sent and the port waits (R384). -/
  txSeq : BitVec 12
  rxSeq : BitVec 12
  naked : Bool
  /-- DATA flits not yet acknowledged, oldest first (R384). -/
  retry : List Flit
  /-- Flits waiting for a credit or for the retry buffer. -/
  waiting : List Flit
  /-- Credits held for each virtual channel (R386). -/
  credits : List (BitVec 4 × Nat)
  /-- Bytes of the flits sent since the last pair of codewords (R381). -/
  stream : List Byte
  /-- The class served last of REQUEST, RESPONSE and BULK (R387). -/
  turn : Nat
  deriving DecidableEq, Repr

/-- A torus port at reset (R426). -/
def FabPort.init : FabPort :=
  { state := .down, stage := .phy, found := [], healthy := 0, failed := 0, lanes := [], moving := false, noTime := false, reason := none, level := 0,
    features := 0, idents := [], txSeq := 0, rxSeq := 0xFFF, naked := false, retry := [], waiting := [], credits := [],
    stream := [], turn := 3 }

/-- What an outstanding request was for (R408, R411). -/
inductive ReqKind | load (tag : Nat) | store | atom (tag : Nat) (nr : Bool) | poll | piece | host | engine
  deriving DecidableEq, Repr

/-- A request a source of this module has outstanding (R404, R411, R412). -/
structure Request where
  tag : Code
  src : Source
  kind : ReqKind
  dst : ModIx
  part : Part
  seg : Nat
  run : Nat
  stamped : Bool
  len : Nat
  addr : Word
  /-- The route it took (R403). -/
  detour : Bool
  via : ModIx
  /-- Members whose WRITE_ACK is awaited (R414). -/
  members : List ModIx
  deriving DecidableEq, Repr

/-- One entry of the link-state database (R398): sequence number and six PORT_STATUS words. -/
structure LinkState where
  seqNo : Word
  ports : List Word
  deriving DecidableEq, Repr

/-- A local contribution to a collective (R418 to R423): the core, its logical core number, its handle, its tile and its
destination descriptor. -/
structure Contribution where
  core : CoreId
  lcore : Nat
  handle : Nat
  tile : Tile
  dst : Desc
  deriving DecidableEq, Repr

/-- What a COLL_PART or COLL_RESULT says of a module's share of an instance (log 37): kind, descriptor hash, contributions and
how many are not empty, shape, whether it carries the root's tile, an outlier list, NaN marks, its fault, its length and the
bytes that have come. -/
structure CollPart where
  module : ModIx
  kind : Nat
  hash : Word
  cores : Nat
  nonEmpty : Nat
  shape : Desc
  carried : Bool
  outl : Bool
  marks : Bool
  fault : Code
  total : Nat
  data : List Byte
  deriving DecidableEq, Repr

/-- An instance of a collective at this module's engines (R420): its name, what the group descriptor says, local
contributions, shares of the other members, whether this module's share was sent, and the fault it raised. -/
structure CollInst where
  part : Part
  seg : Nat
  group : Nat
  n : Nat
  kind : Nat
  hash : Word
  members : List ModIx
  perModule : Nat
  root : Nat
  contribs : List Contribution
  parts : List CollPart
  result : Option CollPart
  sent : Bool
  fault : Code
  deriving DecidableEq, Repr

/-- The fabric of the module. -/
structure Fabric where
  ports : List (Port × FabPort)
  /-- The installed map: its extents and the serial of each present entry (R389). -/
  map : Option (Nat × Nat × Nat × List (Option (BitVec 40)))
  /-- The module's coordinate in the installed map, as its index (R389). -/
  index : Option ModIx
  /-- The bytes of the installed map, for MAP_HASH. -/
  mapBytes : List Byte
  lsdb : List (ModIx × LinkState)
  /-- Sequence number of the module's own LINK_STATE messages. -/
  lsSeq : Word
  reqs : List Request
  nextTag : Code
  /-- Stamped packets held for a later tick or run (R407). -/
  held : List (PacketOp × Packet)
  heldX : List (Part × ExKind × ExSegment)
  insts : List CollInst
  deriving DecidableEq, Repr

/-! ## Serving (08) -/

/-- Life-cycle states of a request (R275). -/
inductive ReqState | free | queued | prefill | decode | done
  deriving DecidableEq, Repr

/-- End reasons (R296); `none` is 0. -/
inductive EndReason | none | stopToken | stopSequence | maxNew | maxTotal | wall | cancelled
  deriving DecidableEq, Repr

/-- A request entry (R274) with its prompt, its stop record (R276) and the tokens generated so far. `prompt` and
`generated` are the tokens that the area and the events hold. -/
structure Entry where
  state : ReqState
  reqId : Word
  seed : Word
  submitTbc : Word
  lastTbc : Word
  stopAddr : Nat
  promptAddr : Nat
  promptLen : Nat
  ctxLen : Nat
  genCount : Nat
  maxNew : Nat
  maxTotal : Nat
  wallTicks : Nat
  temperature : BitVec 32
  topP : BitVec 32
  ttftTarget : Nat
  tbtTarget : Nat
  startTick : Nat
  topK : Nat
  version : Code
  channel : Nat
  misses : Nat
  missLimit : Nat
  draftMax : Nat
  draftDepth : Nat
  zeroRun : Nat
  probeRun : Nat
  home : ModIx
  part : Part
  missAction : Bool
  specOff : Bool
  cut : Bool
  cancel : Bool
  endReason : EndReason
  accepted : Nat
  tbtMax : Nat
  ttft : Nat
  prompt : List (BitVec 32)
  generated : List (BitVec 32)
  stopIds : List (BitVec 32)
  stopSeqs : List (List (BitVec 32))
  /-- Consecutive committed ticks in no batch (R343), and whether event 0x0506 was raised. -/
  idleTicks : Nat
  missRaised : Bool
  deriving DecidableEq, Repr

/-- A result record of R302 as its fields, and the reads served since DONE (R449). -/
structure ResultRec where
  bytes : List Byte
  flags : Nat
  reads : Nat
  deriving DecidableEq, Repr

/-- Roles of batch rows (R286). -/
inductive Role | prefill | prefillLast | decode | verify
  deriving DecidableEq, Repr

/-- One row of the batch table (R286); `PAGE_ADDR` differs by die and is listed apart. -/
structure BatchRow where
  entry : Nat
  role : Role
  cut : Bool
  depth : Nat
  news : Nat
  version : Code
  pos : Nat
  token : Int
  seqRow : Nat
  deriving DecidableEq, Repr

/-- A planned sequence of a batch under construction (R282 to R285). -/
structure PlanSeq where
  entry : Nat
  rows : Nat
  depth : Nat
  prefill : Bool
  /-- Planned `CTX_LEN` plus the rows (R284). -/
  ctx : Nat
  deriving DecidableEq, Repr

/-- Logits fed to the sampler of a die for a row: the mode, and FP32 codes by vocabulary index with the segment that fed
them (R290). -/
structure Feed where
  die : Fin 8
  row : Nat
  mode : Nat
  logits : List (Nat × BitVec 32 × Nat)
  deriving DecidableEq, Repr

/-- What a step yields for a sequence: samples by row offset with their segment, and once checked the segment of the check,
the yield, the end and the accepted drafts (R293, R294, R297). -/
structure SeqYield where
  entry : Nat
  samples : List (Nat × BitVec 32 × Nat)
  /-- Row offsets whose logits were all excluded, with their segment (R291). -/
  nan : List (Nat × Nat)
  /-- The core whose SAMPLE sampled it, on this module (R297). -/
  core : Option CoreId
  checked : Option Nat
  tokens : List (BitVec 32)
  endReason : EndReason
  accepted : Nat
  deriving DecidableEq, Repr

/-- A shared command of the tick: die, station and function, arguments, segment, result (R303). -/
structure SharedCmd where
  die : Fin 8
  station : Nat
  fn : Nat
  a : Word
  b : Word
  seg : Nat
  result : Word
  deriving DecidableEq, Repr

/-- A batch in use by a partition: tick, program, rows, yields, shared commands (R281 to R298). -/
structure Batch where
  tick : Nat
  /-- The program it runs, if any (R236). -/
  program : Option (BitVec 32)
  plan : List PlanSeq
  rows : List BatchRow
  /-- PAGE_ADDR by die and row. -/
  pages : List ((Fin 8 × Nat) × Nat)
  /-- DRAFT tokens filled: row, token, segment. -/
  filled : List (Nat × BitVec 32 × Nat)
  feeds : List Feed
  yields : List SeqYield
  shared : List SharedCmd
  /-- DRAFTSYNCs that wait: core, register tag, first row, row count. -/
  syncs : List (CoreId × Nat × Nat × Nat)
  /-- Built on a module whose SV.CFG_HASH differs from the master's: segment 0 is voted DIRTY with 0x0509 (R278). -/
  mismatch : Bool
  deriving DecidableEq, Repr

/-- An empty batch. -/
def Batch.empty : Batch := ⟨0, none, [], [], [], [], [], [], [], [], false⟩

/-- Serving state of a partition: the batch of the running tick, the batch built for the next, intakes received, the
commands the master has gathered, and the mismatch of R278. -/
structure SvPart where
  running : Batch
  next : Option Batch
  intakes : List (Nat × Word × List HostCmd)
  gathered : List (Nat × HostCmd)
  mismatch : Bool
  /-- Prompt and stop-record ranges of the area in use: entry, offset, bytes. -/
  area : List (Nat × Nat × Nat)
  /-- Activations whose event waits for the next commit apply: new version, old version, policy (R367). -/
  switched : List (Code × Code × Nat)
  deriving DecidableEq, Repr

/-- Nothing served. -/
def SvPart.init : SvPart := ⟨Batch.empty, none, [], [], false, [], []⟩

/-- The serving state of the module. -/
structure Serving where
  entries : List (Nat × Entry)
  results : List (Nat × ResultRec)
  parts : List (Part × SvPart)
  /-- Values still in effect of configuration registers written since the last admission close (R304). -/
  old : List (RegKey × Word)
  deriving DecidableEq, Repr

/-- The page pool of a partition on a die (R287 to R289, R341 to R344). A second-tier page n is listed with bit 31 set. -/
structure KvPool where
  /-- Page maps: entry, list index, page number. -/
  maps : List ((Nat × Nat) × Nat)
  /-- Pages taken in the running tick: page, entry, list index, segment. -/
  taken : List (Nat × Nat × Nat × Nat)
  /-- Pages flagged under CUT: entry, list index (R289). -/
  cut : List (Nat × Nat)
  /-- Promotions running: entry, (list index, reserved page) list, switch tick, copy complete. -/
  promote : List (Nat × List (Nat × Nat) × Nat × Bool)
  /-- Close-memory pages whose demotion copy still runs: entry, pages. -/
  demoting : List (Nat × List Nat)
  /-- ALLOCs waiting for a page's copy: core, register tag, pages taken, result. -/
  waiting : List (CoreId × Nat × List Nat × Word)
  deriving DecidableEq, Repr

/-- An empty pool. -/
def KvPool.init : KvPool := ⟨[], [], [], [], [], []⟩

/-! ## Expert exchange (07) -/

/-- A layer configuration record (R241). -/
structure LayerCfg where
  outK : Nat
  outN : Nat
  inK : Nat
  inN : Nat
  rowPool : Nat
  outStride : Nat
  outOff : Nat
  inStride : Nat
  outTemplate : Desc
  inTemplate : Desc
  slices : Nat
  outFp32 : Bool
  rowBytes : Nat
  bias : Nat
  layer : Code
  gateMode : Nat
  topK : Nat
  experts : Nat
  table : Nat
  deriving DecidableEq, Repr

/-- An expert-table entry (R242): home and mirrors as (module, die). -/
structure ExpertEntry where
  home : ModIx × Fin 8
  mirrors : List (ModIx × Fin 8)
  anchorOut : BitVec 16
  anchorIn : BitVec 16
  bytes : Nat
  addr : Nat
  deriving DecidableEq, Repr

/-- One routed row of the die: token row, rank, expert, gate weight (R244, R245). -/
structure Gate where
  row : Nat
  rank : Nat
  expert : Nat
  weight : BitVec 32
  deriving DecidableEq, Repr

/-- A row received for the layer, in the order of R255: expert, source, tag, payload. -/
structure RxRow where
  expert : Nat
  srcModule : ModIx
  srcDie : Fin 8
  batchRow : Nat
  rank : Nat
  payload : List Byte
  deriving DecidableEq, Repr

/-- A command issued on a layer (R240, R268): the layer's number in its segment, function and arguments, segment, result once
available, and the cores that issued it with their register tags. -/
structure ExCmd where
  ord : Nat
  fn : Nat
  a : Word
  b : Word
  seg : Nat
  result : Option Word
  issuers : List (CoreId × Nat)
  deriving DecidableEq, Repr

/-- The layer of a partition on a die (R239 to R268). -/
structure ExLayer where
  /-- COMBINE has closed it; its commands answer late issues of the same segment (R240). -/
  closed : Bool
  seg : Nat
  /-- Its number among the layers of the segment on this die. -/
  ord : Nat
  cfg : LayerCfg
  experts : List ExpertEntry
  threshold : Nat
  poolBase : Nat
  poolSize : Nat
  hash : Word
  /-- Rows (tokens) on this die, and its gates. -/
  tokens : Nat
  gates : List Gate
  /-- Count records held, by module (R246). -/
  counts : List (ModIx × List Nat)
  /-- Routed rows per expert of each member die of this module. -/
  dieCounts : List (Fin 8 × List Nat)
  counted : Bool
  /-- The activation rows, once DISPATCH was issued. -/
  act : Option (List (List Byte))
  /-- Round-0 segments were sent. -/
  sent : Bool
  shipped : List Nat
  landed : List Nat
  /-- Sources whose DISPATCH header for the current round has come, and its rows. -/
  headers : List (ModIx × Fin 8)
  rows : List RxRow
  /-- Rounds for which WAITIN returned, and RETURN was issued. -/
  waited : Nat
  returned : Nat
  /-- RETURN headers received: round, source; rows returned: token, rank, payload. -/
  retHeaders : List (Nat × ModIx × Fin 8)
  retRows : List ((Nat × Nat) × List Byte)
  combine : Option Desc
  cmds : List ExCmd
  deriving DecidableEq, Repr

/-! ## Weights (10) -/

/-- Version states of a slot that is not FREE (R353). -/
inductive VerState | loading | ready | failed | active | retiring
  deriving DecidableEq, Repr

/-- A shard record of a manifest (R355). -/
structure Shard where
  digest : List Byte
  dest : Nat
  mask : Word
  off : Nat
  bytes : Nat
  reader : Nat
  primary : Nat
  deriving DecidableEq, Repr

/-- A source record of a manifest (R355). -/
structure SourceRec where
  addr : BitVec 128
  port : Nat
  onModule : Bool
  object : BitVec 128
  deriving DecidableEq, Repr

/-- Phases of a shard's fetch: waiting for a fetch slot, reading or receiving, waiting for a retry delay, verified, lost. -/
inductive FetchPhase | queued | reading | delay | verified | lost
  deriving DecidableEq, Repr

/-- The fetch of a shard at this module (R359 to R362). -/
structure Fetch where
  phase : FetchPhase
  /-- Sources left behind, and tries of the present source. -/
  left : Nat
  tries : Nat
  /-- Copies asked of the reader (R362). -/
  resends : Nat
  /-- The module reads the sources itself and writes only its own copy (R362). -/
  own : Bool
  /-- At a module that receives the shard: its digest of the last bytes failed; the reader has verified its copy (R362). -/
  bad : Bool
  passed : Bool
  deriving DecidableEq, Repr

/-- A version slot that is not FREE (R353): the manifest's content and the progress of its shards. -/
structure Version where
  number : Code
  state : VerState
  model : List Byte
  shards : List Shard
  sources : List SourceRec
  timeoutMs : Nat
  fetches : List (Nat × Fetch)
  /-- Master: (module, shard) pairs reported verified. -/
  verified : List (ModIx × Nat)
  /-- Shards under repair, and the modules that have verified each repaired copy (R366). -/
  repairs : List (Nat × List ModIx)
  /-- Dropped while a repair of it runs: it becomes FREE at the repair's end (R366, R373). -/
  dropped : Bool
  deriving DecidableEq, Repr

/-- A MODEL_LOAD between its manifest's distribution and its intake (R357): the number, the bytes, the command where this
module received it, and at the master the placement reports. -/
structure Load where
  part : Part
  number : Code
  bytes : List Byte
  timeoutMs : Nat
  cmd : Option HostCmd
  reports : List (ModIx × Code)
  deriving DecidableEq, Repr

/-! ## The host port and the net station (12) -/

/-- States of the host Ethernet port (R460). -/
inductive HpState | down | training | up
  deriving DecidableEq, Repr

/-- Whom a session belongs to (R437). -/
inductive SessOwner | part (n : Part) | mgmt | net (peer : Option Nat)
  deriving DecidableEq, Repr

/-- A Brosin session (R437 to R439). `unacked` holds sequence number, type and payload of sent packets, oldest first. -/
structure Session where
  owner : SessOwner
  src : BitVec 128
  v4 : Bool
  maxLen : Nat
  established : Bool
  rxSeq : BitVec 32
  txSeq : BitVec 32
  peerAck : BitVec 32
  peerWindow : Nat
  unacked : List (BitVec 32 × BrosinType × List Byte)
  waiting : List (BrosinType × List Byte)
  early : List (BitVec 32 × BrosinType × List Byte)
  /-- Bytes of frames not yet complete (R442). -/
  stream : List Byte
  ackDue : Bool
  resends : Nat
  /-- Bytes of a net message not yet complete, and the packets they came in (R455, R458). -/
  net : List Byte
  partial_ : Nat
  deriving DecidableEq, Repr

/-- A command that waits on a queue (R443), whether it has started, and the TBC at which it arrived (R277). -/
structure Queued where
  cmd : Code
  frame : Frame
  started : Bool
  arrival : Word
  deriving DecidableEq, Repr

/-- An event channel (R451 to R454). -/
structure Channel where
  owner : Option Part
  dst : BitVec 128
  port : Nat
  ringBytes : Nat
  nextSeq : BitVec 32
  ring : List (BitVec 32 × List Byte)
  deriving DecidableEq, Repr

/-- A message of the net station on its way out (R457): the partition, its descriptor index, the peer, the message, and the
last sequence number that carries it once sent. -/
structure NxOut where
  part : Part
  index : Nat
  peer : Nat
  bytes : List Byte
  lastSeq : Option (BitVec 32)
  deriving DecidableEq, Repr

/-- SPDM responder state of a session (R562): requests seen, and the large messages under assembly or delivery. -/
structure Spdm where
  version : Bool
  caps : Bool
  algs : Bool
  transcript : List Byte
  inbound : List Byte
  outbound : List Byte
  deriving DecidableEq, Repr

/-- The host port. Queues are named by their owner (`none` for management) and number. -/
structure HostPort where
  state : HpState
  /-- The connector lane whose place the spare lane has taken (R430). -/
  spareFor : Option (Fin 4)
  lanes : Nat
  macsec : Bool
  sessions : List (Nat × Session)
  nextSession : Nat
  queues : List ((Option Part × Nat) × List Queued)
  channels : List (Nat × Channel)
  spdm : List (Nat × Spdm)
  /-- Messages of the net station not yet acknowledged, and the write position of each receive ring (R457, R458). -/
  nxOut : List NxOut
  nxRx : List (Part × Nat)
  /-- PROD of each send ring up to which NX has taken descriptors. -/
  nxTaken : List (Part × Nat)
  deriving DecidableEq, Repr

/-! ## Arbiters (13) -/

/-- An arbiter (R470 to R476, R483): the settings in effect in the window, requests raised URGENT, interference cycles by
partition, TBC of the last saturation event. -/
structure Arbiter where
  window : Nat
  quota : Nat
  burst : Nat
  urgent : List Agent
  interference : List (Part × Nat)
  lastSat : Option Word
  /-- Credits of the partitions in the window; empty before the first window's end (R472). -/
  credits : List Nat
  /-- The GUARANTEED partition that was granted last, and the cycles it has had in a row (R474). -/
  turn : Nat
  length : Nat
  /-- Devices of the memory-port die whose refresh request waits, oldest first (R475). -/
  refreshes : List (Fin 12)
  deriving DecidableEq, Repr

/-- An arbiter at reset (R487). -/
def Arbiter.init : Arbiter := ⟨512, 64, 16, [], [], none, [], 0, 0, []⟩

/-! ## Integrity (14) -/

/-- Site states (R490). -/
inductive SiteState | fused | inService | spare | quarantined | scanning | watch | retired
  deriving DecidableEq, Repr

/-- A core site (R489 to R507). -/
structure Site where
  state : SiteState
  slot : Option (Fin 144)
  /-- The slot to return to after a passed scan (R501); none for a site quarantined or freed as a spare. -/
  home : Option (Fin 144)
  /-- The site whose slot this spare serves. -/
  standsFor : Option (Fin 160)
  /-- Operating times of the events that quarantined it (R503). -/
  events : List Nat
  scanOk : Bool
  /-- Operating time at the last scan, and at the end of the watch (0 for none). -/
  scanAt : Nat
  watchEnd : Nat
  /-- The scan under way was asked by a command: it completes with the result (R514). -/
  scanCmd : Option Frame
  /-- It was freed by rotation, so a passed scan makes it SPARE (R507). -/
  rotated : Bool
  /-- A scan of the SPARE site is due (R506). -/
  due : Bool
  deriving DecidableEq, Repr

/-- A sampled audit unit and its replays (R493 to R498). -/
structure Replay where
  site : SiteId
  part : Part
  tick : Nat
  seg : Nat
  run : Nat
  unit : BitVec 16
  slot : Fin 144
  watch : Bool
  audit : Audit
  /-- The replays that have ended, with their digests (none for a replay that faulted). -/
  runs : List (Fin 160 × Option (List Byte))
  running : Option (Fin 160)
  deriving DecidableEq, Repr

/-- Integrity and Derailleur state. -/
structure Integrity where
  /-- Sites that differ from the production state `Site.made`. -/
  sites : List (SiteId × Site)
  queue : List (Fin 8 × List Replay)
  /-- Sites to quarantine at the restore step of a retraction (R499) with the code, and at the next commit (R500). -/
  suspects : List (SiteId × Part × Nat × Code)
  atCommit : List (SiteId × Option Frame)
  /-- WATCH sites whose slot returns at the next commit (R501), and sites planned for rotation (R507). -/
  returning : List SiteId
  rotating : List SiteId
  /-- What TBC lacks to the module's operating time in ns: TBC starts again at a reset and jumps to a parent's (R502, R585). -/
  clock : Int
  /-- Sites whose sequencer and stations have power (R530). -/
  unparked : List SiteId
  /-- Snapshots with their ring index, newest first, and the sequence number of the next (R511, R512). -/
  snapshots : List (Nat × List Byte)
  snapSeq : Nat
  /-- The site that served each claim on a tile list, newest first: tick, partition, list header, index, site (R147). -/
  served : List (Nat × Part × Nat × Nat × SiteId)
  deriving DecidableEq, Repr

/-- A site as production test leaves it: slot i on site i, sites 144 to 159 spare with a passed scan (log 5). -/
def Site.made (s : Fin 160) : Site :=
  { state := if s.val < 144 then .inService else .spare,
    slot := if h : s.val < 144 then some ⟨s.val, h⟩ else none,
    home := none, standsFor := none, events := [], scanOk := true, scanAt := 0, watchEnd := 0,
    scanCmd := none, rotated := false, due := false }

/-! ## Power (15) -/

/-- Module power states (R518). -/
inductive PwrState | off | standby | stagger | ramp | on | tripped
  deriving DecidableEq, Repr

/-- What the ramp-down of R532 ends in. -/
inductive DownTo | standby | warm
  deriving DecidableEq, Repr

/-- Levels of a compute die (R526): GUARANTEED, BEST_EFFORT, ballast. -/
structure DieLevels where
  g : Nat
  b : Nat
  ballast : Nat
  deriving DecidableEq, Repr

/-- The power manager. -/
structure Power where
  state : PwrState
  /-- Pins as last seen: PWR_EN, MOD_RESET_N released, MOD_ID; and the latched slot (R520). -/
  pwrEn : Bool
  resetN : Bool
  straps : BitVec 6
  slot : BitVec 6
  down : Option DownTo
  shelfLoss : Bool
  alertHigh : Bool
  safeCap : Bool
  armed : Bool
  /-- A heartbeat has come since the last cold reset (R538). -/
  beaten : Bool
  hold : Bool
  emergency : Bool
  tracking : Bool
  trackE0 : Nat
  trackStart : Word
  /-- E in W and its value at the last cap change; the calibration gain and its counters (R523, R524). -/
  estimate : Nat
  gain : Nat
  estFault : Bool
  badPeriods : Nat
  goodPeriods : Nat
  missing : Nat
  /-- Energy drawn above the cap in this CAP_TRACKING, in uJ; input energy in uJ. -/
  excessUj : Nat
  energyUj : Nat
  emergUs : Nat
  ballastUj : Nat
  /-- Ceilings, junctions in 1/16 degree C, and the 100 us periods below THROTTLE − 2, by die (R540). -/
  ceilings : List Nat
  tj : List Int
  coolRuns : List Nat
  throttled : Bool
  coolantHigh : Bool
  levels : List DieLevels
  vfPoint : List Nat
  lastSlope : Option Word
  unreach : Bool
  /-- Pre-emption was requested for the present excess (R529). -/
  preempted : Bool
  /-- Events stored in flash until the module is ON (R543, R598). -/
  stored : List Code
  deriving DecidableEq, Repr

/-! ## Trust (16) -/

/-- A key slot (R573). -/
structure KeySlot where
  owner : Nat
  key : Option (List Byte)
  deriving DecidableEq, Repr

/-- An item of a change body (R567). -/
structure ChangeItem where
  typ : Nat
  index : Nat
  data : List Byte
  deriving DecidableEq, Repr

/-- Trust state. The role keys are empty while the module is UNENROLLED (R565). -/
structure Trust where
  operator : List Byte
  custodian : List Byte
  changeSeq : Nat
  loadSeq : Nat
  slots : List (Nat × KeySlot)
  manifestKeys : List (Part × List Byte)
  debug : Nat
  debugStored : Nat
  fullSeen : Bool
  debugAuth : Bool
  /-- The pending change, the enabled partition it waits for, and its frame (R570). -/
  change : Option (List ChangeItem × Part × Frame)
  devLeft : Nat
  aliasLeft : Nat
  bootCount : Nat
  fusedSvn : Nat
  revoked : List Nat
  /-- The ALIAS keys of this boot have been made (R555). -/
  aliasMade : Bool
  /-- The ALIAS record of this boot has a DEV-LMS signature, so that there is an ALIAS-LMS key (R551). -/
  aliasLms : Bool
  /-- REPAIR records written, and the one in flash and the one loaded at boot: its number, its boot, whether LMS signed it. -/
  repairs : Nat
  repair : Option (Nat × Nat × Bool)
  repairLoaded : Option (Nat × Nat × Bool)
  /-- Signed records loaded into flash, by kind and index: those in force, and those that apply from the next cold reset
  (R559). -/
  records : List ((Nat × Nat) × List Byte)
  nextRecords : List ((Nat × Nat) × List Byte)
  deriving DecidableEq, Repr

/-! ## Bring-up (17, 18) -/

/-- States of an image slot (R582). -/
inductive ImgState | empty | valid | trial | bad
  deriving DecidableEq, Repr

/-- An image slot: state, version, lowest SVN, and the pieces written by BOOT_FW_WRITE, oldest first. -/
structure Image where
  state : ImgState
  version : Nat
  svn : Nat
  writes : List (Nat × List Byte)
  deriving DecidableEq, Repr

/-- Bring-up, firmware and the I3C target. -/
structure Boot where
  stage : Nat
  /-- The code of the failed stage (R583). -/
  failed : Option Code
  ready : Bool
  cause : Nat
  warm : Bool
  slotA : Image
  slotB : Image
  /-- CURRENT and the running slot: false A, true B. -/
  current : Bool
  running : Bool
  trialRunning : Bool
  timeUs : Nat
  /-- Event 0x0E07 waits for the host port (R584). -/
  readyEvent : Bool
  /-- Flash writes in progress, and the reset that waits for them: its kind cold or warm, and its cause (R591). -/
  flashWrites : Nat
  waitingReset : Option (Bool × Nat)
  /-- The command of BOOT_PART_RESET that waits for its commit. -/
  partReset : List (Part × Frame)
  i3cAddr : Option (BitVec 7)
  i3cValue : Word
  i3cStatus : Code
  deriving DecidableEq, Repr

/-! ## The machine -/

/-- The state of the module: everything the spec gives it, and the queue of commands that wait. -/
structure State where
  /-- Commands waiting, first in, first out. -/
  pending : List Instr
  /-- Messages sent, newest first. -/
  tx : List Msg
  /-- Registers whose value differs from their reset value or was ever written. -/
  regs : List (RegKey × Word)
  mem : Memory
  /-- Index of the next free value (the model's own field, log 3). -/
  freeCtr : Nat
  tb : TimeBase
  doms : List (Part × Domain)
  cores : List (CoreId × Core)
  ms : MemSys
  cxl : List (Fin 4 × CxlPort)
  pn : List (Fin 8 × List PnItem)
  /-- Claims of the running tick on tile lists: header, partition, segment, index handed out (R147, R151). -/
  claims : List (Nat × Part × Nat × Nat)
  barriers : List ((Fin 8 × Part × Nat) × Barrier)
  programs : List ((Part × BitVec 32) × Program)
  ex : List ((Fin 8 × Part) × ExLayer)
  sv : Serving
  kv : List ((Fin 8 × Part) × KvPool)
  /-- Version slots that are not FREE, and loads on their way to an intake. -/
  wt : List ((Part × Fin 8) × Version)
  loads : List Load
  fab : Fabric
  hp : HostPort
  arb : List (Fin 14 × Arbiter)
  integ : Integrity
  pw : Power
  trust : Trust
  boot : Boot
  deriving DecidableEq, Repr

/-- Why a step can stop with a fault. The spec gives every command of this block an effect, so no meaning raises one
(safe: nothing is stopped). -/
inductive Fault
  /-- Raised by no meaning. -/
  | unraised
  deriving DecidableEq, Repr

/-- Why a step can refuse a command. -/
inductive Refusal
  /-- Raised by an arm of `exec` whose command has no meaning yet; the argument is its mnemonic. Safe: the machine stops. -/
  | notModelled (mnemonic : String)
  deriving DecidableEq, Repr

/-- The time base at reset (R72, R585). -/
def TimeBase.init : TimeBase :=
  { state := .free, tbc := 0, edge := none, runs := false, parent := none, root := none, hops := 0, spare := false, errBound := 0xFFFFFFFFFFFFFFFF,
    trips := [], offset := 0 }

/-- Memory before anything is written (log 4). -/
def Memory.init : Memory := ⟨[], []⟩

/-- Memory bookkeeping at reset. -/
def MemSys.init : MemSys := ⟨[], [], [], [], [], [], []⟩

/-- The fabric at reset: every port DOWN, no map (R389, R426). -/
def Fabric.init : Fabric :=
  { ports := [], map := none, index := none, mapBytes := [], lsdb := [], lsSeq := 0, reqs := [], nextTag := 0, held := [], heldX := [],
    insts := [] }

/-- The serving state at reset: every entry FREE. -/
def Serving.init : Serving := ⟨[], [], [], []⟩

/-- The host port at reset. -/
def HostPort.init : HostPort :=
  { state := .down, spareFor := none, lanes := 0, macsec := false, sessions := [], nextSession := 1, queues := [],
    channels := [], spdm := [], nxOut := [], nxRx := [], nxTaken := [] }

/-- Integrity at the production state (log 5). -/
def Integrity.init : Integrity :=
  { sites := [], queue := [], suspects := [], atCommit := [], returning := [], rotating := [], clock := 0, unparked := [], snapshots := [],
    snapSeq := 0, served := [] }

/-- Power in STANDBY with no input signal active (R518, R547). -/
def Power.init : Power :=
  { state := .standby, pwrEn := false, resetN := true, straps := 0, slot := 0, down := none, shelfLoss := false,
    alertHigh := true, safeCap := false, armed := false, beaten := false, hold := false, emergency := false, tracking := false,
    trackE0 := 0, trackStart := 0, estimate := 0, gain := 4096, estFault := false, badPeriods := 0, goodPeriods := 0,
    missing := 0, excessUj := 0, energyUj := 0, emergUs := 0, ballastUj := 0, ceilings := List.replicate 20 16,
    tj := List.replicate 20 0, coolRuns := List.replicate 20 0, throttled := false, coolantHigh := false,
    levels := List.replicate 8 ⟨16, 16, 0⟩, vfPoint := List.replicate 20 0, lastSlope := none, unreach := false,
    preempted := false, stored := [] }

/-- Trust as production leaves it (log 5): UNENROLLED, LOCKED, empty slots without owner, all signatures left. -/
def Trust.init : Trust :=
  { operator := [], custodian := [], changeSeq := 0, loadSeq := 0, slots := [], manifestKeys := [], debug := 0,
    debugStored := 0, fullSeen := false, debugAuth := false, change := none, devLeft := 32768, aliasLeft := 32768,
    bootCount := 0, fusedSvn := 0, revoked := [], aliasMade := false, aliasLms := false, repairs := 0, repair := none, repairLoaded := none, records := [], nextRecords := [] }

/-- Bring-up at stage 0 with image A CURRENT (log 5). -/
def Boot.init : Boot :=
  { stage := 0, failed := none, ready := false, cause := 0, warm := false, slotA := ⟨.valid, 1, 0, []⟩,
    slotB := ⟨.empty, 0, 0, []⟩, current := false, running := false, trialRunning := false, timeUs := 0,
    readyEvent := false, flashWrites := 0, waitingReset := none, partReset := [], i3cAddr := none, i3cValue := 0,
    i3cStatus := 0 }

/-- The module right after a cold reset, in STANDBY (R518, R588): every register at its reset value, nothing stored,
nothing waiting. -/
def State.reset : State :=
  { pending := [], tx := [], regs := [], mem := Memory.init, freeCtr := 0, tb := TimeBase.init, doms := [], cores := [],
    ms := MemSys.init, cxl := [], pn := [], claims := [], barriers := [], programs := [], ex := [], sv := Serving.init, kv := [],
    wt := [], loads := [], fab := Fabric.init, hp := HostPort.init, arb := [], integ := Integrity.init, pw := Power.init,
    trust := Trust.init, boot := Boot.init }

end Sys2Proof.Machine
end

