-- ==== Sys2Proof/Machine/Ops.lean ====
section
/-! DEFINITION. The named operations over State that every meaning is written with: registers, memory bytes, domains,
cores, partitions, code reports, events and completions. -/

namespace Sys2Proof.Machine

/-- The outcome of a command. -/
abbrev Out := Host.Outcome State Fault Refusal

/-- A meaning: the effect of a command on everything but the queue of waiting commands. -/
def lift (f : State → State) (s : State) : Out := .next { f s with pending := s.pending }

/-- An effect that happens under a condition, and nothing otherwise. -/
def State.when (s : State) (c : Bool) (f : State → State) : State := if c then f s else s

/-! ## Registers -/

/-- The key of a register instance. -/
def rk (r : Reg) (i : Nat := 0) (j : Nat := 0) : RegKey := (⟨r, i, j⟩ : RegKey).home

/-- The stored value of a register instance. -/
def State.raw (s : State) (k : RegKey) : Word := Assoc.getD k k.reset s.regs

/-- Stores a value in a register instance. -/
def State.setRaw (s : State) (k : RegKey) (v : Word) : State := { s with regs := Assoc.put k v s.regs }

/-- The stored value of a register. -/
def State.reg (s : State) (r : Reg) (i : Nat := 0) (j : Nat := 0) : Word := s.raw (rk r i j)

/-- The stored value of a register as a number. -/
def State.regN (s : State) (r : Reg) (i : Nat := 0) (j : Nat := 0) : Nat := (s.reg r i j).toNat

/-- Stores a value in a register. -/
def State.setReg (s : State) (r : Reg) (i j : Nat) (v : Word) : State := s.setRaw (rk r i j) v

/-- The value in effect of a configuration register of SV or KV: one written while its domain is enabled takes effect at the
next admission close (R304, R305). -/
def State.cfg (s : State) (r : Reg) (i : Nat := 0) (j : Nat := 0) : Word := (Assoc.find (rk r i j) s.sv.old).getD (s.reg r i j)
def State.cfgN (s : State) (r : Reg) (i : Nat := 0) (j : Nat := 0) : Nat := (s.cfg r i j).toNat

/-- Adds to a counter register. -/
def State.bump (s : State) (r : Reg) (i j n : Nat) : State := s.setReg r i j (s.reg r i j + BitVec.ofNat 64 n)


/-- Bits hi to lo of a word as a number (R2). -/
def bits (w : Word) (hi lo : Nat) : Nat := w.toNat / 2 ^ lo % 2 ^ (hi + 1 - lo)

/-- Replaces bits hi to lo of a word. -/
def setBits (w : Word) (hi lo v : Nat) : Word :=
  let n := 2 ^ (hi + 1 - lo)
  BitVec.ofNat 64 (w.toNat - (w.toNat / 2 ^ lo % n) * 2 ^ lo + (v % n) * 2 ^ lo)

/-- A bit as a number. -/
def bitN (b : Bool) : Nat := if b then 1 else 0

/-! ## Memory bytes -/

/-- The tweak of the data unit at an address: the number of the die or port, and the unit's number on it (R311, R328). -/
def Recode.tweak (r : Recode) (a : Nat) : Nat :=
  if a < 4 * r.die then
    let z := r.die - r.ilv / 4
    let p := if a < r.ilv then (a / 4096 % 4, a / 16384 * 4096 + a % 4096)
      else ((a - r.ilv) / max 1 z, r.ilv / 4 + (a - r.ilv) % max 1 z)
    p.1 * 2 ^ 40 + p.2 / 64
  else (4 + (a - 0x1000000000000) / 2 ^ 41) * 2 ^ 40 + (a - 0x1000000000000) % 2 ^ 41 / 64

/-- What a 64-byte unit reads as after a change of key: its ciphertext under the old key, decrypted with the new (R329). -/
def Recode.unit (r : Recode) (a : Nat) (bs : List Byte) : List Byte :=
  let c := if r.old.isEmpty then bs else xtsUnit false r.old (r.tweak a) bs
  if r.new.isEmpty then c else xtsUnit true r.new (r.tweak a) c

/-- What an unlisted address reads as: zero (log 4), the unspecified contents of R313, or what R329 makes of what it read as. -/
def blurAt (a : Nat) : List (Nat × Nat × Blur) → Byte
  | [] => 0
  | (lo, hi, k) :: l =>
    if lo ≤ a ∧ a < hi then
      match k with
      | .zero => 0
      | .loose seed => Config.freeByte seed a
      | .coded r => (r.unit (a / 64 * 64) ((List.range 64).map (fun i => blurAt (a / 64 * 64 + i) l))).getD (a % 64) 0
    else blurAt a l

/-- What an unlisted address of a memory reads as. -/
def Memory.dflt (m : Memory) (a : Nat) : Byte := blurAt a m.blurs

/-- The listed value of an address in a list of cells. -/
def cellsFind (a : Nat) : List Host.Cell → Option Byte
  | [] => none
  | (b, v) :: l => if b = a then some v else cellsFind a l

/-- Puts a cell in its place in rising order. -/
def cellsPut (a : Nat) (v : Byte) : List Host.Cell → List Host.Cell
  | [] => [(a, v)]
  | (b, w) :: l => if a < b then (a, v) :: (b, w) :: l else if b = a then (a, v) :: l else (b, w) :: cellsPut a v l

/-- Removes a cell. -/
def cellsDel (a : Nat) : List Host.Cell → List Host.Cell
  | [] => []
  | (b, w) :: l => if b = a then cellsDel a l else (b, w) :: cellsDel a l

/-- Reads one byte. -/
def Memory.read (m : Memory) (a : Nat) : Byte := (cellsFind a m.cells).getD (m.dflt a)

/-- Writes one byte, keeping the canonical form. -/
def Memory.write (m : Memory) (a : Nat) (v : Byte) : Memory :=
  { m with cells := if v = m.dflt a then cellsDel a m.cells else cellsPut a v m.cells }

/-- Writes bytes at rising addresses. -/
def Memory.writeBytes (m : Memory) (a : Nat) : List Byte → Memory
  | [] => m
  | v :: l => (m.write a v).writeBytes (a + 1) l

/-- Reads `n` bytes at rising addresses. -/
def Memory.readBytes (m : Memory) (a n : Nat) : List Byte := (List.range n).map (fun i => m.read (a + i))

/-- Addresses strictly rising. -/
def cellsRising : List Host.Cell → Bool
  | [] => true
  | [_] => true
  | (a, _) :: (b, w) :: l => decide (a < b) && cellsRising ((b, w) :: l)

/-- The canonical form of memory: addresses strictly rising, no entry equal to what an unlisted address reads as. -/
abbrev Memory.wf (m : Memory) : Prop := cellsRising m.cells = true ∧ ∀ c ∈ m.cells, c.2 ≠ m.dflt c.1

/-- Forgets every listed byte of a range, which then reads as said (R313, R329). -/
def Memory.blur (m : Memory) (lo hi : Nat) (k : Blur) : Memory :=
  { cells := m.cells.filter (fun c => decide (c.1 < lo ∨ hi ≤ c.1)), blurs := (lo, hi, k) :: m.blurs }

/-- A range read under another key from now on (R329). -/
def Memory.recode (m : Memory) (lo hi : Nat) (r : Recode) : Memory :=
  let units := ((m.cells.filter (fun c => decide (lo ≤ c.1 ∧ c.1 < hi))).map (fun c => c.1 / 64 * 64)).eraseDups
  units.foldl (fun t a => t.writeBytes a (r.unit a (m.readBytes a 64))) (m.blur lo hi (.coded r))

/-- Reads bytes of the state's memory. -/
def State.load (s : State) (a n : Nat) : List Byte := s.mem.readBytes a n

/-- Reads a little-endian number of n bytes. -/
def State.loadN (s : State) (a n : Nat) : Nat := bytesNat (s.load a n)

/-- Writes bytes of the state's memory. -/
def State.store (s : State) (a : Nat) (bs : List Byte) : State := { s with mem := s.mem.writeBytes a bs }

/-- The 8 little-endian bytes of a word. -/
def wordBytes (w : Word) : List Byte := natBytes 8 w.toNat

/-- A word from little-endian bytes. -/
def bytesWord (bs : List Byte) : Word := BitVec.ofNat 64 (bytesNat bs)

/-! ## Free values -/

/-- A free value, and the state in which the next one differs (log 3). -/
def State.fresh (s : State) : Word × State := (Config.freeValue s.freeCtr, { s with freeCtr := s.freeCtr + 1 })

/-! ## Domains, cores, sites, partitions -/

/-- Domain n. -/
def State.dom (s : State) (n : Part) : Domain := Assoc.getD n Domain.init s.doms

/-- Replaces domain n. -/
def State.setDom (s : State) (n : Part) (d : Domain) : State := { s with doms := Assoc.put n d s.doms }

/-- Changes domain n. -/
def State.updDom (s : State) (n : Part) (f : Domain → Domain) : State := s.setDom n (f (s.dom n))

/-- ENABLE of domain n (R38). -/
def State.enabled (s : State) (n : Part) : Bool := (s.reg .cadDomCtrl 0 n.val).getLsbD 0

/-- A logical core. -/
def State.core (s : State) (c : CoreId) : Core := Assoc.getD c Core.init s.cores

/-- Replaces a logical core. -/
def State.setCore (s : State) (c : CoreId) (x : Core) : State := { s with cores := Assoc.put c x s.cores }

/-- Changes a logical core. -/
def State.updCore (s : State) (c : CoreId) (f : Core → Core) : State := s.setCore c (f (s.core c))

/-- A core site. -/
def State.site (s : State) (i : SiteId) : Site := Assoc.getD i (Site.made i.site) s.integ.sites

/-- Replaces a core site. -/
def State.setSite (s : State) (i : SiteId) (x : Site) : State :=
  { s with integ := { s.integ with sites := Assoc.put i x s.integ.sites } }

/-- The site that serves a slot, if the slot is not vacant (R489, R505). -/
def State.siteOf (s : State) (c : CoreId) : Option SiteId :=
  let own : SiteId := ⟨c.die, ⟨c.slot.val, by omega⟩⟩
  if (s.site own).slot = some c.slot then some own
  else ((List.finRange 160).find? (fun k => (s.site ⟨c.die, k⟩).slot = some c.slot)).map (fun k => ⟨c.die, k⟩)

/-- The index of a site in its station blocks (R156). -/
def siteIx (i : SiteId) : Nat := i.die.val * 160 + i.site.val

/-- The index of the site that serves a core's slot; its slot number where the slot is vacant. -/
def State.coreIx (s : State) (c : CoreId) : Nat :=
  match s.siteOf c with
  | some i => siteIx i
  | none => c.die.val * 160 + c.slot.val

/-- PART.Pn_CFG (R463). -/
def State.partCfg (s : State) (n : Part) : Word := s.reg .partCfg 0 n.val
def State.partValid (s : State) (n : Part) : Bool := (s.partCfg n).getLsbD 63
def State.bestEffort (s : State) (n : Part) : Bool := (s.partCfg n).getLsbD 62
def State.observed (s : State) (n : Part) : Bool := (s.partCfg n).getLsbD 61
def State.share (s : State) (n : Part) : Nat := bits (s.partCfg n) 40 32
def State.coreBase (s : State) (n : Part) : Nat := bits (s.partCfg n) 15 8
def State.corePer (s : State) (n : Part) : Nat := bits (s.partCfg n) 7 0

/-- The dies of a partition in rising order (R463). -/
def State.partDies (s : State) (n : Part) : List (Fin 8) :=
  (List.finRange 8).filter (fun d => (s.partCfg n).getLsbD (16 + d.val))

/-- Whether a VALID partition holds a slot (R463, R465). -/
def State.holds (s : State) (n : Part) (c : CoreId) : Bool :=
  s.partValid n && (s.partCfg n).getLsbD (16 + c.die.val) && decide (s.coreBase n ≤ c.slot.val)
    && decide (c.slot.val < s.coreBase n + s.corePer n)

/-- The partition that holds a slot (R465). -/
def State.partOf (s : State) (c : CoreId) : Option Part := (List.finRange 16).find? (fun n => s.holds n c)

/-- The logical cores of a partition in the order of R465. -/
def State.coresOf (s : State) (n : Part) : List CoreId :=
  if s.partValid n then
    (s.partDies n).flatMap (fun d =>
      (List.finRange 144).filterMap (fun k =>
        if s.coreBase n ≤ k.val ∧ k.val < s.coreBase n + s.corePer n then some (⟨d, k⟩ : CoreId) else none))
  else []

/-- The logical core number of a slot in its partition (R465). -/
def State.lcore (s : State) (n : Part) (c : CoreId) : Nat :=
  ((s.partDies n).filter (fun d => d < c.die)).length * s.corePer n + (c.slot.val - s.coreBase n)

/-- The module's own index: its place in the installed map, or MOD_ID (R28, R389, R391, R615). -/
def State.self (s : State) : ModIx := s.fab.index.getD s.pw.slot.toFin

/-- The module with a coordinate. -/
def modAt (x y z : Nat) : Nat := x % 4 + 4 * (y % 4) + 16 * (z % 4)

/-- CAD.DOM_SLICE of a domain: at reset the module's own coordinates with extent 1 × 1 × 1 (R72). -/
def State.sliceReg (s : State) (n : Part) : Word :=
  match Assoc.find (rk .cadDomSlice 0 n.val) s.regs with
  | some v => v
  | none => BitVec.ofNat 64 s.self.val

/-- The modules of a slice in rising index (R46, R72). -/
def sliceMods (w : Word) : List ModIx :=
  (List.finRange 64).filter (fun m =>
    let x := m.val % 4
    let y := m.val / 4 % 4
    let z := m.val / 16
    decide (bits w 1 0 ≤ x ∧ x ≤ bits w 1 0 + bits w 9 8) && decide (bits w 3 2 ≤ y ∧ y ≤ bits w 3 2 + bits w 11 10)
      && decide (bits w 5 4 ≤ z ∧ z ≤ bits w 5 4 + bits w 13 12))

/-- The modules of a domain's slice. -/
def State.members (s : State) (n : Part) : List ModIx := sliceMods (s.sliceReg n)

/-- Whether this module is the master, or the deputy, of domain n now (R46, R53). -/
def State.isMaster (s : State) (n : Part) : Bool := decide ((s.dom n).master = s.self)
def State.isDeputy (s : State) (n : Part) : Bool := decide ((s.dom n).deputy = some s.self)

/-- The lowest-index module of the slice (R46). -/
def State.firstMaster (s : State) (n : Part) : ModIx := (s.members n).headD s.self

/-- Whether every cadence domain of the module is disabled. -/
def State.allDisabled (s : State) : Bool := (List.finRange 16).all (fun n => !s.enabled n)

/-! ## Messages, events, completions -/

/-- Sends a message. -/
def State.send (s : State) (m : Msg) : State := { s with tx := m :: s.tx }

/-- TBC now. -/
def State.now (s : State) : Word := s.tb.tbc

/-- The module's operating time in ns (R502). -/
def State.opTime (s : State) : Nat := (s.integ.clock + s.tb.tbc.toNat).toNat

/-- Cobalt begins a write of a record in flash (R591). -/
def State.flashWrite (s : State) : State := { s with boot := { s.boot with flashWrites := s.boot.flashWrites + 1 } }

/-- Writes a REPAIR record, signed by the ALIAS keys as far as they have signatures (R319, R491, R508, R551, R553). -/
def State.writeRepair (s : State) : State :=
  let t := s.trust
  let lms := t.aliasLms && decide (t.aliasLeft ≠ 0)
  State.flashWrite { s with trust := { t with
    repairs := t.repairs + 1
    repair := some (t.repairs + 1, t.bootCount, lms)
    aliasLeft := if lms then t.aliasLeft - 1 else t.aliasLeft } }

/-- An event channel, if open. -/
def State.chan (s : State) (c : Nat) : Option Channel := Assoc.find c s.hp.channels

/-- Replaces an event channel. -/
def State.setChan (s : State) (c : Nat) (x : Channel) : State :=
  { s with hp := { s.hp with channels := Assoc.put c x s.hp.channels } }

/-- The bytes an EVENT packet takes in its ring: the Brosin header and its payload (R434, R454). -/
def ringBytes (l : List (BitVec 32 × List Byte)) : Nat := (l.map (fun p => 32 + p.2.length)).sum

/-- Drops oldest packets until the ring fits; the number dropped (R454). -/
def trimRing (cap : Nat) : List (BitVec 32 × List Byte) → List (BitVec 32 × List Byte) × Nat
  | [] => ([], 0)
  | p :: l => if ringBytes (p :: l) ≤ cap then (p :: l, 0) else let r := trimRing cap l; (r.1, r.2 + 1)

/-- The 16-byte envelope of an event record (R453). -/
def envelope (kind code : Code) (tick : Word) (body : List Byte) : List Byte :=
  natBytes 2 kind.toNat ++ natBytes 2 code.toNat ++ natBytes 4 body.length ++ wordBytes tick ++ body

/-- Puts an event record into an open channel and sends it; the number of packets released to make room (R453, R454). -/
def State.pushEvent (s : State) (c : Nat) (kind code : Code) (tick : Word) (body : List Byte) : State × Nat :=
  match s.chan c with
  | none => (s, 0)
  | some ch =>
    let rec_ := envelope kind code tick body
    let r := trimRing ch.ringBytes (ch.ring ++ [(ch.nextSeq, rec_)])
    let gap := decide (0 < r.2)
    let s1 := s.setChan c { ch with ring := r.1, nextSeq := ch.nextSeq + 1 }
    (((s1.send (.event c ch.nextSeq gap kind code tick body)).bump .hpTxFrames 0 0 1).bump .hpEvReleased 0 0 r.2, r.2)

/-- The 32-byte body of a CODE event (R453). -/
def codeBody (tbc : Word) (part : Nat) (detail : List Byte) : List Byte :=
  wordBytes tbc ++ [BitVec.ofNat 8 part] ++ List.replicate 7 0 ++ (detail ++ List.replicate 16 0).take 16

/-- A CODE event on the management channel, without more (R453). -/
def State.rawMgmtEvent (s : State) (code : Code) (detail : List Byte) : State :=
  (s.pushEvent (s.regN .hpMgmtChan) 3 code 0 (codeBody s.now 0xFF detail)).1

/-- An event on a channel, and event 0x0908 where packets were released (R454). -/
def State.eventOn (s : State) (c : Nat) (kind code : Code) (tick : Word) (body : List Byte) : State :=
  let r := s.pushEvent c kind code tick body
  if r.2 = 0 then r.1
  else (r.1.setReg .hpCode 0 0 0x0908).rawMgmtEvent 0x0908 (natBytes 4 c ++ natBytes 4 r.2)

/-- A module-wide CODE event (R451, R453). -/
def State.mgmtEvent (s : State) (code : Code) (detail : List Byte := []) : State :=
  s.eventOn (s.regN .hpMgmtChan) 3 code 0 (codeBody s.now 0xFF detail)

/-- A CODE event of a partition, with a tick (R451, R453). -/
def State.partEventAt (s : State) (n : Part) (code : Code) (tick : Word) (detail : List Byte := []) : State :=
  s.eventOn (s.regN .hpPEvchan 0 n.val) 3 code tick (codeBody s.now n.val detail)

/-- The tick number of a domain as a word. -/
def State.tickOf (s : State) (n : Part) : Word := BitVec.ofNat 64 (s.dom n).tick

/-- A CODE event of a partition at its current tick. -/
def State.partEvent (s : State) (n : Part) (code : Code) (detail : List Byte := []) : State :=
  s.partEventAt n code (s.tickOf n) detail

/-- A code in a block's code register: its low 16 bits (R10). -/
def codeWord (c : Code) : Word := c.setWidth 64

/-- The code register that keeps the last code of a range: codes 0x06xx, 0x08xx, 0x09xx, 0x0Axx, 0x0Cxx, 0x0Dxx and 0x0Exx, raised
as faults, completions or events (R349, R426, R460, R486, R547, R578, R595). -/
def codeReg (c : Code) : Option Reg :=
  match c.toNat / 256 with
  | 0x06 => some .memCode
  | 0x08 => some .fabCode
  | 0x09 => some .hpCode
  | 0x0A => some .partCode
  | 0x0C => some .pwrCode
  | 0x0D => some .secCode
  | 0x0E => some .bootCode
  | _ => none

/-- Keeps a code in the code register of its range. -/
def State.lastCode (s : State) (c : Code) : State :=
  match codeReg c with
  | none => s
  | some r => s.setReg r 0 0 (codeWord c)

/-- Reports a cadence code: CAD.DOM_CODE and an event on the domain's channel (R73). -/
def State.domReport (s : State) (n : Part) (code : Code) (detail : List Byte := []) : State :=
  (s.setReg .cadDomCode 0 n.val (codeWord code)).partEvent n code detail

/-- Reports a code in a register and on the management channel. -/
def State.mgmtReport (s : State) (r : Reg) (code : Code) (detail : List Byte := []) : State :=
  (s.setReg r 0 0 (codeWord code)).mgmtEvent code detail

/-- Reports a code in a register and on a partition's channel. -/
def State.partReport (s : State) (r : Reg) (n : Part) (code : Code) (detail : List Byte := []) : State :=
  (s.setReg r 0 0 (codeWord code)).partEvent n code detail

/-! ## Brosin packets of a session (R434 to R439) -/

/-- A session. -/
def State.session (s : State) (n : Nat) : Option Session := Assoc.find n s.hp.sessions

/-- Replaces a session. -/
def State.setSession (s : State) (n : Nat) (x : Session) : State :=
  { s with hp := { s.hp with sessions := Assoc.put n x s.hp.sessions } }

/-- The sequence number a session acknowledges: the last received in order, but for packets of a net message that is not yet
written whole (R438, R458). -/
def Session.acked (x : Session) : BitVec 32 := x.rxSeq - BitVec.ofNat 32 x.partial_

/-- The `TYPE` of a Brosin packet (R435). -/
def BrosinType.code : BrosinType → Nat
  | .openReq => 1
  | .openOk => 2
  | .close => 3
  | .data => 4
  | .ack => 5
  | .keepalive => 6
  | .event => 7
  | .eventAck => 8
  | .net => 9
  | .spdm => 10

/-- The header of a packet that the module sends with `len` bytes (R434). -/
def sentHdr (typ : BrosinType) (len : Nat) (flags : Code) (window : Nat) (ack seq : BitVec 32) (session : Nat) : BrosinHdr :=
  { magic := 0x4252, typ := BitVec.ofNat 8 typ.code, flags := flags, len := len, udp := len, rsv := 0, prot := true, window := window,
    ack := ack, seq := seq, session := session }

/-- Sends a Brosin packet of a session, with its acknowledgement and window. -/
def State.sendBrosin (s : State) (n : Nat) (x : Session) (typ : BrosinType) (flags : Code) (seq : BitVec 32)
    (payload : List Byte) : State :=
  (s.send (.brosin typ x.src (sentHdr typ payload.length flags (1024 - x.early.length) x.acked seq n) payload)).bump .hpTxFrames 0 0 1

/-- Sends the packets that wait, as far as the other end's window allows (R438). -/
def pumpSession (n : Nat) : Nat → State → State
  | 0, s => s
  | k + 1, s =>
    match s.session n with
    | none => s
    | some x =>
      match x.waiting with
      | [] => s
      | (typ, bs) :: rest =>
        if !x.established || decide (x.peerWindow ≤ x.unacked.length) then s
        else
          let q := x.txSeq + 1
          let x1 := { x with waiting := rest, txSeq := q, unacked := x.unacked ++ [(q, typ, bs)], ackDue := false }
          pumpSession n k ((s.setSession n x1).sendBrosin n x1 typ 0 q bs)

/-- Puts sequenced packets on a session. -/
def State.sessionSend (s : State) (n : Nat) (ps : List (BrosinType × List Byte)) : State :=
  match s.session n with
  | none => s
  | some x => pumpSession n (x.waiting.length + ps.length) (s.setSession n { x with waiting := x.waiting ++ ps })

/-- Cuts bytes into payloads of at most `k`. -/
def payloadsOf (k : Nat) : Nat → List Byte → List (List Byte)
  | 0, _ => []
  | m + 1, l => if l.isEmpty then [] else l.take k :: payloadsOf k m (l.drop k)

/-- A completion frame as bytes (R442). -/
def completionBytes (cmd : Code) (id : Word) (status : Code) (body : List Byte) : List Byte :=
  natBytes 2 cmd.toNat ++ natBytes 2 status.toNat ++ natBytes 4 body.length ++ wordBytes id ++ body

/-! ## Command queues -/

/-- The owner of a session. -/
def State.sessOwner (s : State) (n : Nat) : Option SessOwner := (Assoc.find n s.hp.sessions).map (·.owner)

/-- The key of the queues of an owner: `none` for management. -/
def SessOwner.queueKey : SessOwner → Option Part
  | .part n => some n
  | _ => none

/-- The commands that wait on a queue, oldest first. -/
def State.queue (s : State) (k : Option Part × Nat) : List Queued := (Assoc.find k s.hp.queues).getD []

/-- The TBC at which a queued command arrived (R277). -/
def State.arrivedAt (s : State) (cmd : Code) (f : Frame) : Word :=
  ((s.hp.queues.findSome? (fun p => p.2.find? (fun q => decide (q.cmd = cmd ∧ q.frame = f)))).map (·.arrival)).getD s.tb.tbc

/-- Replaces a queue. -/
def State.setQueue (s : State) (k : Option Part × Nat) (q : List Queued) : State :=
  { s with hp := { s.hp with queues := if q.isEmpty then Assoc.del k s.hp.queues else Assoc.put k q s.hp.queues } }

/-- Takes a command off the front of the queue that holds it (R443). -/
def State.popCmd (s : State) (cmd : Code) (f : Frame) : State :=
  match s.hp.queues.find? (fun p => p.2.head?.any (fun q => decide (q.cmd = cmd ∧ q.frame = f))) with
  | none => s
  | some p => s.setQueue p.1 p.2.tail

/-- Answers a command: its code in the code register of its range; its completion frame, unless its session is gone (R440);
HP.P_CMDS (R442). -/
def State.answerCmd (s : State) (cmd : Code) (f : Frame) (status : Code) (body : List Byte := []) : State :=
  let s1 := s.lastCode status
  match s1.sessOwner f.session with
  | none => s1
  | some o =>
    let bs := completionBytes cmd f.cmdId status body
    let k := ((s1.session f.session).map (·.maxLen)).getD 1024
    let s2 := (s1.send (.completion f.session cmd f.cmdId status body)).sessionSend f.session
      ((payloadsOf k bs.length bs).map (fun b => (.data, b)))
    match o with
    | .part n => s2.bump .hpPCmds 0 n.val 1
    | _ => s2

/-- Completes a command of a queue: the queue goes on (R442 to R444). -/
def State.complete (s : State) (cmd : Code) (f : Frame) (status : Code) (body : List Byte := []) : State :=
  (s.popCmd cmd f).answerCmd cmd f status body

/-- Completes a forwarded command at the module that received it; other modules do nothing (R277, R443). -/
def State.completeFwd (s : State) (h : HostCmd) (status : Code) (body : List Byte := []) : State :=
  if h.origin = s.self then s.complete h.cmd h.frame status body else s

end Sys2Proof.Machine
end

