-- ==== Sys2Proof/Machine/Mem.lean ====
section
/-! DEFINITION. The address map, regions, checks and accesses of chapter 09, the STATE journal (R62, R63), and faults of a
segment (R44, R220). -/

namespace Sys2Proof.Machine

/-! ## Faults of a segment -/

/-- Records an error of a segment of a domain, after those found earlier (R44). -/
def State.segError (s : State) (n : Part) (seg : Nat) (code : Code) (site : Option SiteId) : State :=
  s.updDom n (fun d => { d with errs := d.errs ++ [(seg, code, site)] })

/-- The word of a station's FAULT register: CODE, SEGMENT, TICK_LO (R154, R187 to R189). -/
def faultWord (code : Code) (seg tick : Nat) : Word :=
  BitVec.ofNat 64 (code.toNat + (seg % 64) * 65536 + (tick % 2 ^ 32) * 2 ^ 32)

/-- Where a fault's code is kept or reported beside the station's FAULT register: a code 0x01xx is reported by the domain (R73), a
code of another block in that block's code register. -/
def State.faultReport (s : State) (n : Part) (code : Code) : State :=
  if code.toNat / 256 = 0x01 then s.domReport n code else s.lastCode code

/-- A fault of a core's segment: the sequencer stops, its stations abandon their commands, LX.FAULT keeps the first fault,
VX and TX keep the last of their own, MX every code 0x02xx, and the vote will be DIRTY (R44, R155, R187, R188, R220). -/
def State.kill (s : State) (c : CoreId) (code : Code) (st : Option Station := none) : State :=
  let x := s.core c
  match s.partOf c with
  | none => s
  | some n =>
    let w := faultWord code x.seg (s.dom n).tick
    let i := s.coreIx c
    let u :=
      match st with
      | some .vx => s.setReg .vxFault i 0 w
      | some .tx => s.setReg .txFault i 0 w
      | _ => s
    let s0 := if code.toNat / 256 = 0x02 then u.setReg .mxFault i 0 w else u
    if x.killed.isSome then s0
    else
      let y : Core := { x with
        killed := some code, wait := none, late := [], mxq := [], vxq := [], txq := [], lxq := [], svq := [],
        lxRuns := [], collRuns := [] }
      (((s0.setCore c y).setReg .lxFault i 0 w).segError n x.seg code none).faultReport n code

/-! ## The address map -/

/-- Close-memory bytes of one memory-port die, by the ECC bit (R310). -/
def dieClose (ecc : Bool) : Nat := if ecc then 0x1680000000 else 0x1800000000

/-- C of R310 now. -/
def State.dieBytes (s : State) : Nat := dieClose ((s.reg .memCtrl).getLsbD 0)

/-- The first address past close memory. -/
def State.closeTop (s : State) : Nat := 4 * s.dieBytes

/-- Memory-port die and offset of a close-memory address (R311). -/
def State.mdOf (s : State) (a : Nat) : Nat × Nat :=
  let i := s.regN .memIlvSize
  if a < i then
    let u := a / 4096
    (u % 4, (u / 4) * 4096 + a % 4096)
  else
    let z := s.dieBytes - i / 4
    if z = 0 then (0, 0) else ((a - i) / z, i / 4 + (a - i) % z)

/-- The close-memory address of an offset on a memory-port die: R311 the other way. -/
def State.closeAddr (s : State) (md o : Nat) : Nat :=
  let i := s.regN .memIlvSize
  if o < i / 4 then ((o / 4096) * 4 + md) * 4096 + o % 4096
  else i + md * (s.dieBytes - i / 4) + (o - i / 4)

/-- Where a byte of a memory-port die lies in its GDDR7 devices: device, channel of the device, data offset on the channel, and,
with inline ECC on, the span of 2,048 bytes and the data unit in it (R312, R314). -/
structure GddrPlace where
  device : Fin 12
  channel : Fin 4
  off : Nat
  span : Option (Nat × Nat)
  deriving DecidableEq, Repr

/-- The place of an offset of a memory-port die (R312, R314). -/
def gddrAt (ecc : Bool) (o : Nat) : GddrPlace :=
  let h := o / 256 % 48
  let off := o / 256 / 48 * 256 + o % 256
  { device := Fin.ofNat 12 (h / 4), channel := Fin.ofNat 4 (h % 4), off := off,
    span := if ecc then some (off / 1920, off % 1920 / 64) else none }

def cxlBase : Nat := 0x1000000000000
def dieBase : Nat := 0x2000000000000
def siteBase : Nat := 0x2100000000000
def mib : Nat := 1048576

/-- The address of a site's core store (R307). -/
def siteAddr (i : SiteId) : Nat := siteBase + i.die.val * 0x40000000 + i.site.val * 0x400000

/-- The address of a compute die's store (R307). -/
def dieAddr (d : Fin 8) : Nat := dieBase + d.val * 0x10000000

/-- An entry of the region table (R323). -/
structure Region where
  ix : Nat
  valid : Bool
  pnOk : Bool
  tcache : Bool
  progRo : Bool
  cls : Nat
  part : Part
  base : Nat
  key : Nat
  size : Nat
  deriving DecidableEq, Repr

/-- The region entry that two register values hold (R323). -/
def regionOf (ix : Nat) (a b : Word) : Region :=
  { ix := ix, valid := a.getLsbD 63, pnOk := a.getLsbD 62, tcache := a.getLsbD 61, progRo := a.getLsbD 60,
    cls := bits a 57 56, part := (a.extractLsb' 52 4).toFin, base := bits a 49 16 * 65536, key := bits b 61 56,
    size := bits b 49 16 * 65536 }

/-- Region n. -/
def State.region (s : State) (n : Nat) : Region := regionOf n (s.reg .memRegA 0 n) (s.reg .memRegB 0 n)

/-- Whether a region holds an address. -/
def Region.has (r : Region) (a : Nat) : Bool := r.valid && decide (r.base ≤ a) && decide (a < r.base + r.size)

/-- The region that holds an address (R325). -/
def State.regionAt (s : State) (a : Nat) : Option Region :=
  ((List.range 64).map s.region).find? (fun r => r.has a)

/-- Who makes an access (R325): its partition, whether a step program makes it, its die, its core, the segment in which work of
the tick makes it, and whether it is work of the tick at all. -/
structure Accessor where
  part : Part
  prog : Bool
  die : Option (Fin 8)
  core : Option CoreId
  seg : Option Nat
  work : Bool
  deriving DecidableEq, Repr

/-- A logical core as accessor. -/
def State.coreAcc (s : State) (c : CoreId) : Accessor := ⟨(s.partOf c).getD 0, true, some c.die, some c, some (s.core c).seg, true⟩

/-- A die station serving a partition. -/
def stationAcc (d : Fin 8) (n : Part) : Accessor := ⟨n, false, some d, none, none, true⟩

/-- A die station at work beside the tick: commits, copies between tiers (R346). -/
def restAcc (d : Fin 8) (n : Part) : Accessor := { stationAcc d n with work := false }

/-- The host, or an agent outside the compute dies, acting for a partition. -/
def hostAcc (n : Part) : Accessor := ⟨n, false, none, none, none, false⟩

/-- Where an accessed byte lies. -/
inductive Space | close | cxl (p : Fin 4) | die (d : Fin 8) | core | table (d : Fin 8)
  deriving DecidableEq, Repr

/-- An access that passed its checks: space, address of its home, class of R60, region. -/
structure Place where
  space : Space
  phys : Nat
  cls : Nat
  region : Option Region
  deriving DecidableEq, Repr

/-- Whether a key slot holds a key (R575). -/
def State.slotLoaded (s : State) (k : Nat) : Bool := ((Assoc.find k s.trust.slots).bind (·.key)).isSome

/-- The checks of R325 and R575 on an access to region memory. -/
def State.checkRegion (s : State) (acc : Accessor) (a n : Nat) (write : Bool) : Except Code Region :=
  match s.regionAt a, s.regionAt (a + n - 1) with
  | some r, some r' =>
    if r.ix ≠ r'.ix then .error 0x0601
    else if r.part ≠ acc.part then .error 0x0602
    else if write && acc.prog && r.progRo then .error 0x0602
    else if r.key ≠ 0 && !s.slotLoaded r.key then .error 0x0602
    else .ok r
  | _, _ => .error 0x0601

/-- A CXL port. -/
def State.cxlPort (s : State) (p : Fin 4) : CxlPort := Assoc.getD p CxlPort.init s.cxl

/-- The Pannier's size on a die in bytes (R326). -/
def State.pnBytes (s : State) (d : Fin 8) : Nat := s.regN .pnSize d.val * mib

/-- The batch in use by a partition. -/
def State.svPart (s : State) (n : Part) : SvPart := Assoc.getD n SvPart.init s.sv.parts

/-- Replaces a partition's serving state. -/
def State.setSvPart (s : State) (n : Part) (x : SvPart) : State := { s with sv := { s.sv with parts := Assoc.put n x s.sv.parts } }

/-- The running program of a partition (R235). -/
def State.program (s : State) (n : Part) : Option Program :=
  (s.svPart n).running.program.bind (fun p => Assoc.find (n, p) s.programs)

/-- The segments of a partition's running step: one empty segment where no program runs (R227, log 33). -/
def State.stepSegs (s : State) (n : Part) : Nat := ((s.program n).map (·.segments)).getD 1

/-- The segments a core has ended or that were killed on it. -/
def Core.endedSegs (x : Core) (g : Nat) : Nat :=
  if x.wait = some .commit then g else if x.killed.isSome then x.seg + 1 else x.seg

/-- The segments that every core of a partition has ended on this module. -/
def State.endedSegs (s : State) (n : Part) : Nat :=
  (s.coresOf n).foldl (fun m c => min m ((s.core c).endedSegs (s.stepSegs n))) (s.stepSegs n)

/-- The segment in progress on this module. -/
def State.segNow (s : State) (n : Part) : Nat := min (s.endedSegs n) (s.stepSegs n - 1)

/-- The address on a die of a partition's batch table, in the system area above the journal share: the areas of 65,536 rows may
overlap, which no access shows, since an accessor reads only its own partition's table (R286, R326, log 17). -/
def tableAddr (d : Fin 8) (n : Part) : Nat := dieAddr d + 180 * mib + n.val * 696320

/-- The bytes of the batch table in use (R286). -/
def State.tableBytes (s : State) (n : Part) : Nat := 32 * (s.svPart n).running.rows.length

/-- The code of a role (R286). -/
def Role.code : Role → Nat
  | .prefill => 0
  | .prefillLast => 1
  | .decode => 2
  | .verify => 3

/-- A batch-table row as its 32 bytes (R286). -/
def BatchRow.bytes (r : BatchRow) (page : Nat) : List Byte :=
  natBytes 4 r.entry ++ [0, BitVec.ofNat 8 r.role.code, if r.cut then 1 else 0, BitVec.ofNat 8 r.depth]
    ++ natBytes 2 r.news ++ natBytes 2 r.version.toNat ++ natBytes 4 r.pos ++ natBytes 4 (wrap 32 r.token)
    ++ natBytes 4 r.seqRow ++ natBytes 8 page

/-- One byte of a die's copy of the batch table (R286). -/
def State.tableByte (s : State) (d : Fin 8) (n : Part) (off : Nat) : Byte :=
  let b := (s.svPart n).running
  match b.rows[off / 32]? with
  | none => 0
  | some r => (r.bytes (Assoc.getD (d, off / 32) 0 b.pages)).getD (off % 32) 0

/-- An access to a die store at an offset (R326). -/
def State.placeDie (s : State) (acc : Accessor) (d : Fin 8) (off n : Nat) (write : Bool) : Except Code Place :=
  if 192 * mib ≤ off then .error 0x0601
  else if 176 * mib ≤ off then
    let a := dieAddr d + off
    let t := tableAddr d acc.part
    if !write && decide (acc.die = some d) && decide (t ≤ a) && decide (a + n ≤ t + s.tableBytes acc.part) then
      .ok ⟨.table d, a, 2, none⟩
    else .error 0x0602
  else if 176 * mib - s.pnBytes d < off + n then .error 0x0601
  else
    match s.checkRegion acc (dieAddr d + off) n write with
    | .error e => .error e
    | .ok r => .ok ⟨.die d, dieAddr d + off, r.cls, some r⟩

/-- An access to a site's core store at an offset. -/
def placeCore (i : SiteId) (off n : Nat) : Except Code Place :=
  if off + n ≤ 2 * mib then .ok ⟨.core, siteAddr i + off, 0, none⟩ else .error 0x0601

/-- The core store of a logical core at an offset. -/
def State.placeSlot (s : State) (c : CoreId) (off n : Nat) : Except Code Place :=
  match s.siteOf c with
  | none => .error 0x0601
  | some i => placeCore i off n

/-- An access to a site window (R308): the site must serve a slot, of the accessor's partition. -/
def State.placeSite (s : State) (acc : Accessor) (x n : Nat) : Except Code Place :=
  let site := x / 0x400000 % 256
  if h : site < 160 then
    let i : SiteId := ⟨Fin.ofNat 8 (x / 0x40000000), ⟨site, h⟩⟩
    match (s.site i).state, (s.site i).slot with
    | .inService, some k | .watch, some k =>
      if 0x200000 ≤ x % 0x400000 then .error 0x0601
      else if s.partOf ⟨i.die, k⟩ = some acc.part then placeCore i (x % 0x400000) n else .error 0x0602
    | _, _ => .error 0x0601
  else .error 0x0601

/-- The checks of R308, R322, R325 and R326 on an access of `n` bytes at a local address, and where it lies. -/
def State.place (s : State) (acc : Accessor) (a n : Nat) (write : Bool) : Except Code Place :=
  if a < s.closeTop then
    match s.checkRegion acc a n write with
    | .error e => .error e
    | .ok r => .ok ⟨.close, a, r.cls, some r⟩
  else if cxlBase ≤ a ∧ a < cxlBase + 0x80000000000 then
    let p : Fin 4 := Fin.ofNat 4 ((a - cxlBase) / 0x20000000000)
    match s.checkRegion acc a n write with
    | .error e => .error e
    | .ok r =>
      if (s.cxlPort p).state ≠ .inService then .error 0x0604
      else if (s.cxlPort p).capacity < (a - cxlBase) % 0x20000000000 + n then .error 0x0601
      else .ok ⟨.cxl p, a, r.cls, some r⟩
  else if dieBase ≤ a ∧ a < dieBase + 0x80000000 then
    s.placeDie acc (Fin.ofNat 8 ((a - dieBase) / 0x10000000)) ((a - dieBase) % 0x10000000) n write
  else if 0x20E0000000000 ≤ a ∧ a < 0x20E0000000000 + 192 * mib then
    match acc.die with
    | none => .error 0x0601
    | some d => s.placeDie acc d (a - 0x20E0000000000) n write
  else if 0x20F0000000000 ≤ a ∧ a < 0x20F0000000000 + 2 * mib then
    match acc.core with
    | none => .error 0x0601
    | some c => s.placeSlot c (a - 0x20F0000000000) n
  else if siteBase ≤ a ∧ a < siteBase + 0x200000000 then s.placeSite acc (a - siteBase) n
  else if 0x2200000000000 ≤ a ∧ a < 0x2300000000000 then
    let x := a - 0x2200000000000
    match (s.coresOf acc.part)[x / 0x400000]? with
    | none => .error 0x0601
    | some c => if 0x200000 ≤ x % 0x400000 then .error 0x0601 else s.placeSlot c (x % 0x400000) n
  else .error 0x0601

/-! ## The Pannier and the tier cache -/

/-- The directory of a die's Pannier. -/
def State.pnDir (s : State) (d : Fin 8) : List PnItem := Assoc.getD d [] s.pn

/-- Replaces a die's directory. -/
def State.setPn (s : State) (d : Fin 8) (l : List PnItem) : State := { s with pn := Assoc.put d l s.pn }

/-- Whether an item covers a 4 KiB unit and is VALID (R334). -/
def PnItem.serves (i : PnItem) (n : Part) (u : Nat) : Bool :=
  decide (i.state = .valid) && decide (i.part = n) && decide (i.src ≤ u) && decide (u + 4096 ≤ i.src + i.bytes)

/-- The 4 KiB units of a read, each with the bytes of the read that lie in it. -/
def readUnits (a len : Nat) : List (Nat × Nat) :=
  (List.range ((a + len - 1) / 4096 - a / 4096 + 1)).map (fun k =>
    let u := (a / 4096 + k) * 4096
    (u, min (u + 4096) (a + len) - max u a))

/-- Whether a die's Pannier serves a unit to a partition (R334). -/
def State.pnServes (s : State) (d : Fin 8) (n : Part) (u : Nat) : Bool := (s.pnDir d).any (fun i => i.serves n u)

/-- The Pannier's part in a read on a die: hit and miss bytes, and the last hit of each item that serves (R334, R351). -/
def State.pnRead (s : State) (d : Fin 8) (n : Part) (units : List (Nat × Nat)) : State :=
  let hit := units.filter (fun u => s.pnServes d n u.1)
  let miss := units.filter (fun u => !s.pnServes d n u.1)
  let s1 := s.setPn d ((s.pnDir d).map (fun i =>
    if hit.any (fun u => i.serves n u.1) then { i with lastHit := s.now } else i))
  (s1.bump .pnHitBytes d.val 0 (hit.map (·.2)).sum).bump .pnMissBytes d.val 0 (miss.map (·.2)).sum

/-- The first QUEUED item that fills next: highest priority, then order of entry (R333). -/
def pnNext (l : List PnItem) : Option PnItem :=
  (l.filter (fun i => decide (i.state = .queued))).foldl
    (fun b i => match b with
      | none => some i
      | some j => if j.prio < i.prio then some i else some j) none

/-- Starts the next fill of a die where none runs (R333). -/
def pnStart (l : List PnItem) : List PnItem :=
  if l.any (fun i => decide (i.state = .filling)) then l
  else
    match pnNext l with
    | none => l
    | some j => l.map (fun i => if i = j then { i with state := .filling } else i)

/-- Whether two ranges overlap; an empty one overlaps nothing. -/
def overlaps (a n b m : Nat) : Bool := decide (0 < n) && decide (0 < m) && decide (a < b + m) && decide (b < a + n)

/-- Invalidation of a die's items by a write (R335). -/
def State.pnInvalidateDie (a len : Nat) (s : State) (d : Fin 8) : State :=
  let hit (i : PnItem) : Bool := overlaps a len i.src i.bytes && decide (i.state ≠ .queued)
  let k := ((s.pnDir d).filter hit).length
  if k = 0 then s
  else
    (s.setPn d (pnStart ((s.pnDir d).map (fun i => if hit i then { i with state := .queued } else i)))).bump
      .pnInvalidations d.val 0 k

/-- Invalidation on every die of the items whose source a write touches (R335). -/
def State.pnInvalidate (s : State) (a len : Nat) : State :=
  if s.pn.isEmpty then s else (List.finRange 8).foldl (State.pnInvalidateDie a len) s

/-- The 2 MiB frame of a second-tier address. -/
def tcFrame (a : Nat) : Nat := a / 2097152

/-- A unit of a read that the second tier is asked for: the bytes count for the frame's epoch, and are served by its copy where
there is one, else by the device (R339, R340, R350). -/
def State.farRead (s : State) (q : Fin 4) (cacheable : Bool) (u : Nat × Nat) : State :=
  let f := tcFrame u.1
  if cacheable && decide (s.regN .memTcSize ≠ 0) then
    let s1 := { s with ms := { s.ms with tcBytes := Assoc.put f (Assoc.getD f 0 s.ms.tcBytes + u.2) s.ms.tcBytes } }
    if s.ms.tcSlots.any (fun p => decide (p.1 = f) && p.2) then
      State.bump { s1 with ms := { s1.ms with tcHits := Assoc.put f (Assoc.getD f 0 s.ms.tcHits + u.2) s.ms.tcHits } }
        .memTcHitBytes 0 0 u.2
    else s1.bump .cxlRdBytes 0 q.val u.2
  else s.bump .cxlRdBytes 0 q.val u.2

/-- A write to a cached frame invalidates its copy (R340). -/
def State.tcWrite (s : State) (a len : Nat) : State :=
  let keep := s.ms.tcSlots.filter (fun p => decide (p.1 < tcFrame a ∨ tcFrame (a + len - 1) < p.1))
  { s with ms := { s.ms with tcSlots := keep } }

/-! ## Accesses -/

/-- Adds to a counter of a table of counters. -/
def addTo (k : Nat × Nat) (n : Nat) (l : List ((Nat × Nat) × Nat)) : List ((Nat × Nat) × Nat) :=
  Assoc.put k (Assoc.getD k 0 l + n) l

/-- The health counters in the order of R115. -/
def healthRegs : List Reg :=
  [.txZeroBlocks, .txUnderBlocks, .txSatBlocks, .txNanBlocks, .mxOutlierSpill, .mxIloReadouts, .mxIhiReadouts,
   .mxSatReadouts, .mxNanReadouts]

/-- Counts at a health counter of a core: in its register, which keeps all work, and by segment for the report of the tick
(R115, R116). -/
def State.health (s : State) (c : CoreId) (h n : Nat) : State :=
  if n = 0 then s
  else
    let s1 := s.bump (healthRegs.getD h .txZeroBlocks) (s.coreIx c) 0 n
    match s.partOf c with
    | none => s1
    | some p => s1.updDom p (fun d => { d with health := addTo ((s.core c).seg, h) n d.health })

/-- The segment in whose work an access is made: none for what is no work of a tick. -/
def State.accSeg (s : State) (acc : Accessor) : Option Nat :=
  if acc.work then some (acc.seg.getD (s.segNow acc.part)) else none

/-- Bytes that the work of a tick moves, for R69, R347 and R348. -/
def State.measure (s : State) (acc : Accessor) (p : Place) (len : Nat) : State :=
  match s.accSeg acc, p.space with
  | some k, .close => s.updDom acc.part (fun d => { d with closeBy := addTo (k, (s.mdOf p.phys).1) len d.closeBy })
  | some k, .cxl q => s.updDom acc.part (fun d => { d with cxlBy := addTo (k, q.val) len d.cxlBy })
  | _, _ => s

/-- Whether a range of close memory holds a poisoned unit. -/
def State.poisonedIn (s : State) (a len : Nat) : Bool :=
  s.ms.poisoned.any (fun u => decide (a / 64 ≤ u) && decide (u ≤ (a + len - 1) / 64))

/-- The CXL port whose device returns poison for a range of the second tier (R322). -/
def State.poisonPort (s : State) (a len : Nat) : Option (Fin 4) :=
  (List.finRange 4).find? (fun q =>
    let o := a - cxlBase - q.val * 0x20000000000
    decide (cxlBase + q.val * 0x20000000000 ≤ a ∧ a < cxlBase + (q.val + 1) * 0x20000000000)
      && (s.cxlPort q).poison.any (fun u => decide (o / 64 ≤ u ∧ u ≤ (o + len - 1) / 64)))

/-- What a read that passed its checks counts: the tick's bytes, and for each unit the Pannier's or else the second tier's
(R334, R339, R347, R350). -/
def State.countRead (s : State) (acc : Accessor) (p : Place) (len : Nat) : State :=
  let s1 := s.measure acc p len
  match p.region with
  | none => s1
  | some r =>
    let units := readUnits p.phys len
    let mine : List (Nat × Nat) := match acc.die with
      | some d => if r.pnOk then units.filter (fun (u : Nat × Nat) => s.pnServes d acc.part u.1) else []
      | none => []
    let s2 :=
      match acc.die with
      | some d => if r.pnOk then s1.pnRead d acc.part units else s1
      | none => s1
    match p.space with
    | .cxl q =>
      let s3 := if r.tcache then { s2 with ms := { s2.ms with tcHits := [] } } else s2
      (units.filter (fun (u : Nat × Nat) => !mine.contains u)).foldl (fun t u => t.farRead q r.tcache u) s3
    | _ => s2

/-- The bytes at a place. -/
def State.bytesAt (s : State) (acc : Accessor) (p : Place) (len : Nat) : List Byte :=
  match p.space with
  | .table d => (List.range len).map (fun k => s.tableByte d acc.part (p.phys + k - tableAddr d acc.part))
  | _ => s.load p.phys len

/-- An access that fails its checks: CXL.CODE keeps that its port is out of service (R322, R350). -/
def State.accessFails (s : State) (a : Nat) (e : Code) : State :=
  if e = 0x0604 then s.setReg .cxlCode 0 ((a - cxlBase) / 0x20000000000) (codeWord e) else s

/-- The checks of a read of `len` bytes at a local address, and what it counts: the place where the bytes are (R308, R315, R322,
R325, R334). -/
def State.startRead (s : State) (acc : Accessor) (a len : Nat) : State × Except Code Place :=
  match s.place acc a len false with
  | .error e => (s.accessFails a e, .error e)
  | .ok p =>
    if s.poisonedIn p.phys len then (s, .error 0x0603)
    else
      match s.poisonPort p.phys len with
      | some q => ((s.bump .cxlPoisonReads 0 q.val 1).setReg .cxlCode 0 q.val (codeWord 0x0603), .error 0x0603)
      | none => (s.countRead acc p len, .ok p)

/-- A read of `len` bytes at a local address. -/
def State.readMem (s : State) (acc : Accessor) (a len : Nat) : State × Except Code (List Byte) :=
  if len = 0 then (s, .ok [])
  else
    let r := s.startRead acc a len
    (r.1, r.2.map (fun p => s.bytesAt acc p len))

/-- Poison marks of the units that a write covers whole are cleared, by the S8 in close memory and by the device in the second
tier (R315, R322). -/
def State.clearPoison (s : State) (a len : Nat) : State :=
  let left (base u : Nat) : Bool := !(decide (a ≤ base + u * 64) && decide (base + u * 64 + 64 ≤ a + len))
  { s with
    ms := { s.ms with poisoned := s.ms.poisoned.filter (left 0) }
    cxl := s.cxl.map (fun q => (q.1, { q.2 with poison := q.2.poison.filter (left (cxlBase + q.1.val * 0x20000000000)) })) }

/-- The effect of bytes written at a place: Pannier and tier-cache invalidation before visibility, poison marks cleared
where whole units are covered, the bytes (R315, R335, R340). -/
def State.putBytes (s : State) (p : Place) (bs : List Byte) : State :=
  (((s.pnInvalidate p.phys bs.length).tcWrite p.phys bs.length).clearPoison p.phys bs.length).store p.phys bs

/-- Whether a write would cover part of a poisoned unit only (R315). -/
def State.narrowPoison (s : State) (a len : Nat) : Bool :=
  s.ms.poisoned.any (fun u => overlaps a len (u * 64) 64 && !(decide (a ≤ u * 64) && decide (u * 64 + 64 ≤ a + len)))

/-- What a write counts. -/
def State.countWrite (s : State) (acc : Accessor) (p : Place) (len : Nat) : State :=
  let s1 := s.measure acc p len
  match p.space with
  | .cxl q => s1.bump .cxlWrBytes 0 q.val len
  | _ => s1

/-- Bytes of a journal entry (log 8). -/
def JEntry.len (e : JEntry) : Nat :=
  match e.op with
  | .store bs => bs.length
  | _ => 8

/-- Journal pages that a domain holds on a die (R63, log 8). -/
def Domain.pages (d : Domain) (die : Fin 8) : Nat :=
  (((d.journal.filter (fun e => decide (e.die = die))).map JEntry.len).sum + 4095) / 4096

/-- Pages held by every journal of a die. -/
def State.journalPages (s : State) (die : Fin 8) : Nat := ((List.finRange 16).map (fun n => (s.dom n).pages die)).sum

/-- Pages of a die: the 4 MiB share, then the 64 MiB region of R327. -/
def journalLimit : Nat := 1024 + 16384

/-- An operation accepted on STATE memory enters the journal, or finds no page (R62, R63). -/
def State.journal (s : State) (n : Part) (e : JEntry) : State × Except Code Unit :=
  let s1 := s.updDom n (fun d => { d with journal := d.journal ++ [e] })
  if journalLimit < s1.journalPages e.die then (s, .error 0x0111) else (s1, .ok ())

/-- Under what stamp a write is made: by a source in a segment (then STATE writes are journalled), or as no work of a
tick. -/
abbrev Stamp := Option (Source × Nat)

/-- The die whose journal takes a source's entries (log 8). -/
def srcDie : Source → Fin 8
  | .core c => c.die
  | .die d => d
  | _ => 0

/-- Remembers what bytes of APPEND memory held before the tick wrote them (R54, R58, log 44). -/
def State.keepBefore (s : State) (n : Part) (p : Place) (len : Nat) : State :=
  if p.cls = 1 then
    let old := (List.range len).filterMap (fun i =>
      let a := p.phys + i
      if (cellsFind a (s.dom n).before).isSome then none else some (a, s.mem.read a))
    s.updDom n (fun d => { d with before := d.before ++ old })
  else s

/-- A write of bytes at a local address, under the memory classes of R60. -/
def State.writeMem (s : State) (acc : Accessor) (stamp : Stamp) (a : Nat) (bs : List Byte) : State × Except Code Unit :=
  if bs.isEmpty then (s, .ok ())
  else
    match s.place acc a bs.length true with
    | .error e => (s.accessFails a e, .error e)
    | .ok p =>
      if s.narrowPoison p.phys bs.length then (s, .error 0x0603)
      else
        match stamp with
        | some (src, seg) =>
          if p.cls = 2 then
            (s.countWrite acc p bs.length).journal acc.part ⟨p.phys, .store bs, 0, src, seg, srcDie src⟩
          else (((s.keepBefore acc.part p bs.length).countWrite acc p bs.length).putBytes p bs, .ok ())
        | none => ((s.countWrite acc p bs.length).putBytes p bs, .ok ())

/-- The word an atomic stores over an old word (R198, R410). -/
def atomNew (op : AtomOp) (old val cmp : Word) : Word :=
  match op with
  | .add => old + val
  | .max => if BitVec.slt old val then val else old
  | .cas => if old = cmp then val else old
  | .swap => val
  | .ladd => (l64Add old val).1

/-- The journal operation of an atomic that STATE accepts (R62). -/
def AtomOp.journal : AtomOp → Option JOp
  | .add => some .add
  | .max => some .max
  | .ladd => some .ladd
  | _ => none

/-- An atomic on an aligned word: the old word, or a fault (R62, R199, R315, R410). -/
def State.atomMem (s : State) (acc : Accessor) (stamp : Stamp) (op : AtomOp) (nr : Bool) (a : Nat) (val cmp : Word) :
    State × Except Code Word :=
  match s.place acc a 8 true with
  | .error e => (s.accessFails a e, .error e)
  | .ok p =>
    match stamp, decide (p.cls = 2), nr, op.journal with
    | some (src, seg), true, true, some j =>
      if s.poisonedIn p.phys 8 then (s, .error 0x0603)
      else
        let r := (s.countWrite acc p 8).journal acc.part ⟨p.phys, j, val, src, seg, srcDie src⟩
        (r.1, r.2.map (fun _ => 0))
    | some _, true, _, _ => (s, .error 0x0110)
    | _, _, _, _ =>
      let r := s.startRead acc a 8
      match r.2 with
      | .error e => (r.1, .error e)
      | .ok _ =>
        let old := bytesWord (s.load p.phys 8)
        let s1 := if stamp.isSome then s.keepBefore acc.part p 8 else s
        ((s1.countWrite acc p 8).putBytes p (wordBytes (atomNew op old val cmp)), .ok old)

/-! ## The commit of a journal -/

/-- The places a journal touches: the 8-byte words of its atomics, without repeats. -/
def dedup : List Nat → List Nat
  | [] => []
  | a :: l => if l.contains a then dedup l else a :: dedup l

/-- Bytes of a journal reach memory; where a unit was poisoned after they were accepted, a narrower write of it is discarded
(R62, R315, log 104). -/
def State.applyBytes (s : State) (a : Nat) (bs : List Byte) : State :=
  if s.narrowPoison a bs.length then s.setReg .memCode 0 0 0x0603 else s.putBytes ⟨.core, a, 0, none⟩ bs

/-- Steps 2 to 4 of R62 at one word: one add, one exact L64 add clamped once, one maximum. -/
def applyAtomics (s : State) (j : List JEntry) (a : Nat) : State :=
  let at_ := j.filter (fun e => decide (e.addr = a))
  let adds := at_.filter (fun e => decide (e.op = .add))
  let ladds := at_.filter (fun e => decide (e.op = .ladd))
  let maxs := at_.filter (fun e => decide (e.op = .max))
  let w0 := bytesWord (s.load a 8)
  let w1 := adds.foldl (fun w e => w + e.val) w0
  let nan := decide (w1 = l64Nan) || ladds.any (fun e => decide (e.val = l64Nan))
  let w2 := if ladds.isEmpty then w1
    else if nan then l64Nan
    else (l64Clamp (l64Partial (ladds.foldl (fun t e => t + e.val.toInt) w1.toInt))).1
  let w3 := maxs.foldl (fun w e => if BitVec.slt w e.val then e.val else w) w2
  s.applyBytes a (wordBytes w3)

/-- Applies a STATE journal in the order of R62: stores in each source's program order, then the combined atomics. -/
def State.applyJournal (s : State) (j : List JEntry) : State :=
  let s1 := j.foldl (fun t e =>
    match e.op with
    | .store bs => t.applyBytes e.addr bs
    | _ => t) s
  let words := dedup ((j.filter (fun e => match e.op with | .store _ => false | _ => true)).map (·.addr))
  words.foldl (fun t a => applyAtomics t j a) s1

end Sys2Proof.Machine
end

