-- ==== Sys2Proof/Machine/Codeword.lean ====
section
/-! DEFINITION. Codewords (R381, R383): the cut of the flit stream, the header, the code and the map of symbols onto lanes. IEEE
802.3 Clause 91 gives the field, the generator and the order of symbols; the spec names it (log 106). -/

namespace Sys2Proof.Machine

/-- Multiplication of symbols modulo x^10 + x^3 + 1. -/
def symMul (a b : BitVec 10) : BitVec 10 :=
  ((List.range 10).foldl (fun (r : BitVec 10 × BitVec 10) i =>
    (if b.getLsbD i then r.1 ^^^ r.2 else r.1, (r.2 <<< 1) ^^^ (if r.2.getLsbD 9 then 0x009 else 0))) (0, a)).1

/-- The generator polynomial of RS(544,514) without its leading 1, the coefficient of x^29 first: its zeros are the powers 0 to 29
of the field's primitive element. -/
def rsGenerator : List (BitVec 10) :=
  let powers := (List.range 29).foldl (fun (l : List (BitVec 10)) _ => symMul 2 (l.headD 1) :: l) [1]
  (powers.foldl (fun (g : List (BitVec 10)) z =>
    List.zipWith (fun a b => a ^^^ b) (g ++ [0]) (0 :: g.map (symMul z))) [1]).drop 1

/-- The 30 parity symbols of 514 message symbols. -/
def rsParity (message : List (BitVec 10)) : List (BitVec 10) :=
  let g := rsGenerator
  message.foldl (fun r m =>
    let top := m ^^^ r.headD 0
    List.zipWith (fun a b => a ^^^ b) (r.drop 1 ++ [0]) (g.map (symMul top))) (List.replicate 30 0)

/-- Symbol errors in a codeword that the code corrects. -/
def rsCorrects : Nat := 15

/-- The header of a codeword: `PAIR` and `MARK` (R381). -/
def codewordHeader (pair : Bool) : BitVec 20 := BitVec.ofNat 20 (bitN pair + 2 * 0x2D1E3)

/-- The 514 message symbols: the header and 640 bytes, bit 0 of each first (R381). -/
def codewordMessage (pair : Bool) (piece : List Byte) : List (BitVec 10) :=
  let bitsOf : List Bool := (List.range 20).map (codewordHeader pair).getLsbD
    ++ piece.flatMap (fun b => (List.range 8).map b.getLsbD)
  (runsOf 10 bitsOf).map (fun l => BitVec.ofNat 10 (l.foldr (fun b n => bitN b + 2 * n) 0))

/-- A codeword: its message symbols, then the parity. -/
def codeword (pair : Bool) (piece : List Byte) : List (BitVec 10) :=
  let m := codewordMessage pair piece
  m ++ rsParity m

/-- The bytes of five flits as the two codewords of a pair (R381). -/
def codewordPair (flits : List Byte) : List (BitVec 10) × List (BitVec 10) :=
  (codeword false (flits.take 640), codeword true (flits.drop 640))

/-- Symbol `s` of a codeword on the lane `s` mod 16, or `s` mod 8: the symbols of each physical lane in use (R381). -/
def laneSymbols (lanes : List Nat) (c : List (BitVec 10)) : List (Nat × List (BitVec 10)) :=
  (List.range lanes.length).map (fun i =>
    (lanes.getD i 0, (List.range (544 / lanes.length)).map (fun k => c.getD (i + lanes.length * k) 0)))

end Sys2Proof.Machine
end

