-- ==== Sys2Proof/Machine/Route.lean ====
section
/-! DEFINITION. Routes of the torus fabric (R392, R399 to R401) and the requests that sources send to other modules (R404 to
R413). -/

namespace Sys2Proof.Machine

/-! ## Ports and links -/

/-- A torus port. -/
def State.port (s : State) (p : Port) : FabPort := Assoc.getD p FabPort.init s.fab.ports

/-- Replaces a port. -/
def State.setPort (s : State) (p : Port) (x : FabPort) : State :=
  { s with fab := { s.fab with ports := Assoc.put p x s.fab.ports } }

/-- The port state codes of FAB.PORT_STATUS (R426). -/
def PortState.code : PortState → Nat
  | .down => 0
  | .training => 1
  | .ident => 2
  | .up => 3
  | .miswired => 4
  | .versionHold => 5
  | .disabled => 6

/-- The reason codes of FAB.PORT_STATUS (R426). -/
def wireCode : Option WireReason → Nat
  | none => 0
  | some .port => 1
  | some .serial => 2
  | some .coord => 3
  | some .map => 4

/-- Healthy physical lanes not in use (R379). -/
def FabPort.spares (x : FabPort) : Nat :=
  ((List.range 18).filter (fun k => x.healthy.getLsbD k && !x.failed.getLsbD k && !x.lanes.contains k)).length

/-- FAB.PORT_STATUS (R426). -/
def FabPort.status (x : FabPort) : Word :=
  BitVec.ofNat 64 (x.state.code + wireCode x.reason * 2 ^ 4 + x.lanes.length * 2 ^ 8 + x.spares * 2 ^ 16
    + x.level * 2 ^ 24 + x.features.toNat * 2 ^ 32)

/-- The map's extents; those of the implicit map where none is installed (R389, R391). -/
def State.extents (s : State) : Nat × Nat × Nat :=
  match s.fab.map with
  | none => (4, 4, 4)
  | some m => (m.1, m.2.1, m.2.2.1)

/-- The extent along an axis: 0 X, 1 Y, 2 Z. -/
def axisOf (e : Nat × Nat × Nat) (k : Nat) : Nat := if k = 0 then e.1 else if k = 1 then e.2.1 else e.2.2

/-- The coordinate of a module along an axis (R28). -/
def coordAt (m : ModIx) (k : Nat) : Nat := if k = 0 then m.val % 4 else if k = 1 then m.val / 4 % 4 else m.val / 16

/-- The module with coordinate `v` along an axis, and the others of `m`. -/
def withCoord (m : ModIx) (k v : Nat) : ModIx :=
  let c (i : Nat) : Nat := if i = k then v else coordAt m i
  Fin.ofNat 64 (modAt (c 0) (c 1) (c 2))

/-- The axis and direction of a port: X+, X−, Y+, Y−, Z+, Z− (R17). -/
def portAxis (p : Port) : Nat := p.val / 2
def portPlus (p : Port) : Bool := decide (p.val % 2 = 0)

/-- The port of a direction. -/
def portOf (k : Nat) (plus : Bool) : Port := Fin.ofNat 6 (2 * k + if plus then 0 else 1)

/-- The opposite direction (R392). -/
def portOpp (p : Port) : Port := portOf (portAxis p) (!portPlus p)

/-- The neighbour of a module through a port (R392). -/
def neighbour (e : Nat × Nat × Nat) (m : ModIx) (p : Port) : ModIx :=
  let k := portAxis p
  let n := axisOf e k
  let c := coordAt m k
  withCoord m k (if portPlus p then (c + 1) % n else (c + n - 1) % n)

/-- A PORT_STATUS word of a module: the module's own ports, or the link-state database (R398). -/
def State.portWord (s : State) (m : ModIx) (p : Port) : Word :=
  if m = s.self then (s.port p).status
  else
    match Assoc.find m s.fab.lsdb with
    | none => 0
    | some l => l.ports.getD p.val 0

/-- Whether a link is UP at both ends. -/
def State.linkUp (s : State) (m : ModIx) (p : Port) : Bool :=
  decide (bits (s.portWord m p) 2 0 = 3)
    && decide (bits (s.portWord (neighbour s.extents m p) (portOpp p)) 2 0 = 3)

/-- Whether a link has TWO_LEG (R397). -/
def State.linkTwoLeg (s : State) (m : ModIx) (p : Port) : Bool := (s.portWord m p).getLsbD 33

/-- Whether a link has PACKED72 (R397). -/
def State.linkPacked (s : State) (m : ModIx) (p : Port) : Bool := (s.portWord m p).getLsbD 32

/-! ## Routes -/

/-- The extent of a slice along an axis, and its first coordinate. -/
def sliceLen (w : Word) (k : Nat) : Nat := bits w (9 + 2 * k) (8 + 2 * k) + 1
def sliceFirst (w : Word) (k : Nat) : Nat := bits w (2 * k + 1) (2 * k)

/-- The hops of one axis of a direct route (R400): direction and count. -/
def axisHops (e : Nat × Nat × Nat) (w : Word) (src dst : ModIx) (k : Nat) : Bool × Nat :=
  let n := axisOf e k
  let a := coordAt src k
  let b := coordAt dst k
  if sliceLen w k = n then
    let fwd := (b + n - a) % n
    let back := (a + n - b) % n
    if fwd ≤ back then (true, fwd) else (false, back)
  else if a ≤ b then (true, b - a)
  else (false, a - b)

/-- The links of `n` hops in one direction, and where they end. -/
def walkHops (e : Nat × Nat × Nat) (p : Port) : Nat → ModIx → List (ModIx × Port) × ModIx
  | 0, m => ([], m)
  | n + 1, m =>
    let r := walkHops e p n (neighbour e m p)
    ((m, p) :: r.1, r.2)

/-- The links of the direct route: X, then Y, then Z (R400). -/
def directRoute (e : Nat × Nat × Nat) (w : Word) (src dst : ModIx) : List (ModIx × Port) :=
  let step (acc : List (ModIx × Port) × ModIx) (k : Nat) : List (ModIx × Port) × ModIx :=
    let h := axisHops e w acc.2 dst k
    let r := walkHops e (portOf k h.1) h.2 acc.2
    (acc.1 ++ r.1, r.2)
  ([0, 1, 2].foldl step ([], src)).1

/-- Whether a direct route is wholly UP. -/
def State.directUp (s : State) (w : Word) (src dst : ModIx) : Bool :=
  (directRoute s.extents w src dst).all (fun l => s.linkUp l.1 l.2)

/-- The modules that can stand between the legs of a two-leg route, with the hop counts (R401). -/
def State.detours (s : State) (w : Word) (src dst : ModIx) : List (ModIx × Nat) :=
  ((sliceMods w).filter (fun m => decide (m ≠ src ∧ m ≠ dst) && s.directUp w src m && s.directUp w m dst
    && (directRoute s.extents w m dst).all (fun l => s.linkTwoLeg l.1 l.2))).map
    (fun m => (m, (directRoute s.extents w src m).length + (directRoute s.extents w m dst).length))

/-- The pair with the fewest hops, the lower index first on ties. -/
def fewest : List (ModIx × Nat) → Option (ModIx × Nat)
  | [] => none
  | p :: l =>
    match fewest l with
    | none => some p
    | some q => if q.2 < p.2 then some q else some p

/-- The route of a packet from this module (R399 to R401): direct, through a module, or none. -/
inductive RouteKind | direct | via (m : ModIx) | none
  deriving DecidableEq, Repr

/-- The route to a module of a domain's slice. -/
def State.route (s : State) (n : Part) (dst : ModIx) : RouteKind :=
  let w := s.sliceReg n
  if dst = s.self ∨ s.directUp w s.self dst then .direct
  else
    match fewest (s.detours w s.self dst) with
    | some (m, _) => .via m
    | none => .none

/-! ## Requests -/

/-- The global address of a local address at a module (R197). -/
def globalAddr (m : ModIx) (a : Nat) : Word := BitVec.ofNat 64 (2 ^ 56 + m.val * 2 ^ 50 + a)

/-- The stamp a source puts on its packets: segment and run, where it works for a segment (R406). -/
structure PacketStamp where
  seg : Nat
  run : Nat
  deriving DecidableEq, Repr

/-- The die number of a source in a packet (R156, R404). -/
def srcDieNum : Source → Nat
  | .core c => c.die.val
  | .die d => d.val
  | .remote _ d => d.toNat
  | .engine => 18

/-- A request packet (R404). -/
def State.mkPacket (s : State) (n : Part) (src : Source) (dst : ModIx) (addr : Nat) (len : Nat)
    (stamp : Option PacketStamp) (nr : Bool) (payload : List Byte) : Packet :=
  let via := s.route n dst
  { rsv := 0, mc := false, nr := nr, poison := false, part := n,
    detour := match via with
      | .via _ => true
      | _ => false
    via := match via with
      | .via m => m
      | _ => 0
    run := (stamp.map (·.run)).getD 0, stamped := stamp.isSome, seg := (stamp.map (·.seg)).getD 0, status := 0,
    srcModule := s.self, srcDie := BitVec.ofNat 8 (srcDieNum src), dstModule := dst, dstDie := 0xFF,
    tag := s.fab.nextTag, len := len, tick := if stamp.isSome then s.tickOf n else 0,
    addr := (globalAddr dst addr) &&& 0x00FFFFFFFFFFFFFF, mask := 0, payload := payload }

/-! ## Flits (R381 to R387) -/

/-- CRC-32 of IEEE 802.3, one bit at a time over the reflected register (R383). -/
def crcBit (c : BitVec 32) : BitVec 32 := if c.getLsbD 0 then (c >>> 1) ^^^ 0xEDB88320#32 else c >>> 1
def crcByte (c : BitVec 32) (b : Byte) : BitVec 32 := (List.range 8).foldl (fun x _ => crcBit x) (c ^^^ b.setWidth 32)
def crc32 (bs : List Byte) : BitVec 32 := ~~~ (bs.foldl crcByte 0xFFFFFFFF#32)

/-- The `TYPE` of a flit (R382). -/
def FlitKind.code : FlitKind → Nat
  | .idle => 0
  | .data => 1
  | .nak => 2
  | .ident => 3
  | .laneCtl => 4

/-- Bytes 251:0 of a flit (R382). -/
def flitBody (f : Flit) : List Byte :=
  natBytes 12 (f.typ.toNat * 2 ^ 60 + (if f.typ = 1 then f.vc.toNat * 2 ^ 56 + f.seq.toNat * 2 ^ 44 else 0) + f.ack.toNat * 2 ^ 32
    + f.creditVc.toNat * 2 ^ 28 + f.credits.toNat * 2 ^ 16) ++ (f.payload ++ List.replicate 240 0).take 240

/-- A flit of a type, with its CRC (R383). -/
def flitWithCrc (k : FlitKind) (f : Flit) : Flit :=
  let g := { f with typ := BitVec.ofNat 4 k.code }
  { g with crc := crc32 (flitBody g) }

/-- A flit with nothing in it. -/
def flitEmpty : Flit := ⟨[], 0, 0, 0, 0, 0, 0, [], 0⟩

/-- The 256 bytes of a flit (R382). -/
def flitBytes (f : Flit) : List Byte := flitBody f ++ natBytes 4 f.crc.toNat

/-- Sends a flit: it joins the port's flit stream, and with the fifth of a pair the two codewords go out (R381). -/
def State.sendFlit (s : State) (p : Port) (k : FlitKind) (f : Flit) : State :=
  let x := s.port p
  let all := x.stream ++ flitBytes f
  let s1 := s.send (.flit p k f)
  if all.length < 1280 then s1.setPort p { x with stream := all }
  else
    let c := codewordPair all
    (s1.setPort p { x with stream := [] }).send (.codewords p (laneSymbols x.lanes c.1) (laneSymbols x.lanes c.2))

/-- Credits held for a virtual channel: 32 flits once a port is UP (R386, log 38). -/
def FabPort.credit (x : FabPort) (vc : BitVec 4) : Nat := Assoc.getD vc 32 x.credits

/-- The class of a virtual channel (R386). -/
def vcClass (vc : BitVec 4) : Nat := vc.toNat / 2 % 4

/-- Whether a port carries a class: UP all four, MISWIRED only MANAGEMENT (R395). -/
def FabPort.carriesClass (x : FabPort) (k : Nat) : Bool :=
  decide (x.state = .up) || (decide (x.state = .miswired) && decide (k = 0))

/-- The flit that goes next: MANAGEMENT before all others, then the other classes in turn, each against a credit (R386,
R387). -/
def FabPort.nextFlit (x : FabPort) : Option Flit :=
  let ready (k : Nat) : Option Flit := x.waiting.find? (fun f => decide (vcClass f.vc = k) && decide (0 < x.credit f.vc))
  let order := ([0] ++ (List.range 3).map (fun i => (x.turn + i) % 3 + 1)).filter x.carriesClass
  order.findSome? ready

/-- Sends the flits that can go now; while the retry buffer is full an IDLE flit goes in their place (R379, R384). -/
def pumpFlits (p : Port) : Nat → State → State
  | 0, s => s
  | k + 1, s =>
    let x := s.port p
    match x.nextFlit with
    | none => s
    | some f =>
      if x.moving then s
      else if 1024 ≤ x.retry.length then s.sendFlit p .idle (flitWithCrc .idle { flitEmpty with ack := x.rxSeq })
      else
        let g := flitWithCrc .data { f with seq := x.txSeq, ack := x.rxSeq }
        let cls := vcClass f.vc
        let x1 := { x with waiting := x.waiting.erase f, txSeq := x.txSeq + 1, retry := x.retry ++ [g],
                           credits := Assoc.put f.vc (x.credit f.vc - 1) x.credits,
                           turn := if cls = 0 then x.turn else cls }
        pumpFlits p k (((s.setPort p x1).bump .fabTxFlits 0 p.val 1).sendFlit p .data g)

/-- Sends every flit of a port that can go now. -/
def State.pump (s : State) (p : Port) : State := pumpFlits p (s.port p).waiting.length s

/-- Puts bytes of a virtual channel on a port, in flits of 240 bytes; the last is filled with zeros (log 38). -/
def State.pushBytes (s : State) (p : Port) (vc : BitVec 4) (bs : List Byte) : State :=
  let fl := (runsOf 240 bs).map (fun b => { flitEmpty with vc := vc, payload := b ++ List.replicate (240 - b.length) 0 })
  (s.setPort p { s.port p with waiting := (s.port p).waiting ++ fl }).pump p

/-! ## Packets as bytes (R404, R405) -/

/-- The `OP` of a packet operation (R405). -/
def PacketOp.code : PacketOp → Nat
  | .read => 0x01
  | .write => 0x02
  | .atomAdd => 0x03
  | .atomMax => 0x04
  | .atomCas => 0x05
  | .atomSwap => 0x06
  | .atomLadd => 0x07
  | .readResp => 0x08
  | .writeAck => 0x09
  | .atomResp => 0x0A
  | .collPart => 0x18
  | .collResult => 0x19

/-- The class of a packet: 0 MANAGEMENT, 1 REQUEST, 2 RESPONSE, 3 BULK (R386, R405). -/
def packetClass (op : PacketOp) (mc : Bool) : Nat :=
  match op with
  | .readResp | .writeAck | .atomResp => 2
  | .collPart | .collResult => 3
  | .write => if mc then 3 else 1
  | _ => 1

/-- A packet as bytes (R404). -/
def packetBytes (op : Nat) (k : Packet) : List Byte :=
  natBytes 1 op ++ natBytes 1 (bitN k.mc + 2 * bitN k.nr + 4 * bitN k.poison) ++ natBytes 1 k.part.val
    ++ natBytes 1 (128 * bitN k.detour + k.via.val) ++ natBytes 1 k.run ++ natBytes 1 (128 * bitN k.stamped + k.seg % 64)
    ++ natBytes 2 k.status.toNat ++ natBytes 1 k.srcModule.val ++ [k.srcDie] ++ natBytes 1 k.dstModule.val ++ [k.dstDie]
    ++ natBytes 2 k.tag.toNat ++ natBytes 2 k.len ++ wordBytes k.tick ++ wordBytes k.addr
    ++ (if k.mc then wordBytes k.mask else []) ++ k.payload

/-! ## Hops -/

/-- Whether a hop crosses a wrap link of the map (R399, R402). -/
def wrapHop (e : Nat × Nat × Nat) (l : ModIx × Port) : Bool :=
  let c := coordAt l.1 (portAxis l.2)
  let n := axisOf e (portAxis l.2)
  if portPlus l.2 then decide (c + 1 = n) else decide (c = 0)

/-- The hop of a route out of a module, with DL: 1 once the packet has crossed a wrap link in the dimension it travels
(R402). -/
def hopOut (e : Nat × Nat × Nat) (m : ModIx) : List (ModIx × Port) → List (ModIx × Port) → Option (Port × Nat)
  | _, [] => none
  | done, l :: rest =>
    if l.1 = m then
      some (l.2, bitN (done.any (fun h => decide (portAxis h.2 = portAxis l.2) && wrapHop e h)))
    else hopOut e m (done ++ [l]) rest

/-- The port and virtual channel by which a packet leaves this module: it stands on the first leg, or at or past M on the
second (R386, R401, R402). -/
def State.hop (s : State) (n : Part) (src dst : ModIx) (detour : Bool) (via : ModIx) (cls : Nat) : Option (Port × BitVec 4) :=
  let w := s.sliceReg n
  let leg1 := directRoute s.extents w src (if detour then via else dst)
  let leg2 := if detour then directRoute s.extents w via dst else []
  match (if s.self = via ∧ detour then none else hopOut s.extents s.self [] leg1), hopOut s.extents s.self [] leg2 with
  | some h, _ => some (h.1, BitVec.ofNat 4 (2 * cls + h.2))
  | none, some h => some (h.1, BitVec.ofNat 4 (8 + 2 * cls + h.2))
  | none, none => none

/-- The ports on which a multicast packet leaves this module: those of the tree of direct routes (R414). -/
def State.treePorts (s : State) (n : Part) (src : ModIx) (dsts : List ModIx) (cls : Nat) : List (Port × BitVec 4) :=
  (List.finRange 6).filterMap (fun p =>
    (dsts.filterMap (fun d => s.hop n src d false 0 cls)).find? (fun h => decide (h.1 = p)))

/-- The modules a mask names. -/
def maskMods (w : Word) : List ModIx := (List.finRange 64).filter (fun m => w.getLsbD m.val)

/-- The mask of a list of modules (R414). -/
def modsMask (l : List ModIx) : Word := BitVec.ofNat 64 ((dedup (l.map (·.val))).map (fun k => 2 ^ k)).sum

/-- The port by which a packet comes to this module along the links of its route. -/
def arrivalOn (e : Nat × Nat × Nat) (m : ModIx) (links : List (ModIx × Port)) : Option Port :=
  (links.find? (fun l => decide (neighbour e l.1 l.2 = m))).map (fun l => portOpp l.2)

/-- The port by which a packet comes in (R401, R414). -/
def State.arrivalPort (s : State) (pk : Packet) : Option Port :=
  let w := s.sliceReg pk.part
  let route (d : ModIx) : List (ModIx × Port) :=
    if pk.detour then directRoute s.extents w pk.srcModule pk.via ++ directRoute s.extents w pk.via d
    else directRoute s.extents w pk.srcModule d
  if pk.mc then (maskMods pk.mask).findSome? (fun d => arrivalOn s.extents s.self (route d))
  else arrivalOn s.extents s.self (route pk.dstModule)

/-- Adds the bytes of a stamped packet of the running tick to what its segment moves over a torus port, out of the module or into
it (R65, R69). -/
def State.countPort (s : State) (pk : Packet) (p : Port) (inward : Bool) (bytes : Nat) : State :=
  let d := s.dom pk.part
  if pk.stamped && decide (d.state = .running) && decide (pk.tick.toNat = d.tick) && decide (pk.run = d.run) then
    s.updDom pk.part (fun d => { d with fabBy := addTo (pk.seg, 2 * p.val + bitN inward) bytes d.fabBy })
  else s

/-- Counts a packet that comes in (R69). -/
def State.countArrival (s : State) (op : Nat) (pk : Packet) : State :=
  match s.arrivalPort pk with
  | some p => s.countPort pk p true (packetBytes op pk).length
  | none => s

/-- Puts a packet on the ports it leaves by. -/
def State.onWire (s : State) (op cls : Nat) (pk : Packet) : State :=
  let bs := packetBytes op pk
  if pk.mc then (s.treePorts pk.part pk.srcModule (maskMods pk.mask) cls).foldl (fun t h =>
    (t.countPort pk h.1 false bs.length).pushBytes h.1 h.2 bs) s
  else
    match s.hop pk.part pk.srcModule pk.dstModule pk.detour pk.via cls with
    | some h => (s.countPort pk h.1 false bs.length).pushBytes h.1 h.2 bs
    | none => s

/-- Sends a packet. -/
def State.sendPacket (s : State) (op : PacketOp) (pk : Packet) : State :=
  (s.send (.packet op pk)).onWire op.code (packetClass op pk.mc) pk

/-- A packet of this module with nothing but its addressees, stamp and payload. -/
def State.plainPacket (s : State) (n : Part) (dsts : List ModIx) (payload : List Byte) : Packet :=
  let dst := dsts.headD s.self
  let mc := decide (1 < dsts.length)
  let via := if mc then RouteKind.direct else s.route n dst
  { rsv := 0, mc := mc, nr := false, poison := false, part := n,
    detour := match via with
      | .via _ => true
      | _ => false
    via := match via with
      | .via m => m
      | _ => 0
    run := 0, stamped := false, seg := 0, status := 0, srcModule := s.self, srcDie := 0xFF, dstModule := dst, dstDie := 0xFF,
    tag := 0, len := payload.length, tick := 0, addr := 0, mask := if mc then modsMask dsts else 0, payload := payload }

/-- The management types as codes (R417). -/
def MgmtType.code : MgmtType → Nat
  | .vote => 0x01
  | .wait => 0x02
  | .pass => 0x03
  | .retract => 0x04
  | .retractAck => 0x05
  | .abort => 0x06
  | .commit => 0x07
  | .settings => 0x08
  | .forward => 0x09
  | .intake => 0x0A
  | .linkState => 0x0B
  | .timeSync => 0x0C
  | .report => 0x0D

/-- The common body of a management message (R416). -/
def mgmtBody (t : MgmtType) (m : Mgmt) : List Byte :=
  natBytes 1 t.code ++ natBytes 1 m.dom.val ++ natBytes 1 m.run ++ natBytes 1 m.seg ++ natBytes 2 m.code.toNat
    ++ natBytes 1 m.module ++ natBytes 1 0 ++ wordBytes m.tick ++ wordBytes m.time ++ wordBytes m.hash

/-- Sends a message on the MANAGEMENT class to modules of a slice; this module is not among the packet's addressees
(R415). -/
def State.onMgmt (s : State) (n : Part) (dsts : List ModIx) (bs : List Byte) : State :=
  let others := dsts.filter (fun m => decide (m ≠ s.self))
  if others.isEmpty then s
  else s.onWire 0x20 0 (s.plainPacket n others (bs ++ List.replicate ((8 - bs.length % 8) % 8) 0))

/-- Sends a management message (R415 to R417). -/
def State.sendMgmt (s : State) (t : MgmtType) (dsts : List ModIx) (m : Mgmt) (data : List Word) : State :=
  if dsts.isEmpty then s
  else (s.send (.mgmt t dsts m data)).onMgmt m.dom dsts (mgmtBody t m ++ data.flatMap wordBytes)

/-- An exchange segment as bytes (R253). -/
def exchangeBytes (kind : Nat) (g : ExSegment) : List Byte :=
  natBytes 2 0x4558 ++ natBytes 2 g.layer.toNat ++ natBytes 1 g.srcModule.val ++ natBytes 1 g.srcDie.val
    ++ natBytes 1 g.dstModule.val ++ natBytes 1 g.dstDie.val ++ natBytes 2 g.round ++ natBytes 1 kind ++ [0]
    ++ natBytes 4 g.rowsField ++ natBytes 4 g.rowBytes ++ natBytes 4 g.runs.length ++ wordBytes g.cfgHash
    ++ List.replicate 32 0 ++ g.runs.flatMap (fun r => natBytes 4 r.1 ++ natBytes 4 r.2)
    ++ g.rows.flatMap (fun r => natBytes 4 r.batchRow ++ natBytes 1 r.rank ++ List.replicate 11 0 ++ r.payload)
    ++ g.counts.flatMap (natBytes 4) ++ g.weights

/-- The `KIND` of a segment (R253). -/
def ExKind.code : ExKind → Nat
  | .dispatch => 0
  | .ret => 1
  | .ship => 2
  | .count => 3

/-- The packets of an exchange segment, of at most 4,096 bytes each, to the modules of its mask or to its destination (R253, R405,
R414). A segment of another module keeps its source and travels on directly. -/
def State.exchangePackets (s : State) (n : Part) (kind : ExKind) (g : ExSegment) : List Packet :=
  let dsts := if g.mask = 0 then [g.dstModule] else maskMods g.mask
  (runsOf 4096 (exchangeBytes kind.code g)).map (fun bs =>
    let base := s.plainPacket n dsts (bs ++ List.replicate ((8 - bs.length % 8) % 8) 0)
    let here : Packet := { base with
      stamped := true, seg := g.seg, run := g.run, tick := g.tick, srcDie := BitVec.ofNat 8 g.srcDie.val,
      dstDie := BitVec.ofNat 8 g.dstDie.val }
    if g.srcModule = s.self then here else { here with srcModule := g.srcModule, detour := false, via := 0 })

/-- Sends an exchange segment, or passes one on. -/
def State.sendExchange (s : State) (n : Part) (kind : ExKind) (g : ExSegment) : State :=
  (s.exchangePackets n kind g).foldl (fun t pk => t.onWire 0x10 3 pk) (s.send (.exchange kind g))

/-- What a module does with a stamped packet (R407). -/
inductive Stamped | discard | stale | take | hold
  deriving DecidableEq, Repr

/-- R407 for a stamp of a domain. -/
def State.stamped (s : State) (n : Part) (tick run : Nat) : Stamped :=
  let d := s.dom n
  if d.lastTick.any (fun c => decide (tick ≤ c)) || decide (tick < d.tick) then .discard
  else if d.tick < tick then .hold
  else
    match d.state with
    | .idle | .starting => .hold
    | .suspended => .discard
    | .running | .rewinding => if run < d.run then .stale else if run = d.run then .take else .hold

/-- Sends a request and records it as outstanding, with FAB.DETOURS counted for a two-leg route (R401, R404, R408). -/
def State.sendRequest (s : State) (op : PacketOp) (kind : ReqKind) (src : Source) (pk : Packet) : State :=
  let r : Request :=
    { tag := pk.tag, src := src, kind := kind, dst := pk.dstModule, part := pk.part, seg := pk.seg, run := pk.run,
      stamped := pk.stamped, len := pk.len, addr := pk.addr, detour := pk.detour, via := pk.via, members := [] }
  let s1 := { s with fab := { s.fab with reqs := s.fab.reqs ++ [r], nextTag := s.fab.nextTag + 1 } }
  (if pk.detour then s1.bump .fabDetours 0 0 1 else s1).sendPacket op pk

/-- Whether a source must hold new requests to a module: the route has changed since requests it still has outstanding there
(R403). -/
def State.routeHeld (s : State) (n : Part) (src : Source) (dst : ModIx) : Bool :=
  let now : Bool × ModIx := match s.route n dst with
    | .via m => (true, m)
    | _ => (false, 0)
  s.fab.reqs.any (fun r => decide (r.src = src ∧ r.dst = dst ∧ (r.detour, r.via) ≠ now))

/-- Requests a source has outstanding. -/
def State.outstanding (s : State) (src : Source) : Nat := (s.fab.reqs.filter (fun r => decide (r.src = src))).length

/-- The word that a dead request delivers (R412). -/
def deadWord : Word := 0xDEAD0BADDEAD0BAD

/-- What happens when a source issues a request to a module: outside the slice, unreachable, or sent (R399, R412). -/
def State.requestFault (s : State) (n : Part) (dst : ModIx) : Option Code :=
  if dst ∉ s.members n then some 0x0802
  else
    match s.route n dst with
    | .none => some 0x0811
    | _ => none

end Sys2Proof.Machine
end

