-- ==== Sys2Proof/Machine/TimeBase.lean ====
section
/-! DEFINITION. The time base (R28 to R34, R585, R586, R610). -/

namespace Sys2Proof.Machine

/-! ## The root and the parent (R28) -/

/-- Whether a link carries the time base in the rack: UP; at this module's own ports, unless R586 keeps it off. -/
def State.timeLink (s : State) (m : ModIx) (p : Port) : Bool :=
  if m = s.self then decide ((s.port p).state = .up) && !(s.port p).noTime
  else if neighbour s.extents m p = s.self then
    let q := portOpp p
    decide ((s.port q).state = .up) && !(s.port q).noTime
  else s.linkUp m p

/-- The modules one link away. -/
def State.timeNeighbours (s : State) (m : ModIx) : List ModIx :=
  ((List.finRange 6).filter (fun p => s.timeLink m p)).map (fun p => neighbour s.extents m p)

/-- Distances in hops, round by round: the modules at distance `d` and those nearer. -/
def timeRounds (s : State) : Nat → Nat → List (ModIx × Nat) → List (ModIx × Nat)
  | 0, _, acc => acc
  | k + 1, d, acc =>
    let edge := (acc.filter (fun p => decide (p.2 = d))).flatMap (fun p => s.timeNeighbours p.1)
    let fresh := (List.finRange 64).filter (fun m => edge.contains m && !(acc.any (fun p => decide (p.1 = m))))
    if fresh.isEmpty then acc else timeRounds s k (d + 1) (acc ++ fresh.map (fun m => (m, d + 1)))

/-- The modules joined to a module, with their hops from it. -/
def State.joined (s : State) (m : ModIx) : List (ModIx × Nat) := timeRounds s 64 0 [(m, 0)]

/-- The root: the lowest index among the modules joined to this one. -/
def State.timeRoot (s : State) : ModIx :=
  ((List.finRange 64).find? (fun m => (s.joined s.self).any (fun p => decide (p.1 = m)))).getD s.self

/-- The direction order of the ties: X−, Y−, Z−, X+, Y+, Z+. -/
def tieOrder : List Port := [1, 3, 5, 0, 2, 4]

/-- The port to the parent: the neighbour with the fewest hops to the root, and those hops. -/
def State.timeParent (s : State) (root : ModIx) : Option (Port × Nat) :=
  let j := s.joined root
  let c := tieOrder.filterMap (fun p =>
    if s.timeLink s.self p then (Assoc.find (neighbour s.extents s.self p) j).map (fun h => (p, h)) else none)
  c.foldl (fun b x => match b with
    | none => some x
    | some y => if x.2 < y.2 then some x else some y) none

/-- Sets the bound of CAD.TB_ERR_BOUND. -/
def State.setBound (s : State) (b : Word) : State := { s with tb := { s.tb with errBound := b } }

/-- Each enabled domain reports a code. -/
def State.eachEnabled (s : State) (f : State → Part → State) : State :=
  ((List.finRange 16).filter (fun n => s.enabled n)).foldl f s

/-- The module enters HOLDOVER, or stays there (R31): every enabled domain reports 0x0101. -/
def State.holdover (s : State) : State :=
  if s.tb.state = .holdover then s
  else State.eachEnabled { s with tb := { s.tb with state := .holdover, offset := 0 } } (fun t n => t.domReport n 0x0101)

/-- The module is the root of the joined modules and keeps its own count (R28, R31). The root's error against itself is
none. -/
def State.becomeRoot (s : State) : State :=
  { s with tb := { s.tb with state := .root, parent := none, root := some s.self, hops := 0, errBound := 0, trips := [], offset := 0 } }

/-- TBC is taken from a neighbour; another port's link has its own round trips (R28, R29). -/
def State.takeParent (s : State) (r : ModIx) (p : Port) (h : Nat) : State :=
  { s with tb := { s.tb with parent := some p, root := some r, hops := h + 1,
                             trips := if s.tb.parent = some p then s.tb.trips else [] } }

/-- The module takes its role (R585): ROOT, or ACQUIRING from its parent. -/
def State.takeRole (s : State) : State :=
  let r := s.timeRoot
  if r = s.self then s.becomeRoot
  else
    match s.timeParent r with
    | none => s
    | some (p, h) =>
      { s with tb := { s.tb with state := .acquiring, parent := some p, root := some r, hops := h + 1,
                                 errBound := 0xFFFFFFFFFFFFFFFF, trips := [], offset := 0 } }

/-- Follows the joined modules without a change of role to ACQUIRING (R28, R31): the module that is now their root becomes
ROOT; another takes the candidate parent, or is in HOLDOVER where there is none. A module joined to no other is no new
root (log 42). -/
def State.followRoot (s : State) : State :=
  let r := s.timeRoot
  if r = s.self then (if 1 < (s.joined s.self).length then s.becomeRoot else State.holdover { s with tb := { s.tb with parent := none } })
  else
    match s.timeParent r with
    | some (p, h) => s.takeParent r p h
    | none => State.holdover { s with tb := { s.tb with parent := none } }

/-- Follows a change of the links while a role is held (R31, R586): a root of lower index is taken up while no domain is
enabled; otherwise the port that leads to it carries no time base, with event 0x0E05. -/
def State.reviewRole (s : State) : State :=
  match s.tb.state with
  | .free => s
  | .acquiring => s.takeRole
  | _ =>
    let r := s.timeRoot
    let cur := s.tb.root.getD s.self
    if r < cur then
      if s.allDisabled then s.takeRole
      else
        match s.timeParent r with
        | none => s
        | some (p, _) => (s.setPort p { s.port p with noTime := true }).mgmtReport .bootCode 0x0E05 [BitVec.ofNat 8 p.val]
    else
      match s.tb.state with
      | .root => s
      | _ => s.followRoot

/-- A port leaves UP: where it led to the parent, the module is in HOLDOVER while it switches to the next candidate, without a
step in TBC; the first exchange with a bound below 100 ns ends the switch (R31). -/
def State.parentLost (s : State) (p : Port) : State :=
  if s.tb.parent ≠ some p then s else (State.holdover { s with tb := { s.tb with parent := none } }).followRoot

/-- The last domain of the module was disabled: ports kept off the time base are looked at again (R586). -/
def State.reviewAfterDisable (s : State) : State :=
  if s.allDisabled then
    ((List.finRange 6).foldl (fun t p => t.setPort p { t.port p with noTime := false }) s).reviewRole
  else s

/-! ## Exchanges (R29, R30) -/

/-- A management message with nothing but its sender. -/
def State.mgmt (s : State) (n : Part) : Mgmt :=
  { src := s.self, dom := n, run := 0, seg := 0, code := 0, module := 0, tick := 0, time := 0, hash := 0 }

/-- TIME_SYNC to the partner of a port. -/
def State.sendTime (s : State) (p : Port) (ts : List Word) : State :=
  let m := { s.mgmt 0 with time := s.now }
  (s.send (.mgmt .timeSync [neighbour s.extents s.self p] m ts)).pushBytes p 0
    (packetBytes 0x20 (s.plainPacket 0 [neighbour s.extents s.self p] (mgmtBody .timeSync m ++ ts.flatMap wordBytes)))

/-- TIME_SYNC_SEND (R29): a link that carries the time base starts an exchange with its first timestamp. -/
def execTimeSyncSend (p : Port) : State → Out :=
  lift (fun s => s.when (s.timeLink s.self p && decide (s.tb.state ≠ .free)) (fun t => t.sendTime p [t.now, 0, 0]))

/-- An exchange completes at the child: its round trip is one of the last 64, whose half mean it adds to the parent's time
(R29). In ACQUIRING TBC takes that value in one step; else it is steered there (R30, log 42). LOCKED after 64 exchanges, or on
from HOLDOVER, with a bound below 100 ns (R29, R585). -/
def State.timeFrom (s : State) (time t1 t2 t3 bound : Word) : State :=
  let trip := (s.now - t1) - (t3 - t2)
  let trips := (trip :: s.tb.trips).take 64
  let mean := ((trips.map (·.toNat)).sum / trips.length) / 2
  let target := time + BitVec.ofNat 64 mean
  let adopt := decide (s.tb.state = .acquiring) && s.allDisabled
  let st : TbState :=
    match s.tb.state with
    | .acquiring => if 64 ≤ trips.length ∧ bound.toNat < 100 then .locked else .acquiring
    | .holdover => if bound.toNat < 100 then .locked else .holdover
    | x => x
  let tbc := if adopt then target else s.tb.tbc
  { s with
    tb := { s.tb with trips := trips, errBound := bound, state := st, tbc := tbc, offset := (target - tbc).toInt }
    integ := { s.integ with clock := s.integ.clock + s.tb.tbc.toNat - tbc.toNat } }

/-- TIME_SYNC (R29, R30): from the parent it completes an exchange; from another partner it is answered with the timestamps
of its receipt and of the answer (log 42). -/
def execTimeSync (p : Port) (time t1 t2 t3 bound : Word) : State → Out :=
  lift (fun s =>
    if s.tb.parent = some p then s.timeFrom time t1 t2 t3 bound
    else s.when (s.timeLink s.self p && decide (s.tb.state ≠ .free)) (fun t => t.sendTime p [t1, t.now, t.now]))

/-- TB_UNLOCKED (R73): a bound above 1,000 ns; running domains commit their tick and are then suspended. -/
def execTbUnlocked (bound : Word) : State → Out :=
  lift (fun s =>
    let s1 := s.setBound bound
    if bound.toNat ≤ 1000 then s1
    else
      s1.eachEnabled (fun t n =>
        if (t.dom n).state = .suspended then t
        else (t.updDom n (fun d => { d with suspendAfter := some 0x0102 })).domReport n 0x0102))

/-- TB_PATH_FAIL (R32, R510): distribution moves to the spare path, with event 0x0B0C. -/
def execTbPathFail : State → Out :=
  lift (fun s =>
    if s.tb.spare then s
    else State.mgmtReport { s with tb := { s.tb with spare := true } } .derCode 0x0B0C)

/-- PTP_SYNC (R33). -/
def execPtpSync (hostTime : Word) : State → Out := lift (fun s => s.setReg .cadPtpOffset 0 0 (hostTime - s.now))

/-- Whether TBC stands at a whole second, of its own or of host time by PPS_CTRL.SRC (R34). -/
def State.wholeSecond (s : State) : Bool :=
  let t := if (s.reg .cadPpsCtrl).getLsbD 1 then s.now + s.reg .cadPtpOffset else s.now
  decide (t.toNat % 1000000000 = 0)

/-- PPS_OUT_PULSE (R34): at a whole second, while OUT_EN is 1. -/
def execPpsOutPulse : State → Out :=
  lift (fun s => s.when ((s.reg .cadPpsCtrl).getLsbD 0 && s.wholeSecond) (fun t => t.send .pps))

/-- PPS_IN_EDGE (R34, R610): a further edge within 500 ms is ignored. -/
def execPpsInEdge : State → Out :=
  lift (fun s =>
    if s.tb.edge.any (fun t => decide ((s.now - t).toNat < 500000000)) then s
    else State.setReg { s with tb := { s.tb with edge := some s.now } } .cadPpsInStamp 0 0 s.now)

/-- TB_ROLE_TIMEOUT (R585): 10 ms after READY with no port UP. -/
def execTbRoleTimeout : State → Out :=
  lift (fun s =>
    s.when (decide (s.tb.state = .free) && s.boot.ready && (List.finRange 6).all (fun p => decide ((s.port p).state ≠ .up)))
      (fun t => t.takeRole))

end Sys2Proof.Machine
end

