-- ==== Sys2Proof/Machine/Fabric.lean ====
section
/-! DEFINITION. Ports, lanes, flits, training, identity and the link-state database (R376 to R403). -/

namespace Sys2Proof.Machine

/-! ## The map (R389 to R392) -/

/-- FAB.MAP_HASH: zero for the implicit map (R389, R391). -/
def State.mapHash (s : State) : Word := if s.fab.map.isNone then 0 else shaWord s.fab.mapBytes

/-- The serial of a module's entry in the installed map. -/
def State.mapSerial (s : State) (m : ModIx) : Option (BitVec 40) := s.fab.map.bind (fun x => (x.2.2.2.getD m.val none))

/-- The record this module sends on a port (R394). -/
def State.identRecord (s : State) (p : Port) : IdentRecord :=
  { magic := 0x4B49, serial := Config.serial, port := BitVec.ofNat 8 p.val, x := BitVec.ofNat 8 (coordAt s.self 0),
    y := BitVec.ofNat 8 (coordAt s.self 1), z := BitVec.ofNat 8 (coordAt s.self 2), level := 3, features := 3,
    state := BitVec.ofNat 8 (s.port p).state.code, mapHash := s.mapHash }

/-- The 32 bytes of an identity record (R394). -/
def identBytes (r : IdentRecord) : List Byte :=
  natBytes 2 r.magic.toNat ++ natBytes 5 r.serial.toNat
    ++ [r.port, r.x, r.y, r.z, r.level, r.features, r.state, 0, 0] ++ wordBytes r.mapHash ++ List.replicate 8 0

/-- The identity record of an IDENT flit's payload (R394). -/
def identOf (bs : List Byte) : IdentRecord :=
  let b (k : Nat) : Byte := bs.getD k 0
  { magic := BitVec.ofNat 16 (fieldNat bs 0 2), serial := BitVec.ofNat 40 (fieldNat bs 2 5), port := b 7, x := b 8, y := b 9,
    z := b 10, level := b 11, features := b 12, state := b 13, mapHash := BitVec.ofNat 64 (fieldNat bs 16 8) }

/-- Sends an IDENT flit. -/
def State.sendIdent (s : State) (p : Port) : State :=
  s.sendFlit p .ident (flitWithCrc .ident { flitEmpty with ack := (s.port p).rxSeq, payload := identBytes (s.identRecord p) })

/-- The IDENT flits of a passing of time: every 1 µs in IDENT, every 1 ms in MISWIRED and VERSION_HOLD (R394 to R396, log 107). -/
def State.identTick (s : State) : State :=
  let us := decide (s.now.toNat % 1000 = 0)
  let ms := decide (s.now.toNat % 1000000 = 0)
  (List.finRange 6).foldl (fun t p =>
    match (t.port p).state with
    | .ident => t.when us (fun u => u.sendIdent p)
    | .miswired | .versionHold => t.when ms (fun u => u.sendIdent p)
    | _ => t) s

/-! ## Link state (R398) -/

/-- Sends a message over every UP port but one (R398). -/
def State.flood (s : State) (m : Mgmt) (data : List Word) (but : Option Port) : State :=
  let ps := (List.finRange 6).filter (fun p => decide ((s.port p).state = .up) && decide (some p ≠ but))
  if ps.isEmpty then s
  else
    let s1 := s.send (.mgmt .linkState (ps.map (neighbour s.extents s.self)) m data)
    ps.foldl (fun t p =>
      t.pushBytes p 0 (packetBytes 0x20 (t.plainPacket 0 [neighbour t.extents t.self p]
        (mgmtBody .linkState m ++ data.flatMap wordBytes)))) s1

/-- The module's own LINK_STATE. -/
def State.sendLinkState (s : State) : State :=
  let n := s.fab.lsSeq + 1
  let m := { s.mgmt 0 with module := s.self.val, time := s.now }
  State.flood { s with fab := { s.fab with lsSeq := n } } m
    (n :: (List.finRange 6).map (fun p => (s.port p).status)) none

/-- Route tables are recomputed (R398). -/
def State.routesChanged (s : State) : State := (s.bump .fabRouteEpoch 0 0 1).mgmtReport .fabCode 0x0807

/-- What follows a port's entering or leaving UP (R31, R398, R586). -/
def State.portMoved (s : State) (p : Port) (was now : PortState) : State :=
  if was = now then s
  else
    let s1 := if was = .up ∨ now = .up then s.sendLinkState.routesChanged else s
    if was = .up then s1.parentLost p
    else if now = .up then (if s1.tb.state = .free ∧ s1.tb.runs then s1.takeRole else s1.reviewRole)
    else s1

/-- Changes a port, with what follows for its state. -/
def State.movePort (s : State) (p : Port) (x : FabPort) : State :=
  let was := (s.port p).state
  (s.setPort p x).portMoved p was x.state

/-- The port goes DOWN, to train again: what its buffers hold is lost (R385). -/
def FabPort.dropped (x : FabPort) (st : PortState) : FabPort :=
  { FabPort.init with state := st, idents := x.idents }

/-- A port goes DOWN (R385, R426). -/
def State.portDown (s : State) (p : Port) (event : Bool) : State :=
  let x := s.port p
  if x.state = .down ∨ x.state = .disabled then s
  else
    let s1 := (s.movePort p (x.dropped .down)).bump .fabLinkDowns 0 p.val 1
    if event then s1.mgmtReport .fabCode 0x0801 [BitVec.ofNat 8 p.val] else s1

/-! ## Evaluation (R392, R394 to R397) -/

/-- Whether a port's dimension has extent 1 (R392). -/
def State.flatPort (s : State) (p : Port) : Bool := decide (axisOf s.extents (portAxis p) = 1)

/-- The state in which a partner's record leaves a port. -/
def State.evaluate (s : State) (p : Port) (r : IdentRecord) : PortState × Option WireReason :=
  let want := neighbour s.extents s.self p
  if r.level.toNat < 2 ∨ 4 < r.level.toNat then (.versionHold, none)
  else if r.port.toNat ≠ (portOpp p).val then (.miswired, some .port)
  else if s.fab.map.isSome ∧ s.mapSerial want ≠ some r.serial then (.miswired, some .serial)
  else if r.x.toNat ≠ coordAt want 0 ∨ r.y.toNat ≠ coordAt want 1 ∨ r.z.toNat ≠ coordAt want 2 then (.miswired, some .coord)
  else if r.mapHash ≠ s.mapHash then (.miswired, some .map)
  else (.up, none)

/-- Evaluates a port by its partner's record, with events 0x0803 and 0x0804 where the outcome is new (R394 to R396). -/
def State.evaluatePort (s : State) (p : Port) (r : IdentRecord) : State :=
  let x := s.port p
  let v := s.evaluate p r
  let x1 :=
    if v.1 = .up then
      { x with state := .up, reason := none, level := min 3 r.level.toNat, features := 3 &&& r.features }
    else if v.1 = .miswired then { x with state := v.1, reason := v.2, level := 0, features := 0 }
    else { x with state := v.1, reason := v.2, level := 0, features := 0, retry := [], waiting := [], credits := [],
                  txSeq := 0, rxSeq := 0xFFF, naked := false, moving := false }
  let s1 := s.movePort p x1
  if x.state = v.1 ∧ x.reason = v.2 then s1
  else
    match v with
    | (.miswired, w) =>
      s1.mgmtReport .fabCode 0x0803
        ([BitVec.ofNat 8 p.val, BitVec.ofNat 8 (wireCode w)] ++ natBytes 5 r.serial.toNat)
    | (.versionHold, _) => s1.mgmtReport .fabCode 0x0804 [BitVec.ofNat 8 p.val, 3, r.level]
    | _ => s1

/-- An identity record arrives (R394 to R396): three identical ones end the stage; afterwards a changed record evaluates the port
again. -/
def State.takeIdent (s : State) (p : Port) (r : IdentRecord) : State :=
  let x := s.port p
  if r.magic ≠ 0x4B49 then s
  else
    let last := x.idents.head?
    let ids := if last = some r then (r :: x.idents).take 3 else [r]
    let s1 := s.setPort p { x with idents := ids }
    match x.state with
    | .ident => if ids.length = 3 ∧ 2 ≤ r.state.toNat ∧ r.state.toNat ≤ 5 then s1.evaluatePort p r else s1
    | .miswired | .versionHold | .up => if last = some r then s1 else s1.evaluatePort p r
    | _ => s

/-! ## Training (R392, R394, R426) -/

/-- Whether a port may train: enabled, and in a dimension of more than one module. -/
def State.mayTrain (s : State) (p : Port) : Bool := (s.reg .fabPortCtrl 0 p.val).getLsbD 0 && !s.flatPort p

/-- PORT_TRAIN (R394): a DOWN port starts with PHY. -/
def execPortTrain (p : Port) : State → Out :=
  lift (fun s =>
    s.when (decide ((s.port p).state = .down) && s.mayTrain p)
      (fun t => t.setPort p { FabPort.init with state := .training, stage := .phy }))

/-- The lanes in use of a mask of healthy ones: the 16 lowest, or the 8 lowest, or too few (R380). -/
def lanesOf (healthy : BitVec 18) : Option (List Nat) :=
  let l := (List.range 18).filter (fun k => healthy.getLsbD k)
  if 16 ≤ l.length then some (l.take 16) else if 8 ≤ l.length then some (l.take 8) else none

/-- A port runs 8 lanes: event 0x0806 (R380). -/
def State.degraded (s : State) (p : Port) : State := s.mgmtReport .fabCode 0x0806 [BitVec.ofNat 8 p.val]

/-- The lanes a lane check leaves in use: a pattern was found on them, and no more symbols were corrected than
FAB.LANE_SER_LIMIT (R378, R394). -/
def State.healthyLanes (s : State) (x : FabPort) (f : TrainFind) : BitVec 18 :=
  let ok (k : Nat) : Bool := (x.found.getD k none).isSome && decide (f.counts.getD k 0 ≤ s.regN .fabLaneSerLimit)
  BitVec.ofNat 18 (((List.range 18).filter ok).map (fun k => 2 ^ k)).sum

/-- TRAIN_STAGE_COMPLETE (R378, R380, R394): PHY, which finds the permutation and the polarities; lane check with the width chosen;
codeword lock; IDENT. -/
def execTrainStageComplete (p : Port) (f : TrainFind) : State → Out :=
  lift (fun s =>
    let x := s.port p
    if x.state ≠ .training then s
    else
      match x.stage with
      | .phy => s.setPort p { x with stage := .laneCheck, found := f.seen }
      | .laneCheck =>
        let healthy := s.healthyLanes x f
        match lanesOf healthy with
        | none => s.portDown p false
        | some l =>
          let s1 := s.setPort p { x with stage := .lock, healthy := healthy, lanes := l }
          if l.length = 8 then s1.degraded p else s1
      | .lock => (s.setPort p { x with state := .ident, stage := .ident, idents := [] }).sendIdent p
      | .ident => s)

/-- TRAIN_STAGE_TIMEOUT (R394): the port starts over. -/
def execTrainStageTimeout (p : Port) : State → Out :=
  lift (fun s => s.when (decide ((s.port p).state = .training ∨ (s.port p).state = .ident)) (fun t => t.portDown p false))

/-- The effect of FAB_PORT_RETRAIN (R426). -/
def State.writeRetrain (s : State) (p : Port) (value : Word) : State :=
  s.when (value.getLsbD 0) (fun t => t.portDown p true)

/-- FAB_PORT_RETRAIN (R426). -/
def execFabPortRetrain (p : Port) (value : Word) : State → Out := lift (fun s => s.writeRetrain p value)

/-- The effect of FAB_PORT_CTRL_WRITE (R426). -/
def State.writePortCtrl (s : State) (p : Port) (value : Word) : State :=
  let s1 := s.setReg .fabPortCtrl 0 p.val (value &&& 1)
  let x := s1.port p
  if value.getLsbD 0 then
    if x.state = .disabled ∧ !s1.flatPort p then s1.setPort p (x.dropped .down) else s1
  else (s1.portDown p true).movePort p (x.dropped .disabled)

/-- FAB_PORT_CTRL_WRITE (R426). -/
def execFabPortCtrlWrite (p : Port) (value : Word) : State → Out := lift (fun s => s.writePortCtrl p value)

/-! ## Lanes (R379, R380) -/

/-- Whether a port is UP. -/
def State.portUp (s : State) (p : Port) : Bool := decide ((s.port p).state = .up)

/-- LANE_CTL names the spare lane and the pair of codewords from which the other end uses it (R379). -/
def State.sendLaneCtl (s : State) (p : Port) (lane spare pair : Nat) : State :=
  s.sendFlit p .laneCtl (flitWithCrc .laneCtl { flitEmpty with
    ack := (s.port p).rxSeq, payload := (List.range 240).map (Config.laneCtlByte lane spare pair) })

/-- A lane is retired: its logical lane moves to a spare, and LANE_CTL flits name the spare and the codeword pair; with no
spare the port runs 8 lanes, or goes DOWN. -/
def State.retireLane (s : State) (p : Port) (lane : Nat) : State :=
  let x := s.port p
  let x1 := { x with failed := x.failed ||| BitVec.ofNat 18 (2 ^ lane) }
  let free := (List.range 18).find? (fun k => x1.healthy.getLsbD k && !x1.failed.getLsbD k && !x1.lanes.contains k)
  match free with
  | some k =>
    let r := s.fresh
    let x2 := { x1 with lanes := x1.lanes.map (fun l => if l = lane then k else l), moving := true }
    (((r.2.setPort p x2).writeRepair).sendLaneCtl p (x.lanes.idxOf lane) k r.1.toNat).mgmtReport .fabCode 0x0805
      [BitVec.ofNat 8 p.val, BitVec.ofNat 8 lane, BitVec.ofNat 8 k]
  | none =>
    match lanesOf (x1.healthy &&& ~~~x1.failed) with
    | none => s.portDown p true
    | some l => ((s.setPort p { x1 with lanes := l }).writeRepair).degraded p

/-- LANE_SER_WINDOW (R379): corrected symbols are counted, and a lane above the limit is retired. -/
def execLaneSerWindow (p : Port) (lane : Fin 18) (count : Nat) : State → Out :=
  lift (fun s =>
    let s1 := s.bump .fabFecCorrected 0 p.val count
    s1.when (decide ((s1.port p).state = .up) && (s1.port p).lanes.contains lane.val
        && decide (s1.regN .fabLaneSerLimit < count)) (fun t => t.retireLane p lane.val))

/-- LANE_LOCK_LOSS (R379). -/
def execLaneLockLoss (p : Port) (lane : Fin 18) : State → Out :=
  lift (fun s => s.when (decide ((s.port p).state = .up) && (s.port p).lanes.contains lane.val)
    (fun t => t.retireLane p lane.val))

/-- LANE_MOVE_TIMEOUT (R379). -/
def execLaneMoveTimeout (p : Port) : State → Out :=
  lift (fun s => s.when (s.port p).moving (fun t => t.portDown p true))

/-! ## Flits (R383 to R386) -/

/-- Whether the codewords of a flit decode (R381, R383). -/
def flitDecodes (f : Flit) : Bool := f.errs.all (fun e => decide (e ≤ rsCorrects))

/-- Whether a flit is accepted as one of a type: its codewords decode, its CRC matches and its `TYPE` is that one (R383). -/
def flitOk (k : FlitKind) (f : Flit) : Bool :=
  flitDecodes f && decide (f.crc = crc32 (flitBody f)) && decide (f.typ.toNat = k.code)

/-- The flits not covered by an acknowledgement. -/
def afterAck (a : BitVec 12) (l : List Flit) : List Flit :=
  match l.findIdx? (fun f => decide (f.seq = a)) with
  | some i => l.drop (i + 1)
  | none => l

/-- Takes the acknowledgement of an accepted flit, and its credits (R384, R386); a lane move ends with it (log 41). -/
def State.noteAck (s : State) (p : Port) (f : Flit) : State :=
  let x := s.port p
  s.setPort p { x with retry := afterAck f.ack x.retry, moving := false,
                       credits := Assoc.put f.creditVc (x.credit f.creditVc + f.credits.toNat) x.credits }

/-- Takes an acknowledgement, and sends what can go now. -/
def State.takeAck (s : State) (p : Port) (f : Flit) : State := (s.noteAck p f).pump p

/-- Whether a port carries flits of the packet stream (R395). -/
def State.portCarries (s : State) (p : Port) : Bool := (s.port p).carriesClass 0

/-- Sends NAK once, until the expected flit comes (R384, R426). -/
def State.sendNak (s : State) (p : Port) : State :=
  let x := s.port p
  if x.naked ∨ !s.portCarries p then s
  else
    ((s.setPort p { x with naked := true }).bump .fabNaks 0 p.val 1).sendFlit p .nak
      (flitWithCrc .nak { flitEmpty with ack := x.rxSeq })

/-- A flit that is not accepted: its codewords that did not decode are counted, and it is answered with a NAK (R384, R426). -/
def State.badFlit (s : State) (p : Port) (f : Flit) : State :=
  (s.bump .fabFecUncorrected 0 p.val (f.errs.filter (fun e => decide (rsCorrects < e))).length).sendNak p

/-- DATA_FLIT (R384, R386): the next in sequence is accepted, acknowledged and its credit returned in an IDLE flit; any other
is discarded with a NAK. A MISWIRED port takes none but of the MANAGEMENT class (R395). -/
def execDataFlit (p : Port) (fl : Flit) : State → Out :=
  lift (fun s =>
    if !s.portCarries p then s
    else if !flitOk .data fl then s.badFlit p fl
    else
      let x := s.port p
      if !x.carriesClass (vcClass fl.vc) then s
      else if fl.seq = x.rxSeq + 1 then
        let s1 := ((s.setPort p { x with rxSeq := fl.seq, naked := false }).bump .fabRxFlits 0 p.val 1).takeAck p fl
        s1.sendFlit p .idle (flitWithCrc .idle { flitEmpty with ack := fl.seq, creditVc := fl.vc, credits := 1 })
      else s.sendNak p)

/-- NAK (R384): the sender sends again from `ACK` + 1. -/
def execNak (p : Port) (fl : Flit) : State → Out :=
  lift (fun s =>
    if !s.portCarries p then s
    else if !flitOk .nak fl then s.badFlit p fl
    else
      let again := afterAck fl.ack (s.port p).retry
      (again.foldl (fun t g => (t.bump .fabTxFlits 0 p.val 1).sendFlit p .data g) (s.noteAck p fl)).pump p)

/-- IDLE_FLIT (R384). -/
def execIdleFlit (p : Port) (fl : Flit) : State → Out :=
  lift (fun s =>
    if !s.portCarries p then s
    else if !flitOk .idle fl then s.badFlit p fl
    else s.takeAck p fl)

/-- IDENT (R383, R394 to R396). -/
def execIdent (p : Port) (fl : Flit) : State → Out :=
  lift (fun s =>
    if !flitOk .ident fl then s.badFlit p fl
    else (s.takeIdent p (identOf fl.payload)).when (s.portCarries p) (fun t => t.takeAck p fl))

/-- LANE_CTL (R379, R383): the partner retired a lane; this end sends it on the spare named. -/
def execLaneCtl (p : Port) (lane : Fin 16) (spare : Fin 18) (c : LaneCtlFlit) : State → Out :=
  lift (fun s =>
    if !s.portUp p then s
    else if !flitOk .laneCtl c.flit then s.badFlit p c.flit
    else
      let s1 := s.takeAck p c.flit
      let x := s1.port p
      s1.when (decide (lane.val < x.lanes.length) && decide (x.lanes.getD lane.val 99 ≠ spare.val))
        (fun t =>
          (t.setPort p { x with failed := x.failed ||| BitVec.ofNat 18 (2 ^ x.lanes.getD lane.val 0),
                                lanes := modNth (fun _ => spare.val) lane.val x.lanes, moving := true }).mgmtReport .fabCode 0x0805
            [BitVec.ofNat 8 p.val, BitVec.ofNat 8 (x.lanes.getD lane.val 0), BitVec.ofNat 8 spare.val]))

/-- LINK_NAK_LIMIT (R385). -/
def execLinkNakLimit (p : Port) : State → Out := lift (fun s => s.when (s.portUp p) (fun t => t.portDown p true))

/-- LINK_RX_TIMEOUT (R379, R385): not counted while a lane moves. -/
def execLinkRxTimeout (p : Port) : State → Out :=
  lift (fun s => s.when (s.portUp p && !(s.port p).moving) (fun t => t.portDown p true))

/-! ## LINK_STATE (R398) -/

/-- LINK_STATE: a higher sequence number replaces the entry and is passed on over the other UP ports; a change of the
database recomputes the routes. -/
def execLinkState (m : Mgmt) (seqNo : Word) (ports : List Word) : State → Out :=
  lift (fun s =>
    let k : ModIx := Fin.ofNat 64 m.module
    if k = s.self then s
    else
      let old := Assoc.find k s.fab.lsdb
      if old.any (fun l => decide (seqNo.toNat ≤ l.seqNo.toNat)) then s
      else
        let s1 := { s with fab := { s.fab with lsdb := Assoc.put k ⟨seqNo, ports⟩ s.fab.lsdb } }
        let s2 := s1.flood m (seqNo :: ports) none
        if old.map (·.ports) = some ports then s2 else s2.routesChanged.reviewRole)

/-- LINK_STATE_TIMER (R398). -/
def execLinkStateTimer : State → Out := lift (fun s => s.sendLinkState)

/-! ## FABRIC_MAP (R389, R390) -/

/-- The entries of a map record. -/
def mapEntries (bs : List Byte) : List (Option (BitVec 40)) :=
  (List.range 64).map (fun i =>
    if (bs.getD (32 + 8 * i + 7) 0).getLsbD 7 then some (BitVec.ofNat 40 (fieldNat bs (32 + 8 * i) 5)) else none)

/-- Whether a map is refused (R390). -/
def mapBad (bs : List Byte) : Bool :=
  let e (k : Nat) : Nat := fieldNat bs (6 + k) 1
  let es := mapEntries bs
  let present := (List.range 64).filter (fun i => (es.getD i none).isSome)
  decide (bs.length ≠ 544) || decide (fieldNat bs 0 4 ≠ 0x4B464D50) || decide (fieldNat bs 4 2 ≠ 1)
    || [0, 1, 2].any (fun k => decide (e k = 0) || decide (4 < e k)) || decide (fieldNat bs 9 23 ≠ 0)
    || (List.range 64).any (fun i => decide (fieldNat bs (32 + 8 * i + 5) 3 % 2 ^ 23 ≠ 0))
    || present.any (fun i => decide (e 0 ≤ i % 4) || decide (e 1 ≤ i / 4 % 4) || decide (e 2 ≤ i / 16))
    || present.any (fun i => present.any (fun j => decide (i < j) && decide (es.getD i none = es.getD j none)))
    || !(present.any (fun i => decide (es.getD i none = some Config.serial)))

/-- The module that a map makes this one. -/
def mapSelf (bs : List Byte) : Option ModIx :=
  (List.finRange 64).find? (fun m => decide ((mapEntries bs).getD m.val none = some Config.serial))

/-- A map applies: ports of a dimension of extent 1 are DISABLED, others may train, and every port is evaluated again
(R390, R392). -/
def State.installMap (s : State) (bs : List Byte) : State :=
  let s1 := { s with fab := { s.fab with
    map := some (fieldNat bs 6 1, fieldNat bs 7 1, fieldNat bs 8 1, mapEntries bs), index := mapSelf bs, mapBytes := bs } }
  (List.finRange 6).foldl (fun t p =>
    let x := t.port p
    if t.flatPort p then (if x.state = .disabled then t else (t.portDown p true).movePort p (x.dropped .disabled))
    else
      match x.state, x.idents.head? with
      | .disabled, _ => if (t.reg .fabPortCtrl 0 p.val).getLsbD 0 then t.setPort p (x.dropped .down) else t
      | .up, some r | .miswired, some r | .versionHold, some r => t.evaluatePort p r
      | _, _ => t) s1

end Sys2Proof.Machine
end

