-- ==== Sys2Proof/Machine/Cadence.lean ====
section
/-! DEFINITION. The time base and the cadence commands (02): link exchanges, PPS, ticks, votes, retraction, abort. -/

namespace Sys2Proof.Machine

/-- TBC counts a nanosecond; where it lacks part of the parent's time, or runs ahead of it, one nanosecond of that is steered away
with it, so that TBC neither steps back nor jumps (R29, R30, log 42). -/
def TimeBase.count (t : TimeBase) : TimeBase :=
  if 0 < t.offset then { t with tbc := t.tbc + 2, offset := t.offset - 1 }
  else if t.offset < 0 then { t with offset := t.offset + 1 }
  else { t with tbc := t.tbc + 1 }

/-- What the block does on an empty queue: TBC counts 1 ns where it runs, and the ports send the IDENT flits that then fall due
(R28, R394 to R396, log 1, log 107). -/
def idle (s : State) : State := if s.tb.runs then State.identTick { s with tb := s.tb.count } else s

end Sys2Proof.Machine
end

