-- ==== Sys2Proof/Machine/Operands.lean ====
section
/-! DEFINITION. Operands of sequencer instructions: registers, guards, addresses, the program counter with its loops, and
the one operation by which an instruction issues (R190 to R201, R212, R221 to R225). -/

namespace Sys2Proof.Machine

/-! ## Register operands -/

/-- A register number as an index. -/
def ix5 (r : BitVec 5) : Fin 32 := ⟨r.toNat, r.isLt⟩
def ix3 (r : BitVec 3) : Fin 8 := ⟨r.toNat, r.isLt⟩

/-- A scalar register; s0 reads as zero (R190). -/
def Core.rdS (x : Core) (r : BitVec 5) : Word := if r = 0 then 0 else x.s.get (ix5 r)

/-- Forgets the pending late results of a register that is written now: it keeps the later value (R212). -/
def lateWithout (d : Dest) (l : List (Nat × Dest)) : List (Nat × Dest) :=
  l.map (fun p => if p.2 = d then (p.1, .none) else p)

/-- Writes a scalar register; a write to s0 is discarded (R190). -/
def Core.wrS (x : Core) (r : BitVec 5) (v : Word) : Core :=
  if r = 0 then x else { x with s := x.s.set (ix5 r).val v (ix5 r).isLt, late := lateWithout (.s r) x.late }

/-- A predicate; p0 reads as 1 (R190). -/
def Core.rdP (x : Core) (r : BitVec 3) : Bool := if r = 0 then true else x.p.get (ix3 r)

/-- Writes a predicate; a write to p0 is discarded (R190). -/
def Core.wrP (x : Core) (r : BitVec 3) (v : Bool) : Core :=
  if r = 0 then x else { x with p := x.p.set (ix3 r).val v (ix3 r).isLt }

/-- A tile descriptor register. -/
def Core.rdTd (x : Core) (r : BitVec 5) : Desc := x.td.get (ix5 r)

/-- Writes a tile descriptor register. -/
def Core.wrTd (x : Core) (r : BitVec 5) (v : Desc) : Core :=
  { x with td := x.td.set (ix5 r).val v (ix5 r).isLt, late := lateWithout (.td r) x.late }

/-- Whether a register waits for a late result (R212). -/
def Core.isLate (x : Core) (d : Dest) : Bool := x.late.any (fun p => decide (p.2 = d))

/-- The low 3 bits of a register field that names a predicate (R195). -/
def pn (r : BitVec 5) : BitVec 3 := r.setWidth 3

/-- Whether a predicate field has a reserved bit set (R195). -/
def pnBad (r : BitVec 5) : Bool := decide (8 ≤ r.toNat)

/-- The guard of R193. -/
def Core.guardPasses (x : Core) (g : BitVec 4) : Bool := xor (x.rdP (g.setWidth 3)) (g.getLsbD 3)

/-! ## Addresses -/

/-- A scalar used as an address (R197): its module (none for this module's local space) and its local address, where it
is well formed and aligned. -/
def addrForm (w : Word) (align : Nat) : Option (Option ModIx × Nat) :=
  if bits w 63 57 ≠ 0 then none
  else if bits w 49 0 % align ≠ 0 then none
  else if w.getLsbD 56 then some (some (w.extractLsb' 50 6).toFin, bits w 49 0)
  else if bits w 55 50 ≠ 0 then none
  else some (none, bits w 49 0)

/-! ## The program -/

/-- The opcode of an instruction word (R193). -/
def opcodeOf (w : Word) : Nat := bits w 63 56

/-- Whether the word at each index is the literal of the word before it (R193). -/
def literalMap : Bool → List Word → List Bool
  | _, [] => []
  | true, _ :: l => true :: literalMap false l
  | false, w :: l => false :: literalMap (decide (opcodeOf w = 0x1E ∨ opcodeOf w = 0x36)) l

/-- Whether control at a word is outside the code or on a literal (R225). -/
def Program.badPc (p : Program) (pc : Nat) : Bool :=
  match (literalMap false p.code)[pc]? with
  | none => true
  | some b => b

/-! ## The program counter -/

/-- The loop frames of the present routine, innermost first: those above the depth at its call (R190, R225). -/
def Core.openLoops (x : Core) : Nat :=
  match x.calls with
  | [] => x.loops.length
  | f :: _ => x.loops.length - f.depth

/-- Control reaches the word `nxt` in sequence: pass ends of the loops whose body ends there (R221, R223). `none` is the
fault 0x0306. -/
def Core.flow : Nat → Core → Nat → Option Core
  | 0, x, nxt => some { x with pc := nxt }
  | k + 1, x, nxt =>
    match x.loops with
    | [] => some { x with pc := nxt }
    | f :: rest =>
      if x.openLoops = 0 ∨ nxt ≠ f.last + 1 then some { x with pc := nxt }
      else
        let again := match f.count with
          | some n => decide (f.pass + 1 < n)
          | none => x.rdP f.pred
        if again then
          if f.count.isNone && decide (4 * f.bound ≤ f.pass + 1) then none
          else
            some (Core.wrS { x with loops := { f with pass := f.pass + 1 } :: rest, pc := f.first } f.index
              (BitVec.ofNat 64 (f.pass + 1)))
        else Core.flow k { x with loops := rest } nxt

/-- The next instruction in sequence, `n` words on. -/
def State.advance (s : State) (c : CoreId) (n : Nat) : State :=
  let x := s.core c
  match x.flow 9 (x.pc + n) with
  | some y => s.setCore c y
  | none => s.kill c 0x0306

/-- A jump. -/
def State.jump (s : State) (c : CoreId) (pc : Nat) : State := s.updCore c (fun x => { x with pc := pc })

/-! ## Issue -/

/-- Whether a core's sequencer can issue: a step runs on it, it waits for nothing, its segment is not killed. -/
def Core.canIssue (x : Core) : Bool := x.running && x.wait.isNone && x.killed.isNone

/-- What an instruction gives to issue: guard, words, a reserved bit or code set, whether it may run inside an audit unit
(R230), and the registers it reads. -/
structure IssueForm where
  guard : BitVec 4
  words : Nat
  reserved : Bool
  inAudit : Bool
  reads : List Dest

/-- Issue of one instruction (R193 to R196, R212, R225, R230): nothing while the sequencer cannot issue or a register it
reads waits for a late result; 0x0303, 0x0302 and 0x030E as their rules say; a failed guard skips; otherwise the
instruction's own effect, which moves the program counter itself. -/
def issue (c : CoreId) (i : IssueForm) (skip : Nat) (body : State → State) (s : State) : State :=
  let x := s.core c
  if !x.canIssue || s.pw.down.isSome then s
  else
    let n := (s.partOf c).getD 0
    if (s.program n).any (fun p => p.badPc x.pc) then s.kill c 0x0303
    else if i.reserved then s.kill c 0x0302
    else if !x.guardPasses i.guard then s.advance c skip
    else if x.audit.isSome && !i.inAudit then s.kill c 0x030E
    else if i.reads.any x.isLate then s
    else body s

/-- The body of an instruction that only changes its core and goes on. -/
def onCore (c : CoreId) (words : Nat) (f : Core → Core) (s : State) : State := (s.updCore c f).advance c words

/-- Issue of a one-word instruction. -/
def issue1 (c : CoreId) (guard : BitVec 4) (reserved inAudit : Bool) (reads : List Dest) (body : State → State)
    (s : State) : State := issue c ⟨guard, 1, reserved, inAudit, reads⟩ 1 body s

end Sys2Proof.Machine
end

