-- ==== Sys2Proof/Machine/Streams.lean ====
section
/-! DEFINITION. Streams and their rings (R158 to R166), the checks of a tile descriptor (R169 to R171), and what a station
command answers when its station tries to run it. -/

namespace Sys2Proof.Machine

/-! ## Rings -/

/-- Granules of a tile in a ring: its header and its payload (R160). -/
def Tile.granules (t : Tile) : Nat := 1 + (t.payload.length + 63) / 64

/-- Granules of a ring (R159). -/
def Stream.capacity (x : Stream) : Nat := 2 ^ x.rlog.toNat / 64

/-- Granules occupied. -/
def Stream.used (x : Stream) : Nat := (x.tiles.map Tile.granules).sum

/-- A stream of a core, if its handle is open. -/
def Core.stream (x : Core) (q : BitVec 4) : Option Stream := Assoc.find q x.streams

/-- The format of a stream or a descriptor code. -/
def fmtOf (c : Nat) : Fmt := (Fmt.ofCode c).getD .bf16

/-- Whether a tile fits a stream's ring now; it never fits where it is larger than the ring (R160, R161). -/
inductive Room | fits | waits | tooLarge
  deriving DecidableEq, Repr

/-- The room of a stream for a tile: a producer waits while its ring has no free granule (R161). A tile is put in whole, so the
ring may hold more than its granules for a time; its producer is then still at work (`Core.overfull`). -/
def Core.room (x : Core) (q : BitVec 4) (t : Tile) : Room :=
  match x.stream q with
  | none => .waits
  | some st =>
    if st.capacity < t.granules then .tooLarge
    else if st.used < st.capacity then .fits
    else .waits

/-- Whether an output port is still putting a tile into a ring that is full (R161). -/
def Core.overfull (x : Core) (port : BitVec 4) : Bool :=
  x.streams.any (fun p => decide (p.2.prod = port) && decide (p.2.capacity < p.2.used))

/-- Granules of a ring that are occupied (R189): at most all. -/
def Stream.fill (x : Stream) : Nat := min x.used x.capacity

/-- Puts a tile in a stream; the stream's sticky status takes its flags (R163, R165). -/
def Core.pushTile (x : Core) (q : BitVec 4) (t : Tile) : Core :=
  match x.stream q with
  | none => x
  | some st =>
    let st' := { st with tiles := st.tiles ++ [t], sticky := st.sticky ||| descStatus t.desc }
    { x with streams := Assoc.put q st' x.streams }

/-- The next tile of a stream. -/
def Core.headTile (x : Core) (q : BitVec 4) : Option Tile := (x.stream q).bind (·.tiles.head?)

/-- Takes the next tile of a stream (R163). -/
def Core.popTile (x : Core) (q : BitVec 4) : Core :=
  match x.stream q with
  | none => x
  | some st => { x with streams := Assoc.put q { st with tiles := st.tiles.tail } x.streams }

/-- A result tile: format, shape, anchor and status in its header (R160, R167). -/
def mkTile (f : Fmt) (rows cols : Nat) (anchor : BitVec 16) (status : BitVec 7) (payload : List Byte) (outl : Bool) :
    Tile :=
  let d0 : Desc := descSet (descSet (descSet 0 56 4 f.code) 64 16 rows) 80 20 cols
  ⟨descSet (descSet d0 224 16 anchor.toNat) 249 7 status.toNat, payload, outl⟩

/-- A tile whose header carries the outlier capacity of its output descriptor (R132, R160, R167). -/
def Tile.withOcap (t : Tile) (td : Desc) : Tile := { t with desc := descSet t.desc 240 9 (descOcap td) }

/-- A descriptor with the shape of a tile, through which a store opens it (R169, R182). -/
def Tile.through (t : Tile) (d : Desc) : Desc := descSet (descSet d 64 16 (descRows t.desc)) 80 20 (descCols t.desc)

/-- A tile's format, shape and anchor. -/
def Tile.fmt (t : Tile) : Fmt := fmtOf (descFmt t.desc)
def Tile.rows (t : Tile) : Nat := descRows t.desc
def Tile.cols (t : Tile) : Nat := descCols t.desc
def Tile.anchor (t : Tile) : BitVec 16 := t.desc.extractLsb' 224 16

/-- A tile taken apart. -/
def Tile.view (t : Tile) : TileView := viewTile t.fmt t.rows t.cols t.payload t.outl

/-! ## What a station command answers -/

/-- A station command ran; or it has started and waits, on a stream or on something else; or it cannot start, and no command
behind it in its queue can (R214). -/
inductive Ran
  | done (s : State)
  | waits (onStream : Bool)
  | held

/-! ## Checks of a descriptor -/

/-- The window of the local map in which an address lies (R307). -/
def windowOf (a : Nat) : Nat :=
  if a < cxlBase then 0
  else if a < dieBase then 1 + (a - cxlBase) / 0x10000000000
  else if a < 0x20E0000000000 then 1000 + (a - dieBase) / 0x10000000
  else if a < siteBase then 10000000 + (a - 0x20E0000000000) / 0x10000000000
  else if a < 0x2200000000000 then 20000000 + (a - siteBase) / 0x400000
  else if a < 0x3000000000000 then 600000000 + (a - 0x2200000000000) / 0x400000
  else 2000000000

/-- The local address of a descriptor: bits 49:0. -/
def descLocal (d : Desc) : Nat := descAddr d % 2 ^ 50

/-- An array of a tile in memory, from an offset of `ADDR`. -/
def descArray (d : Desc) (off : Int) : Int := (descLocal d : Int) + off

/-- Whether an array of `n` bytes leaves the module or the window that holds `ADDR` (R169). -/
def arrayLeaves (d : Desc) (off : Int) (n : Nat) : Bool :=
  let a := descArray d off
  decide (a < 0) || decide ((2 ^ 50 : Int) < a + n) || decide (windowOf a.toNat ≠ windowOf (descLocal d))
    || decide (windowOf (a.toNat + n - 1) ≠ windowOf (descLocal d))

/-- Bytes of one stored line (R169). -/
def descLine (f : Fmt) (d : Desc) : Nat :=
  if descTrans d then descRows d * f.rowBytes 1 else f.rowBytes (descCols d)

/-- The payload checks of R169. -/
def payloadBad (f : Fmt) (d : Desc) (listed : Bool) : Bool :=
  let rows := descRows d
  decide (descLocal d % f.align ≠ 0) || decide (descStride d < descLine f d)
    || (decide (f.block ≠ 0) && decide (descStride d % f.blockBytes ≠ 0))
    || (decide (f.block ≠ 0) && decide (descCols d ≠ 0)
        && arrayLeaves d (descScaleOff d) ((rows - 1) * (descStride d / f.blockBytes) + f.blocks (descCols d)))
    || (f.w2 && arrayLeaves d (descRscaleOff d) (2 * rows))
    || (decide (f = .l64) && decide (descRscaleOff d ≠ 0) && decide (descCols d ≠ 0)
        && arrayLeaves d (descRscaleOff d) (2 * descCols d))
    || (listed && decide (descAuxOff d ≠ 0) && arrayLeaves d (descAuxOff d) 8)

/-- Whether an outlier list of `n` entries leaves the window (R98, R169). -/
def listLeaves (d : Desc) (n : Nat) : Bool := arrayLeaves d (descAuxOff d) (8 + 4 * n)

/-- The field checks of R169 and R171. `aux` says whether a non-zero `AUX_OFF` is allowed here for formats that carry an
outlier list. -/
def fieldsBad (f : Fmt) (d : Desc) (aux : Bool) : Bool :=
  (decide (f.block ≠ 0) && decide (descCols d % f.block ≠ 0))
    || (descTrans d && !(decide (f = .bf16) || decide (f = .fp16) || decide (f = .fp32) || decide (f = .int32)))
    || decide (256 < descOcap d)
    || (!descGlobal d && decide (descAddr d / 2 ^ 50 ≠ 0))
    || (decide (descAuxOff d ≠ 0) && !(aux && f.outliers))
    || decide (descField d 62 2 ≠ 0)

/-- The checks of a station that opens a tile in memory (R75, R169, R171). -/
def descCheck (d : Desc) (aux : Bool) : Option Code :=
  match Fmt.ofCode (descFmt d) with
  | none => some 0x0201
  | some f =>
    if fieldsBad f d aux then some 0x030A
    else if descRows d ≠ 0 && payloadBad f d true then some 0x030A
    else none

/-- The checks of a TST: the field checks of its descriptor, and the payload checks of the tile it stores there, its outlier
list among them; an empty tile makes no payload check (R169, R170, R182). -/
def storeCheck (t : Tile) (d : Desc) : Option Code :=
  match Fmt.ofCode (descFmt d) with
  | none => some 0x0201
  | some f =>
    let e := t.through d
    let n := if t.outl then (t.payload.length - payloadBytes f (descRows t.desc) (descCols t.desc) - 8) / 4 else 0
    if fieldsBad f d true then some 0x030A
    else if descRows t.desc ≠ 0 && (payloadBad f e true || (decide (descAuxOff d ≠ 0) && listLeaves d n)) then some 0x030A
    else none

/-- The field checks of an output descriptor, whose tile goes to a stream (R169, R171): `aux` allows a scale summary. -/
def outFieldsBad (f : Fmt) (d : Desc) (aux : Bool) : Bool :=
  fieldsBad f (descSet d 192 32 0) false || (!aux && decide (descAuxOff d ≠ 0))

/-- The checks of an output descriptor of MX readout (R75, R169, R171). -/
def readoutCheck (d : Desc) : Option Code :=
  match Fmt.ofCode (descFmt d) with
  | none => some 0x0201
  | some f =>
    if f = .fp32 ∨ f = .bf16 ∨ f = .fp16 ∨ f = .int32 ∨ f = .l64 then
      if outFieldsBad f d false then some 0x030A else none
    else some 0x030A

end Sys2Proof.Machine
end

