-- ==== Sys2Proof/Machine/Lx.lean ====
section
/-! DEFINITION. The load/store station: scalar accesses, tile loads and stores, digests, and accesses to other modules
(R182 to R184, R197 to R199, R215, R230 to R231, R404 to R413). -/

namespace Sys2Proof.Machine

/-! ## Late results -/

/-- A register named by an instruction becomes late: the tag of its result (R212). s0 takes no result. -/
def Core.addLate (x : Core) (d : Dest) : Core :=
  let d' : Dest := if d = .s 0 then .none else d
  { x with late := lateWithout d' x.late ++ [(x.nextTag, d')], nextTag := x.nextTag + 1 }

/-- A late result arrives (R212): a register written since keeps its later value. -/
def Core.deliver (x : Core) (tag : Nat) (bs : List Byte) : Core :=
  let rest := x.late.filter (fun p => decide (p.1 ≠ tag))
  match Assoc.find tag x.late with
  | some (.s r) => { x with s := x.s.set (ix5 r).val (bytesWord bs) (ix5 r).isLt, late := rest }
  | some (.td r) => { x with td := x.td.set (ix5 r).val (BitVec.ofNat 256 (bytesNat bs)) (ix5 r).isLt, late := rest }
  | some .none => { x with late := rest }
  | none => x

/-- A late result of a core. -/
def State.deliver (s : State) (c : CoreId) (tag : Nat) (bs : List Byte) : State := s.updCore c (fun x => x.deliver tag bs)

/-! ## Local accesses of a core -/

/-- A read through LX. -/
def State.coreRead (s : State) (c : CoreId) (a n : Nat) : State × Except Code (List Byte) :=
  let r := s.readMem (s.coreAcc c) a n
  match r.2 with
  | .ok bs => (r.1.bump .lxBytesLoaded (s.coreIx c) 0 n, .ok bs)
  | .error e => (r.1, .error e)

/-- A write through LX, in the core's segment. -/
def State.coreWrite (s : State) (c : CoreId) (a : Nat) (bs : List Byte) : State × Except Code Unit :=
  let r := s.writeMem (s.coreAcc c) (some (.core c, (s.core c).seg)) a bs
  match r.2 with
  | .ok () => (r.1.bump .lxBytesStored (s.coreIx c) 0 bs.length, .ok ())
  | .error e => (r.1, .error e)

/-- The outcome of an access: go on, or the fault it raised. -/
def orKill {α : Type} (c : CoreId) (r : State × Except Code α) (f : State → α → State) : State :=
  match r.2 with
  | .ok v => f r.1 v
  | .error e => r.1.kill c e (some .lx)

/-! ## Requests to other modules -/

/-- Where an address lies: another module, or here. -/
def State.elsewhere (s : State) (m : Option ModIx) : Option ModIx := if m = some s.self then none else m

/-- The module and local address of a scalar address. -/
def State.scalarAt (s : State) (w : Word) : Option ModIx × Nat :=
  match addrForm w 1 with
  | some (m, a) => (s.elsewhere m, a)
  | none => (none, 0)

/-- Whether a core may send one more request to a module (R403, R411). -/
def State.mayRequest (s : State) (c : CoreId) (m : ModIx) : Bool :=
  decide (s.outstanding (.core c) < 256) && !s.routeHeld ((s.partOf c).getD 0) (.core c) m

/-- A core's request to another module, or the fault that it raises (R399, R406, R412). -/
def State.coreRequest (s : State) (c : CoreId) (op : PacketOp) (kind : ReqKind) (dst : ModIx) (a len : Nat) (nr : Bool)
    (payload : List Byte) : State × Option Code :=
  let n := (s.partOf c).getD 0
  match s.requestFault n dst with
  | some e => (if e = 0x0811 then s.bump .fabDeadCount 0 0 1 else s, some e)
  | none =>
    let pk := s.mkPacket n (.core c) dst a len (some ⟨(s.core c).seg, (s.dom n).run⟩) nr payload
    ((s.sendRequest op kind (.core c) pk).bump .lxRemoteOps (s.coreIx c) 0 1, none)

/-- The first multiple of 8 at or above a number. -/
def up8 (n : Nat) : Nat := (n + 7) / 8 * 8

/-- Cuts a range at the 4 KiB boundaries that a packet must not cross (R405). -/
def cut4k : Nat → Nat → Nat → List (Nat × Nat)
  | 0, _, _ => []
  | k + 1, a, n =>
    if n = 0 then []
    else
      let m := min n (4096 - a % 4096)
      (a, m) :: cut4k k (a + m) (n - m)

/-- The pieces of a range. -/
def cuts (a n : Nat) : List (Nat × Nat) := cut4k (n / 4096 + 2) a n

/-! ## Tiles in memory (R168, R182) -/

/-- The other module that a descriptor's tile lies on. -/
def State.descDst (s : State) (d : Desc) : Option ModIx :=
  if descGlobal d then s.elsewhere (some (Fin.ofNat 64 (descAddr d / 2 ^ 50))) else none

/-- The pieces of a range of a tile: cut into packets where it lies on another module. -/
def pieces (dst : Option ModIx) (a n : Nat) : List Piece :=
  match dst with
  | none => if n = 0 then [] else [⟨none, a, n, none, none⟩]
  | some m => (cuts a n).map (fun p => ⟨some m, p.1, p.2, none, none⟩)

/-- The stored lines of a tile: address and length (R168). -/
def tileLines (f : Fmt) (d : Desc) (rows cols : Nat) : List (Nat × Nat) :=
  if descTrans d then (List.range cols).map (fun k => (descLocal d + k * descStride d, rows * f.rowBytes 1))
  else (List.range rows).map (fun r => (descLocal d + r * descStride d, f.rowBytes cols))

/-- The stored rows of block scales. -/
def tileScales (f : Fmt) (d : Desc) (rows cols : Nat) : List (Nat × Nat) :=
  if f.block = 0 then []
  else (List.range rows).map (fun r =>
    ((descArray d (descScaleOff d)).toNat + r * (descStride d / f.blockBytes), f.blocks cols))

/-- The array of row scales, and of the column scales of an L64 tile (R113, R179). -/
def tileRscales (f : Fmt) (d : Desc) (rows cols : Nat) : List (Nat × Nat) :=
  let a := (descArray d (descRscaleOff d)).toNat
  if f.w2 then [(a, 2 * rows)] else if f = .l64 ∧ descRscaleOff d ≠ 0 then [(a, 2 * cols)] else []

/-- Where the outlier list of a tile starts. -/
def tileAux (d : Desc) : Nat := (descArray d (descAuxOff d)).toNat

/-- The ranges a tile is read from, in payload order, without its outlier entries (R121, R160). -/
def tileRanges (d : Desc) : List (Nat × Nat) :=
  let f := fmtOf (descFmt d)
  if descRows d = 0 then []
  else
    tileLines f d (descRows d) (descCols d) ++ tileScales f d (descRows d) (descCols d)
      ++ tileRscales f d (descRows d) (descCols d) ++ (if descAuxOff d ≠ 0 then [(tileAux d, 8)] else [])

/-- The pieces of a tile. -/
def State.tilePieces (s : State) (d : Desc) : List Piece :=
  (tileRanges d).flatMap (fun p => pieces (s.descDst d) p.1 p.2)

/-- Element rows from stored lines of a TRANS tile, and back: column `j` of runs of `es` bytes. -/
def regroup (es n : Nat) (lines : List (List Byte)) : List Byte :=
  (List.range n).flatMap (fun r => lines.flatMap (fun l => (l.drop (r * es)).take es))

/-- The payload of a tile from the bytes read, in payload order (R160, R168). -/
def packLoaded (d : Desc) (bs : List Byte) : List Byte :=
  let f := fmtOf (descFmt d)
  if descTrans d then
    let es := f.rowBytes 1
    let n := descCols d * (descRows d * es)
    regroup es (descRows d) (runsOf (descRows d * es) (bs.take n)) ++ bs.drop n
  else bs

/-- Whether a tile loaded through a descriptor carries an outlier list (R160). -/
def listed (d : Desc) : Bool := (fmtOf (descFmt d)).outliers && decide (descAuxOff d ≠ 0) && decide (descRows d ≠ 0)

/-- The header of a tile loaded through a descriptor: no status flags of its own. -/
def loadedTile (d : Desc) (bs : List Byte) : Tile := ⟨descWithStatus d 0, packLoaded d bs, listed d⟩

/-- The writes of a tile through a destination descriptor (R182). -/
def tileWrites (t : Tile) (d : Desc) : List (Nat × List Byte) :=
  let f := t.fmt
  let v := t.view
  if t.rows = 0 then []
  else
    let lines :=
      if descTrans d then
        let es := f.rowBytes 1
        (List.range t.cols).map (fun k => v.raw.flatMap (fun r => (r.drop (k * es)).take es))
      else v.raw
    let put (p : Nat × Nat) (bs : List Byte) : Nat × List Byte := (p.1, bs)
    (List.zipWith put (tileLines f d t.rows t.cols) lines)
      ++ (List.zipWith put (tileScales f d t.rows t.cols) (v.scales.map (fun r => r.map (BitVec.ofNat 8))))
      ++ (if f.w2 then [((descArray d (descRscaleOff d)).toNat, v.rscales.flatMap (natBytes 2))] else [])
      ++ (if descAuxOff d ≠ 0 then
            [(tileAux d, if t.outl then t.payload.drop (payloadBytes f t.rows t.cols) else List.replicate 8 0)]
          else [])

/-! ## Accesses that read pieces -/

/-- Reads the pieces that lie on this module. -/
def State.readLocal (c : CoreId) (acc : State × Except Code (List Piece)) (p : Piece) : State × Except Code (List Piece) :=
  match acc.2 with
  | .error e => (acc.1, .error e)
  | .ok l =>
    if p.dst.isSome || p.data.isSome then (acc.1, .ok (l ++ [p]))
    else
      let r := acc.1.coreRead c p.addr p.len
      (r.1, r.2.map (fun bs => l ++ [{ p with data := some bs }]))

/-- The poison of a load of `n` bytes (R412). -/
def poisonBytes (n : Nat) : List Byte := (List.range ((n + 7) / 8)).flatMap (fun _ => wordBytes deadWord)

/-- The poison that a load or an atomic aimed at a dead target delivers (R183, R412). -/
def State.poisonResult (s : State) (c : CoreId) (kind : ReqKind) (len : Nat) : State :=
  match kind with
  | .load t => s.deliver c t (poisonBytes len)
  | .atom t nr => if nr then s else s.deliver c t (wordBytes deadWord)
  | _ => s

/-- Sends READs for the pieces on other modules, while the core may have more requests outstanding (R183, R411). -/
def State.askPiece (c : CoreId) (acc : State × Except Code (List Piece)) (p : Piece) : State × Except Code (List Piece) :=
  match acc.2, p.dst with
  | .error e, _ => (acc.1, .error e)
  | .ok l, none => (acc.1, .ok (l ++ [p]))
  | .ok l, some m =>
    if p.tag.isSome || p.data.isSome || !acc.1.mayRequest c m then (acc.1, .ok (l ++ [p]))
    else
      let a0 := p.addr / 8 * 8
      let tag := acc.1.fab.nextTag
      let r := acc.1.coreRequest c .read .piece m a0 (up8 (p.addr + p.len - a0)) false []
      match r.2 with
      | some e => (r.1, .error e)
      | none => (r.1, .ok (l ++ [{ p with tag := some tag }]))

/-- Sends the writes of a tile access: those on this module at once, the others as WRITE packets while the core may have
more requests outstanding. The rest is not yet sent. -/
def State.sendWrites (c : CoreId) : List (Option ModIx × Nat × List Byte) → State →
    State × Except Code (List (Option ModIx × Nat × List Byte))
  | [], s => (s, .ok [])
  | (none, a, bs) :: l, s =>
    let r := s.coreWrite c a bs
    match r.2 with
    | .error e => (r.1, .error e)
    | .ok () => State.sendWrites c l r.1
  | (some m, a, bs) :: l, s =>
    if !s.mayRequest c m then (s, .ok ((some m, a, bs) :: l))
    else
      let r := s.coreRequest c .write .store m a (up8 bs.length) false bs
      match r.2 with
      | some e => (r.1, .error e)
      | none => State.sendWrites c l (r.1.bump .lxBytesStored (s.coreIx c) 0 bs.length)

/-- Cuts a write for another module into packets (R405). -/
def writePieces (dst : Option ModIx) (w : Nat × List Byte) : List (Option ModIx × Nat × List Byte) :=
  match dst with
  | none => if w.2.isEmpty then [] else [(none, w.1, w.2)]
  | some m => (cuts w.1 w.2.length).map (fun p => (some m, p.1, (w.2.drop (p.1 - w.1)).take p.2))

/-- The bytes of a run's pieces, in order. -/
def LxRun.bytes (r : LxRun) : List Byte := r.pieces.flatMap (fun p => p.data.getD [])

/-- Whether every piece has come. -/
def LxRun.whole (r : LxRun) : Bool := r.pieces.all (fun p => p.data.isSome)

/-- The preamble of a tile's digest (R231). -/
def digestPreamble (d : Desc) : List Byte :=
  natBytes 2 (descRows d) ++ natBytes 3 (descCols d) ++ natBytes 1 (descFmt d) ++ natBytes 2 (descField d 224 16)
    ++ List.replicate 8 0

/-- Keeps what a run has reached, and takes a run out when it ends. -/
def putRun (r : LxRun) (l : List LxRun) : List LxRun :=
  if l.any (fun q => decide (q.cmd = r.cmd)) then l.map (fun q => if q.cmd = r.cmd then r else q) else l ++ [r]
def endRun (k : StCmd) (l : List LxRun) : List LxRun := l.filter (fun q => decide (q.cmd ≠ k))

/-- A run under way. -/
def State.keepRun (s : State) (c : CoreId) (r : LxRun) : State := s.updCore c (fun x => { x with lxRuns := putRun r x.lxRuns })

/-- Ends a run whose bytes and writes are complete. -/
def State.finishRun (s : State) (c : CoreId) (r : LxRun) : Ran :=
  match r.cmd with
  | .tld q d =>
    let t := loadedTile d r.bytes
    match (s.core c).room q t with
    | .tooLarge => .done (s.kill c 0x0307 (some .lx))
    | .waits => .waits true
    | .fits => .done (s.updCore c (fun x => { x.pushTile q t with lxRuns := endRun r.cmd x.lxRuns }))
  | _ => .done (s.updCore c (fun x => { x with lxRuns := endRun r.cmd x.lxRuns }))

/-- The number of outlier entries that the header read last names (R98). -/
def LxRun.listCount (r : LxRun) : Nat := fieldNat ((r.pieces.getLast?.bind (·.data)).getD []) 0 2

/-- The outlier entries that a loaded header names: their pieces (R98). -/
def State.entryPieces (s : State) (r : LxRun) : List Piece :=
  match r.cmd with
  | .tld _ d => if listed d && !r.entries then pieces (s.descDst d) (tileAux d + 8) (4 * r.listCount) else []
  | _ => []

/-- Whether the entries that a loaded header names leave the window of the tile (R169). -/
def LxRun.listLeaves (r : LxRun) : Bool :=
  match r.cmd with
  | .tld _ d => listed d && !r.entries && Machine.listLeaves d r.listCount
  | _ => false

/-- The write that a digest makes once its bytes are there. -/
def State.digestWrites (s : State) (r : LxRun) : List (Option ModIx × Nat × List Byte) :=
  match r.cmd with
  | .digest d addr =>
    if r.entries then []
    else
      let w := s.scalarAt addr
      let bs := r.bytes
      writePieces w.1 (w.2, sha384 (bs.take 48 ++ digestPreamble d ++ packLoaded d (bs.drop 48)))
  | _ => []

/-- Carries a run on as far as it goes: pieces, outlier entries, writes, end. -/
def State.progress (c : CoreId) : Nat → LxRun → State → Ran
  | 0, r, s => .done (s.keepRun c r)
  | k + 1, r, s =>
    let l := r.pieces.foldl (State.readLocal c) (s, .ok [])
    match l.2 with
    | .error e => .done (l.1.kill c e (some .lx))
    | .ok ps =>
      let r1 := { r with pieces := ps }
      if r1.whole then
        let more := l.1.entryPieces r1
        let ws := l.1.digestWrites r1
        if r1.listLeaves then .done (l.1.kill c 0x030A (some .lx))
        else if !more.isEmpty then State.progress c k { r1 with pieces := ps ++ more, entries := true } l.1
        else if !ws.isEmpty then State.progress c k { r1 with entries := true, writes := ws } l.1
        else if !r1.writes.isEmpty then
          let w := State.sendWrites c r1.writes l.1
          match w.2 with
          | .error e => .done (w.1.kill c e (some .lx))
          | .ok [] => w.1.finishRun c { r1 with writes := [] }
          | .ok rest => .done (w.1.keepRun c { r1 with writes := rest })
        else l.1.finishRun c { r1 with entries := true }
      else
        let w := ps.foldl (State.askPiece c) (l.1, .ok [])
        match w.2 with
        | .error e => .done (w.1.kill c e (some .lx))
        | .ok ps' => .done (w.1.keepRun c { r1 with pieces := ps' })

/-! ## Commands of the station -/

/-- An audit unit with one more stored tile. -/
def Audit.store (a : Audit) (t : Tile) : Audit := { a with stored := a.stored ++ [digestPreamble t.desc ++ t.payload] }

/-- Records a stored tile in the replay of a closed unit. -/
def State.recordReplay (s : State) (c : CoreId) (id : Nat) (t : Tile) : State :=
  let upd (r : Replay) : Replay := if r.slot = c.slot ∧ r.audit.id = id then { r with audit := r.audit.store t } else r
  { s with integ := { s.integ with
      queue := Assoc.put c.die ((Assoc.getD c.die [] s.integ.queue).map upd) s.integ.queue } }

/-- Records what a TST stores for the sampled audit unit it was issued in: in the unit while it is open, or in the replay queued
for it (R229). -/
def State.recordStored (s : State) (c : CoreId) (id : Nat) (t : Tile) : State :=
  match (s.core c).audit with
  | some a => if a.id = id then s.updCore c (fun x => { x with audit := some (a.store t) }) else s.recordReplay c id t
  | none => s.recordReplay c id t

/-- The packet operation of an atomic (R405). -/
def AtomOp.packet : AtomOp → PacketOp
  | .add => .atomAdd
  | .max => .atomMax
  | .cas => .atomCas
  | .swap => .atomSwap
  | .ladd => .atomLadd

/-- A scalar request to another module: it waits where 256 are outstanding (R411); a dead target's poison comes with its fault
(R183, R412). -/
def State.scalarRequest (s : State) (c : CoreId) (op : PacketOp) (kind : ReqKind) (dst : ModIx) (a len : Nat) (nr : Bool)
    (payload : List Byte) : Ran :=
  if !s.mayRequest c dst then .waits false
  else
    let r := s.coreRequest c op kind dst a len nr payload
    match r.2 with
    | some e => .done ((if e = 0x0811 then r.1.poisonResult c kind len else r.1).kill c e (some .lx))
    | none => .done r.1

/-- Tries to run an LX command (R182 to R184, R198, R199, R215, R231). -/
def State.runLx (s : State) (c : CoreId) (cmd : StCmd) : Ran :=
  match cmd with
  | .ld tag addr =>
    match s.scalarAt addr with
    | (none, a) => .done (orKill c (s.coreRead c a 8) (fun t bs => t.deliver c tag bs))
    | (some m, a) => s.scalarRequest c .read (.load tag) m a 8 false []
  | .tdld tag addr =>
    match s.scalarAt addr with
    | (none, a) => .done (orKill c (s.coreRead c a 32) (fun t bs => t.deliver c tag bs))
    | (some m, a) => s.scalarRequest c .read (.load tag) m a 32 false []
  | .st _ addr val =>
    match s.scalarAt addr with
    | (none, a) => .done (orKill c (s.coreWrite c a (wordBytes val)) (fun t _ => t))
    | (some m, a) => s.scalarRequest c .write .store m a 8 false (wordBytes val)
  | .tdst _ addr td =>
    let bs := natBytes 32 td.toNat
    match s.scalarAt addr with
    | (none, a) => .done (orKill c (s.coreWrite c a bs) (fun t _ => t))
    | (some m, a) => s.scalarRequest c .write .store m a 32 false bs
  | .atom tag op addr val cmp nr =>
    match s.scalarAt addr with
    | (none, a) =>
      .done (orKill c (s.atomMem (s.coreAcc c) (some (.core c, (s.core c).seg)) op nr a val cmp)
        (fun t old => t.deliver c tag (wordBytes old)))
    | (some m, a) =>
      s.scalarRequest c op.packet (.atom tag nr) m a (if op = .cas then 16 else 8) nr
        (wordBytes val ++ if op = .cas then wordBytes cmp else [])
  | .tld _ d =>
    match descCheck d true with
    | some e => .done (s.kill c e (some .lx))
    | none => State.progress c 4 ⟨cmd, s.tilePieces d, false, []⟩ s
  | .tst q d audit =>
    match (s.core c).headTile q with
    | none => .waits true
    | some t =>
      match storeCheck t d with
      | some e => .done (s.kill c e (some .lx))
      | none =>
        let s1 := s.updCore c (fun x => x.popTile q)
        let s2 := match audit with
          | some id => s1.recordStored c id t
          | none => s1
        State.progress c 4 ⟨cmd, [], true, (tileWrites t d).flatMap (writePieces (s.descDst d))⟩ s2
  | .digest d addr =>
    match descCheck d false with
    | some e => .done (s.kill c e (some .lx))
    | none =>
      let w := s.scalarAt addr
      State.progress c 4 ⟨cmd, pieces w.1 w.2 48 ++ s.tilePieces d, false, []⟩ s
  | _ => .done s

/-! ## Order of overlapping accesses (R184) -/

/-- A range of memory for the comparison of accesses: the place of a local address, or the global address. -/
def State.spanAt (s : State) (c : CoreId) (m : Option ModIx) (a : Nat) : Nat :=
  match m with
  | some k => 2 ^ 56 + k.val * 2 ^ 50 + a
  | none =>
    match s.place (s.coreAcc c) a 1 false with
    | .ok p => p.phys
    | .error _ => a

/-- The ranges that a group walk stores to: the output rows of each table entry (R142, R206). -/
def State.walkSpans (s : State) (c : CoreId) (f : Fmt) (rows : Nat) : Nat → Nat → List (Nat × Nat × Bool)
  | _, 0 => []
  | table, k + 1 =>
    match s.place (s.coreAcc c) table 32 false with
    | .error _ => []
    | .ok p =>
      let bs := s.load p.phys 32
      let here := (s.spanAt c none (fieldNat bs 8 8), fieldNat bs 20 4 * f.rowBytes (fieldNat bs 28 1 * rows), true)
      here :: (if fieldNat bs 30 1 = 0 then s.walkSpans c f rows (table + 32) k else [])

/-- The ranges a command touches, and whether it writes them: a TST those of its descriptor and of the tiles in its stream, of
which it takes one (R182). -/
def State.spans (s : State) (c : CoreId) (cmd : StCmd) : List (Nat × Nat × Bool) :=
  let scalar (w : Word) (n : Nat) (wr : Bool) : List (Nat × Nat × Bool) :=
    let p := s.scalarAt w
    [(s.spanAt c p.1 p.2, n, wr)]
  let tile (wr : Bool) (d : Desc) : List (Nat × Nat × Bool) :=
    (tileRanges d).map (fun p => (s.spanAt c (s.descDst d) p.1, p.2, wr))
      ++ (if descAuxOff d ≠ 0 then [(s.spanAt c (s.descDst d) (tileAux d), 8 + 4 * 65535, wr)] else [])
  match cmd with
  | .ld _ a => scalar a 8 false
  | .tdld _ a => scalar a 32 false
  | .st _ a _ => scalar a 8 true
  | .tdst _ a _ => scalar a 32 true
  | .atom _ _ a _ _ _ => scalar a 8 true
  | .tld _ d => tile false d
  | .tst q d _ => (d :: ((((s.core c).stream q).map (·.tiles)).getD []).map (fun t => t.through d)).flatMap (tile true)
  | .digest d a => scalar a 48 true ++ tile false d
  | .walk td a _ => s.walkSpans c (fmtOf (Config.walkFormat td % 16)) (descRows td) (s.scalarAt a).2 4096
  | _ => []

/-- The stream a tile command of LX uses. -/
def StCmd.lxStream : StCmd → Option (BitVec 4)
  | .tld q _ => some q
  | .tst q _ _ => some q
  | _ => none

/-- Whether a command is the marker of a group walk. -/
def StCmd.isMarker : StCmd → Bool
  | .walk _ _ _ => true
  | _ => false

/-- Whether an LX command cannot start while another is under way: one stream (R163, R214). -/
def lxBusy (x y : StCmd) : Bool := x.lxStream.isSome && decide (x.lxStream = y.lxStream)

/-- Whether a later LX command waits for an earlier one: overlapping ranges with a write (R184). -/
def State.lxConflict (s : State) (c : CoreId) (x y : StCmd) : Bool :=
  (s.spans c x).any (fun a => (s.spans c y).any (fun b => overlaps a.1 a.2.1 b.1 b.2.1 && (a.2.2 || b.2.2)))

end Sys2Proof.Machine
end

