-- ==== Sys2Proof/Machine/Quant.lean ====
section
/-! DEFINITION. The quantiser of R89 to R97: scales, elements, special blocks and scale summaries. -/

namespace Sys2Proof.Machine

/-- What a quantised block was (R92). -/
inductive BlockCase | plain | zero | under | sat | nan
  deriving DecidableEq, Repr

/-- One quantised block: its case, scale byte and element codes. -/
structure QBlock where
  case : BlockCase
  scale : Nat
  codes : List Nat
  deriving DecidableEq, Repr

/-- The +0 code of a block element (R89): digit 1 in WT, bit 0 in WB. -/
def Fmt.zeroCode : Fmt → Nat
  | .wt => 1
  | _ => 0

/-- Largest magnitude of a list of exact values. -/
def maxAbs (l : List Dy) : Dy := l.foldl (fun a x => if a.lt x.abs then x.abs else a) Dy.zero

/-- The rounded magnitude of |v| / 2^X in the format's own integer codes, unlimited above (R89, R90), and the largest
code. -/
def Fmt.magCode (f : Fmt) (v : Dy) (x : Int) : Nat :=
  match f with
  | .e4m3 => fE4M3.roundMag v.m.natAbs (v.e - x)
  | .e5m2 => fE5M2.roundMag v.m.natAbs (v.e - x)
  | .mxf4 => fE2M1.roundMag v.m.natAbs (v.e - x)
  | .si4 => ((v.abs).rneAt (x - 2)).toNat
  | _ => ((v.abs).rneAt (x - 6)).toNat
def Fmt.magMax : Fmt → Nat
  | .e4m3 => 0x7E
  | .e5m2 => 0x7B
  | .mxf4 => 7
  | .si4 => 7
  | _ => 127

/-- floor(log2) of the format's largest power of two at or below its largest magnitude (R90). -/
def Fmt.emax : Fmt → Int
  | .e4m3 => 8
  | .e5m2 => 15
  | .mxf4 => 2
  | .si4 => 0
  | _ => 0

/-- Gives a magnitude code its sign: sign bit in the floating formats, two's complement in SI4 and A8; −0 is never
written (R89). -/
def Fmt.signCode (f : Fmt) (neg : Bool) (c : Nat) : Nat :=
  if c = 0 ∨ !neg then c
  else
    match f with
    | .e4m3 | .e5m2 => c + 128
    | .mxf4 => c + 8
    | .si4 => 16 - c
    | _ => 256 - c

/-- A microscaling element under scale 2^X, clamped to the largest element value. -/
def Fmt.mxCode (f : Fmt) (v : Fv) (x : Int) : Nat :=
  match v with
  | .fin n _ _ => f.signCode n (min (f.magCode v.dy x) f.magMax)
  | .inf n => f.signCode n f.magMax
  | .nan => f.zeroCode

/-- X of R90: the smallest integer for which the rounded amax fits. -/
def Fmt.chooseX (f : Fmt) (amax : Dy) : Int :=
  let x0 := amax.log2 - f.emax
  if f.magCode amax x0 ≤ f.magMax then x0 else x0 + 1

/-- Quantises one block of a microscaling format (R90, R92). -/
def quantMx (f : Fmt) (vs : List Fv) : QBlock :=
  let zeros := vs.map (fun _ => f.zeroCode)
  if vs.any Fv.isNan then ⟨.nan, 255, zeros⟩
  else if vs.any Fv.isInf then ⟨.sat, 254, vs.map (fun v => f.mxCode v 127)⟩
  else
    let amax := maxAbs (vs.map Fv.dy)
    if amax.m = 0 then ⟨.zero, 0, zeros⟩
    else
      let x := f.chooseX amax
      if x < -127 then ⟨.under, 0, zeros⟩
      else if 127 < x then ⟨.sat, 254, vs.map (fun v => f.mxCode v 127)⟩
      else ⟨.plain, (x + 127).toNat, vs.map (fun v => f.mxCode v x)⟩

/-! ## The W2 formats (R91, R93) -/

/-- A rational reach: numerator over 1 or 3. -/
structure Reach where
  num : Dy
  den : Nat
  deriving DecidableEq, Repr

/-- a/b ≤ c/d for reaches. -/
def Reach.le (a b : Reach) : Bool := (a.num.mul ⟨b.den, 0⟩).le (b.num.mul ⟨a.den, 0⟩)

/-- The reach m of a finite block (R91). -/
def Fmt.reach (f : Fmt) (vs : List Dy) : Reach :=
  let amax := maxAbs vs
  match f with
  | .w2i =>
    let pos := maxAbs (vs.filter (fun v => decide (0 < v.m)))
    let neg := (maxAbs (vs.filter (fun v => decide (v.m < 0)))).shift (-1)
    ⟨if pos.lt neg then neg else pos, 1⟩
  | .w2s => ⟨amax.shift 1, 3⟩
  | .wt => ⟨amax, 1⟩
  | _ => ⟨(vs.foldl (fun a v => a.add v.abs) Dy.zero).shift (-6), 1⟩

/-- The smallest k with reach ≤ 2^k. -/
def Reach.ceilLog2 (r : Reach) : Int :=
  let k0 := r.num.log2 - 3
  ([k0, k0 + 1, k0 + 2, k0 + 3, k0 + 4].find? (fun k => r.le ⟨⟨1, k⟩, 1⟩)).getD (k0 + 4)

/-- The exponent of the row scale of R91 and R93. -/
def rowScaleExp (row : Reach) : Int := clampInt (-133) 127 (row.ceilLog2 - 8)

/-- The UE4M4 code of a block (R91): for WB the nearest to m / r with ties to the even code, else the smallest code whose
value times r is at least m. Codes 0x01 to 0xFE. -/
def Fmt.w2Scale (f : Fmt) (m : Reach) (rexp : Int) : Nat :=
  let val := fun (c : Nat) => ((ue4m4 c).getD Dy.zero).shift rexp
  let up := ((List.range 254).map (· + 1)).find? (fun c => m.le ⟨val c, 1⟩)
  match f, up with
  | .wb, some 1 => 1
  | .wb, some c =>
    -- nearest of c - 1 and c, by twice the value against their sum
    let twice := (m.num.shift 1)
    let sum := ((val (c - 1)).add (val c)).mul ⟨m.den, 0⟩
    if twice.lt sum then c - 1
    else if sum.lt twice then c
    else if c % 2 = 0 then c else c - 1
  | _, some c => c
  | _, none => 254

/-- One W2 element under the scale s × r (R89). -/
def Fmt.w2Code (f : Fmt) (v : Fv) (sr : Dy) : Nat :=
  let x := v.dy
  let big := v.isInf
  let neg := v.isNeg && !v.isZero
  let half := sr.shift (-1)
  match f with
  | .w2i =>
    if big then (if neg then 2 else 1)
    else if neg then (if (sr.add half).lt x.abs then 2 else if half.lt x.abs then 3 else 0)
    else if half.lt x then 1 else 0
  | .w2s =>
    let one := if big || sr.lt x.abs then 1 else 0
    if neg then 2 + one else one
  | .wt => if big || half.lt x.abs then (if neg then 0 else 2) else 1
  | _ => if neg then 0 else 1

/-- Quantises one block of a W2 row under the row scale 2^rexp, or +0 where it is none (R92, R93). -/
def quantW2 (f : Fmt) (rexp : Option Int) (vs : List Fv) : QBlock :=
  let zeros := vs.map (fun _ => f.zeroCode)
  if vs.any Fv.isNan then ⟨.nan, 255, zeros⟩
  else
    match rexp with
    | none => ⟨.zero, 0, zeros⟩
    | some r =>
      let sat : QBlock :=
        let sr := ((ue4m4 254).getD Dy.zero).shift r
        ⟨.sat, 254, vs.map (fun v => f.w2Code v sr)⟩
      if vs.any Fv.isInf then sat
      else
        let m := f.reach (vs.map Fv.dy)
        if (maxAbs (vs.map Fv.dy)).m = 0 then ⟨.zero, 0, zeros⟩
        else if !((⟨⟨1, r - 10⟩, 1⟩ : Reach).le m) then ⟨.under, 0, zeros⟩
        else if !(m.le ⟨⟨480, r⟩, 1⟩) then sat
        else
          let c := f.w2Scale m r
          ⟨.plain, c, vs.map (fun v => f.w2Code v (((ue4m4 c).getD Dy.zero).shift r))⟩

/-- The row-scale exponent of a W2 row, none for r = +0 (R91, R93): so too where the special block that decides holds
a NaN and an infinity, which is the model's choice (log 111). -/
def Fmt.rowExp (f : Fmt) (blocks : List (List Fv)) : Option Int :=
  let fin := blocks.filter (fun b => !(b.any Fv.isNan || b.any Fv.isInf))
  let reaches := (fin.map (fun b => f.reach (b.map Fv.dy))).filter (fun r => decide (r.num.m ≠ 0))
  match reaches with
  | [] => if blocks.any (fun b => b.any Fv.isInf && !b.any Fv.isNan) then some 127 else none
  | r :: rs => some (rowScaleExp (rs.foldl (fun a b => if a.le b then b else a) r))

/-- A quantised row: blocks and BF16 row-scale code. -/
structure QRow where
  blocks : List QBlock
  rscale : Nat
  deriving DecidableEq, Repr

/-- Quantises one row (R89 to R93). -/
def quantRow (f : Fmt) (vs : List Fv) : QRow :=
  let bl := runsOf f.block vs
  if f.w2 then
    let r := f.rowExp bl
    ⟨bl.map (quantW2 f r), match r with
      | some k => fpBrain.encode (.fin false 1 k)
      | none => 0⟩
  else ⟨bl.map (quantMx f), 0⟩

/-- Counts of special blocks: zero, under, saturated, NaN (R92). -/
structure QCounts where
  zero : Nat
  under : Nat
  sat : Nat
  nan : Nat
  blocks : Nat
  /-- floor(log2) of the largest and the smallest non-zero decoded magnitude (R96, R97). -/
  maxExp : Option Int
  minExp : Option Int
  deriving DecidableEq, Repr

/-- The decoded magnitudes of a block, without the row scale (R97). -/
def QBlock.mags (f : Fmt) (b : QBlock) : List Int :=
  if b.case = .nan ∨ b.case = .zero ∨ b.case = .under then []
  else
    b.codes.filterMap (fun c =>
      match f.elem c, f.scale b.scale with
      | some v, some s => if v.m = 0 then none else some ((v.mul s).log2)
      | _, _ => none)

/-- Largest and smallest of optional exponents. -/
def optMax (a : Option Int) (l : List Int) : Option Int :=
  l.foldl (fun a x => match a with
    | some y => some (max x y)
    | none => some x) a
def optMin (a : Option Int) (l : List Int) : Option Int :=
  l.foldl (fun a x => match a with
    | some y => some (min x y)
    | none => some x) a

/-- Counts over the blocks of a tile. -/
def quantCounts (f : Fmt) (rows : List QRow) : QCounts :=
  let bl := rows.flatMap (·.blocks)
  let n := fun (k : BlockCase) => (bl.filter (fun b => decide (b.case = k))).length
  let mags := bl.flatMap (QBlock.mags f)
  ⟨n .zero, n .under, n .sat, n .nan, bl.length, optMax none mags, optMin none mags⟩

/-- Quantises a tile of rows of data into a payload and its counts (R89 to R93, R121). -/
def quantTile (f : Fmt) (cols : Nat) (rows : List (List Fv)) : List Byte × QCounts :=
  let qs := rows.map (quantRow f)
  let raw := qs.map (fun q => f.packRow (q.blocks.flatMap (·.codes)))
  let v : TileView :=
    { fmt := f, rows := rows.length, cols := cols, elems := [], raw := raw,
      scales := qs.map (fun q => q.blocks.map (·.scale)), rscales := qs.map (·.rscale), outRsv := 0, outl := [] }
  (packTile v false, quantCounts f qs)

/-- Merges counts into a 16-byte scale summary (R96). -/
def mergeSummary (old : List Byte) (c : QCounts) : List Byte :=
  let omax := signed 16 (fieldNat old 0 2)
  let omin := signed 16 (fieldNat old 2 2)
  let nmax := match c.maxExp with
    | some m => if omax = -32768 then m else max omax m
    | none => omax
  let nmin := match c.minExp with
    | some m => min omin m
    | none => omin
  let fl := fieldNat old 8 1
  let bit := fun (k : Nat) (b : Bool) => if fl / 2 ^ k % 2 = 1 ∨ b then 2 ^ k else 0
  natBytes 2 (wrap 16 nmax) ++ natBytes 2 (wrap 16 nmin)
    ++ natBytes 4 (min (fieldNat old 4 4 + c.blocks) 0xFFFFFFFF)
    ++ natBytes 1 (bit 0 (0 < c.sat) + bit 1 (0 < c.under) + bit 2 (0 < c.nan) + fl / 8 * 8)
    ++ (old.drop 9).take 7

end Sys2Proof.Machine
end

