-- ==== Sys2Proof/Machine/MxMath.lean ====
section
/-! DEFINITION. The arithmetic of the matrix station: operand checks, contributions, the long register, readout and save
records (R88, R98 to R112, R117 to R138, R618). -/

namespace Sys2Proof.Machine

/-- Formats of a resident tile (R117). -/
def Fmt.resident : Fmt → Bool
  | .w2i | .w2s | .wt | .wb | .mxf4 | .si4 | .e4m3 | .e5m2 | .bf16 => true
  | _ => false

/-- The operand pairs of R117. -/
def modePair (w a : Fmt) : Bool :=
  match w with
  | .w2i | .w2s | .wt | .wb => a == .a8
  | .mxf4 | .si4 => a == .e4m3 || a == .e5m2 || a == .a8 || a == .mxf4 || a == .si4
  | .e4m3 | .e5m2 => a == .e4m3 || a == .e5m2
  | .bf16 => a == .bf16
  | _ => false

/-- Largest K of a resident tile (R120). -/
def Fmt.kLimit : Fmt → Nat
  | .w2i | .w2s => 2048
  | .wt => 2496
  | .wb => 4096
  | .mxf4 | .si4 => 1024
  | .e4m3 | .e5m2 => 512
  | _ => 256

/-- The mode number of a resident format (R117, R511): 0 W2A8, 1 W4, 2 F8, 3 BF16. -/
def Fmt.mode : Fmt → Nat
  | .w2i | .w2s | .wt | .wb => 0
  | .mxf4 | .si4 => 1
  | .e4m3 | .e5m2 => 2
  | _ => 3

/-- Kc, the positions of one issue cycle (R117). -/
def Fmt.kc : Fmt → Nat
  | .w2i | .w2s | .wt | .wb => 256
  | .mxf4 | .si4 => 128
  | .e4m3 | .e5m2 => 64
  | _ => 16

/-- Blocks of 32 in one chunk of Kc positions (R117); a BF16 chunk of 16 lies inside one block. -/
def Fmt.chunkBlocks : Fmt → Nat
  | .w2i | .w2s | .wt | .wb => 8
  | .mxf4 | .si4 => 4
  | .e4m3 | .e5m2 => 2
  | _ => 1

/-- The block length that K of an MX operand is a multiple of: 32 for BF16, for accumulation (R74, R120). -/
def Fmt.mxBlock (f : Fmt) : Nat := if f = .bf16 then 32 else f.block

/-- Checks a resident tile when MX opens it (R118, R120, R132, R133). Rows without columns are not empty, which
is the model's choice (log 115). -/
def checkResident (v : TileView) : Option Code :=
  if !v.fmt.resident then some 0x0202
  else if v.rows = 0 then none
  else if 64 < v.rows ∨ v.cols % v.fmt.mxBlock ≠ 0 ∨ v.fmt.kLimit < v.cols ∨ v.cols = 0 then some 0x0203
  else if v.outRsv ≠ 0 then some 0x0206
  else if v.outl.any (fun o => decide (v.cols ≤ o.k) || decide (v.rows ≤ o.n)) then some 0x0205
  else none

/-- Splits an outlier list into held and spilled entries (R100, R132). -/
def splitOutliers (cap : Nat) : List Outlier → Nat → Option (Nat × Nat) → List Outlier × List Outlier
  | [], _, _ => ([], [])
  | o :: l, taken, last =>
    let inOrder := match last with
      | none => true
      | some (k, n) => decide (k < o.k) || (k == o.k && decide (n ≤ o.n))
    if taken < cap && inOrder then
      let r := splitOutliers cap l (taken + 1) (some (o.k, o.n))
      (o :: r.1, r.2)
    else
      let r := splitOutliers cap l taken last
      (r.1, o :: r.2)

/-- Whether an outlier entry lies in the scale block of block i of row n and acts there (R99). -/
def TileView.outIn (v : TileView) (n i : Nat) (o : Outlier) : Bool :=
  o.n == n && v.fmt.scaleIdx o.k == v.fmt.scaleIdx (32 * i)
    && !(v.fmt.w2 && (v.scales.getD n []).getD (v.fmt.scaleIdx (32 * i)) 0 == 0)

/-- Whether weight block i of row n is a NaN block, corrections included (R99). -/
def TileView.nanW (v : TileView) (n i : Nat) : Bool :=
  v.nanBlock n i || v.outl.any (fun o => v.outIn n i o && o.value.isNone)

/-- Whether weight block i of row n is a zero block (R130). -/
def TileView.zeroW (v : TileView) (n i : Nat) : Bool :=
  v.zeroElems n i && !(v.nanW n i) && !(v.outl.any (v.outIn n i))

/-- The contribution of block i to (token t, row n), none where it is NaN (R101). -/
def contribution (w a : TileView) (t n i : Nat) : Option Dy :=
  if w.nanW n i || a.nanBlock t i then none
  else
    let pos := (List.range 32).map (fun j => 32 * i + j)
    some (pos.foldl (fun acc p =>
      let corr := w.outl.filter (fun o => o.n == n && o.k == p && w.outIn n i o)
      let x := corr.foldl (fun s o => s.add (o.value.getD Dy.zero)) (w.elemAt n p)
      let xw := if w.fmt.w2 && (w.scales.getD n []).getD (w.fmt.scaleIdx p) 0 == 0 then Dy.zero
        else x.mul (w.scaleAt n p)
      acc.add (xw.mul ((a.elemAt t p).mul (a.scaleAt t p)))) Dy.zero)

/-- Blocks of 32 in a row of K positions. -/
def blocks32 (k : Nat) : Nat := (k + 31) / 32

/-- The chunks of a row as lists of blocks, in K order. -/
def chunksOfRow (w : TileView) : List (List Nat) := runsOf w.fmt.chunkBlocks (List.range (blocks32 w.cols))

/-- Whether an outlier entry corrects a block of a chunk (R131). -/
def TileView.corrected (w : TileView) (chunk : List Nat) : Bool :=
  chunk.any (fun i => (List.range w.rows).any (fun n => w.outl.any (w.outIn n i)))

/-- Whether a (token, chunk) pair is skipped: never where it touches a NaN block, or a block that an entry corrects (R130,
R131). -/
def skipChunk (w a : TileView) (t : Nat) (chunk : List Nat) : Bool :=
  let rows := List.range w.rows
  let wz := chunk.all (fun i => rows.all (fun n => w.zeroW n i))
  let az := chunk.all (fun i => a.zeroElems t i)
  let wn := chunk.any (fun i => rows.any (fun n => w.nanW n i))
  let an := chunk.any (fun i => a.nanBlock t i)
  (wz && !an) || (az && !wn && !(w.corrected chunk))

/-- The chunks issued for a token. -/
def issuedChunks (w a : TileView) (t : Nat) : List (List Nat) :=
  (chunksOfRow w).filter (fun c => !(skipChunk w a t c))

/-- The blocks issued for a token. -/
def issuedBlocks (w a : TileView) (t : Nat) : List Nat := (issuedChunks w a t).flatten

/-- Whether a failed residue check lies on a contribution that the two tiles form. -/
def errFormed (e : ResidueErr) (w a : TileView) : Bool :=
  decide (e.token < a.rows) && decide (e.row.val < w.rows) && (issuedBlocks w a e.token).contains (e.pos / 32)

/-- Limits of the 128-bit window (R102). -/
def longMax : Int := 2 ^ 127 - 1
def longMin : Int := -(2 ^ 127)

/-- Adds one contribution to an accumulation (R103 to R105). -/
def accAdd (acc : Acc) (c : Option Dy) (spilled : Bool) : Acc :=
  let fl := acc.flags ||| flagIf spilled flagSPILL
  match c with
  | none => { acc with count := acc.count + 1, nan := true, flags := fl }
  | some d =>
    let lsb := acc.anchor.toInt - 96
    let x := d.floorAt lsb
    let exact := decide (lsb ≤ d.e) || decide ((⟨x, lsb⟩ : Dy).le d ∧ d.le ⟨x, lsb⟩)
    let y := clampInt longMin longMax x
    { acc with
      sum := acc.sum + y
      count := acc.count + 1
      flags := fl ||| flagIf (!exact) flagILO ||| flagIf (decide (y ≠ x)) flagIHI }

/-- The BF16 row scale of a weight row (R124). -/
def TileView.rowScale (w : TileView) (n : Nat) : BitVec 16 :=
  if w.fmt.w2 then BitVec.ofNat 16 (w.rscales.getD n 0) else 0x3F80

/-- The accumulation a run starts or continues at (t, n) of a set: the anchor counts from its first contribution, the row scale
from its first run (R124, R204). -/
def accStart (accs : List ((Bool × Nat × Nat) × Acc)) (set acc : Bool) (anchor : BitVec 16) (w : TileView)
    (t n : Nat) : Acc :=
  match if acc then Assoc.find (set, t, n) accs else none with
  | some a => if a.count = 0 then { a with anchor := anchor } else a
  | none => { sum := 0, anchor := anchor, rscale := w.rowScale n, count := 0, flags := 0, nan := false }

/-- Faults of continuing accumulations (R124): another anchor than the contributions have, or another row scale. -/
def accContinueFault (accs : List ((Bool × Nat × Nat) × Acc)) (set : Bool) (anchor : BitVec 16) (w : TileView)
    (m : Nat) : Option Code :=
  let open' := accs.filter (fun p => p.1.1 == set && decide (p.1.2.1 < m) && decide (p.1.2.2 < w.rows))
  if open'.any (fun p => decide (p.2.count ≠ 0 ∧ p.2.anchor ≠ anchor)) then some 0x0207
  else if open'.any (fun p => decide (p.2.rscale ≠ w.rowScale p.1.2.2)) then some 0x020D
  else none

/-- What a run did: accumulations, real issue cycles, skipped pairs. -/
structure MxRun where
  accs : List ((Bool × Nat × Nat) × Acc)
  issued : Nat
  skipped : Nat
  deriving DecidableEq, Repr

/-- Issue cycles of one chunk of blocks: BF16 takes 16 positions per cycle (R117, R128). -/
def chunkCycles (w : TileView) (c : List Nat) : Nat := if w.fmt = .bf16 then 2 * c.length else 1

/-- Runs an activation tile against a resident tile into a set (R101 to R105, R124, R130 to R135, R204). An
accumulation whose every chunk was skipped is open with COUNT 0, which is the model's choice (R123, log 116). -/
def mxRunTiles (accs : List ((Bool × Nat × Nat) × Acc)) (w a : TileView) (cap : Nat) (set acc : Bool)
    (anchor : BitVec 16) : MxRun :=
  let spilled := (splitOutliers cap w.outl 0 none).2
  let step := fun (st : MxRun) (t : Nat) =>
    let chunks := issuedChunks w a t
    let bl := chunks.flatten
    let cycles := fun (l : List (List Nat)) => (l.map (chunkCycles w)).sum
    let accs' := (List.range w.rows).foldl (fun l n =>
      let a0 := accStart l set acc anchor w t n
      let a1 := bl.foldl (fun x i =>
        accAdd x (contribution w a t n i) (spilled.any (fun o => o.n == n && o.k / 32 == i && w.outIn n i o))) a0
      Assoc.put (set, t, n) a1 l) st.accs
    { accs := accs'
      issued := st.issued + cycles chunks
      skipped := st.skipped + (cycles (chunksOfRow w) - cycles chunks) }
  (List.range a.rows).foldl step { accs := accs, issued := 0, skipped := 0 }

/-- Whether some accumulation has received more than 65,536 contributions (R124). -/
def accOverflow (accs : List ((Bool × Nat × Nat) × Acc)) : Bool := accs.any (fun p => decide (65536 < p.2.count))

/-! ## Readout (R108 to R112, R618) -/

/-- Rounds an exact value to a floating target, saturating (R108): code and RSAT. -/
def roundTarget (f : FpFmt) (v : Dy) : Nat × Bool :=
  (f.round true (decide (v.m < 0)) v.m.natAbs v.e, f.overflows v.m.natAbs v.e)

/-- One readout element: its code and flags. The row scale multiplies for every target but L64 (R108, R112).
Without a contribution it is +0 whatever the row scale, which is the model's choice (R88, R109, log 112). -/
def readElem (f : Fmt) (acc : Option Acc) : Nat × BitVec 7 :=
  match acc with
  | none => (0, 0)
  | some a =>
    let r := clampInt longMin longMax a.sum
    let fl := a.flags ||| flagIf (decide (r ≠ a.sum)) flagIHI
    let scale := fpBrain.decode a.rscale.toNat
    let scaleBad := scale.isNan || scale.isInf
    if a.count = 0 then (0, 0)
    else
      match f with
      | .l64 =>
        if a.nan || scaleBad then (l64Nan.toNat, fl ||| flagNAN)
        else
          let x := (⟨r, -56⟩ : Dy).rneAt 0
          let c := l64Clamp x
          (c.1.toNat, fl ||| flagIf c.2 flagRSAT)
      | .int32 =>
        if a.nan || scaleBad then (0x80000000, fl ||| flagNAN)
        else
          let v := scale.dy.mul ⟨r, a.anchor.toInt - 96⟩
          let x := v.rneAt 0
          let c := clampInt (-(2 ^ 31 - 1)) (2 ^ 31 - 1) x
          (wrap 32 c, fl ||| flagIf (decide (c ≠ x)) flagRSAT)
      | _ =>
        if a.nan || scaleBad then (f.fp.nanCode, fl ||| flagNAN)
        else
          let v := scale.dy.mul ⟨r, a.anchor.toInt - 96⟩
          let c := roundTarget f.fp v
          (c.1, fl ||| flagIf c.2 flagRSAT)

/-- The lowest value of a target, a masked score (R149). -/
def maskedCode : Fmt → Nat
  | .bf16 => 0xFF80
  | .fp16 => 0xFC00
  | .int32 => 0x80000001
  | .l64 => 0x8000000000000001
  | _ => 0xFF800000

/-- Rows and columns of a readout: one more than the largest token and row of an open accumulation (R618). -/
def readoutShape (accs : List ((Bool × Nat × Nat) × Acc)) (set : Bool) : Nat × Nat :=
  let o := accs.filter (fun p => p.1.1 == set)
  (o.foldl (fun m p => max m (p.1.2.1 + 1)) 0, o.foldl (fun m p => max m (p.1.2.2 + 1)) 0)

/-- A readout: payload, status, and per-element flag words for the counters. -/
structure Readout where
  rows : Nat
  cols : Nat
  payload : List Byte
  codes : List (List Nat)
  status : BitVec 7
  flags : List (BitVec 7)
  deriving DecidableEq, Repr

/-- Reads a set out (R108 to R112, R149, R618). `mask` is QPOS and KPOS of causal scores; a masked
score has no flag, so its accumulation's ILO and IHI are not counted, which is the model's choice (R115, log 114). -/
def readoutSet (accs : List ((Bool × Nat × Nat) × Acc)) (set : Bool) (f : Fmt) (mask : Option (Nat × Nat)) :
    Readout :=
  let mn := readoutShape accs set
  let cell := fun (t n : Nat) =>
    match mask with
    | some (qpos, kpos) =>
      if qpos + t < kpos + n then (maskedCode f, (0 : BitVec 7)) else readElem f (Assoc.find (set, t, n) accs)
    | none => readElem f (Assoc.find (set, t, n) accs)
  let cells := (List.range mn.1).map (fun t => (List.range mn.2).map (cell t))
  let codes := cells.map (fun r => r.map (·.1))
  let flags := cells.flatten.map (·.2)
  { rows := mn.1, cols := mn.2, payload := codes.flatMap f.packRow, codes := codes,
    status := flags.foldl (· ||| ·) 0, flags := flags }

/-! ## Save records (R126, R127) -/

/-- The 32-byte record of an accumulation. -/
def saveRecord : Option Acc → List Byte
  | none => List.replicate 32 0
  | some a =>
    let w := wrap 144 a.sum
    natBytes 18 w ++ natBytes 2 a.anchor.toNat
      ++ natBytes 1 ((a.flags.toNat % 4) + (if a.nan then 4 else 0))
      ++ natBytes 1 (a.sum % 127).toNat ++ natBytes 3 a.count ++ natBytes 2 a.rscale.toNat ++ List.replicate 5 0

/-- What a record restores: nothing, an accumulation, or a fault (R127, R205). A record with COUNT = 0 opens none (R618). -/
def restoreRecord (bs : List Byte) (anchor : BitVec 16) : Except Code (Option Acc) :=
  if bs.all (fun b => b == 0) then .ok none
  else
    let sum := signed 144 (fieldNat bs 0 18)
    let fl := fieldNat bs 20 1
    let a := BitVec.ofNat 16 (fieldNat bs 18 2)
    if a ≠ anchor then .error 0x0207
    else if (sum % 127).toNat ≠ fieldNat bs 21 1 ∨ fieldNat bs 27 5 ≠ 0 ∨ 8 ≤ fl then .error 0x020C
    else if fieldNat bs 22 3 = 0 then .ok none
    else
      .ok (some { sum := sum, anchor := a, rscale := BitVec.ofNat 16 (fieldNat bs 25 2), count := fieldNat bs 22 3,
                  flags := BitVec.ofNat 7 (fl % 4), nan := decide (4 ≤ fl) })

end Sys2Proof.Machine
end

