-- ==== Sys2Proof/Machine/Derailleur.lean ====
section
/-! DEFINITION. Integrity and Derailleur (R489 to R517): snapshots, the slot map, quarantine, audit units and replays, scans,
rotation and PLLs. -/

namespace Sys2Proof.Machine

/-! ## Codes and snapshots -/

/-- Reports a Derailleur code: DER.CODE and an event on the management channel (R517). -/
def State.derReport (s : State) (code : Code) (detail : List Byte) : State := s.mgmtReport .derCode code detail

/-- Keeps a code that is no event in INT.CODE (R515, R517). -/
def State.intCode (s : State) (code : Code) : State := s.setReg .intCode 0 0 (codeWord code)

/-- A Crockford Base32 digit as ASCII (R14). -/
def base32Digit (n : Nat) : Nat :=
  ([48, 49, 50, 51, 52, 53, 54, 55, 56, 57, 65, 66, 67, 68, 69, 70, 71, 72, 74, 75, 77, 78, 80, 81, 82, 83, 84, 86, 87, 88,
    89, 90] : List Nat).getD n 48

/-- The serial string in ASCII without hyphens (R14, R511). -/
def serialString : List Byte :=
  [75, 83, 56] ++ (List.range 8).map (fun i =>
    BitVec.ofNat 8 (base32Digit (Config.serial.toNat / 2 ^ (5 * (7 - i)) % 32)))

/-- Pads bytes with zeros to a length. -/
def padTo (n : Nat) (bs : List Byte) : List Byte := (bs ++ List.replicate n 0).take n

/-- What a snapshot's header says (R511). -/
structure SnapHead where
  tick : Nat
  unit : Nat
  seg : Nat
  run : Nat
  part : Nat
  site1 : Nat
  site2 : Nat
  slot : Nat
  die : Nat
  code : Code
  /-- MX mode of the failing cycle; 0xFF where there is none. -/
  mode : Nat
  deriving DecidableEq, Repr

/-- The 64-byte snapshot header (R511). -/
def SnapHead.bytes (h : SnapHead) (seqNo : Nat) (tbc : Word) : List Byte :=
  padTo 32 serialString ++ natBytes 4 seqNo ++ natBytes 2 h.code.toNat ++ natBytes 1 h.die ++ natBytes 1 h.slot
    ++ natBytes 1 h.site1 ++ natBytes 1 h.site2 ++ natBytes 1 h.mode ++ natBytes 1 h.part ++ natBytes 1 h.run
    ++ natBytes 1 h.seg ++ natBytes 2 h.unit ++ natBytes 8 h.tick ++ wordBytes tbc

/-- Captures a snapshot: the record goes to flash, over the oldest of 64 where the ring is full (R511, R512). -/
def State.snapshot (s : State) (h : SnapHead) (area : List Byte) : State :=
  let q := s.integ.snapSeq
  let rec_ := padTo 8192 (h.bytes q s.now ++ area)
  let full := s.integ.snapshots.any (fun p => decide (p.1 = q % 64))
  let s1 := { s with
    integ := { s.integ with
      snapshots := (q % 64, rec_) :: s.integ.snapshots.filter (fun p => decide (p.1 ≠ q % 64)), snapSeq := q + 1 }
    boot := { s.boot with flashWrites := s.boot.flashWrites + 1 } }
  let s2 := s1.bump .intSnapshots 0 0 1
  if full then (s2.mgmtReport .intCode 0x0B0D []) else s2

/-! ## The slot map -/

/-- Whether unlisted bytes of a range may be unspecified: the newest range that covers it decides (R313, R588). -/
def looseIn (lo hi : Nat) : List (Nat × Nat × Blur) → Bool
  | [] => false
  | (a, b, k) :: l =>
    if a ≤ lo ∧ hi ≤ b then decide (k ≠ .zero) else decide (lo < b ∧ a < hi ∧ k ≠ .zero) || looseIn lo hi l

/-- Copies a range of memory (R499): its listed bytes; its unlisted ones read as zero at the copy too, or, where they may be
unspecified, as free values of the copy's own (log 68). -/
def Memory.copyRange (m : Memory) (src dst n seed : Nat) : Memory :=
  (m.cells.filter (fun c => decide (src ≤ c.1 ∧ c.1 < src + n))).foldl
    (fun t c => t.write (c.1 - src + dst) c.2)
    (m.blur dst (dst + n) (if looseIn src (src + n) m.blurs then .loose seed else .zero))

/-- Bytes of a core store. -/
def coreStoreBytes : Nat := 2 * mib

/-- A core reset (R590): the core store reads zero and the registers of the site's stations take their reset values. -/
def State.coreReset (s : State) (i : SiteId) : State :=
  let mine (k : RegKey) : Bool :=
    (match k.reg.info.block with
      | .mx | .vx | .tx | .lx => true
      | _ => false) && decide (k.i = siteIx i)
  { s with
    mem := s.mem.blur (siteAddr i) (siteAddr i + coreStoreBytes) .zero
    regs := s.regs.filter (fun p => !mine p.1) }

/-- Whether a site runs a replay (R494). -/
def State.replaying (s : State) (i : SiteId) : Bool :=
  (Assoc.getD i.die [] s.integ.queue).any (fun r => decide (r.running = some i.site))

/-- The sites of a die in ascending order. -/
def dieSites (d : Fin 8) : List SiteId := (List.finRange 160).map (fun k => ⟨d, k⟩)

/-- The lowest-numbered SPARE site of a die whose last scan passed (R499). -/
def State.spareFor (s : State) (d : Fin 8) : Option SiteId :=
  (dieSites d).find? (fun i => decide ((s.site i).state = .spare) && (s.site i).scanOk)

/-- A site that had power keeps it: a SPARE or scanned site is unparked when its part changes (R530). -/
def State.power (s : State) (i : SiteId) : State :=
  { s with integ := { s.integ with unparked := if s.integ.unparked.contains i then s.integ.unparked else s.integ.unparked ++ [i] } }

/-- Gives a slot to a site: its core store takes the contents of the old site (R499). A site with watch left serves on
watch (R501). A scan that a command asked for and that has not started is no longer possible (R514). -/
def State.serve (s : State) (i : SiteId) (k : Fin 144) (old : Option SiteId) : State :=
  let x := s.site i
  let st : SiteState := if s.opTime < x.watchEnd then .watch else .inService
  let s1 := s.setSite i { x with state := st, slot := some k, standsFor := old.map (·.site), due := false, scanCmd := none }
  let s2 := match x.scanCmd with
    | some f => s1.complete 0x00B4 f 0x0903
    | none => s1
  let s3 := (State.power s2 i).writeRepair
  match old with
  | none => s3
  | some o =>
    { s3 with mem := s3.mem.copyRange (siteAddr o) (siteAddr i) coreStoreBytes s3.freeCtr, freeCtr := s3.freeCtr + 1 }

/-- Moves the slot of a site to a spare of its die, or leaves it vacant with event 0x0B07 (R499, R505). -/
def State.moveSlot (s : State) (i : SiteId) : State :=
  match (s.site i).slot with
  | none => s
  | some k =>
    let s1 := s.setSite i { s.site i with slot := none }
    match s1.spareFor i.die with
    | some sp => s1.serve sp k (some i)
    | none => s1.writeRepair.derReport 0x0B07 []

/-- Events of a site within DER.EVENT_WINDOW hours (R503). -/
def State.siteEvents (s : State) (i : SiteId) : Nat :=
  ((s.site i).events.filter (fun t =>
    decide (s.opTime - t ≤ s.regN .derEventWindow * 3600000000000))).length

/-- Takes a site out of service: its slot moves; it is QUARANTINED with event 0x0B04, or RETIRED with event 0x0B06 on its
second event (R499, R503). A planned rotation is cancelled, a command that waits for it completes (R504, R514). -/
def State.quarantine (s : State) (i : SiteId) : State :=
  let x := s.site i
  let k := x.slot
  let s0 := s.setSite i { x with events := x.events ++ [s.opTime] }
  let s1 := s0.moveSlot i
  let retire := decide (2 ≤ s0.siteEvents i)
  let y := s1.site i
  let home := if x.standsFor.isSome then none else k
  let s2 := s1.setSite i
    { y with state := if retire then .retired else .quarantined, home := if retire then none else home,
             standsFor := none, rotated := false, due := false }
  let waits := s2.integ.atCommit.filter (fun p => decide (p.1 = i))
  let s3 := { s2 with
    integ := { s2.integ with
      atCommit := s2.integ.atCommit.filter (fun p => decide (p.1 ≠ i))
      rotating := s2.integ.rotating.filter (fun r => decide (r ≠ i))
      returning := s2.integ.returning.filter (fun r => decide (r ≠ i)) } }
  let slotByte := match k with
    | some n => n.val
    | none => 0xFF
  let s4 := if retire then (s3.bump .derRetirements 0 0 1).derReport 0x0B06 []
    else (s3.bump .derQuarantines 0 0 1).derReport 0x0B04 (natBytes 1 i.die.val ++ natBytes 1 i.site.val ++ natBytes 1 slotByte)
  let s5 := if retire ∧ k = none then s4.writeRepair else s4
  waits.foldl (fun t p => match p.2 with
    | some f => t.complete 0x00B3 f 0
    | none => t) s5

/-- Fills a vacant slot of a die with a spare that qualifies (R505). -/
def State.fillVacant (s : State) (d : Fin 8) : State :=
  match s.spareFor d, (List.finRange 144).find? (fun k => (s.siteOf ⟨d, k⟩).isNone) with
  | some sp, some k => s.serve sp k none
  | _, _ => s

/-- Whether the slot of a site is held by a VALID partition. -/
def State.siteHeld (s : State) (i : SiteId) : Option Part :=
  match (s.site i).slot with
  | none => none
  | some k => s.partOf ⟨i.die, k⟩

/-- A quarantine without a DIRTY vote (R500): at once where no partition holds a slot of the site, else at the next commit
apply of its domain. -/
def State.quarantineLater (s : State) (i : SiteId) (f : Option Frame) : State :=
  let s1 := { s with integ := { s.integ with atCommit := s.integ.atCommit ++ [(i, f)] } }
  match s.siteHeld i with
  | none => s1.quarantine i
  | some _ => s1

/-- A slot goes back to its WATCH site, and the spare that served it becomes SPARE again (R501, R504). -/
def State.returnSlot (s : State) (i : SiteId) : State :=
  let x := s.site i
  let s0 := { s with integ := { s.integ with returning := s.integ.returning.filter (fun r => decide (r ≠ i)) } }
  match x.home with
  | none => s0
  | some k =>
    if x.state ≠ .watch then s0
    else
      match s0.siteOf ⟨i.die, k⟩ with
      | none => (s0.setSite i { x with slot := some k, home := none }).writeRepair
      | some o =>
        let s1 := s0.setSite o { s0.site o with state := .spare, slot := none, standsFor := none }
        let s2 := (s1.setSite i { x with slot := some k, home := none }).writeRepair
        State.coreReset
          { s2 with mem := s2.mem.copyRange (siteAddr o) (siteAddr i) coreStoreBytes s2.freeCtr, freeCtr := s2.freeCtr + 1 } o

/-- Whether a die runs a scan (R501). -/
def State.scanning (s : State) (d : Fin 8) : Bool := (dieSites d).any (fun i => decide ((s.site i).state = .scanning))

/-- SPARE sites of a die. -/
def State.spares (s : State) (d : Fin 8) : Nat :=
  ((dieSites d).filter (fun i => decide ((s.site i).state = .spare))).length

/-- A planned rotation: the slot moves to a spare and the freed site is scanned (R507). -/
def State.rotate (s : State) (i : SiteId) : State :=
  if s.scanning i.die || decide (s.spares i.die < 2) || (s.spareFor i.die).isNone then s
  else
    let s0 := { s with integ := { s.integ with rotating := s.integ.rotating.filter (fun r => decide (r ≠ i)) } }
    if (s.site i).state ≠ .inService then s0
    else
      let s1 := s0.moveSlot i
      (s1.setSite i { s1.site i with state := .scanning, rotated := true }).bump .derRotations 0 0 1

/-- Quarantines, returns and rotations that wait, of the sites that the tests pick; each wait of a site is served once. -/
def State.derMoves (s : State) (mine back : State → SiteId → Bool) : State :=
  let s1 := (s.integ.atCommit.filter (fun p => mine s p.1)).foldl
    (fun t p => if t.integ.atCommit.any (fun q => decide (q.1 = p.1)) then t.quarantine p.1 else t) s
  let s2 := (s1.integ.returning.filter (back s1)).foldl State.returnSlot s1
  (s2.integ.rotating.filter (mine s2)).foldl State.rotate s2

/-- The slot moves that no VALID partition holds up any more, after a change of the partition table (R500). -/
def State.derFree (s : State) : State :=
  s.derMoves (fun t i => (t.siteHeld i).isNone) (fun t i =>
    match (t.site i).home with
    | some k => (t.partOf ⟨i.die, k⟩).isNone
    | none => false)

/-- The slot moves of the commit apply of a domain (R500, R501, R507). -/
def State.derCommit (s : State) (n : Part) : State :=
  let mine (t : State) (i : SiteId) : Bool := decide (t.siteHeld i = some n)
  let back (t : State) (i : SiteId) : Bool :=
    match (t.site i).home with
    | some k => decide (t.partOf ⟨i.die, k⟩ = some n)
    | none => false
  s.derMoves mine back

/-- Ascending order of sites on a die. -/
def insertSite (x : SiteId × Part × Nat × Code) : List (SiteId × Part × Nat × Code) → List (SiteId × Part × Nat × Code)
  | [] => [x]
  | y :: l => if x.1.site.val ≤ y.1.site.val then x :: y :: l else y :: insertSite x l

/-- The restore step of a retraction: the sites that made the errors of the retracted segments are quarantined (R499). -/
def State.derRestore (s : State) (n : Part) (j : Nat) : State :=
  let mine := s.integ.suspects.filter (fun p => decide (p.2.1 = n) && decide (j ≤ p.2.2.1))
  let s1 := { s with integ := { s.integ with suspects := s.integ.suspects.filter (fun p => decide (p ∉ mine)) } }
  (mine.foldr insertSite []).foldl (fun t p =>
    if (t.site p.1).state = .inService ∨ (t.site p.1).state = .watch then t.quarantine p.1 else t) s1

/-- Whether the module takes no part in a domain: a vacant slot of its partition, or a die without a locked PLL (R505,
R509). -/
def State.silent (s : State) (n : Part) : Bool :=
  (s.coresOf n).any (fun c => (s.siteOf c).isNone)
    || (List.range 20).any (fun d => decide (bits (s.reg .derPll 0 d) 2 0 = 0))

/-! ## Residue events (R137 to R141) -/

/-- The residue mismatch injected at a contribution of a core: counted, the vote DIRTY with 0x0B01, no site named (R140,
R141, R492). -/
def State.injectedMismatch (s : State) (c : CoreId) : State :=
  let i := s.coreIx c
  let s1 := ((s.setReg .mxResidueInject i 0 (setBits (s.reg .mxResidueInject i) 0 0 0)).bump .mxResidueErrs i 0 1).bump
    .intInjected 0 0 1
  match s.partOf c with
  | none => s1
  | some n => (s1.segError n (s.core c).seg 0x0B01 none).intCode 0x0B01

/-- The elements and the block scales of the chunk of Kc positions that holds K position `pos` of a row. -/
def TileView.chunkAt (v : TileView) (kc pos r : Nat) : List Byte × List Byte :=
  let k := pos / kc * kc
  let nb := v.fmt.block
  (((v.raw.getD r []).drop (v.fmt.rowBytes k)).take (v.fmt.rowBytes kc),
    if nb = 0 then [] else (((v.scales.getD r []).drop (k / nb)).take (kc / nb)).map (BitVec.ofNat 8))

/-- The expected and the computed residue of 64 rows of which one differs (R137, R511). The spec does not number the least
significant bit of a contribution, so the expected ones are free values (log 98). -/
def residueBytes (seed rows row delta : Nat) : List Byte :=
  (List.range 64).flatMap (fun n =>
    let e := if n < rows then Config.residue seed n % 127 else 0
    natBytes 1 e ++ natBytes 1 (if n = row then (e + delta) % 127 else e))

/-- The residue area of a snapshot (R511). -/
def residueArea (seed : Nat) (w a : TileView) (e : ResidueErr) : List Byte :=
  let kc := w.fmt.kc
  let act := a.chunkAt kc e.pos e.token
  let wt := (List.range 64).map (w.chunkAt kc e.pos)
  padTo 320 (act.1 ++ act.2) ++ wt.flatMap (fun x => padTo 64 x.1) ++ padTo 128 (w.rscales.flatMap (natBytes 2))
    ++ wt.flatMap (fun x => padTo 4 x.2) ++ residueBytes seed w.rows e.row.val e.delta

/-- The snapshot header of a residue event of a site: the work of the slot it serves (R511). -/
def State.residueHead (s : State) (i : SiteId) (code : Code) (mode : Nat) : SnapHead :=
  let h : SnapHead :=
    { tick := 0, unit := 0, seg := 0, run := 0, part := 0xFF, site1 := i.site.val, site2 := 0xFF, slot := 0xFF,
      die := i.die.val, code := code, mode := mode }
  match (s.site i).slot with
  | none => h
  | some k =>
    let c : CoreId := ⟨i.die, k⟩
    match s.partOf c with
    | none => { h with slot := k.val }
    | some n => { h with slot := k.val, part := n.val, tick := (s.dom n).tick, run := (s.dom n).run, seg := (s.core c).seg }

/-- A residue check fails on real issue: counted, the operands recorded, the vote DIRTY with 0x0B01 and the site suspect; the
core runs on (R140, R492, R499, R511). -/
def State.residueMismatch (s : State) (c : CoreId) (w a : TileView) (e : ResidueErr) : State :=
  let s1 := (s.bump .mxResidueErrs (s.coreIx c) 0 1).bump .intResidueEvents 0 0 1
  match s.siteOf c, s.partOf c with
  | some i, some n =>
    let j := (s.core c).seg
    let s2 := (s1.snapshot (s1.residueHead i 0x0B01 w.fmt.mode) (residueArea s1.freeCtr w a e)).intCode 0x0B01
    let s3 := { s2 with freeCtr := s2.freeCtr + 1 }.segError n j 0x0B01 (some i)
    { s3 with integ := { s3.integ with suspects := s3.integ.suspects ++ [(i, n, j, 0x0B01)] } }
  | _, _ => s1

/-- The operands of a ballast cycle: the fixed patterns of a mode, which the spec does not give (R153, R511, log 98). -/
def ballastArea (seed mode : Nat) (e : BallastErr) : List Byte :=
  (List.range 4800).map (Config.ballastByte mode) ++ residueBytes seed 64 e.row.val e.delta

/-- A residue check fails on a ballast cycle: counted and recorded, event 0x0B08, and the site is quarantined without a DIRTY
vote (R153, R492, R500, R511). -/
def State.ballastMismatch (s : State) (e : BallastErr) : State :=
  let i := e.site
  let mode := match (s.site i).slot with
    | some k => (s.core ⟨i.die, k⟩).mx.mode
    | none => 0
  let s1 := (s.bump .mxResidueErrs (siteIx i) 0 1).bump .intBallastEvents 0 0 1
  let s2 := s1.snapshot (s1.residueHead i 0x0B08 mode) (ballastArea s1.freeCtr mode e)
  ({ s2 with freeCtr := s2.freeCtr + 1 }.mgmtReport .intCode 0x0B08 []).quarantineLater i none

/-! ## Audit (R229, R493 to R498) -/

/-- Entries of a die's replay queue that are taken or promised to open units (R493). -/
def State.queueTaken (s : State) (d : Fin 8) : Nat :=
  (Assoc.getD d [] s.integ.queue).length
    + (s.cores.filter (fun p => decide (p.1.die = d) && (p.2.audit.any (·.sampled)))).length

/-- The draw of R493: a free value (log 3). -/
def State.drawSample (s : State) (c : CoreId) : State × Bool :=
  let watch := match s.siteOf c with
    | some i => decide ((s.site i).state = .watch)
    | none => false
  let r := s.reg .intAuditRate
  let shift := if watch then bits r 12 8 else bits r 4 0
  if !watch && shift == 31 then (s, false)
  else
    let f := s.fresh
    if f.1.toNat % 2 ^ shift ≠ 0 then (f.2, false)
    else if s.queueTaken c.die < (if watch then 16 else 12) then (f.2.bump .intSampled 0 0 1, true)
    else (f.2.bump .intSkipped 0 0 1, false)

/-- AUDB opens a unit (R229). -/
def State.openUnit (s : State) (c : CoreId) (unit : BitVec 16) : State :=
  let r := s.drawSample c
  let x := s.core c
  r.1.setCore c { x with audit := some ⟨x.nextTag, unit, r.2, x.s.toList, x.p.toList, x.td.toList, []⟩,
                         nextTag := x.nextTag + 1 }

/-- AUDE closes the unit and queues its replay if it was sampled (R229, R493). -/
def State.closeUnit (s : State) (c : CoreId) : State :=
  let x := s.core c
  match x.audit with
  | none => s
  | some a =>
    let s1 := (s.setCore c { x with audit := none }).bump .intUnits 0 0 1
    match a.sampled, s.siteOf c, s.partOf c with
    | true, some i, some n =>
      let r : Replay :=
        { site := i, part := n, tick := (s.dom n).tick, seg := x.seg, run := (s.dom n).run, unit := a.unit,
          slot := c.slot, watch := decide ((s.site i).state = .watch), audit := a, runs := [], running := none }
      { s1 with integ := { s1.integ with
          queue := Assoc.put c.die (Assoc.getD c.die [] s1.integ.queue ++ [r]) s1.integ.queue } }
    | _, _, _ => s1

/-- Whether replays of a segment are pending (R497). -/
def State.replaysPending (s : State) (n : Part) (j : Nat) : Bool :=
  s.integ.queue.any (fun p => p.2.any (fun r => decide (r.part = n) && decide (r.seg = j)))

/-- Cancels the replays of a domain's segments from `j` on (R498). -/
def State.cancelReplays (s : State) (n : Part) (j : Nat) : State :=
  { s with integ := { s.integ with
      queue := s.integ.queue.map (fun p => (p.1, p.2.filter (fun r => !(decide (r.part = n) && decide (j ≤ r.seg))))) } }

/-- The first available site for a replay (R494). -/
def State.replaySite (s : State) (d : Fin 8) (r : Replay) : Option SiteId :=
  let free (i : SiteId) : Bool :=
    decide (i ≠ r.site) && !(r.runs.any (fun p => decide (p.1 = i.site))) && !s.replaying i
  match (dieSites d).find? (fun i => free i && decide ((s.site i).state = .spare) && (s.site i).scanOk) with
  | some i => some i
  | none => (dieSites d).find? (fun i => free i && decide ((s.site i).state = .inService))

/-- Starts the first replay of a list that waits and has a site. -/
def State.startFirst (s : State) (d : Fin 8) : List Replay → Option (List Replay)
  | [] => none
  | r :: l =>
    match r.running, s.replaySite d r with
    | none, some i => some ({ r with running := some i.site } :: l)
    | _, _ => (s.startFirst d l).map (fun t => r :: t)

/-- Replaces a die's replay queue. -/
def State.setReplays (s : State) (d : Fin 8) (l : List Replay) : State :=
  { s with integ := { s.integ with queue := Assoc.put d l s.integ.queue } }

/-- A sampled unit starts replaying on the first available site (R494). -/
def State.startReplay (s : State) (d : Fin 8) : State :=
  match s.startFirst d (Assoc.getD d [] s.integ.queue) with
  | none => s
  | some l => (s.setReplays d l).bump .intReplays 0 0 1

/-- The digest of an original: its stored tiles folded in order (R229, R231). -/
def originalDigest (a : Audit) : List Byte := a.stored.foldl (fun h m => sha384 (h ++ m)) (List.replicate 48 0)

/-- The audit area of a snapshot (R511). -/
def auditArea (a : Audit) (first third : List Byte) : List Byte :=
  let ps := (List.range 8).foldl (fun n i => n + if a.p.getD i false then 2 ^ i else 0) 0
  padTo 256 (a.s.flatMap wordBytes) ++ natBytes 1 ps ++ List.replicate 31 0
    ++ padTo 1024 (a.td.flatMap (fun d => natBytes 32 d.toNat)) ++ padTo 128 (originalDigest a) ++ padTo 128 first
    ++ padTo 128 third

/-- The snapshot header of an audit event. -/
def auditHead (d : Fin 8) (r : Replay) (code : Code) (site1 site2 slot : Nat) : SnapHead :=
  { tick := r.tick, unit := r.unit.toNat, seg := r.seg, run := r.run, part := r.part.val, site1 := site1, site2 := site2,
    slot := slot, die := d.val, code := code, mode := 0xFF }

/-- An audit found the original site at fault: the vote is DIRTY with 0x0B02 and the site is suspect (R496, R499). -/
def State.originalAtFault (s : State) (r : Replay) (i : SiteId) : State :=
  let s1 := (s.segError r.part r.seg 0x0B02 (some i)).intCode 0x0B02
  { s1 with integ := { s1.integ with suspects := s1.integ.suspects ++ [(i, r.part, r.seg, 0x0B02)] } }

/-- What the digests of a unit decide (R496): `none` while a third run is needed. A replay that failed differs from every
digest. -/
def State.judge (s : State) (d : Fin 8) (r : Replay) : Option State :=
  let orig := originalDigest r.audit
  match r.runs with
  | [(_, first)] => if first = some orig then some s else none
  | [(k, first), (_, third)] =>
    let site : SiteId := ⟨d, k⟩
    let area := auditArea r.audit (first.getD []) (third.getD [])
    let slotOf (i : SiteId) : Nat := match (s.site i).slot with
      | some n => n.val
      | none => 0xFF
    if third = some orig then
      let s1 := s.snapshot (auditHead d r 0x0B09 k.val 0xFF (slotOf site)) area
      some ((s1.mgmtReport .intCode 0x0B09 []).quarantineLater site none)
    else if third.isSome ∧ third = first then
      let s1 := s.snapshot (auditHead d r 0x0B02 r.site.site.val 0xFF r.slot.val) area
      some (s1.originalAtFault r r.site)
    else
      let s1 := s.snapshot (auditHead d r 0x0B02 r.site.site.val k.val r.slot.val) area
      let s2 := s1.originalAtFault r r.site
      some (match (s.site site).state with
        | .spare => s2.quarantineLater site none
        | _ => { s2 with integ := { s2.integ with suspects := s2.integ.suspects ++ [(site, r.part, r.seg, 0x0B02)] } })
  | _ => some s

/-- A replay ends with a digest, or with a failure (R495, R496). -/
def State.endReplay (s : State) (d : Fin 8) (digest : Option (List Byte)) : State :=
  let q := Assoc.getD d [] s.integ.queue
  match q.find? (fun r => r.running.isSome) with
  | none => s
  | some r =>
    match r.running with
    | none => s
    | some k =>
      let r1 := { r with runs := r.runs ++ [(k, digest)], running := none }
      let differs := decide (r.runs = []) && decide (digest ≠ some (originalDigest r.audit))
      let s1 := if differs then s.bump .intAuditMismatches 0 0 1 else s
      match s1.judge d r1 with
      | none => s1.setReplays d (q.map (fun x => if x = r then r1 else x))
      | some s2 => s2.setReplays d (q.filter (fun x => decide (x ≠ r)))

/-! ## Scans and rotation (R501 to R507) -/

/-- The site that a die scans next: the lowest-numbered QUARANTINED site, else a SPARE whose scan is due (R501, R506). -/
def State.scanNext (s : State) (d : Fin 8) : Option SiteId :=
  match (dieSites d).find? (fun i => decide ((s.site i).state = .quarantined)) with
  | some i => some i
  | none => (dieSites d).find? (fun i => decide ((s.site i).state = .spare) && (s.site i).due && !s.replaying i)

/-- A scan starts, one site per die at a time (R501). -/
def State.startScan (s : State) (d : Fin 8) : State :=
  if s.scanning d then s
  else
    match s.scanNext d with
    | none => s
    | some i => s.setSite i { s.site i with state := .scanning }

/-- Completes DER_SCAN with its result (R514). -/
def State.scanAnswer (s : State) (f : Option Frame) (pass : Bool) : State :=
  match f with
  | none => s
  | some g => s.complete 0x00B4 g 0 [if pass then 1 else 0]

/-- A site with a scan passed (R501, R506, R507). -/
def State.scanPassed (s : State) (i : SiteId) : State :=
  let x := s.site i
  let y := { x with scanOk := true, scanAt := s.opTime, scanCmd := none, rotated := false, due := false }
  if x.due || x.rotated then ((s.coreReset i).setSite i { y with state := .spare }).fillVacant i.die
  else
    let watchEnd := s.opTime + s.regN .derWatchHours * 3600000000000
    match x.home with
    | none => (((s.coreReset i).setSite i { y with state := .spare, watchEnd := watchEnd }).derReport 0x0B05 []).fillVacant i.die
    | some k =>
      let s1 := ((s.setSite i { y with state := .watch, watchEnd := watchEnd }).power i).derReport 0x0B05 []
      match s1.partOf ⟨i.die, k⟩ with
      | none => s1.returnSlot i
      | some _ => { s1 with integ := { s1.integ with returning := s1.integ.returning ++ [i] } }

/-- A site with a scan failed is RETIRED (R503, R506). -/
def State.scanFailed (s : State) (i : SiteId) : State :=
  let x := s.site i
  let s1 := s.setSite i
    { x with state := .retired, scanOk := false, scanAt := s.opTime, scanCmd := none, rotated := false, due := false,
             home := none }
  let s2 := ((s1.bump .derScanFails 0 0 1).bump .derRetirements 0 0 1).derReport 0x0B06 []
  s2.writeRepair

/-- The end of the scan that a die runs. -/
def State.endScan (s : State) (d : Fin 8) (pass : Bool) : State :=
  match (dieSites d).find? (fun i => decide ((s.site i).state = .scanning)) with
  | none => s
  | some i =>
    let f := (s.site i).scanCmd
    let s1 := s.bump .derScans 0 0 1
    (if pass then s1.scanPassed i else s1.scanFailed i).scanAnswer f pass

/-- The IN_SERVICE site of a die whose last scan is oldest, the lowest number first (R507). -/
def State.oldestScan (s : State) (d : Fin 8) : Option SiteId :=
  (dieSites d).foldl (fun b i =>
    if (s.site i).state ≠ .inService then b
    else
      match b with
      | none => some i
      | some j => if (s.site i).scanAt < (s.site j).scanAt then some i else some j) none

/-- The rotation period of a die expires (R507). -/
def State.planRotation (s : State) (d : Fin 8) : State :=
  if s.regN .derRotatePeriod = 0 then s
  else
    match s.oldestScan d with
    | none => s
    | some i =>
      if s.integ.rotating.any (fun r => decide (r.die = d)) then s
      else
        let s1 := { s with integ := { s.integ with rotating := s.integ.rotating ++ [i] } }
        match s.siteHeld i with
        | none => s1.rotate i
        | some _ => s1

/-! ## PLLs (R509) -/

/-- The clock area of a snapshot (R511). -/
def State.clockArea (s : State) (d : Fin 20) (lost new before after : Nat) : List Byte :=
  let dom (n : Part) : Domain := s.dom n
  let runs (n : Part) : Bool := decide ((dom n).state = .running)
  natBytes 1 lost ++ natBytes 1 new ++ natBytes 1 before ++ natBytes 1 after ++ List.replicate 12 0
    ++ natBytes 2 (wrap 16 (s.pw.tj.getD d.val 0)) ++ [0] ++ natBytes 1 (s.pw.vfPoint.getD d.val 0) ++ List.replicate 12 0
    ++ (List.finRange 16).flatMap (fun n =>
      natBytes 1 (if runs n && (s.coresOf n).any (fun c => decide (c.die.val = d.val)) then s.segNow n else 0xFF))
    ++ (List.finRange 16).flatMap (fun n => natBytes 4 (if runs n then (dom n).tick else 0))

/-- Kills every running segment on a compute die with 0x0B03 (R509). -/
def State.killDie (s : State) (d : Nat) : State :=
  s.cores.foldl (fun t p => if p.1.die.val = d ∧ p.2.running then t.kill p.1 0x0B03 else t) s

/-- The PLL in use of a die loses lock (R509). -/
def State.pllLost (s : State) (d : Fin 20) : State :=
  let r := s.reg .derPll 0 d.val
  let before := bits r 2 0
  let lost := bits r 5 4
  let after := before - (if before / 2 ^ lost % 2 = 1 then 2 ^ lost else 0)
  let new := [0, 1, 2].find? (fun i => decide (after / 2 ^ i % 2 = 1))
  let s1 := s.setReg .derPll 0 d.val (setBits (setBits r 2 0 after) 5 4 (new.getD lost))
  let s2 :=
    if d.val < 8 then
      let head : SnapHead :=
        { tick := 0, unit := 0, seg := 0xFF, run := 0, part := 0xFF, site1 := 0xFF, site2 := 0xFF, slot := 0xFF,
          die := d.val, code := 0x0B03, mode := 0xFF }
      let t := (s1.snapshot head (s.clockArea d lost (new.getD 0xFF) before after)).bump .intClockEvents 0 0 1
      (t.killDie d.val).intCode 0x0B03
    else s1
  match new with
  | some _ => s2.derReport 0x0B0A []
  | none => s2.derReport 0x0B0B []

end Sys2Proof.Machine
end

