-- ==== Sys2Proof/Machine/Flags.lean ====
section
/-! DEFINITION. Conditions: the scalar comparisons of CMP and WAITV and the predicate operations of PLOG (R198). -/

namespace Sys2Proof.Machine

/-- A CMP condition (R198); reserved codes give none. -/
def cmpCond (fn : BitVec 8) (a b : Word) : Option Bool :=
  match fn.toNat with
  | 0 => some (decide (a = b))
  | 1 => some (decide (a ≠ b))
  | 2 => some (BitVec.slt a b)
  | 3 => some (!BitVec.slt a b)
  | 4 => some (BitVec.ult a b)
  | 5 => some (!BitVec.ult a b)
  | _ => none

/-- A PLOG operation (R198); reserved codes give none. -/
def plogOp (fn : BitVec 8) (a b : Bool) : Option Bool :=
  match fn.toNat with
  | 0 => some (a && b)
  | 1 => some (a || b)
  | 2 => some (xor a b)
  | 3 => some (a && !b)
  | _ => none

/-- A WAITV condition on the polled word against sB (R198, R218); reserved codes give none. -/
def waitCond (fn : BitVec 8) (w b : Word) : Option Bool :=
  match fn.toNat with
  | 0 => some (decide (w = b))
  | 1 => some (decide (w ≠ b))
  | 2 => some (!BitVec.slt w b)
  | 3 => some (!BitVec.ult w b)
  | _ => none

/-- Leading zero bits of a word, 64 for zero (R198). -/
def leadingZeros (a : Word) : Nat := if a = 0 then 64 else 63 - Nat.log2 a.toNat

/-- The high 64 bits of the signed product (R198). -/
def mulHigh (a b : Word) : Word := BitVec.ofInt 64 (a.toInt * b.toInt / 2 ^ 64)

/-- A value for a descriptor field, where it fits (R200): `signed?` fields take a two's-complement value. -/
def fieldFits (n : Nat) (sgn : Bool) (v : Int) : Bool :=
  if sgn then decide (-(2 ^ (n - 1)) ≤ v) && decide (v < 2 ^ (n - 1)) else decide (0 ≤ v) && decide (v < 2 ^ n)

/-- A field of a descriptor as a number, sign-extended if signed (R200). -/
def fieldValue (d : Desc) (lo n : Nat) (sgn : Bool) : Int :=
  if sgn then signed n (descField d lo n) else (descField d lo n : Int)

/-- A scalar as the value of a field: signed fields take it as signed, others as unsigned (R200). -/
def fieldOperand (sgn : Bool) (w : Word) : Int := if sgn then w.toInt else (w.toNat : Int)

/-- Writes a field (R167). -/
def fieldPut (d : Desc) (lo n : Nat) (v : Int) : Desc := descSet d lo n (wrap n v)

end Sys2Proof.Machine
end

