-- ==== Sys2Proof/Machine/Coll.lean ====
section
/-! DEFINITION. Collective engines (R418 to R425): contributions, the shares that modules send each other, results. -/

namespace Sys2Proof.Machine

/-! ## Group descriptors (R419) -/

/-- Fields of a group descriptor. -/
def groupMembers (g : List Byte) : List ModIx := maskMods (bytesWord ((g.drop 8).take 8))
def groupCores (g : List Byte) : Nat := fieldNat g 6 2
def groupId (g : List Byte) : Nat := fieldNat g 4 2
def groupRoot (g : List Byte) : Nat := fieldNat g 3 1

/-- Whether a group descriptor breaks the table of R419 for a kind, or does not name this module (R420). -/
def State.groupBad (s : State) (n : Part) (kind : Nat) (g : List Byte) : Bool :=
  let m := groupMembers g
  decide (fieldNat g 0 2 ≠ 0x4347) || decide (fieldNat g 2 1 ≠ 0) || decide (fieldNat g 16 48 ≠ 0)
    || decide (groupCores g = 0) || decide (1152 < groupCores g) || m.any (fun k => !(s.members n).contains k)
    || !m.contains s.self || ((kind = 2 || kind = 6) && !(m.any (fun k => decide (k.val = groupRoot g))))

/-! ## Elements (R422) -/

/-- An element of a sum or a maximum: its value (the code, for FP32), and whether it is NaN. -/
abbrev El := Int × Bool

/-- Whether a kind is a sum. -/
def sumKind (k : Nat) : Bool := decide (k ≤ 3)

/-- The formats that a kind allows (R418). -/
def kindFmt (k : Nat) (f : Fmt) : Bool :=
  if k ≤ 3 then f = .l64 || f = .int32
  else if k = 4 then f = .fp32 || f = .int32 || f = .l64
  else true

/-- An element from its code. -/
def elOf (k : Nat) (f : Fmt) (code : Nat) : El :=
  match f with
  | .l64 => (signed 64 code, sumKind k && decide (code = l64Nan.toNat))
  | .int32 => (signed 32 code, false)
  | _ => ((code : Int), (fpSingle.decode code).isNan)

/-- Two elements combined; a partial sum of L64 stays within 72 bits (R114, R422). -/
def elCombine (k : Nat) (f : Fmt) (a b : El) : El :=
  if sumKind k then ((if f = .l64 then l64Partial (a.1 + b.1) else a.1 + b.1), a.2 || b.2)
  else if f = .fp32 then
    ((fpSingle.encode ((fpSingle.decode a.1.toNat).maximum (fpSingle.decode b.1.toNat)) : Int), a.2 || b.2)
  else (max a.1 b.1, a.2 || b.2)

/-- The code of a combined element, and whether it was clamped (R114, R422). -/
def elCode (k : Nat) (f : Fmt) (e : El) : Nat × Bool :=
  match f with
  | .l64 =>
    if sumKind k then
      if e.2 then (l64Nan.toNat, false) else let r := l64Clamp (l64Partial e.1); (r.1.toNat, r.2)
    else (wrap 64 e.1, false)
  | .int32 => (wrap 32 e.1, false)
  | _ => if e.2 then (fpSingle.nanCode, false) else (e.1.toNat, false)

/-- The elements of a tile, by rows. -/
def tileEls (k : Nat) (t : Tile) : List El := t.view.elems.flatten.map (elOf k t.fmt)

/-- Elements combined position by position. -/
def combineEls (k : Nat) (f : Fmt) (l : List (List El)) : List El :=
  match l with
  | [] => []
  | a :: r => r.foldl (fun x y => List.zipWith (elCombine k f) x y) a

/-! ## Shares on the wire (R422, log 37) -/

/-- The bytes of combined elements in a share: an L64 sum has `w` bytes, other elements those of their format; marks of NaN
elements follow where there are any. -/
def elsBytes (k : Nat) (f : Fmt) (w : Nat) (els : List El) : List Byte :=
  let one (e : El) : List Byte :=
    if sumKind k && decide (f = .l64) then natBytes w (wrap (8 * w) (l64Partial e.1))
    else natBytes (f.rowBytes 1) (wrap (8 * f.rowBytes 1) e.1)
  els.flatMap one ++ (if sumKind k && els.any (·.2) then (runsOf 8 els).map (fun r => packByte 1 (r.map (fun e => bitN e.2)))
    else [])

/-- The elements that a share's bytes hold. -/
def elsFrom (k : Nat) (f : Fmt) (n : Nat) (marks : Bool) (bs : List Byte) : List El :=
  let l64 := sumKind k && decide (f = .l64)
  let w := if l64 then (if 16 * n ≤ bs.length then 16 else 9) else f.rowBytes 1
  (List.range n).map (fun i =>
    let v := fieldNat bs (i * w) w
    if l64 then (signed (8 * w) v, marks && (bs.getD (n * w + i / 8) 0).getLsbD (i % 8))
    else elOf k f v)

/-- Rows of several tiles of one format and width, in order (R418 ALLGATHER). A row number above 255 of an outlier entry has
no encoding: it is open (log 37). -/
def joinTiles (ts : List Tile) : Tile :=
  match ts with
  | [] => mkTile .bf16 0 0 0 0 []  false
  | t :: _ =>
    let vs := ts.map Tile.view
    let shift (i : Nat) (v : TileView) : List Outlier :=
      v.outl.map (fun o =>
        let r := o.n + i * t.rows
        { o with n := if r < 256 then r else (Config.freeByte 0 r).toNat })
    let v : TileView :=
      { t.view with rows := t.rows * ts.length, elems := vs.flatMap (·.elems), raw := vs.flatMap (·.raw),
                    scales := vs.flatMap (·.scales), rscales := vs.flatMap (·.rscales),
                    outl := (vs.mapIdx shift).flatten }
    let outl := ts.any (·.outl)
    mkTile t.fmt v.rows t.cols t.anchor 0 (packTile v outl) outl

/-- What an instance's local contributions give as this module's share (R418, R422). -/
def CollInst.share (x : CollInst) (self : ModIx) (w : Nat) : CollPart :=
  let full := x.contribs.filter (fun c => decide (c.tile.rows ≠ 0))
  let shape := ((full.head?).map (fun c => c.tile.desc)).getD 0
  let f := fmtOf (descFmt shape)
  let base : CollPart :=
    { module := self, kind := x.kind, hash := x.hash, cores := x.contribs.length, nonEmpty := full.length, shape := shape,
      carried := false, outl := false, marks := false, fault := x.fault, total := 0, data := [] }
  let withTile (t : Tile) (carried : Bool) : CollPart :=
    { base with carried := carried, outl := t.outl, total := t.payload.length, data := t.payload }
  if x.fault ≠ 0 ∨ full.isEmpty then base
  else if x.kind ≤ 4 then
    let els := combineEls x.kind f (full.map (fun c => tileEls x.kind c.tile))
    let bs := elsBytes x.kind f w els
    { base with marks := sumKind x.kind && els.any (·.2), total := bs.length, data := bs }
  else if x.kind = 5 then withTile (joinTiles (full.map (·.tile))) true
  else if x.kind = 6 ∧ x.root = self.val then
    match x.contribs.head? with
    | some c => if c.tile.rows = 0 then base else withTile c.tile true
    | none => base
  else base

/-- The header of a share's packets (log 37). -/
def shareHeader (x : CollInst) (p : CollPart) (isResult : Bool) (off : Nat) : List Byte :=
  natBytes 1 p.kind
    ++ natBytes 1 (bitN p.outl + 2 * bitN p.marks + 4 * bitN isResult + 8 * bitN p.carried)
    ++ natBytes 2 x.group ++ natBytes 4 x.n ++ wordBytes p.hash ++ natBytes 2 p.cores ++ natBytes 2 p.nonEmpty
    ++ natBytes 4 p.total ++ natBytes 4 off ++ natBytes 2 p.fault.toNat ++ natBytes 2 0 ++ natBytes 32 p.shape.toNat

/-- A share as packet payloads of at most 4,096 bytes (R404). -/
def sharePayloads (x : CollInst) (p : CollPart) : List (List Byte) :=
  let cuts := if p.data.isEmpty then [[]] else runsOf 4032 p.data
  cuts.mapIdx (fun i bs => shareHeader x p false (4032 * i) ++ bs ++ List.replicate (up8 bs.length - bs.length) 0)

/-- A share from one packet. -/
def shareOf (m : ModIx) (bs : List Byte) : CollPart :=
  let fl := fieldNat bs 1 1
  let off := fieldNat bs 24 4
  let total := fieldNat bs 20 4
  { module := m, kind := fieldNat bs 0 1, hash := bytesWord ((bs.drop 8).take 8), cores := fieldNat bs 16 2,
    nonEmpty := fieldNat bs 18 2, shape := BitVec.ofNat 256 (fieldNat bs 32 32), carried := decide (fl / 8 % 2 = 1),
    outl := decide (fl % 2 = 1), marks := decide (fl / 2 % 2 = 1), fault := BitVec.ofNat 16 (fieldNat bs 28 2),
    total := total, data := (bs.drop 64).take (min 4032 (total - off)) }

/-! ## Instances -/

/-- The instances of the module. -/
def State.insts (s : State) : List CollInst := s.fab.insts

/-- Replaces the instances. -/
def State.setInsts (s : State) (l : List CollInst) : State := { s with fab := { s.fab with insts := l } }

/-- The name of an instance (R420): partition, segment, group, number. -/
abbrev CollKey := Part × Nat × Nat × Nat

/-- The name of an instance. -/
def CollInst.key (x : CollInst) : CollKey := (x.part, x.seg, x.group, x.n)

/-- An instance by name. -/
def State.inst (s : State) (k : CollKey) : Option CollInst := s.insts.find? (fun x => decide (x.key = k))

/-- Replaces an instance, or enters it. -/
def State.putInst (s : State) (x : CollInst) : State :=
  if (s.inst x.key).isSome then s.setInsts (s.insts.map (fun y => if y.key = x.key then x else y))
  else s.setInsts (s.insts ++ [x])

/-- Removes an instance. -/
def State.dropInst (s : State) (k : CollKey) : State := s.setInsts (s.insts.filter (fun y => decide (y.key ≠ k)))

/-- An instance nothing has reached. -/
def newInst (k : CollKey) (kind : Nat) (hash : Word) : CollInst :=
  { part := k.1, seg := k.2.1, group := k.2.2.1, n := k.2.2.2, kind := kind, hash := hash, members := [], perModule := 0,
    root := 0, contribs := [], parts := [], result := none, sent := false, fault := 0 }

/-- Marks a handle of a core. -/
def Core.handleDone (x : Core) (h : Nat) (acks : List Code) : Core :=
  { x with colls := Assoc.put h ⟨true, acks⟩ x.colls }

/-- Whether a collective of a core is over: its part is, and the writes of its result are acknowledged (R423). -/
def State.collDone (s : State) (h : CollHandle) : Bool :=
  h.done && h.acks.all (fun t => !(s.fab.reqs.any (fun r => decide (r.tag = t))))

/-- Changes the registers of all six engines. -/
def State.allCes (s : State) (f : State → Nat → State) : State := (List.range 6).foldl f s

/-- A fault of an instance, on every local contributor whose part is not over (R420, R421, R424). -/
def State.collFault (s : State) (k : CollKey) (code : Code) : State :=
  match s.inst k with
  | none => s
  | some x =>
    let s1 := s.putInst { x with fault := code }
    let s2 := s1.allCes (fun t p => t.setReg .ceFault p 0 (faultWord code x.seg (t.dom x.part).tick))
    x.contribs.foldl (fun t c =>
      if ((Assoc.find c.handle (t.core c.core).colls).any (·.done)) then t else t.kill c.core code) s2

/-- The fault that the contributions and shares of an instance show, if any (R420, R421). -/
def CollInst.flaw (x : CollInst) : Option Code :=
  let shapes := (x.contribs.filter (fun c => decide (c.tile.rows ≠ 0))).map (fun c => c.tile.desc)
    ++ (x.parts.filter (fun p => decide (p.nonEmpty ≠ 0))).map (·.shape)
  let all := (x.members.length * x.perModule)
  if x.parts.any (fun p => decide (p.kind ≠ x.kind ∨ p.hash ≠ x.hash)) then some 0x080B
  else
    match (x.parts.find? (fun p => decide (p.fault ≠ 0))).map (·.fault), shapes with
    | some e, _ => some e
    | none, [] => none
    | none, d :: l =>
      let f := fmtOf (descFmt d)
      if l.any (fun e => decide (descFmt e ≠ descFmt d ∨ descRows e ≠ descRows d ∨ descCols e ≠ descCols d)) then some 0x080A
      else if !(kindFmt x.kind f) || decide (4194304 < payloadBytes f (descRows d) (descCols d)) then some 0x080A
      else if x.contribs.any (fun c => decide (4194304 < c.tile.payload.length)) then some 0x080A
      else if x.kind = 3 ∧ all ≠ 0 ∧ descRows d % all ≠ 0 then some 0x080A
      else if f = .l64 ∧ l.any (fun e => decide (descAnchor e ≠ descAnchor d)) then some 0x0809
      else none

/-- Sends this module's share to the other members; an unreachable one is 0x0811 (R412, R413, R422). -/
def State.sendShare (s : State) (k : CollKey) : State :=
  match s.inst k with
  | none => s
  | some x =>
    let n := x.part
    let send (t : State) (m : ModIx) : State :=
      match t.requestFault n m with
      | some e => (if e = 0x0811 then t.bump .fabDeadCount 0 0 1 else t).collFault k e
      | none =>
        let w := t.sliceReg n
        let links := match t.route n m with
          | .via v => directRoute t.extents w t.self v ++ directRoute t.extents w v m
          | _ => directRoute t.extents w t.self m
        let packed := links.all (fun l => t.linkPacked l.1 l.2)
        (sharePayloads x (x.share t.self (if packed then 9 else 16))).foldl (fun u bs =>
          let pk := u.mkPacket n .engine m 0 bs.length (some ⟨x.seg, (u.dom n).run⟩) false bs
          let u1 := u.sendPacket .collPart { pk with addr := 0, tag := 0 }
          if pk.detour then u1.bump .fabDetours 0 0 1 else u1) t
    (x.members.filter (fun m => decide (m ≠ s.self))).foldl send (s.putInst { x with sent := true })

/-! ## Results (R423) -/

/-- The result of an instance from the shares of every member in module order, and whether an element was clamped. -/
def CollInst.resultTile (x : CollInst) (shares : List CollPart) : Tile :=
  let full := shares.filter (fun p => decide (p.nonEmpty ≠ 0))
  match full with
  | [] => mkTile .bf16 0 0 0 0 [] false
  | p :: _ =>
    let f := fmtOf (descFmt p.shape)
    let rows := descRows p.shape
    let cols := descCols p.shape
    let anchor := p.shape.extractLsb' 224 16
    if x.kind ≤ 4 then
      let els := combineEls x.kind f (full.map (fun q => elsFrom x.kind f (rows * cols) q.marks q.data))
      let cs := els.map (elCode x.kind f)
      let st := flagIf (cs.any (·.2)) flagRSAT
        ||| flagIf (cs.any (fun c => match f with
            | .l64 => decide (c.1 = l64Nan.toNat)
            | .fp32 => (fpSingle.decode c.1).isNan
            | _ => false)) flagNAN
      mkTile f rows cols anchor st ((runsOf cols (cs.map (·.1))).flatMap f.packRow) false
    else
      let tileOf (q : CollPart) (r : Nat) : Tile := mkTile f r cols anchor 0 q.data q.outl
      if x.kind = 5 then
        joinTiles (full.flatMap (fun q =>
          let whole := tileOf q (rows * q.nonEmpty)
          let v := whole.view
          (List.range q.nonEmpty).map (fun i =>
            let cut {α : Type} (l : List α) : List α := (l.drop (i * rows)).take rows
            let sub : TileView :=
              { v with rows := rows, elems := cut v.elems, raw := cut v.raw, scales := cut v.scales, rscales := cut v.rscales,
                       outl := (v.outl.filter (fun o => decide (i * rows ≤ o.n ∧ o.n < (i + 1) * rows))).map
                         (fun o => { o with n := o.n - i * rows }) }
            mkTile f rows cols anchor 0 (packTile sub q.outl) q.outl)))
      else
        match shares.find? (fun q => q.carried) with
        | some q => tileOf q rows
        | none => mkTile f 0 cols 0 0 [] false

/-- Rows `a` to `b − 1` of a plain tile. -/
def sliceRows (t : Tile) (a b : Nat) : Tile :=
  let rb := t.fmt.rowBytes t.cols
  mkTile t.fmt (b - a) t.cols t.anchor (descStatus t.desc) ((t.payload.drop (a * rb)).take ((b - a) * rb)) false

/-- Writes a result through a contributor's destination descriptor; answers the tags of the writes sent elsewhere, or the
fault (R169, R423). -/
def State.collWrite (s : State) (n : Part) (seg : Nat) (c : Contribution) (t : Tile) : State × Except Code (List Code) :=
  if descFmt c.dst ≠ t.fmt.code ∨ descRows c.dst ≠ t.rows ∨ descCols c.dst ≠ t.cols then (s, .error 0x080A)
  else
    match descCheck c.dst false with
    | some e => (s, .error e)
    | none =>
      ((tileWrites t c.dst).flatMap (writePieces (s.descDst c.dst))).foldl (fun acc w =>
        match acc.2, w with
        | .error e, _ => (acc.1, .error e)
        | .ok l, (none, a, bs) =>
          let r := acc.1.writeMem (acc.1.coreAcc c.core) (some (.core c.core, seg)) a bs
          (r.1, r.2.map (fun _ => l))
        | .ok l, (some m, a, bs) =>
          match acc.1.requestFault n m with
          | some e => (if e = 0x0811 then acc.1.bump .fabDeadCount 0 0 1 else acc.1, .error e)
          | none =>
            let pk := acc.1.mkPacket n (.core c.core) m a (up8 bs.length) (some ⟨seg, (acc.1.dom n).run⟩) false bs
            (acc.1.sendRequest .write .store (.core c.core) pk, .ok (l ++ [pk.tag]))) (s, .ok [])

/-- Delivers a result to one contributor, contributor number `i` of `all`. -/
def State.deliverColl (s : State) (x : CollInst) (t : Tile) (all i : Nat) (c : Contribution) : State :=
  if (s.core c.core).killed.isSome then s
  else
    let none_ := t.rows = 0 ∨ x.kind = 7 ∨ (x.kind = 2 ∧ x.root ≠ s.self.val)
    if none_ then s.updCore c.core (fun y => y.handleDone c.handle (((Assoc.find c.handle y.colls).map (·.acks)).getD []))
    else
      let t1 := if x.kind = 3 then sliceRows t (i * (t.rows / all)) ((i + 1) * (t.rows / all)) else t
      let r := s.collWrite x.part x.seg c t1
      match r.2 with
      | .error e =>
        (r.1.allCes (fun u p => u.setReg .ceFault p 0 (faultWord e x.seg (u.dom x.part).tick))).kill c.core e
      | .ok tags =>
        let st := descStatus t.desc
        let s1 := if st &&& flagRSAT ≠ 0 then r.1.allCes (fun u p => u.bump .ceRsatResults p 0 1) else r.1
        let s2 := if st &&& flagNAN ≠ 0 then s1.allCes (fun u p => u.bump .ceNanResults p 0 1) else s1
        s2.updCore c.core (fun y => y.handleDone c.handle tags)

/-- Delivers a result to every local contributor in contributor order, and ends the instance. -/
def State.finishInst (s : State) (x : CollInst) (t : Tile) (bytes : Nat) : State :=
  let before := (x.members.filter (fun m => decide (m < s.self))).length * x.perModule
  let all := x.members.length * x.perModule
  let s1 := (x.contribs.mapIdx (fun i c => (i, c))).foldl (fun u p => u.deliverColl x t all (before + p.1) p.2) s
  (s1.allCes (fun u p => (u.bump .ceColls p 0 1).bump .ceBytesReduced p 0 (Config.ceShare bytes p))).dropInst x.key

/-- What follows any change of an instance: a flaw, this module's share sent, the result delivered (R418 to R423). -/
def State.collStep (s : State) (k : CollKey) : State :=
  match s.inst k with
  | none => s
  | some x =>
    if x.contribs.isEmpty ∨ x.fault ≠ 0 then s
    else
      match x.flaw with
      | some e => (s.collFault k e).sendShare k
      | none =>
        let whole := decide (x.contribs.length = x.perModule)
        let s1 := if whole && !x.sent then s.sendShare k else s
        match s1.inst k with
        | none => s1
        | some y =>
          let others := y.members.filter (fun m => decide (m ≠ s.self))
          let come := others.all (fun m => y.parts.any (fun p => decide (p.module = m ∧ p.data.length = p.total)))
          match y.result with
          | some r =>
            if whole && decide (r.data.length = r.total) && decide (y.fault = 0) then
              let f := fmtOf (descFmt r.shape)
              s1.finishInst y (mkTile f (descRows r.shape) (descCols r.shape) (r.shape.extractLsb' 224 16) (descStatus r.shape)
                r.data r.outl) 0
            else s1
          | none =>
            if whole && come && decide (y.fault = 0) then
              let own := y.share s.self 16
              let shares := y.members.filterMap (fun m =>
                if m = s.self then some own else y.parts.find? (fun p => decide (p.module = m)))
              let bytes := (shares.map (fun p => p.nonEmpty * payloadBytes (fmtOf (descFmt p.shape)) (descRows p.shape)
                (descCols p.shape))).sum
              s1.finishInst y (y.resultTile shares) bytes
            else s1

/-! ## Contributions (R418 to R421) -/

/-- The first of the handles 0 to 7 that is not outstanding (R424). -/
def State.freeHandle (s : State) (c : CoreId) : Option Nat :=
  (List.range 8).find? (fun h => !((Assoc.find h (s.core c).colls).any (fun x => !s.collDone x)))

/-- A contribution whose group descriptor and tile have been read reaches the engines. -/
def State.contribute (s : State) (c : CoreId) (r : CollRun) (g : List Byte) (t : Tile) : State :=
  let n := (s.partOf c).getD 0
  let seg := (s.core c).seg
  if s.groupBad n r.kind g then s.kill c 0x080B
  else
    let grp := groupId g
    let i := Assoc.getD grp 0 (s.core c).collCount
    let s1 := s.updCore c (fun x => { x with collCount := Assoc.put grp (i + 1) x.collCount })
    let k : CollKey := (n, seg, grp, i)
    let hash := shaWord g
    let x0 := (s1.inst k).getD (newInst k r.kind hash)
    if x0.fault ≠ 0 then s1.kill c x0.fault
    else if !x0.contribs.isEmpty && decide (x0.perModule ≤ x0.contribs.length) then s1.kill c 0x080B
    else
      let me : Contribution := ⟨c, s.lcore n c, r.handle, t, r.dst⟩
      let contribs := x0.contribs.filter (fun a => decide (a.lcore < me.lcore)) ++ [me]
        ++ x0.contribs.filter (fun a => decide (me.lcore < a.lcore))
      if !x0.contribs.isEmpty && decide (x0.kind ≠ r.kind ∨ x0.hash ≠ hash) then
        ((s1.putInst { x0 with contribs := contribs }).collFault k 0x080B).sendShare k
      else
        let x1 := { x0 with kind := r.kind, hash := hash, members := groupMembers g, perModule := groupCores g,
                            root := groupRoot g, contribs := contribs }
        let s2 := (s1.putInst x1).collStep k
        if r.kind = 2 ∧ groupRoot g ≠ s.self.val ∧ (s2.core c).killed.isNone then
          s2.updCore c (fun y => y.handleDone r.handle [])
        else s2

/-! ## Reading what a COLL names -/

/-- Reads the local pieces of a COLL, and asks for the others (R411, R421). -/
def State.collPiece (c : CoreId) (acc : State × Except Code (List Piece)) (p : Piece) : State × Except Code (List Piece) :=
  match acc.2 with
  | .error e => (acc.1, .error e)
  | .ok l =>
    if p.data.isSome || p.tag.isSome then (acc.1, .ok (l ++ [p]))
    else
      match p.dst with
      | none =>
        let r := acc.1.readMem (acc.1.coreAcc c) p.addr p.len
        (r.1, r.2.map (fun bs => l ++ [{ p with data := some bs }]))
      | some m =>
        let n := (acc.1.partOf c).getD 0
        if !acc.1.mayRequest c m then (acc.1, .ok (l ++ [p]))
        else
          match acc.1.requestFault n m with
          | some e => (if e = 0x0811 then acc.1.bump .fabDeadCount 0 0 1 else acc.1, .error e)
          | none =>
            let a0 := p.addr / 8 * 8
            let pk := acc.1.mkPacket n (.core c) m a0 (up8 (p.addr + p.len - a0))
              (some ⟨(acc.1.core c).seg, (acc.1.dom n).run⟩) false []
            (acc.1.sendRequest .read .piece (.core c) pk, .ok (l ++ [{ p with tag := some pk.tag }]))

/-- Whether every piece of a COLL has come. -/
def CollRun.whole (r : CollRun) : Bool := r.pieces.all (fun p => p.data.isSome)

/-- Carries the first COLL of a core that is still reading on as far as it goes; `none` where nothing changes. The COLLs of a
core contribute in the order of issue (R420). -/
def State.carryColl (c : CoreId) : Nat → State → Option State
  | 0, _ => none
  | k + 1, s =>
    match (s.core c).collRuns with
    | [] => none
    | r :: rest =>
      let a := r.pieces.foldl (State.collPiece c) (s, .ok [])
      match a.2 with
      | .error e => some (a.1.kill c e)
      | .ok ps =>
        let r1 := { r with pieces := ps }
        if r1.whole then
          let bs := (ps.drop 1).flatMap (fun p => p.data.getD [])
          if listed r.src && !r.entries && decide (r.kind ≠ 7) then
            let more := pieces (s.descDst r.src) (tileAux r.src + 8) (4 * fieldNat ((ps.getLast?.bind (·.data)).getD []) 0 2)
            State.carryColl c k (a.1.updCore c (fun x =>
              { x with collRuns := { r1 with pieces := ps ++ more, entries := true } :: rest }))
          else
            let t := if r.kind = 7 then mkTile .bf16 0 0 0 0 [] false else loadedTile r.src bs
            some ((a.1.updCore c (fun x => { x with collRuns := rest })).contribute c r1
              ((ps.head?.bind (·.data)).getD []) t)
        else if ps = r.pieces then none
        else some (a.1.updCore c (fun x => { x with collRuns := r1 :: rest }))

end Sys2Proof.Machine
end

