-- ==== Sys2Proof/Machine/MxStation.lean ====
section
/-! DEFINITION. The matrix station: banks, runs, readout, save and restore, group walks and claims (R117 to R151, R204,
R205, R618). -/

namespace Sys2Proof.Machine

/-! ## Banks -/

/-- Changes the matrix station of a core. -/
def State.updMx (s : State) (c : CoreId) (f : Mx → Mx) : State := s.updCore c (fun x => { x with mx := f x.mx })

/-- The bank that MXRUN takes: the tile loaded earliest and not yet released (R204). -/
def Mx.oldest (m : Mx) : Option (Bool × MxBank) :=
  match m.bank0, m.bank1 with
  | none, none => none
  | some a, none => some (false, a)
  | none, some b => some (true, b)
  | some a, some b => if a.order < b.order then some (false, a) else some (true, b)

/-- Replaces a bank. -/
def Mx.setBank (m : Mx) (k : Bool) (b : Option MxBank) : Mx := if k then { m with bank1 := b } else { m with bank0 := b }

/-- A free bank (R121). -/
def Mx.freeBank (m : Mx) : Option Bool :=
  if m.bank0.isNone then some false else if m.bank1.isNone then some true else none

/-- Invalid WT blocks of a tile (R87, R115). -/
def wtInvalid (v : TileView) : Nat :=
  if v.fmt ≠ .wt then 0
  else
    ((List.range v.rows).map (fun r => ((List.range (v.cols / 64)).filter (fun b =>
      let sb := (v.scales.getD r []).getD b 0
      decide (sb ≠ 0 ∧ sb ≠ 255) && !(wtBlockOk (((v.raw.getD r []).drop (13 * b)).take 13)))).length)).sum

/-- A tile is loaded into a bank: spilled entries and invalid WT blocks are counted (R100, R115, R132, R136). -/
def State.countLoad (s : State) (c : CoreId) (v : TileView) (ocap : Nat) : State :=
  (s.health c 4 (splitOutliers ocap v.outl 0 none).2.length).health c 3 (wtInvalid v)

/-- MXLD (R120, R121, R132, R133, R204). `earlier` holds the commands of the queue ahead of it. -/
def State.runMxld (s : State) (c : CoreId) (q : BitVec 4) (earlier : List StCmd) : Ran :=
  let x := s.core c
  match x.mx.freeBank with
  | none =>
    if earlier.any (fun k => match k with
      | .mxrun _ _ _ _ rel _ => rel
      | _ => false) then .held
    else .done (s.kill c 0x020E (some .mx))
  | some k =>
    match x.headTile q with
    | none => .waits true
    | some t =>
      match checkResident t.view with
      | some e => .done (s.kill c e (some .mx))
      | none =>
        let b : MxBank := ⟨t, decide (t.rows = 0), x.mx.loads⟩
        let s1 := s.updCore c (fun y =>
          { y.popTile q with mx := { y.mx.setBank k (some b) with loads := y.mx.loads + 1 } })
        .done (s1.countLoad c t.view (descOcap t.desc))

/-! ## Runs -/

/-- The checks of a streamed tile against a resident one (R118, R160, R204). -/
def checkStreamed (w a : TileView) (outl : Bool) : Option Code :=
  if outl then some 0x0206
  else if !modePair w.fmt a.fmt then some 0x0202
  else if 64 < a.rows then some 0x0203
  else if w.rows ≠ 0 ∧ a.cols ≠ w.cols then some 0x0203
  else none

/-- One resident tile served to an activation tile: accumulations, counters, and a residue check that fails or
whose failure is injected (R101 to R105, R124, R130 to R135, R140, R141). -/
def State.mxPass (s : State) (c : CoreId) (w a : TileView) (ocap : Nat) (set acc : Bool) (anchor : BitVec 16)
    (err : Option ResidueErr) : State × Option Code :=
  let i := s.coreIx c
  let accs := (s.core c).mx.accs
  if w.rows = 0 ∨ a.rows = 0 then (s, none)
  else
    match if acc then accContinueFault accs set anchor w a.rows else none with
    | some e => (s, some e)
    | none =>
      let run := mxRunTiles accs w a ocap set acc anchor
      let spilled := (splitOutliers ocap w.outl 0 none).2.length
      let s1 := s.updCore c (fun x => { x with
        mx := { x.mx with
          accs := run.accs, passes := x.mx.passes + 1, mode := if run.issued = 0 then x.mx.mode else w.fmt.mode }
        issued := x.issued + run.issued })
      let s2 := ((s1.bump .mxCyclesIssued i 0 run.issued).bump .mxCyclesSkipped i 0 run.skipped).bump .vxSpillProducts i 0
        (spilled * a.rows)
      let s3 := s2.when (decide (0 < run.issued) && (s2.reg .mxResidueInject i).getLsbD 0) (fun t => t.injectedMismatch c)
      let s4 := match err with
        | some e => s3.when (decide (e.pass = (s.core c).mx.passes) && errFormed e w a) (fun t => t.residueMismatch c w a e)
        | none => s3
      if accOverflow run.accs then (s4, some 0x020A) else (s4, none)

/-- The causal masks after a run into a set: the scores of a claimed item are the run of the key page at its `K_ADDR`
(R148, R149, log 29). -/
def Mx.maskRun (m : Mx) (set acc : Bool) (resident : Desc) : List (Bool × Nat × Nat) :=
  let rest := if acc then m.masks else m.masks.filter (fun k => decide (k.1 ≠ set))
  match m.item with
  | some it =>
    if it.causal && decide (descAddr resident = it.kAddr) then
      rest.filter (fun k => decide (k.1 ≠ set)) ++ [(set, it.qpos, it.kpos)]
    else rest
  | none => rest

/-- MXRUN (R204). -/
def State.runMxrun (s : State) (c : CoreId) (q : BitVec 4) (td : Desc) (set acc rel : Bool) (err : Option ResidueErr)
    (earlier : List StCmd) : Ran :=
  let x := s.core c
  match x.mx.oldest with
  | none =>
    if earlier.any (fun k => match k with
      | .mxld _ => true
      | _ => false) then .held
    else .done (s.kill c 0x020E (some .mx))
  | some (k, b) =>
    if !b.complete then .held
    else
      match x.headTile q with
      | none => .waits true
      | some t =>
        let w := b.tile.view
        let a := t.view
        match readoutCheck td with
        | some e => .done (s.kill c e (some .mx))
        | none =>
          match checkStreamed w a t.outl with
          | some e => .done (s.kill c e (some .mx))
          | none =>
            let runs := decide (w.rows ≠ 0) && decide (a.rows ≠ 0)
            let s1 := s.updCore c (fun y =>
              { y.popTile q with
                mx := { y.mx with masks := if runs then y.mx.maskRun set acc b.tile.desc else y.mx.masks, passes := 0 } })
            let r := s1.mxPass c w a (descOcap b.tile.desc) set acc (td.extractLsb' 224 16) err
            match r.2 with
            | some e => .done (r.1.kill c e (some .mx))
            | none => .done (if rel then r.1.updMx c (fun m => m.setBank k none) else r.1)

/-! ## Readout -/

/-- Number of element readouts with a flag. -/
def countFlag (fl : BitVec 7) (l : List (BitVec 7)) : Nat := (l.filter (fun x => decide (x &&& fl ≠ 0))).length

/-- Counts a readout (R115, R154). -/
def State.countReadout (s : State) (c : CoreId) (r : Readout) : State :=
  (((s.health c 5 (countFlag flagILO r.flags)).health c 6 (countFlag flagIHI r.flags)).health c 7
    (countFlag flagRSAT r.flags)).health c 8 (countFlag flagNAN r.flags)

/-- Closes every accumulation of a set (R618). -/
def Mx.closeSet (m : Mx) (set : Bool) : Mx :=
  { m with accs := m.accs.filter (fun p => decide (p.1.1 ≠ set)), masks := m.masks.filter (fun k => decide (k.1 ≠ set)) }

/-- The mask of a set. -/
def Mx.maskOf (m : Mx) (set : Bool) : Option (Nat × Nat) :=
  (m.masks.find? (fun k => decide (k.1 = set))).map (fun k => (k.2.1, k.2.2))

/-- MXOUT (R108 to R112, R149, R618). -/
def State.runMxout (s : State) (c : CoreId) (q : BitVec 4) (td : Desc) (set : Bool) : Ran :=
  match readoutCheck td with
  | some e => .done (s.kill c e (some .mx))
  | none =>
    let x := s.core c
    let f := fmtOf (descFmt td)
    let r := readoutSet x.mx.accs set f (x.mx.maskOf set)
    let t := (mkTile f r.rows r.cols (td.extractLsb' 224 16) r.status r.payload false).withOcap td
    match x.room q t with
    | .tooLarge => .done (s.kill c 0x0307 (some .mx))
    | .waits => .waits true
    | .fits => .done ((s.updCore c (fun y => { y.pushTile q t with mx := y.mx.closeSet set })).countReadout c r)

/-! ## Save and restore (R126, R127, R205) -/

/-- Whether an address lies in the core's own store or its die's store (R205). -/
def State.ownStore (s : State) (c : CoreId) (a : Nat) : Bool :=
  (decide (0x20F0000000000 ≤ a) && decide (a < 0x20F0000200000))
    || (decide (0x20E0000000000 ≤ a) && decide (a < 0x20E0000000000 + 192 * mib))
    || (decide (dieAddr c.die ≤ a) && decide (a < dieAddr c.die + 192 * mib))
    || (match s.siteOf c with
        | some i => decide (siteAddr i ≤ a) && decide (a < siteAddr i + 2 * mib)
        | none => false)
    || (match s.partOf c with
        | some n =>
          let b := 0x2200000000000 + s.lcore n c * 0x400000
          decide (b ≤ a) && decide (a < b + 2 * mib)
        | none => false)

/-- Bytes that MXSAVE and MXRST move. -/
def saveBytes : Nat := 131072

/-- MXSAVE (R126, R205). -/
def State.runMxsave (s : State) (c : CoreId) (addr : Word) (set : Bool) : Ran :=
  let a := (s.scalarAt addr).2
  let m := (s.core c).mx
  let bs := (List.range 64).flatMap (fun t => (List.range 64).flatMap (fun n => saveRecord (Assoc.find (set, t, n) m.accs)))
  .done (orKill c (s.coreWrite c a bs) (fun t _ => t.updMx c (fun y => y.closeSet set)))

/-- The accumulations of 4,096 records, or the first fault (R127, R205). -/
def restoreAll (set : Bool) (anchor : BitVec 16) (bs : List Byte) : Except Code (List ((Bool × Nat × Nat) × Acc)) :=
  (List.range 4096).foldl (fun l i =>
    match l with
    | .error e => .error e
    | .ok t =>
      match restoreRecord ((bs.drop (32 * i)).take 32) anchor with
      | .error e => .error e
      | .ok none => .ok t
      | .ok (some acc) => .ok (t ++ [((set, i / 64, i % 64), acc)])) (.ok [])

/-- MXRST (R127, R205). -/
def State.runMxrst (s : State) (c : CoreId) (addr : Word) (td : Desc) (set : Bool) : Ran :=
  match readoutCheck td with
  | some e => .done (s.kill c e (some .mx))
  | none =>
    let a := (s.scalarAt addr).2
    .done (orKill c (s.coreRead c a saveBytes) (fun t bs =>
      match restoreAll set (td.extractLsb' 224 16) bs with
      | .error e => t.kill c e (some .mx)
      | .ok accs => t.updMx c (fun m =>
          let closed := m.closeSet set
          { closed with accs := closed.accs ++ accs })))

/-! ## The group walk (R142 to R145) -/

/-- A group-table entry (R142). -/
structure GroupEntry where
  wAddr : Nat
  outAddr : Nat
  mStart : Nat
  m : Nat
  anchor : BitVec 16
  nTiles : Nat
  kTiles : Nat
  expert : Nat
  last : Bool
  deriving DecidableEq, Repr

/-- Reads an entry; none where its fields break R142. -/
def groupEntry (bs : List Byte) : Option GroupEntry :=
  let flags := fieldNat bs 30 1
  if fieldNat bs 31 1 ≠ 0 ∨ 1 < flags ∨ fieldNat bs 28 1 = 0 ∨ fieldNat bs 29 1 = 0 then none
  else
    some { wAddr := fieldNat bs 0 8, outAddr := fieldNat bs 8 8, mStart := fieldNat bs 16 4, m := fieldNat bs 20 4,
           anchor := BitVec.ofNat 16 (fieldNat bs 24 2), nTiles := fieldNat bs 28 1, kTiles := fieldNat bs 29 1,
           expert := fieldNat bs 26 2, last := decide (flags = 1) }

/-- The tile of an activation view: rows from `r`, and K positions from `k`. -/
def TileView.slice (v : TileView) (r m k n : Nat) : TileView :=
  let blk := v.fmt.block
  { v with
    rows := m, cols := n
    elems := ((v.elems.drop r).take m).map (fun l => (l.drop k).take n)
    raw := ((v.raw.drop r).take m).map (fun l => (l.drop (v.fmt.rowBytes k)).take (v.fmt.rowBytes n))
    scales := ((v.scales.drop r).take m).map (fun l => if blk = 0 then l else (l.drop (k / blk)).take (n / blk))
    rscales := (v.rscales.drop r).take m }

/-- Reads a tile of this module at once. -/
def State.readTile (s : State) (c : CoreId) (d : Desc) : State × Except Code Tile :=
  let step (acc : State × Except Code (List Byte)) (p : Nat × Nat) : State × Except Code (List Byte) :=
    match acc.2 with
    | .error e => (acc.1, .error e)
    | .ok l =>
      let r := acc.1.coreRead c p.1 p.2
      (r.1, r.2.map (fun bs => l ++ bs))
  let body := (tileRanges d).foldl step (s, .ok [])
  match body.2 with
  | .error e => (body.1, .error e)
  | .ok bs =>
    if listed d then
      let n := fieldNat (bs.drop (bs.length - 8)) 0 2
      if listLeaves d n then (body.1, .error 0x030A) else
      let r := step (body.1, .ok bs) (tileAux d + 8, 4 * n)
      (r.1, r.2.map (loadedTile d))
    else (body.1, .ok (loadedTile d bs))

/-- One resident tile of a walk: read, checked, run into the set (R143). The activation tile's COLS is not checked, and a slice
beyond it is absent, which is the model's choice (log 118). -/
def State.walkTile (c : CoreId) (td : Desc) (act : TileView) (err : Option ResidueErr) (e : GroupEntry) (set : Bool)
    (row m n : Nat) (acc : State × Option Code) (k : Nat) : State × Option Code :=
  match acc.2 with
  | some code => (acc.1, some code)
  | none =>
    let d := descSet (descSet td 0 56 (e.wAddr + (n * e.kTiles + k) * Config.walkStride td)) 60 1 0
    match descCheck d true with
    | some code => (acc.1, some code)
    | none =>
      let r := acc.1.readTile c d
      match r.2 with
      | .error code => (r.1, some code)
      | .ok t =>
        let w := t.view
        match checkResident w with
        | some code => (r.1, some code)
        | none =>
          let a := act.slice row m (k * w.cols) w.cols
          match checkStreamed w a false with
          | some code => (r.1, some code)
          | none => (r.1.countLoad c w (descOcap d)).mxPass c w a (descOcap d) set (decide (0 < k)) e.anchor err

/-- The readout of a walk's set to `OUT_ADDR` (R143, R206). -/
def State.walkOut (s : State) (c : CoreId) (td : Desc) (e : GroupEntry) (f : Fmt) (set : Bool) (tok n : Nat) :
    State × Option Code :=
  let r := readoutSet (s.core c).mx.accs set f none
  let line := f.rowBytes (e.nTiles * descRows td)
  let step (acc : State × Option Code) (t : Nat) : State × Option Code :=
    match acc.2 with
    | some code => (acc.1, some code)
    | none =>
      let w := acc.1.coreWrite c (e.outAddr + (tok + t) * line + n * f.rowBytes (descRows td)) (f.packRow (r.codes.getD t []))
      match w.2 with
      | .error code => (w.1, some code)
      | .ok () => (w.1, none)
  let out := (List.range r.rows).foldl step (s, none)
  ((out.1.updMx c (fun m => m.closeSet set)).countReadout c r, out.2)

/-- One (token group, N tile) pair of a walk (R143). Accumulations open in its set are discarded, which is the model's
choice (log 117). -/
def State.walkPair (c : CoreId) (td : Desc) (act : TileView) (err : Option ResidueErr) (e : GroupEntry) (f : Fmt)
    (acc : State × Option Code × Bool) (gn : Nat × Nat) : State × Option Code × Bool :=
  match acc.2.1 with
  | some code => (acc.1, some code, acc.2.2)
  | none =>
    let set := acc.2.2
    let tok := 64 * gn.1
    let m := min 64 (e.m - tok)
    let s0 := acc.1.updMx c (fun x => x.closeSet set)
    let r := (List.range e.kTiles).foldl (State.walkTile c td act err e set (e.mStart + tok) m gn.2) (s0, none)
    match r.2 with
    | some code => (r.1, some code, set)
    | none =>
      let o := r.1.walkOut c td e f set tok gn.2
      (o.1, o.2, !set)

/-- The pairs of an entry in walk order. -/
def GroupEntry.pairs (e : GroupEntry) : List (Nat × Nat) :=
  (List.range ((e.m + 63) / 64)).flatMap (fun g => (List.range e.nTiles).map (fun n => (g, n)))

/-- The walk from an entry on (R143 to R145). -/
def State.walkFrom (c : CoreId) (td : Desc) (act : TileView) (err : Option ResidueErr) (f : Fmt) (table : Nat) :
    Nat → Nat → Bool → State → State × Option Code
  | 0, _, _, s => (s, some 0x0208)
  | k + 1, pos, set, s =>
    let s0 := s.setReg .mxWalkPos (s.coreIx c) 0 (BitVec.ofNat 64 pos)
    let r := s0.coreRead c (table + 32 * pos) 32
    match r.2 with
    | .error e => (r.1, some e)
    | .ok bs =>
      match groupEntry bs with
      | none => (r.1, some 0x0208)
      | some e =>
        if act.rows < e.mStart + e.m ∧ e.m ≠ 0 then (r.1, some 0x0208)
        else
          let r1 := r.1.updMx c (fun m => { m with expert := e.expert })
          let o := e.pairs.foldl (State.walkPair c td act err e f) (r1, none, set)
          match o.2.1 with
          | some code => (o.1, some code)
          | none => if e.last then (o.1, none) else State.walkFrom c td act err f table k (pos + 1) o.2.2 o.1

/-- Whether an LX access ahead of a walk's marker, or one under way, touches what the walk stores (R184, R206). -/
def State.walkBlocked (s : State) (c : CoreId) (k : StCmd) : Bool :=
  ((s.core c).lxq.takeWhile (fun y => decide (y ≠ k))).any (fun y => !y.isMarker && s.lxConflict c y k)
    || (s.core c).lxRuns.any (fun r => s.lxConflict c r.cmd k)

/-- MXWALK (R142 to R145, R206): it needs the activation tile and a free bank, and waits for earlier accesses of LX to what it
stores. -/
def State.runMxwalk (s : State) (c : CoreId) (q : BitVec 4) (td : Desc) (addr : Word) (err : Option ResidueErr)
    (tag : Nat) : Ran :=
  let x := s.core c
  match x.mx.freeBank, x.headTile q with
  | none, _ => .held
  | _, none => .waits true
  | some _, some t =>
    if s.walkBlocked c (.walk td addr tag) then .waits false
    else
    match Fmt.ofCode (descFmt td) with
    | none => .done (s.kill c 0x0201 (some .mx))
    | some w =>
      if fieldsBad w td true then .done (s.kill c 0x030A (some .mx))
      else if !w.resident then .done (s.kill c 0x0202 (some .mx))
      else if t.outl then .done (s.kill c 0x0206 (some .mx))
      else if !modePair w t.fmt then .done (s.kill c 0x0202 (some .mx))
      else
        match readoutCheck (descSet 0 56 4 (Config.walkFormat td)) with
        | some e => .done (s.kill c e (some .mx))
        | none =>
          let r := State.walkFrom c td t.view err (fmtOf (Config.walkFormat td % 16)) (s.scalarAt addr).2 4096 0 false
            (s.updCore c (fun y => { y.popTile q with mx := { y.mx with passes := 0 } }))
          .done (match r.2 with
            | some e => r.1.kill c e (some .mx)
            | none => r.1)

/-! ## Claims (R146 to R149) -/

/-- Whether a tile-list entry keeps the table of R148. -/
def listEntryOk (bs : List Byte) : Bool :=
  decide (fieldNat bs 31 1 = 0) && decide (fieldNat bs 30 1 ≤ 1) && decide (1 ≤ fieldNat bs 27 1)
    && decide (fieldNat bs 27 1 ≤ 64) && decide (1 ≤ fieldNat bs 26 1) && decide (fieldNat bs 26 1 ≤ 64)

/-- The claimed index, or EMPTY, with the header advanced, the claim logged, the site recorded and the entry checked (R147 to
R149). -/
def State.claim (s : State) (c : CoreId) (a : Nat) : State × Except Code Word :=
  let acc := s.coreAcc c
  let h := s.readMem acc a 64
  match h.2 with
  | .error e => (h.1, .error e)
  | .ok bs =>
    let head := fieldNat bs 12 4
    if fieldNat bs 8 4 ≤ head then
      (h.1.updMx c (fun m => { m with item := none }), .ok 0xFFFFFFFFFFFFFFFF)
    else
      let n := (s.partOf c).getD 0
      let phys := match s.place acc a 64 true with
        | .ok p => p.phys
        | .error _ => a
      let w1 := h.1.writeMem acc none (a + 12) (natBytes 4 (head + 1))
      let w2 := w1.1.writeMem acc none (fieldNat bs 16 8 + 2 * head) (natBytes 2 (s.lcore n c))
      let e := w2.1.readMem acc (fieldNat bs 0 8 + 32 * head) 32
      match w1.2, w2.2, e.2 with
      | .error code, _, _ => (e.1, .error code)
      | _, .error code, _ => (e.1, .error code)
      | _, _, .error code => (e.1, .error code)
      | .ok (), .ok (), .ok es =>
        let s1 := State.bump { e.1 with
          claims := e.1.claims ++ [(phys, n, (s.core c).seg, head)]
          integ := { e.1.integ with served := match s.siteOf c with
            | some i => ((s.dom n).tick, n, phys, head, i) :: e.1.integ.served
            | none => e.1.integ.served } } .mxListClaims (s.coreIx c) 0 1
        if !listEntryOk es then (s1, .error 0x0209)
        else
          let it : ListItem := ⟨fieldNat es 0 8, fieldNat es 20 4, fieldNat es 16 4, decide (fieldNat es 30 1 = 1)⟩
          (s1.updMx c (fun m => { m with item := some it }), .ok (BitVec.ofNat 64 head))

/-- A rewind restores each tile list's `HEAD` to its value at the end of segment j − 1 (R151). -/
def State.restoreClaims (s : State) (n : Part) (j : Nat) : State :=
  let mine := s.claims.filter (fun k => decide (k.2.1 = n) && decide (j ≤ k.2.2.1))
  let s1 := mine.reverse.foldl (fun t k => t.putBytes ⟨.core, k.1 + 12, 0, none⟩ (natBytes 4 k.2.2.2)) s
  { s1 with claims := s1.claims.filter (fun k => decide (k ∉ mine)) }

/-! ## The command queue of MX -/

/-- The set a command works on. -/
def StCmd.mxSet : StCmd → Option Bool
  | .mxrun _ _ set _ _ _ => some set
  | .mxout _ _ set => some set
  | .mxsave _ set => some set
  | .mxrst _ _ set => some set
  | _ => none

/-- The unit of MX a command occupies: weight port, issue, readout, save path. -/
def StCmd.mxUnit : StCmd → Nat
  | .mxld _ => 0
  | .mxrun _ _ _ _ _ _ => 1
  | .mxout _ _ _ => 2
  | .mxsave _ _ => 3
  | .mxrst _ _ _ => 3
  | _ => 4

/-- Whether a later MX command must wait for an earlier one: a walk, one unit, or one set (R143, R214). -/
def mxConflict (x y : StCmd) : Bool :=
  decide (x.mxUnit = 4) || decide (y.mxUnit = 4) || decide (x.mxUnit = y.mxUnit)
    || (x.mxSet.isSome && decide (x.mxSet = y.mxSet))

/-- Tries to run an MX command. -/
def State.runMx (s : State) (c : CoreId) (earlier : List StCmd) (cmd : StCmd) : Ran :=
  match cmd with
  | .mxld q => s.runMxld c q earlier
  | .mxrun q td set acc rel err => s.runMxrun c q td set acc rel err earlier
  | .mxout q td set => if (s.core c).overfull 2 then .waits true else s.runMxout c q td set
  | .mxsave addr set => s.runMxsave c addr set
  | .mxrst addr td set => s.runMxrst c addr td set
  | .mxwalk q td addr err tag => s.runMxwalk c q td addr err tag
  | _ => .done s

end Sys2Proof.Machine
end

