-- ==== Sys2Proof/Machine/Kv.lean ====
section
/-! DEFINITION. Attention pages (R287 to R289, R341 to R344), and how a core's DCMD gets its result (R268, R303). -/

namespace Sys2Proof.Machine

/-! ## Results of commands -/

/-- A DCMD result: status in bits 63:48 and value in bits 47:0 (R268). -/
def dcmdResult (status : Code) (v : Nat) : Word := BitVec.ofNat 64 (status.toNat * 2 ^ 48 + v % 2 ^ 48)

/-- A fault of SV or KV in a core's segment: the station's FAULT register, which keeps codes 0x05xx, and the core's segment
(R304, R305). -/
def State.stationFault (s : State) (r : Reg) (c : CoreId) (code : Code) : State :=
  let n := (s.partOf c).getD 0
  (if code.toNat / 256 = 5 then s.setReg r c.die.val 0 (faultWord code (s.core c).seg (s.dom n).tick) else s).kill c code

/-! ## Pools and pages -/

/-- The page pool of a partition on a die. -/
def State.pool (s : State) (d : Fin 8) (n : Part) : KvPool := Assoc.getD (d, n) KvPool.init s.kv

/-- Replaces a page pool. -/
def State.setPool (s : State) (d : Fin 8) (n : Part) (p : KvPool) : State := { s with kv := Assoc.put (d, n) p s.kv }

/-- Positions of a page, and its bytes (R287, R305). -/
def State.kvTokens (s : State) (n : Part) : Nat := max 1 (bits (s.cfg .kvPPage 0 n.val) 7 0)
def State.kvBytes (s : State) (n : Part) : Nat := bits (s.cfg .kvPPage 0 n.val) 47 16

/-- The first page number of the second tier (R342). -/
def tierTwo : Nat := 2 ^ 31

/-- The local address of a page on a die (R287, R341, R342). -/
def State.pageAddr (s : State) (d : Fin 8) (n : Part) (page : Nat) : Nat :=
  if page < tierTwo then s.cfgN .kvPPoolBase d.val n.val + page * s.kvBytes n
  else s.regN .memPT2Base 0 n.val + (d.val * s.regN .memPT2Pages 0 n.val + (page - tierTwo)) * s.kvBytes n

/-- The page of a list index of an entry. -/
def KvPool.pageOf (p : KvPool) (e ix : Nat) : Option Nat := Assoc.find (e, ix) p.maps

/-- The pages of an entry, by list index. -/
def KvPool.entryPages (p : KvPool) (e : Nat) : List (Nat × Nat) :=
  (p.maps.filter (fun m => decide (m.1.1 = e))).map (fun m => (m.1.2, m.2))

/-- Close-memory pages that are not free: mapped, or reserved for a promotion (R287, R344). -/
def KvPool.inUse (p : KvPool) : List Nat :=
  (p.maps.map (·.2)).filter (· < tierTwo) ++ p.promote.flatMap (fun r => r.2.1.map (·.2))

/-- Second-tier pages in use, counted from 0. -/
def KvPool.inUse2 (p : KvPool) : List Nat := ((p.maps.map (·.2)).filter (tierTwo ≤ ·)).map (· - tierTwo)

/-- The `k` lowest numbers below `limit` that a list does not hold, if there are so many. -/
def lowestFree (limit : Nat) (used : List Nat) (k : Nat) : Option (List Nat) :=
  let l := ((List.range (min limit (used.length + k))).filter (fun i => !used.contains i)).take k
  if l.length = k then some l else none

/-- Free close-memory pages of a partition on a die. -/
def State.freePages (s : State) (d : Fin 8) (n : Part) : Nat :=
  s.cfgN .kvPPoolPages 0 n.val - (s.pool d n).inUse.length

/-- The address of a word of a page map (R287). -/
def State.mapWord (s : State) (d : Fin 8) (n : Part) (e ix : Nat) : Nat :=
  s.cfgN .kvPMapBase d.val n.val + e * s.cfgN .kvPMapStride 0 n.val + 4 * ix

/-- An access beside the tick: its fault, if any, is kept as a code (log 50). -/
def restOf {α : Type} (r : State × Except Code α) : State :=
  match r.2 with
  | .ok _ => r.1
  | .error e => r.1.lastCode e

/-- Writes a list index of the page map in memory (R287); an unused one holds 0xFFFF_FFFF. -/
def State.putMapWord (s : State) (d : Fin 8) (n : Part) (e ix : Nat) (v : Nat) : State :=
  restOf (s.writeMem (restAcc d n) none (s.mapWord d n e ix) (natBytes 4 v))

/-- The page map of an entry that a SUBMIT takes: every list index is unused (R287). -/
def State.clearMap (n : Part) (e : Nat) (s : State) (d : Fin 8) : State :=
  restOf (s.writeMem (restAcc d n) none (s.mapWord d n e 0) (List.replicate (s.cfgN .kvPMapStride 0 n.val / 4 * 4) 0xFF))

/-- ALLOC enters a page in the map, whose committed word the host may still read (R58, R288): a die-station access, or its fault
(R616). -/
def State.enterMap (n : Part) (d : Fin 8) (acc : State × Option Code) (x : Nat × Nat × Nat × Nat) : State × Option Code :=
  match acc.2 with
  | some _ => acc
  | none =>
    let s := acc.1
    let a := s.mapWord d n x.2.1 x.2.2.1
    let s1 := match s.place (stationAcc d n) a 4 true with
      | .ok p => s.keepBefore n { p with cls := 1 } 4
      | .error _ => s
    let r := s1.writeMem (stationAcc d n) none a (natBytes 4 x.1)
    match r.2 with
    | .ok _ => (r.1, none)
    | .error e => (r.1, some e)

/-! ## ALLOC and PAGE (R288, R303) -/

/-- What ALLOC builds up: the pool, PAGE_ADDR by row, the pages taken; none once no page is free. -/
structure AllocRun where
  pool : KvPool
  addrs : List (Nat × Nat)
  took : List Nat
  deriving DecidableEq, Repr

/-- The page that a row of the running tick takes is flagged at once where the entry was CUT after the row was made: the row
writes it under the old version (R289). -/
def State.cutNew (s : State) (r : BatchRow) (ix : Nat) (l : List (Nat × Nat)) : List (Nat × Nat) :=
  match Assoc.find r.entry s.sv.entries with
  | some x => if x.cut ∧ x.version ≠ r.version then l ++ [(r.entry, ix)] else l
  | none => l

/-- ALLOC at one batch row, named by its index. -/
def State.allocRow (s : State) (d : Fin 8) (n : Part) (seg : Nat) (acc : Option AllocRun) (k : Nat) : Option AllocRun :=
  match acc, (s.svPart n).running.rows[k]? with
  | some a, some r =>
    let ix := r.pos / s.kvTokens n
    match a.pool.pageOf r.entry ix with
    | some p => some { a with addrs := a.addrs ++ [(k, s.pageAddr d n p)] }
    | none =>
      match lowestFree (s.cfgN .kvPPoolPages 0 n.val) a.pool.inUse 1 with
      | some (p :: _) =>
        let pool := { a.pool with
          maps := a.pool.maps ++ [((r.entry, ix), p)], taken := a.pool.taken ++ [(p, r.entry, ix, seg)],
          cut := s.cutNew r ix a.pool.cut }
        some ⟨pool, a.addrs ++ [(k, s.pageAddr d n p)], a.took ++ [p]⟩
      | _ => none
  | a, _ => a

/-- Pages whose demotion copy still runs. -/
def KvPool.copyingOut (p : KvPool) : List Nat := p.demoting.flatMap (·.2)

/-- Pages of some batch rows that are still being copied out: an ALLOC of them waits (R343). -/
def State.allocBlocked (s : State) (d : Fin 8) (n : Part) (rows : List Nat) : List Nat :=
  let p := s.pool d n
  let mine := rows.filterMap (fun k =>
    ((s.svPart n).running.rows[k]?).bind (fun r => p.pageOf r.entry (r.pos / s.kvTokens n)))
  mine.filter (fun x => p.copyingOut.contains x)

/-- Changes the batch in use by a partition. -/
def State.updBatch (s : State) (n : Part) (f : Batch → Batch) : State :=
  let x := s.svPart n
  s.setSvPart n { x with running := f x.running }

/-- A shared command of the tick with the same arguments on a die (R303). -/
def State.sharedCmd (s : State) (d : Fin 8) (n : Part) (station fn : Nat) (a b : Word) : Option SharedCmd :=
  (s.svPart n).running.shared.find? (fun x => decide (x.die = d ∧ x.station = station ∧ x.fn = fn ∧ x.a = a ∧ x.b = b))

/-- Records the result of a shared command. -/
def State.addShared (s : State) (d : Fin 8) (n : Part) (station fn : Nat) (a b : Word) (seg : Nat) (r : Word) : State :=
  s.updBatch n (fun x => { x with shared := x.shared ++ [⟨d, station, fn, a, b, seg, r⟩] })

/-- The result of an ALLOC reaches a core now, or once the pages it took are copied out (R343). -/
def State.answerAlloc (s : State) (c : CoreId) (n : Part) (tag : Nat) (rows : List Nat) (r : Word) : State :=
  match s.allocBlocked c.die n rows with
  | [] => s.deliver c tag (wordBytes r)
  | l =>
    let p := s.pool c.die n
    s.setPool c.die n { p with waiting := p.waiting ++ [(c, tag, l, r)] }

/-- KV ALLOC (R288, R303): first row, row count. -/
def State.kvAlloc (s : State) (c : CoreId) (n : Part) (tag : Nat) (a b : Word) : State :=
  let rows := (List.range (min b.toNat (s.svPart n).running.rows.length)).map (fun i => a.toNat + i)
  match s.sharedCmd c.die n 0 1 a b with
  | some x => s.answerAlloc c n tag rows x.result
  | none =>
    let clash := (s.svPart n).running.shared.any (fun x =>
      decide (x.die = c.die ∧ x.station = 0 ∧ x.fn = 1) && overlaps a.toNat b.toNat x.a.toNat x.b.toNat)
    if (s.svPart n).running.rows.length < a.toNat + b.toNat || clash then
      s.deliver c tag (wordBytes (dcmdResult 0x0508 0))
    else
      match rows.foldl (s.allocRow c.die n (s.core c).seg) (some ⟨s.pool c.die n, [], []⟩) with
      | none => s.stationFault .kvFault c 0x0505
      | some r =>
        let res := dcmdResult 0 r.took.length
        let new := r.pool.taken.drop (s.pool c.die n).taken.length
        let w := new.foldl (State.enterMap n c.die)
          ((s.setPool c.die n r.pool).bump .kvPAllocs c.die.val n.val r.took.length, none)
        match w.2 with
        | some e => w.1.stationFault .kvFault c e
        | none =>
        let s2 := w.1.updBatch n (fun x =>
          { x with pages := r.addrs.foldl (fun l p => Assoc.put (c.die, p.1) p.2 l) x.pages })
        (s2.addShared c.die n 0 1 a b (s.core c).seg res).answerAlloc c n tag rows res

/-- KV PAGE (R303): entry, position. -/
def State.kvPageCmd (s : State) (c : CoreId) (n : Part) (tag : Nat) (a b : Word) : State :=
  let r := match (s.pool c.die n).pageOf a.toNat (b.toNat / s.kvTokens n) with
    | some p => dcmdResult 0 (s.pageAddr c.die n p)
    | none => dcmdResult 0x0508 0
  s.deliver c tag (wordBytes r)

/-! ## Copies (R343, R344) -/

/-- Copies a page of a die between tiers; a page that cannot be read or written stays as it was (log 50). -/
def State.copyPage (d : Fin 8) (n : Part) (s : State) (p : Nat × Nat) : State :=
  let r := s.readMem (restAcc d n) (s.pageAddr d n p.1) (s.kvBytes n)
  match r.2 with
  | .error e => r.1.lastCode e
  | .ok bs => restOf (r.1.writeMem (restAcc d n) none (r.1.pageAddr d n p.2) bs)

/-- Copies the pages of an entry between tiers. -/
def State.copyPages (s : State) (d : Fin 8) (n : Part) (l : List (Nat × Nat)) : State := l.foldl (State.copyPage d n) s

/-- A background copy of an entry's pages on a die ends: ALLOCs that wait for these pages get their results (R343); a
promotion may switch (R344). -/
def State.pageCopyDone (s : State) (d : Fin 8) (n : Part) (e : Nat) : State :=
  let p := s.pool d n
  let p1 : KvPool := { p with
    demoting := p.demoting.filter (fun x => decide (x.1 ≠ e)),
    promote := p.promote.map (fun x => if x.1 = e then (x.1, x.2.1, x.2.2.1, true) else x) }
  let ready (w : CoreId × Nat × List Nat × Word) : Bool := w.2.2.1.all (fun k => !p1.copyingOut.contains k)
  let s1 := s.setPool d n { p1 with waiting := p1.waiting.filter (fun w => !ready w) }
  (p1.waiting.filter ready).foldl (fun t w => t.deliver w.1 w.2.1 (wordBytes w.2.2.2)) s1

/-! ## Commit and rewind -/

/-- A rewind from segment `j` on frees the pages taken in those segments (R288) and forgets the ALLOCs that wait. -/
def State.kvRewindDie (n : Part) (j : Nat) (s : State) (d : Fin 8) : State :=
  let p := s.pool d n
  if p.taken.isEmpty && p.waiting.isEmpty then s
  else
    let gone := p.taken.filter (fun t => decide (j ≤ t.2.2.2))
    gone.foldl (fun t x => t.putMapWord d n x.2.1 x.2.2.1 0xFFFFFFFF) (s.setPool d n { p with
      maps := p.maps.filter (fun m => !(gone.any (fun t => decide (t.1 = m.2 ∧ t.2.1 = m.1.1 ∧ t.2.2.1 = m.1.2))))
      taken := p.taken.filter (fun t => decide (t.2.2.2 < j))
      cut := p.cut.filter (fun k => !(gone.any (fun t => decide (t.2.1 = k.1 ∧ t.2.2.1 = k.2))))
      waiting := [] })

/-- A rewind on every die. -/
def State.kvRewind (s : State) (n : Part) (j : Nat) : State := (List.finRange 8).foldl (State.kvRewindDie n j) s

/-- Frees list indices of an entry on a die; the map in memory goes with them. -/
def State.freeList (s : State) (d : Fin 8) (n : Part) (e : Nat) (ixs : List Nat) : State :=
  let p := s.pool d n
  let s1 := s.setPool d n { p with
    maps := p.maps.filter (fun m => !(decide (m.1.1 = e) && ixs.contains m.1.2))
    cut := p.cut.filter (fun k => !(decide (k.1 = e) && ixs.contains k.2)) }
  ixs.foldl (fun t i => t.putMapWord d n e i 0xFFFFFFFF) s1

/-- Frees every page of a request that ends, and both sets of one that is being promoted (R289, R344). -/
def State.freeEntry (n : Part) (e : Nat) (s : State) (d : Fin 8) : State :=
  let s1 := s.freeList d n e (((s.pool d n).entryPages e).map (·.1))
  let p := s1.pool d n
  if p.promote.any (fun x => decide (x.1 = e)) then
    s1.setPool d n { p with promote := p.promote.filter (fun x => decide (x.1 ≠ e)) }
  else s1

/-- The pages of a die at the commit of a tick: they are published, and those taken in the tick that hold no position
below `CTX_LEN` are freed (R288, R289). -/
def State.kvPublishDie (n : Part) (s : State) (d : Fin 8) : State :=
  let p := s.pool d n
  if p.taken.isEmpty then s
  else
    let ctx (e : Nat) : Nat := ((Assoc.find e s.sv.entries).map (·.ctxLen)).getD 0
    let s1 := s.setPool d n { p with taken := [] }
    p.taken.foldl (fun t x =>
      if ctx x.2.1 ≤ x.2.2.1 * t.kvTokens n then t.freeList d n x.2.1 [x.2.2.1] else t) s1

/-- Every die publishes. -/
def State.kvPublish (s : State) (n : Part) : State := (List.finRange 8).foldl (State.kvPublishDie n) s

/-- Demotes an idle entry on one die, or leaves it with event 0x060E (R343). -/
def State.demoteDie (n : Part) (e : Nat) (s : State) (d : Fin 8) : State :=
  let p := s.pool d n
  let l := (p.entryPages e).filter (fun m => m.2 < tierTwo)
  if l.isEmpty then s
  else
    match lowestFree (s.regN .memPT2Pages 0 n.val) p.inUse2 l.length with
    | none => s.partReport .memCode n 0x060E
    | some far =>
      let moves := List.zipWith (fun m f => (m.1, m.2, tierTwo + f)) l far
      let s1 := s.copyPages d n (moves.map (fun m => (m.2.1, m.2.2)))
      let s2 := s1.setPool d n { p with
        maps := p.maps.map (fun m =>
          match moves.find? (fun x => decide (m.1 = (e, x.1))) with
          | some x => (m.1, x.2.2)
          | none => m)
        demoting := p.demoting ++ [(e, l.map (·.2))] }
      moves.foldl (fun t m => t.putMapWord d n e m.1 m.2.2) s2

/-- Whether an entry has second-tier pages on a die (R344). -/
def State.farPages (s : State) (d : Fin 8) (n : Part) (e : Nat) : List (Nat × Nat) :=
  ((s.pool d n).entryPages e).filter (fun m => tierTwo ≤ m.2)

/-- Starts the promotion of an entry on one die, for the switch at the commit of the given tick (R344). -/
def State.promoteDie (n : Part) (e tick : Nat) (s : State) (d : Fin 8) : State :=
  let p := s.pool d n
  let far := s.farPages d n e
  if far.isEmpty || p.promote.any (fun x => decide (x.1 = e)) then s
  else
    match lowestFree (s.cfgN .kvPPoolPages 0 n.val) p.inUse far.length with
    | none => s
    | some near =>
      s.setPool d n { p with promote := p.promote ++ [(e, List.zipWith (fun m k => (m.1, k)) far near, tick, false)] }

/-- Whether a promotion that switches at the commit of a tick is still being copied: the apply waits (R344). -/
def State.promotionRuns (s : State) (n : Part) (tick : Nat) : Bool :=
  (List.finRange 8).any (fun d => (s.pool d n).promote.any (fun x => decide (x.2.2.1 ≤ tick) && !x.2.2.2))

/-- The switch of a die's promotions at the apply of a commit (R344). -/
def State.switchDie (n : Part) (tick : Nat) (s : State) (d : Fin 8) : State :=
  let due := (s.pool d n).promote.filter (fun x => decide (x.2.2.1 ≤ tick))
  due.foldl (fun t x =>
    let moves := x.2.1.filterMap (fun m => ((t.pool d n).pageOf x.1 m.1).map (fun far => (m.1, far, m.2)))
    let t1 := t.copyPages d n (moves.map (fun m => (m.2.1, m.2.2)))
    let p := t1.pool d n
    let t2 := t1.setPool d n { p with
      promote := p.promote.filter (fun y => decide (y.1 ≠ x.1))
      maps := p.maps.map (fun m =>
        match moves.find? (fun y => decide (m.1 = (x.1, y.1))) with
        | some y => (m.1, y.2.2)
        | none => m) }
    moves.foldl (fun u m => u.putMapWord d n x.1 m.1 m.2.2) t2) s

/-- Flags the pages of an entry on a die under CUT (R289). -/
def State.cutDie (n : Part) (e : Nat) (s : State) (d : Fin 8) : State :=
  let p := s.pool d n
  let l := ((p.entryPages e).map (fun m => (e, m.1))).filter (fun k => !p.cut.contains k)
  if l.isEmpty then s else s.setPool d n { p with cut := p.cut ++ l }

end Sys2Proof.Machine
end

