-- ==== Sys2Proof/Machine/Vx.lean ====
section
/-! DEFINITION. The vector station (R172 to R176, R207, R619 to R622). -/

namespace Sys2Proof.Machine

/-! ## Functions -/

/-- The classes of the VX function codes (R207). -/
inductive VxClass | fp32 | int32 | trans | reduce | cvt | ladd
  deriving DecidableEq, Repr

/-- The class of a function code; reserved codes give none. -/
def vxClass (fn : BitVec 8) : Option VxClass :=
  let n := fn.toNat
  if n ≤ 0x0B then some .fp32
  else if 0x10 ≤ n ∧ n ≤ 0x1B then some .int32
  else if 0x20 ≤ n ∧ n ≤ 0x26 then some .trans
  else if 0x30 ≤ n ∧ n ≤ 0x32 then some .reduce
  else if n = 0x38 then some .cvt
  else if n = 0x3C then some .ladd
  else none

/-- Whether a function uses operand B, and operand C (R207). -/
def vxUsesB (fn : BitVec 8) : Bool :=
  match vxClass fn with
  | some .fp32 => decide (fn.toNat ≠ 6 ∧ fn.toNat ≠ 7)
  | some .int32 | some .trans | some .ladd => true
  | _ => false
def vxUsesC (fn : BitVec 8) : Bool := decide (fn = 0x03 ∨ fn = 0x0B ∨ fn = 0x1B)

/-- Result formats of every function but LADD (R207). -/
def vxResult (f : Fmt) : Bool := decide (f = .bf16 ∨ f = .fp16 ∨ f = .fp32 ∨ f = .int32)

/-! ## Operands (R172, R621) -/

/-- An L64 value as FP32, and whether it saturated (R108, R113). -/
def l64Fp (anchor : Int) (code : Word) : Fv × Bool :=
  match l64Value anchor code with
  | none => (.nan, false)
  | some v =>
    let r := roundTarget fpSingle v
    (fpSingle.decode r.1, r.2)

/-- An L64 value as INT32, and whether it was clamped. -/
def l64Int (anchor : Int) (code : Word) : Int × Bool :=
  match l64Value anchor code with
  | none => (-(2 ^ 31), false)
  | some v => (v.fv false).toInt32

/-- An element brought into FP32 (R172). -/
def vxFp (f : Fmt) (anchor : BitVec 16) (code : Nat) : Fv × Bool :=
  if f = .l64 then l64Fp anchor.toInt (BitVec.ofNat 64 code) else ((f.fv code).to32, false)

/-- An element brought into INT32 (R172). -/
def vxInt (f : Fmt) (anchor : BitVec 16) (code : Nat) : Int × Bool :=
  match f with
  | .int32 => (signed 32 code, false)
  | .l64 => l64Int anchor.toInt (BitVec.ofNat 64 code)
  | _ => (f.fv code).toInt32

/-- An operand: a tile under its mode, or a scalar with its format (R207). -/
structure VxOperand where
  mode : Nat
  fmt : Fmt
  anchor : BitVec 16
  view : TileView

/-- The element code of an operand for (row, column) of the result. -/
def VxOperand.at (o : VxOperand) (r c : Nat) : Nat :=
  match o.mode with
  | 0 => (o.view.elems.getD r []).getD c 0
  | 1 => (o.view.elems.getD r []).getD 0 0
  | 2 => (o.view.elems.getD 0 []).getD c 0
  | _ => (o.view.elems.getD 0 []).getD 0 0

/-- A scalar operand: one code in the low bits of a word. -/
def scalarOperand (f : Fmt) (w : Word) : VxOperand :=
  let code := if f = .l64 then w.toNat else w.toNat % 2 ^ 32
  ⟨3, f, 0, { fmt := f, rows := 1, cols := 1, elems := [[code]], raw := [], scales := [], rscales := [], outRsv := 0,
              outl := [] }⟩

/-- An operand of a tile. -/
def tileOperand (mode : Nat) (t : Tile) : VxOperand := ⟨mode, t.fmt, t.anchor, t.view⟩

/-- The shape rule of an operand's mode (R621). -/
def VxOperand.fits (o : VxOperand) (rows cols : Nat) : Bool :=
  match o.mode with
  | 0 => decide (o.view.rows = rows) && decide (o.view.cols = cols)
  | 1 => decide (o.view.rows = rows) && decide (1 ≤ o.view.cols)
  | 2 => decide (o.view.cols = cols) && (decide (1 ≤ o.view.rows) || decide (rows = 0))
  | _ => true

/-! ## Results -/

/-- A result element: its code, whether it is a NaN, whether it was clamped or saturated. -/
structure VxCell where
  code : Nat
  nan : Bool
  sat : Bool

/-- A result of the FP32 domain written in a format (R172). -/
def writeFp (f : Fmt) (v : Fv) (sat : Bool) : VxCell :=
  let x := v.to32
  match f with
  | .int32 =>
    let r := x.toInt32
    ⟨wrap 32 r.1, x.isNan, sat || r.2⟩
  | _ => ⟨f.fp.encode x, x.isNan, sat⟩

/-- A result of the INT32 domain written in a format (R172). `nan` says that it is an operand's NaN. -/
def writeInt (f : Fmt) (v : Int) (nan sat : Bool) : VxCell :=
  match f with
  | .int32 => ⟨wrap 32 v, nan, sat⟩
  | _ => ⟨f.fp.encode ((⟨v, 0⟩ : Dy).fv false).to32, false, sat⟩

/-- 1.0 or +0 (R207). -/
def fpBool (b : Bool) : Fv := if b then .fin false 1 0 else .fin false 0 0

/-- The FP32 functions (R172, R207, R619). -/
def fpFn (fn : Nat) (a b c : Fv) : Fv :=
  match fn with
  | 0 => (a.add b).to32
  | 1 => (a.add b.neg).to32
  | 2 => (a.mul b).to32
  | 3 => ((a.mul b).add c).to32
  | 4 => a.minimum b
  | 5 => a.maximum b
  | 6 => a.abs
  | 7 => a.neg
  | 8 => fpBool (a.lt? b == some true)
  | 9 => fpBool (a.lt? b == some true || a.eqv b)
  | 10 => fpBool (a.eqv b)
  | _ => if a.isZero then c else b

/-- The INT32 functions on 32-bit words (R172, R207, R619, R620). -/
def intFn (fn : Nat) (a b c : BitVec 32) : BitVec 32 :=
  let k := b.toNat % 32
  match fn with
  | 0 => a + b
  | 1 => a - b
  | 2 => a * b
  | 3 => a <<< k
  | 4 => a >>> k
  | 5 => a.sshiftRight k
  | 6 => a &&& b
  | 7 => a ||| b
  | 8 => a ^^^ b
  | 9 => if BitVec.slt a b then 1 else 0
  | 10 => if a = b then 1 else 0
  | _ => if a = 0 then c else b

/-- The fused input of a transcendental: exact, or the IEEE 754-2019 evaluation where a part is an infinity or a NaN
(R174). -/
def fusedInput (v b a c : Fv) : Fv :=
  if v.isNan || v.isInf || b.isNan || b.isInf || a.isNan || a.isInf || c.isNan || c.isInf then
    ((((v.add b.neg).to32).mul a).to32.add c).to32
  else ((v.add b.neg).mul a).add c

/-- The transcendentals on an exact input (R174). -/
def transFn (fn : Nat) (x : Fv) : Fv :=
  let ofCode (k : Nat) : Fv := fpSingle.decode k
  match fn, x with
  | _, .nan => .nan
  | 0, .inf n => if n then .fin false 0 0 else .inf false
  | 0, .fin _ _ _ => ofCode (expCode x.dy)
  | 1, .inf n => if n then .fin false 0 0 else .inf false
  | 1, .fin _ _ _ => ofCode (exp2Code x.dy)
  | 2, .inf n => if n then .nan else .inf false
  | 2, .fin n m e => if m = 0 then .inf true else if n then .nan else ofCode (log2Code m e)
  | 3, .inf n => .fin n 1 0
  | 3, .fin n _ _ => ofCode (tanhCode x.dy n)
  | 4, .inf n => .fin n 0 0
  | 4, .fin n m e => if m = 0 then .inf n else (recipFv n m e).to32
  | 5, .inf n => if n then .nan else .inf false
  | 5, .fin n m e => if m = 0 then .fin n 0 0 else if n then .nan else (sqrtFv m e).to32
  | _, .inf n => if n then .nan else .fin false 0 0
  | _, .fin n m e => if m = 0 then .inf n else if n then .nan else (rsqrtFv m e).to32

/-- Combines neighbours of one level of the tree (R175). -/
def treeLevel (f : Fv → Fv → Fv) : List Fv → List Fv
  | a :: b :: l => f a b :: treeLevel f l
  | l => l

/-- The fixed tree over `2^k` values (R175). -/
def treeFold (f : Fv → Fv → Fv) : Nat → List Fv → List Fv
  | 0, l => l
  | k + 1, l => treeFold f k (treeLevel f l)

/-- The row reductions (R175, R619). -/
def reduceFn (fn : Nat) (l : List Fv) : Fv :=
  let k := if l.length ≤ 1 then 0 else Nat.log2 (l.length - 1) + 1
  let ident : Fv := match fn with
    | 0 => .fin false 0 0
    | 1 => .inf true
    | _ => .inf false
  let op : Fv → Fv → Fv := match fn with
    | 0 => fun a b => (a.add b).to32
    | 1 => Fv.maximum
    | _ => Fv.minimum
  (treeFold op k (l ++ List.replicate (2 ^ k - l.length) ident)).headD ident

/-- One element-wise result (R172 to R176). -/
def vxCell (cls : VxClass) (fn : BitVec 8) (rf : Fmt) (a b c : VxOperand) (sx sy : Fv) (r k : Nat) : VxCell :=
  let code (o : VxOperand) : Nat := o.at r k
  let fp (o : VxOperand) : Fv × Bool := vxFp o.fmt o.anchor (code o)
  let int (o : VxOperand) : Int × Bool := vxInt o.fmt o.anchor (code o)
  let low := fn.toNat % 16
  match cls with
  | .fp32 => writeFp rf (fpFn low (fp a).1 (fp b).1 (fp c).1) ((fp a).2 || (fp b).2 || (fp c).2)
  | .int32 =>
    let w (o : VxOperand) : BitVec 32 := BitVec.ofInt 32 (int o).1
    let fromNan (o : VxOperand) : Bool := decide (o.fmt ≠ .int32) && (fp o).1.isNan
    let v := intFn low (w a) (w b) (w c)
    writeInt rf v.toInt (decide (v = 0x80000000) && (fromNan a || fromNan b || fromNan c))
      ((int a).2 || (int b).2 || (int c).2)
  | .trans => writeFp rf (transFn low (fusedInput (fp a).1 (fp b).1 sx sy)) ((fp a).2 || (fp b).2)
  | .reduce => ⟨0, false, false⟩
  | .cvt =>
    if a.fmt = .int32 then writeInt rf (int a).1 false false
    else writeFp rf (fp a).1 (fp a).2
  | .ladd =>
    let v := l64Add (BitVec.ofNat 64 (code a)) (BitVec.ofNat 64 (code b))
    ⟨v.1.toNat, decide (v.1 = l64Nan), v.2⟩

/-- The rows of a result. -/
def vxRows (cls : VxClass) (fn : BitVec 8) (rf : Fmt) (a b c : VxOperand) (sx sy : Fv) : List (List VxCell) :=
  if cls = .reduce then
    (List.range a.view.rows).map (fun r =>
      let vs := (a.view.elems.getD r []).map (vxFp a.fmt a.anchor)
      [writeFp rf (reduceFn (fn.toNat % 16) (vs.map (·.1))) (vs.any (·.2))])
  else
    (List.range a.view.rows).map (fun r => (List.range a.view.cols).map (fun k => vxCell cls fn rf a b c sx sy r k))

/-! ## The station -/

/-- The tile of an operand, or the scalar that stands for it. -/
def Core.vxOperand (x : Core) (used : Bool) (mode : Nat) (q : BitVec 4) (scalar : VxOperand) : Option VxOperand :=
  if !used then some scalar
  else if mode = 3 then some scalar
  else (x.headTile q).map (tileOperand mode)

/-- Takes an operand's tile from its stream. -/
def Core.takeOperand (x : Core) (used : Bool) (mode : Nat) (q : BitVec 4) : Core :=
  if used && decide (mode ≠ 3) then x.popTile q else x

/-- The format in which a scalar operand stands (R207). -/
def scalarFmt (cls : VxClass) : Fmt :=
  match cls with
  | .int32 => .int32
  | .ladd => .l64
  | _ => .fp32

/-- Tries to run a VX command (R172 to R176, R207, R619 to R622). -/
def State.runVx (s : State) (c : CoreId) (fn : BitVec 8) (q0 q1 q2 q3 rfmt : BitVec 4) (bm cm : BitVec 2)
    (sx sy : Word) : Ran :=
  let x := s.core c
  let cls := (vxClass fn).getD .cvt
  let rf := fmtOf rfmt.toNat
  let usesB := vxUsesB fn
  let usesC := vxUsesC fn
  let zero := scalarOperand .fp32 0
  let bScalar := if cls = .trans then zero else scalarOperand (scalarFmt cls) sx
  match (x.headTile q1).map (tileOperand 0), x.vxOperand usesB bm.toNat q2 bScalar,
      x.vxOperand usesC cm.toNat q3 (scalarOperand (scalarFmt cls) sy) with
  | some a, some b, some cc =>
    let plain (o : VxOperand) : Bool := vxResult o.fmt || decide (o.fmt = .l64)
    if !(plain a && plain b && plain cc) then .done (s.kill c 0x030A (some .vx))
    else if (usesB && !b.fits a.view.rows a.view.cols) || (usesC && !cc.fits a.view.rows a.view.cols) then
      .done (s.kill c 0x030A (some .vx))
    else if cls = .ladd ∧ (a.fmt ≠ .l64 ∨ b.fmt ≠ .l64 ∨ (b.mode ≠ 3 ∧ a.anchor ≠ b.anchor)) then
      .done (s.kill c 0x030A (some .vx))
    else
      let f32 (w : Word) : Fv := fpSingle.decode (w.toNat % 2 ^ 32)
      let rows := vxRows cls fn rf a b cc (f32 sx) (f32 sy)
      let cells := rows.flatten
      let status := flagIf (cells.any (·.nan)) flagNAN ||| flagIf (cells.any (·.sat)) flagRSAT
      let cols := if cls = .reduce then 1 else a.view.cols
      let t := mkTile rf a.view.rows cols a.anchor status (rows.flatMap (fun r => rf.packRow (r.map (·.code)))) false
      match x.room q0 t with
      | .tooLarge => .done (s.kill c 0x0307 (some .vx))
      | .waits => .waits true
      | .fits =>
        let y := ((x.popTile q1).takeOperand usesB bm.toNat q2).takeOperand usesC cm.toNat q3
        let n := a.view.rows * a.view.cols
        let i := s.coreIx c
        let s1 := (s.setCore c (y.pushTile q0 t)).bump .vxOps i 0 n
        let s2 := s1.bump .vxNanOut i 0 (cells.filter (·.nan)).length
        .done (if cls = .trans then s2.bump .vxTransOps i 0 n else s2)
  | _, _, _ => .waits true

end Sys2Proof.Machine
end

