-- ==== Sys2Proof/Machine/Sampler.lean ====
section
/-! DEFINITION. The sampler and stop detection of the serving station (R290 to R297, R303). -/

namespace Sys2Proof.Machine

/-! ## The uniform value (R292) -/

/-- One round of Philox4x32: the counter words under the round's key. -/
def philoxRound (k0 k1 : BitVec 32) (c : BitVec 32 × BitVec 32 × BitVec 32 × BitVec 32) :
    BitVec 32 × BitVec 32 × BitVec 32 × BitVec 32 :=
  let p0 : Nat := 0xD2511F53 * c.1.toNat
  let p1 : Nat := 0xCD9E8D57 * c.2.2.1.toNat
  (BitVec.ofNat 32 (p1 / 2 ^ 32) ^^^ c.2.1 ^^^ k0, BitVec.ofNat 32 p1, BitVec.ofNat 32 (p0 / 2 ^ 32) ^^^ c.2.2.2 ^^^ k1,
    BitVec.ofNat 32 p0)

/-- Rounds of Philox4x32 with the key bumped between them. -/
def philox : Nat → BitVec 32 → BitVec 32 → BitVec 32 × BitVec 32 × BitVec 32 × BitVec 32 →
    BitVec 32 × BitVec 32 × BitVec 32 × BitVec 32
  | 0, _, _, c => c
  | k + 1, k0, k1, c => philox k (k0 + 0x9E3779B9) (k1 + 0xBB67AE85) (philoxRound k0 k1 c)

/-- u for the token that takes sequence index `ix`, as a datum (R292). -/
def uniform (seed : Word) (ix : Nat) : Fv :=
  let w := (philox 10 (seed.setWidth 32) ((seed >>> 32).setWidth 32)
    (BitVec.ofNat 32 ix, BitVec.ofNat 32 (ix / 2 ^ 32), 0, 0)).1
  .fin false (w.toNat / 256) (-24)

/-! ## Choosing a token (R291) -/

/-- A candidate: token and logit. -/
structure Cand where
  token : Nat
  logit : Fv
  deriving DecidableEq, Repr

/-- Puts a candidate in its place: descending value, ties to the lower token. -/
def candInsert (x : Cand) : List Cand → List Cand
  | [] => [x]
  | y :: l =>
    if x.logit.lt? y.logit = some true then y :: candInsert x l
    else if y.logit.lt? x.logit = some true then x :: y :: l
    else if y.token < x.token then y :: candInsert x l
    else x :: y :: l

/-- The candidates of a row: steps 1 and 2. -/
def candidates (topK : Nat) (logits : List (Nat × BitVec 32)) : List Cand :=
  let kept := logits.filterMap (fun p =>
    match fpSingle.decode p.2.toNat with
    | .nan => none
    | .inf true => none
    | .inf false => some (⟨p.1, fpSingle.decode 0x7F7FFFFF⟩ : Cand)
    | x => some ⟨p.1, x⟩)
  let k := min (if topK = 0 then 1024 else topK) 1024
  kept.foldl (fun l x => (candInsert x l).take k) []

/-- Running sums in FP32 (step 4). -/
def prefixSums : Option Fv → List Fv → List Fv
  | _, [] => []
  | none, w :: l => w :: prefixSums (some w) l
  | some c, w :: l => let c' := (c.add w).to32; c' :: prefixSums (some c') l

/-- Whether `a` is at least `b`; false where one of them is a NaN. -/
def Fv.geq (a b : Fv) : Bool := decide (a.lt? b = some false)

/-- The token of a row, and whether every logit was excluded (R291). `none`: no candidate meets step 5, which the spec
leaves open. -/
def chooseToken (e : Entry) (u : Fv) (logits : List (Nat × BitVec 32)) : Option (Nat × Bool) :=
  match candidates e.topK logits with
  | [] => some (0, true)
  | c0 :: cs =>
    if e.temperature = 0 ∨ e.temperature = 0x80000000 then some (c0.token, false)
    else
      let t := transFn 4 (fpSingle.decode e.temperature.toNat)
      let z := (c0 :: cs).map (fun c => (c.logit.mul t).to32)
      let z0 := z.headD (.fin false 0 0)
      let sums := prefixSums none (z.map (fun x => transFn 0 (x.add z0.neg)))
      let lim := ((fpSingle.decode e.topP.toNat).mul (sums.getLastD (.fin false 0 0))).to32
      match sums.findIdx? (fun c => c.geq lim) with
      | none => none
      | some j =>
        let x := (u.mul (sums.getD j .nan)).to32
        let i := ((sums.take (j + 1)).findIdx? (fun c => decide (x.lt? c = some true))).getD j
        some (((c0 :: cs).getD i c0).token, false)

/-! ## Entries, owners, yields -/

/-- A request entry. -/
def State.entry? (s : State) (e : Nat) : Option Entry := Assoc.find e s.sv.entries

/-- Replaces a request entry; a FREE entry is not listed. -/
def State.setEntry (s : State) (e : Nat) (x : Entry) : State :=
  { s with sv := { s.sv with entries := if x.state = .free then Assoc.del e s.sv.entries else Assoc.put e x s.sv.entries } }

/-- The code of an end reason (R296). -/
def EndReason.code : EndReason → Nat
  | .none => 0
  | .stopToken => 1
  | .stopSequence => 2
  | .maxNew => 3
  | .maxTotal => 4
  | .wall => 5
  | .cancelled => 6

/-- The codes of R275. -/
def ReqState.code : ReqState → Nat
  | .free => 0
  | .queued => 1
  | .prefill => 2
  | .decode => 3
  | .done => 4

/-- A request entry as its 128 bytes (R274). -/
def Entry.bytes (x : Entry) : List Byte :=
  natBytes 4 x.ttft ++ natBytes 4 x.tbtMax ++ natBytes 4 x.accepted ++ [0] ++ natBytes 1 x.endReason.code
    ++ natBytes 1 (bitN x.missAction + 2 * bitN x.specOff + 4 * bitN x.cut + 8 * bitN x.cancel) ++ natBytes 1 x.state.code
    ++ natBytes 1 x.part.val ++ natBytes 1 x.home.val ++ natBytes 1 x.probeRun ++ natBytes 1 x.zeroRun
    ++ natBytes 1 x.draftDepth ++ natBytes 1 x.draftMax ++ natBytes 2 x.missLimit ++ natBytes 2 x.misses
    ++ natBytes 2 x.channel ++ natBytes 2 x.version.toNat ++ natBytes 2 x.topK ++ natBytes 8 x.startTick
    ++ natBytes 4 x.tbtTarget ++ natBytes 4 x.ttftTarget ++ natBytes 4 x.topP.toNat ++ natBytes 4 x.temperature.toNat
    ++ natBytes 4 x.wallTicks ++ natBytes 4 x.maxTotal ++ natBytes 4 x.maxNew ++ natBytes 4 x.genCount
    ++ natBytes 4 x.ctxLen ++ natBytes 4 x.promptLen ++ natBytes 8 x.promptAddr ++ natBytes 8 x.stopAddr
    ++ wordBytes x.lastTbc ++ wordBytes x.submitTbc ++ wordBytes x.seed ++ wordBytes x.reqId

/-- Bytes that SV writes into the table region (R272, log 50): register space is unmapped to it too (R616). -/
def State.tableWrite (s : State) (off : Nat) (bs : List Byte) : State :=
  let a := s.cfgN .svTableBase + off
  if 0x3000000000000 ≤ a + bs.length then s.lastCode 0x0601 else s.putBytes ⟨.close, a, 2, none⟩ bs

/-- Replaces a request entry, in the table region too (R272). -/
def State.putEntry (s : State) (e : Nat) (x : Entry) : State := (s.setEntry e x).tableWrite (128 * e) x.bytes

/-- Whether a die of this module owns a request (R272). -/
def State.owns (s : State) (d : Fin 8) (e : Nat) : Bool :=
  match s.entry? e with
  | none => false
  | some x => decide (x.home = s.self) && decide (e % 8 = d.val)

/-- What a step has yielded for a sequence so far. -/
def Batch.yieldOf (b : Batch) (e : Nat) : SeqYield :=
  (b.yields.find? (fun y => decide (y.entry = e))).getD ⟨e, [], [], none, none, [], .none, 0⟩

/-- Replaces what a step has yielded for a sequence. -/
def Batch.setYield (b : Batch) (y : SeqYield) : Batch :=
  if b.yields.any (fun x => decide (x.entry = y.entry)) then
    { b with yields := b.yields.map (fun x => if x.entry = y.entry then y else x) }
  else { b with yields := b.yields ++ [y] }

/-! ## Stop detection (R296, R297) -/

/-- Whether the generated tokens end with a stop sequence. -/
def endsWith (l t : List (BitVec 32)) : Bool := decide (t.length ≤ l.length) && decide (l.drop (l.length - t.length) = t)

/-- The end reason that holds at a token, earliest in the table of R296: `gen` is the generated list up to it. -/
def stopAt (x : Entry) (gen : List (BitVec 32)) (p : BitVec 32) : EndReason :=
  if x.stopIds.contains p then .stopToken
  else if x.stopSeqs.any (endsWith gen) then .stopSequence
  else if x.maxNew ≤ gen.length then .maxNew
  else if x.maxTotal ≤ x.promptLen + gen.length then .maxTotal
  else .none

/-- The tokens of a yield up to the first at which a stop holds, and the reason. -/
def cutYield (x : Entry) : List (BitVec 32) → List (BitVec 32) → List (BitVec 32) × EndReason
  | _, [] => ([], .none)
  | gen, p :: l =>
    match stopAt x (gen ++ [p]) p with
    | .none => let r := cutYield x (gen ++ [p]) l; (p :: r.1, r.2)
    | e => ([p], e)

/-- Whether the tick limit of a request is reached at the commit of a tick (R296). -/
def wallReached (x : Entry) (tick : Nat) : Bool :=
  decide (x.wallTicks ≠ 0) && decide (x.wallTicks + x.startTick ≤ tick + 1)

/-- R296 for one sequence: its tokens and its end reason. -/
def checkYield (x : Entry) (tick : Nat) (tokens : List (BitVec 32)) : List (BitVec 32) × EndReason :=
  let r := cutYield x x.generated tokens
  (r.1, if r.2 = .none ∧ wallReached x tick then .wall else r.2)

/-- The tokens a sequence has sampled that its step yields: those of offsets 0 to the accepted count (R294). -/
def SeqYield.sampled (y : SeqYield) : List (BitVec 32) :=
  (List.range (y.accepted + 1)).filterMap (fun i => Assoc.find i y.samples)|>.map (·.1)

/-- The end reason of a code. -/
def EndReason.ofCode (k : Nat) : EndReason :=
  ([.none, .stopToken, .stopSequence, .maxNew, .maxTotal, .wall, .cancelled] : List EndReason).getD k .none

/-- The first register of the SV of a die (R156), where messages between serving stations go. -/
def svBlock (d : Fin 8) : Nat := (rk .svStatus d.val).addr

/-- The other modules of a slice. -/
def State.otherMembers (s : State) (n : Part) : List ModIx := (s.members n).filter (fun m => decide (m ≠ s.self))

/-- A write of a serving station to its counterpart on another module, in the core's segment (log 32). -/
def State.svSend (s : State) (c : CoreId) (n : Part) (addr : Nat) (bs : List Byte) (m : ModIx) : State :=
  match s.requestFault n m with
  | some e => (if e = 0x0811 then s.bump .fabDeadCount 0 0 1 else s).kill c e
  | none =>
    let pk := s.mkPacket n (.die c.die) m addr (up8 bs.length) (some ⟨(s.core c).seg, (s.dom n).run⟩) false bs
    s.sendRequest .write .engine (.die c.die) { pk with dstDie := BitVec.ofNat 8 c.die.val }

/-- The bytes of a yield on its way to another copy (log 32). -/
def SeqYield.bytes (y : SeqYield) : List Byte :=
  natBytes 4 y.entry ++ natBytes 1 y.tokens.length ++ natBytes 1 y.endReason.code ++ natBytes 1 y.accepted
    ++ natBytes 1 (if y.nan.any (fun p => decide (p.1 < y.tokens.length)) then 1 else 0)
    ++ y.tokens.flatMap (fun t => natBytes 4 t.toNat)

/-- STOPCHK of one sequence, once sampled (R297): its yield goes to every copy. -/
def State.checkSeq (s : State) (c : CoreId) (n : Part) (e : Nat) : State :=
  let b := (s.svPart n).running
  let y := b.yieldOf e
  match s.entry? e with
  | none => s
  | some x =>
    if y.samples.isEmpty || y.checked.isSome || !s.owns c.die e then s
    else
      let r := checkYield x b.tick y.sampled
      let y' := { y with checked := some (s.core c).seg, tokens := r.1, endReason := r.2 }
      (s.otherMembers n).foldl (fun t m => t.svSend c n (svBlock c.die) y'.bytes m) (s.updBatch n (fun b => b.setYield y'))

/-- STOPCHK (R297): the sequences of the named rows. -/
def State.stopchk (s : State) (c : CoreId) (n : Part) (first count : Nat) : State :=
  let rows := ((s.svPart n).running.rows.drop first).take count
  (dedup (rows.map (·.entry))).foldl (fun t e => t.checkSeq c n e) s

/-- The check at STEPEND of what the core's SAMPLEs have sampled (R297). -/
def State.checkAtEnd (s : State) (c : CoreId) (n : Part) : State :=
  (((s.svPart n).running.yields.filter (fun y => decide (y.core = some c))).map (·.entry)).foldl
    (fun t e => t.checkSeq c n e) s

/-! ## SAMPLE (R290) -/

/-- The offset of a batch row in its sequence: 0 but for VERIFY rows. -/
def BatchRow.offset (r : BatchRow) (k : Nat) : Nat := if r.role = .verify then k - r.seqRow else 0

/-- Whether a mode suits an owned row (R290, R293, R294): SAMPLE any but VERIFY, DRAFT and VERIFY only VERIFY. -/
def modeSuits (mode : Nat) (r : BatchRow) : Bool :=
  if mode = 0 then decide (r.role ≠ .verify) else decide (r.role = .verify)

/-- Whether a row takes a sample in a mode: not PREFILL, and not the last row of a sequence in DRAFT. -/
def takesSample (mode : Nat) (r : BatchRow) (k : Nat) : Bool :=
  if mode = 0 then decide (r.role ≠ .prefill) else if mode = 1 then decide (r.offset k < r.depth) else true

/-- The logits fed for a row. -/
def Batch.feedOf (b : Batch) (d : Fin 8) (k mode : Nat) : List (Nat × BitVec 32 × Nat) :=
  ((b.feeds.find? (fun f => decide (f.die = d ∧ f.row = k ∧ f.mode = mode))).map (·.logits)).getD []

/-- Adds logits to what was fed for a row. -/
def Batch.addFeed (b : Batch) (d : Fin 8) (k mode : Nat) (l : List (Nat × BitVec 32 × Nat)) : Batch :=
  if b.feeds.any (fun f => decide (f.die = d ∧ f.row = k ∧ f.mode = mode)) then
    { b with feeds := b.feeds.map (fun f =>
        if f.die = d ∧ f.row = k ∧ f.mode = mode then { f with logits := f.logits ++ l } else f) }
  else { b with feeds := b.feeds ++ [⟨d, k, mode, l⟩] }

/-- Feeds one row's slice, or finds the fault 0x0507. -/
def State.feedRow (s : State) (c : CoreId) (n : Part) (mode vocab : Nat) (codes : List Nat) (k : Nat) : Option State :=
  let b := (s.svPart n).running
  match b.rows[k]? with
  | none => none
  | some r =>
    if !s.owns c.die r.entry then some s
    else
      let old := b.feedOf c.die k mode
      let new := codes.mapIdx (fun i x => (vocab + i, BitVec.ofNat 32 x, (s.core c).seg))
      if !modeSuits mode r || decide (s.cfgN .svPVocab 0 n.val < vocab + codes.length)
          || old.any (fun p => decide (vocab ≤ p.1 ∧ p.1 < vocab + codes.length)) then none
      else some (s.updBatch n (fun b => b.addFeed c.die k mode new))

/-- Samples a row whose logits are covered. -/
def State.sampleRow (s : State) (c : CoreId) (n : Part) (mode k : Nat) (r : BatchRow) (e : Entry) : State :=
  let b := (s.svPart n).running
  let logits := (b.feedOf c.die k mode).map (fun p => (p.1, p.2.1))
  let f := s.fresh
  let t := match chooseToken e (uniform e.seed (r.pos + 1)) logits with
    | some x => (x.1, x.2, s)
    | none => (f.1.toNat % 2 ^ 32, false, f.2)
  let tok := BitVec.ofNat 32 t.1
  let seg := (s.core c).seg
  let s1 := t.2.2.bump .svRowsSampled c.die.val 0 1
  let s2 := if t.2.1 then s1.bump .svNanRows c.die.val 0 1 else s1
  if mode = 1 then
    let s3 := (s2.bump .svDraftsProposed c.die.val 0 1).updBatch n (fun b =>
      { b with filled := b.filled ++ [(k + 1, tok, seg)],
               rows := modNth (fun x => { x with token := tok.toInt }) (k + 1) b.rows })
    (s.otherMembers n).foldl
      (fun u m => u.svSend c n (tableAddr c.die n + 32 * (k + 1) + 16) (natBytes 4 tok.toNat) m) s3
  else
    let o := r.offset k
    s2.updBatch n (fun b =>
      let y := b.yieldOf r.entry
      b.setYield { y with samples := Assoc.put o (tok, seg) y.samples, core := some c,
                          nan := if t.2.1 then y.nan ++ [(o, seg)] else y.nan })

/-- The accepted drafts of a verified sequence: leading offsets whose sample equals the draft in the next row (R294). -/
def acceptedRun (b : Batch) (y : SeqYield) (first : Nat) : Nat → Nat → Nat
  | 0, _ => 0
  | k + 1, i =>
    match Assoc.find i y.samples, Assoc.find (first + i + 1) b.filled with
    | some a, some d => if a.1 = d.1 then 1 + acceptedRun b y first k (i + 1) else 0
    | _, _ => 0

/-- The result row of a batch row: token and accepted count (R290). -/
def State.resultRow (s : State) (c : CoreId) (n : Part) (mode k : Nat) : List Nat :=
  let b := (s.svPart n).running
  let none_ : List Nat := [0xFFFFFFFF, 0]
  match b.rows[k]? with
  | none => none_
  | some r =>
    if !s.owns c.die r.entry || !takesSample mode r k then none_
    else
      let y := b.yieldOf r.entry
      if mode = 1 then [((Assoc.find (k + 1) b.filled).map (fun p => p.1.toNat)).getD 0xFFFFFFFF, 0]
      else [((Assoc.find (r.offset k) y.samples).map (fun p => p.1.toNat)).getD 0xFFFFFFFF, if mode = 2 then y.accepted else 0]

/-- Tries to run a SAMPLE (R290 to R294): feeds the rows; with LAST it samples them and, with OUT, writes the results. -/
def State.runSample (s : State) (c : CoreId) (q0 q1 : BitVec 4) (outp : Bool) (mode : Nat) (last : Bool)
    (row vocab : Nat) : Ran :=
  match (s.core c).headTile q1 with
  | none => .waits true
  | some t =>
    let n := (s.partOf c).getD 0
    let outBytes := (List.range t.rows).flatMap (fun _ => List.replicate 8 (0 : Byte))
    let proto := mkTile .int32 t.rows 2 0 0 outBytes false
    if last && outp && decide ((s.core c).room q0 proto = .waits) then .waits true
    else if last && outp && decide ((s.core c).room q0 proto = .tooLarge) then .done (s.kill c 0x0307)
    else
      let ks := (List.range t.rows).map (fun i => row + i)
      let codes := t.view.elems
      let s1 := s.updCore c (fun x => x.popTile q1)
      let fed := (List.range t.rows).foldl
        (fun acc i => acc.bind (fun u => u.feedRow c n mode vocab (codes.getD i []) (row + i))) (some s1)
      let b0 := (s.svPart n).running
      let mine := ks.filterMap (fun k => (b0.rows[k]?).bind (fun r => if s.owns c.die r.entry then some (k, r) else none))
      let whole := mode ≠ 2 || mine.all (fun p => decide (row ≤ p.2.seqRow ∧ p.2.seqRow + p.2.news ≤ row + t.rows))
      match fed, whole with
      | some u, true =>
        if !last then .done u
        else if mine.any (fun p =>
            decide (((u.svPart n).running.feedOf c.die p.1 mode).length ≠ s.cfgN .svPVocab 0 n.val)) then
          .done (u.stationFault .svFault c 0x0507)
        else
          let u1 := mine.foldl (fun v p =>
            match v.entry? p.2.entry with
            | some e => if takesSample mode p.2 p.1 then v.sampleRow c n mode p.1 p.2 e else v
            | none => v) u
          let heads := mine.filter (fun p => decide (mode = 2 ∧ p.1 = p.2.seqRow))
          let u2 := heads.foldl (fun v p =>
            let b := (v.svPart n).running
            let y := b.yieldOf p.2.entry
            let a := acceptedRun b y p.2.seqRow p.2.depth 0
            (v.bump .svDraftsAccepted c.die.val 0 a).updBatch n (fun b => b.setYield { y with accepted := a })) u1
          if !outp then .done u2
          else
            let cells := ks.flatMap (fun k => u2.resultRow c n mode k)
            let tile := mkTile .int32 t.rows 2 0 0 (cells.flatMap (natBytes 4)) false
            .done (u2.updCore c (fun x => x.pushTile q0 tile))
      | _, _ => .done (s1.stationFault .svFault c 0x0507)

/-! ## DRAFTSYNC and YIELD (R293, R297, R303) -/

/-- Whether a VERIFY row holds its token: the first row of a sequence from the start, the others once a draft fills it. -/
def Batch.rowFilled (b : Batch) (k : Nat) : Bool :=
  match b.rows[k]? with
  | none => false
  | some r => decide (r.seqRow = k) || (Assoc.find k b.filled).isSome

/-- SV DRAFTSYNC (R293, R303): it answers once the range is filled. -/
def State.draftsync (s : State) (c : CoreId) (n : Part) (tag : Nat) (a b : Word) : State :=
  let bt := (s.svPart n).running
  let ks := (List.range (min b.toNat bt.rows.length)).map (fun i => a.toNat + i)
  if bt.rows.length < a.toNat + b.toNat || ks.any (fun k => (bt.rows[k]?).any (fun r => decide (r.role ≠ .verify))) then
    s.deliver c tag (wordBytes (dcmdResult 0x0508 0))
  else if ks.all bt.rowFilled then s.deliver c tag (wordBytes (dcmdResult 0 b.toNat))
  else s.updBatch n (fun x => { x with syncs := x.syncs ++ [(c, tag, a.toNat, b.toNat)] })

/-- DRAFTSYNCs whose range is filled get their results. -/
def State.wakeSyncs (s : State) (n : Part) : State :=
  let bt := (s.svPart n).running
  let ready (w : CoreId × Nat × Nat × Nat) : Bool := (List.range w.2.2.2).all (fun i => bt.rowFilled (w.2.2.1 + i))
  if bt.syncs.any ready then
    let s1 := s.updBatch n (fun x => { x with syncs := x.syncs.filter (fun w => !ready w) })
    (bt.syncs.filter ready).foldl (fun t w => t.deliver w.1 w.2.1 (wordBytes (dcmdResult 0 w.2.2.2))) s1
  else s

/-- SV YIELD (R297, R303). -/
def State.svYield (s : State) (c : CoreId) (n : Part) (tag : Nat) (a : Word) : State :=
  let bt := (s.svPart n).running
  let r := match bt.rows[a.toNat]? with
    | none => dcmdResult 0x0508 0
    | some row =>
      let y := bt.yieldOf row.entry
      match y.checked with
      | none => dcmdResult 0x0508 0
      | some _ => dcmdResult 0 (y.tokens.length + 256 * y.endReason.code)
  s.deliver c tag (wordBytes r)

/-! ## Messages from the serving stations of other modules (log 32) -/

/-- A draft token or a yield that another module's serving station sends. -/
def State.svReceive (s : State) (n : Part) (d : Fin 8) (seg addr : Nat) (bs : List Byte) : State :=
  let b := (s.svPart n).running
  if addr = svBlock d then
    let e := fieldNat bs 0 4
    let k := fieldNat bs 4 1
    let y : SeqYield :=
      { entry := e, samples := [(0, 0, seg)], nan := if fieldNat bs 7 1 = 1 then [(0, seg)] else [], core := none,
        checked := some seg, tokens := (List.range k).map (fun i => BitVec.ofNat 32 (fieldNat bs (8 + 4 * i) 4)),
        endReason := EndReason.ofCode (fieldNat bs 5 1), accepted := fieldNat bs 6 1 }
    s.updBatch n (fun x => x.setYield y)
  else
    let k := (addr - tableAddr d n) / 32
    let tok := BitVec.ofNat 32 (fieldNat bs 0 4)
    if k < b.rows.length then
      (s.updBatch n (fun x => { x with filled := x.filled ++ [(k, tok, seg)],
                                       rows := modNth (fun r => { r with token := tok.toInt }) k x.rows })).wakeSyncs n
    else s

/-! ## Rewind -/

/-- A rewind from segment `j` on discards what the sampler did in those segments (R62, R210); rows stay (R286). -/
def Batch.rewind (j : Nat) (b : Batch) : Batch :=
  let back (y : SeqYield) : SeqYield :=
    let l := y.samples.filter (fun p => decide (p.2.2 < j))
    let y1 := if l.length = y.samples.length then y else { y with samples := l, accepted := 0, checked := none }
    let y2 := { y1 with nan := y.nan.filter (fun p => decide (p.2 < j)) }
    match y2.checked with
    | some k => if j ≤ k then { y2 with checked := none, tokens := [], endReason := .none } else y2
    | none => { y2 with tokens := [], endReason := .none }
  { b with
    filled := b.filled.filter (fun p => decide (p.2.2 < j)),
    feeds := b.feeds.map (fun f => { f with logits := f.logits.filter (fun p => decide (p.2.2 < j)) }),
    yields := (b.yields.map back).filter (fun y => !y.samples.isEmpty),
    shared := b.shared.filter (fun x => decide (x.seg < j)),
    syncs := [] }

end Sys2Proof.Machine
end

