-- ==== Sys2Proof/Machine/Tx.lean ====
section
/-! DEFINITION. The transform station (R177 to R181, R208, R622, R623). -/

namespace Sys2Proof.Machine

/-- Payload bytes of the one tile that TX holds whole (R623). -/
def txBuffer : Nat := 65536

/-- Formats of the plain operations (R177). -/
def Fmt.plainFp (f : Fmt) : Bool := decide (f = .bf16 ∨ f = .fp16 ∨ f = .fp32)

/-- Whether a TX function takes a source format to a result format (R177). -/
def txPair (fn : Nat) (src res : Fmt) : Bool :=
  match fn with
  | 0 => src.plainFp && decide (res.block ≠ 0)
  | 1 => decide (src.block ≠ 0) && res.plainFp
  | 2 => (src.plainFp || decide (src = .int32 ∨ src = .l64)) && (res.plainFp || decide (res = .int32))
  | 3 => (src.plainFp || decide (src = .int32)) && decide (src = res)
  | _ => decide (src = res)

/-- A result: its tile, or a fault. -/
abbrev TxOut := Except Code Tile

/-! ## QUANT (R89 to R97, R178) -/

/-- The counts and payload of a quantised source tile. -/
def txQuant (f : Fmt) (src : Tile) : List Byte × QCounts :=
  let v := src.view
  quantTile f v.cols (v.elems.map (fun r => r.map v.fmt.fv))

/-- The status of a QUANT result (R622). -/
def quantStatus (q : QCounts) : BitVec 7 :=
  flagIf (decide (0 < q.sat)) flagSAT ||| flagIf (decide (0 < q.under)) flagUNDER ||| flagIf (decide (0 < q.nan)) flagNAN

/-! ## DEQUANT and CONVERT (R179) -/

/-- One dequantised element (R83, R99, R179): the exact value with corrections and row scale, rounded once. A row scale that is
no number makes the element NaN. -/
def dequantCell (f : Fmt) (v : TileView) (r k : Nat) : VxCell :=
  let scale : Fv := if v.fmt.w2 then fpBrain.decode (v.rscales.getD r 0) else .fin false 1 0
  if scale.isNan || scale.isInf then ⟨f.fp.nanCode, true, false⟩
  else
    match v.valueAt r k with
    | .nan => ⟨f.fp.nanCode, true, false⟩
    | .inf n => ⟨f.fp.encode (.inf n), false, false⟩
    | x => ⟨f.fp.encode ((scale.dy.mul x.dy).fv false), false, false⟩

/-- One converted element (R108, R113, R172, R179): L64 with its anchor and the column's scale saturates. -/
def convertCell (f : Fmt) (src : Fmt) (anchor : BitVec 16) (scale : Option (BitVec 16)) (code : Nat) : VxCell :=
  match src with
  | .l64 =>
    let r : Fv := match scale with
      | some w => fpBrain.decode w.toNat
      | none => .fin false 1 0
    match l64Value anchor.toInt (BitVec.ofNat 64 code) with
    | none => match f with
      | .int32 => ⟨0x80000000, true, false⟩
      | _ => ⟨f.fp.nanCode, true, false⟩
    | some d =>
      if r.isNan || r.isInf then
        match f with
        | .int32 => ⟨0x80000000, true, false⟩
        | _ => ⟨f.fp.nanCode, true, false⟩
      else
        let x := r.dy.mul d
        match f with
        | .int32 =>
          let i := (x.fv false).toInt32
          ⟨wrap 32 i.1, false, i.2⟩
        | _ =>
          let q := roundTarget f.fp x
          ⟨q.1, false, q.2⟩
  | _ =>
    if src = .int32 ∧ f = .int32 then ⟨code, false, false⟩
    else
      let x := src.fv code
      match f with
      | .int32 =>
        let i := x.toInt32
        ⟨wrap 32 i.1, x.isNan, i.2⟩
      | _ => ⟨f.fp.encode x, x.isNan, false⟩

/-- A result tile of element cells, with the anchor and shape of its source. -/
def cellsTile (f : Fmt) (src : Tile) (rows : List (List VxCell)) : Tile :=
  let cells := rows.flatten
  let status := flagIf (cells.any (·.nan)) flagNAN ||| flagIf (cells.any (·.sat)) flagRSAT
  mkTile f src.rows src.cols src.anchor status (rows.flatMap (fun r => f.packRow (r.map (·.code)))) false

/-- DEQUANT (R179); an entry outside the tile is 0x0205 (R99). -/
def txDequant (f : Fmt) (src : Tile) : TxOut :=
  let v := src.view
  if v.outl.any (fun o => decide (v.cols ≤ o.k) || decide (v.rows ≤ o.n)) then .error 0x0205
  else .ok (cellsTile f src ((List.range v.rows).map (fun r => (List.range v.cols).map (fun k => dequantCell f v r k))))

/-- CONVERT (R179): column scales stand behind the elements of an L64 tile that was loaded with them (log 24). -/
def txConvert (f : Fmt) (src : Tile) : TxOut :=
  let v := src.view
  let tail := src.payload.drop (v.rows * v.fmt.rowBytes v.cols)
  let scale (k : Nat) : Option (BitVec 16) :=
    if tail.isEmpty then none else some (BitVec.ofNat 16 (fieldNat tail (2 * k) 2))
  .ok (cellsTile f src (v.elems.map (fun r => r.mapIdx (fun k code => convertCell f v.fmt src.anchor (scale k) code))))

/-! ## TRANSPOSE, GATHER, SCATTER (R177, R180, R622) -/

/-- The result of a TX operation on an empty tile: an empty tile (R170). -/
def emptyResult (src : Tile) (cols : Nat) : Tile :=
  mkTile src.fmt 0 cols src.anchor (descStatus src.desc) [] false

/-- TRANSPOSE (R170, R177). -/
def txTranspose (src : Tile) : TxOut :=
  if src.rows = 0 then .ok (emptyResult src 0)
  else if txBuffer < src.payload.length then .error 0x030A
  else
    let v := src.view
    let rows := (List.range v.cols).map (fun k => v.elems.map (fun r => r.getD k 0))
    .ok (mkTile v.fmt v.cols v.rows src.anchor (descStatus src.desc) (rows.flatMap v.fmt.packRow) false)

/-- A zero row of a format (R180). -/
def zeroRow (f : Fmt) (cols : Nat) : List Byte := f.packRow (List.replicate cols f.zeroCode)

/-- The rows taken: for each result row, the source row that fills it. -/
abbrev Picks := List (Option Nat)

/-- The source rows that GATHER takes, or a fault (R180). -/
def gatherPicks (rows : Nat) (ix : List Nat) : Except Code Picks :=
  if ix.any (fun i => decide (i ≠ 0xFFFFFFFF ∧ rows ≤ i)) then .error 0x030A
  else .ok (ix.map (fun i => if i = 0xFFFFFFFF then none else some i))

/-- The source rows that SCATTER puts in each of `n` result rows, or a fault: the later index wins (R180). -/
def scatterPicks (rows n : Nat) (ix : List Nat) : Except Code Picks :=
  let used := (ix.take rows).zipIdx
  if 65535 < n ∨ used.any (fun p => decide (p.1 ≠ 0xFFFFFFFF ∧ n ≤ p.1)) = true then .error 0x030A
  else
    .ok ((List.range n).map (fun r => (used.reverse.find? (fun p => decide (p.1 = r))).map (·.2)))

/-- Order of outlier entries: `K_IDX`, then `N_IDX` (R180). -/
def entryBefore (a b : Outlier) : Bool := decide (a.k < b.k) || (decide (a.k = b.k) && decide (a.n ≤ b.n))

/-- Puts an entry in its place. -/
def insertEntry (x : Outlier) : List Outlier → List Outlier
  | [] => [x]
  | y :: l => if entryBefore x y then x :: y :: l else y :: insertEntry x l

/-- The result of picked rows, with the entries of the rows taken (R180); an empty tile gives an empty tile (R170). -/
def txMove (src : Tile) (picks : Picks) : TxOut :=
  let v := src.view
  let zero := zeroRow v.fmt v.cols
  let ents : List Outlier := picks.zipIdx.flatMap (fun p =>
    match p.1 with
    | none => []
    | some j => (v.outl.filter (fun o => decide (o.n = j))).map (fun o => { o with n := p.2 }))
  if src.rows = 0 then .ok (emptyResult src src.cols)
  else if ents.any (fun o => decide (255 < o.n)) || decide (65535 < ents.length) then .error 0x030A
  else
    let w : TileView :=
      { v with
        rows := picks.length
        raw := picks.map (fun p => match p with
          | none => zero
          | some j => v.raw.getD j [])
        scales := picks.map (fun p => match p with
          | none => List.replicate (v.fmt.blocks v.cols) 0
          | some j => v.scales.getD j [])
        rscales := picks.map (fun p => match p with
          | none => 0
          | some j => v.rscales.getD j 0)
        outRsv := 0
        outl := ents.foldr insertEntry [] }
    let pl := packTile w src.outl
    .ok (mkTile v.fmt picks.length v.cols src.anchor (descStatus src.desc) pl src.outl)

/-- GATHER or SCATTER by the indices of a tile (R180, R623). -/
def txIndexed (scatter : Bool) (rows : Nat) (src ixTile : Tile) : TxOut :=
  if ixTile.fmt ≠ .int32 then .error 0x030A
  else
    let ix := ixTile.view.elems.flatten
    if scatter then
      match scatterPicks src.rows rows ix with
      | .error e => .error e
      | .ok p =>
        match txMove src p with
        | .error e => .error e
        | .ok t => if txBuffer < t.payload.length then .error 0x030A else .ok t
    else if txBuffer < src.payload.length then .error 0x030A
    else
      match gatherPicks src.rows ix with
      | .error e => .error e
      | .ok p => txMove src p

/-! ## The station -/

/-- Merges the counts of a QUANT into the scale summary at `ADDR` + `AUX_OFF`, as one operation (R96, R178). -/
def State.mergeAt (s : State) (c : CoreId) (td : Desc) (q : QCounts) : State × Except Code Unit :=
  let a := tileAux td
  let acc := s.coreAcc c
  let r := s.readMem acc a 16
  match r.2 with
  | .error e => (r.1, .error e)
  | .ok old => r.1.writeMem acc (some (.core c, (s.core c).seg)) a (mergeSummary old q)

/-- The check of a QUANT output descriptor: a scale summary aligned to 16 bytes, in the window that holds `ADDR` unless the tile
is empty (R169 to R171, R178); it lies on this module, because no fabric operation merges one (log 30). -/
def quantCheck (td : Desc) : Bool :=
  decide (descAuxOff td ≠ 0) && decide (tileAux td % 16 = 0) && (decide (descRows td = 0) || !arrayLeaves td (descAuxOff td) 16)

/-- Puts a TX result into its stream and takes the sources; the outlier capacity of its header is the output descriptor's. -/
def State.txEmit (s : State) (c : CoreId) (q0 q1 q2 : BitVec 4) (indexed : Bool) (td : Desc) (src r : Tile) : Ran :=
  let x := s.core c
  let t := r.withOcap td
  match x.room q0 t with
  | .tooLarge => .done (s.kill c 0x0307 (some .tx))
  | .waits => .waits true
  | .fits =>
    let y := x.popTile q1
    let z := if indexed then y.popTile q2 else y
    .done ((s.setCore c (z.pushTile q0 t)).bump .txBytesIn (s.coreIx c) 0 src.payload.length)

/-- QUANT: the result goes out, its special blocks are counted, its counts merge into the summary; SAT_FAULT (R94, R178,
R181). With SAT_FAULT the tile still goes out and its blocks count, but no summary is merged: the model's choice (log 113). -/
def State.runQuant (s : State) (c : CoreId) (q0 q1 q2 : BitVec 4) (td : Desc) (src : Tile) : Ran :=
  let f := fmtOf (descFmt td)
  let i := s.coreIx c
  if !quantCheck td || (s.descDst td).isSome then .done (s.kill c 0x030A (some .tx))
  else if src.cols % f.block ≠ 0 then .done (s.kill c 0x030A (some .tx))
  else
    let r := txQuant f src
    let q := r.2
    let t := mkTile f src.rows src.cols (td.extractLsb' 224 16) (quantStatus q) r.1 false
    match s.txEmit c q0 q1 q2 false td src t with
    | .waits w => .waits w
    | .held => .held
    | .done s1 =>
      if (s1.core c).killed.isSome then .done s1
      else
        let s2 := (((s1.health c 0 q.zero).health c 1 q.under).health c 2 q.sat).health c 3 q.nan
        if (s.reg .txQpolicy i).getLsbD 0 && decide (0 < q.sat) then .done (s2.kill c 0x0204 (some .tx))
        else
          let m := s2.mergeAt c td q
          .done (match m.2 with
            | .error e => m.1.kill c e (some .tx)
            | .ok () => m.1)

/-- Tries to run a TX command (R177 to R181, R208). -/
def State.runTx (s : State) (c : CoreId) (fn : BitVec 8) (q0 q1 q2 : BitVec 4) (td : Desc) (rows : Word) : Ran :=
  let x := s.core c
  let k := fn.toNat
  let indexed := decide (k = 4 ∨ k = 5)
  match x.headTile q1, (if indexed then x.headTile q2 else x.headTile q1) with
  | some src, some ix =>
    match Fmt.ofCode (descFmt td) with
    | none => .done (s.kill c 0x0201 (some .tx))
    | some f =>
      if !txPair k src.fmt f || outFieldsBad f td (decide (k = 0)) then .done (s.kill c 0x030A (some .tx))
      else if k = 0 then s.runQuant c q0 q1 q2 td src
      else
        let out :=
          match k with
          | 1 => txDequant f src
          | 2 => txConvert f src
          | 3 => txTranspose src
          | 4 => txIndexed false 0 src ix
          | _ => txIndexed true rows.toNat src ix
        match out with
        | .error e => .done (s.kill c e (some .tx))
        | .ok t =>
          match s.txEmit c q0 q1 q2 indexed td src t with
          | .waits w => .waits w
          | .held => .held
          | .done s1 => .done (if k = 1 then s1.health c 3 (wtInvalid src.view) else s1)
  | _, _ => .waits true

end Sys2Proof.Machine
end

