-- ==== Sys2Proof/Machine/Settle.lean ====
section
/-! DEFINITION. The command queues of a core's stations run as far as they can, and the sequencer's waits end
(R161, R166, R203, R214 to R219, R226, R227). -/

namespace Sys2Proof.Machine

/-! ## Declared costs (R233) -/

/-- A declared value: base, per sequence, per row, per context token, in units of 1/256, rounded up. -/
def costOf (k : List Nat) (nseq nnew nctx : Nat) : Nat :=
  (k.getD 0 0 + k.getD 1 0 * nseq + k.getD 2 0 * nnew + k.getD 3 0 * nctx + 255) / 256

/-- Nseq, Nnew and Nctx of a planned batch (R284). -/
def planCounts (l : List PlanSeq) : Nat × Nat × Nat := (l.length, (l.map (·.rows)).sum, (l.map (·.ctx)).sum)

/-- The MX issue cycles per core that the running step declares for a segment (R233). -/
def State.declaredIssue (s : State) (n : Part) (j : Nat) : Option Nat :=
  (s.program n).map (fun p =>
    let k := planCounts (s.svPart n).running.plan
    costOf (p.segCost.getD j []) k.1 k.2.1 k.2.2)

/-! ## Running a queue -/

/-- The first command of a queue that can run. Commands start in queue order (R214): one whose stream, set or engine an earlier
one holds cannot start, and nothing behind it can; one that has started may still wait, or conflict with an earlier one. -/
def firstRun (run : List StCmd → StCmd → Ran) (busy conflict : StCmd → StCmd → Bool) :
    List StCmd → List StCmd → Option (State × List StCmd)
  | _, [] => none
  | before, x :: l =>
    if before.any (fun y => busy y x) then none
    else if before.any (fun y => conflict y x) then firstRun run busy conflict (before ++ [x]) l
    else
      match run before x with
      | .done s => some (s, before ++ l)
      | .waits _ => firstRun run busy conflict (before ++ [x]) l
      | .held => none

/-- Whether a command of a queue that has started waits on a stream (R162). -/
def waitsOn (run : List StCmd → StCmd → Ran) (busy conflict : StCmd → StCmd → Bool) : List StCmd → List StCmd → Bool
  | _, [] => false
  | before, x :: l =>
    if before.any (fun y => busy y x) then false
    else if before.any (fun y => conflict y x) then waitsOn run busy conflict (before ++ [x]) l
    else
      match run before x with
      | .done _ | .held => false
      | .waits b => b || waitsOn run busy conflict (before ++ [x]) l

/-- No conflict beyond a busy engine, and an engine that takes one command at a time. -/
def noConflict (_ _ : StCmd) : Bool := false
def oneAtATime (_ _ : StCmd) : Bool := true

/-- Runs a VX command. -/
def State.vxCmd (s : State) (c : CoreId) : StCmd → Ran
  | .vx fn q0 q1 q2 q3 rfmt bm cm sx sy =>
    if (s.core c).overfull 6 then .waits true else s.runVx c fn q0 q1 q2 q3 rfmt bm cm sx sy
  | _ => .done s

/-- Runs a TX command. -/
def State.txCmd (s : State) (c : CoreId) : StCmd → Ran
  | .tx fn q0 q1 q2 td rows => if (s.core c).overfull 9 then .waits true else s.runTx c fn q0 q1 q2 td rows
  | _ => .done s

/-- Runs a SAMPLE. -/
def State.svCmd (s : State) (c : CoreId) : StCmd → Ran
  | .sample q0 q1 outp mode last row vocab => s.runSample c q0 q1 outp mode last row.toNat vocab.toNat
  | _ => .done s

/-- Runs an LX command, unless an access under way holds its stream (R163) or overlaps it (R184). The marker of a group walk
leaves when its walk has. -/
def State.lxCmd (s : State) (c : CoreId) (y : StCmd) : Ran :=
  let x := s.core c
  match y with
  | .walk td a tag =>
    if x.mxq.any (fun k => match k with
      | .mxwalk _ _ _ _ t => decide (t = tag)
      | _ => false) then .waits false
    else s.runLx c (.walk td a tag)
  | _ =>
    if x.lxRuns.any (fun r => lxBusy r.cmd y) then .held
    else if x.lxRuns.any (fun r => s.lxConflict c r.cmd y) then .waits false
    else s.runLx c y

/-- Puts back what is left of a queue, unless the command killed the segment. -/
def putQueue (c : CoreId) (f : Core → List StCmd → Core) (r : State × List StCmd) : State :=
  r.1.updCore c (fun x => if x.killed.isSome then x else f x r.2)

/-- Carries on the first of the tile accesses under way that can go on. -/
def State.carryOn (s : State) (c : CoreId) : Option State :=
  (s.core c).lxRuns.findSome? (fun r =>
    match State.progress c 4 r s with
    | .done t => if (t.core c).lxRuns = (s.core c).lxRuns then none else some t
    | .waits _ | .held => none)

/-- One command of one of a core's queues runs, in the order MX, VX, TX, LX, SV, or a COLL carries on; `none` where nothing can. -/
def State.settleOnce (c : CoreId) (s : State) : Option State :=
  let x := s.core c
  if x.killed.isSome then none
  else
    match firstRun (s.runMx c) mxConflict noConflict [] x.mxq with
    | some r => some (putQueue c (fun y l => { y with mxq := l }) r)
    | none =>
      match firstRun (fun _ k => s.vxCmd c k) oneAtATime noConflict [] x.vxq with
      | some r => some (putQueue c (fun y l => { y with vxq := l }) r)
      | none =>
        match firstRun (fun _ k => s.txCmd c k) oneAtATime noConflict [] x.txq with
        | some r => some (putQueue c (fun y l => { y with txq := l }) r)
        | none =>
          match s.carryOn c with
          | some t => some t
          | none =>
            match firstRun (fun _ k => s.lxCmd c k) lxBusy (s.lxConflict c) [] x.lxq with
            | some r => some (putQueue c (fun y l => { y with lxq := l }) r)
            | none =>
              match firstRun (fun _ k => s.svCmd c k) oneAtATime noConflict [] x.svq with
              | some r => some (putQueue c (fun y l => { y with svq := l }) r)
              | none => s.carryColl c 3

/-- Runs until nothing can: each round takes a command off a queue or carries the tile access on. -/
def State.drain (c : CoreId) : Nat → State → State
  | 0, s => s
  | k + 1, s =>
    match s.settleOnce c with
    | none => s
    | some t => State.drain c k t

/-! ## What a wait looks at -/

/-- The streams a queued command names (log 22). -/
def StCmd.streams : StCmd → List (BitVec 4)
  | .mxld q => [q]
  | .mxrun q _ _ _ _ _ => [q]
  | .mxout q _ _ => [q]
  | .mxwalk q _ _ _ _ => [q]
  | .vx fn q0 q1 q2 q3 _ bm cm _ _ =>
    [q0, q1] ++ (if vxUsesB fn && bm != 3 then [q2] else []) ++ (if vxUsesC fn && cm != 3 then [q3] else [])
  | .tx fn q0 q1 q2 _ _ => [q0, q1] ++ (if fn = 4 ∨ fn = 5 then [q2] else [])
  | .tld q _ => [q]
  | .tst q _ _ => [q]
  | .sample q0 q1 outp _ last _ _ => [q1] ++ (if outp && last then [q0] else [])
  | _ => []

/-- The commands a core's stations have not finished. -/
def Core.queued (x : Core) : List StCmd :=
  x.mxq ++ x.vxq ++ x.txq ++ x.lxq ++ x.svq ++ x.lxRuns.map (·.cmd)

/-- Whether a stream is empty, with nothing on its way through it (R166, R203, log 22). -/
def Core.quiet (x : Core) (q : BitVec 4) : Bool :=
  ((x.stream q).map (·.tiles.isEmpty)).getD true && !(x.queued.any (fun k => k.streams.contains q))

/-- Whether a command writes memory, and whether it reads it (R216). -/
def StCmd.writes : StCmd → Bool
  | .st _ _ _ | .atom _ _ _ _ _ _ | .tst _ _ _ | .tdst _ _ _ | .digest _ _ | .mxsave _ _ | .mxwalk _ _ _ _ _ => true
  | .tx fn _ _ _ _ _ => decide (fn = 0)
  | _ => false
def StCmd.reads : StCmd → Bool
  | .ld _ _ | .atom _ _ _ _ _ _ | .tld _ _ | .tdld _ _ | .digest _ _ | .mxrst _ _ _ | .mxwalk _ _ _ _ _ => true
  | _ => false

/-- Requests of a core that await an answer: writes and atomics, or loads and atomics (R216). -/
def State.sentWrites (s : State) (c : CoreId) : Bool :=
  s.fab.reqs.any (fun r => decide (r.src = .core c) && (match r.kind with
    | .store | .atom _ _ => true
    | _ => false))
def State.sentReads (s : State) (c : CoreId) : Bool :=
  s.fab.reqs.any (fun r => decide (r.src = .core c) && (match r.kind with
    | .load _ | .atom _ _ | .piece => true
    | _ => false))

/-- Whether a core's earlier writes and atomics are complete, and its earlier loads and atomics (R216). -/
def State.writesDone (s : State) (c : CoreId) : Bool := !((s.core c).queued.any StCmd.writes) && !s.sentWrites c
def State.readsDone (s : State) (c : CoreId) : Bool :=
  !((s.core c).queued.any StCmd.reads) && !s.sentReads c

/-- Whether a FENCE of a kind is complete. -/
def State.fenceDone (s : State) (c : CoreId) (k : BitVec 8) : Bool :=
  (decide (k = 2) || s.writesDone c) && (decide (k = 1) || s.readsDone c)

/-- Whether SEGEND or STEPEND can complete (R166, R226): queues, streams, late results, requests, collectives, loads into
banks. -/
def State.drained (s : State) (c : CoreId) : Bool :=
  let x := s.core c
  x.queued.isEmpty && x.streams.all (fun p => p.2.tiles.isEmpty) && x.late.isEmpty && x.colls.all (fun h => s.collDone h.2)
    && !s.sentWrites c && !s.sentReads c
    && !(x.mx.bank0.any (fun b => !b.complete)) && !(x.mx.bank1.any (fun b => !b.complete))

/-! ## Segments (R226, R227) -/

/-- Ends the segment of a core: an open accumulation is 0x020B (R125), an open layer 0x0409 (R239); the checkpoint of R43; R69 for its issue cycles. -/
def State.endSegment (s : State) (c : CoreId) (n : Part) (pc : Nat) : State :=
  let x := s.core c
  if !x.mx.accs.isEmpty then s.kill c 0x020B (some .mx)
  else if (Assoc.find (c.die, n) s.ex).any (fun l => !l.closed) then
    (s.setReg .exFault c.die.val 0 (faultWord 0x0409 x.seg (s.dom n).tick)).kill c 0x0409
  else
    let k : Ckpt :=
      { seg := x.seg + 1, s := x.s, p := x.p, td := x.td, pc := pc, loops := x.loops, calls := x.calls, streams := x.streams,
        colls := x.colls }
    let past := (s.declaredIssue n x.seg).any (fun d => decide (d < x.issued))
    let s1 := if past then s.updDom n (fun d => { d with bound := d.bound ++ [x.seg] }) else s
    s1.setCore c { x with seg := x.seg + 1, issued := 0, collCount := [],
                          ckpts := x.ckpts.filter (fun y => decide (y.seg ≠ x.seg + 1)) ++ [k] }

/-- Whether a core may be in its segment: PASS for the segment two before (R41). -/
def State.mayRun (s : State) (c : CoreId) (n : Part) : Bool := decide ((s.core c).seg ≤ (s.dom n).passed + 1)

/-- A SEGEND whose conditions hold: the segment ends; the next instruction issues at once or waits for PASS (R41, R226). -/
def State.segendDone (s : State) (c : CoreId) (n : Part) : State :=
  let s1 := (s.updCore c (fun x => { x with wait := none })).advance c 1
  if (s1.core c).killed.isSome then s1
  else
    let s2 := s1.endSegment c n (s1.core c).pc
    if (s2.core c).killed.isSome || s2.mayRun c n then s2 else s2.updCore c (fun x => { x with wait := some .pass })

/-- A STEPEND whose conditions hold: it ends the segments that are left, each as PASS allows, then waits for the commit
(R227). -/
def State.stependDone (c : CoreId) (n : Part) : Nat → State → State
  | 0, s => s
  | k + 1, s =>
    let x := s.core c
    if x.killed.isSome || !s.mayRun c n then s
    else if s.stepSegs n ≤ x.seg + 1 then
      let s1 := s.endSegment c n x.pc
      s1.updCore c (fun y => if y.killed.isSome then y else { y with seg := x.seg, wait := some .commit })
    else State.stependDone c n k (s.endSegment c n x.pc)

/-! ## Ends of waits -/

/-- A wait ends and the next instruction follows. -/
def State.resume (s : State) (c : CoreId) : State := (s.updCore c (fun x => { x with wait := none })).advance c 1

/-- The stream that a QOPEN configures (R159, R203). -/
def streamOf (f : FmtQ) : Stream := ⟨f.prod, f.cons, f.dstn, f.fmt, f.rlog, f.base, [], 0⟩

/-- Ends a core's wait, if what it waits for has come. Barriers and polls end elsewhere. -/
def State.wake (c : CoreId) (s : State) : State :=
  let x := s.core c
  let n := (s.partOf c).getD 0
  if x.killed.isSome then s
  else
    match x.wait with
    | none => s
    | some w =>
      match w with
      | .fence k => if s.fenceDone c k then s.resume c else s
      | .qsync q => if x.quiet q then s.resume c else s
      | .qclose q => if x.quiet q then (s.setCore c { x with streams := Assoc.del q x.streams }).resume c else s
      | .qopen f =>
        if x.quiet f.qn then (s.setCore c { x with streams := Assoc.put f.qn (streamOf f) x.streams }).resume c else s
      | .cwait h => if (Assoc.find h x.colls).all s.collDone then s.resume c else s
      | .segend => if s.drained c then s.segendDone c n else s
      | .stepend => if s.drained c then State.stependDone c n 64 (s.checkAtEnd c n) else s
      | .pass => if s.mayRun c n then s.updCore c (fun y => { y with wait := none }) else s
      | .waitv _ _ _ | .bar _ | .commit => s

/-! ## Barriers (R217) -/

/-- A core arrives: the first fixes the count, and once as many have arrived the barrier takes new arrivals. -/
def Barrier.arrive (b : Barrier) (c : CoreId) (count : Word) : Barrier :=
  let b1 : Barrier := { b with count := if b.arrived.isEmpty then count else b.count, arrived := b.arrived ++ [c] }
  if b1.count.toNat ≤ b1.arrived.length then { b1 with arrived := [], full := b.full ++ [b1.arrived] } else b1

/-- A group of arrivals that is complete goes on once every access they made before is complete. -/
def State.releaseGroup (k : Nat) (s : State) (g : List CoreId) : State :=
  g.foldl (fun t c => if (t.core c).wait = some (.bar k) then t.resume c else t) s

/-- A barrier's complete groups go on when their accesses are complete; a barrier with nobody in it is over. -/
def State.releaseBar (s : State) (key : Fin 8 × Part × Nat) : State :=
  match Assoc.find key s.barriers with
  | none => s
  | some b =>
    let ready (g : List CoreId) : Bool := g.all (fun c => s.fenceDone c 3)
    let left := b.full.filter (fun g => !ready g)
    if left = b.full then s
    else
      let rest := if b.arrived.isEmpty && left.isEmpty then Assoc.del key s.barriers
        else Assoc.put key { b with full := left } s.barriers
      (b.full.filter ready).foldl (State.releaseGroup key.2.2) { s with barriers := rest }

/-- Every barrier of a core's die and partition that can complete. -/
def State.releaseBars (s : State) (c : CoreId) : State :=
  let n := (s.partOf c).getD 0
  (s.barriers.filter (fun b => decide (b.1.1 = c.die ∧ b.1.2.1 = n))).foldl (fun t b => t.releaseBar b.1) s

/-- The cores of a partition that wait for something. -/
def State.waiters (s : State) (n : Part) : List CoreId :=
  (s.cores.filter (fun p => p.2.wait.isSome && decide (s.partOf p.1 = some n))).map (·.1)

/-- Ends the waits of a partition that can end. -/
def State.wakeAll (s : State) (n : Part) : State :=
  let s1 := s.wakeSyncs n
  (s1.waiters n).foldl (fun t c => (State.wake c t).releaseBars c) s1

/-- What follows any change at a core: its queues run, and the waits of its partition that can end do. -/
def State.settle (c : CoreId) (s : State) : State := (State.drain c 256 s).wakeAll ((s.partOf c).getD 0)

/-- An instruction's effect on its core and what follows at the stations, then the next instruction: a fault that moving on
raises comes after it in program order (R220, R223). -/
def State.thenNext (c : CoreId) (f : State → State) (s : State) : State :=
  let t := State.settle c (f s)
  if (t.core c).killed.isSome then t else t.advance c 1

end Sys2Proof.Machine
end

