-- ==== Sys2Proof/Machine/Stations.lean ====
section
/-! DEFINITION. Instructions of the streams, the stations, memory, synchronisation, audit and segments (R198 to R231). -/

namespace Sys2Proof.Machine

/-! ## Issue to a station -/

/-- The first fault of a list of checks. -/
def firstCode : List (Option Code) → Option Code
  | [] => none
  | some e :: _ => some e
  | none :: l => firstCode l

/-- A check. -/
def codeIf (c : Bool) (e : Code) : Option Code := if c then some e else none

/-- An instruction that its checks let through goes on and has its effect; the core's stations then run. -/
def issued (c : CoreId) (checks : List (Option Code)) (f : State → State) (s : State) : State :=
  match firstCode checks with
  | some e => s.kill c e
  | none => State.thenNext c f s

/-- A command enters a station's queue of 8, or waits to issue (R213, R214). -/
def enqueue (c : CoreId) (len : Core → Nat) (put : Core → Core) (checks : List (Option Code)) (s : State) : State :=
  match firstCode checks with
  | some e => s.kill c e
  | none => if 8 ≤ len (s.core c) then s else State.thenNext c (fun t => t.updCore c put) s

/-- Commands in the queue of LX: the markers of group walks are none (R206, R214). -/
def Core.lxLength (x : Core) : Nat := (x.lxq.filter (fun k => !k.isMarker)).length

def toMx (c : CoreId) (k : StCmd) : List (Option Code) → State → State :=
  enqueue c (fun x => x.mxq.length) (fun x => { x with mxq := x.mxq ++ [k] })
def toVx (c : CoreId) (k : StCmd) : List (Option Code) → State → State :=
  enqueue c (fun x => x.vxq.length) (fun x => { x with vxq := x.vxq ++ [k] })
def toTx (c : CoreId) (k : StCmd) : List (Option Code) → State → State :=
  enqueue c (fun x => x.txq.length) (fun x => { x with txq := x.txq ++ [k] })
def toLx (c : CoreId) (k : StCmd) : List (Option Code) → State → State :=
  enqueue c Core.lxLength (fun x => { x with lxq := x.lxq ++ [k] })
def toSv (c : CoreId) (k : StCmd) : List (Option Code) → State → State :=
  enqueue c (fun x => x.svq.length) (fun x => { x with svq := x.svq ++ [k] })

/-- An LX command whose result is late (R212): the register is named now. -/
def toLxLate (c : CoreId) (d : Dest) (k : Nat → StCmd) (checks : List (Option Code)) (s : State) : State :=
  enqueue c Core.lxLength (fun x => { (x.addLate d) with lxq := x.lxq ++ [k (s.core c).nextTag] }) checks s

/-- A stream as a consumer, and as a producer, of a port (R164, R213): 0x0309 where the handle is not open, 0x0312 where
port, die station or format differ. -/
def consumes (x : Core) (q port : BitVec 4) (fmt : Option Nat) (dstn : BitVec 2) : Option Code :=
  match x.stream q with
  | none => some 0x0309
  | some st =>
    codeIf (st.cons != port || st.dstn != (if port = 0xD then dstn else st.dstn) || fmt.any (fun f => st.fmt.toNat != f)) 0x0312
def produces (x : Core) (q port : BitVec 4) (fmt : Option Nat) (dstn : BitVec 2) : Option Code :=
  match x.stream q with
  | none => some 0x0309
  | some st =>
    codeIf (st.prod != port || st.dstn != (if port = 0xC then dstn else st.dstn) || fmt.any (fun f => st.fmt.toNat != f)) 0x0312

/-- An address operand: 0x030B where it is malformed or misaligned (R197). -/
def addrCheck (a : Word) (align : Nat) : Option Code := codeIf (addrForm a align).isNone 0x030B

/-! ## Streams (R203) -/

/-- Which fields of format T an instruction uses (R195); every other bit must be zero. -/
structure UseT where
  q0 : Bool := false
  q1 : Bool := false
  q2 : Bool := false
  q3 : Bool := false
  t0 : Bool := false
  t1 : Bool := false
  fn : BitVec 8 := 0
  m : BitVec 8 := 0
  s : Bool := false
  s2 : Bool := false

/-- Whether a reserved bit of format T is set. -/
def tBad (f : FmtT) (u : UseT) : Bool :=
  (!u.q0 && f.q0 != 0) || (!u.q1 && f.q1 != 0) || (!u.q2 && f.q2 != 0) || (!u.q3 && f.q3 != 0) || (!u.t0 && f.t0 != 0)
    || (!u.t1 && f.t1 != 0) || (f.fn &&& ~~~u.fn) != 0 || (f.m &&& ~~~u.m) != 0 || (!u.s && f.s != 0)
    || (!u.s2 && f.s2 != 0)

/-- Whether two rings overlap, by base and size in units of 4 KiB. -/
def ringsOverlap (b1 l1 b2 l2 : Nat) : Bool := overlaps b1 (2 ^ (l1 - 12)) b2 (2 ^ (l2 - 12))

/-- The checks of QOPEN (R203). -/
def qopenBad (x : Core) (f : FmtQ) : Bool :=
  let outPort (p : BitVec 4) : Bool := p = 2 || p = 6 || p = 9 || p = 0xA || p = 0xC
  let inPort (p : BitVec 4) : Bool := p = 0 || p = 1 || p = 3 || p = 4 || p = 5 || p = 7 || p = 8 || p = 0xB || p = 0xD
  let die := f.prod = 0xC || f.cons = 0xD
  !outPort f.prod || !inPort f.cons || (f.prod = 0xC && f.cons = 0xD) || (die && f.dstn = 3) || (!die && f.dstn != 0)
    || (Fmt.ofCode f.fmt.toNat).isNone || decide (f.rlog.toNat < 12) || decide (19 < f.rlog.toNat)
    || decide (f.base.toNat % 2 ^ (f.rlog.toNat - 12) ≠ 0) || decide (512 < f.base.toNat + 2 ^ (f.rlog.toNat - 12))
    || x.streams.any (fun p => p.1 != f.qn && ringsOverlap f.base.toNat f.rlog.toNat p.2.base.toNat p.2.rlog.toNat)

/-- Starts a wait of the sequencer, which may end at once. -/
def startWait (c : CoreId) (w : Wait) (s : State) : State :=
  State.settle c (s.updCore c (fun x => { x with wait := some w }))

/-- QOPEN (R159, R203). -/
def execQopen (c : CoreId) (f : FmtQ) : State → Out :=
  lift (issue1 c f.guard (f.rsv != 0) false [] (fun s =>
    let x := s.core c
    if qopenBad x f then s.kill c 0x0309
    else if (x.stream f.qn).isSome then startWait c (.qopen f) s
    else issued c [] (fun t => t.updCore c (fun y => { y with streams := Assoc.put f.qn (streamOf f) y.streams })) s))

/-- QCLOSE (R203). -/
def execQclose (c : CoreId) (f : FmtT) : State → Out :=
  lift (issue1 c f.guard (tBad f { q0 := true }) false [] (fun s =>
    if ((s.core c).stream f.q0).isNone then s.kill c 0x0309 else startWait c (.qclose f.q0) s))

/-- QSYNC (R203). -/
def execQsync (c : CoreId) (f : FmtT) : State → Out :=
  lift (issue1 c f.guard (tBad f { q0 := true }) true [] (fun s =>
    if ((s.core c).stream f.q0).isNone then s.kill c 0x0309 else startWait c (.qsync f.q0) s))

/-- LX.QSTATn (R189): zero for a handle that is not open (log 33). -/
def qstatWord (st : Option Stream) : Word :=
  match st with
  | none => 0
  | some x =>
    BitVec.ofNat 64 (2 ^ 63 + x.fmt.toNat * 2 ^ 56 + x.rlog.toNat * 2 ^ 48 + x.fill * 2 ^ 32 + x.prod.toNat * 2 ^ 24
      + x.cons.toNat * 2 ^ 20 + x.dstn.toNat * 2 ^ 18 + x.base.toNat * 2 ^ 8 + x.sticky.toNat)

/-- Clears flags of a stream's sticky status (R165). -/
def Core.clearSticky (x : Core) (q : BitVec 4) (flags : BitVec 7) : Core :=
  match x.stream q with
  | none => x
  | some st => { x with streams := Assoc.put q { st with sticky := st.sticky &&& ~~~flags } x.streams }

/-- QSTAT (R203): CLR also clears the sticky status. -/
def execQstat (c : CoreId) (f : FmtT) : State → Out :=
  lift (issue1 c f.guard (tBad f { q0 := true, m := 1, s2 := true }) true []
    (onCore c 1 (fun x =>
      let w := qstatWord (x.stream f.q0)
      (if f.m.getLsbD 0 then x.clearSticky f.q0 0x7F else x).wrS f.s2 w)))

/-! ## Matrix station (R204 to R206) -/

/-- MXLD (R204). -/
def execMxld (c : CoreId) (f : FmtT) : State → Out :=
  lift (issue1 c f.guard (tBad f { q1 := true }) true [] (fun s =>
    toMx c (.mxld f.q1) [consumes (s.core c) f.q1 0 none 0] s))

/-- MX_LOAD_COMPLETE (R121). -/
def execMxLoadComplete (c : CoreId) (bank : Bool) : State → Out :=
  lift (fun s =>
    let done (b : Option MxBank) : Option MxBank := b.map (fun k => { k with complete := true })
    State.settle c (s.updMx c (fun m => if bank then { m with bank1 := done m.bank1 } else { m with bank0 := done m.bank0 })))

/-- MXRUN (R204): M holds SET, ACC and REL. -/
def execMxrun (c : CoreId) (f : MxIssue) : State → Out :=
  lift (issue1 c f.guard (tBad f.toFmtT { q1 := true, t0 := true, m := 7 }) true [.td f.t0] (fun s =>
    let x := s.core c
    toMx c (.mxrun f.q1 (x.rdTd f.t0) (f.m.getLsbD 0) (f.m.getLsbD 1) (f.m.getLsbD 2) f.err) [consumes x f.q1 1 none 0] s))

/-- MXOUT (R618). -/
def execMxout (c : CoreId) (f : FmtT) : State → Out :=
  lift (issue1 c f.guard (tBad f { q0 := true, t0 := true, m := 1 }) true [.td f.t0] (fun s =>
    let x := s.core c
    let td := x.rdTd f.t0
    toMx c (.mxout f.q0 td (f.m.getLsbD 0)) [produces x f.q0 2 (some (descFmt td)) 0] s))

/-- The address checks of MXSAVE and MXRST (R205). -/
def saveCheck (s : State) (c : CoreId) (a : Word) : Option Code :=
  codeIf (match addrForm a 32 with
    | some (none, l) => !s.ownStore c l
    | some (some m, l) => decide (m ≠ s.self) || !s.ownStore c l
    | none => true) 0x030B

/-- MXSAVE (R205). -/
def execMxsave (c : CoreId) (f : FmtT) : State → Out :=
  lift (issue1 c f.guard (tBad f { m := 1, s := true }) true [.s f.s] (fun s =>
    let a := (s.core c).rdS f.s
    toMx c (.mxsave a (f.m.getLsbD 0)) [saveCheck s c a] s))

/-- MXRST (R205). -/
def execMxrst (c : CoreId) (f : FmtT) : State → Out :=
  lift (issue1 c f.guard (tBad f { t0 := true, m := 1, s := true }) true [.s f.s, .td f.t0] (fun s =>
    let x := s.core c
    let a := x.rdS f.s
    toMx c (.mxrst a (x.rdTd f.t0) (f.m.getLsbD 0)) [saveCheck s c a] s))

/-- MXWALK (R142, R143). -/
def execMxwalk (c : CoreId) (f : MxIssue) : State → Out :=
  lift (issue1 c f.guard (tBad f.toFmtT { q1 := true, t0 := true, s := true }) true [.s f.s, .td f.t0] (fun s =>
    let x := s.core c
    let a := x.rdS f.s
    let td := x.rdTd f.t0
    let put (y : Core) : Core :=
      { y with mxq := y.mxq ++ [.mxwalk f.q1 td a f.err x.nextTag], lxq := y.lxq ++ [.walk td a x.nextTag],
               nextTag := x.nextTag + 1 }
    enqueue c (fun y => y.mxq.length) put [consumes x f.q1 1 none 0, addrCheck a 32] s))

/-! ## Vector and transform stations (R207, R208) -/

/-- RFMT, CMODE and BMODE of a VXOP (R207). -/
def rfmt (f : FmtT) : BitVec 4 := f.m.extractLsb' 4 4
def bmode (f : FmtT) : BitVec 2 := f.m.extractLsb' 2 2
def cmode (f : FmtT) : BitVec 2 := f.m.extractLsb' 0 2

/-- Whether a VXOP sets a handle or mode field its operation does not use, or a reserved function code (R207). -/
def vxReserved (f : FmtT) : Bool :=
  let b := vxUsesB f.fn
  let c := vxUsesC f.fn
  (vxClass f.fn).isNone || f.t0 != 0 || f.t1 != 0
    || ((!b || (bmode f) = 3) && f.q2 != 0) || (!b && (bmode f) != 0)
    || ((!c || (cmode f) = 3) && f.q3 != 0) || (!c && (cmode f) != 0)

/-- Whether RFMT and FN pair (R207). -/
def vxPair (f : FmtT) : Bool :=
  match Fmt.ofCode (rfmt f).toNat with
  | none => false
  | some r => if vxClass f.fn = some .ladd then decide (r = .l64) else vxResult r

/-- Issue of a VXOP: the shared part of its six rows (R207, R213). -/
def vxop (c : CoreId) (f : FmtT) : State → State :=
  issue1 c f.guard (vxReserved f) true [.s f.s, .s f.s2] (fun s =>
    let x := s.core c
    let b := vxUsesB f.fn && (bmode f) != 3
    let cc := vxUsesC f.fn && (cmode f) != 3
    toVx c (.vx f.fn f.q0 f.q1 f.q2 f.q3 (rfmt f) (bmode f) (cmode f) (x.rdS f.s) (x.rdS f.s2))
      [codeIf (!vxPair f) 0x030A, produces x f.q0 6 (some (rfmt f).toNat) 0, consumes x f.q1 3 none 0,
        if vxClass f.fn = some .ladd then consumes x f.q1 3 (some 11) 0 else none,
        if b then consumes x f.q2 4 (if vxClass f.fn = some .ladd then some 11 else none) 0 else none, if cc then consumes x f.q3 5 none 0 else none] s)

/-- VXOP with an FP32 function (R172). -/
def execVxFp32Op (c : CoreId) (f : FmtT) : State → Out := lift (vxop c f)
/-- VXOP with an INT32 function (R172). -/
def execVxInt32Op (c : CoreId) (f : FmtT) : State → Out := lift (vxop c f)
/-- VXOP with a transcendental function (R174). -/
def execVxTranscendental (c : CoreId) (f : FmtT) : State → Out := lift (vxop c f)
/-- VXOP with RSUM, RMAX or RMIN (R175). -/
def execVxRowReduction (c : CoreId) (f : FmtT) : State → Out := lift (vxop c f)
/-- VXOP with CVT (R172). -/
def execVxCvt (c : CoreId) (f : FmtT) : State → Out := lift (vxop c f)
/-- VXOP with LADD (R176). -/
def execVxLadd (c : CoreId) (f : FmtT) : State → Out := lift (vxop c f)

/-- Issue of a TXOP: the shared part of its six rows (R208, R213). -/
def txop (c : CoreId) (f : FmtT) : State → State :=
  let ix := f.fn = 4 || f.fn = 5
  issue1 c f.guard
    (tBad f { q0 := true, q1 := true, q2 := ix, t0 := true, fn := 0xFF, s := true } || decide (5 < f.fn.toNat)) true
    [.s f.s, .td f.t0] (fun s =>
    let x := s.core c
    let td := x.rdTd f.t0
    toTx c (.tx f.fn f.q0 f.q1 f.q2 td (x.rdS f.s))
      [produces x f.q0 9 (some (descFmt td)) 0, consumes x f.q1 7 none 0, if ix then consumes x f.q2 8 (some 12) 0 else none] s)

/-- TXOP QUANT (R178). -/
def execQuant (c : CoreId) (f : FmtT) : State → Out := lift (txop c f)
/-- TXOP DEQUANT (R179). -/
def execDequant (c : CoreId) (f : FmtT) : State → Out := lift (txop c f)
/-- TXOP CONVERT (R179). -/
def execConvert (c : CoreId) (f : FmtT) : State → Out := lift (txop c f)
/-- TXOP TRANSPOSE (R177). -/
def execTranspose (c : CoreId) (f : FmtT) : State → Out := lift (txop c f)
/-- TXOP GATHER (R180). -/
def execGather (c : CoreId) (f : FmtT) : State → Out := lift (txop c f)
/-- TXOP SCATTER (R180). -/
def execScatter (c : CoreId) (f : FmtT) : State → Out := lift (txop c f)

/-! ## Load and store (R182 to R184, R197 to R199, R215) -/

/-- TLD (R182). -/
def execTld (c : CoreId) (f : FmtT) : State → Out :=
  lift (issue1 c f.guard (tBad f { q0 := true, t0 := true }) true [.td f.t0] (fun s =>
    let x := s.core c
    let td := x.rdTd f.t0
    toLx c (.tld f.q0 td) [produces x f.q0 0xA (some (descFmt td)) 0] s))

/-- TST (R182). -/
def execTst (c : CoreId) (f : FmtT) : State → Out :=
  lift (issue1 c f.guard (tBad f { q1 := true, t0 := true }) true [.td f.t0] (fun s =>
    let x := s.core c
    let td := x.rdTd f.t0
    toLx c (.tst f.q1 td ((x.audit.filter (·.sampled)).map (·.id))) [consumes x f.q1 0xB (some (descFmt td)) 0] s))

/-- The address of a format-I access: sA + IMM (R197). -/
def Core.immAddr (x : Core) (f : FmtI) : Word := x.rdS f.a + f.imm.signExtend 64

/-- LD (R215). -/
def execLd (c : CoreId) (f : FmtI) : State → Out :=
  lift (issue1 c f.guard false false [.s f.a] (fun s =>
    let a := (s.core c).immAddr f
    toLxLate c (.s f.d) (fun tag => .ld tag a) [addrCheck a 8] s))

/-- ST (R215). -/
def execSt (c : CoreId) (f : FmtI) : State → Out :=
  lift (issue1 c f.guard false false [.s f.a, .s f.d] (fun s =>
    let x := s.core c
    let a := x.immAddr f
    toLx c (.st 0 a (x.rdS f.d)) [addrCheck a 8] s))

/-- The operation that an ATOM function code names (R198); reserved codes give none. -/
def atomOf (fn : BitVec 8) : Option AtomOp :=
  match fn.toNat with
  | 0 => some .add
  | 1 => some .max
  | 2 => some .cas
  | 3 => some .swap
  | 4 => some .ladd
  | _ => none

/-- ATOM (R199, R215). With NR it writes no register. -/
def execAtom (c : CoreId) (f : FmtR) : State → Out :=
  lift (issue1 c f.guard ((atomOf f.fn).isNone || decide (1 < f.x.toNat)) false [.s f.a, .s f.b, .s f.c] (fun s =>
    let x := s.core c
    let a := x.rdS f.a
    let nr := f.x.getLsbD 0
    let op := (atomOf f.fn).getD .add
    toLxLate c (if nr then .none else .s f.d) (fun tag => .atom tag op a (x.rdS f.b) (x.rdS f.c) nr) [addrCheck a 8] s))

/-- TDLD (R198, R215). -/
def execTdld (c : CoreId) (f : FmtI) : State → Out :=
  lift (issue1 c f.guard false false [.s f.a] (fun s =>
    let a := (s.core c).immAddr f
    toLxLate c (.td f.d) (fun tag => .tdld tag a) [addrCheck a 32] s))

/-- TDST (R198, R215). -/
def execTdst (c : CoreId) (f : FmtI) : State → Out :=
  lift (issue1 c f.guard false false [.s f.a, .td f.d] (fun s =>
    let x := s.core c
    let a := x.immAddr f
    toLx c (.tdst 0 a (x.rdTd f.d)) [addrCheck a 32] s))

/-- DIGEST (R231). -/
def execDigest (c : CoreId) (f : FmtR) : State → Out :=
  lift (issue1 c f.guard (f.d != 0 || f.c != 0 || f.fn != 0 || f.x != 0) false [.td f.a, .s f.b] (fun s =>
    let x := s.core c
    let a := x.rdS f.b
    toLx c (.digest (x.rdTd f.a) a) [addrCheck a 16] s))

/-! ## Synchronisation (R216 to R219) -/

/-- FENCE (R216). -/
def execFence (c : CoreId) (f : FmtR) : State → Out :=
  lift (issue1 c f.guard
    (f.d != 0 || f.a != 0 || f.b != 0 || f.c != 0 || f.x != 0 || f.fn = 0 || decide (3 < f.fn.toNat)) false []
    (startWait c (.fence f.fn)))

/-- BAR (R217): the first arrival fixes the count; a completed barrier takes new arrivals. -/
def execBar (c : CoreId) (f : FmtR) : State → Out :=
  lift (issue1 c f.guard (f.d != 0 || f.b != 0 || f.c != 0 || f.x != 0 || decide (15 < f.fn.toNat)) false [.s f.a] (fun s =>
    let n := (s.partOf c).getD 0
    let key := (c.die, n, f.fn.toNat)
    let count := (s.core c).rdS f.a
    let b := Assoc.getD key ⟨count, [], []⟩ s.barriers
    if b.arrived ≠ [] ∧ b.count ≠ count then s.kill c 0x0313
    else startWait c (.bar f.fn.toNat) { s with barriers := Assoc.put key (b.arrive c count) s.barriers }))

/-- One poll of a WAITV (R218): a local word is read at once, a word of another module is asked for. -/
def State.pollWait (s : State) (c : CoreId) : State :=
  match (s.core c).wait with
  | some (.waitv a v k) =>
    match s.scalarAt a with
    | (none, l) =>
      orKill c (s.coreRead c l 8) (fun t bs => if waitCond k (bytesWord bs) v = some true then State.settle c (t.resume c) else t)
    | (some m, l) =>
      if s.fab.reqs.any (fun r => decide (r.src = .core c) && decide (r.kind = .poll)) then s
      else
        let r := s.coreRequest c .read .poll m l 8 false []
        match r.2 with
        | some e => r.1.kill c e (some .lx)
        | none => r.1
  | _ => s

/-- WAITV (R218). -/
def execWaitv (c : CoreId) (f : FmtR) : State → Out :=
  lift (issue1 c f.guard (f.d != 0 || f.c != 0 || f.x != 0 || (waitCond f.fn 0 0).isNone) false [.s f.a, .s f.b] (fun s =>
    let x := s.core c
    let a := x.rdS f.a
    match addrCheck a 8 with
    | some e => s.kill c e
    | none => (s.setCore c { x with wait := some (.waitv a (x.rdS f.b) f.fn) }).pollWait c))

/-- WAITV_POLL (R218). -/
def execWaitvPoll (c : CoreId) : State → Out := lift (fun s => s.pollWait c)

/-- CWAIT (R420, R423): a handle never issued is 0x080B. -/
def execCwait (c : CoreId) (f : FmtR) : State → Out :=
  lift (issue1 c f.guard (f.d != 0 || f.b != 0 || f.c != 0 || f.fn != 0 || f.x != 0) false [.s f.a] (fun s =>
    let x := s.core c
    let h := (x.rdS f.a).toNat
    if (Assoc.find h x.colls).isNone then s.kill c 0x080B else startWait c (.cwait h) s))

/-- CLAIM (R147 to R149). -/
def execClaim (c : CoreId) (f : FmtR) : State → Out :=
  lift (issue1 c f.guard (f.b != 0 || f.c != 0 || f.fn != 0 || f.x != 0) false [.s f.a] (fun s =>
    let a := (s.core c).rdS f.a
    match addrForm a 64, (addrForm a 64).bind (fun p => s.elsewhere p.1) with
    | some p, none =>
      let r := s.claim c p.2
      match r.2 with
      | .error e => r.1.kill c e
      | .ok w => onCore c 1 (fun x => x.wrS f.d w) r.1
    | _, _ => s.kill c 0x030B))

/-- Whether a station waits on a stream: one of its commands that has started does, or its output is still filling a ring
(R161, R162). -/
def State.onStream (s : State) (c : CoreId) (st : Station) : Bool :=
  let x := s.core c
  match st with
  | .mx => x.overfull 2 || waitsOn (s.runMx c) mxConflict noConflict [] x.mxq
  | .vx => x.overfull 6 || waitsOn (fun _ k => s.vxCmd c k) oneAtATime noConflict [] x.vxq
  | .tx => x.overfull 9 || waitsOn (fun _ k => s.txCmd c k) oneAtATime noConflict [] x.txq
  | .lx => x.overfull 0xA || waitsOn (fun _ k => s.lxCmd c k) lxBusy (s.lxConflict c) [] x.lxq
      || x.lxRuns.any (fun r => match State.progress c 4 r s with
        | .waits b => b
        | .done _ | .held => false)

/-- STREAM_STALL (R162). -/
def execStreamStall (c : CoreId) (st : Station) : State → Out :=
  lift (fun s => s.when (s.onStream c st && (s.core c).killed.isNone) (fun t => t.kill c 0x0308 (some st)))

/-- Whether a late result is none of LD, ATOM, CLAIM or DCMD: that of a TDLD, or the acknowledgement of an atomic with NR. -/
def State.otherLate (s : State) (c : CoreId) (tag : Nat) : Bool :=
  (s.core c).lxq.any (fun k => match k with
    | .tdld t _ => decide (t = tag)
    | .atom t _ _ _ _ nr => decide (t = tag) && nr
    | _ => false)
    || s.fab.reqs.any (fun r => decide (r.src = .core c) && (match r.kind with
      | .load t => decide (t = tag) && decide (r.len = 32)
      | .atom t nr => decide (t = tag) && nr
      | _ => false))

/-- Whether a core's wait counts for R219: at SEGEND and STEPEND only for the result of an LD, ATOM, CLAIM or DCMD; elsewhere on
a register, on a full queue, on a handle for a COLL, or in a waiting instruction. -/
def State.countsWait (s : State) (c : CoreId) : Bool :=
  let x := s.core c
  match x.wait with
  | some .pass | some .commit => false
  | some .segend | some .stepend => x.late.any (fun p => !s.otherLate c p.1)
  | some _ => true
  | none => !x.late.isEmpty || decide (8 ≤ x.mxq.length) || decide (8 ≤ x.vxq.length) || decide (8 ≤ x.txq.length)
      || decide (8 ≤ x.lxLength) || decide (8 ≤ x.svq.length) || (s.freeHandle c).isNone

/-- WAIT_LIMIT (R219). -/
def execWaitLimit (c : CoreId) : State → Out :=
  lift (fun s =>
    s.when ((s.core c).running && (s.core c).killed.isNone && s.countsWait c) (fun t => t.kill c 0x030C))

/-! ## Sampler and stop detection (R210) -/

/-- SAMPLE (R210, R290). -/
def execSample (c : CoreId) (f : FmtT) : State → Out :=
  lift (issue1 c f.guard
    (tBad f { q0 := true, q1 := true, fn := 7, m := 1, s := true, s2 := true } || f.fn.extractLsb' 0 2 = 3) false
    [.s f.s, .s f.s2] (fun s =>
    let x := s.core c
    toSv c (.sample f.q0 f.q1 (f.m.getLsbD 0) (f.fn.toNat % 4) (f.fn.getLsbD 2) (x.rdS f.s) (x.rdS f.s2))
      [consumes x f.q1 0xD (some 1) 2, if f.m.getLsbD 0 then produces x f.q0 0xC (some 12) 2 else none] s))

/-- STOPCHK (R210, R297). -/
def execStopchk (c : CoreId) (f : FmtT) : State → Out :=
  lift (issue1 c f.guard (tBad f { s := true, s2 := true }) false [.s f.s, .s f.s2] (fun s =>
    let x := s.core c
    issued c [] (fun t => t.stopchk c ((s.partOf c).getD 0) (x.rdS f.s).toNat (x.rdS f.s2).toNat) s))

/-! ## Audit units (R229, R230) -/

/-- AUDB (R229). -/
def execAudb (c : CoreId) (f : FmtI) : State → Out :=
  lift (issue1 c f.guard (f.d != 0 || f.a != 0 || decide (65536 ≤ f.imm.toNat)) false []
    (fun s => (s.advance c 1).openUnit c (f.imm.setWidth 16)))

/-- AUDE (R229): with no open unit it is 0x030E. -/
def execAude (c : CoreId) (f : FmtJ) : State → Out :=
  lift (issue1 c f.guard (f.rsv != 0 || f.off != 0) true [] (fun s =>
    if (s.core c).audit.isNone then s.kill c 0x030E else (s.advance c 1).closeUnit c))

/-! ## Segments (R226 to R228) -/

/-- SEGEND (R226, R227). -/
def execSegend (c : CoreId) (f : FmtJ) : State → Out :=
  lift (issue1 c f.guard (f.rsv != 0 || f.off != 0) false [] (fun s =>
    if s.stepSegs ((s.partOf c).getD 0) ≤ (s.core c).seg + 1 then s.kill c 0x030F else startWait c .segend s))

/-- STEPEND (R227). -/
def execStepend (c : CoreId) (f : FmtJ) : State → Out :=
  lift (issue1 c f.guard (f.rsv != 0 || f.off != 0) false [] (startWait c .stepend))

end Sys2Proof.Machine
end

