-- ==== Sys2Proof/Machine/Image.lean ====
section
/-! DEFINITION. Installing a step-program image: its layout (R232, R233) and the checks of R234 and R235. -/

namespace Sys2Proof.Machine

/-! ## One word -/

/-- Bits hi to lo set. -/
def span (hi lo : Nat) : Nat := 2 ^ (hi + 1) - 2 ^ lo

/-- The bits of 51:0 that an opcode uses (R195, R198); none for an unassigned opcode. -/
def usedBits (op : Nat) : Option Nat :=
  let d := span 51 47
  let a := span 46 42
  let b := span 41 37
  let fn := span 31 24
  let imm := span 41 0
  let q0 := span 51 48
  let q1 := span 47 44
  let t0 := span 35 31
  let s := span 9 5
  let s2 := span 4 0
  match op with
  | 0x00 | 0x03 | 0x06 | 0x07 | 0x08 | 0x82 => some 0
  | 0x01 | 0x02 => some imm
  | 0x04 => some (d + a + span 41 18 + span 17 0)
  | 0x05 => some (d + span 44 42 + span 41 18 + span 17 0)
  | 0x09 | 0x81 => some (span 15 0)
  | 0x10 | 0x11 | 0x12 | 0x13 | 0x14 | 0x15 | 0x16 | 0x17 | 0x18 | 0x19 | 0x1A | 0x1B => some (d + a + b)
  | 0x1C | 0x32 | 0x63 => some (d + a)
  | 0x1D | 0x28 | 0x29 | 0x30 | 0x31 => some (d + a + imm)
  | 0x1E => some d
  | 0x1F => some (d + a + b + span 34 32)
  | 0x20 => some (span 49 47 + a + b + fn)
  | 0x21 => some (span 49 47 + span 44 42 + span 39 37 + fn)
  | 0x2A => some (d + a + b + span 36 32 + fn + 1)
  | 0x2B => some (d + imm)
  | 0x2C => some (a + b + fn)
  | 0x33 | 0x34 | 0x35 => some (d + a + fn)
  | 0x36 => some (d + fn)
  | 0x40 => some (span 51 20)
  | 0x41 | 0x42 => some q0
  | 0x43 => some (q0 + s2 + span 10 10)
  | 0x50 => some q1
  | 0x51 => some (q1 + t0 + span 12 10)
  | 0x52 => some (q0 + t0 + span 10 10)
  | 0x53 => some (s + span 10 10)
  | 0x54 => some (s + t0 + span 10 10)
  | 0x55 => some (q1 + t0 + s)
  | 0x58 => some (span 51 36 + span 25 10 + s + s2)
  | 0x5A => some (span 51 40 + t0 + span 25 18 + s)
  | 0x5C => some (q0 + t0)
  | 0x5D => some (q1 + t0)
  | 0x60 => some (d + a + b + fn + span 1 0)
  | 0x61 => some (q0 + q1 + span 10 10 + span 20 18 + s + s2)
  | 0x62 => some (s + s2)
  | 0x70 => some fn
  | 0x71 => some (a + fn)
  | 0x72 => some (t0 + span 30 26 + span 25 18 + s + s2)
  | 0x73 => some a
  | 0x80 => some (a + b)
  | _ => none

/-- The format-T fields of a word (R195). -/
def fmtT (w : Word) : FmtT :=
  { guard := w.extractLsb' 52 4, q0 := w.extractLsb' 48 4, q1 := w.extractLsb' 44 4, q2 := w.extractLsb' 40 4,
    q3 := w.extractLsb' 36 4, t0 := w.extractLsb' 31 5, t1 := w.extractLsb' 26 5, fn := w.extractLsb' 18 8,
    m := w.extractLsb' 10 8, s := w.extractLsb' 5 5, s2 := w.extractLsb' 0 5 }

/-- Whether a function code, field identifier, special-register number, collective kind, handle or mode field of a word is
reserved (R196, R198, R200, R201, R207, R208, R211, R216). -/
def reservedCode (w : Word) : Bool :=
  let fn := bits w 31 24
  let fnT := bits w 25 18
  match opcodeOf w with
  | 0x20 => decide (5 < fn)
  | 0x21 | 0x2C => decide (3 < fn)
  | 0x2A => decide (4 < fn)
  | 0x2B => decide (12 < bits w 41 0)
  | 0x33 | 0x35 | 0x36 => decide (0x0B < fn)
  | 0x34 => decide (0x0C < fn)
  | 0x58 => vxReserved (fmtT w)
  | 0x5A => decide (5 < fnT) || (decide (fnT < 4) && decide (bits w 43 40 ≠ 0))
  | 0x60 => decide (bits w 1 0 = 3)
  | 0x61 => decide (bits w 19 18 = 3)
  | 0x70 => decide (fn = 0 ∨ 3 < fn)
  | 0x71 => decide (15 < fn)
  | 0x72 => decide (fnT = 0 ∨ 7 < fnT)
  | _ => false

/-- Whether an instruction word is refused for itself (R234). -/
def wordBad (w : Word) : Bool :=
  match usedBits (opcodeOf w) with
  | none => true
  | some m => decide (w.toNat % 2 ^ 52 &&& (2 ^ 52 - 1 - m) ≠ 0) || reservedCode w

/-- Whether an instruction may not run inside an audit unit (R230). -/
def barred (w : Word) : Bool :=
  let op := opcodeOf w
  !(decide (0x10 ≤ op ∧ op ≤ 0x21) || decide (0x32 ≤ op ∧ op ≤ 0x36)
    || [0x00, 0x04, 0x05, 0x06, 0x42, 0x43, 0x5C, 0x5D].contains op || decide (0x50 ≤ op ∧ op ≤ 0x5A))

/-! ## Loops, branches and audit units -/

/-- The instruction words of a code with their indices, literals left out. -/
def instrWords (code : List Word) : List (Nat × Word) :=
  (code.zip (literalMap false code)).mapIdx (fun i p => (i, p)) |>.filterMap (fun p =>
    if p.2.2 then none else some (p.1, p.2.1))

/-- The loop bodies of a code: first and last word (R221, R223). -/
def loopBodies (l : List (Nat × Word)) : List (Nat × Nat) :=
  l.filterMap (fun p => if opcodeOf p.2 = 4 ∨ opcodeOf p.2 = 5 then some (p.1 + 1, p.1 + bits p.2 17 0) else none)

/-- The bodies that hold a word, outermost first. -/
def bodiesOf (bodies : List (Nat × Nat)) (i : Nat) : List (Nat × Nat) :=
  bodies.filter (fun b => decide (b.1 ≤ i) && decide (i ≤ b.2))

/-- The first word of the innermost body that holds a word. -/
def innermost (bodies : List (Nat × Nat)) (i : Nat) : Option Nat := ((bodiesOf bodies i).getLast?).map (·.1)

/-- Whether a loop is refused (R234). -/
def loopBad (code : List Word) (l : List (Nat × Word)) (bodies : List (Nat × Nat)) (i : Nat) (w : Word) : Bool :=
  let last := i + bits w 17 0
  let lastWord := l.find? (fun p => decide (p.1 = last))
  decide (bits w 17 0 = 0) || decide (bits w 41 18 = 0) || decide (code.length ≤ last)
    || (bodiesOf bodies i).any (fun b => decide (b.2 < last)) || decide (8 ≤ (bodiesOf bodies i).length)
    || lastWord.any (fun p => decide (opcodeOf p.2 = 0x1E ∨ opcodeOf p.2 = 0x36))

/-- The target of a branch or call, if it is an instruction word of the code. -/
def targetOf (l : List (Nat × Word)) (i : Nat) (w : Word) : Option Nat :=
  let t : Int := (i : Int) + signed 42 (bits w 41 0)
  if t < 0 then none else (l.find? (fun p => decide (p.1 = t.toNat))).map (·.1)

/-- Whether a word is refused for where it stands (R234). -/
def placeBad (code : List Word) (l : List (Nat × Word)) (bodies : List (Nat × Nat)) (i : Nat) (w : Word) : Bool :=
  match opcodeOf w with
  | 0x01 =>
    decide (signed 42 (bits w 41 0) < 1)
      || (match targetOf l i w with
        | none => true
        | some t => decide (innermost bodies t ≠ innermost bodies i))
  | 0x02 =>
    decide (bits w 41 0 = 0)
      || (match targetOf l i w with
        | none => true
        | some t => (innermost bodies t).isSome)
  | 0x04 | 0x05 => loopBad code l bodies i w
  | _ => false

/-- Whether the audit units of a code are refused (R234): `opened` is the body of the unit that is open. -/
def auditBad (bodies : List (Nat × Nat)) : Option (Option Nat) → List (Nat × Word) → Bool
  | opened, [] => opened.isSome
  | opened, (i, w) :: l =>
    match opcodeOf w, opened with
    | 0x81, none => auditBad bodies (some (innermost bodies i)) l
    | 0x81, some _ => true
    | 0x82, none => true
    | 0x82, some b => decide (innermost bodies i ≠ b) || auditBad bodies none l
    | _, none => auditBad bodies none l
    | _, some b => barred w || auditBad bodies (some b) l

/-- Whether a code is refused (R234): its words, its targets, its loops, its audit units, its entry, its last word. -/
def codeBad (code : List Word) (entry : Nat) : Bool :=
  let l := instrWords code
  let bodies := loopBodies l
  l.any (fun p => wordBad p.2 || placeBad code l bodies p.1 p.2) || auditBad bodies none l
    || !(l.any (fun p => decide (p.1 = entry)))
    || !(l.any (fun p => decide (p.1 + 1 = code.length) && decide (opcodeOf p.2 = 8 ∨ opcodeOf p.2 = 3)))

/-! ## The image -/

/-- A cost record: its four coefficients (R233). -/
def costRecord (bs : List Byte) (off : Nat) : List Nat := (List.range 4).map (fun i => fieldNat bs (off + 8 * i) 8)

/-- The words of a range of an image. -/
def imageWords (bs : List Byte) (off n : Nat) : List Word :=
  (List.range n).map (fun i => bytesWord ((bs.drop (off + 8 * i)).take 8))

/-- Whether the header of an image, or its length, is refused (R232, R234). -/
def headerBad (bs : List Byte) : Bool :=
  let g := fieldNat bs 16 1
  let n := fieldNat bs 17 1
  let k := fieldNat bs 12 4
  decide (bs.length < 256) || decide (fieldNat bs 0 4 ≠ 0x4B535031) || decide (fieldNat bs 4 2 ≠ 1)
    || decide (fieldNat bs 6 2 ≠ 0) || decide (k = 0 ∨ 8192 < k) || decide (g = 0 ∨ 64 < g) || decide (32 < n)
    || decide (fieldNat bs 18 2 ≠ 0) || decide (fieldNat bs 24 2 < 16) || decide (fieldNat bs 26 6 ≠ 0)
    || decide (fieldNat bs 224 32 ≠ 0) || decide (bs.length ≠ 256 + 32 * g + 32 * n + 8 * k)

/-- The program that an image holds (R232, R233). -/
def imageProgram (bs : List Byte) : Program :=
  let g := fieldNat bs 16 1
  let n := fieldNat bs 17 1
  { id := BitVec.ofNat 32 (fieldNat bs 8 4), segments := g,
    tds := (List.range n).map (fun i => BitVec.ofNat 256 (fieldNat bs (256 + 32 * g + 32 * i) 32)),
    entry := fieldNat bs 20 4, code := imageWords bs (256 + 32 * g + 32 * n) (fieldNat bs 12 4), skew := fieldNat bs 24 2,
    cost := (List.range 6).map (fun i => costRecord bs (32 + 32 * i)),
    segCost := (List.range g).map (fun i => costRecord bs (256 + 32 * i)) }

/-- Words of the instruction buffer that a program takes (R235). -/
def Program.words (p : Program) : Nat := (p.code.length + 63) / 64 * 64

/-- Words of the instruction buffer in use by a partition's programs (R235). -/
def State.bufferUsed (s : State) (n : Part) : Nat :=
  ((s.programs.filter (fun p => decide (p.1.1 = n))).map (fun p => p.2.words)).sum

/-- The program of an image that may be installed in a partition (R234, R235). -/
def State.imageOk (s : State) (n : Part) (bs : List Byte) : Option Program :=
  if headerBad bs then none
  else
    let p := imageProgram bs
    if 16384 < s.bufferUsed n + p.words || codeBad p.code p.entry then none else some p

end Sys2Proof.Machine
end

