-- ==== Sys2Proof/Machine/MemCmds.lean ====
section
/-! DEFINITION. Commands of the memory tiers: scrub, retirement, CXL ports, the tier cache, MEM.CTRL and MEM.ILV_SIZE, and the
Pannier's fills and registers (R313 to R351). -/

namespace Sys2Proof.Machine

/-! ## Frames (R315 to R318) -/

/-- A frame: memory-port die and 4 KiB frame of its offset space (R317). -/
abbrev FrameId := Fin 4 × Nat

/-- The frame of a close-memory address. -/
def State.frameOf (s : State) (a : Nat) : FrameId :=
  let p := s.mdOf a
  (Fin.ofNat 4 p.1, p.2 / 4096)

/-- The lowest free spare frame of a die (R317, R318). -/
def State.freeSpare (s : State) (md : Fin 4) : Option Nat :=
  let base := s.regN .memSpareBase / 16384
  let used := (s.ms.retired ++ s.ms.copying).filterMap (fun p => if p.1.1 = md then some p.2.1 else none)
  (List.range (s.regN .memSpareFrames)).findSome? (fun k => if used.contains (base + k) then none else some (base + k))

/-- Event 0x0605 or 0x0606 with the frame's local address (R317, R318, log 11). -/
def State.frameEvent (s : State) (code : Code) (f : FrameId) : State :=
  s.mgmtReport .memCode code (natBytes 8 (s.closeAddr f.1.val (f.2 * 4096)))

/-- The frame of an address qualifies for retirement by an error there: its copy into a spare starts, or no spare is free (R317,
R318). -/
def State.retireFrame (s : State) (a : Nat) : State :=
  let f := s.frameOf a
  let busy := (s.ms.retired ++ s.ms.copying).any (fun p => decide (p.1 = f))
  let held := ((s.ms.retired ++ s.ms.copying).filter (fun p => decide (p.1.1 = f.1))).length
  if busy then s
  else
    match s.freeSpare f.1 with
    | some k =>
      if held < 1024 then { s with ms := { s.ms with copying := s.ms.copying ++ [(f, k, (s.mdOf a).2)] } } else s.frameEvent 0x0606 f
    | none => s.frameEvent 0x0606 f

/-- MEM.ERR_LOG (R349). -/
def errLog (ue : Bool) (a : Nat) : Word := BitVec.ofNat 64 (a % 2 ^ 50 + if ue then 2 ^ 63 else 0)

/-- A corrected error at an address (R315, R317). -/
def State.corrected (s : State) (a : Nat) : State :=
  let f := s.frameOf a
  let n := Assoc.getD f 0 s.ms.ceCount + 1
  let s1 := ((s.bump .memCeCount 0 0 1).setReg .memErrLog 0 0 (errLog false a))
  let s2 := { s1 with ms := { s1.ms with ceCount := Assoc.put f n s1.ms.ceCount } }
  if s2.regN .memCeThresh ≤ n then s2.retireFrame a else s2

/-- An uncorrectable error at an address: the unit is poisoned and the frame retired at once (R315, R317). -/
def State.uncorrectable (s : State) (a : Nat) : State :=
  let u := a / 64
  let s1 := (s.bump .memUeCount 0 0 1).setReg .memErrLog 0 0 (errLog true a)
  let s2 := { s1 with ms := { s1.ms with poisoned := if s1.ms.poisoned.contains u then s1.ms.poisoned else s1.ms.poisoned ++ [u] } }
  s2.retireFrame a

/-- MEM_SCRUB (R314 to R316): one unit is read, with some of the 68 symbols of its data and check bytes in error; a new period
starts with the unit at address 0 (log 10). The code corrects one symbol and detects two; what it makes of more is a free value:
it detects them, or takes them for one and the unit then holds something else (log 103). -/
def execMemScrub (unit : BitVec 50) (bad : Nat) : State → Out :=
  lift (fun s =>
    let a := unit.toNat / 64 * 64
    let s1 := if a = 0 then { s with ms := { s.ms with ceCount := [] } } else s
    if s1.closeTop ≤ a ∨ !((s1.reg .memCtrl).getLsbD 0) then s1
    else
      match bad with
      | 0 => s1
      | 1 => s1.corrected a
      | 2 => s1.uncorrectable a
      | _ =>
        let r := s1.fresh
        if r.1.getLsbD 0 then r.2.uncorrectable a
        else State.corrected { r.2 with mem := r.2.mem.blur a (a + 64) (.loose r.2.freeCtr), freeCtr := r.2.freeCtr + 1 } a)

/-- FRAME_RETIRE_COPY_DONE (R317): the frame's offsets are mapped to the spare, with event 0x0605. -/
def execFrameRetireCopyDone (md : Fin 4) (frame : Nat) : State → Out :=
  lift (fun s =>
    match Assoc.find (md, frame) s.ms.copying with
    | none => s
    | some k =>
      let s1 := { s with ms := { s.ms with copying := Assoc.del (md, frame) s.ms.copying,
                                            retired := s.ms.retired ++ [((md, frame), k)] } }
      ((s1.bump .memRetired 0 0 1).writeRepair).frameEvent 0x0605 (md, frame))

/-! ## MEM.CTRL and MEM.ILV_SIZE (R313) -/

/-- A discarded write of a MEM register (R313, R617). -/
def State.memRefused (s : State) : State := s.setReg .memCode 0 0 0x060D

/-- The effect of MEM.CTRL (R313): a change of the ECC bit resets MEM.ILV_SIZE and writes zero to all close memory, which Pannier
items (R335) and the copies of the tier cache do not outlive. -/
def State.writeMemCtrl (s : State) (value : Word) : State :=
  if !s.allDisabled then s.memRefused
  else if (s.reg .memCtrl).getLsbD 0 = value.getLsbD 0 then s
  else
    let s1 := s.setReg .memCtrl 0 0 (value &&& 1)
    let s2 := (s1.setReg .memIlvSize 0 0 (BitVec.ofNat 64 s1.closeTop)).setReg .memStatus 0 0 2
    let s3 := s2.pnInvalidate 0 (4 * dieClose false)
    { s3 with mem := s3.mem.blur 0 (4 * dieClose false) .zero, ms := { s3.ms with poisoned := [], tcSlots := [] } }

/-- MEM.CTRL (R313): a change of the ECC bit resets MEM.ILV_SIZE and clears close memory. -/
def execMemCtrlWrite (value : Word) : State → Out := lift (fun s => s.writeMemCtrl value)

/-- The effect of MEM.ILV_SIZE (R313): what close memory then holds is unspecified until it is written. -/
def State.writeIlvSize (s : State) (value : Word) : State :=
  if !s.allDisabled || decide (value.toNat % 2 ^ 32 ≠ 0) || decide (s.closeTop < value.toNat) then s.memRefused
  else if s.reg .memIlvSize = value then s
  else
    let s1 := s.setReg .memIlvSize 0 0 value
    { s1 with mem := s1.mem.blur 0 s1.closeTop (.loose s1.freeCtr), freeCtr := s1.freeCtr + 1 }

/-- MEM.ILV_SIZE (R313): what close memory then holds is unspecified until it is written. -/
def execMemIlvSizeWrite (value : Word) : State → Out := lift (fun s => s.writeIlvSize value)

/-- MEM_CLEAR_DONE (R313): MEM.STATUS leaves CLEARING. -/
def execMemClearDone : State → Out :=
  lift (fun s => s.when (decide (s.regN .memStatus = 2)) (fun t => t.setReg .memStatus 0 0 1))

/-! ## CXL ports (R320 to R322, R345) -/

/-- The admission rate of a port in MB/s (R345). -/
def State.cxlRate (s : State) (p : Fin 4) : Nat :=
  let x := s.cxlPort p
  if x.state = .inService then 108000 * x.width * x.rate / (16 * 64) else 0

/-- CAD.ADM_CXL_BW: the sum over the ports in service (R345). -/
def State.setCxlRate (s : State) : State :=
  s.setReg .cadAdmCxlBw 0 0 (BitVec.ofNat 64 ((List.finRange 4).map s.cxlRate).sum)

/-- Replaces a CXL port; the admission rate follows. -/
def State.setCxl (s : State) (p : Fin 4) (x : CxlPort) : State := State.setCxlRate { s with cxl := Assoc.put p x s.cxl }

/-- A code of a CXL port, with its event (R352). -/
def State.cxlReport (s : State) (p : Fin 4) (code : Code) : State :=
  (s.setReg .cxlCode 0 p.val (codeWord code)).mgmtEvent code [BitVec.ofNat 8 p.val]

/-- Whether a device is refused (R320, R321, R576). -/
def State.cxlRefuses (s : State) (p : Fin 4) (d : CxlDevice) : Bool :=
  !d.type3 || decide (d.capacity % 2 ^ 28 ≠ 0) || decide (d.capacity < 2 ^ 28) || decide (2 ^ 41 < d.capacity)
    || ((s.reg .cxlCtrl 0 p.val).getLsbD 1 && (!s.slotLoaded (59 + p.val) || !d.ideOk))

/-- Whether a link trains at a width and rate: x16 or x8, 64 or 32 GT/s (R320). -/
def cxlTrains (d : CxlDevice) : Bool := [16, 8].contains d.width && [64, 32].contains d.rate

/-- CXL_TRAINED (R320, R321). -/
def execCxlTrained (p : Fin 4) (dev : CxlDevice) : State → Out :=
  lift (fun s =>
    let x := s.cxlPort p
    if !((s.reg .cxlCtrl 0 p.val).getLsbD 0) || !(decide (x.state = .down ∨ x.state = .training)) || !cxlTrains dev then s
    else if s.cxlRefuses p dev then (s.setCxl p { CxlPort.init with state := .refused }).cxlReport p 0x060B
    else
      let ide := (s.reg .cxlCtrl 0 p.val).getLsbD 1
      let s1 := s.setCxl p ⟨.inService, dev.width, dev.rate, ide, dev.capacity, dev.poison⟩
      if dev.width < 16 ∨ dev.rate < 64 then s1.cxlReport p 0x060C else s1)

/-- CXL_LINK_DOWN (R322): the port trains again by itself. -/
def execCxlLinkDown (p : Fin 4) : State → Out :=
  lift (fun s =>
    s.when (decide ((s.cxlPort p).state = .inService)) (fun t =>
      (t.setCxl p { CxlPort.init with state := .training }).bump .cxlLinkDowns 0 p.val 1))

/-- CXL_TIMEOUT (R322): an access got no response. -/
def execCxlTimeout (p : Fin 4) (user : CxlUser) : State → Out :=
  lift (fun s =>
    let s1 := (s.setReg .cxlCode 0 p.val 0x0604).setReg .memCode 0 0 0x0604
    match user with
    | .core c => s1.when (s.core c).running (fun t => t.kill c 0x0604 (some .lx))
    | .station _ n => s1.when (decide ((s.dom n).state = .running)) (fun t => t.segError n (t.segNow n) 0x0604 none)
    | .agent => s1)

/-! ## The tier cache (R338 to R340) -/

/-- Whether a frame of the second tier lies in a TCACHE region. -/
def State.tcCandidate (s : State) (f : Nat) : Bool :=
  match s.regionAt (f * 2097152) with
  | some r => r.tcache && decide (f * 2097152 + 2097152 ≤ r.base + r.size)
  | none => false

/-- Frames in the order of R339: by the epoch's count, descending, then by address. -/
def tcInsert (x : Nat × Nat) : List (Nat × Nat) → List (Nat × Nat)
  | [] => [x]
  | y :: l => if y.2 < x.2 ∨ (y.2 = x.2 ∧ x.1 < y.1) then x :: y :: l else y :: tcInsert x l

/-- TC_EPOCH_END (R339): qualifying and cached frames are ranked and the top ones kept, one per slot; new copies start. -/
def execTcEpochEnd : State → Out :=
  lift (fun s =>
    let slots := s.regN .memTcSize / 2097152
    let need := s.regN .memTcThresh * 2097152
    let counts := s.ms.tcBytes.filter (fun p => (decide (need ≤ p.2) && s.tcCandidate p.1) || s.ms.tcSlots.any (fun q => decide (q.1 = p.1)))
    let quiet := (s.ms.tcSlots.filter (fun q => !(s.ms.tcBytes.any (fun p => decide (p.1 = q.1))))).map (fun q => (q.1, 0))
    let top := ((counts ++ quiet).foldl (fun l x => tcInsert x l) []).take slots
    let keep := top.map (fun p => (p.1, s.ms.tcSlots.any (fun q => decide (q.1 = p.1) && q.2)))
    { s with ms := { s.ms with tcSlots := keep, tcBytes := [] } })

/-- TC_COPY_DONE (R339). -/
def execTcCopyDone (frame : Nat) : State → Out :=
  lift (fun s =>
    if s.ms.tcSlots.any (fun q => decide (q.1 = frame) && !q.2) then
      State.bump { s with ms := { s.ms with
        tcSlots := s.ms.tcSlots.map (fun q => if q.1 = frame then (frame, true) else q) } } .memTcCopies 0 0 1
    else s)

/-- TC_HIT_FALLBACK (R340): the device serves what the last read hit in a frame; the data are the same, and the bytes count as
the port's. -/
def execTcHitFallback (frame : Nat) : State → Out :=
  lift (fun s =>
    match Assoc.find frame s.ms.tcHits with
    | none => s
    | some k =>
      let s1 := { s with ms := { s.ms with tcHits := Assoc.del frame s.ms.tcHits } }
      let s2 := s1.setReg .memTcHitBytes 0 0 (BitVec.ofNat 64 (s1.regN .memTcHitBytes - k))
      s2.bump .cxlRdBytes 0 ((frame * 2097152 - cxlBase) / 0x20000000000) k)

/-! ## The Pannier (R330 to R337) -/

/-- PN_FILL_COMPLETE (R333): the fill has read the item's range as any read does, and the item is VALID; where the read fails,
the item is QUEUED again (log 105). The next fill starts. -/
def execPnFillComplete (die : Fin 8) : State → Out :=
  lift (fun s =>
    match (s.pnDir die).find? (fun i => decide (i.state = .filling)) with
    | none => s
    | some i =>
      let r := s.startRead (hostAcc i.part) i.src i.bytes
      let become (x : PnState) : List PnItem := pnStart ((r.1.pnDir die).map (fun j => if j = i then { j with state := x } else j))
      match r.2 with
      | .ok _ => (r.1.setPn die (become .valid)).bump .pnFillBytes die.val 0 i.bytes
      | .error e => (r.1.setPn die (become .queued)).setReg .pnCode die.val 0 (codeWord e))

/-- Frames that items of a partition hold (R351). -/
def pnFrames (l : List PnItem) (n : Part) : Nat := ((l.filter (fun i => decide (i.part = n))).map (fun i => i.bytes / 65536)).sum

/-- A discarded write of a PN register (R337). -/
def State.pnRefused (s : State) (d : Fin 8) : State := s.setReg .pnCode d.val 0 0x060D

/-- The effect of PN.SIZE (R337, R351). -/
def State.writePnSize (s : State) (die : Fin 8) (value : Word) : State :=
  if !(s.pnDir die).isEmpty || decide (160 < value.toNat) then s.pnRefused die else s.setReg .pnSize die.val 0 value

/-- PN.SIZE (R337, R351). -/
def execPnSizeWrite (die : Fin 8) (value : Word) : State → Out := lift (fun s => s.writePnSize die value)

/-- The effect of PN.P_QUOTA (R337). -/
def State.writePnQuota (s : State) (die : Fin 8) (n : Part) (value : Word) : State :=
  let others := ((List.finRange 16).map (fun k => if k = n then 0 else s.regN .pnPQuota die.val k.val)).sum
  if s.regN .pnSize die.val < others + value.toNat ∨ value.toNat * 16 < pnFrames (s.pnDir die) n then s.pnRefused die
  else s.setReg .pnPQuota die.val n.val value

/-- PN.P_QUOTA (R337). -/
def execPnPQuotaWrite (die : Fin 8) (n : Part) (value : Word) : State → Out := lift (fun s => s.writePnQuota die n value)

/-- The items of a directory that PN evicts to make room, and whether room is made (R332): lower priority, unpinned, of the
partition, in ascending priority, last hit (0 while QUEUED), source. -/
def pnVictims (l : List PnItem) (n : Part) (prio need free : Nat) : Option (List PnItem) :=
  let key (i : PnItem) : Nat × Nat × Nat := (i.prio, if i.state = .queued then 0 else i.lastHit.toNat, i.src)
  let le (a b : PnItem) : Bool :=
    let x := key a
    let y := key b
    decide (x.1 < y.1 ∨ (x.1 = y.1 ∧ (x.2.1 < y.2.1 ∨ (x.2.1 = y.2.1 ∧ x.2.2 ≤ y.2.2))))
  let rec insert (i : PnItem) : List PnItem → List PnItem
    | [] => [i]
    | j :: r => if le i j then i :: j :: r else j :: insert i r
  let rec go (need free : Nat) : List PnItem → Option (List PnItem)
    | [] => if need ≤ free then some [] else none
    | i :: r => if need ≤ free then some [] else (go need (free + i.bytes / 65536) r).map (fun v => i :: v)
  go need free ((l.filter (fun i => decide (i.part = n) && !i.pin && decide (i.prio < prio))).foldr insert [])

/-- A PN_LOAD item record (R331). -/
structure PnRecord where
  src : Nat
  bytes : Nat
  prio : Nat
  mask : Byte
  pin : Bool
  version : Code
  reserved : Bool

/-- A record from its 32 bytes. -/
def pnRecord (bs : List Byte) : PnRecord :=
  { src := fieldNat bs 0 8, bytes := fieldNat bs 8 4, prio := fieldNat bs 12 1, mask := bs.getD 13 0,
    pin := (bs.getD 14 0).getLsbD 0, version := BitVec.ofNat 16 (fieldNat bs 16 2),
    reserved := decide (2 ≤ fieldNat bs 14 1 ∨ fieldNat bs 15 1 ≠ 0 ∨ fieldNat bs 18 14 ≠ 0) }

/-- Whether a record breaks R330 for a partition. -/
def State.pnRecordBad (s : State) (n : Part) (r : PnRecord) : Bool :=
  decide (r.src % 65536 ≠ 0) || decide (r.bytes % 65536 ≠ 0) || decide (r.bytes < 65536) || decide (67108864 < r.bytes)
    || r.reserved
    || (match s.regionAt r.src with
        | some g => !(g.pnOk && decide (g.part = n) && decide (r.src + r.bytes ≤ g.base + g.size))
        | none => true)

/-- One record on one die (R331, R332): false where it is refused for room. -/
def State.pnEnter (s : State) (n : Part) (r : PnRecord) (d : Fin 8) : State × Bool :=
  let l := s.pnDir d
  if l.any (fun i => decide (i.src = r.src ∧ i.bytes = r.bytes)) then
    (s.setPn d (l.map (fun i =>
      if i.src = r.src ∧ i.bytes = r.bytes then { i with prio := max i.prio r.prio, pin := i.pin || r.pin } else i)), true)
  else
    let free := s.regN .pnPQuota d.val n.val * 16 - pnFrames l n
    match pnVictims l n r.prio (r.bytes / 65536) free with
    | none => (s, false)
    | some v =>
      if 512 ≤ l.length - v.length then (s, false)
      else
      let item : PnItem := ⟨r.src, r.bytes, n, r.prio, r.version, r.pin, 0, .queued⟩
      ((s.setPn d (pnStart (l.filter (fun i => !v.contains i) ++ [item]))).bump .pnEvictions d.val 0 v.length, true)

/-- The dies of a mask. -/
def maskDies (m : Byte) : List (Fin 8) := (List.finRange 8).filter (fun d => m.getLsbD d.val)

/-- PN_LOAD (R331): the state after, and the status. A refusal's code stays in PN.CODE of the die that refused, or of every die
that the list names (R351). -/
def State.pnLoadAll (s : State) (n : Part) (rs : List PnRecord) : State × Code :=
  if rs.any (s.pnRecordBad n) then
    ((rs.flatMap (fun r => maskDies r.mask)).foldl (fun t d => t.setReg .pnCode d.val 0 0x0609) s, 0x0609)
  else
    (rs.flatMap (fun r => (maskDies r.mask).map (fun d => (r, d)))).foldl (fun acc p =>
      if acc.2 ≠ 0 then acc
      else
        let t := acc.1.pnEnter n p.1 p.2
        if t.2 then (t.1, 0) else (t.1.setReg .pnCode p.2.val 0 0x0608, 0x0608)) (s, 0)

/-- PN_PIN and PN_UNPIN (R331). -/
def State.pnSetPin (s : State) (n : Part) (src bytes : Nat) (m : Byte) (pin : Bool) : State × Code :=
  let hit (i : PnItem) : Bool := decide (i.src = src ∧ i.bytes = bytes ∧ i.part = n)
  if (maskDies m).any (fun d => !((s.pnDir d).any hit)) then (s, 0x0903)
  else ((maskDies m).foldl (fun t d => t.setPn d ((t.pnDir d).map (fun i => if hit i then { i with pin := pin } else i))) s, 0)

/-- PN_DROP (R331): by range, or by version. -/
def State.pnDropAll (s : State) (n : Part) (range : Option (Nat × Nat)) (version : Code) (m : Byte) : State × Code :=
  let hit (i : PnItem) : Bool :=
    decide (i.part = n) && (match range with
      | some r => decide (i.src = r.1 ∧ i.bytes = r.2)
      | none => decide (i.version = version))
  if (maskDies m).any (fun d => (s.pnDir d).any (fun i => hit i && i.pin)) then (s, 0x0903)
  else ((maskDies m).foldl (fun t d => t.setPn d (pnStart ((t.pnDir d).filter (fun i => !hit i)))) s, 0)

end Sys2Proof.Machine
end

