-- ==== Sys2Proof/Machine/Transport.lean ====
section
/-! DEFINITION. The host port, Brosin sessions, event channels and the net station (R429 to R461). -/

namespace Sys2Proof.Machine

/-! ## The port (R429 to R432) -/

/-- Replaces the host port. -/
def State.setHp (s : State) (h : HostPort) : State := { s with hp := h }

/-- Whether a frame comes in: the port is UP, and MACsec protects the frame where it is required (R432). -/
def State.frameIn (s : State) (prot : Bool) (f : State → State) : State :=
  if s.hp.state ≠ .up then s
  else
    let s1 := s.bump .hpRxFrames 0 0 1
    if (s1.reg .hpCtrl).getLsbD 1 && !(s1.hp.macsec && prot) then s1.bump .hpMacsecDrops 0 0 1 else f s1

/-- Whether a connector lane carries the port: lanes 0 to 3, lane 4 in place of the one that the selector names (R430). -/
def HostPort.carries (h : HostPort) (lane : Fin 5) : Bool :=
  if lane.val = 4 then h.spareFor.isSome else decide (h.spareFor.map Fin.val ≠ some lane.val)

/-- HOST_LANE_FAIL: the lane selector is set where the spare is free, and the port retrains; else it goes DOWN (R430, R608). -/
def execHostLaneFail (lane : Fin 5) : State → Out :=
  lift (fun s =>
    if s.hp.state = .down || !s.hp.carries lane then s
    else if (s.reg .hpCtrl).getLsbD 2 && s.hp.spareFor.isNone then
      let k : Fin 4 := Fin.ofNat 4 lane.val
      ((s.setHp { s.hp with spareFor := some k, state := .training, lanes := 0 }).send (.laneSelect k)).mgmtReport .hpCode 0x0909
        [BitVec.ofNat 8 lane.val]
    else (s.setHp { s.hp with state := .down, lanes := 0, macsec := false }).mgmtReport .hpCode 0x090A)

/-- HOST_PORT_TRAINED (R430, R584): the port is UP, and event 0x0E07 follows a bring-up. -/
def execHostPortTrained : State → Out :=
  lift (fun s =>
    if !((s.reg .hpCtrl).getLsbD 0) || decide (s.hp.state = .up) then s
    else
      let s1 := s.setHp { s.hp with state := .up, lanes := 4 }
      if s1.boot.readyEvent then
        State.mgmtReport { s1 with boot := { s1.boot with readyEvent := false } } .bootCode 0x0E07
          (natBytes 4 (bitN s1.boot.running) ++ natBytes 4 s1.boot.timeUs)
      else s1)

/-- ARP_REQUEST (R431). -/
def execArpRequest (x : Protected Ip4) : State → Out :=
  lift (fun s => s.frameIn x.prot (fun t =>
    t.when (decide (x.body ≠ 0) && decide ((t.reg .hpIp4).setWidth 32 = x.body))
      (fun u => (u.send (.arpReply x.body)).bump .hpTxFrames 0 0 1)))

/-- The module's IPv6 address (R460). -/
def State.ip6 (s : State) : BitVec 128 := (s.reg .hpIp6Hi).append (s.reg .hpIp6Lo)

/-- NEIGHBOR_SOLICITATION (R431). -/
def execNeighborSolicitation (x : Protected Ip6) : State → Out :=
  lift (fun s => s.frameIn x.prot (fun t =>
    t.when (decide (x.body = t.ip6)) (fun u => (u.send (.neighborAdvertisement x.body)).bump .hpTxFrames 0 0 1)))

/-- ECHO_REQUEST (R431). -/
def execEchoRequest (v6 : Bool) (dst : Ip6) (x : Protected Octets) : State → Out :=
  lift (fun s => s.frameIn x.prot (fun t =>
    let own := if v6 then decide (dst = t.ip6) else decide (dst.setWidth 32 = (t.reg .hpIp4).setWidth 32 ∧ t.reg .hpIp4 ≠ 0)
    t.when own (fun u => (u.send (.echoReply v6 x.body)).bump .hpTxFrames 0 0 1)))

/-- MKA_FRAME (R432, R573): an agreement needs the key of slot 63. -/
def execMkaFrame (agreed : Bool) : State → Out :=
  lift (fun s =>
    if s.hp.state ≠ .up then s
    else
      let s1 := s.bump .hpRxFrames 0 0 1
      if agreed && s1.slotLoaded 63 then s1.setHp { s1.hp with macsec := true } else s1)

/-! ## Sessions (R434 to R440) -/

/-- Whether a sequence number comes after another, modulo 2^32 (R438). -/
def seqAfter (a b : BitVec 32) : Bool := decide (a ≠ b) && decide ((a - b).toNat < 2 ^ 31)

/-- Whether an address matches a prefix; length 0 admits every address (R460). -/
def prefixAdmits (hi lo : Word) (len : Nat) (a : BitVec 128) : Bool :=
  decide (len = 0) || decide ((hi.append lo).toNat / 2 ^ (128 - len) = a.toNat / 2 ^ (128 - len))

/-- The payload that HP.MAX_FRAME admits (R436). -/
def State.maxPayload (s : State) (v4 : Bool) : Nat := (s.regN .hpMaxFrame - if v4 then 114 else 134) / 8 * 8

/-- A new session (R437, R438). -/
def newSession (owner : SessOwner) (src : BitVec 128) (v4 : Bool) (maxLen : Nat) (established : Bool) (window : Nat) : Session :=
  { owner := owner, src := src, v4 := v4, maxLen := maxLen, established := established, rxSeq := 0, txSeq := 0, peerAck := 0,
    peerWindow := window, unacked := [], waiting := [], early := [], stream := [], ackDue := false, resends := 0, net := [],
    partial_ := 0 }

/-- A packet that breaks R434. -/
def State.badFrame (s : State) : State := s.bump .hpBadFrames 0 0 1

/-- Answers an OPEN. -/
def State.openAnswer (s : State) (src : BitVec 128) (n : Nat) (status : Code) (maxLen : Nat) : State :=
  ((s.send (.brosin .openOk src (sentHdr .openOk 8 0 1024 0 0 n) (natBytes 2 status.toNat ++ natBytes 2 maxLen ++ natBytes 4 0))).bump
    .hpTxFrames 0 0 1).lastCode status

/-- The peer of the net station that has an address (R455). -/
def State.peerAt (s : State) (a : BitVec 128) : Option Nat :=
  (List.range 256).find? (fun i => (s.reg .nxPeerPort 0 i).getLsbD 63 && decide ((s.reg .nxPeerHi 0 i).append (s.reg .nxPeerLo 0 i) = a))

/-- OPEN (R437). -/
def execOpenReq (src : BitVec 128) (v4 : Bool) (h : BrosinHdr) (payload : List Byte) : State → Out :=
  lift (fun s => s.frameIn h.prot (fun t =>
    let p := fieldNat payload 0 1
    let want := fieldNat payload 2 2
    if !h.wellFormed || decide (payload.length ≠ 8) || decide (fieldNat payload 1 1 ≠ 0) || decide (fieldNat payload 4 4 ≠ 0) then
      t.badFrame
    else
      let owner : Option SessOwner :=
        if p < 16 then
          let n : Part := Fin.ofNat 16 p
          if prefixAdmits (t.reg .hpPPrefixHi 0 p) (t.reg .hpPPrefixLo 0 p) (t.regN .hpPPrefixLen 0 p) src then some (.part n) else none
        else if p = 0xFF then
          if prefixAdmits (t.reg .hpMgmtPrefixHi) (t.reg .hpMgmtPrefixLo) (t.regN .hpMgmtPrefixLen) src then some .mgmt else none
        else if p = 0xFE then some (.net (t.peerAt src))
        else none
      match owner with
      | none => t.openAnswer src 0 0x090D 0
      | some o =>
        if want < 1024 ∨ 8192 < want ∨ 1024 ≤ t.hp.sessions.length then t.openAnswer src 0 0x090D 0
        else
          let n := t.hp.nextSession
          let len := min want (t.maxPayload v4)
          let s1 := t.setSession n (newSession o src v4 len true h.window)
          (s1.setHp { s1.hp with nextSession := n + 1 }).openAnswer src n 0 len))

/-- Removes a session. -/
def State.dropSession (s : State) (n : Nat) : State :=
  s.setHp { s.hp with sessions := Assoc.del n s.hp.sessions, spdm := Assoc.del n s.hp.spdm }

/-! ### The net station's messages (R455 to R459) -/

/-- The position counters of a control record: PROD and CONS. -/
def State.nxCounter (s : State) (a off : Nat) : Nat := s.loadN (a + off) 8

/-- Writes a counter of a control record, which lies in a STATE region of the partition (R456, R458). -/
def State.nxSetCounter (s : State) (n : Part) (a off v : Nat) : State := (s.writeMem (hostAcc n) none (a + off) (natBytes 8 v)).1

/-- CONS of a partition's send ring: the first descriptor whose message is not over (R457). -/
def State.nxCons (s : State) (n : Part) : State :=
  let taken := Assoc.getD n 0 s.hp.nxTaken
  let open_ := (s.hp.nxOut.filter (fun o => decide (o.part = n))).map (·.index)
  s.nxSetCounter n (s.regN .nxPTxCtl 0 n.val) 8 (open_.foldl Nat.min taken)

/-- The net session to a peer. -/
def State.netSession (s : State) (peer : Nat) : Option (Nat × Session) :=
  s.hp.sessions.find? (fun p => decide (p.2.owner = .net (some peer)))

/-- The NET payloads of a message (R455). -/
def netPayloads (maxLen : Nat) (bytes : List Byte) : List (List Byte) := payloadsOf maxLen bytes.length bytes

/-- Sends the messages for a peer that are not yet sent, in order. -/
def State.netSend (s : State) (peer : Nat) : State :=
  match s.netSession peer with
  | none => s
  | some (n, x) =>
    if !x.established then s
    else
      let r := s.hp.nxOut.foldl (fun (acc : List NxOut × State) o =>
        if o.peer ≠ peer ∨ o.lastSeq.isSome then (acc.1 ++ [o], acc.2)
        else
          let ps := netPayloads x.maxLen o.bytes
          let y := (acc.2.session n).getD x
          let last := y.txSeq + BitVec.ofNat 32 (y.waiting.length + ps.length)
          (acc.1 ++ [{ o with lastSeq := some last }], acc.2.sessionSend n (ps.map (fun b => (.net, b))))) ([], s)
      r.2.setHp { r.2.hp with nxOut := r.1 }

/-- Opens a net session to a peer where there is none (R437, R455). -/
def State.netOpen (s : State) (peer : Nat) : State :=
  if (s.netSession peer).isSome then s.netSend peer
  else
    let a := (s.reg .nxPeerHi 0 peer).append (s.reg .nxPeerLo 0 peer)
    let v4 := decide (a.toNat / 2 ^ 32 = 0xFFFF)
    let len := min 8192 (s.maxPayload v4)
    let n := s.hp.nextSession
    let s1 := s.setSession n (newSession (.net (some peer)) a v4 len false 0)
    ((s1.setHp { s1.hp with nextSession := n + 1 }).send (.brosin .openReq a (sentHdr .openReq 8 0 1024 0 0 n)
      ([0xFE, 0] ++ natBytes 2 len ++ natBytes 4 0))).bump .hpTxFrames 0 0 1

/-- Descriptor `i` of a send ring: the message, or none where it is skipped (R456, R457). -/
def State.nxDescriptor (s : State) (n : Part) (i : Nat) : Option (Nat × List Byte) :=
  let d := s.load (s.regN .nxPTxBase 0 n.val + 32 * (i % (s.regN .nxPTxSize 0 n.val / 32))) 32
  let peer := fieldNat d 0 2
  let len := fieldNat d 4 4
  let r := s.readMem (hostAcc n) (fieldNat d 8 8) len
  if 256 ≤ peer ∨ !((s.reg .nxPeerPort 0 peer).getLsbD 63) ∨ 16 ≤ fieldNat d 2 1 ∨ fieldNat d 3 1 ≠ 0 ∨ 65536 < len
      ∨ fieldNat d 24 8 ≠ 0 ∨ 2 ^ 50 ≤ fieldNat d 8 8 then none
  else
    match r.2 with
    | .error _ => none
    | .ok body =>
      some (peer, natBytes 1 (fieldNat d 2 1) ++ natBytes 1 n.val ++ natBytes 2 0 ++ natBytes 4 len ++ natBytes 8 (fieldNat d 16 8)
        ++ wordBytes (s.tickOf n) ++ natBytes 8 0 ++ body)

/-- The apply of a commit takes every new descriptor of a partition's send ring (R457). -/
def State.nxTake (s : State) (n : Part) : State :=
  if s.regN .nxPTxSize 0 n.val = 0 then s
  else
    let prod := s.nxCounter (s.regN .nxPTxCtl 0 n.val) 0
    let from_ := Assoc.getD n 0 s.hp.nxTaken
    let s1 := (List.range (prod - from_)).foldl (fun t k =>
      match t.nxDescriptor n (from_ + k) with
      | none => ((t.setReg .nxCode 0 0 0x090C).bump .nxDiscarded 0 0 1).partEvent n 0x090C (natBytes 8 (from_ + k))
      | some (peer, bs) => (t.setHp { t.hp with nxOut := t.hp.nxOut ++ [⟨n, from_ + k, peer, bs, none⟩] }).netOpen peer) s
    State.nxCons (s1.setHp { s1.hp with nxTaken := Assoc.put n (max prod from_) s1.hp.nxTaken }) n

/-- Messages of a session that the other end has acknowledged are over (R457). -/
def State.netAcked (s : State) (peer : Nat) (ack : BitVec 32) : State :=
  let isOver (o : NxOut) : Bool := decide (o.peer = peer) && o.lastSeq.any (fun q => !seqAfter q ack)
  let gone := s.hp.nxOut.filter isOver
  let s1 := (s.setHp { s.hp with nxOut := s.hp.nxOut.filter (fun o => !isOver o) }).bump .nxSent 0 0 gone.length
  (dedup (gone.map (fun o => o.part.val))).foldl (fun t k => t.nxCons (Fin.ofNat 16 k)) s1

/-- A net session is lost: the messages for its peer are discarded, with event 0x090B (R459). -/
def State.netLost (s : State) (peer : Nat) : State :=
  let gone := s.hp.nxOut.filter (fun o => decide (o.peer = peer))
  let s1 := s.setHp { s.hp with nxOut := s.hp.nxOut.filter (fun o => decide (o.peer ≠ peer)) }
  (dedup (gone.map (fun o => o.part.val))).foldl (fun t k =>
    let n : Part := Fin.ofNat 16 k
    let c := (gone.filter (fun o => decide (o.part = n))).length
    ((((t.nxCons n).bump .nxDiscarded 0 0 c).setReg .nxCode 0 0 0x090B).partEvent n 0x090B (natBytes 4 peer ++ natBytes 4 c))) s1

/-! ### Acknowledgements -/

/-- Takes the acknowledgement and window of a packet (R438). -/
def State.takeBrosinAck (s : State) (n : Nat) (h : BrosinHdr) : State :=
  match s.session n with
  | none => s
  | some x =>
    let left := x.unacked.filter (fun p => seqAfter p.1 h.ack)
    let x1 := { x with unacked := left, peerAck := h.ack, peerWindow := h.window,
                       resends := if left.length = x.unacked.length then x.resends else 0 }
    let s1 := s.setSession n x1
    let s2 := match x.owner with
      | .net (some p) => s1.netAcked p h.ack
      | _ => s1
    pumpSession n x1.waiting.length s2

/-- A packet of a session comes in: it must be well formed and within the agreed length (R434). -/
def State.sessionIn (s : State) (h : BrosinHdr) (payload : List Byte) (f : State → Session → State) : State :=
  s.frameIn h.prot (fun t =>
    match t.session h.session with
    | none => t
    | some x =>
      if !h.wellFormed || decide (x.maxLen < payload.length) then t.badFrame
      else
        let t1 := t.takeBrosinAck h.session h
        match t1.session h.session with
        | none => t1
        | some y => f t1 y)

/-! ### Frames (R442, R443) -/

/-- The queue of a frame on a session. -/
def frameQueue (x : Session) (q : Code) : Option Part × Nat := (x.owner.queueKey, q.toNat)

/-- A frame that has arrived whole joins its queue; a queue of 1,024 is full (R443). -/
def State.enqueueFrame (s : State) (x : Session) (cmd : Code) (f : Frame) : State :=
  let k := frameQueue x f.queue
  let q := s.queue k
  if 1024 ≤ q.length then s.answerCmd cmd f 0x0904 else s.setQueue k (q ++ [⟨cmd, f, false, s.now⟩])

/-- Takes the whole frames off a session's byte stream (R442, R445). -/
def takeFrames (n : Nat) : Nat → State → State
  | 0, s => s
  | k + 1, s =>
    match s.session n with
    | none => s
    | some x =>
      let bs := x.stream
      if bs.length < 16 then s
      else
        let len := fieldNat bs 4 4
        let cmd : Code := BitVec.ofNat 16 (fieldNat bs 0 2)
        let f : Frame := ⟨n, BitVec.ofNat 16 (fieldNat bs 2 2), BitVec.ofNat 64 (fieldNat bs 8 8), (bs.drop 16).take len⟩
        if 16777216 < len then (s.setSession n { x with stream := [] }).answerCmd cmd { f with body := [] } 0x0901
        else if bs.length < 16 + len then s
        else takeFrames n k ((s.setSession n { x with stream := bs.drop (16 + len) }).enqueueFrame x cmd f)

/-- Room in a partition's receive ring for a message of `len` body bytes (R458). -/
def State.nxRoom (s : State) (n : Part) (len : Nat) : Bool :=
  let size := s.regN .nxPRxSize 0 n.val
  let pos := Assoc.getD n 0 s.hp.nxRx
  decide (size ≠ 0) && decide (pos + (32 + len + 31) / 32 * 32 ≤ s.nxCounter (s.regN .nxPRxCtl 0 n.val) 8 + size)

/-- Writes bytes at a position of a ring, going round. -/
def State.ringWrite (s : State) (n : Part) (pos : Nat) (bs : List Byte) : State :=
  let base := s.regN .nxPRxBase 0 n.val
  let size := s.regN .nxPRxSize 0 n.val
  let first := bs.take (size - pos % size)
  let s1 := (s.writeMem (hostAcc n) none (base + pos % size) first).1
  (s1.writeMem (hostAcc n) none base (bs.drop first.length)).1

/-- A whole message is written into the receive ring; PROD rises at the next commit, or at once while the domain is not
enabled (R458). -/
def State.nxStore (s : State) (n : Part) (bs : List Byte) : State :=
  let pos := Assoc.getD n 0 s.hp.nxRx
  let w := bs ++ List.replicate ((32 - bs.length % 32) % 32) 0
  let s1 := (s.ringWrite n pos w).bump .nxReceived 0 0 1
  let s2 := s1.setHp { s1.hp with nxRx := Assoc.put n (pos + w.length) s1.hp.nxRx }
  if s2.enabled n then s2 else s2.nxSetCounter n (s2.regN .nxPRxCtl 0 n.val) 0 (pos + w.length)

/-- The apply of a commit raises PROD of the receive ring (R458). -/
def State.nxPublish (s : State) (n : Part) : State :=
  match Assoc.find n s.hp.nxRx with
  | none => s
  | some pos => s.nxSetCounter n (s.regN .nxPRxCtl 0 n.val) 0 pos

/-- The bytes of a NET packet delivered in order: a message is written once whole. -/
def State.netDeliver (s : State) (n : Nat) (x : Session) (bs : List Byte) : State :=
  let all := x.net ++ bs
  let len := 32 + fieldNat all 4 4
  if all.length < len then s.setSession n { x with net := all, partial_ := x.partial_ + 1 }
  else (s.setSession n { x with net := [], partial_ := 0 }).nxStore (Fin.ofNat 16 (fieldNat all 0 1)) (all.take len)

/-- Whether a NET packet can be taken: the first of a message needs room for the whole of it (R458). -/
def State.netRoom (s : State) (x : Session) (bs : List Byte) : Bool :=
  !x.net.isEmpty || (decide (32 ≤ bs.length) && decide (fieldNat bs 0 1 < 16) && decide (fieldNat bs 4 4 ≤ 65536)
    && s.nxRoom (Fin.ofNat 16 (fieldNat bs 0 1)) (fieldNat bs 4 4))

/-- What an SPDM message of a session does (R441). -/
abbrev SpdmTaker := Nat → List Byte → State → State

/-- Delivers one packet that is next in sequence; false where it cannot be taken yet. -/
def State.deliverPacket (take : SpdmTaker) (s : State) (n : Nat) (x : Session) (q : BitVec 32) (typ : BrosinType)
    (bs : List Byte) : State × Bool :=
  let y := { x with rxSeq := q, ackDue := true }
  match typ with
  | .data =>
    let s1 := s.setSession n { y with stream := x.stream ++ bs }
    (takeFrames n (x.stream.length + bs.length) s1, true)
  | .net => if s.netRoom x bs then ((s.setSession n y).netDeliver n y bs, true) else (s, false)
  | _ => (take n bs (s.setSession n y), true)

/-- Delivers the packets held early that are now next. -/
def deliverEarly (take : SpdmTaker) (n : Nat) : Nat → State → State
  | 0, s => s
  | k + 1, s =>
    match s.session n with
    | none => s
    | some x =>
      match x.early.find? (fun p => decide (p.1 = x.rxSeq + 1)) with
      | none => s
      | some p =>
        let r := State.deliverPacket take s n { x with early := x.early.filter (fun e => decide (e.1 ≠ p.1)) } p.1 p.2.1 p.2.2
        if r.2 then deliverEarly take n k r.1 else s

/-- A sequenced packet: delivered in order, discarded as a duplicate, or held within the window (R438). `own` takes the message of an
SPDM packet that arrives, `take` that of one held before. -/
def State.sequenced (s : State) (own take : SpdmTaker) (h : BrosinHdr) (typ : BrosinType) (payload : List Byte) : State :=
  s.sessionIn h payload (fun t x =>
    let n := h.session
    let ahead := (h.seq - x.rxSeq).toNat
    if ahead = 0 ∨ 2 ^ 31 ≤ ahead then t.setSession n { x with ackDue := true }
    else if ahead = 1 then
      let r := State.deliverPacket own t n x h.seq typ payload
      if r.2 then deliverEarly take n 1024 r.1 else t
    else if 1024 < ahead ∨ x.early.any (fun p => decide (p.1 = h.seq)) then t.setSession n { x with ackDue := true }
    else t.setSession n { x with early := x.early ++ [(h.seq, typ, payload)], ackDue := true })

/-- OPEN_OK (R437, R455): the first net session that waits for one is established under the number given, or gone where it
was refused. -/
def execOpenOk (h : BrosinHdr) (payload : List Byte) : State → Out :=
  lift (fun s => s.frameIn h.prot (fun t =>
    if !h.wellFormed || decide (payload.length < 4) then t.badFrame
    else
      match t.hp.sessions.find? (fun p => !p.2.established) with
      | none => t
      | some (k, x) =>
        let t1 := t.dropSession k
        let len := fieldNat payload 2 2
        if fieldNat payload 0 2 ≠ 0 then
          match x.owner with
          | .net (some p) => t1.netLost p
          | _ => t1
        else
          let t2 := t1.setSession h.session { x with established := true, maxLen := min x.maxLen len, peerWindow := h.window }
          match x.owner with
          | .net (some p) => t2.netSend p
          | _ => t2))

/-- CLOSE (R439). -/
def execClose (h : BrosinHdr) (payload : List Byte) : State → Out :=
  lift (fun s => s.sessionIn h payload (fun t x =>
    let t1 := t.dropSession h.session
    match x.owner with
    | .net (some p) => t1.netLost p
    | _ => t1))

/-- ACK (R438). -/
def execAck (h : BrosinHdr) (payload : List Byte) : State → Out := lift (fun s => s.sessionIn h payload (fun t _ => t))

/-- KEEPALIVE (R439). -/
def execKeepalive (h : BrosinHdr) (payload : List Byte) : State → Out := lift (fun s => s.sessionIn h payload (fun t _ => t))

/-- EVENT_ACK (R454): `SESSION` is the channel. -/
def execEventAck (h : BrosinHdr) (_payload : List Byte) : State → Out :=
  lift (fun s => s.frameIn h.prot (fun t =>
    if !h.wellFormed then t.badFrame
    else
      match t.chan h.session with
      | none => t
      | some c => t.setChan h.session { c with ring := c.ring.filter (fun p => seqAfter p.1 h.ack) }))

/-- ACK_TIMER (R438). -/
def execAckTimer (session : Nat) : State → Out :=
  lift (fun s =>
    match s.session session with
    | none => s
    | some x =>
      if x.ackDue then
        let y := { x with ackDue := false }
        (s.setSession session y).sendBrosin session y .ack 0 0 []
      else s)

/-- Sends the oldest packet of a channel's ring again (R439, R454). -/
def State.resendEvent (s : State) (c : Nat) : State :=
  match (s.chan c).bind (·.ring.head?), s.chan c with
  | some p, some ch =>
    ((s.send (.brosin .event ch.dst (sentHdr .event p.2.length 1 0 0 p.1 c) p.2)).bump .hpTxFrames 0 0 1).bump .hpRetransmits 0 0 1
  | _, _ => s

/-- BROSIN_RTO (R439, R454): the oldest unacknowledged packet is sent again; channel c is named 0x10000 + c (log 2). -/
def execBrosinRto (session : Nat) : State → Out :=
  lift (fun s =>
    if 0x10000 ≤ session then s.resendEvent (session - 0x10000)
    else
      match s.session session with
      | none => s
      | some x =>
        match x.unacked with
        | [] => s
        | (q, typ, bs) :: _ =>
          let y := { x with resends := x.resends + 1, ackDue := false }
          ((s.setSession session y).sendBrosin session y typ 1 q bs).bump .hpRetransmits 0 0 1)

/-- KEEPALIVE_TIMER (R439). -/
def execKeepaliveTimer (session : Nat) : State → Out :=
  lift (fun s =>
    match s.session session with
    | none => s
    | some x =>
      let y := { x with ackDue := false }
      if x.established then (s.setSession session y).sendBrosin session y .keepalive 0 0 [] else s)

/-- SESSION_TIMEOUT (R439, R459). -/
def execSessionTimeout (session : Nat) : State → Out :=
  lift (fun s =>
    match s.session session with
    | none => s
    | some x =>
      let s1 := (s.dropSession session).mgmtReport .hpCode 0x0909 (natBytes 4 session)
      match x.owner with
      | .net (some p) => s1.netLost p
      | _ => s1)

end Sys2Proof.Machine
end

