-- ==== Sys2Proof/Machine/Command.lean ====
section
/-! DEFINITION. How a host command starts (R443 to R446), and the commands NOP, MEM_READ, MEM_WRITE, CHANNEL_OPEN,
CHANNEL_CLOSE, FABRIC_MAP and those of the Pannier (R331, R390, R446 to R454). -/

namespace Sys2Proof.Machine

/-! ## Start -/

/-- The kinds of session a command is allowed on (R446). -/
inductive SessKind | any | part | mgmt
  deriving DecidableEq, Repr

/-- Whether an owner's session is of a kind. -/
def SessOwner.isKind : SessOwner → SessKind → Bool
  | .net _, _ => false
  | _, .any => true
  | .part _, .part => true
  | .mgmt, .mgmt => true
  | _, _ => false

/-- Whether a queued command is this one. -/
def Queued.is (q : Queued) (cmd : Code) (f : Frame) : Bool := decide (q.cmd = cmd ∧ q.frame = f)

/-- Whose command it is: its session's owner, or, where the session is gone, the owner of the queue that holds it (R440). -/
def State.cmdOwner (s : State) (cmd : Code) (f : Frame) : Option SessOwner :=
  match s.sessOwner f.session with
  | some o => some o
  | none =>
    (s.hp.queues.find? (fun p => p.2.any (fun q => q.is cmd f))).map (fun p =>
      match p.1.1 with
      | some n => .part n
      | none => .mgmt)

/-- Whether `QUEUE` names a queue of the owner (R443, R445): a management session has 256 (log 48). -/
def State.queueOk (s : State) (o : SessOwner) (q : Code) : Bool :=
  match o with
  | .part n => decide (q.toNat < s.regN .hpPQueues 0 n.val)
  | _ => decide (q.toNat < 256)

/-- The start of a command (R443 to R445): it must be the first of its queue, or its queue be empty; then the checks of its
session's kind and its queue; then its own effect. -/
def State.startCmd (s : State) (cmd : Code) (f : Frame) (kind : SessKind) (run : State → SessOwner → State) : State :=
  if !s.boot.ready then s
  else
    match s.cmdOwner cmd f with
    | none | some (.net _) => s
    | some o =>
      let k := (o.queueKey, f.queue.toNat)
      let q := s.queue k
      let first := q.isEmpty || q.head?.any (fun x => x.is cmd f && !x.started)
      if !first then
        if q.any (fun x => x.is cmd f) then s
        else if 1024 ≤ q.length then s.answerCmd cmd f 0x0904
        else s.setQueue k (q ++ [⟨cmd, f, false, s.now⟩])
      else
        let s1 := s.setQueue k (⟨cmd, f, true, (q.head?.map (·.arrival)).getD s.now⟩ :: q.tail)
        if !o.isKind kind then s1.complete cmd f 0x0907
        else if !s1.queueOk o f.queue then s1.complete cmd f 0x0906
        else if 16777216 < f.body.length then s1.complete cmd f 0x0901
        else run s1 o

/-- The start of a partition command. -/
def State.partCmd (s : State) (cmd : Code) (f : Frame) (run : State → Part → State) : State :=
  s.startCmd cmd f .part (fun t o =>
    match o with
    | .part n => run t n
    | _ => t)

/-- The start of a management command. -/
def State.mgmtCmd (s : State) (cmd : Code) (f : Frame) (run : State → State) : State := s.startCmd cmd f .mgmt (fun t _ => run t)

/-- NOP (R446). -/
def execHostNop (f : Frame) : State → Out :=
  lift (fun s => s.startCmd 0x0001 f .any (fun t _ => t.complete 0x0001 f (if f.body.isEmpty then 0 else 0x0901)))

/-- A frame with an unassigned `CMD` (R445). -/
def execUnknownCommand (cmd : Code) (f : Frame) : State → Out :=
  lift (fun s => s.startCmd cmd f .any (fun t _ => t.complete cmd f 0x0902))

/-! ## Memory (R447) -/

/-- The committed bytes of a range: where APPEND memory or a page map changed in the running tick, what they held before it
(R58, R288, log 44). -/
def State.committedBytes (s : State) (n : Part) (p : Place) (bs : List Byte) : List Byte :=
  if (s.dom n).before.isEmpty then bs else bs.mapIdx (fun i b => (cellsFind (p.phys + i) (s.dom n).before).getD b)

/-- MEM_READ (R58, R447). -/
def execMemRead (f : Frame) : State → Out :=
  lift (fun s => s.partCmd 0x0050 f (fun t n =>
    let a := fieldNat f.body 0 8
    let len := fieldNat f.body 8 8
    if f.body.length ≠ 16 ∨ 1048576 < len then t.complete 0x0050 f 0x0901
    else if 2 ^ 50 ≤ a then t.complete 0x0050 f 0x0601
    else
      let r := t.readMem (hostAcc n) a len
      match r.2, t.place (hostAcc n) a len false with
      | .error e, _ => r.1.complete 0x0050 f e
      | .ok bs, .ok p => r.1.complete 0x0050 f 0 (t.committedBytes n p bs)
      | .ok bs, .error _ => r.1.complete 0x0050 f 0 bs))

/-- MEM_WRITE (R447). -/
def execMemWrite (f : Frame) : State → Out :=
  lift (fun s => s.partCmd 0x0051 f (fun t n =>
    let a := fieldNat f.body 0 8
    let bs := f.body.drop 8
    if f.body.length < 8 ∨ 1048576 < bs.length then t.complete 0x0051 f 0x0901
    else if 2 ^ 50 ≤ a then t.complete 0x0051 f 0x0601
    else if bs.isEmpty then t.complete 0x0051 f 0
    else
      match t.place (hostAcc n) a bs.length true with
      | .error e => (t.accessFails a e).complete 0x0051 f e
      | .ok p =>
        if p.cls ≠ 0 ∧ t.enabled n then t.complete 0x0051 f 0x0903
        else
          let r := t.writeMem (hostAcc n) none a bs
          match r.2 with
          | .error e => r.1.complete 0x0051 f e
          | .ok () => r.1.complete 0x0051 f 0))

/-! ## Event channels (R451, R452) -/

/-- The partition that owns a session's channels. -/
def SessOwner.chanOwner : SessOwner → Option Part
  | .part n => some n
  | _ => none

/-- An IPv6 address in network order, from its 16 bytes. -/
def addrOf (bs : List Byte) : BitVec 128 := BitVec.ofNat 128 (bytesNat bs.reverse)

/-- CHANNEL_OPEN (R452). -/
def execChannelOpen (f : Frame) : State → Out :=
  lift (fun s => s.startCmd 0x0060 f .any (fun t o =>
    let b := f.body
    let c := fieldNat b 0 4
    let ring := fieldNat b 8 4
    if b.length ≠ 32 ∨ 4096 ≤ c ∨ fieldNat b 6 2 ≠ 0 ∨ fieldNat b 12 4 ≠ 0 ∨ ring = 0 ∨ 256 < ring then
      t.complete 0x0060 f 0x0901
    else if (t.chan c).isSome then t.complete 0x0060 f 0x0903
    else
      (t.setChan c { owner := o.chanOwner, dst := addrOf (b.drop 16), port := fieldNat b 4 2, ringBytes := ring * 1048576,
                     nextSeq := 1, ring := [] }).complete 0x0060 f 0))

/-- CHANNEL_CLOSE (R452). -/
def execChannelClose (f : Frame) : State → Out :=
  lift (fun s => s.startCmd 0x0061 f .any (fun t o =>
    let c := fieldNat f.body 0 4
    if f.body.length ≠ 4 then t.complete 0x0061 f 0x0901
    else if !((t.chan c).any (fun x => decide (x.owner = o.chanOwner)))
        || t.sv.entries.any (fun e => decide (e.2.state ≠ .free) && decide (e.2.channel = c)) then
      t.complete 0x0061 f 0x0903
    else (t.setHp { t.hp with channels := Assoc.del c t.hp.channels }).complete 0x0061 f 0))

/-! ## The fabric map (R390) -/

/-- FABRIC_MAP (R390). -/
def execFabricMap (f : Frame) : State → Out :=
  lift (fun s => s.mgmtCmd 0x0070 f (fun t =>
    if mapBad f.body then (t.setReg .fabCode 0 0 0x0812).complete 0x0070 f 0x0812
    else if mapSelf f.body ≠ some t.self ∧ !t.allDisabled then t.complete 0x0070 f 0x0903
    else (t.installMap f.body).complete 0x0070 f 0))

/-! ## The Pannier (R331) -/

/-- PN_LOAD (R331, R332). -/
def execPnLoad (f : Frame) : State → Out :=
  lift (fun s => s.partCmd 0x0040 f (fun t n =>
    let k := f.body.length / 32
    if f.body.length % 32 ≠ 0 ∨ k = 0 ∨ 256 < k then t.complete 0x0040 f 0x0901
    else
      let r := t.pnLoadAll n ((List.range k).map (fun i => pnRecord ((f.body.drop (32 * i)).take 32)))
      r.1.complete 0x0040 f r.2))

/-- A range and a die mask, 16 bytes (log 45). -/
def pnRangeBad (b : List Byte) : Bool := decide (b.length ≠ 16) || decide (fieldNat b 13 3 ≠ 0)

/-- PN_PIN (R331). -/
def execPnPin (f : Frame) : State → Out :=
  lift (fun s => s.partCmd 0x0041 f (fun t n =>
    if pnRangeBad f.body then t.complete 0x0041 f 0x0901
    else
      let r := t.pnSetPin n (fieldNat f.body 0 8) (fieldNat f.body 8 4) (f.body.getD 12 0) true
      r.1.complete 0x0041 f r.2))

/-- PN_UNPIN (R331). -/
def execPnUnpin (f : Frame) : State → Out :=
  lift (fun s => s.partCmd 0x0042 f (fun t n =>
    if pnRangeBad f.body then t.complete 0x0042 f 0x0901
    else
      let r := t.pnSetPin n (fieldNat f.body 0 8) (fieldNat f.body 8 4) (f.body.getD 12 0) false
      r.1.complete 0x0042 f r.2))

/-- PN_DROP (R331). -/
def execPnDrop (f : Frame) : State → Out :=
  lift (fun s => s.partCmd 0x0043 f (fun t n =>
    let b := f.body
    if b.length ≠ 16 ∨ 1 < fieldNat b 13 1 then t.complete 0x0043 f 0x0901
    else
      let range := if fieldNat b 13 1 = 0 then some (fieldNat b 0 8, fieldNat b 8 4) else none
      let r := t.pnDropAll n range (BitVec.ofNat 16 (fieldNat b 14 2)) (b.getD 12 0)
      r.1.complete 0x0043 f r.2))

/-- The state codes of an item in PN_QUERY (log 45). -/
def PnState.code : PnState → Nat
  | .queued => 0
  | .filling => 1
  | .valid => 2

/-- An item in PN_QUERY's answer (log 45). -/
def PnItem.record (i : PnItem) : List Byte :=
  natBytes 8 i.src ++ natBytes 4 i.bytes ++ natBytes 1 i.state.code ++ natBytes 1 i.prio ++ natBytes 1 (bitN i.pin) ++ [0]
    ++ natBytes 2 i.version.toNat ++ natBytes 6 0 ++ wordBytes i.lastHit

/-- PN_QUERY (R331). -/
def execPnQuery (f : Frame) : State → Out :=
  lift (fun s => s.partCmd 0x0044 f (fun t _ =>
    let d := fieldNat f.body 0 4
    if h : f.body.length = 4 ∧ d < 8 then
      t.complete 0x0044 f 0 ((t.pnDir ⟨d, h.2⟩).flatMap PnItem.record)
    else t.complete 0x0044 f 0x0901))

end Sys2Proof.Machine
end

