-- ==== Sys2Proof/Machine/Crypt.lean ====
section
/-! DEFINITION. The published algorithms that the trust rules name: ECDSA and ECDH on P-384 (R356, R565, R568, R574), LMS
signatures as RFC 8554 defines them (R356), and AES-256-GCM (R574). -/

namespace Sys2Proof.Machine

/-! ## The curve NIST P-384 -/

/-- The field, the constant, the order and the base point of the curve (R550, log 60). -/
def p384 : Nat := 2 ^ 384 - 2 ^ 128 - 2 ^ 96 + 2 ^ 32 - 1
def p384b : Nat := 0xb3312fa7e23ee7e4988e056be3f82d19181d9c6efe8141120314088f5013875ac656398d8a2ed19d2a85c8edd3ec2aef
def p384n : Nat := 0xffffffffffffffffffffffffffffffffffffffffffffffffc7634d81f4372ddf581a0db248b0a77aecec196accc52973
def p384gx : Nat := 0xaa87ca22be8b05378eb1c71ef320ad746e1d3b628ba79b9859f741e082542a385502f25dbf55296c3a545e3872760ab7
def p384gy : Nat := 0x3617de4a96262c6f5d9e98bf9292dc29f8f41dbd289a147ce9da3113b5f0b8c00a60b1ce1d7e819d7a431d7c90ea0e5f

/-- A point in projective form, affine (x / z², y / z³); z = 0 is the point at infinity. -/
structure CurvePoint where
  x : Nat
  y : Nat
  z : Nat
  deriving DecidableEq, Repr

/-- Subtraction in the field. -/
def subP (a b : Nat) : Nat := (a + p384 - b % p384) % p384

/-- The bits of a 384-bit number, most significant first. -/
def bits384 (k : Nat) : List Bool := (List.range 384).map (fun i => Nat.testBit k (383 - i))

/-- A power modulo `m`, for exponents of 384 bits. -/
def powMod (m b e : Nat) : Nat :=
  (bits384 e).foldl (fun r bit => let q := r * r % m; if bit then q * b % m else q) 1

/-- Twice a point. -/
def CurvePoint.dbl (p : CurvePoint) : CurvePoint :=
  let zz := p.z * p.z % p384
  let m := 3 * subP p.x zz * (p.x + zz) % p384
  let yy := p.y * p.y % p384
  let s := 4 * p.x * yy % p384
  let x := subP (m * m) (2 * s)
  { x := x, y := subP (m * subP s x) (8 * yy * yy), z := 2 * p.y * p.z % p384 }

/-- The sum of two points. -/
def CurvePoint.add (p q : CurvePoint) : CurvePoint :=
  let zp := p.z * p.z % p384
  let zq := q.z * q.z % p384
  let u1 := p.x * zq % p384
  let u2 := q.x * zp % p384
  let s1 := p.y * zq * q.z % p384
  let s2 := q.y * zp * p.z % p384
  if p.z = 0 then q
  else if q.z = 0 then p
  else if u1 = u2 then (if s1 = s2 then p.dbl else { x := 1, y := 1, z := 0 })
  else
    let h := subP u2 u1
    let r := subP s2 s1
    let hh := h * h % p384
    let hhh := h * hh % p384
    let v := u1 * hh % p384
    let x := subP (r * r) (hhh + 2 * v)
    { x := x, y := subP (r * subP v x) (s1 * hhh), z := p.z * q.z * h % p384 }

/-- A multiple of a point. -/
def CurvePoint.mul (k : Nat) (p : CurvePoint) : CurvePoint :=
  (bits384 k).foldl (fun r bit => if bit then r.dbl.add p else r.dbl) { x := 1, y := 1, z := 0 }

/-- The affine coordinates of a point other than infinity. -/
def CurvePoint.affine (p : CurvePoint) : Nat × Nat :=
  let i := powMod p384 p.z (p384 - 2)
  (p.x * i * i % p384, p.y * i * i * i % p384)

/-- The base point. -/
def basePoint : CurvePoint := { x := p384gx, y := p384gy, z := 1 }

/-- The point that 97 uncompressed bytes give. -/
def keyPoint (k : List Byte) : CurvePoint := { x := bytesBig (sub k 1 48), y := bytesBig (sub k 49 48), z := 1 }

/-- Whether 97 bytes are an uncompressed point of P-384 (R565). -/
def onCurve (k : List Byte) : Bool :=
  let q := keyPoint k
  decide (k.length = 97) && decide (k.head? = some 4) && decide (q.x < p384) && decide (q.y < p384)
    && decide (q.y * q.y % p384 = (q.x * q.x * q.x + (p384 - 3) * q.x + p384b) % p384)

/-- Whether an ECDSA P-384 signature, r then s, over a message with SHA-384 verifies under a key (R356, R568). -/
def ecdsaVerify (key msg sig : List Byte) : Bool :=
  let r := bytesBig (sub sig 0 48)
  let s := bytesBig (sub sig 48 48)
  let z := bytesBig (sha384 msg)
  let w := powMod p384n s (p384n - 2)
  let sum := (CurvePoint.mul (z * w % p384n) basePoint).add (CurvePoint.mul (r * w % p384n) (keyPoint key))
  onCurve key && decide (sig.length = 96) && decide (0 < r ∧ r < p384n) && decide (0 < s ∧ s < p384n)
    && decide (sum.z ≠ 0) && decide (sum.affine.1 % p384n = r)

/-- The x-coordinate of ECDH between a secret number and a public key (R574). -/
def ecdhX (secret : Nat) (key : List Byte) : List Byte := bigBytes 48 ((keyPoint key).mul secret).affine.1

/-- The public key of a secret number, uncompressed. -/
def publicKey (secret : Nat) : List Byte :=
  let a := (basePoint.mul secret).affine
  [4] ++ bigBytes 48 a.1 ++ bigBytes 48 a.2

/-! ## LMS_SHA256_M32_H15 with LMOTS_SHA256_N32_W4 (R356) -/

/-- The end of a Winternitz chain: the hash applied for steps `j` to 14. -/
def lmotsChain (pre : List Byte) (j : Nat) (v : List Byte) : List Byte :=
  (List.range (15 - j)).foldl (fun t k => sha256 (pre ++ bigBytes 1 (j + k) ++ t)) v

/-- The 67 digits of a digest and its checksum, 4 bits each, high digit first. -/
def lmotsDigits (q : List Byte) : List Nat :=
  let d := q.flatMap (fun b => [b.toNat / 16, b.toNat % 16])
  let c := (d.map (fun x => 15 - x)).sum * 16
  d ++ [c / 4096 % 16, c / 256 % 16, c / 16 % 16]

/-- The candidate one-time public key of a one-time signature. -/
def lmotsKey (id q : List Byte) (msg ots : List Byte) : List Byte :=
  let digest := sha256 (id ++ q ++ [0x81, 0x81] ++ sub ots 4 32 ++ msg)
  sha256 (id ++ q ++ [0x80, 0x80] ++ ((lmotsDigits digest).zipIdx).flatMap (fun (a, i) =>
    lmotsChain (id ++ q ++ bigBytes 2 i) a (sub ots (36 + 32 * i) 32)))

/-- The root that a leaf and its path give: at each of the 15 levels the node is the left or the right child. -/
def lmsRoot (id : List Byte) (leaf : Nat) (node path : List Byte) : List Byte :=
  (List.range 15).foldl (fun t i =>
    let n := (32768 + leaf) / 2 ^ i
    let p := sub path (32 * i) 32
    sha256 (id ++ bigBytes 4 (n / 2) ++ [0x83, 0x83] ++ (if n % 2 = 1 then p ++ t else t ++ p))) node

/-- Whether an LMS signature of 2,668 bytes verifies under a key of 56 bytes: the type codes, then the root (R356). -/
def lmsVerify (key msg sig : List Byte) : Bool :=
  let id := sub key 8 16
  let q := sub sig 0 4
  let leaf := bytesBig q
  let ots := sub sig 4 2180
  let node := sha256 (id ++ bigBytes 4 (32768 + leaf) ++ [0x82, 0x82] ++ lmotsKey id q msg ots)
  decide (key.length = 56) && decide (sig.length = 2668) && decide (sub key 0 8 = [0, 0, 0, 7, 0, 0, 0, 3])
    && decide (sub ots 0 4 = [0, 0, 0, 3]) && decide (sub sig 2184 4 = [0, 0, 0, 7]) && decide (leaf < 32768)
    && decide (lmsRoot id leaf node (sub sig 2188 480) = sub key 24 32)

/-! ## AES-256-GCM (R574) -/

/-- Multiplication in the field of GHASH, on blocks as big-endian numbers of 128 bits. -/
def ghashMul (x y : BitVec 128) : BitVec 128 :=
  ((List.range 128).foldl (fun (r : BitVec 128 × BitVec 128) i =>
    (if x.getLsbD (127 - i) then r.1 ^^^ r.2 else r.1,
     (r.2 >>> 1) ^^^ (if r.2.getLsbD 0 then BitVec.ofNat 128 (0xe1 * 2 ^ 120) else 0))) (0, y)).1

/-- Bytes filled with zeros to whole blocks. -/
def fill16 (bs : List Byte) : List Byte := bs ++ List.replicate ((16 - bs.length % 16) % 16) 0

/-- The hash of some whole blocks. -/
def ghash (h : BitVec 128) (bs : List Byte) : BitVec 128 :=
  (List.range (bs.length / 16)).foldl (fun y i => ghashMul (y ^^^ BitVec.ofNat 128 (bytesBig (sub bs (16 * i) 16))) h) 0

/-- The bytes of AES-256-GCM under a key and a 12-byte nonce: the counter stream over the input, and the tag of a ciphertext with
additional data. -/
def gcmStream (key nonce bs : List Byte) : List Byte :=
  let ws := aesWords key
  (List.range ((bs.length + 15) / 16)).flatMap (fun i =>
    xorBytes (sub bs (16 * i) 16) (aesBlock ws (nonce ++ bigBytes 4 (i + 2))))
def gcmTag (key nonce aad cipher : List Byte) : List Byte :=
  let ws := aesWords key
  let h := BitVec.ofNat 128 (bytesBig (aesBlock ws (List.replicate 16 0)))
  let y := ghash h (fill16 aad ++ fill16 cipher ++ bigBytes 8 (8 * aad.length) ++ bigBytes 8 (8 * cipher.length))
  xorBytes (bigBytes 16 y.toNat) (aesBlock ws (nonce ++ [0, 0, 0, 1]))

/-- The plaintext, or none where the tag does not verify. -/
def gcmOpen (key nonce aad cipher tag : List Byte) : Option (List Byte) :=
  if gcmTag key nonce aad cipher = tag then some (gcmStream key nonce cipher) else none

end Sys2Proof.Machine
end

