-- ==== Sys2Proof/Machine/Weights.lean ====
section
/-! DEFINITION. Weight supply and version switching (10): manifests, shard fetches, version slots, the master's changes to
them, and the MODEL commands. -/

namespace Sys2Proof.Machine

/-! ## Slots -/

/-- A version slot. -/
def State.slot (s : State) (n : Part) (i : Fin 8) : Option Version := Assoc.find (n, i) s.wt

/-- Replaces a version slot. -/
def State.setVer (s : State) (n : Part) (i : Fin 8) (v : Version) : State := { s with wt := Assoc.put (n, i) v s.wt }

/-- The slot that holds a version number (R353). -/
def State.slotOf (s : State) (n : Part) (number : Code) : Option (Fin 8 × Version) :=
  (List.finRange 8).findSome? (fun i => (s.slot n i).bind (fun v => if v.number = number then some (i, v) else none))

/-- Changes the version of a number. -/
def State.updVer (s : State) (n : Part) (number : Code) (f : Version → Version) : State :=
  match s.slotOf n number with
  | none => s
  | some (i, v) => s.setVer n i (f v)

/-- The lowest FREE slot. -/
def State.freeSlot (s : State) (n : Part) : Option (Fin 8) := (List.finRange 8).find? (fun i => (s.slot n i).isNone)

/-- The ACTIVE version of a partition (R353). -/
def State.activeVer (s : State) (n : Part) : Option (Fin 8 × Version) :=
  (List.finRange 8).findSome? (fun i => (s.slot n i).bind (fun v => if v.state = .active then some (i, v) else none))

/-- Removes the unpinned Pannier items of a version on every die (R365). -/
def State.pnForget (s : State) (n : Part) (number : Code) : State :=
  (List.finRange 8).foldl (fun t d =>
    t.setPn d (pnStart ((t.pnDir d).filter (fun i =>
      !(decide (i.part = n) && decide (i.version = number) && !i.pin))))) s

/-- A slot becomes FREE: its fetches stop, and unpinned Pannier items of the version go (R353, R365, R373). -/
def State.freeVer (s : State) (n : Part) (i : Fin 8) (number : Code) : State :=
  State.pnForget { s with wt := Assoc.del (n, i) s.wt } n number

/-! ## Manifests (R355, R356) -/

/-- The shard and source counts of a manifest, and where its sources and its signature block begin. -/
def manShards (b : List Byte) : Nat := fieldNat b 8 4
def manSources (b : List Byte) : Nat := fieldNat b 13 1
def manSourceAt (b : List Byte) : Nat := 64 + 96 * manShards b
def manSigAt (b : List Byte) : Nat := manSourceAt b + 64 * manSources b

/-- A shard record. -/
def shardOf (r : List Byte) : Shard :=
  { digest := r.take 48, dest := fieldNat r 48 8, mask := bytesWord (sub r 56 8), off := fieldNat r 64 8,
    bytes := fieldNat r 72 4, reader := fieldNat r 78 1, primary := fieldNat r 79 1 }

/-- A source record. -/
def sourceOf (r : List Byte) : SourceRec :=
  { addr := addrOf (r.take 16), port := fieldNat r 16 2, onModule := decide (fieldNat r 18 1 = 1),
    object := BitVec.ofNat 128 (fieldNat r 32 16) }

/-- The shard records, and the source records, of a manifest as bytes. -/
def shardRecs (b : List Byte) : List (List Byte) := (List.range (manShards b)).map (fun i => sub b (64 + 96 * i) 96)
def sourceRecs (b : List Byte) : List (List Byte) :=
  (List.range (manSources b)).map (fun i => sub b (manSourceAt b + 64 * i) 64)

/-- Whether a shard record breaks R355. -/
def shardBad (sources : Nat) (r : List Byte) : Bool :=
  let k := shardOf r
  !zeros (sub r 80 16) || !zeros (sub r 76 2) || decide (sources ≤ k.primary) || decide (64 ≤ k.reader)
    || decide (k.bytes % 4096 ≠ 0) || decide (k.bytes < 4096) || decide (2 ^ 30 < k.bytes) || decide (k.off % 4096 ≠ 0)
    || decide (k.dest % 4096 ≠ 0)

/-- Whether a source record breaks R355. -/
def sourceBad (r : List Byte) : Bool :=
  !zeros (sub r 48 16) || !zeros (sub r 19 13) || decide (1 < fieldNat r 18 1)
    || (decide (fieldNat r 18 1 = 1) && (!zeros (r.take 18) || !zeros (sub r 40 8)))

/-- Check 1 of R357. -/
def manifestBad (slice : Word) (b : List Byte) : Bool :=
  let n := manShards b
  let q := manSources b
  decide (b.length < 64) || decide (n = 0 ∨ 65536 < n) || decide (q = 0 ∨ 4 < q) || decide (b.length ≠ manSigAt b + 2816)
    || decide (fieldNat b 0 4 ≠ 0x4B53574D) || decide (fieldNat b 4 2 ≠ 1) || decide (fieldNat b 6 2 = 0)
    || decide (fieldNat b 12 1 ≠ 0) || !zeros (sub b 14 18) || decide (bytesWord (sub b 32 8) ≠ slice)
    || decide (fieldNat b 40 8 ≠ ((shardRecs b).map (fun r => (shardOf r).bytes)).sum)
    || (shardRecs b).any (shardBad q) || (sourceRecs b).any sourceBad

/-- The manifest keys of a partition: 160 bytes under R567, empty for none. -/
def State.manifestKey (s : State) (n : Part) : List Byte := Assoc.getD n [] s.trust.manifestKeys

/-- Whether both signatures of a manifest verify (R356). -/
def State.manifestSigned (s : State) (n : Part) (b : List Byte) : Bool :=
  let k := s.manifestKey n
  let body := b.take (manSigAt b)
  let sig := b.drop (manSigAt b)
  !k.isEmpty && zeros (sub sig 2764 52) && ecdsaVerify (k.take 97) body (sig.take 96)
    && lmsVerify (sub k 100 56) body (sub sig 96 2668)

/-- The version a manifest describes, LOADING and with nothing fetched. -/
def manVersion (b : List Byte) (timeout : Nat) : Version :=
  { number := BitVec.ofNat 16 (fieldNat b 6 2), state := .loading, model := sub b 48 16, shards := (shardRecs b).map shardOf,
    sources := (sourceRecs b).map sourceOf, timeoutMs := timeout, fetches := [], verified := [], repairs := [], dropped := false }

/-! ## Placement (R358) -/

/-- Whether a shard's mask names a module. -/
def Shard.keeps (k : Shard) (m : ModIx) : Bool := k.mask.getLsbD m.val

/-- Whether a range lies in one region of the partition in close memory or in one CXL port's windows. -/
def State.tierRange (s : State) (n : Part) (a len : Nat) (write : Bool) : Bool :=
  match s.place (hostAcc n) a len write with
  | .error _ => false
  | .ok p =>
    match p.space with
    | .close => true
    | .cxl _ => true
    | _ => false

/-- The ranges that a module holds of a list of shards. -/
def rangesOf (m : ModIx) (l : List Shard) : List (Nat × Nat) :=
  (l.filter (fun k => k.keeps m)).map (fun k => (k.dest, k.bytes))

/-- Whether ranges overlap in pairs. -/
def clash : List (Nat × Nat) → Bool
  | [] => false
  | r :: l => l.any (fun q => overlaps r.1 r.2 q.1 q.2) || clash l

/-- Whether a shard is placed on this module as R358 says. -/
def State.shardPlaced (s : State) (n : Part) (sources : List SourceRec) (k : Shard) : Bool :=
  (List.finRange 64).all (fun m => !k.keeps m || (s.members n).contains m) && k.mask.getLsbD k.reader
    && s.tierRange n k.dest k.bytes true
    && (decide (k.reader ≠ s.self.val) || sources.all (fun q =>
      let a := q.object.toNat % 2 ^ 64 + k.off
      !q.onModule || (s.regionAt a |>.any (fun r => decide (r.part = n) && decide (a + k.bytes ≤ r.base + r.size)))
        && !overlaps a k.bytes k.dest k.bytes))

/-- Whether a version's placement holds on this module (R358). -/
def State.placed (s : State) (n : Part) (v : Version) : Bool :=
  let mine := v.shards.filter (fun k => k.keeps s.self)
  let others := (s.wt.filter (fun p => decide (p.1.1 = n))).flatMap (fun p => rangesOf s.self p.2.shards)
  mine.all (s.shardPlaced n v.sources) && !clash (rangesOf s.self v.shards)
    && !(rangesOf s.self v.shards).any (fun r => others.any (fun q => overlaps r.1 r.2 q.1 q.2))

/-! ## Changes to the slot table (R354) -/

/-- The module that orders a partition's changes (R46, R53). -/
def State.orders (s : State) (n : Part) : ModIx := if s.enabled n then (s.dom n).master else s.firstMaster n

/-- The codes under which READY and FAILED travel in an intake: the spec gives these changes no frame (log 49). -/
def changeReady : Code := 0x0708
def changeFailed : Code := 0x0704

/-- Whether a command changes the slot table, and so is applied at once while the domain is disabled (R354). -/
def versionCmd (c : Code) : Bool := [0x0030, 0x0031, 0x0032, 0x0708, 0x0704].contains c

/-- The phase in which this module starts a shard: the reader waits for a fetch slot, the others for the reader's bytes. -/
def State.newFetch (s : State) (k : Shard) : Fetch :=
  ⟨if k.reader = s.self.val then .queued else .reading, 0, 0, 0, false, false, false⟩

/-- The application of a load: the version takes the lowest FREE slot (R357). -/
def State.applyLoad (s : State) (h : HostCmd) (number : Code) : State :=
  let n := h.part
  match s.loads.find? (fun l => decide (l.part = n ∧ l.number = number)) with
  | none => s
  | some l =>
    let s1 := { s with loads := s.loads.filter (fun x => decide (¬(x.part = n ∧ x.number = number))) }
    if (s1.slotOf n number).isSome then s1.completeFwd h 0x0903
    else
      match s1.freeSlot n with
      | none => s1.completeFwd h 0x0705
      | some i =>
        let v := manVersion l.bytes l.timeoutMs
        let fs := (v.shards.mapIdx (fun j k => (j, k))).filterMap (fun p =>
          if p.2.keeps s.self then some (p.1, s.newFetch p.2) else none)
        (s1.setVer n i { v with fetches := fs }).completeFwd h 0

/-- Whether an entry is live: QUEUED, PREFILL or DECODE. -/
def Entry.live (e : Entry) : Bool := decide (e.state = .queued ∨ e.state = .prefill ∨ e.state = .decode)

/-- CUT at the application of an activation: live entries take the new version, their pages are flagged (R289, R370). -/
def State.cutEntries (s : State) (n : Part) (number : Code) : State :=
  let hit := s.sv.entries.filter (fun p =>
    decide (p.2.part = n) && p.2.live && decide (p.2.version ≠ 0) && decide (p.2.version ≠ number))
  hit.foldl (fun t p =>
    (List.finRange 8).foldl (State.cutDie n p.1) (t.putEntry p.1 { p.2 with version := number, cut := true })) s

/-- The application of MODEL_ACTIVATE (R367, R370): the versions that ran become RETIRING. -/
def State.applyActivate (s : State) (h : HostCmd) (number : Code) (policy : Nat) : State :=
  let n := h.part
  match s.slotOf n number with
  | none => s.completeFwd h 0x0706
  | some (i, v) =>
    match v.state with
    | .loading => s.completeFwd h 0x0903
    | .failed => s.completeFwd h 0x0704
    | .active => s.completeFwd h 0
    | _ =>
      let old := s.activeVer n
      let s1 := match old with
        | none => s
        | some (j, w) => s.setVer n j { w with state := .retiring }
      let s2 := s1.setVer n i { v with state := .active }
      let s3 := if policy = 1 then s2.cutEntries n number else s2
      let note := (number, (old.map (fun p => p.2.number)).getD 0, policy)
      let s4 := if s.enabled n then
          let x := s3.svPart n
          s3.setSvPart n { x with switched := x.switched ++ [note] }
        else s3.partEvent n 0x0709 (natBytes 2 note.1.toNat ++ natBytes 2 note.2.1.toNat ++ natBytes 1 policy)
      s4.completeFwd h 0

/-- The application of MODEL_DROP (R373); a version under repair becomes FREE when the repair has ended (R366, log 75). -/
def State.applyDrop (s : State) (h : HostCmd) (number : Code) : State :=
  match s.slotOf h.part number with
  | none => s.completeFwd h 0x0706
  | some (i, v) =>
    match v.state with
    | .active | .retiring => s.completeFwd h 0x0903
    | _ => (if v.repairs.isEmpty then s.freeVer h.part i number else s.setVer h.part i { v with dropped := true }).completeFwd h 0

/-- The application of READY (R363). -/
def State.applyReady (s : State) (n : Part) (number : Code) : State :=
  match s.slotOf n number with
  | some (i, v) =>
    if v.state = .loading then (s.setVer n i { v with state := .ready }).partEvent n 0x0708 (natBytes 2 number.toNat) else s
  | none => s

/-- The application of an unrecoverable shard: FAILED, every fetch stops, event 0x0704 (R363). -/
def State.applyFailed (s : State) (n : Part) (number : Code) (shard : Nat) : State :=
  match s.slotOf n number with
  | some (i, v) =>
    if v.state = .loading then
      (s.setVer n i { v with state := .failed, fetches := v.fetches.filter (fun x => decide (x.2.phase = .verified)) }).partEvent n 0x0704
        (natBytes 2 number.toNat ++ natBytes 4 shard)
    else s
  | none => s

/-- The application of a change to the slot table. -/
def State.applyVersion (s : State) (h : HostCmd) : State :=
  let b := h.frame.body
  let number := BitVec.ofNat 16 (fieldNat b 0 4)
  if h.cmd = 0x0030 then s.applyLoad h (BitVec.ofNat 16 (fieldNat b 16 2))
  else if h.cmd = 0x0031 then s.applyActivate h number (fieldNat b 4 4)
  else if h.cmd = 0x0032 then s.applyDrop h number
  else if h.cmd = changeReady then s.applyReady h.part number
  else s.applyFailed h.part number (fieldNat b 4 4)

/-! ## The master's intake (R277, R354) -/

/-- A command frame as bytes (R442). -/
def frameBytes (cmd : Code) (f : Frame) : List Byte :=
  natBytes 2 cmd.toNat ++ natBytes 2 f.queue.toNat ++ natBytes 4 f.body.length ++ wordBytes f.cmdId ++ f.body

/-- Sends an intake to the other modules of a slice (R278, R417). -/
def State.sendIntake (s : State) (n : Part) (m : Mgmt) (cmds : List HostCmd) : State :=
  let dst := s.otherMembers n
  if dst.isEmpty then s
  else (s.send (.intake dst m cmds)).onMgmt n dst (mgmtBody .intake m ++ cmds.flatMap (fun h => frameBytes h.cmd h.frame))

/-- The next tick whose admission is open: the running tick's successor, or the one after once its batch is built. -/
def State.openTick (s : State) (n : Part) : Nat :=
  let d := s.dom n
  let next := if d.state = .starting then d.tick else d.tick + 1
  if (s.svPart n).next.isSome then next + 1 else next

/-- T(k) of R37. -/
def State.tickTime (s : State) (n : Part) (k : Nat) : Nat :=
  let p := s.regN .cadDomPeriod 0 n.val * 1000
  s.regN .cadDomEpoch 0 n.val + (k - s.regN .cadDomTick 0 n.val) * p + s.regN .cadDomShift 0 n.val

/-- When admission for a tick closes, in ns (R64). -/
def State.closeTime (s : State) (n : Part) (k : Nat) : Nat := s.tickTime n k - s.regN .cadDomAdmLead 0 n.val * 1000

/-- The tick whose intake takes a command that reaches the master now (R277). -/
def State.intakeTick (s : State) (n : Part) : Nat :=
  let k := s.openTick n
  if s.now.toNat + s.cfgN .svIntakeGuard * 1000 ≤ s.closeTime n k then k else k + 1

/-- The master takes a command: into an intake, or, for a change to the slot table while the domain is disabled, to every
module at once (R277, R354). -/
def State.masterTake (s : State) (h : HostCmd) : State :=
  let n := h.part
  if s.enabled n then
    let x := s.svPart n
    s.setSvPart n { x with gathered := x.gathered ++ [(s.intakeTick n, h)] }
  else if versionCmd h.cmd then
    (s.sendIntake n { s.mgmt n with hash := 0 } [h]).applyVersion h
  else
    let x := s.svPart n
    s.setSvPart n { x with gathered := x.gathered ++ [(0, h)] }

/-- Changes to the slot table that wait for an intake when the domain stops being enabled are applied at once, in the order in
which they reached the master, which broadcasts them (R354). -/
def State.flushVersions (s : State) (n : Part) : State :=
  let x := s.svPart n
  let due := (x.gathered.filter (fun g => versionCmd g.2.cmd)).map (·.2)
  let held := x.intakes.flatMap (fun g => g.2.2.filter (fun h => versionCmd h.cmd))
  let s1 := s.setSvPart n { x with
    gathered := x.gathered.filter (fun g => !versionCmd g.2.cmd),
    intakes := x.intakes.map (fun g => (g.1, g.2.1, g.2.2.filter (fun h => !versionCmd h.cmd))) }
  let s2 := if due.isEmpty then s1 else s1.sendIntake n { s1.mgmt n with hash := 0 } due
  (held ++ due).foldl State.applyVersion s2

/-- A change that the master itself orders, with its number and shard (log 49). -/
def State.masterChange (s : State) (n : Part) (code number : Code) (shard : Nat) : State :=
  s.masterTake { cmd := code, part := n, origin := s.self, arrival := s.now,
                 frame := ⟨0, 0, 0, natBytes 4 number.toNat ++ natBytes 4 shard⟩ }

/-! ## Reports (R357, R363, R366) -/

/-- A report message (R417). -/
def State.reportMsg (s : State) (n : Part) (code : Code) : Mgmt := { s.mgmt n with module := s.self.val, code := code }

/-- The data of a report: version in bytes 1:0, shard in bytes 5:2. -/
def reportData (number : Code) (shard : Nat) : List Word := [bytesWord (natBytes 2 number.toNat ++ natBytes 4 shard ++ [0, 0])]

/-- A load that some module cannot place changes nothing: it is forgotten, and the command completes at the module that received
it (R357). -/
def State.loadRefused (s : State) (n : Part) (number : Code) : State :=
  let mine (l : Load) : Bool := decide (l.part = n ∧ l.number = number)
  let s1 := { s with loads := s.loads.filter (fun l => !mine l) }
  match (s.loads.find? mine).bind (·.cmd) with
  | some h => if h.origin = s.self then s1.complete h.cmd h.frame 0x0703 else s1
  | none => s1

/-- Every module of the slice has reported the placement of a load: refused where one failed, else in the intake (R357). -/
def State.loadReported (s : State) (n : Part) (number : Code) : State :=
  match s.loads.find? (fun l => decide (l.part = n ∧ l.number = number)) with
  | none => s
  | some l =>
    match l.cmd with
    | none => s
    | some h =>
      if !(s.members n).all (fun m => l.reports.any (fun r => decide (r.1 = m))) then s
      else if l.reports.all (fun r => decide (r.2 = 0)) then s.masterTake h
      else
        (s.sendMgmt .report (s.otherMembers n) (s.reportMsg n 0x0703) (reportData number 0)).loadRefused n number

/-- The modules that keep a shard. -/
def Shard.keepers (k : Shard) : List ModIx := (List.finRange 64).filter k.keeps

/-- Whether every module has verified every shard it keeps. -/
def Version.complete (v : Version) : Bool :=
  (v.shards.mapIdx (fun j k => (j, k))).all (fun p => p.2.keepers.all (fun m => v.verified.contains (m, p.1)))

/-- Ends a repair here: the module's copy counts as verified again (R366, R374). -/
def Version.endRepair (v : Version) (shard : Nat) : Version :=
  { v with
    repairs := v.repairs.filter (fun r => decide (r.1 ≠ shard)),
    fetches := v.fetches.map (fun x => if x.1 = shard then (x.1, { x.2 with phase := .verified }) else x) }

/-- A repair ends here; a version dropped meanwhile becomes FREE (R366). -/
def State.endRepair (s : State) (n : Part) (i : Fin 8) (v : Version) (shard : Nat) : State :=
  let w := v.endRepair shard
  if w.dropped && w.repairs.isEmpty then s.freeVer n i v.number else s.setVer n i w

/-- The code of a REPORT by which a reader tells the other keepers that it tries a shard again: the retry notice, which the spec
names and gives no type (R362, R417, log 49). -/
def retryNotice : Code := 0x0700

/-- A keeper that is not the reader hears of the reader's copy (R362): where its own digest has failed and the reader's passes, it
asks for the copy again, up to 3 times, and then fetches the shard itself. -/
def State.heardReader (s : State) (n : Part) (i : Fin 8) (v : Version) (shard : Nat) (k : Shard) (x : Fetch) (code : Code) : State :=
  let put (t : State) (y : Fetch) : State := t.setVer n i { v with fetches := Assoc.put shard y v.fetches }
  if k.reader = s.self.val ∨ x.own ∨ x.phase ≠ .reading then s
  else if code = retryNotice then put s { x with bad := false, passed := false }
  else if !x.bad then put s { x with passed := true }
  else if x.resends < 3 then
    (put s { x with bad := false, passed := true, resends := x.resends + 1 }).send (.shardResend (Fin.ofNat 64 k.reader) n v.number shard)
  else put s { x with own := true, phase := .queued, bad := false }

/-- What a report of a reader does to this module's own fetch of the shard. -/
def State.fromReader (s : State) (n : Part) (from_ : ModIx) (code number : Code) (shard : Nat) : State :=
  match s.slotOf n number with
  | none => s
  | some (i, v) =>
    match v.shards[shard]?, Assoc.find shard v.fetches with
    | some k, some x =>
      if k.reader = from_.val ∧ (code = 0x0708 ∨ code = retryNotice) then s.heardReader n i v shard k x code else s
    | _, _ => s

/-- A report of a verified or unrecoverable shard (R363, R366). -/
def State.shardReported (s : State) (n : Part) (from_ : ModIx) (code number : Code) (shard : Nat) : State :=
  let master := decide (s.orders n = s.self)
  match s.slotOf n number with
  | none => s
  | some (i, v) =>
    match Assoc.find shard v.repairs with
    | some done =>
      if code = 0x0704 then
        let s1 := s.endRepair n i v shard
        if master then s1.partEvent n 0x0704 (natBytes 2 number.toNat ++ natBytes 4 shard) else s1
      else
        let l := if done.contains from_ then done else done ++ [from_]
        if ((v.shards[shard]?).map (fun k => k.keepers.all (fun m => l.contains m))).getD true then
          let s1 := s.endRepair n i v shard
          if master then s1.partEvent n 0x070B (natBytes 2 number.toNat ++ natBytes 4 shard) else s1
        else s.setVer n i { v with repairs := Assoc.put shard l v.repairs }
    | none =>
      if !master || decide (v.state ≠ .loading) then s
      else if code = 0x0704 then s.masterChange n changeFailed number shard
      else
        let v1 := { v with verified := if v.verified.contains (from_, shard) then v.verified else v.verified ++ [(from_, shard)] }
        let s1 := s.setVer n i v1
        if v1.complete && !v.complete then s1.masterChange n changeReady number 0 else s1

/-- What a module does with a report: its own, or one received (R357, R362, R363, R366). A report of a load's placement may reach
the master before the load does. -/
def State.takeReport (s : State) (n : Part) (from_ : ModIx) (code number : Code) (shard : Nat) : State :=
  if code = 0 ∨ code = 0x0703 then
    if s.orders n ≠ s.self then (if code = 0x0703 ∧ from_ = s.orders n then s.loadRefused n number else s)
    else
      let mine (l : Load) : Bool := decide (l.part = n ∧ l.number = number)
      let ls := if s.loads.any mine then s.loads else s.loads ++ [⟨n, number, [], 0, none, []⟩]
      State.loadReported { s with loads := ls.map (fun l =>
        if mine l then { l with reports := Assoc.put from_ code l.reports } else l) } n number
  else if code = retryNotice then s.fromReader n from_ code number shard
  else (s.fromReader n from_ code number shard).shardReported n from_ code number shard

/-- This module reports: to the master, or, of a repair or of a shard it reads for others, to every module of the slice, and to
itself (log 49). -/
def State.report (s : State) (n : Part) (code number : Code) (shard : Nat) (all : Bool) : State :=
  let dst := if all then s.otherMembers n else if s.orders n = s.self then [] else [s.orders n]
  (s.sendMgmt .report dst (s.reportMsg n code) (reportData number shard)).takeReport n s.self code number shard

/-! ## MODEL_LOAD and the manifest (R357, R358) -/

/-- A module receives a manifest: it keeps it for the intake and reports its placement. -/
def State.takeManifest (s : State) (n : Part) (b : List Byte) (timeout : Nat) : State :=
  let v := manVersion b timeout
  let keep := s.loads.filter (fun x => decide (¬(x.part = n ∧ x.number = v.number)))
  let old := s.loads.find? (fun x => decide (x.part = n ∧ x.number = v.number))
  let l : Load := { part := n, number := v.number, bytes := b, timeoutMs := timeout, cmd := old.bind (·.cmd),
                    reports := (old.map (·.reports)).getD [] }
  State.report { s with loads := keep ++ [l] } n (if s.placed n v then 0 else 0x0703) v.number 0 false

/-- The master learns of a MODEL_LOAD: it waits for the placement reports. -/
def State.masterLoad (s : State) (h : HostCmd) : State :=
  let number := BitVec.ofNat 16 (fieldNat h.frame.body 16 2)
  let mine (l : Load) : Bool := decide (l.part = h.part ∧ l.number = number)
  let s1 := if s.loads.any mine then { s with loads := s.loads.map (fun l => if mine l then { l with cmd := some h } else l) }
    else { s with loads := s.loads ++ [⟨h.part, number, [], 0, some h, []⟩] }
  s1.loadReported h.part number

/-- Sends a command to the master, or takes it there (R277). -/
def State.forwardTo (s : State) (h : HostCmd) (take : State → State) : State :=
  let m := s.orders h.part
  if m = s.self then take s
  else
    let g := { s.mgmt h.part with module := s.self.val, time := h.arrival }
    (s.send (.forward m g h)).onMgmt h.part [m] (mgmtBody .forward g ++ frameBytes h.cmd h.frame)

/-- An intake command leaves its queue and goes to the master (R277, R443). -/
def State.forwardCmd (s : State) (cmd : Code) (f : Frame) (n : Part) : State :=
  let h : HostCmd := ⟨cmd, n, s.self, s.arrivedAt cmd f, f⟩
  (s.popCmd cmd f).forwardTo h (fun t => t.masterTake h)

/-- MODEL_LOAD (R357): address in bytes 7:0, length in bytes 11:8, TIMEOUT in ms in bytes 15:12 (log 45). The forwarded
frame carries the version in two further bytes. -/
def execModelLoad (f : Frame) : State → Out :=
  lift (fun s => s.partCmd 0x0030 f (fun t n =>
    let tmo := fieldNat f.body 12 4
    if f.body.length ≠ 16 ∨ (tmo ≠ 0 ∧ (tmo < 10 ∨ 60000 < tmo)) then t.complete 0x0030 f 0x0901
    else
      let r := t.readMem (hostAcc n) (fieldNat f.body 0 8) (fieldNat f.body 8 4)
      match r.2 with
      | .error e => r.1.complete 0x0030 f e
      | .ok b =>
        let number := BitVec.ofNat 16 (fieldNat b 6 2)
        if manifestBad (r.1.sliceReg n) b then r.1.complete 0x0030 f 0x0701
        else if !r.1.manifestSigned n b then r.1.complete 0x0030 f 0x0702
        else if (r.1.slotOf n number).isSome then r.1.complete 0x0030 f 0x0903
        else if (r.1.freeSlot n).isNone then r.1.complete 0x0030 f 0x0705
        else
          let tm := if tmo = 0 then 2000 else tmo
          let dst := r.1.otherMembers n
          let g := { r.1.mgmt n with module := r.1.self.val }
          let s1 := if dst.isEmpty then r.1
            else (r.1.send (.manifest dst g b (BitVec.ofNat 64 tm))).onMgmt n dst (mgmtBody .forward g ++ b)
          let h : HostCmd := ⟨0x0030, n, r.1.self, r.1.arrivedAt 0x0030 f, { f with body := f.body ++ natBytes 2 number.toNat }⟩
          let s2 := (s1.popCmd 0x0030 f).forwardTo h (fun u => u.masterLoad h)
          let s3 := { s2 with loads := if s2.loads.any (fun l => decide (l.part = n ∧ l.number = number)) then s2.loads
                                       else s2.loads ++ [(⟨n, number, [], 0, some h, []⟩ : Load)] }
          s3.takeManifest n b tm))

/-- MANIFEST_RECEIVE (R358). -/
def execManifestReceive (m : Mgmt) (manifest : List Byte) (timeout : Word) : State → Out :=
  lift (fun s => s.takeManifest m.dom manifest timeout.toNat)

/-- REPORT (R363): received from another module. -/
def execReport (m : Mgmt) (version : Code) (shard : Nat) : State → Out :=
  lift (fun s => s.takeReport m.dom m.src m.code version shard)

/-! ## Fetches (R359 to R362, R366) -/

/-- The fetch of a shard here. -/
def Version.fetch (v : Version) (shard : Nat) : Option Fetch := Assoc.find shard v.fetches

/-- Replaces the fetch of a shard. -/
def State.setFetch (s : State) (n : Part) (number : Code) (shard : Nat) (x : Fetch) : State :=
  s.updVer n number (fun v => { v with fetches := Assoc.put shard x v.fetches })

/-- Whether this module reads the sources of a shard itself. -/
def State.reads (s : State) (k : Shard) (x : Fetch) : Bool := decide (k.reader = s.self.val) || x.own

/-- The source a fetch is at (R361). -/
def sourceIx (v : Version) (k : Shard) (x : Fetch) : Nat := (k.primary + x.left) % max 1 v.sources.length

/-- Asks a storage endpoint for a shard; a LOCAL source is read where the bytes are taken (R359). -/
def State.askSource (s : State) (n : Part) (v : Version) (shard : Nat) (k : Shard) (x : Fetch) : State :=
  if (v.sources[sourceIx v k x]?).any (·.onModule) then s
  else s.send (.shardFetch n v.number shard (sourceIx v k x))

/-- A try of a shard starts. -/
def State.startTry (s : State) (n : Part) (v : Version) (shard : Nat) (k : Shard) (x : Fetch) : State :=
  (s.setFetch n v.number shard { x with phase := .reading }).askSource n v shard k x

/-- The keepers of a shard that its reader serves. -/
def State.shardReaders (s : State) (k : Shard) : List ModIx :=
  if k.reader = s.self.val then k.keepers.filter (fun m => decide (m ≠ s.self)) else []

/-- The reader tells the other keepers that it tries again (R362). -/
def State.noticeRetry (s : State) (n : Part) (number : Code) (shard : Nat) (k : Shard) : State :=
  s.sendMgmt .report (s.shardReaders k) (s.reportMsg n retryNotice) (reportData number shard)

/-- Sends the bytes of a shard to keepers: multicast WRITE packets at DEST of at most 4,096 bytes (R359, R404, R414); an
unreachable member is skipped (R413). -/
def State.sendShard (s : State) (n : Part) (number : Code) (shard : Nat) (k : Shard) (dst : List ModIx) (bs : List Byte) : State :=
  let to_ := dst.filter (fun m => decide (s.route n m ≠ .none))
  if to_.isEmpty then s
  else
    ((runsOf 4096 bs).mapIdx (fun i b => (i, b))).foldl (fun t p =>
      let pk := t.plainPacket n to_ p.2
      t.onWire 0x02 3 { pk with mc := true, mask := modsMask to_, srcDie := 18, addr := BitVec.ofNat 64 (k.dest + 4096 * p.1) })
      (s.send (.shardSend n number shard to_ bs))

/-- A try has failed at a module that reads the sources (R361): the next try after its delay, or the next source at once
with event 0x0707, or the shard is lost and reported. -/
def State.tryFailed (s0 : State) (n : Part) (v : Version) (shard : Nat) (k : Shard) (x : Fetch) : State :=
  let s := s0.noticeRetry n v.number shard k
  if x.tries + 1 < 3 then s.setFetch n v.number shard { x with tries := x.tries + 1, phase := .delay }
  else
    let s1 := s.partEvent n 0x0707 (natBytes 4 shard ++ natBytes 1 (sourceIx v k x))
    let y := { x with tries := 0, left := x.left + 1 }
    if v.sources.length ≤ y.left then
      (s1.setFetch n v.number shard { y with phase := .lost }).report n 0x0704 v.number shard
        (Assoc.find shard v.repairs).isSome
    else s1.startTry n v shard k y

/-- A version, one of its shards and this module's fetch of it. -/
def State.fetchOf (s : State) (n : Part) (number : Code) (shard : Nat) : Option (Version × Shard × Fetch) :=
  (s.slotOf n number).bind (fun p => (p.2.shards[shard]?).bind (fun k => (p.2.fetch shard).map (fun x => (p.2, k, x))))

/-- Fetches in progress on the module. -/
def State.fetching (s : State) : Nat :=
  (s.wt.map (fun p => (p.2.fetches.filter (fun x =>
    decide (x.2.phase = .delay) || (decide (x.2.phase = .reading) && (p.2.shards[x.1]?).any (fun k => s.reads k x.2)))).length)).sum

/-- SHARD_FETCH_START (R359): 16 at once, in ascending shard index. -/
def execShardFetchStart (n : Part) (version : Code) (shard : Nat) : State → Out :=
  lift (fun s =>
    match s.fetchOf n version shard with
    | none => s
    | some (v, k, x) =>
      let first := !(v.fetches.any (fun y => decide (y.2.phase = .queued) && decide (y.1 < shard)))
      if x.phase = .queued ∧ first ∧ s.fetching < 16 then s.startTry n v shard k x else s)

/-- The poisoned 64-byte units of a range, by address: those marked in close memory, and those that a device returns with poison
(R366). -/
def State.poisonedUnits (s : State) (a len : Nat) : List Nat :=
  ((s.ms.poisoned.map (· * 64)) ++ (List.finRange 4).flatMap (fun q =>
    (s.cxlPort q).poison.map (fun u => cxlBase + q.val * 0x20000000000 + u * 64))).filter
    (fun u => decide (a ≤ u ∧ u + 64 ≤ a + len))

/-- Marks a unit poisoned: in close memory, or by a CXL.mem write with poison (R366). -/
def State.poisonUnit (s : State) (a : Nat) : State :=
  if a < cxlBase then { s with ms := { s.ms with poisoned := s.ms.poisoned ++ [a / 64] } }
  else
    let q : Fin 4 := Fin.ofNat 4 ((a - cxlBase) / 0x20000000000)
    let x := s.cxlPort q
    { s with cxl := Assoc.put q { x with poison := x.poison ++ [(a - cxlBase) % 0x20000000000 / 64] } s.cxl }

/-- Writes a shard's bytes at its place for the partition of the load, or in a repair the poisoned units only: the units written,
or the fault of the access (R325, R359, R364, R366). -/
def State.ingest (s : State) (n : Part) (k : Shard) (bs : List Byte) (repair : Bool) : State × Except Code (List Nat) :=
  if repair then
    let us := s.poisonedUnits k.dest k.bytes
    us.foldl (fun acc a =>
      match acc.2 with
      | .error _ => acc
      | .ok l =>
        let r := acc.1.writeMem (hostAcc n) none a (sub bs (a - k.dest) 64)
        (r.1, r.2.map (fun _ => l ++ [a]))) (s, .ok [])
  else
    let r := s.writeMem (hostAcc n) none k.dest bs
    (r.1, r.2.map (fun _ => []))

/-- The bytes of a try: those that arrived, or, from a LOCAL source, what the reader's memory holds, unless the access fails
(R359, R361). -/
def State.tryBytes (s : State) (n : Part) (v : Version) (k : Shard) (x : Fetch) (bytes : List Byte) : State × Except Code (List Byte) :=
  match v.sources[sourceIx v k x]? with
  | some q => if s.reads k x && q.onModule then s.readMem (hostAcc n) (q.object.toNat % 2 ^ 64 + k.off) k.bytes else (s, .ok bytes)
  | none => (s, .ok bytes)

/-- A try whose bytes are wrong, or cannot be read or written: a module that reads the sources tries again (R361); another asks
the reader for its verified copy, or waits to hear of it (R362). -/
def State.badTry (s : State) (n : Part) (v : Version) (shard : Nat) (k : Shard) (x : Fetch) : State :=
  if s.reads k x then s.tryFailed n v shard k x
  else if !x.passed then s.setFetch n v.number shard { x with bad := true }
  else if x.resends < 3 then
    (s.setFetch n v.number shard { x with resends := x.resends + 1 }).send (.shardResend (Fin.ofNat 64 k.reader) n v.number shard)
  else s.setFetch n v.number shard { x with own := true, phase := .queued }

/-- SHARD_VERIFY (R359 to R363, R366): the last byte of a try has arrived. It is written here and sent to the other keepers, and
its digest compared. -/
def execShardVerify (n : Part) (version : Code) (shard : Nat) (bytes : List Byte) : State → Out :=
  lift (fun s =>
    match s.fetchOf n version shard with
    | none => s
    | some (v, k, x) =>
      if x.phase ≠ .reading then s
      else
        let b := s.tryBytes n v k x bytes
        match b.2 with
        | .error _ => b.1.badTry n v shard k x
        | .ok bs =>
          let repair := (Assoc.find shard v.repairs).isSome
          let s1 := b.1.sendShard n version shard k (b.1.shardReaders k) bs
          let w := s1.ingest n k (bs.take k.bytes) repair
          match w.2 with
          | .error _ => w.1.badTry n v shard k x
          | .ok us =>
            if bs.length = k.bytes ∧ sha384 bs = k.digest then
              (w.1.setFetch n version shard { x with phase := .verified }).report n 0x0708 version shard
                (repair || !(w.1.shardReaders k).isEmpty)
            else (us.foldl State.poisonUnit w.1).badTry n v shard k x)

/-- SHARD_FETCH_TIMEOUT (R361, R362): no byte of the try, and at another keeper no retry notice, for TIMEOUT. A keeper then fetches
the shard itself, in its turn among the 16 at once. -/
def execShardFetchTimeout (n : Part) (version : Code) (shard : Nat) : State → Out :=
  lift (fun s =>
    match s.fetchOf n version shard with
    | none => s
    | some (v, k, x) =>
      if x.phase ≠ .reading then s
      else if s.reads k x then s.tryFailed n v shard k x
      else s.setFetch n version shard { x with own := true, phase := .queued })

/-- SHARD_RETRY_TIMER (R361). -/
def execShardRetryTimer (n : Part) (version : Code) (shard : Nat) : State → Out :=
  lift (fun s =>
    match s.fetchOf n version shard with
    | none => s
    | some (v, k, x) => if x.phase = .delay then s.startTry n v shard k x else s)

/-- SHARD_RESEND_REQUEST (R362): the reader sends its verified copy again. -/
def execShardResendRequest (n : Part) (version : Code) (shard : Nat) (target : ModIx) : State → Out :=
  lift (fun s =>
    match s.fetchOf n version shard with
    | none => s
    | some (_, k, x) =>
      if k.reader = s.self.val ∧ x.phase = .verified then
        let r := s.readMem (hostAcc n) k.dest k.bytes
        match r.2 with
        | .ok bs => r.1.sendShard n version shard k [target] bs
        | .error _ => r.1
      else s)

/-! ## Repair, activation, drop, query (R366 to R374) -/

/-- A repair starts at this module (R366). -/
def State.startRepair (s : State) (n : Part) (number : Code) (shard : Nat) : State :=
  match s.slotOf n number with
  | none => s
  | some (i, v) =>
    match v.shards[shard]? with
    | none => s
    | some k =>
      let fs := if k.keeps s.self then Assoc.put shard (s.newFetch k) v.fetches else v.fetches
      s.setVer n i { v with repairs := Assoc.put shard [] v.repairs, fetches := fs }

/-- MODEL_REPAIR (R366): version in bytes 3:0, shard in bytes 7:4 (log 45). It is forwarded to every module of the slice. -/
def execModelRepair (f : Frame) : State → Out :=
  lift (fun s => s.partCmd 0x0033 f (fun t n =>
    let number := BitVec.ofNat 16 (fieldNat f.body 0 4)
    let shard := fieldNat f.body 4 4
    if f.body.length ≠ 8 then t.complete 0x0033 f 0x0901
    else
      match t.slotOf n number with
      | none => t.complete 0x0033 f 0x0706
      | some (_, v) =>
        if v.state = .loading ∨ v.state = .failed then t.complete 0x0033 f 0x0903
        else if v.shards.length ≤ shard then t.complete 0x0033 f 0x0701
        else
          let h : HostCmd := ⟨0x0033, n, t.self, t.now, f⟩
          let g := { t.mgmt n with module := t.self.val, time := h.arrival }
          let s1 := (t.otherMembers n).foldl (fun u m => u.send (.forward m g h)) t
          let s2 := s1.onMgmt n (t.otherMembers n) (mgmtBody .forward g ++ frameBytes 0x0033 f)
          (s2.startRepair n number shard).complete 0x0033 f 0))

/-- MODEL_ACTIVATE (R367): version in bytes 3:0, policy in bytes 7:4 (log 45). -/
def execModelActivate (f : Frame) : State → Out :=
  lift (fun s => s.partCmd 0x0031 f (fun t n =>
    if f.body.length ≠ 8 ∨ 1 < fieldNat f.body 4 4 then t.complete 0x0031 f 0x0901 else t.forwardCmd 0x0031 f n))

/-- MODEL_DROP (R373): version in bytes 3:0 (log 45). -/
def execModelDrop (f : Frame) : State → Out :=
  lift (fun s => s.partCmd 0x0032 f (fun t n =>
    if f.body.length ≠ 4 then t.complete 0x0032 f 0x0901 else t.forwardCmd 0x0032 f n))

/-- The state codes of R374. -/
def VerState.code : VerState → Nat
  | .loading => 1
  | .ready => 2
  | .failed => 3
  | .active => 4
  | .retiring => 5

/-- One record of MODEL_QUERY (R374). -/
def State.slotRecord (s : State) (n : Part) (i : Fin 8) : List Byte :=
  match s.slot n i with
  | none => List.replicate 48 0
  | some v =>
    let held := (v.shards.filter (fun k => k.keeps s.self)).length
    let ok := (v.fetches.filter (fun x => decide (x.2.phase = .verified) || (Assoc.find x.1 v.repairs).isSome)).length
    let naming := (s.sv.entries.filter (fun p =>
      decide (p.2.part = n) && decide (p.2.state ≠ .free) && decide (p.2.version = v.number))).length
    v.model ++ natBytes 4 held ++ natBytes 4 ok ++ natBytes 4 naming ++ natBytes 2 v.number.toNat ++ natBytes 1 v.state.code
      ++ List.replicate 17 0

/-- MODEL_QUERY (R374). -/
def execModelQuery (f : Frame) : State → Out :=
  lift (fun s => s.partCmd 0x0034 f (fun t n =>
    if f.body.isEmpty then t.complete 0x0034 f 0 ((List.finRange 8).flatMap (t.slotRecord n))
    else t.complete 0x0034 f 0x0901))

/-! ## Retirement (R371) -/

/-- Whether a RETIRING version is still in use: by a live entry, by a row of the finalised batch, or by a repair. -/
def State.verInUse (s : State) (n : Part) (v : Version) : Bool :=
  s.sv.entries.any (fun p => decide (p.2.part = n) && p.2.live && decide (p.2.version = v.number))
    || (s.svPart n).running.rows.any (fun r => decide (r.version = v.number)) || !v.repairs.isEmpty

/-- The check of RETIRING versions at a commit apply, after finalisation (R371). -/
def State.retireVersions (s : State) (n : Part) : State :=
  (List.finRange 8).foldl (fun t i =>
    match t.slot n i with
    | none => t
    | some v =>
      if v.state = .retiring ∧ !t.verInUse n v then (t.freeVer n i v.number).partEvent n 0x070A (natBytes 2 v.number.toNat)
      else t) s

end Sys2Proof.Machine
end

