-- ==== Sys2Proof/Machine/Serving.lean ====
section
/-! DEFINITION. The serving station's requests: the commands SUBMIT, CANCEL, RESULT_READ, RESULT_ACK, PROGRAM_INSTALL and
PROGRAM_REMOVE, the intake (R271 to R280, R449, R450), and the admission test (R64 to R67). -/

namespace Sys2Proof.Machine

/-! ## The configuration of the serving station (R304) -/

/-- The registers over which SV.CFG_HASH is taken, in offset order: Shared registers of SV, then of KV. -/
def sharedRegs : List RegKey :=
  [⟨.svTableBase, 0, 0⟩, ⟨.svIntakeGuard, 0, 0⟩]
    ++ (List.range 16).flatMap (fun n =>
      [⟨.svPQuota, 0, n⟩, ⟨.svPProgram, 0, n⟩, ⟨.svPVocab, 0, n⟩, ⟨.svPPrefill, 0, n⟩, ⟨.svPLimits, 0, n⟩,
       ⟨.svPAreaBase, 0, n⟩, ⟨.svPAreaSize, 0, n⟩])
    ++ (List.range 16).flatMap (fun n => [⟨.kvPPoolPages, 0, n⟩, ⟨.kvPPage, 0, n⟩, ⟨.kvPMapStride, 0, n⟩])

/-- SV.CFG_HASH (R304). -/
def State.cfgHash (s : State) : Word := shaWord (sharedRegs.flatMap (fun k => wordBytes (s.raw k)))

/-- Configuration writes of a partition, and those of the module, take effect at its admission close, and SV.CFG_HASH with them
(R304, log 67). -/
def State.latchCfg (s : State) (n : Part) : State :=
  let t := { s with sv := { s.sv with old := s.sv.old.filter (fun p =>
      decide (p.1.j ≠ n.val) && decide (p.1.reg ≠ Reg.svTableBase) && decide (p.1.reg ≠ Reg.svIntakeGuard)) } }
  t.setReg .svCfgHash 0 0 t.cfgHash

/-- Whether an entry index lies in a partition's range (R273). -/
def State.inQuota (s : State) (n : Part) (e : Nat) : Bool :=
  let q := s.cfg .svPQuota 0 n.val
  decide (bits q 15 0 ≤ e) && decide (e < bits q 15 0 + bits q 48 32) && decide (e < 65536)

/-- The entries of a partition that are not FREE. -/
def State.entriesOf (s : State) (n : Part) : List (Nat × Entry) := s.sv.entries.filter (fun p => decide (p.2.part = n))

/-- The lowest FREE entry of a partition's range (R279). -/
def State.freeEntryIx (s : State) (n : Part) : Option Nat :=
  let q := s.cfg .svPQuota 0 n.val
  (List.range (s.sv.entries.length + 1)).findSome? (fun i =>
    let e := bits q 15 0 + i
    if s.inQuota n e ∧ (s.entry? e).isNone then some e else none)

/-! ## Admission (R64 to R67) -/

/-- S, m, W and P in ns of a domain (R35, R36). -/
def State.spokes (s : State) (n : Part) : Nat := bits (s.reg .cadDomSpokes 0 n.val) 6 0
def State.margin (s : State) (n : Part) : Nat := bits (s.reg .cadDomSpokes 0 n.val) 13 8
def State.workSpokes (s : State) (n : Part) : Nat := s.spokes n - s.margin n
def State.periodNs (s : State) (n : Part) : Nat := s.regN .cadDomPeriod 0 n.val * 1000

/-- L of R35 in ns. -/
def State.spokeNs (s : State) (n : Part) : Nat := s.periodNs n / s.spokes n

/-- g of a partition: 16 for BEST_EFFORT, else the guaranteed issue level (R66, R477). -/
def State.admitLevel (s : State) (n : Part) : Nat := if s.bestEffort n then 16 else s.regN .cadDomIssueLevel 0 n.val

/-- A declared cost of a program for a batch (R233). -/
def Program.costFor (p : Program) (i : Nat) (k : Nat × Nat × Nat) : Nat := costOf (p.cost.getD i []) k.1 k.2.1 k.2.2

/-- The admission test of R65: each line in whole numbers, times by 1,000 and shares by 256. The only VALID partition
has q = SHARE / 256 too, which is the model's choice (R477, log 109). -/
def State.admits (s : State) (n : Part) (p : Program) (k : Nat × Nat × Nat) : Bool :=
  let wl := s.workSpokes n * s.spokeNs n
  let rate (r : Reg) : Nat := s.share n * s.regN r * wl
  decide (16 * p.costFor 0 k + p.costFor 1 k * p.skew ≤ 16 * (wl * 11 * s.admitLevel n / 160))
    && decide (p.costFor 2 k * 256000 ≤ rate .cadAdmCloseBw) && decide (p.costFor 3 k * 256000 ≤ rate .cadAdmCxlBw)
    && decide (p.costFor 4 k * p.skew * 256000 ≤ 16 * rate .cadAdmFabBw) && decide (p.costFor 5 k ≤ 4 * mib)

/-- The program that a partition's batches name, if the serving station may select it (R236, R284). -/
def State.namedProgram (s : State) (n : Part) : Option Program := Assoc.find (n, (s.cfg .svPProgram 0 n.val).setWidth 32) s.programs

/-- The row counts that a prefill candidate tries: halved, down to a multiple of 16, while at least 16 (R284). -/
def prefillTries : Nat → Nat → List Nat
  | 0, c => [c]
  | k + 1, c =>
    let h := c / 2 / 16 * 16
    if h < 16 then [c] else c :: prefillTries k h

/-- Whether a request's first step alone fails the admission test of an empty tick (R67, R236); without a row to take,
as with a BUDGET of 0, it does too, which is the model's choice (log 110). -/
def State.neverAdmissible (s : State) (n : Part) (promptLen : Nat) : Bool :=
  match s.namedProgram n with
  | none => true
  | some p =>
    let w := s.cfg .svPPrefill 0 n.val
    let c := min promptLen (min (bits w 15 0) (bits w 47 32))
    decide (s.workSpokes n < p.segments) || decide (c = 0) || !(prefillTries 16 c).any (fun k => s.admits n p (1, k, k))

/-! ## SUBMIT (R274, R276, R279) -/

/-- The stop record begins at byte 128 of a SUBMIT, the prompt at byte 904. -/
def promptTokens (b : List Byte) (k : Nat) : List (BitVec 32) :=
  (List.range k).map (fun i => BitVec.ofNat 32 (fieldNat b (904 + 4 * i) 4))

/-- The stop token IDs of a stop record. -/
def stopIdsOf (r : List Byte) : List (BitVec 32) :=
  (List.range (fieldNat r 0 1)).map (fun i => BitVec.ofNat 32 (fieldNat r (8 + 4 * i) 4))

/-- The stop sequences of a stop record. -/
def stopSeqsOf (r : List Byte) : List (List (BitVec 32)) :=
  (List.range (fieldNat r 1 1)).map (fun i =>
    let q := sub r (136 + 80 * i) 80
    (List.range (fieldNat q 0 1)).map (fun j => BitVec.ofNat 32 (fieldNat q (16 + 4 * j) 4)))

/-- Whether a stop record breaks R276, or names a token not below the vocabulary; only sequences in use are looked at. -/
def stopBad (r : List Byte) (vocab : Nat) : Bool :=
  decide (32 < fieldNat r 0 1) || decide (8 < fieldNat r 1 1) || !zeros (sub r 2 6)
    || (List.range (fieldNat r 1 1)).any (fun i =>
      let q := sub r (136 + 80 * i) 80
      decide (fieldNat q 0 1 = 0) || decide (16 < fieldNat q 0 1) || !zeros (sub q 1 15))
    || (stopIdsOf r).any (fun t => decide (vocab ≤ t.toNat)) || (stopSeqsOf r).any (fun l => l.any (fun t => decide (vocab ≤ t.toNat)))

/-- Whether an FP32 code is a finite datum that is not negative (R279). -/
def tempOk (c : Nat) : Bool :=
  match fpSingle.decode c with
  | .fin neg m _ => !neg || decide (m = 0)
  | _ => false

/-- Whether an FP32 code lies above 0 and at most at 1.0. -/
def topPOk (c : Nat) : Bool := decide (0 < c) && decide (c ≤ 0x3F800000)

/-- Whether bytes that SV sets, or reserved bytes, of a submission record are not zero (R274). -/
def svFieldsSet (b : List Byte) : Bool :=
  !zeros (sub b 0 14) || decide (1 < fieldNat b 14 1) || !zeros (sub b 15 6) || !zeros (sub b 24 2) || !zeros (sub b 28 2)
    || !zeros (sub b 32 8) || !zeros (sub b 68 8) || !zeros (sub b 80 32)

/-- Check 2 of R279 but for what only the home module knows of CHANNEL (`State.channelBad`). -/
def State.requestBad (s : State) (n : Part) (b : List Byte) : Bool :=
  let vocab := s.cfgN .svPVocab 0 n.val
  let pl := fieldNat b 76 4
  let limit := s.cfgN .kvPMapStride 0 n.val / 4 * s.kvTokens n
  svFieldsSet b || decide (pl = 0) || decide (fieldNat b 64 4 = 0) || decide (fieldNat b 60 4 ≤ pl)
    || decide (limit < fieldNat b 60 4) || !tempOk (fieldNat b 52 4) || !topPOk (fieldNat b 48 4)
    || decide (1024 < fieldNat b 30 2) || decide (15 < fieldNat b 21 1) || decide (4096 ≤ fieldNat b 26 2)
    || (promptTokens b pl).any (fun t => decide (vocab ≤ t.toNat)) || stopBad (sub b 128 776) vocab

/-- Whether CHANNEL of a submission record is no open channel of the partition at the module that received it: the channels of a
module are its own, so this part of check 2 is made there and not at each copy (R271, R279, R451, log 100). -/
def State.channelBad (s : State) (n : Part) (b : List Byte) : Bool :=
  !((s.chan (fieldNat b 26 2)).any (fun c => decide (c.owner = some n)))

/-- The lowest offset of a partition's area at which `len` bytes are free (R279, log 51). -/
def areaFit (size len : Nat) (used : List (Nat × Nat × Nat)) : Option Nat :=
  let free (o : Nat) : Bool := decide (o + len ≤ size) && !used.any (fun u => overlaps o len u.2.1 u.2.2)
  ((0 :: used.map (fun u => u.2.1 + u.2.2)).filter free).foldl (fun m o => some (min o (m.getD o))) none

/-- The entry that a SUBMIT makes (R274, R279). -/
def newEntry (h : HostCmd) (k stopAddr : Nat) : Entry :=
  let b := h.frame.body
  let r := sub b 128 776
  let pl := fieldNat b 76 4
  { state := .queued, reqId := bytesWord (sub b 120 8), seed := bytesWord (sub b 112 8), submitTbc := h.arrival, lastTbc := 0,
    stopAddr := stopAddr, promptAddr := stopAddr + 776, promptLen := pl, ctxLen := 0, genCount := 0,
    maxNew := fieldNat b 64 4, maxTotal := fieldNat b 60 4, wallTicks := fieldNat b 56 4,
    temperature := BitVec.ofNat 32 (fieldNat b 52 4), topP := BitVec.ofNat 32 (fieldNat b 48 4),
    ttftTarget := fieldNat b 44 4, tbtTarget := fieldNat b 40 4, startTick := k, topK := fieldNat b 30 2, version := 0,
    channel := fieldNat b 26 2, misses := 0, missLimit := fieldNat b 22 2, draftMax := fieldNat b 21 1,
    draftDepth := fieldNat b 21 1, zeroRun := 0, probeRun := 0, home := h.origin, part := h.part,
    missAction := decide (fieldNat b 14 1 = 1), specOff := false, cut := false, cancel := false, endReason := .none,
    accepted := 0, tbtMax := 0, ttft := 0, prompt := promptTokens b pl, generated := [], stopIds := stopIdsOf r,
    stopSeqs := stopSeqsOf r, idleTicks := 0, missRaised := false }

/-- Check 1 of R279. -/
def State.notServing (s : State) (n : Part) : Bool := decide (s.cfg .svPVocab 0 n.val = 0) || (s.namedProgram n).isNone

/-- The application of a SUBMIT in the intake of tick `k` (R279). -/
def State.applySubmit (s : State) (h : HostCmd) (k : Nat) : State :=
  let n := h.part
  let b := h.frame.body
  if s.notServing n then s.completeFwd h 0x0903
  else if s.requestBad n b then s.completeFwd h 0x0501
  else if (s.entriesOf n).any (fun p => decide (p.2.reqId = bytesWord (sub b 120 8))) then s.completeFwd h 0x050A
  else
    match s.freeEntryIx n with
    | none => s.completeFwd h 0x0503
    | some e =>
      let x := s.svPart n
      let len := (b.length - 128 + 7) / 8 * 8
      match areaFit (s.cfgN .svPAreaSize 0 n.val) len x.area with
      | none => s.completeFwd h 0x0504
      | some o =>
        let a := s.cfgN .svPAreaBase 0 n.val + o
        match s.place (stationAcc (Fin.ofNat 8 e) n) a (b.length - 128) true with
        | .error _ => s.completeFwd h 0x0504
        | .ok p =>
          if s.neverAdmissible n (fieldNat b 76 4) then (s.domReport n 0x010B).completeFwd h 0x010B
          else
            let s1 := (s.setSvPart n { x with area := x.area ++ [(e, o, len)] }).putBytes p (b.drop 128)
            ((s.partDies n).foldl (State.clearMap n e) (s1.putEntry e (newEntry h k a))).completeFwd h 0 (natBytes 4 e)

/-- SUBMIT (R277, R279): the frame's length must suit its PROMPT_LEN (R445). -/
def execSubmit (f : Frame) : State → Out :=
  lift (fun s => s.partCmd 0x0010 f (fun t n =>
    if f.body.length < 904 ∨ f.body.length ≠ 904 + 4 * fieldNat f.body 76 4 then t.complete 0x0010 f 0x0901
    else if t.channelBad n f.body then t.complete 0x0010 f (if t.notServing n then 0x0903 else 0x0501)
    else t.forwardCmd 0x0010 f n))

/-! ## CANCEL and results (R280, R449, R450) -/

/-- The application of a CANCEL (R280). -/
def State.applyCancel (s : State) (h : HostCmd) : State :=
  match (s.entriesOf h.part).find? (fun p => decide (p.2.reqId = bytesWord (h.frame.body.take 8))) with
  | none => s.completeFwd h 0x0502
  | some (e, x) =>
    if x.state = .done then s.completeFwd h 0x0903 else (s.putEntry e { x with cancel := true }).completeFwd h 0

/-- CANCEL (R280). -/
def execCancel (f : Frame) : State → Out :=
  lift (fun s => s.partCmd 0x0011 f (fun t n =>
    if f.body.length ≠ 8 then t.complete 0x0011 f 0x0901 else t.forwardCmd 0x0011 f n))

/-- Whether the body of RESULT_READ or RESULT_ACK breaks its layout. -/
def resultBad (b : List Byte) : Bool := decide (b.length ≠ 16) || decide (fieldNat b 4 4 ≠ 0)

/-- The entry that RESULT_READ or RESULT_ACK names, if it holds the named REQ_ID. -/
def State.resultEntry (s : State) (n : Part) (b : List Byte) : Option (Nat × Entry) :=
  let e := fieldNat b 0 4
  if s.inQuota n e then
    (s.entry? e).bind (fun x => if x.part = n ∧ x.reqId = bytesWord (sub b 8 8) then some (e, x) else none)
  else none

/-- RESULT_READ (R449). -/
def execResultRead (f : Frame) : State → Out :=
  lift (fun s => s.partCmd 0x0012 f (fun t n =>
    if resultBad f.body then t.complete 0x0012 f 0x0901
    else
      match t.resultEntry n f.body with
      | none => t.complete 0x0012 f 0x0502
      | some (e, x) =>
        if x.state ≠ .done then t.complete 0x0012 f 0x0905
        else
          let r : ResultRec := Assoc.getD e ⟨List.replicate 64 0, 0, 0⟩ t.sv.results
          let r1 := { r with reads := r.reads + 1 }
          let t1 := { t with sv := { t.sv with results := Assoc.put e r1 t.sv.results } }
          t1.complete 0x0012 f 0 (r.bytes ++ natBytes 8 r1.reads)))

/-- The application of a RESULT_ACK: the entry becomes FREE and its part of the area is released (R275, R450). -/
def State.applyResultAck (s : State) (h : HostCmd) : State :=
  match s.resultEntry h.part h.frame.body with
  | none => s.completeFwd h 0x0502
  | some (e, x) =>
    if x.state ≠ .done then s.completeFwd h 0x0903
    else
      let y := s.svPart h.part
      let s1 := (s.putEntry e { x with state := .free }).setSvPart h.part { y with area := y.area.filter (fun u => decide (u.1 ≠ e)) }
      let v := { s1.sv with results := Assoc.del e s1.sv.results }
      State.completeFwd { s1 with sv := v } h 0

/-- RESULT_ACK (R450). -/
def execResultAck (f : Frame) : State → Out :=
  lift (fun s => s.partCmd 0x0013 f (fun t n =>
    if resultBad f.body then t.complete 0x0013 f 0x0901 else t.forwardCmd 0x0013 f n))

/-! ## Step programs (R234 to R236, R446) -/

/-- The application of PROGRAM_INSTALL: a PROGRAM_ID already installed conflicts (R234, R235, R444). -/
def State.applyInstall (s : State) (h : HostCmd) : State :=
  match s.imageOk h.part h.frame.body with
  | none => s.completeFwd h 0x0310
  | some p =>
    if (Assoc.find (h.part, p.id) s.programs).isSome then s.completeFwd h 0x0903
    else State.completeFwd { s with programs := Assoc.put (h.part, p.id) p s.programs } h 0

/-- The application of PROGRAM_REMOVE (R235, R446). -/
def State.applyRemove (s : State) (h : HostCmd) : State :=
  let id := BitVec.ofNat 32 (fieldNat h.frame.body 0 4)
  if (Assoc.find (h.part, id) s.programs).isNone ∨ (s.cfg .svPProgram 0 h.part.val).setWidth 32 = id then s.completeFwd h 0x0903
  else State.completeFwd { s with programs := Assoc.del (h.part, id) s.programs } h 0

/-- PROGRAM_INSTALL (R234). -/
def execProgramInstall (f : Frame) : State → Out := lift (fun s => s.partCmd 0x0020 f (fun t n => t.forwardCmd 0x0020 f n))

/-- PROGRAM_REMOVE (R235). -/
def execProgramRemove (f : Frame) : State → Out :=
  lift (fun s => s.partCmd 0x0021 f (fun t n =>
    if f.body.length ≠ 4 then t.complete 0x0021 f 0x0901 else t.forwardCmd 0x0021 f n))

/-! ## The intake (R277, R278, R354) -/

/-- The application of one command of the intake of tick `k`. -/
def State.applyCmd (k : Nat) (s : State) (h : HostCmd) : State :=
  if h.cmd = 0x0010 then s.applySubmit h k
  else if h.cmd = 0x0011 then s.applyCancel h
  else if h.cmd = 0x0013 then s.applyResultAck h
  else if h.cmd = 0x0020 then s.applyInstall h
  else if h.cmd = 0x0021 then s.applyRemove h
  else if versionCmd h.cmd then s.applyVersion h
  else s

/-- FORWARD (R277): the master takes the command; every module starts a forwarded repair (R366). -/
def execForward (m : Mgmt) (f : HostCmd) : State → Out :=
  lift (fun s =>
    if f.cmd = 0x0033 then
      s.startRepair m.dom (BitVec.ofNat 16 (fieldNat f.frame.body 0 4)) (fieldNat f.frame.body 4 4)
    else if s.orders m.dom ≠ s.self then s
    else if f.cmd = 0x0030 then s.masterLoad f
    else s.masterTake f)

/-- INTAKE (R278): kept until admission closes, or, while the domain is disabled, applied on receipt (R354). -/
def execIntake (m : Mgmt) (cmds : List HostCmd) : State → Out :=
  lift (fun s =>
    if s.enabled m.dom then
      let x := s.svPart m.dom
      s.setSvPart m.dom { x with intakes := x.intakes ++ [(m.tick.toNat, m.hash, cmds)] }
    else cmds.foldl State.applyVersion s)

/-- The intake of tick `k` is applied (R278): the master sends it, with its SV.CFG_HASH, and applies it; another module
applies what it received. A module whose hash differs applies nothing and remembers the mismatch. -/
def State.applyIntake (s : State) (n : Part) (k : Nat) : State :=
  let x := s.svPart n
  if s.isMaster n then
    let cmds := (x.gathered.filter (fun p => decide (p.1 ≤ k))).map (·.2)
    let s1 := s.setSvPart n { x with gathered := x.gathered.filter (fun p => decide (k < p.1)) }
    cmds.foldl (State.applyCmd k) (s1.sendIntake n { s.mgmt n with tick := BitVec.ofNat 64 k, hash := s.cfgHash } cmds)
  else
    let mine := x.intakes.filter (fun p => decide (p.1 ≤ k))
    let s1 := s.setSvPart n { x with intakes := x.intakes.filter (fun p => decide (k < p.1)),
                                     mismatch := mine.any (fun p => decide (p.2.1 ≠ s.cfgHash)) }
    if mine.any (fun p => decide (p.2.1 ≠ s.cfgHash)) then s1
    else (mine.flatMap (fun p => p.2.2)).foldl (State.applyCmd k) s1

end Sys2Proof.Machine
end

