-- ==== Sys2Proof/Machine/Batch.lean ====
section
/-! DEFINITION. Batches: planning at admission close (R64 to R66, R281 to R284, R344, R368), finalisation (R285, R286), and what
a commit does to the requests (R289, R295 to R302, R343). -/

namespace Sys2Proof.Machine

/-! ## Admission values (R66, R380, R477) -/

/-- Whether a port is one of a running slice of this module: the slice's routes may use its link (R380, R399). -/
def State.runningPort (s : State) (p : Port) : Bool :=
  (List.finRange 16).any (fun n =>
    s.enabled n && decide (neighbour s.extents s.self p ∈ s.members n)
      && (!wrapHop s.extents (s.self, p) || decide (sliceLen (s.sliceReg n) (portAxis p) = axisOf s.extents (portAxis p))))

/-- g and the torus rate as admission close sets them. -/
def State.evalIssueLevel (s : State) (n : Part) : State :=
  let g := if s.bestEffort n then 16
    else if s.pw.emergency then 11 * s.regN .pwrEffectiveCap / s.regN .pwrFloor else 11
  let narrow := (List.finRange 6).any (fun p =>
    decide ((s.port p).state = .up) && decide ((s.port p).lanes.length = 8) && s.runningPort p)
  (s.setReg .cadDomIssueLevel 0 n.val (BitVec.ofNat 64 g)).setReg .cadAdmFabBw 0 0 (if narrow then 180000 else 360000)

/-! ## The planning state (R281) -/

/-- A live request as planned after tick k − 1: entry, context, tokens generated, and the class of R282. -/
structure Planned where
  e : Nat
  ent : Entry
  ctx : Nat
  gen : Nat
  state : ReqState
  deriving DecidableEq, Repr

/-- The rows of a batch for an entry. -/
def Batch.rowsOf (b : Batch) (e : Nat) : List BatchRow := b.rows.filter (fun r => decide (r.entry = e))

/-- A request carried forward through the running batch: every sequence yields the most tokens it can and none ends. -/
def planned (prev : Batch) (e : Nat) (x : Entry) : Planned :=
  let rows := prev.rowsOf e
  let k := rows.length
  match rows.head? with
  | none => ⟨e, x, x.ctxLen, x.genCount, x.state⟩
  | some r =>
    match r.role with
    | .decode | .verify => ⟨e, x, x.ctxLen + k, x.genCount + k, .decode⟩
    | _ =>
      if x.promptLen ≤ x.ctxLen + k then ⟨e, x, x.ctxLen + k, x.genCount + 1, .decode⟩
      else ⟨e, x, x.ctxLen + k, x.genCount, .prefill⟩

/-- The order of R282: class, then START_TICK or SUBMIT_TBC, then entry. -/
def Planned.key (p : Planned) : Nat × Nat × Nat :=
  match p.state with
  | .decode => (0, p.ent.startTick, p.e)
  | .prefill => (1, p.ent.startTick, p.e)
  | _ => (2, p.ent.submitTbc.toNat, p.e)

/-- Lexicographic order of keys. -/
def keyLt (a b : Nat × Nat × Nat) : Bool :=
  decide (a.1 < b.1) || (decide (a.1 = b.1) && (decide (a.2.1 < b.2.1) || (decide (a.2.1 = b.2.1) && decide (a.2.2 < b.2.2))))

/-- Puts a candidate in its place. -/
def plannedInsert (x : Planned) : List Planned → List Planned
  | [] => [x]
  | y :: l => if keyLt y.key x.key then y :: plannedInsert x l else x :: y :: l

/-- The candidates of a partition in the order of R282; a cancelled request takes no rows (R280). -/
def State.candidatesFor (s : State) (n : Part) (prev : Batch) : List Planned :=
  ((s.entriesOf n).filter (fun p => p.2.live && !p.2.cancel)).foldl (fun l p => plannedInsert (planned prev p.1 p.2) l) []

/-! ## Pages (R284, R287) -/

/-- Whether a die holds a committed page for a list index of an entry. -/
def KvPool.heldAt (p : KvPool) (e ix : Nat) : Bool :=
  (p.pageOf e ix).isSome && !p.taken.any (fun t => decide (t.2.1 = e ∧ t.2.2.1 = ix))

/-- Committed free pages of a die (R287). -/
def State.committedFree (s : State) (n : Part) (d : Fin 8) : Nat :=
  let p := s.pool d n
  s.cfgN .kvPPoolPages 0 n.val - (p.inUse.length - p.taken.length)

/-- The list indices of the positions `a` to `a + k − 1`. -/
def listIndices (tokens a k : Nat) : List Nat :=
  if k = 0 then [] else (List.range ((a + k - 1) / tokens - a / tokens + 1)).map (fun i => a / tokens + i)

/-- The (entry, list index) pairs that the running batch may take on a die. -/
def State.prevPages (s : State) (n : Part) (prev : Batch) (d : Fin 8) : List (Nat × Nat) :=
  prev.rows.foldl (fun l r =>
    let k := (r.entry, r.pos / s.kvTokens n)
    if l.contains k || (s.pool d n).heldAt k.1 k.2 then l else k :: l) []

/-- The pages that a candidate needs on a die. -/
def State.needs (s : State) (n : Part) (prev : Batch) (d : Fin 8) (e a k : Nat) : Nat :=
  let old := s.prevPages n prev d
  ((listIndices (s.kvTokens n) a k).filter (fun i => !(s.pool d n).heldAt e i && !old.contains (e, i))).length

/-! ## The build (R283, R284) -/

/-- A build under way: the state (promotions start in it), the sequences taken, what is left of the prefill budget, the pages
planned by die, whether the build has ended. -/
structure Build where
  s : State
  seqs : List PlanSeq
  budget : Nat
  pages : List (Fin 8 × Nat)
  ended : Bool

/-- Whether a candidate with `k` rows fits beside what the build holds. -/
def Build.fits (b : Build) (n : Part) (p : Program) (prev : Batch) (c : Planned) (k : Nat) : Bool :=
  let lim := b.s.cfg .svPLimits 0 n.val
  let seqs := b.seqs ++ [⟨c.e, k, 0, false, c.ctx + k⟩]
  let counts := planCounts seqs
  decide (counts.1 ≤ bits lim 16 0) && decide (counts.2.1 ≤ bits lim 48 32)
    && (b.s.partDies n).all (fun d =>
      decide (Assoc.getD d 0 b.pages + b.s.needs n prev d c.e c.ctx k + (b.s.prevPages n prev d).length
        ≤ b.s.committedFree n d))
    && b.s.admits n p counts

/-- Adds a candidate with `k` rows to the build. -/
def Build.take (b : Build) (n : Part) (prev : Batch) (c : Planned) (k depth : Nat) (pre : Bool) : Build :=
  { b with
    seqs := b.seqs ++ [⟨c.e, k, depth, pre, c.ctx + k⟩]
    budget := if pre then b.budget - k else b.budget
    pages := (b.s.partDies n).foldl (fun l d =>
      Assoc.put d (Assoc.getD d 0 l + b.s.needs n prev d c.e c.ctx k) l) b.pages }

/-- One candidate of the build for tick `k` (R283, R284, R344). -/
def Build.step (n : Part) (p : Program) (prev : Batch) (k : Nat) (b : Build) (c : Planned) : Build :=
  if b.ended then b
  else if (b.s.partDies n).any (fun d => !(b.s.farPages d n c.e).isEmpty) then
    let t := k + bits (b.s.reg .memPDemote 0 n.val) 23 16
    { b with s := (b.s.partDies n).foldl (State.promoteDie n c.e t) b.s }
  else if c.state = .decode then
    let x := c.ent
    let d := min (if x.specOff then 0 else x.draftDepth)
      (min (x.maxNew - c.gen - 1) (x.maxTotal - x.promptLen - c.gen - 1))
    if b.fits n p prev c (d + 1) then b.take n prev c (d + 1) d false else { b with ended := true }
  else
    let chunk := bits (b.s.cfg .svPPrefill 0 n.val) 15 0
    let r := min (c.ent.promptLen - c.ctx) (min chunk b.budget)
    if r = 0 then b
    else
      match (prefillTries 16 r).find? (b.fits n p prev c) with
      | some m => b.take n prev c m 0 true
      | none => { b with ended := true }

/-- The batch for tick `k` (R236, R281 to R284, R372): none without an ACTIVE version, a vocabulary and a program that the
domain's work spokes hold. -/
def State.buildBatch (s : State) (n : Part) (k : Nat) : State :=
  let x := s.svPart n
  let prev := if (s.dom n).state ≠ .starting ∧ x.running.tick + 1 = k then x.running else Batch.empty
  let b0 : Batch := { Batch.empty with tick := k }
  match s.namedProgram n, s.activeVer n with
  | some p, some _ =>
    if s.workSpokes n < p.segments then s.setSvPart n { x with next := some b0 }
    else if s.cfg .svPVocab 0 n.val = 0 then s.setSvPart n { x with next := some { b0 with program := some p.id } }
    else
      let start : Build := ⟨s, [], bits (s.cfg .svPPrefill 0 n.val) 47 32, [], false⟩
      let r := (s.candidatesFor n prev).foldl (Build.step n p prev k) start
      let y := r.s.svPart n
      r.s.setSvPart n { y with next := some { b0 with program := some p.id, plan := r.seqs } }
  | some p, none => s.setSvPart n { x with next := some { b0 with program := if s.workSpokes n < p.segments then none else some p.id } }
  | none, _ => s.setSvPart n { x with next := some b0 }

/-! ## Finalisation (R285, R286, R368) -/

/-- The rows of a planned sequence from the committed state; a sequence planned in DECODE whose last prompt position took no
sample processes it again. -/
def finalRows (q : PlanSeq) (x : Entry) (version : Code) (first : Nat) : List BatchRow :=
  if q.prefill || decide (x.state ≠ .decode) then
    let k := min q.rows (x.promptLen - x.ctxLen)
    (List.range k).map (fun i =>
      { entry := q.entry, role := if x.ctxLen + i + 1 = x.promptLen then .prefillLast else .prefill, cut := x.cut, depth := 0,
        news := k, version := version, pos := x.ctxLen + i,
        token := ((x.prompt[x.ctxLen + i]?).map (·.toInt)).getD (-1), seqRow := first })
  else
    (List.range q.rows).map (fun i =>
      { entry := q.entry, role := if q.rows = 1 then .decode else .verify, cut := x.cut, depth := q.rows - 1, news := q.rows,
        version := version, pos := x.ctxLen + i,
        token := if i = 0 then ((x.generated.getLast?).map (·.toInt)).getD (-1) else -1, seqRow := first })

/-- Finalises one planned sequence: rows of a request that has ended go; VERSION is taken. -/
def finaliseSeq (active : Code) (acc : State × List BatchRow) (q : PlanSeq) : State × List BatchRow :=
  match acc.1.entry? q.entry with
  | none => acc
  | some x =>
    if !x.live then acc
    else
      let v := if x.version = 0 then active else x.version
      let s1 := if x.version = 0 then acc.1.putEntry q.entry { x with version := v } else acc.1
      (s1, acc.2 ++ finalRows q x v acc.2.length)

/-- The batch built for the next tick is finalised and becomes the running one. -/
def State.finalise (s : State) (n : Part) : State :=
  match (s.svPart n).next with
  | none =>
    let x := s.svPart n
    s.setSvPart n { x with running := { Batch.empty with tick := x.running.tick + 1, program := x.running.program } }
  | some b =>
    let r := b.plan.foldl (finaliseSeq (((s.activeVer n).map (fun p => p.2.number)).getD 0)) (s, [])
    let x := r.1.svPart n
    let heads := (r.2.mapIdx (fun i y => (i, y))).filter (fun p => decide (p.1 = p.2.seqRow))
    (r.1.setSvPart n { x with running := { b with rows := r.2 }, next := none }).setReg .svPLastBatch 0 n.val
      (BitVec.ofNat 64 (r.2.length * 2 ^ 32 + heads.length))

/-! ## Commit (R295 to R302) -/

/-- Draft-depth control of a step that used the current depth and accepted `a` drafts (R295). -/
def depthControl (x : Entry) (a : Nat) : Entry :=
  let d := x.draftDepth
  if 0 < d then
    if a = 0 then
      if 4 ≤ x.zeroRun + 1 then { x with draftDepth := d / 2, zeroRun := 0 } else { x with zeroRun := x.zeroRun + 1 }
    else if a = d then { x with zeroRun := 0, draftDepth := min (d + 1) x.draftMax }
    else { x with zeroRun := 0 }
  else if 0 < x.draftMax ∧ !x.specOff then
    if 64 ≤ x.probeRun + 1 then { x with draftDepth := 1, probeRun := 0 } else { x with probeRun := x.probeRun + 1 }
  else x

/-- Adds within 32 bits, saturating. -/
def sat32 (n : Nat) : Nat := min n 0xFFFFFFFF

/-- One commit's effect on a request, and the header fields of its token event. -/
structure Yielded where
  x : Entry
  tokens : List (BitVec 32)
  index : Nat
  depth : Nat
  accepted : Nat
  first : Bool
  late : Bool
  nan : Bool
  deriving DecidableEq, Repr

/-- Step 1 and 2 of R298 for a sequence of the tick: its rows, and what it yields. -/
def applyYield (x : Entry) (rows : List BatchRow) (y : SeqYield) : Entry × List (BitVec 32) × Nat :=
  match rows.head? with
  | none => (x, [], 0)
  | some r =>
    let toks := if y.checked.isSome then y.tokens else []
    match r.role with
    | .decode | .verify =>
      let a := min y.accepted toks.length
      let x1 := { x with ctxLen := x.ctxLen + toks.length, genCount := x.genCount + toks.length,
                         generated := x.generated ++ toks, accepted := x.accepted + a }
      (if toks.isEmpty ∨ r.depth ≠ x.draftDepth then x1 else depthControl x1 a, toks, a)
    | _ =>
      let last := decide (x.promptLen ≤ x.ctxLen + rows.length)
      if !last then ({ x with ctxLen := x.ctxLen + rows.length, state := .prefill }, [], 0)
      else if toks.isEmpty then ({ x with ctxLen := x.promptLen - 1, state := .prefill }, [], 0)
      else ({ x with ctxLen := x.promptLen, genCount := toks.length, generated := toks, state := .decode }, toks, 0)

/-- Step 3 of R298: latency and misses (R299). -/
def latency (x : Entry) (first : Bool) (apply : Word) : Entry × Bool :=
  let dt := (apply - (if first then x.submitTbc else x.lastTbc)).toNat
  let us := sat32 (dt / 1000)
  let target := if first then x.ttftTarget else x.tbtTarget
  let late := decide (target ≠ 0) && decide (target * 1000 < dt)
  ({ x with ttft := if first then us else x.ttft, tbtMax := if first then x.tbtMax else max x.tbtMax us, lastTbc := apply,
            misses := if late then min (x.misses + 1) 0xFFFF else x.misses }, late)

/-- A token event's 32-byte header and tokens (R301). -/
def tokenEvent (e tick : Nat) (y : Yielded) (flags : Nat) : List Byte :=
  let pad := y.tokens.length % 2
  wordBytes y.x.reqId ++ natBytes 8 tick ++ natBytes 4 y.index ++ natBytes 2 e ++ natBytes 1 y.tokens.length
    ++ natBytes 1 flags ++ natBytes 1 y.x.endReason.code ++ natBytes 1 y.depth ++ natBytes 1 y.accepted ++ List.replicate 5 0
    ++ y.tokens.flatMap (fun t => natBytes 4 t.toNat) ++ List.replicate (4 * pad) 0

/-- A result record (R302). -/
def resultBytes (x : Entry) (tick flags : Nat) : List Byte :=
  wordBytes x.reqId ++ natBytes 8 tick ++ natBytes 4 x.promptLen ++ natBytes 4 x.genCount ++ natBytes 4 x.ttft
    ++ natBytes 4 x.tbtMax ++ natBytes 4 x.accepted ++ natBytes 2 x.misses ++ natBytes 1 x.endReason.code ++ natBytes 1 flags
    ++ List.replicate 24 0

/-- The partition's latency counters after a measurement (R304). -/
def State.countLatency (s : State) (n : Part) (y : Yielded) (us : Nat) : State :=
  let s1 := s.bump .svPTokens 0 n.val y.tokens.length
  if y.tokens.isEmpty then s1
  else if y.first then
    (s1.bump .svPTtftMisses 0 n.val (bitN y.late)).setReg .svPTtftMax 0 n.val (BitVec.ofNat 64 (max (s1.regN .svPTtftMax 0 n.val) us))
  else
    (s1.bump .svPTbtMisses 0 n.val (bitN y.late)).setReg .svPTbtMax 0 n.val (BitVec.ofNat 64 (max (s1.regN .svPTbtMax 0 n.val) us))

/-- The miss action of R300: event 0x0506 once, from the home module; MISS_ACTION 0 sets SPEC_OFF. -/
def State.missLimit (s : State) (n : Part) (x : Entry) (tick : Nat) : State × Entry :=
  if x.missLimit = 0 ∨ x.misses < x.missLimit ∨ x.missRaised then (s, x)
  else
    let x1 := { x with missRaised := true }
    let x2 := if x.missAction then x1 else { x1 with specOff := true, draftDepth := 0 }
    (if x.home = s.self then
        s.partEventAt n 0x0506 (BitVec.ofNat 64 tick) (wordBytes x.reqId ++ natBytes 1 (bitN x.missAction))
      else s, x2)

/-- What a commit does to one live request (R298 to R302): `rows` are its rows in the committed batch, none if it had none. -/
def State.commitEntry (n : Part) (tick : Nat) (apply : Word) (tickLate bound : Bool) (s : State) (e : Nat) : State :=
  match s.entry? e with
  | none => s
  | some x =>
    if !x.live ∨ x.part ≠ n then s
    else
      let b := (s.svPart n).running
      let rows := b.rowsOf e
      let y := b.yieldOf e
      let r := applyYield x rows y
      let first := decide (x.genCount = 0)
      let some_ := !r.2.1.isEmpty
      let l := if some_ then latency r.1 first apply else (r.1, false)
      let us := if first then l.1.ttft else sat32 ((apply - x.lastTbc).toNat / 1000)
      let m := s.missLimit n l.1 tick
      let fin : EndReason :=
        if some_ ∧ y.endReason ≠ .none then y.endReason
        else if wallReached x tick then .wall
        else if x.cancel then .cancelled
        else .none
      let idle := if rows.isEmpty then x.idleTicks + 1 else 0
      let x1 := { m.2 with idleTicks := idle, endReason := fin, state := if fin = .none then m.2.state else .done }
      let z : Yielded :=
        { x := x1, tokens := r.2.1, index := x.promptLen + x.genCount, depth := ((rows.head?).map (·.depth)).getD 0,
          accepted := r.2.2, first := first && some_, late := l.2,
          nan := y.nan.any (fun p => decide (p.1 < r.2.1.length)) }
      let flags := bitN z.first + 2 * bitN z.late + 4 * bitN tickLate + 8 * bitN bound + 16 * bitN (fin != .none)
        + 32 * bitN z.nan + 64 * bitN x1.cut
      let send := some_ || fin != .none
      let old : ResultRec := Assoc.getD e ⟨List.replicate 64 0, 0, 0⟩ m.1.sv.results
      let kept := old.flags ||| (if send then flags else 0)
      let rec_ : ResultRec := if fin = .none then { old with flags := kept } else ⟨resultBytes x1 tick kept, kept, 0⟩
      let s1 := (m.1.putEntry e x1).countLatency n z us
      let s2 := { s1 with sv := { s1.sv with results := Assoc.put e rec_ s1.sv.results } }
      let s3 := if fin = .none then s2 else s2.tableWrite (0x800000 + 64 * e) rec_.bytes
      if send ∧ x.home = s.self then
        s3.eventOn x.channel 1 0 (BitVec.ofNat 64 tick) (tokenEvent e tick z flags)
      else s3

/-- The entries of the batch in batch order, then the other live entries by index. -/
def State.commitOrder (s : State) (n : Part) : List Nat :=
  let heads := ((s.svPart n).running.rows.mapIdx (fun i r => (i, r))).filter (fun p => decide (p.1 = p.2.seqRow))
  let mine := heads.map (fun p => p.2.entry)
  let rest := (s.entriesOf n).filter (fun p => p.2.live && !mine.contains p.1)
  mine ++ rest.map (·.1) |>.foldl (fun l e => if l.contains e then l else l ++ [e]) []

/-- Insertion into a rising list. -/
def insertNat (x : Nat) : List Nat → List Nat
  | [] => [x]
  | y :: l => if y < x then y :: insertNat x l else x :: y :: l

/-- Entries whose maps switch back at the commit of a tick (R344). -/
def switching (s : State) (n : Part) (tick : Nat) : List Nat :=
  (List.finRange 8).flatMap (fun d => ((s.pool d n).promote.filter (fun x => decide (x.2.2.1 ≤ tick))).map (·.1))

/-- A promoted entry starts to count idle ticks again, so that it is a candidate before it can be demoted (R343, R344, log 101). -/
def State.idleAgain (s : State) (e : Nat) : State :=
  match s.entry? e with
  | some x => s.setEntry e { x with idleTicks := 0 }
  | none => s

/-- The request-table updates of a commit, and the pages that follow (R289, R298, R343, R344). -/
def State.commitRequests (s : State) (n : Part) (tick : Nat) (apply : Word) (late bound : Bool) : State :=
  let order := s.commitOrder n
  let s1 := order.foldl (State.commitEntry n tick apply late bound) s
  let s2 := s1.kvPublish n
  let ended := (s1.entriesOf n).filter (fun p => decide (p.2.state = .done) && order.contains p.1)
  let s3 := ended.foldl (fun t p => (List.finRange 8).foldl (State.freeEntry n p.1) t) s2
  let back := switching s3 n tick
  let s3' := back.foldl State.idleAgain s3
  let s4 := (List.finRange 8).foldl (State.switchDie n tick) s3'
  let idleTicks := bits (s4.reg .memPDemote 0 n.val) 15 0
  let idle := (s4.entriesOf n).filter (fun p =>
    decide (idleTicks ≠ 0) && decide (p.2.state = .prefill ∨ p.2.state = .decode) && decide (idleTicks ≤ p.2.idleTicks))
  ((idle.map (·.1)).foldl (fun l e => insertNat e l) []).foldl
    (fun t e => (List.finRange 8).foldl (State.demoteDie n e) t) s4

/-- The announcements of activations that take effect at this commit's apply (R367). -/
def State.announceSwitches (s : State) (n : Part) : State :=
  let x := s.svPart n
  x.switched.foldl (fun t k => t.partEvent n 0x0709 (natBytes 2 k.1.toNat ++ natBytes 2 k.2.1.toNat ++ natBytes 1 k.2.2))
    (s.setSvPart n { x with switched := [] })

end Sys2Proof.Machine
end

