-- ==== Sys2Proof/Machine/Cap.lean ====
section
/-! DEFINITION. The effective power cap, EMERGENCY and CAP_TRACKING (R534 to R536, R545), and codes of the power manager. -/

namespace Sys2Proof.Machine

/-- Replaces the power manager's state. -/
def State.setPw (s : State) (p : Power) : State := { s with pw := p }

/-- Reports a power code: PWR.CODE and an event on the management channel (R549). -/
def State.pwrReport (s : State) (code : Code) (detail : List Byte := []) : State := s.mgmtReport .pwrCode code detail

/-- The caps that hold, with their source: 0 commanded, 1 shelf, 2 safe (R534, R535). -/
def State.caps (s : State) : List (Nat × Nat) :=
  [(s.regN .pwrCap, 0)] ++ (if s.pw.shelfLoss then [(s.regN .pwrShelfCap, 1)] else [])
    ++ (if s.pw.safeCap then [(s.regN .pwrSafeCap, 2)] else [])

/-- The effective cap and its source: the smallest, the first of equals (R534). -/
def State.effectiveCap (s : State) : Nat × Nat :=
  s.caps.foldl (fun b c => if c.1 < b.1 then c else b) (s.regN .pwrCap, 0)

/-- CAP_TRACKING clears: event 0x0C02 with the duration in us and the energy above the cap in mJ (R536). -/
def State.endTracking (s : State) : State :=
  let us := (s.now - s.pw.trackStart).toNat / 1000
  let s1 := s.setPw { s.pw with tracking := false, excessUj := 0 }
  s1.pwrReport 0x0C02 (natBytes 4 us ++ natBytes 4 (s.pw.excessUj / 1000))

/-- CAP_TRACKING is set at a fall of the effective cap below E, and cleared by a cap at or above E (R536). -/
def State.track (s : State) (old : Nat) : State :=
  let c := s.effectiveCap.1
  if s.pw.tracking then (if s.pw.estimate ≤ c then s.endTracking else s)
  else if c < old ∧ c < s.pw.estimate then
    (s.setPw { s.pw with tracking := true, trackE0 := s.pw.estimate, trackStart := s.now, excessUj := 0 }).pwrReport 0x0C02 (natBytes 8 0)
  else s

/-- The effective cap is evaluated again after any of its inputs changed (R534 to R536). -/
def State.recap (s : State) : State :=
  let old := s.regN .pwrEffectiveCap
  let c := s.effectiveCap
  let s1 := s.setReg .pwrEffectiveCap 0 0 (BitVec.ofNat 64 c.1)
  let emergency := decide (c.1 < s.regN .pwrFloor)
  let s2 :=
    if emergency = s.pw.emergency then s1
    else (s1.setPw { s1.pw with emergency := emergency }).pwrReport 0x0C03 (natBytes 4 c.1 ++ natBytes 1 c.2)
  s2.track old

/-- Stores a commanded cap, clamped to the floor where the policy says so (R534). -/
def State.storeCap (s : State) (w : Nat) : State :=
  let floor := s.regN .pwrFloor
  if !(s.reg .pwrCapPolicy).getLsbD 0 && decide (w < floor) then
    (s.setReg .pwrCap 0 0 (BitVec.ofNat 64 floor)).pwrReport 0x0C0F
  else s.setReg .pwrCap 0 0 (BitVec.ofNat 64 w)

end Sys2Proof.Machine
end

