-- ==== Sys2Proof/Machine/Change.lean ====
section
/-! DEFINITION. Protection changes: change bodies, the checks of the tables they would produce, and their application (R324,
R463 to R467, R565 to R571, R573). -/

namespace Sys2Proof.Machine

/-- Replaces the trust state. -/
def State.setTrust (s : State) (t : Trust) : State := { s with trust := t }

/-- Keeps a code in SEC.CODE (R578). -/
def State.secCode (s : State) (code : Code) : State := s.setReg .secCode 0 0 (codeWord code)

/-- Whether the module is enrolled (R565). -/
def Trust.enrolled (t : Trust) : Bool := !t.operator.isEmpty && !t.custodian.isEmpty

/-- A key slot: EMPTY where none is listed, with the OWNER of the reset value of SEC.SLOTs (R573, R578, log 88). -/
def Trust.slot (t : Trust) (k : Nat) : KeySlot := Assoc.getD k ⟨0, none⟩ t.slots

/-! ## Change bodies (R566, R567) -/

/-- The items of a change body after its header; `none` for a malformed body. -/
def changeItems : Nat → List Byte → Option (List ChangeItem)
  | 0, bs => if bs.isEmpty then some [] else none
  | k + 1, bs =>
    let len := fieldNat bs 4 4
    if bs.length < 8 ∨ fieldNat bs 1 1 ≠ 0 ∨ bs.length < 8 + len then none
    else
      (changeItems k (bs.drop (8 + len))).map (fun l =>
        ⟨fieldNat bs 0 1, fieldNat bs 2 2, (bs.drop 8).take len⟩ :: l)

/-- A change body (R567). -/
def parseChange (bs : List Byte) : Option (List ChangeItem) :=
  let k := fieldNat bs 4 2
  if bs.length < 16 ∨ fieldNat bs 0 4 ≠ 0x4B534348 ∨ k = 0 ∨ 256 < k ∨ !zeros (sub bs 6 10) then none
  else changeItems k (bs.drop 16)

/-- An item as bytes. -/
def ChangeItem.bytes (i : ChangeItem) : List Byte :=
  natBytes 1 i.typ ++ [0] ++ natBytes 2 i.index ++ natBytes 4 i.data.length ++ i.data

/-- The least and largest INDEX and the length of each type of item (R567). -/
def itemShape : Nat → Option (Nat × Nat × Nat)
  | 1 => some (0, 15, 8)
  | 2 => some (0, 63, 16)
  | 3 => some (1, 58, 8)
  | 4 => some (0, 15, 160)
  | 5 => some (0, 0, 8)
  | 6 => some (0, 0, 8)
  | 7 => some (1, 2, 104)
  | _ => none

/-- Whether an item breaks the table of R567. -/
def ChangeItem.bad (i : ChangeItem) : Bool :=
  match itemShape i.typ with
  | none => true
  | some (lo, hi, len) =>
    decide (i.index < lo) || decide (hi < i.index) || decide (i.data.length ≠ len)
      || (match i.typ with
        | 3 => !zeros (i.data.drop 1) || (decide (15 < fieldNat i.data 0 1) && decide (fieldNat i.data 0 1 ≠ 0xFF))
        | 4 => !zeros (sub i.data 97 3) || !zeros (i.data.drop 156)
        | 5 => !zeros (i.data.drop 1) || decide (1 < fieldNat i.data 0 1)
        | 6 => !zeros (i.data.drop 1) || decide (2 < fieldNat i.data 0 1)
        | 7 => !zeros (i.data.drop 97)
        | _ => false)

/-- A key of zeros counts as none. -/
def keyOf (bs : List Byte) : List Byte := if zeros bs then [] else bs

/-- An item's effect on the set-up. -/
def State.putItem (s : State) (i : ChangeItem) : State :=
  let t := s.trust
  match i.typ with
  | 1 => s.setReg .partCfg 0 i.index (bytesWord i.data)
  | 2 => (s.setReg .memRegA 0 i.index (bytesWord (i.data.take 8))).setReg .memRegB 0 i.index (bytesWord (i.data.drop 8))
  | 3 =>
    let o := fieldNat i.data 0 1
    let k := t.slot i.index
    s.setTrust { t with slots := Assoc.put i.index ⟨o, if k.owner = o then k.key else none⟩ t.slots }
  | 4 =>
    let n : Part := Fin.ofNat 16 i.index
    s.setTrust { t with manifestKeys := if zeros i.data then Assoc.del n t.manifestKeys else Assoc.put n i.data t.manifestKeys }
  | 5 => s.setReg .pwrCapPolicy 0 0 (bytesWord i.data)
  | 6 => s.setTrust { t with debug := fieldNat i.data 0 1, debugStored := fieldNat i.data 0 1 }
  | _ =>
    if i.index = 1 then s.setTrust { t with operator := keyOf (i.data.take 97) }
    else s.setTrust { t with custodian := keyOf (i.data.take 97) }

/-- The set-up that a change would produce. -/
def State.putItems (s : State) (l : List ChangeItem) : State := l.foldl State.putItem s

/-- The change body that sets every item of the set-up (R566). -/
def State.setup (s : State) : List Byte :=
  let t := s.trust
  let one (typ ix : Nat) (d : List Byte) : List Byte := ChangeItem.bytes ⟨typ, ix, d⟩
  natBytes 4 0x4B534348 ++ natBytes 2 158 ++ List.replicate 10 0
    ++ (List.finRange 16).flatMap (fun n => one 1 n.val (wordBytes (s.partCfg n)))
    ++ (List.range 64).flatMap (fun i => one 2 i (wordBytes (s.reg .memRegA 0 i) ++ wordBytes (s.reg .memRegB 0 i)))
    ++ (List.range 58).flatMap (fun i => one 3 (i + 1) (natBytes 8 (t.slot (i + 1)).owner))
    ++ (List.finRange 16).flatMap (fun n => one 4 n.val (padTo 160 (Assoc.getD n [] t.manifestKeys)))
    ++ one 5 0 (wordBytes (s.reg .pwrCapPolicy)) ++ one 6 0 (natBytes 8 t.debug)
    ++ one 7 1 (padTo 104 t.operator) ++ one 7 2 (padTo 104 t.custodian)

/-- SETUP_DIGEST (R566). -/
def State.setupDigest (s : State) : List Byte := sha384 s.setup

/-! ## The checks of the tables (R324, R464) -/

/-- Whether a VALID entry of the partition table has a field out of range, or an entry a reserved bit (R463, R464). -/
def State.partBad (s : State) (n : Part) : Bool :=
  let w := s.partCfg n
  decide (w &&& 0x1FFFFE00FF000000 ≠ 0)
    || (s.partValid n && (decide (s.share n = 0) || decide (256 < s.share n) || (s.partDies n).isEmpty
      || decide (143 < s.coreBase n) || decide (s.corePer n = 0) || decide (144 < s.coreBase n + s.corePer n)))

/-- Whether two VALID partitions hold the same slot on the same die. -/
def State.partsClash (s : State) (a b : Part) : Bool :=
  decide (a ≠ b) && s.partValid a && s.partValid b && (s.partDies a).any (fun d => (s.partDies b).contains d)
    && decide (s.coreBase a < s.coreBase b + s.corePer b) && decide (s.coreBase b < s.coreBase a + s.corePer a)

/-- Whether a partition table breaks R464. -/
def State.partsBad (s : State) : Bool :=
  let l := List.finRange 16
  let valid := l.filter s.partValid
  l.any s.partBad || l.any (fun a => l.any (s.partsClash a))
    || decide (256 < ((valid.filter (fun n => !s.bestEffort n)).map s.share).sum)
    || decide (2 < (valid.filter s.observed).length)

/-- Whether a change alters VALID, DIE_MASK, CORE_BASE or CORES of a partition whose domain is enabled (R464). -/
def State.partsBusy (s t : State) : Bool :=
  (List.finRange 16).any (fun n => s.enabled n && decide ((s.partCfg n ^^^ t.partCfg n) &&& 0x8000000000FFFFFF ≠ 0))

/-- The ranges that no region may overlap: spare pool, tier cache, journal area, second-tier page pools (R318, R327, R338,
R341). -/
def State.reservedRanges (s : State) : List (Nat × Nat) :=
  [(s.regN .memSpareBase, 16384 * s.regN .memSpareFrames), (s.regN .memTcBase, s.regN .memTcSize),
   (s.regN .memJournalBase, 512 * mib)]
    ++ (List.finRange 16).map (fun n => (s.regN .memPT2Base 0 n.val, 8 * s.regN .memPT2Pages 0 n.val * s.kvBytes n))

/-- Whether a region lies wholly in close memory, in one port's windows, or in a die store's general area (R324). -/
def State.regionInside (s : State) (r : Region) : Bool :=
  let e := r.base + r.size
  decide (e ≤ s.closeTop)
    || (decide (cxlBase ≤ r.base) && decide (e ≤ cxlBase + 0x80000000000)
      && decide ((r.base - cxlBase) / 0x20000000000 = (e - 1 - cxlBase) / 0x20000000000))
    || (List.finRange 8).any (fun d => decide (dieAddr d ≤ r.base) && decide (e + s.pnBytes d ≤ dieAddr d + 176 * mib))

/-- Whether a valid region breaks R324 by itself. -/
def State.regionBad (s : State) (r : Region) : Bool :=
  r.valid && (decide (r.size = 0) || !s.regionInside r || decide (r.cls = 3) || (r.tcache && decide (r.base < cxlBase))
    || (r.tcache && decide (dieBase ≤ r.base)) || (decide (r.key ≠ 0) && decide ((s.trust.slot r.key).owner ≠ r.part.val))
    || s.reservedRanges.any (fun x => overlaps r.base r.size x.1 x.2))

/-- Whether a region table breaks R324. -/
def State.regionsBad (s : State) : Bool :=
  let l := (List.range 64).map s.region
  l.any s.regionBad || l.any (fun a => l.any (fun b => decide (a.ix < b.ix) && a.valid && b.valid && overlaps a.base a.size b.base b.size))

/-! ## Keys of regions (R328, R329) -/

/-- The key slot that covers an address: 0 where no valid region does. -/
def State.keyAt (s : State) (a : Nat) : Nat := ((s.regionAt a).map (·.key)).getD 0

/-- The key under which an address is read: none where its region has no KEY, or the slot is EMPTY (R328, R573). -/
def State.keyBytes (s : State) (a : Nat) : List Byte := ((s.trust.slot (s.keyAt a)).key).getD []

/-- A range reads under another key from now on: its old ciphertext is decrypted with the new key (R329, log 9). Die stores hold
plaintext. -/
def State.recodeRange (s : State) (a b : Nat) (old new : List Byte) : State :=
  if old = new ∨ dieBase ≤ a then s else { s with mem := s.mem.recode a b ⟨old, new, s.regN .memIlvSize, s.dieBytes⟩ }

/-- The edges of the valid regions of two tables, in no order. -/
def regionEdges (l : List Region) : List Nat := (l.filter (·.valid)).flatMap (fun r => [r.base, r.base + r.size])

/-- Insertion of an edge into a rising list without repeats. -/
def edgeInsert (x : Nat) : List Nat → List Nat
  | [] => [x]
  | y :: l => if x < y then x :: y :: l else if x = y then y :: l else y :: edgeInsert x l

/-- Every range whose key differs between an old set-up and the new is read under its new key (R329). -/
def State.rekey (s old : State) : State :=
  let edges := (regionEdges ((List.range 64).map old.region ++ (List.range 64).map s.region)).foldr edgeInsert []
  (edges.zip edges.tail).foldl (fun t e => t.recodeRange e.1 e.2 (old.keyBytes e.1) (s.keyBytes e.1)) s

/-! ## Application (R570 to R573) -/

/-- Whether an item touches a partition, by the set-up before and after the change (R569). -/
def ChangeItem.touches (s t : State) (n : Part) (i : ChangeItem) : Bool :=
  match i.typ with
  | 1 | 4 => decide (i.index = n.val)
  | 2 => ((s.region i.index).valid && decide ((s.region i.index).part = n)) || decide ((t.region i.index).part = n)
  | 3 => decide ((s.trust.slot i.index).owner = n.val) || decide ((t.trust.slot i.index).owner = n.val)
  | _ => false

/-- The enabled partitions that a change touches. -/
def State.touched (s : State) (l : List ChangeItem) : List Part :=
  (List.finRange 16).filter (fun n => s.enabled n && l.any (ChangeItem.touches s (s.putItems l) n))

/-- Erases every key slot. -/
def Trust.erased (t : Trust) : Trust := { t with slots := t.slots.map (fun k => (k.1, { k.2 with key := none })) }

/-- A change applies all its items in one step (R570 to R572). -/
def State.applyItems (s : State) (l : List ChangeItem) (f : Frame) : State :=
  let s1 := (s.putItems l).derFree
  let t := s1.trust
  let full := decide (t.debug = 2) && decide (s.trust.debug ≠ 2)
  let t1 := if full then { t.erased with fullSeen := true } else t
  let t2 := if t1.operator.isEmpty && t1.custodian.isEmpty && s.trust.enrolled then t1.erased else t1
  let s2 := (s1.setTrust { t2 with change := none, changeSeq := t2.changeSeq + 1 }).rekey s
  let s3 := if s.trust.debug = t.debug then s2 else (s2.secCode 0x0D0F).mgmtEvent 0x0D0F
  let s4 := if s.reg .pwrCapPolicy = s3.reg .pwrCapPolicy then s3 else (s3.storeCap (s3.regN .pwrCap)).recap
  let s5 := (s4.secCode 0x0D0A).mgmtEvent 0x0D0A (natBytes 8 s4.trust.changeSeq ++ s4.setupDigest.take 8)
  s5.flashWrite.complete 0x0091 f 0

/-- The pending change of a domain applies (R570). -/
def State.applyChange (s : State) (n : Part) : State :=
  match s.trust.change with
  | none => s
  | some (l, m, f) => if m = n then s.applyItems l f else s

/-- Whether a pending change touches a partition (R570). -/
def State.changePends (s : State) (n : Part) : Bool :=
  match s.trust.change with
  | none => false
  | some (l, _, _) => l.any (ChangeItem.touches s (s.putItems l) n)

end Sys2Proof.Machine
end

