-- ==== Sys2Proof/Machine/Records.lean ====
section
/-! DEFINITION. Signed records and images in flash (R553 to R560, R580, R581), and the measurements (R556, R563). -/

namespace Sys2Proof.Machine

/-! ## Records (R553) -/

/-- The serial value in 8 bytes. -/
def serialBytes : List Byte := natBytes 8 Config.serial.toNat

/-- The header of a signed record (R553). -/
def recordHeader (kind signE signL svn len : Nat) (subject : List Byte) : List Byte :=
  natBytes 4 0x4B535352 ++ natBytes 2 1 ++ natBytes 1 kind ++ [0] ++ natBytes 2 signE ++ natBytes 2 signL ++ natBytes 4 svn
    ++ natBytes 4 len ++ natBytes 4 0 ++ padTo 32 subject ++ List.replicate 8 0

/-- Bytes that production wrote (log 54). -/
def madeBytes (kind ix off n : Nat) : List Byte := (List.range n).map (fun i => Config.recordByte kind ix (off + i))

/-- A signature block (R356), made by the key of a number. -/
def signBlock (key : Nat) (lms : Bool) (bs : List Byte) : List Byte :=
  (List.range 96).map (Config.signByte key bs)
    ++ (if lms then (List.range 2668).map (fun i => Config.signByte (key + 1) bs i) else List.replicate 2668 0) ++ List.replicate 52 0

/-- A record of production, with a Kodraul key's signature. -/
def madeRecord (kind ix : Nat) (subject body : List Byte) : List Byte :=
  let h := natBytes 4 0x4B535352 ++ natBytes 2 1 ++ natBytes 1 kind ++ [0] ++ madeBytes kind ix 1000000 4 ++ natBytes 4 0
    ++ natBytes 4 body.length ++ natBytes 4 0 ++ padTo 32 subject ++ List.replicate 8 0
  h ++ body ++ madeBytes kind ix 2000000 2764 ++ List.replicate 52 0

/-- The first 32 bytes of SHA-384 of a die's fingerprint (R553). -/
def dieSubject (d : Nat) : List Byte := madeBytes 3 d 3000000 32

/-- A die's voltage table of production: point 15 of a compute die is 1,100 MHz (R521, R522, R559). -/
def madeVf (d : Nat) : List Byte :=
  let b := madeBytes 4 d 0 128
  if d < 8 then b.take 120 ++ natBytes 2 1100 ++ b.drop 122 else b

/-- The body of a DIE_ID record of production (R558). -/
def madeDieId (d : Nat) : List Byte :=
  madeBytes 3 d 0 10 ++ natBytes 1 d ++ madeBytes 3 d 11 6 ++ List.replicate 3 0 ++ sha384 (madeVf d) ++ List.replicate 4 0

/-- A record in force, by kind and index: one that SEC_RECORD_LOAD stored, else production's (R559, log 54). -/
def State.keptRecord (s : State) (kind ix : Nat) (made : List Byte) : List Byte := Assoc.getD (kind, ix) made s.trust.records

def State.dieId (s : State) (d : Nat) : List Byte := s.keptRecord 3 d (madeRecord 3 d (dieSubject d) (madeDieId d))
def State.voltage (s : State) (d : Nat) : List Byte := s.keptRecord 4 d (madeRecord 4 d (dieSubject d) (madeVf d))

/-- The MODULE_ID record (R557). -/
def State.moduleId (s : State) : List Byte :=
  madeRecord 2 0 serialBytes (natBytes 5 Config.serial.toNat ++ List.replicate 3 0 ++ madeBytes 2 0 8 6 ++ List.replicate 2 0
    ++ padTo 16 ("KS8-384-A1".toList.map (fun c => BitVec.ofNat 8 c.toNat)) ++ madeBytes 2 0 32 97 ++ List.replicate 3 0
    ++ madeBytes 2 0 132 56 ++ List.replicate 4 0 ++ (List.range 20).flatMap (fun d => sha384 (s.dieId d)))

/-- A REPAIR record by its number, its boot and whether LMS signed it; the spec does not lay out its body (R491, R551, R554,
log 54). -/
def repairRecord (r : Nat × Nat × Bool) : List Byte :=
  let b := madeBytes 5 r.1 0 (Config.recordLen 5 r.1)
  let h := recordHeader 5 0x0200 0x0200 0 b.length serialBytes
  h ++ b ++ signBlock (0x0200 + 256 * r.2.1) r.2.2 (h ++ b)

/-! ## Images (R580, R581) -/

/-- An image slot. -/
def State.image (s : State) (b : Bool) : Image := if b then s.boot.slotB else s.boot.slotA

/-- Replaces an image slot. -/
def State.setImage (s : State) (b : Bool) (x : Image) : State :=
  { s with boot := if b then { s.boot with slotB := x } else { s.boot with slotA := x } }

/-- Puts bytes at an offset of a list, which grows with zeros as far as needed. -/
def putAt (l : List Byte) (off : Nat) (bs : List Byte) : List Byte := padTo off (l.take off) ++ bs ++ l.drop (off + bs.length)

/-- The bytes of a slot: production's, with what BOOT_FW_WRITE wrote since. -/
def State.imageBytes (s : State) (b : Bool) : List Byte :=
  (s.image b).writes.foldl (fun l w => putAt l w.1 w.2) (Config.madeImage b)

/-- The records of an image after its header (R581). -/
def imageRecords : Nat → List Byte → List (List Byte)
  | 0, _ => []
  | k + 1, bs =>
    let n := 64 + fieldNat bs 16 4 + 2816
    if bs.length < 64 then [] else bs.take n :: imageRecords k (bs.drop n)

/-- The FIRMWARE records of the running image. -/
def State.firmware (s : State) : List (List Byte) :=
  let b := s.imageBytes s.boot.running
  imageRecords (fieldNat b 6 2) (b.drop 64)

/-! ## Measurements (R556, R563) -/

/-- What a measurement covers (R563): which FIRMWARE records belong to a die class is the order of the image's records
(log 54). -/
def State.measured (s : State) (k : Nat) : List Byte :=
  let fw (l : List Nat) : List Byte := l.flatMap (fun i => s.firmware.getD i [])
  match k with
  | 1 => Config.romBytes
  | 2 => fw [0]
  | 3 => fw [1, 5]
  | 4 => fw [2]
  | 5 => fw [3, 4]
  | 6 => s.moduleId
  | 7 => (List.range 20).flatMap s.dieId
  | 8 => (List.range 20).flatMap s.voltage
  | 9 => (s.trust.repairLoaded.map repairRecord).getD []
  | 10 => s.setup
  | _ => natBytes 1 s.trust.debug ++ natBytes 1 (bitN s.trust.fullSeen)

/-- A measurement: a SHA-384 value. -/
def State.measurement (s : State) (k : Nat) : List Byte := sha384 (s.measured k)

/-- The boot digest: SHA-384 over measurements 1 to 9 (R556). -/
def State.bootDigest (s : State) : List Byte := sha384 ((List.range 9).flatMap (fun k => s.measurement (k + 1)))

/-- The ALIAS record (R553, R560): signed by DEV, by ECDSA only once DEV-LMS has no signature left (R551). -/
def State.aliasRecord (s : State) : List Byte :=
  let n := s.trust.bootCount
  let b := madeBytes 6 n 0 97 ++ List.replicate 3 0 ++ madeBytes 6 n 100 56 ++ List.replicate 4 0 ++ publicKey (Config.keyxSecret n)
    ++ List.replicate 7 0 ++ s.bootDigest ++ natBytes 8 n
  let h := recordHeader 6 0x0100 0x0100 0 b.length serialBytes
  h ++ b ++ signBlock 0x0100 s.trust.aliasLms (h ++ b)

/-- A signed record by kind and index, if it exists (R577). -/
def State.recordAt (s : State) (kind ix : Nat) : Option (List Byte) :=
  match kind with
  | 1 => s.firmware[ix]?
  | 2 => if ix = 0 then some s.moduleId else none
  | 3 => if ix < 20 then some (s.dieId ix) else none
  | 4 => if ix < 20 then some (s.voltage ix) else none
  | 5 => if ix = 0 then s.trust.repair.map repairRecord else none
  | 6 => if ix = 0 then some s.aliasRecord else none
  | _ => Assoc.find (kind, ix) s.trust.records

/-- The certificate chain of slot 0 (R561). -/
def State.certificates (s : State) : List Byte := (List.range Config.certLen).map (Config.certByte s.trust.bootCount)

end Sys2Proof.Machine
end

