-- ==== Sys2Proof/Machine/RegFile.lean ====
section
/-! DEFINITION. Reading a register (R5 to R8, R616): the value kept, or the fields that the register tables draw from the state
of their unit. -/

namespace Sys2Proof.Machine

/-! ## Codes of states -/

/-- R72. -/
def TbState.code : TbState → Nat
  | .free => 0
  | .acquiring => 1
  | .locked => 2
  | .holdover => 3
  | .root => 4

/-- R72. -/
def DomState.code : DomState → Nat
  | .idle => 0
  | .starting => 1
  | .running => 2
  | .rewinding => 3
  | .suspended => 4

/-- R350. -/
def CxlState.code : CxlState → Nat
  | .down => 0
  | .training => 1
  | .inService => 2
  | .refused => 3

/-- R460. -/
def HpState.code : HpState → Nat
  | .down => 0
  | .training => 1
  | .up => 2

/-- R490. -/
def SiteState.code : SiteState → Nat
  | .fused => 0
  | .inService => 1
  | .spare => 2
  | .quarantined => 3
  | .scanning => 4
  | .watch => 5
  | .retired => 6

/-- R518. -/
def PwrState.code : PwrState → Nat
  | .off => 0
  | .standby => 1
  | .stagger => 2
  | .ramp => 3
  | .on => 4
  | .tripped => 5

/-- R595. -/
def ImgState.code : ImgState → Nat
  | .empty => 0
  | .valid => 1
  | .trial => 2
  | .bad => 3

/-- A word from fields, each a value at its lowest bit. -/
def fields (l : List (Nat × Nat)) : Word := BitVec.ofNat 64 (l.map (fun f => f.1 * 2 ^ f.2)).sum

/-- A mask of numbers that a test picks. -/
def maskOf (n : Nat) (f : Nat → Bool) : Nat := ((List.range n).map (fun i => if f i then 2 ^ i else 0)).sum

/-! ## Cadence (R72) -/

/-- CAD.TB_STATUS; no parent is shown in FREE, which no role has left yet (log 55). -/
def State.viewTb (s : State) : Word :=
  let t := s.tb
  let parent := match t.parent with
    | some p => p.val
    | none => if t.state = .free then 0 else 7
  fields [(t.state.code, 0), (t.hops % 16, 4), (parent, 8), (bitN t.spare, 12)]

/-- CAD.DOM_STATUS. -/
def State.viewDom (s : State) (n : Part) : Word :=
  let d := s.dom n
  let role := if !s.enabled n then 0 else if s.isMaster n then 1 else if s.isDeputy n then 2 else 0
  let live := decide (d.state = .running) || decide (d.state = .rewinding)
  fields [(d.state.code, 0), (role, 4), (if live then s.segNow n else 0, 8), (bitN d.lastLate, 16), (bitN d.lastBound, 17)]

/-! ## Core stations (R154, R187 to R189) -/

/-- The logical core that a site serves. -/
def State.coreOn (s : State) (i : Nat) : Option CoreId :=
  if h : i % 160 < 160 then
    let k : SiteId := ⟨Fin.ofNat 8 (i / 160), ⟨i % 160, h⟩⟩
    (s.site k).slot.map (fun x => ⟨k.die, x⟩)
  else none

/-- A site by its index in the station blocks. -/
def siteOfIx (i : Nat) : SiteId := ⟨Fin.ofNat 8 (i / 160), Fin.ofNat 160 (i % 160)⟩

/-- The issue level of a class on a die (R526). -/
def State.issueLevel (s : State) (d : Fin 8) (best : Bool) : Nat :=
  let l := s.pw.levels.getD d.val ⟨16, 16, 0⟩
  if best then l.b else l.g

/-- The state field of a station that is `busy` in a code, 4 on a quarantined site. -/
def State.stationState (s : State) (i : Nat) (busy : Nat) : Nat :=
  if (s.site (siteOfIx i)).state = .quarantined then 4 else busy

/-- MX.STATUS (R154): a bank whose load is not complete is LOADING; a spill begins and ends within the run of its tile. -/
def State.viewMx (s : State) (i : Nat) : Word :=
  let ballast := bitN (decide ((s.pw.levels.getD (i / 160) ⟨16, 16, 0⟩).ballast ≠ 0))
  match s.coreOn i with
  | none => fields [(s.stationState i 0, 0), (ballast, 10)]
  | some c =>
    let x := s.core c
    let bank := match x.mx.bank0, x.mx.bank1 with
      | none, some _ => 1
      | some a, some b => if b.order < a.order then 1 else 0
      | _, _ => 0
    let item := bitN (x.mx.item.isSome && !x.mxq.isEmpty)
    let loading (b : Option MxBank) : Bool := b.any (fun k => !k.complete)
    match x.mxq.head? with
    | none =>
      fields [(s.stationState i (bitN (loading x.mx.bank0 || loading x.mx.bank1)), 0), (bank, 4), (ballast, 10)]
    | some y =>
      let (busy, set, walk) : Nat × Bool × Bool := match y with
        | .mxld _ => (1, false, false)
        | .mxrun _ _ set _ _ _ => (2, set, false)
        | .mxout _ _ set => (3, set, false)
        | .mxsave _ set => (3, set, false)
        | .mxrst _ _ set => (2, set, false)
        | _ => (2, false, true)
      fields [(s.stationState i busy, 0), (bank, 4), (bitN set, 5), (bitN walk, 8), (item, 9), (ballast, 10)]

/-- The STATUS of VX, TX or LX: a command left in its queue waits on a stream. -/
def State.viewQueue (s : State) (i : Nat) (q : Core → List StCmd) : Nat :=
  match s.coreOn i with
  | none => s.stationState i 0
  | some c => s.stationState i (if (q (s.core c)).isEmpty then 0 else 2)

/-- LX.STATUS. -/
def State.viewLx (s : State) (i : Nat) : Word :=
  match s.coreOn i with
  | none => fields [(s.stationState i 0, 0)]
  | some c =>
    let x := s.core c
    let busy := if !x.lxRuns.isEmpty then 1 else if x.lxq.isEmpty then 0 else 2
    fields [(s.stationState i busy, 0), (maskOf 16 (fun q => (Assoc.find (BitVec.ofNat 4 q) x.streams).isSome), 16)]

/-- LX.QSTATn (R189). -/
def State.viewQstat (s : State) (i q : Nat) : Word :=
  match (s.coreOn i).bind (fun c => Assoc.find (BitVec.ofNat 4 q) (s.core c).streams) with
  | none => 0
  | some x =>
    fields [(x.sticky.toNat, 0), (x.base.toNat, 8), (x.dstn.toNat, 18), (x.cons.toNat, 20), (x.prod.toNat, 24), (x.fill, 32),
      (x.rlog.toNat, 48), (x.fmt.toNat, 56), (1, 63)]

/-! ## Die stations (R269, R304, R305, R351) -/

/-- EX.STATUS: the open layer of the lowest partition. ROUTING lasts until the module's counts are summed, RETURNING from WAITIN to
RETURN of a round (log 34). -/
def State.viewEx (s : State) (d : Fin 8) : Word :=
  match (List.finRange 16).find? (fun n => (Assoc.find (d, n) s.ex).any (fun l => !l.closed)) with
  | none => 0
  | some n =>
    match Assoc.find (d, n) s.ex with
    | none => 0
    | some l =>
      let st := if l.dieCounts.isEmpty then 1 else if !l.counted then 2 else if l.combine.isSome then 5
        else if l.returned < l.waited then 4 else 3
      fields [(st, 0), (n.val, 8), (l.cfg.layer.toNat, 16), ((if l.returned < l.waited then l.returned else l.waited) % 65536, 32)]

/-- SV.P_ENTRIES. -/
def State.viewEntries (s : State) (n : Part) : Word :=
  let l := s.entriesOf n
  fields [(l.length, 0), ((l.filter (fun p => decide (p.2.state = .queued))).length, 32)]

/-- Frames that items of a directory hold. -/
def frames (l : List PnItem) : Nat := (l.map (fun i => i.bytes / 65536)).sum

/-! ## Memory, fabric, host port (R349, R350, R426, R427, R460, R461) -/

/-- CXL.STATUS. -/
def CxlPort.status (x : CxlPort) : Word := fields [(x.state.code, 0), (x.width, 8), (x.rate, 16), (bitN x.ide, 24)]

/-- FAB.STATUS; zero while the link dies have no power. -/
def State.viewFab (s : State) : Word :=
  let m := s.self.val
  if s.pw.state ≠ .on ∧ s.pw.state ≠ .ramp then 0
  else fields [(1, 0), (m % 4, 4), (m / 4 % 4, 8), (m / 16, 12), (3, 16),
    (bitN s.fab.map.isSome, 24)]

/-- FAB.PEER_INFO. -/
def peerInfo (x : FabPort) : Word :=
  match x.idents.head? with
  | none => 0
  | some r => fields [(r.port.toNat % 8, 0), (r.x.toNat, 8), (r.y.toNat, 16), (r.z.toNat, 24), (r.level.toNat, 32), (r.features.toNat, 40)]

/-- FAB.LANE_MAP. -/
def laneMap (x : FabPort) : Word := fields [(maskOf 18 (fun l => x.lanes.contains l), 0), (x.failed.toNat, 32)]

/-- CE.STATUS: the engines of a module work on the same instances. -/
def State.viewCe (s : State) : Word :=
  let k := (s.fab.insts.filter (fun x => x.result.isNone && decide (x.fault = 0))).length
  fields [(bitN (decide (0 < k)), 0), (k % 256, 8)]

/-- HP.STATUS. -/
def State.viewHp (s : State) : Word :=
  fields [(s.hp.state.code, 0), (s.hp.lanes, 8), (bitN s.hp.spareFor.isSome, 12), (bitN s.hp.macsec, 16)]

/-- HP.MAC, from the MODULE_ID body (R557). -/
def State.viewMac (s : State) : Word := BitVec.ofNat 64 (bytesNat (sub s.moduleId 72 6).reverse)

/-- NX.STATUS. -/
def State.viewNx (s : State) : Word :=
  let k := (s.hp.sessions.filter (fun p => match p.2.owner with
    | .net _ => p.2.established
    | _ => false)).length
  fields [(bitN (!s.hp.nxOut.isEmpty), 0), (k, 16)]

/-! ## Partitions (R472, R486) -/

/-- PART.STATUS. -/
def State.viewPart (s : State) : Word :=
  let m (f : Part → Bool) : Nat := maskOf 16 (fun n => s.partValid (Fin.ofNat 16 n) && f (Fin.ofNat 16 n))
  fields [(m (fun _ => true), 0), (m s.observed, 16), (m s.bestEffort, 32)]

/-- PART.SHARE_SUM. -/
def State.viewShares (s : State) : Word :=
  BitVec.ofNat 64 (((List.finRange 16).filter (fun n => s.partValid n && !s.bestEffort n)).map s.share).sum

/-- The lowest issue level among a partition's cores. -/
def State.lowestLevel (s : State) (n : Part) : Nat :=
  (s.partDies n).foldl (fun m d => min m (s.issueLevel d (s.bestEffort n))) 16

/-- PART.Pn_STATUS: pre-emptions are kept in the register. -/
def State.viewPartStatus (s : State) (n : Part) : Word :=
  fields [(bitN (s.dom n).holding, 0), (s.lowestLevel n, 8), (bits (s.reg .partPStatus 0 n.val) 63 32, 32)]

/-- A credit: the share of a rate in a window, rounded up (R472). -/
def creditOf (share adm window rate : Nat) : Nat :=
  if rate = 0 then 0 else (share * adm * window + 256 * rate - 1) / (256 * rate)

/-- The lowest trained rate of the memory-port dies in Gbit/s (R313). -/
def State.mdRate (s : State) : Nat := (List.range 4).foldl (fun m d => min m (s.regN .memMdRate 0 d)) (s.regN .memMdRate 0 0)

/-- The data rate of a memory-port die in MB/s (R470). -/
def State.closeRate (s : State) : Nat :=
  48000 * s.mdRate * (if (s.reg .memCtrl).getLsbD 0 then 15 else 16) / 16

/-- PART.Pn_CREDIT, from the end of training on. -/
def State.viewCredit (s : State) (n : Part) : Word :=
  if !s.boot.ready || !s.partValid n then 0
  else
    let w := s.regN .arbWindow
    let noCxl := ((List.finRange 4).filter (fun p => decide ((s.cxlPort p).state = .inService))).isEmpty
    fields [(creditOf (s.share n) (s.regN .cadAdmCloseBw) w (4 * s.closeRate), 0),
      (if noCxl then 0 else creditOf (s.share n) 108000 w 120000, 16),
      (creditOf (s.share n) (s.regN .cadAdmFabBw) w 400000, 32)]

/-! ## Integrity (R515, R516) -/

/-- INT.STATUS. -/
def State.viewInt (s : State) : Word :=
  let queue := (s.integ.queue.map (fun p => p.2.length)).sum
  let run (d : Nat) : Bool := (Assoc.getD (Fin.ofNat 8 d) [] s.integ.queue).any (fun r => r.running.isSome)
  fields [(maskOf 8 run, 0), (queue % 256, 32)]

/-- Whether a die has a vacant slot. -/
def State.vacantOn (s : State) (d : Fin 8) : Bool := (List.finRange 144).any (fun k => (s.siteOf ⟨d, k⟩).isNone)

/-- DER.STATUS. -/
def State.viewDer (s : State) : Word :=
  fields [(maskOf 8 (fun d => s.vacantOn (Fin.ofNat 8 d)), 0), (maskOf 8 (fun d => s.scanning (Fin.ofNat 8 d)), 8)]

/-- Nanoseconds of an hour. -/
def hourNs : Nat := 3600000000000

/-- DER.SITE (R516). -/
def State.viewSite (s : State) (i : SiteId) : Word :=
  let x := s.site i
  let left := if x.state = .watch then (x.watchEnd - s.opTime + hourNs - 1) / hourNs else 0
  fields [(x.state.code, 0), (bitN (s.replaying i), 11), (bitN x.scanOk, 12), ((x.slot.map (·.val)).getD 255, 16),
    (min 15 (s.siteEvents i), 24), (min 65535 left, 32), (min 65535 ((s.opTime - x.scanAt) / hourNs), 48)]

/-! ## Power (R547, R548) -/

/-- PWR.STATUS. -/
def State.viewPwr (s : State) : Word :=
  let p := s.pw
  fields [(p.state.code, 0), (bitN p.tracking, 8), (bitN p.emergency, 9), (bitN p.shelfLoss, 10), (bitN p.safeCap, 11),
    (bitN p.throttled, 12), (bitN p.hold, 13), (bitN p.armed, 14), (bitN p.estFault, 15), (p.slot.toNat, 16)]

/-- Whether a site belongs to those that are parked (R530). -/
def State.parks (s : State) (i : SiteId) : Bool :=
  match (s.site i).state with
  | .fused | .retired | .quarantined => true
  | .spare | .scanning => false
  | .inService | .watch =>
    match (s.site i).slot.bind (fun k => s.partOf ⟨i.die, k⟩) with
    | none => true
    | some n => !s.enabled n

/-- Whether a site is parked: parking and unparking end with SITE_UNPARK_DONE; SPARE and SCANNING sites never are (R530). -/
def State.parked (s : State) (i : SiteId) : Bool :=
  match (s.site i).state with
  | .spare | .scanning => false
  | _ => !s.integ.unparked.contains i

/-- PWR.DIEd. -/
def State.viewDie (s : State) (d : Nat) : Word :=
  let p := s.pw
  if p.state ≠ .ramp ∧ p.state ≠ .on then 0 else
  let base := [((wrap 16 (p.tj.getD d 0)), 0), (p.ceilings.getD d 16, 16), (p.vfPoint.getD d 0, 48)]
  if d < 8 then
    let l := p.levels.getD d ⟨16, 16, 0⟩
    let parked := ((dieSites (Fin.ofNat 8 d)).filter s.parked).length
    fields (base ++ [(l.g, 24), (l.b, 32), (parked % 256, 40)])
  else fields base

/-- A point of a die's voltage table (R559). -/
def State.viewVf (s : State) (d n : Nat) : Word := bytesWord (sub (s.voltage d) (64 + 8 * n) 8)

/-- K of R532. -/
def State.keepLevel (s : State) : Nat :=
  let g := (List.finRange 16).any (fun n => s.enabled n && !s.bestEffort n)
  if s.pw.state = .on ∧ !s.pw.hold ∧ g then min (s.regN .pwrFloor) (s.regN .pwrEffectiveCap) else 0

/-- Whether any die issues ballast. -/
def State.ballastOn (s : State) : Bool := s.pw.levels.any (fun l => decide (l.ballast ≠ 0))

/-! ## Trust and bring-up (R578, R595) -/

/-- SEC.STATUS. -/
def State.viewSec (s : State) : Word :=
  fields [(bitN s.trust.enrolled, 0), (s.trust.debug, 4), (bitN s.trust.change.isSome, 8)]

/-- SEC.SLOTs. -/
def State.viewSlot (s : State) (k : Nat) : Word :=
  let x := s.trust.slot k
  if k = 0 then 0
  else fields [(if 59 ≤ k ∧ x.key.isSome then 0xFF else x.owner, 0), (bitN x.key.isSome, 63)]

/-- BOOT.STATUS. -/
def State.viewBoot (s : State) : Word :=
  let b := s.boot
  fields [(b.stage, 0), (bitN b.ready, 4), (bitN b.running, 8), (b.cause, 16)]

/-- BOOT.SLOTA and SLOTB. -/
def State.viewImage (s : State) (b : Bool) : Word :=
  let x := s.image b
  fields [(x.state.code, 0), (bitN (s.boot.current == b), 4), (x.version % 2 ^ 24, 8), (x.svn % 2 ^ 32, 32)]

/-! ## Reading -/

/-- What a read of a register returns: write-only registers read zero, reserved bits read zero (R6, R8). -/
def State.readKey (s : State) (k : RegKey) : Word :=
  let n : Part := Fin.ofNat 16 k.j
  let d : Fin 8 := Fin.ofNat 8 k.i
  match k.reg with
  | .cadTbc => s.tb.tbc
  | .cadTbStatus => s.viewTb
  | .cadTbErrBound => s.tb.errBound
  | .cadDomStatus => s.viewDom n
  | .cadDomTick => if s.enabled n then s.tickOf n else s.raw k
  | .cadDomSlice => s.sliceReg n
  | .mxStatus => s.viewMx k.i
  | .mxIssueLevel =>
    let best := ((s.coreOn k.i).bind s.partOf).any s.bestEffort
    BitVec.ofNat 64 (s.issueLevel (Fin.ofNat 8 (k.i / 160)) best)
  | .vxStatus => BitVec.ofNat 64 (s.viewQueue k.i (·.vxq))
  | .txStatus => BitVec.ofNat 64 (s.viewQueue k.i (·.txq))
  | .lxStatus => s.viewLx k.i
  | .lxQstat => s.viewQstat k.i k.j
  | .exStatus => s.viewEx d
  | .svPEntries => s.viewEntries n
  | .kvStatus => BitVec.ofNat 64 (bitN (s.kv.any (fun p => decide (p.1.1 = d) && !p.2.waiting.isEmpty)))
  | .kvPFree => BitVec.ofNat 64 (s.committedFree n d)
  | .kvPCutPages => BitVec.ofNat 64 (s.pool d n).cut.length
  | .cxlStatus => (s.cxlPort (Fin.ofNat 4 k.j)).status
  | .cxlCapacity => BitVec.ofNat 64 (s.cxlPort (Fin.ofNat 4 k.j)).capacity
  | .pnStatus => fields [(bitN ((s.pnDir d).any (fun i => decide (i.state = .filling))), 8), ((s.pnDir d).length, 16)]
  | .pnFreeFrames => BitVec.ofNat 64 (16 * s.regN .pnSize k.i - frames (s.pnDir d))
  | .pnPUsed => BitVec.ofNat 64 (frames ((s.pnDir d).filter (fun i => decide (i.part = n))))
  | .pnPPinned => BitVec.ofNat 64 (frames ((s.pnDir d).filter (fun i => decide (i.part = n) && i.pin)))
  | .fabStatus => s.viewFab
  | .fabMapHash => s.mapHash
  | .fabPortStatus => (s.port (Fin.ofNat 6 k.j)).status
  | .fabPeerSerial => BitVec.ofNat 64 ((((s.port (Fin.ofNat 6 k.j)).idents.head?).map (fun r => r.serial.toNat)).getD 0)
  | .fabPeerInfo => peerInfo (s.port (Fin.ofNat 6 k.j))
  | .fabLaneMap => laneMap (s.port (Fin.ofNat 6 k.j))
  | .ceStatus => s.viewCe
  | .hpStatus => s.viewHp
  | .hpMac => s.viewMac
  | .hpSessions => BitVec.ofNat 64 (s.hp.sessions.filter (fun p => p.2.established)).length
  | .nxStatus => s.viewNx
  | .partStatus => s.viewPart
  | .partShareSum => s.viewShares
  | .partPStatus => s.viewPartStatus n
  | .partCredit => s.viewCredit n
  | .intStatus => s.viewInt
  | .intSnapshots => BitVec.ofNat 64 s.integ.snapSeq
  | .derStatus => s.viewDer
  | .derSite => s.viewSite ⟨Fin.ofNat 8 (k.j / 160), Fin.ofNat 160 (k.j % 160)⟩
  | .pwrStatus => s.viewPwr
  | .pwrHbCtrl => fields [(bits (s.raw k) 31 0, 0), (bitN s.pw.armed, 32)]
  | .pwrEstimate => BitVec.ofNat 64 s.pw.estimate
  | .pwrCalGain => BitVec.ofNat 64 s.pw.gain
  | .pwrEnergy => BitVec.ofNat 64 (s.pw.energyUj / 1000)
  | .pwrExcess => BitVec.ofNat 64 ((s.raw k).toNat / 1000)
  | .pwrEmergTime => BitVec.ofNat 64 (s.pw.emergUs / 1000)
  | .pwrDie => s.viewDie k.j
  | .pwrVf => s.viewVf (k.j / 16) (k.j % 16)
  | .fwlStatus => BitVec.ofNat 64 (bitN s.ballastOn)
  | .fwlKeep => BitVec.ofNat 64 s.keepLevel
  | .fwlBallastMj => BitVec.ofNat 64 (s.pw.ballastUj / 1000)
  | .fwlDie => BitVec.ofNat 64 (s.pw.levels.getD k.j ⟨16, 16, 0⟩).ballast
  | .secStatus => s.viewSec
  | .secChangeSeq => BitVec.ofNat 64 s.trust.changeSeq
  | .secSetupDigest => bytesWord (s.setupDigest.take 8)
  | .secLoadSeq => BitVec.ofNat 64 s.trust.loadSeq
  | .secDevLmsLeft => BitVec.ofNat 64 s.trust.devLeft
  | .secAliasLmsLeft => BitVec.ofNat 64 s.trust.aliasLeft
  | .secBootCount => BitVec.ofNat 64 s.trust.bootCount
  | .secFusedSvn => BitVec.ofNat 64 s.trust.fusedSvn
  | .secRevoked => BitVec.ofNat 64 s.trust.revoked.length
  | .secSlot => s.viewSlot k.j
  | .bootStatus => s.viewBoot
  | .bootReadyTime => BitVec.ofNat 64 s.boot.timeUs
  | .bootSlota => s.viewImage false
  | .bootSlotb => s.viewImage true
  | r => if r.info.acc = .wo then 0 else s.raw k &&& r.info.mask

/-- A read at an address of register space (R5, R8, R616). -/
def State.readAddr (s : State) (a : Nat) : Word :=
  match regAt a with
  | some k => s.readKey k
  | none => 0

end Sys2Proof.Machine
end

