-- ==== Sys2Proof/Machine/Ex.lean ====
section
/-! DEFINITION. Expert routing and the exchange of a layer (R238 to R270). -/

namespace Sys2Proof.Machine

/-! ## Layers, members, faults -/

/-- The layer of a partition on a die. -/
def State.layer (s : State) (d : Fin 8) (n : Part) : Option ExLayer := Assoc.find (d, n) s.ex

/-- Replaces the layer of a die. -/
def State.setLayer (s : State) (d : Fin 8) (n : Part) (x : ExLayer) : State := { s with ex := Assoc.put (d, n) x s.ex }

/-- Changes the layer of a die, if there is one. -/
def State.updLayer (s : State) (d : Fin 8) (n : Part) (f : ExLayer → ExLayer) : State :=
  match s.layer d n with
  | none => s
  | some x => s.setLayer d n (f x)

/-- The open layer of a die. -/
def State.openLayer (s : State) (d : Fin 8) (n : Part) : Option ExLayer := (s.layer d n).bind (fun x => if x.closed then none else some x)

/-- The member dies of a group: module and die, in rising order (R238). -/
def State.memberDies (s : State) (n : Part) : List (ModIx × Fin 8) :=
  (s.members n).flatMap (fun m => (s.partDies n).map (fun d => (m, d)))

/-- Whether a die is the lowest-numbered member die of the module (R246). -/
def State.leadDie (s : State) (n : Part) (d : Fin 8) : Bool := decide ((s.partDies n).head? = some d)

/-- EX.FAULT takes a 0x04xx code (R269). -/
def State.exCode (s : State) (d : Fin 8) (n : Part) (seg : Nat) (code : Code) : State :=
  if code.toNat / 256 = 4 then s.setReg .exFault d.val 0 (faultWord code seg (s.dom n).tick) else s

/-- A fault of a die's EX: EX.FAULT, and the segment is killed (R270). -/
def State.exFault (s : State) (d : Fin 8) (n : Part) (seg : Nat) (code : Code) : State :=
  let s1 := s.exCode d n seg code
  let mine := (s1.cores.filter (fun p => decide (p.1.die = d) && p.2.running && decide (s1.partOf p.1 = some n))).map (·.1)
  if mine.isEmpty then s1.segError n seg code none else mine.foldl (fun t c => t.kill c code) s1

/-! ## The configuration record and the expert table (R241 to R243, R247) -/

/-- Bytes as a descriptor. -/
def descOf (bs : List Byte) : Desc := BitVec.ofNat 256 (bytesNat bs)

/-- The fields of a configuration record (R241). -/
def layerCfgOf (bs : List Byte) : LayerCfg :=
  let f (o k : Nat) : Nat := fieldNat bs o k
  { outK := f 115 1, outN := f 114 1, inK := f 113 1, inN := f 112 1, rowPool := f 108 4, outStride := f 104 4,
    outOff := f 100 4, inStride := f 96 4, outTemplate := descOf ((bs.drop 64).take 32),
    inTemplate := descOf ((bs.drop 32).take 32), slices := f 29 1, outFp32 := decide (f 28 1 = 1), rowBytes := f 24 4,
    bias := f 16 8, layer := BitVec.ofNat 16 (f 12 2), gateMode := f 11 1, topK := f 10 1, experts := f 8 2, table := f 0 8 }

/-- Whether the fields of a record lie in their ranges, with reserved bytes zero (R241, R243). -/
def layerCfgOk (bs : List Byte) (poolSize : Nat) : Bool :=
  let c := layerCfgOf bs
  decide (fieldNat bs 116 12 = 0) && decide (fieldNat bs 30 2 = 0) && decide (fieldNat bs 14 2 = 0)
    && decide (fieldNat bs 28 1 ≤ 1) && decide (1 ≤ c.slices) && decide (c.slices ≤ 144) && decide (c.gateMode ≤ 2)
    && decide (1 ≤ c.topK) && decide (c.topK ≤ 16) && decide (1 ≤ c.experts) && decide (c.experts ≤ 4096)
    && decide (c.topK ≤ c.experts) && decide (1 ≤ c.inN) && decide (1 ≤ c.inK) && decide (1 ≤ c.outN) && decide (1 ≤ c.outK)
    && decide (c.rowPool ≤ poolSize / 4) && decide (poolSize % mib = 0) && decide (256 * mib ≤ poolSize)
    && decide (poolSize ≤ 16384 * mib)

/-- One expert-table entry, or none where it breaks R242 or R243. -/
def expertOf (members : List (ModIx × Fin 8)) (bs : List Byte) : Option ExpertEntry :=
  let at_ (m d : Nat) : Option (ModIx × Fin 8) :=
    members.find? (fun p => decide (p.1.val = m ∧ p.2.val = d))
  let k := fieldNat bs 18 1
  let mirrors := (List.range k).map (fun i => at_ (fieldNat bs (20 + 2 * i) 1) (fieldNat bs (21 + 2 * i) 1))
  match at_ (fieldNat bs 16 1) (fieldNat bs 17 1) with
  | none => none
  | some h =>
    if fieldNat bs 26 6 ≠ 0 ∨ fieldNat bs 19 1 ≠ 0 ∨ 3 < k ∨ mirrors.any (·.isNone) ∨ fieldNat bs 0 8 % 64 ≠ 0
        ∨ fieldNat bs 8 4 % 64 ≠ 0 then none
    else
      some { home := h, mirrors := mirrors.filterMap id, anchorOut := BitVec.ofNat 16 (fieldNat bs 14 2),
             anchorIn := BitVec.ofNat 16 (fieldNat bs 12 2), bytes := fieldNat bs 8 4, addr := fieldNat bs 0 8 }

/-- CFG_HASH (R247). -/
def exCfgHash (record table : List Byte) (threshold poolSize : Nat) : Word :=
  shaWord (record ++ table ++ natBytes 8 threshold ++ natBytes 8 poolSize)

/-! ## Gating (R244, R245) -/

/-- Correctly rounded FP32 quotient. -/
def divFv (x y : Fv) : Fv :=
  match x, y with
  | .nan, _ | _, .nan => .nan
  | .inf _, .inf _ => .nan
  | .inf a, .fin b _ _ => .inf (xor a b)
  | .fin a _ _, .inf b => .fin (xor a b) 0 0
  | .fin a m e, .fin b k f =>
    if k = 0 then (if m = 0 then .nan else .inf (xor a b))
    else if m = 0 then .fin (xor a b) 0 0
    else
      let sh := Nat.log2 k + 64
      (roundSticky (xor a b) (m * 2 ^ sh % k == 0) (m * 2 ^ sh / k) (e - f - (sh : Int))).to32

/-- An expert with its selection score and logit. -/
structure Scored where
  expert : Nat
  score : Fv
  logit : Fv
  deriving DecidableEq, Repr

/-- Whether a score ranks before another: larger first, a NaN below every number, the lower expert on ties (R244). -/
def Scored.before (x y : Scored) : Bool :=
  if x.score.isNan then y.score.isNan && decide (x.expert < y.expert)
  else if y.score.isNan then true
  else if y.score.lt? x.score = some true then true
  else if x.score.lt? y.score = some true then false
  else decide (x.expert < y.expert)

/-- Puts a score in its place. -/
def scoreInsert (x : Scored) : List Scored → List Scored
  | [] => [x]
  | y :: l => if x.before y then x :: y :: l else y :: scoreInsert x l

/-- The experts a token selects, in rank order (R244). -/
def selectExperts (k : Nat) (logits bias : List Fv) : List Scored :=
  (logits.mapIdx (fun i l =>
    (⟨i, match bias[i]? with
      | none => l
      | some b => (l.add b).to32, l⟩ : Scored))).foldl (fun acc x => (scoreInsert x acc).take k) []

/-- FP32 one. -/
def oneFv : Fv := .fin false 1 0

/-- The gate weights of a token's ranks (R245). -/
def gateWeights (mode : Nat) (logits sel : List Fv) : List Fv :=
  let ratio (t : List Fv) : List Fv :=
    let total := match t with
      | [] => .nan
      | a :: l => l.foldl (fun x y => (x.add y).to32) a
    t.map (fun x => divFv x total)
  let ex (x : Fv) : Fv := transFn 0 x
  match mode with
  | 0 => ratio (sel.map (fun l => ex (l.add (sel.headD .nan).neg)))
  | 1 =>
    let m := reduceFn 1 logits
    let total := reduceFn 0 (logits.map (fun l => ex (l.add m.neg)))
    sel.map (fun l => divFv (ex (l.add m.neg)) total)
  | _ => ratio (sel.map (fun l => transFn 4 ((ex l.neg).add oneFv)))

/-- The gates of every token, and the tokens with NaN gate weights. -/
def gateAll (cfg : LayerCfg) (bias : List Fv) (rows : List (List Nat)) : List Gate × Nat :=
  let per := rows.mapIdx (fun r codes =>
    let logits := codes.map fpSingle.decode
    let sel := selectExperts cfg.topK logits bias
    let ws := gateWeights cfg.gateMode logits (sel.map (·.logit))
    (List.zipWith (fun x w => (x, w)) sel ws).mapIdx (fun i p =>
      (⟨r, i, p.1.expert, BitVec.ofNat 32 (fpSingle.encode p.2)⟩ : Gate)))
  (per.flatten, (per.filter (fun l => l.any (fun g => (fpSingle.decode g.weight.toNat).isNan))).length)

/-- Rows per expert. -/
def countGates (e : Nat) (gates : List Gate) : List Nat :=
  (List.range e).map (fun i => (gates.filter (fun g => decide (g.expert = i))).length)

/-! ## Decisions (R248 to R252, R258, R265) -/

/-- Counts of a module for an expert. -/
def ExLayer.count (x : ExLayer) (m : ModIx) (e : Nat) : Nat := (Assoc.getD m [] x.counts).getD e 0

/-- T_e (R249). -/
def ExLayer.total (x : ExLayer) (e : Nat) : Nat := (x.counts.map (fun p => p.2.getD e 0)).sum

/-- The entry of an expert. -/
def ExLayer.expert (x : ExLayer) (e : Nat) : Option ExpertEntry := x.experts[e]?

/-- Whether an expert's home is on a die number. -/
def ExLayer.homeOn (x : ExLayer) (e : Nat) (d : Fin 8) : Bool := (x.expert e).any (fun t => decide (t.home.2 = d))

/-- Experts above the threshold, in descending order of T_e, lower numbers first on ties (R250). -/
def ExLayer.heavy (x : ExLayer) : List Nat :=
  ((List.range x.cfg.experts).filter (fun e => decide (x.threshold < x.total e))).foldl
    (fun l e => (l.takeWhile (fun k => decide (x.total e ≤ x.total k))) ++ [e]
      ++ (l.dropWhile (fun k => decide (x.total e ≤ x.total k)))) []

/-- The ship decision: shipped experts, and those that the budget of their die number turned away (R250). -/
def ExLayer.ships (x : ExLayer) : List Nat × List Nat :=
  let weight (e : Nat) : Nat := ((x.expert e).map (·.bytes)).getD 0
  let r := x.heavy.foldl (fun (acc : List (Fin 8 × Nat) × List Nat × List Nat) e =>
    match x.expert e with
    | none => acc
    | some t =>
      let used := Assoc.getD t.home.2 0 acc.1
      if x.poolSize / 2 < used + weight e then (acc.1, acc.2.1, acc.2.2 ++ [e])
      else (Assoc.put t.home.2 (used + weight e) acc.1, acc.2.1 ++ [e], acc.2.2)) ([], [], [])
  (r.2.1, r.2.2)

/-- Whether a module holds a copy of an expert (R251). -/
def ExpertEntry.onModule (t : ExpertEntry) (m : ModIx) : Bool :=
  decide (t.home.1 = m) || t.mirrors.any (fun p => decide (p.1 = m))

/-- Hops of the direct route between modules of a slice (R252). -/
def State.hops (s : State) (n : Part) (a b : ModIx) : Nat := (directRoute s.extents (s.sliceReg n) a b).length

/-- The copy that a source module's rows go to (R252). -/
def State.copyFor (s : State) (n : Part) (m : ModIx) (t : ExpertEntry) : ModIx × Fin 8 :=
  let better (a b : ModIx × Fin 8) : Bool :=
    let x := s.hops n m a.1
    let y := s.hops n m b.1
    decide (x < y) || (decide (x = y) && (decide (a.1 < b.1) || (decide (a.1 = b.1) && decide (a.2 < b.2))))
  t.mirrors.foldl (fun b a => if better a b then a else b) t.home

/-- The die that walks the rows of an expert that a source die routed (R249 to R252). -/
def State.destOf (s : State) (n : Part) (x : ExLayer) (src : ModIx × Fin 8) (e : Nat) : ModIx × Fin 8 :=
  if x.shipped.contains e then src
  else
    match x.expert e with
    | none => src
    | some t => s.copyFor n src.1 t

/-- A module's rows of an expert over its member dies: any shares, the last die the rest. -/
def splitRows (share : Fin 8 → Nat) : Nat → List (Fin 8) → List (Fin 8 × Nat)
  | _, [] => []
  | c, [d] => [(d, c)]
  | c, d :: l =>
    let k := min (share d) c
    (d, k) :: splitRows share (c - k) l

/-- Rows of an expert that a die of a module has: its own count on this module; on another, a share of the module's count, which
the count matrix leaves open where there is more than one die to share it (log 34). -/
def State.dieRows (s : State) (n : Part) (x : ExLayer) (t : ModIx × Fin 8) (e : Nat) : Nat :=
  if t.1 = s.self then (Assoc.getD t.2 [] x.dieCounts).getD e 0
  else
    Assoc.getD t.2 0 (splitRows (fun d => Config.dieRows (s.dom n).tick x.seg x.ord t.1.val d.val e) (x.count t.1 e)
      (s.partDies n))

/-- Rows of an expert from a source module that a die walks. -/
def State.rowsFrom (s : State) (n : Part) (x : ExLayer) (t : ModIx × Fin 8) (m : ModIx) (e : Nat) : Nat :=
  if x.shipped.contains e then (if m = t.1 then s.dieRows n x t e else 0)
  else if (x.expert e).any (fun k => decide (s.copyFor n m k = t)) then x.count m e else 0

/-- Rows of an expert that a die walks in the layer, and all its rows. -/
def State.rowsOf (s : State) (n : Part) (x : ExLayer) (t : ModIx × Fin 8) (e : Nat) : Nat :=
  ((s.members n).map (fun m => s.rowsFrom n x t m e)).sum
def State.allRows (s : State) (n : Part) (x : ExLayer) (t : ModIx × Fin 8) : Nat :=
  ((List.range x.cfg.experts).map (s.rowsOf n x t)).sum

/-- Shipped experts that land on a die: its number is their home die, and its module holds no copy (R251). -/
def ExLayer.landsOn (x : ExLayer) (t : ModIx × Fin 8) : List Nat :=
  (List.range x.cfg.experts).filter (fun e =>
    x.shipped.contains e && (x.expert e).any (fun k => decide (k.home.2 = t.2) && !k.onModule t.1))

/-- Bytes of the weights of some experts. -/
def ExLayer.bytesOf (x : ExLayer) (l : List Nat) : Nat := (l.map (fun e => ((x.expert e).map (·.bytes)).getD 0)).sum

/-- Rows of one round on a die (R258). -/
def ExLayer.roundRows (x : ExLayer) (t : ModIx × Fin 8) : Nat :=
  max 1 (min 65535 (if x.cfg.rowPool = 0 then 65535 else (3 * x.poolSize / 4 - x.bytesOf (x.landsOn t)) / x.cfg.rowPool))

/-- Rounds of a die: at least one (R258). -/
def State.rounds (s : State) (n : Part) (x : ExLayer) (t : ModIx × Fin 8) : Nat :=
  max 1 ((s.allRows n x t + x.roundRows t - 1) / x.roundRows t)

/-- The measured skew (R265). -/
def State.skew (s : State) (n : Part) (x : ExLayer) : Nat :=
  let l := (s.memberDies n).map (s.allRows n x)
  let total := l.sum
  if total = 0 then 16 else (16 * l.foldl max 0 * l.length + total - 1) / total

/-! ## The pool (R257 to R261, log 35) -/

/-- Offsets of the pool: landed weights after the first quarter, then the round's rows. -/
def ExLayer.landedAt (x : ExLayer) (t : ModIx × Fin 8) (e : Nat) : Nat :=
  x.poolBase + x.poolSize / 4 + x.bytesOf ((x.landsOn t).filter (fun k => decide (k < e)))
def ExLayer.rowsAt (x : ExLayer) (t : ModIx × Fin 8) : Nat := x.poolBase + x.poolSize / 4 + x.bytesOf (x.landsOn t)

/-- The first multiple of 64 at or above a number. -/
def up64 (n : Nat) : Nat := (n + 63) / 64 * 64

/-- Columns of an A8 row with its block scales (R241). -/
def ExLayer.inCols (x : ExLayer) : Nat := x.cfg.rowBytes * 32 / 33

/-- Columns of a hidden row: the K of the OUT walk (log 35). -/
def ExLayer.hiddenCols (x : ExLayer) : Nat := x.cfg.outK * descCols x.cfg.outTemplate

/-- Bytes of an output element of OUT, and of a row of a slot's block of each projection. -/
def ExLayer.outSize (x : ExLayer) : Nat := if x.cfg.outFp32 then 4 else 2
def ExLayer.inLine (x : ExLayer) : Nat := x.cfg.inN * 256
def ExLayer.outLine (x : ExLayer) : Nat := x.cfg.outN * 64 * x.outSize

/-- The addresses of a round's parts for a number of rows: rows, hidden rows, IN blocks, OUT blocks, slot stride. -/
structure PoolMap where
  input : Nat
  hidden : Nat
  inBlocks : Nat
  outBlocks : Nat
  slotStride : Nat
  deriving DecidableEq, Repr

/-- The map of a round. -/
def ExLayer.poolMap (x : ExLayer) (t : ModIx × Fin 8) (rows : Nat) : PoolMap :=
  let a8 (cols : Nat) : Nat := up64 (rows * cols) + up64 (rows * (cols / 32))
  let slot := up64 (rows * max x.inLine x.outLine)
  let i := up64 (x.rowsAt t)
  let h := i + a8 x.inCols
  let b := h + a8 x.hiddenCols
  ⟨i, h, b, b + x.cfg.slices * slot, slot⟩

/-- A descriptor of A8 rows at an address. -/
def a8Desc (a rows cols : Nat) : Desc :=
  let d0 := descSet (descSet (descSet (descSet 0 0 56 a) 56 4 Fmt.a8.code) 64 16 rows) 80 20 cols
  descSet (descSet d0 100 28 cols) 128 32 (up64 (rows * cols))

/-- Where work records, group tables, the count matrix (64 modules of E counts) and the gate weights (16 ranks a token) lie: all
in the first quarter of the pool. -/
def ExLayer.recordAt (x : ExLayer) (r : Nat) : Nat := x.poolBase + 128 * (r % 2)
def ExLayer.tablesAt (x : ExLayer) : Nat := x.poolBase + 4096
def ExLayer.countsAt (x : ExLayer) : Nat := x.poolBase + 48 * mib
def ExLayer.gatesAt (x : ExLayer) : Nat := x.poolBase + 52 * mib

/-- The count matrix and the gate weights of a layer, as EX writes them (R257). -/
def ExLayer.countWrites (x : ExLayer) : List (Nat × List Byte) :=
  x.counts.map (fun p => (x.countsAt + 4 * x.cfg.experts * p.1.val, p.2.flatMap (natBytes 4)))
def ExLayer.gateWrites (x : ExLayer) : List (Nat × List Byte) :=
  x.gates.map (fun g => (x.gatesAt + 4 * (16 * g.row + g.rank), natBytes 4 g.weight.toNat))

/-- The experts a die serves: home or mirror here, or shipped with rows here (R259). -/
def State.served (s : State) (n : Part) (x : ExLayer) (t : ModIx × Fin 8) : List Nat :=
  (List.range x.cfg.experts).filter (fun e =>
    (x.expert e).any (fun k => decide (k.home = t) || k.mirrors.contains t)
      || (x.shipped.contains e && decide (0 < s.rowsOf n x t e)))

/-- The address of the copy of an expert's weights that a die walks (R251, R260). -/
def State.weightsAt (s : State) (n : Part) (x : ExLayer) (t : ModIx × Fin 8) (e : Nat) : Nat :=
  match x.expert e with
  | none => 0
  | some k =>
    if x.shipped.contains e && !k.onModule t.1 then
      ((s.layer k.home.2 n).getD x).landedAt (t.1, k.home.2) e
    else k.addr

/-- One group-table entry (R142, R260). -/
def groupBytes (wAddr outAddr mStart m expert nT kT : Nat) (anchor : BitVec 16) (last : Bool) : List Byte :=
  natBytes 8 wAddr ++ natBytes 8 outAddr ++ natBytes 4 mStart ++ natBytes 4 m ++ natBytes 2 anchor.toNat
    ++ natBytes 2 expert ++ natBytes 1 nT ++ natBytes 1 kT ++ natBytes 1 (if last then 1 else 0) ++ [0]

/-- The rows of an expert within the round: first and number. -/
def spanOf (rows : List RxRow) (e : Nat) : Nat × Nat :=
  ((rows.filter (fun r => decide (r.expert < e))).length, (rows.filter (fun r => decide (r.expert = e))).length)

/-- The group table of a projection and a core slot (R259, R260). -/
def State.groupTable (s : State) (n : Part) (x : ExLayer) (t : ModIx × Fin 8) (out : Bool) (i : Nat) : List Byte :=
  let l := s.served n x t
  let p := x.poolMap t x.rows.length
  let c := x.cfg
  let nT := if out then c.outN else c.inN
  let kT := if out then c.outK else c.inK
  let block := (if out then p.outBlocks else p.inBlocks) + i * p.slotStride
  let line := if out then x.outLine else x.inLine
  if l.isEmpty then groupBytes 0 0 0 0 0 nT kT 0 true
  else
    (l.mapIdx (fun k e =>
      let sp := spanOf x.rows e
      let last := decide (k + 1 = l.length)
      let an := (x.expert e).map (fun y => if out then y.anchorOut else y.anchorIn)
      if sp.2 = 0 then groupBytes 0 0 0 0 e nT kT (an.getD 0) last
      else
        groupBytes (s.weightsAt n x t e + (if out then c.outOff + i * c.outStride else i * c.inStride))
          (block + sp.1 * line) sp.1 sp.2 e nT kT (an.getD 0) last)).flatten

/-- The work record of a round (R261). -/
def State.workRecord (s : State) (n : Part) (x : ExLayer) (t : ModIx × Fin 8) : List Byte :=
  let rows := x.rows.length
  let p := x.poolMap t rows
  natBytes 32 (a8Desc p.input rows x.inCols).toNat ++ List.replicate 16 0 ++ natBytes 8 p.inBlocks ++ natBytes 8 p.outBlocks
    ++ natBytes 32 (a8Desc p.hidden rows x.hiddenCols).toNat ++ natBytes 8 p.slotStride ++ natBytes 8 x.tablesAt
    ++ natBytes 4 (32 * max 1 (s.served n x t).length) ++ natBytes 2 rows ++ natBytes 2 x.returned
    ++ natBytes 2 (s.rounds n x t) ++ List.replicate 6 0

/-! ## Memory accesses of EX -/

/-- Writes of a die's EX into SCRATCH or by its segment's rules; a fault kills the segment. -/
def State.exWrites (s : State) (d : Fin 8) (n : Part) (seg : Nat) (l : List (Nat × List Byte)) : State :=
  let r := l.foldl (fun (acc : State × Option Code) w =>
    match acc.2 with
    | some e => (acc.1, some e)
    | none =>
      let u := acc.1.writeMem (stationAcc d n) (some (.die d, seg)) w.1 w.2
      match u.2 with
      | .ok () => (u.1, none)
      | .error e => (u.1, some e)) (s, none)
  match r.2 with
  | none => r.1
  | some e => r.1.exFault d n seg e

/-- Reads of a die's EX, in order. -/
def State.exReads (s : State) (d : Fin 8) (n : Part) (l : List (Nat × Nat)) : State × Except Code (List Byte) :=
  l.foldl (fun acc w =>
    match acc.2 with
    | .error e => (acc.1, .error e)
    | .ok bs =>
      let u := acc.1.readMem (stationAcc d n) w.1 w.2
      (u.1, u.2.map (fun x => bs ++ x))) (s, .ok [])

/-- A tile that EX reads through a descriptor on this module. -/
def State.exTile (s : State) (d : Fin 8) (n : Part) (td : Desc) : State × Except Code Tile :=
  match descCheck td false with
  | some e => (s, .error e)
  | none =>
    if (s.descDst td).isSome then (s, .error 0x030A)
    else
      let r := s.exReads d n (tileRanges td)
      (r.1, r.2.map (loadedTile td))

/-! ## Sending -/

/-- An exchange segment of a die (R253). -/
def State.mkSegment (s : State) (n : Part) (x : ExLayer) (d : Fin 8) (t : ModIx × Fin 8) (round : Nat) : ExSegment :=
  { formed := true, mask := 0, tick := s.tickOf n, seg := x.seg, run := (s.dom n).run, layer := x.cfg.layer, srcModule := s.self, srcDie := d,
    dstModule := t.1, dstDie := t.2, round := round, rowsField := 0, rowBytes := 0, cfgHash := 0, runs := [], rows := [],
    counts := [], weights := [] }

/-- Sends a segment to another module, or finds it unreachable (R399, R412). -/
def State.exSendAway (s : State) (n : Part) (d : Fin 8) (kind : ExKind) (g : ExSegment) : State :=
  match (if g.mask = 0 then [g.dstModule] else maskMods g.mask).findSome? (s.requestFault n) with
  | some e => s.exFault d n g.seg e
  | none => s.sendExchange n kind g

/-- The runs of rows already in order: expert and count. -/
def runsOfRows : List Nat → List (Nat × Nat)
  | [] => []
  | e :: l =>
    match runsOfRows l with
    | (f, k) :: r => if e = f then (f, k + 1) :: r else (e, 1) :: (f, k) :: r
    | [] => [(e, 1)]

/-- The DISPATCH segment of a round from a die to a destination: its rows of the round in the order of R255 (R254, R258). -/
def State.dispatchFor (s : State) (n : Part) (x : ExLayer) (d : Fin 8) (t : ModIx × Fin 8) (round : Nat) : ExSegment :=
  let src : ModIx × Fin 8 := (s.self, d)
  let lim := x.roundRows t
  let before (e : Nat) : Nat :=
    ((List.range e).map (s.rowsOf n x t)).sum
      + (((s.members n).filter (fun m => decide (m < s.self))).map (fun m => s.rowsFrom n x t m e)).sum
      + (if x.shipped.contains e then 0
         else (((s.partDies n).filter (fun k => decide (k < d))).map (fun k => (Assoc.getD k [] x.dieCounts).getD e 0)).sum)
  let mine (e : Nat) : List Gate :=
    if s.destOf n x src e = t then x.gates.filter (fun g => decide (g.expert = e)) else []
  let picked := (List.range x.cfg.experts).flatMap (fun e =>
    ((mine e).mapIdx (fun i g => (before e + i, g))).filter (fun p => decide (p.1 / lim = round)))
  let rows := picked.map (fun p =>
    (⟨p.2.row, p.2.rank, ((x.act.getD []).getD p.2.row [])⟩ : ExRow))
  { s.mkSegment n x d t round with
    rowsField := rows.length, rowBytes := x.cfg.rowBytes, runs := runsOfRows (picked.map (·.2.expert)), rows := rows }

/-! ## Receiving -/

/-- The order of R255. -/
def RxRow.before (a b : RxRow) : Bool :=
  let k (r : RxRow) : List Nat := [r.expert, r.srcModule.val, r.srcDie.val, r.batchRow, r.rank]
  decide (k a < k b)

/-- Puts a row in its place. -/
def rxInsert (x : RxRow) : List RxRow → List RxRow
  | [] => [x]
  | y :: l => if x.before y then x :: y :: l else y :: rxInsert x l

/-- The expert of each row of a segment, by its run table. -/
def segExperts (g : ExSegment) : List Nat := g.runs.flatMap (fun r => List.replicate r.2 r.1)

/-- Whether a run table rises, covers the rows and has no empty run. -/
def segRunsOk (g : ExSegment) : Bool :=
  decide ((g.runs.map (·.2)).sum = g.rows.length) && decide (g.rowsField = g.rows.length)
    && g.runs.all (fun r => decide (0 < r.2))
    && (List.zipWith (fun a b => decide (a.1 < b.1)) g.runs g.runs.tail).all id
    && g.rows.all (fun r => decide (r.payload.length = g.rowBytes))

/-- What every header keeps of R253: its magic and reserved bytes, and `CFG_HASH` zero outside COUNT; and the layer it names. -/
def ExLayer.headerOk (x : ExLayer) (kind : ExKind) (g : ExSegment) : Bool :=
  g.formed && (decide (kind = .count) || g.cfgHash == 0) && decide (g.layer = x.cfg.layer)

/-- Rows of a round that a die expects of an expert from a module: the part of its place in the order that falls in the
round (R256, R258). -/
def State.expected (s : State) (n : Part) (x : ExLayer) (t : ModIx × Fin 8) (round : Nat) (m : ModIx) (e : Nat) : Nat :=
  let first := ((List.range e).map (s.rowsOf n x t)).sum
    + (((s.members n).filter (fun k => decide (k < m))).map (fun k => s.rowsFrom n x t k e)).sum
  let last := first + s.rowsFrom n x t m e
  let lim := x.roundRows t
  min last ((round + 1) * lim) - max first (round * lim)

/-- A DISPATCH segment at a die (R254 to R256): its rows are no more than the count matrix gives its module, and once every die of
the module has sent, as many. -/
def State.takeDispatch (s : State) (n : Part) (g : ExSegment) (x : ExLayer) : State :=
  let d := g.dstDie
  let t : ModIx × Fin 8 := (s.self, d)
  let src := (g.srcModule, g.srcDie)
  let new := List.zipWith (fun e r => (⟨e, g.srcModule, g.srcDie, r.batchRow, r.rank, r.payload⟩ : RxRow)) (segExperts g) g.rows
  let rows := new.foldl (fun l r => rxInsert r l) x.rows
  let headers := x.headers ++ [src]
  let got (e : Nat) : Nat := (rows.filter (fun y => decide (y.expert = e ∧ y.srcModule = g.srcModule))).length
  let whole := (s.partDies n).all (fun k => headers.contains (g.srcModule, k))
  let differs := (List.range x.cfg.experts).any (fun e =>
    let want := s.expected n x t g.round g.srcModule e
    decide (want < got e) || (whole && decide (got e ≠ want)))
  if !(x.headerOk .dispatch g) || !(s.memberDies n).contains src || g.round ≠ x.returned || x.headers.contains src
      || !(segRunsOk g) || (!g.rows.isEmpty && g.rowBytes ≠ x.cfg.rowBytes) || g.runs.any (fun r => decide (x.cfg.experts ≤ r.1)) || differs then
    s.exFault d n x.seg 0x0406
  else
    (s.setLayer d n { x with headers := headers, rows := rows }).bump .exRowsReceived d.val 0 g.rows.length

/-- Bytes of a returned row: every slot's part of the output (R262). -/
def ExLayer.retBytes (x : ExLayer) : Nat := x.cfg.slices * x.outLine

/-- A RETURN segment at a source die (R262): it returns the rows that this die sent for the round (R254, R256). The segments of the next round follow to a die that has one (log 34). -/
def State.takeReturn (s : State) (n : Part) (g : ExSegment) (x : ExLayer) : State × Option (ModIx × Fin 8) :=
  let d := g.dstDie
  let src := (g.srcModule, g.srcDie)
  let sentRows := s.dispatchFor n x d src g.round
  let tags (y : ExSegment) : List (Nat × Nat) := y.rows.map (fun r => (r.batchRow, r.rank))
  if !(x.headerOk .ret g) || !(s.memberDies n).contains src || s.rounds n x src ≤ g.round || x.retHeaders.contains (g.round, src)
      || !(segRunsOk g) || (!g.rows.isEmpty && g.rowBytes ≠ x.retBytes) || tags g ≠ tags sentRows || g.runs ≠ sentRows.runs then
    (s.exFault d n x.seg 0x0406, none)
  else
    let s1 := s.setLayer d n { x with
      retHeaders := x.retHeaders ++ [(g.round, src)],
      retRows := x.retRows ++ g.rows.map (fun r => ((r.batchRow, r.rank), r.payload)) }
    (s1, if g.round + 1 < s.rounds n x src then some src else none)

/-- A SHIP segment at a die: the weights land in its pool (R251). -/
def State.takeShip (s : State) (n : Part) (g : ExSegment) (x : ExLayer) : State :=
  let d := g.dstDie
  let t : ModIx × Fin 8 := (s.self, d)
  match g.runs with
  | [(e, 1)] =>
    if !(x.headerOk .ship g) || !(x.landsOn t).contains e || x.landed.contains e || g.rowsField ≠ 1
        || g.rowBytes ≠ x.bytesOf [e] || decide (g.weights.length ≠ x.bytesOf [e])
        || !(x.expert e).any (fun k => decide (k.home = (g.srcModule, g.srcDie))) then
      s.exFault d n x.seg 0x0406
    else
      let s1 := (s.exWrites d n x.seg [(x.landedAt t e, g.weights)]).bump .exShipBytes d.val 0 g.weights.length
      s1.updLayer d n (fun y => { y with landed := y.landed ++ [e] })
  | _ => s.exFault d n x.seg 0x0406

/-- A COUNT record at a module (R246, R247, R256): every member die with the layer open takes it. -/
def State.takeCount (s : State) (n : Part) (g : ExSegment) (x : ExLayer) : State :=
  if !(s.members n).contains g.srcModule || (Assoc.find g.srcModule x.counts).isSome then s.exFault g.dstDie n x.seg 0x0406
  else if g.cfgHash ≠ x.hash then s.exFault g.dstDie n x.seg 0x0403
  else if !(x.headerOk .count g) || g.counts.length ≠ x.cfg.experts || g.rowsField ≠ x.cfg.experts
      || g.rowBytes ≠ 4 * x.cfg.experts || !g.runs.isEmpty || !g.rows.isEmpty then s.exFault g.dstDie n x.seg 0x0406
  else (s.partDies n).foldl (fun t d => t.updLayer d n (fun y => { y with counts := y.counts ++ [(g.srcModule, g.counts)] })) s

/-- Whether a segment can be handled now: the layer is open and, but for COUNT, its count phase is over; a COUNT needs every
member die's layer. A segment of another layer can be of the next one only where it could not be one of this: a module sends no
second COUNT for a layer, and what follows COUNT only when every COUNT has come. -/
def State.exReady (s : State) (n : Part) (kind : ExKind) (g : ExSegment) : Bool :=
  let opened (d : Fin 8) : Option ExLayer := (s.openLayer d n).bind (fun x => if x.seg = g.seg then some x else none)
  match kind with
  | .count => (s.partDies n).all (fun d => (opened d).any (fun x =>
      decide (x.cfg.layer = g.layer) || (Assoc.find g.srcModule x.counts).isNone))
  | _ => !(s.partDies n).contains g.dstDie || (opened g.dstDie).any (fun x => x.counted)

/-- A segment that comes to a die of this module (one that names no member die is 0x0406), and the DISPATCH of a next round that it asks for. -/
def State.exTake (s : State) (n : Part) (kind : ExKind) (g : ExSegment) : State × Option (ModIx × Fin 8) :=
  match s.openLayer g.dstDie n with
  | none => (s.exFault ((s.partDies n).headD 0) n g.seg 0x0406, none)
  | some x =>
    match kind with
    | .count => (s.takeCount n g x, none)
    | .dispatch => (s.takeDispatch n g x, none)
    | .ret => s.takeReturn n g x
    | .ship => (s.takeShip n g x, none)

/-- Sends a segment: over the package mesh at once, or into the fabric. What it asks for in turn follows, as often as the fuel
allows. -/
def State.exSend (n : Part) : Nat → State → ExKind → ExSegment → State
  | 0, s, _, _ => s
  | k + 1, s, kind, g =>
    if g.dstModule = s.self then
      if s.exReady n kind g then
        let r := s.exTake n kind g
        match r.2, s.layer g.dstDie n with
        | some t, some x =>
          let h := r.1.dispatchFor n x g.dstDie t (g.round + 1)
          State.exSend n k (r.1.bump .exRowsSent g.dstDie.val 0 h.rows.length) .dispatch h
        | _, _ => r.1
      else { s with fab := { s.fab with heldX := s.fab.heldX ++ [(n, kind, g)] } }
    else s.exSendAway n g.srcDie kind g

/-- The count of rows a DISPATCH segment sends (R269). -/
def State.exDispatch (s : State) (n : Part) (d : Fin 8) (g : ExSegment) : State :=
  State.exSend n 4 (s.bump .exRowsSent d.val 0 g.rows.length) .dispatch g

/-! ## Results of commands -/

/-- The result of the commands that `p` picks reaches every core that issued them. -/
def State.exAnswer (s : State) (d : Fin 8) (n : Part) (p : ExCmd → Bool) (r : Word) : State :=
  match s.layer d n with
  | none => s
  | some x =>
    let hit (k : ExCmd) : Bool := decide (k.ord = x.ord) && p k && k.result.isNone
    let s1 := s.setLayer d n { x with cmds := x.cmds.map (fun k => if hit k then { k with result := some r } else k) }
    ((x.cmds.filter hit).flatMap (·.issuers)).foldl (fun t p => t.deliver p.1 p.2 (wordBytes r)) s1

/-- The commands of a function; WAITIN of a round, and of no round that the layer has. -/
def ExCmd.isFn (fn : Nat) (k : ExCmd) : Bool := decide (k.fn = fn)
def ExCmd.waitin (r : Nat) (k : ExCmd) : Bool := decide (k.fn = 3 ∧ k.a.toNat = r)
def ExCmd.pastLast (rounds : Nat) (k : ExCmd) : Bool := decide (k.fn = 3 ∧ rounds ≤ k.a.toNat)

/-- Whether the WAITIN of the current round waits for its result. -/
def ExLayer.waitsIn (x : ExLayer) : Bool :=
  x.cmds.any (fun k => decide (k.ord = x.ord) && k.waitin x.returned && k.result.isNone)

/-- WAITINs issued on the open layer. -/
def ExLayer.waitins (x : ExLayer) : Nat := (x.cmds.filter (fun k => decide (k.ord = x.ord) && k.isFn 3)).length

/-! ## The steps of a layer -/

/-- The counts of this module's dies are summed and go to the other modules (R246, R247). -/
def State.exShareCounts (s : State) (n : Part) : State :=
  let dies := s.partDies n
  let ls := dies.filterMap (fun d => (s.openLayer d n).map (fun x => (d, x)))
  match ls with
  | [] => s
  | (d0, x0) :: _ =>
    if ls.length ≠ dies.length ∨ ls.any (fun p => decide (p.2.seg ≠ x0.seg)) ∨ (Assoc.find s.self x0.counts).isSome then s
    else
      match ls.find? (fun p => decide (p.2.hash ≠ x0.hash)) with
      | some p => s.exFault p.1 n p.2.seg 0x0403
      | none =>
        let per := ls.map (fun p => (p.1, countGates x0.cfg.experts p.2.gates))
        let total := (List.range x0.cfg.experts).map (fun e => (per.map (fun p => p.2.getD e 0)).sum)
        let s1 := dies.foldl (fun t d => t.updLayer d n (fun y =>
          { y with counts := y.counts ++ [(s.self, total)], dieCounts := per })) s
        ((s.members n).filter (fun m => decide (m ≠ s.self))).foldl (fun t m =>
          t.exSendAway n d0 .count
            { t.mkSegment n x0 d0 (m, d0) 0 with
              rowsField := x0.cfg.experts, rowBytes := 4 * x0.cfg.experts, cfgHash := x0.hash, counts := total }) s1

/-- The weights that this module ships from a die: one multicast to the modules that hold no copy (R249, R414). -/
def State.exShip (n : Part) (d : Fin 8) (s : State) (e : Nat) : State :=
  match s.layer d n with
  | none => s
  | some x =>
    match x.expert e with
    | none => s
    | some k =>
      if k.home ≠ (s.self, d) then s
      else
        let r := s.exReads d n [(k.addr, k.bytes)]
        match r.2 with
        | .error c => r.1.exFault d n x.seg c
        | .ok bs =>
          let away := (s.members n).filter (fun m => !k.onModule m)
          let s1 := r.1.bump .exShipsSent d.val 0 1
          if away.isEmpty then s1
          else
            s1.exSendAway n d .ship { s1.mkSegment n x d (away.headD s.self, d) 0 with
              mask := if 1 < away.length then modsMask away else 0, rowsField := 1, rowBytes := k.bytes, runs := [(e, 1)],
              weights := bs }

/-- The end of the count phase on a die: decisions, skew, ships, held segments (R248 to R250, R258, R265, R266). -/
def State.exCount (n : Part) (s : State) (d : Fin 8) : State :=
  match s.openLayer d n with
  | none => s
  | some x =>
    if x.counted || !((s.members n).all (fun m => (Assoc.find m x.counts).isSome)) then s
    else
      let sh := x.ships
      let y : ExLayer := { x with counted := true, shipped := sh.1 }
      let t : ModIx × Fin 8 := (s.self, d)
      let s0 := s.exWrites d n x.seg y.countWrites
      let s1 := (s0.setLayer d n y).bump .exRoundsExtra d.val 0 (s.rounds n y t - 1)
      let k := s1.skew n y
      let old := s1.reg .exSkewMeasured d.val
      let s2 := s1.setReg .exSkewMeasured d.val 0 (BitVec.ofNat 64 (k % 2 ^ 32 + max (bits old 63 32) k * 2 ^ 32))
      let s3 :=
        if s2.leadDie n d && (s2.program n).any (fun p => decide (p.skew < k)) then
          ((s2.exCode d n y.seg 0x0407).partEvent n 0x0407 (natBytes 2 y.cfg.layer.toNat ++ natBytes 4 k)).updDom n (fun v => { v with bound := v.bound ++ [y.seg] })
        else s2
      let s4 := (sh.2.filter (fun e => (y.expert e).any (fun v => decide (v.home = t)))).foldl
        (fun u e => (u.exCode d n y.seg 0x0408).partEvent n 0x0408 (natBytes 2 y.cfg.layer.toNat ++ natBytes 2 e)) s3
      sh.1.foldl (State.exShip n d) s4

/-- DISPATCH's answer: the first round's segments go out (R254, R268). -/
def State.exStart (n : Part) (s : State) (d : Fin 8) : State :=
  match s.openLayer d n with
  | none => s
  | some x =>
    if !x.counted || x.act.isNone || x.sent then s
    else
      let s1 := s.setLayer d n { x with sent := true }
      let s2 := (s.memberDies n).foldl (fun t m => t.exDispatch n d (t.dispatchFor n x d m 0)) s1
      let k := s2.rounds n x (s2.self, d)
      (s2.exAnswer d n (ExCmd.isFn 2) (dcmdResult 0 k)).exAnswer d n (ExCmd.pastLast k) (dcmdResult 0x0402 0)

/-- WAITIN's answer: once every header of the round and the weights that its rows need are there, the rows, tables and record
are written (R259, R261). -/
def State.exWaitin (n : Part) (s : State) (d : Fin 8) : State :=
  match s.openLayer d n with
  | none => s
  | some x =>
    let t : ModIx × Fin 8 := (s.self, d)
    let landedHere (e : Nat) : Bool :=
      match x.expert e with
      | none => true
      | some k => !(x.shipped.contains e) || k.onModule s.self
          || ((s.openLayer k.home.2 n).any (fun y => y.landed.contains e))
    if !x.sent || x.waited ≠ x.returned || !x.waitsIn || !((s.memberDies n).all (fun m => x.headers.contains m))
        || !(x.rows.all (fun r => landedHere r.expert)) then s
    else
        let p := x.poolMap t x.rows.length
        let cols := x.inCols
        let elems := (x.rows.map (fun r => r.payload.take cols)).flatten
        let scales := (x.rows.map (fun r => r.payload.drop cols)).flatten
        let stride := 32 * max 1 (s.served n x t).length
        let tables := (List.range (2 * x.cfg.slices)).map (fun i =>
          (x.tablesAt + i * stride, s.groupTable n x t (decide (x.cfg.slices ≤ i)) (i % x.cfg.slices)))
        let empty := (s.served n x t).filter (fun e => decide ((spanOf x.rows e).2 = 0))
        let empties := if (s.served n x t).isEmpty then 1 else empty.length
        let ws := [(p.input, elems), (p.input + up64 (x.rows.length * cols), scales)] ++ tables
          ++ [(x.recordAt x.returned, s.workRecord n x t)]
        let s1 := (s.exWrites d n x.seg (ws.filter (fun w => !w.2.isEmpty))).bump .exEmptyExperts d.val 0
          (2 * x.cfg.slices * empties)
        let s2 := s1.updLayer d n (fun y => { y with waited := y.waited + 1 })
        s2.exAnswer d n (ExCmd.waitin x.returned) (dcmdResult 0 (x.recordAt x.returned))

/-- The combined row of a token (R263). -/
def ExLayer.combineRow (x : ExLayer) (cols r : Nat) : List Fv :=
  let val (bs : List Byte) (k : Nat) : Fv :=
    if x.cfg.outFp32 then fpSingle.decode (fieldNat bs (4 * k) 4) else fpBrain.decode (fieldNat bs (2 * k) 2)
  let gs := (List.range x.cfg.topK).filterMap (fun i => x.gates.find? (fun g => decide (g.row = r ∧ g.rank = i)))
  (List.range cols).map (fun k =>
    let term (g : Gate) : Fv := (fpSingle.decode g.weight.toNat).mul (val (Assoc.getD (r, g.rank) [] x.retRows) k)
    match gs with
    | [] => .fin false 0 0
    | g :: l => l.foldl (fun acc h => ((term h).add acc).to32) (term g).to32)

/-- COMBINE's answer: once every RETURN segment has come, the combined rows are written and the layer closes (R263). -/
def State.exCombine (n : Part) (s : State) (d : Fin 8) : State :=
  match s.openLayer d n with
  | none => s
  | some x =>
    let need := (s.memberDies n).flatMap (fun m => (List.range (s.rounds n x m)).map (fun r => (r, m)))
    match x.combine with
    | none => s
    | some td =>
      if !(need.all (fun k => x.retHeaders.contains k)) then s
      else
        let f := fmtOf (descFmt td)
        let cols := descCols td
        let rows := (List.range x.tokens).map (fun r => x.combineRow cols r)
        let payload := rows.flatMap (fun l => f.packRow (l.map f.fp.encode))
        let tile := mkTile f x.tokens cols 0 0 payload false
        let s1 := s.exWrites d n x.seg ((tileWrites tile td).filter (fun w => !w.2.isEmpty))
        (s1.updLayer d n (fun y => { y with closed := true })).exAnswer d n (ExCmd.isFn 5) (dcmdResult 0 0)

/-- Segments held for a layer that is open now are taken (R407). -/
def State.exHeld (s : State) (n : Part) : State :=
  let mine (p : Part × ExKind × ExSegment) : Bool :=
    decide (p.1 = n) && decide (s.stamped n p.2.2.tick.toNat p.2.2.run = .take) && s.exReady n p.2.1 p.2.2
  let now := s.fab.heldX.filter mine
  let s1 := { s with fab := { s.fab with heldX := s.fab.heldX.filter (fun p => !mine p) } }
  now.foldl (fun t p => State.exSend n 4 t p.2.1 p.2.2) s1

/-- One round of what a partition's layers can do. -/
def State.exPass (n : Part) (s : State) : State :=
  let dies := s.partDies n
  let s1 := s.exShareCounts n
  let s2 := (dies.foldl (State.exCount n) s1).exHeld n
  let s3 := dies.foldl (State.exStart n) s2
  let s4 := dies.foldl (State.exWaitin n) s3
  dies.foldl (State.exCombine n) s4

/-- Carries the layers of a partition on, and lets its cores go on. -/
def State.exRun (s : State) (n : Part) : State :=
  (State.exPass n (State.exPass n (State.exPass n s))).wakeAll n

/-! ## Commands (R268) -/

/-- The layer of the segment whose ROUTE a core issued last. -/
def ExLayer.routed (x : ExLayer) (c : CoreId) (seg : Nat) : Option Nat :=
  ((x.cmds.filter (fun k => decide (k.fn = 1 ∧ k.seg = seg) && k.issuers.any (fun p => decide (p.1 = c)))).map (·.ord)).getLast?

/-- A command that another core of the die issued with the same arguments in the same segment: its entry (R240). A core's
command is for the layer whose ROUTE it issued last, a ROUTE for a layer after that; without one, for the open layer (log 34). -/
def ExLayer.shared (x : ExLayer) (c : CoreId) (seg fn : Nat) (a b : Word) : Option ExCmd :=
  let layer (k : ExCmd) : Bool :=
    match x.routed c seg with
    | none => decide (k.ord = x.ord)
    | some o => if fn = 1 then decide (o < k.ord) else decide (k.ord = o)
  x.cmds.find? (fun k => decide (k.fn = fn ∧ k.a = a ∧ k.b = b ∧ k.seg = seg) && layer k
    && !(k.issuers.any (fun p => decide (p.1 = c))))

/-- Joins a core to a command that another core issued. -/
def State.joinCmd (s : State) (c : CoreId) (n : Part) (tag : Nat) (k : ExCmd) : State :=
  let s1 := s.updLayer c.die n (fun x =>
    { x with cmds := x.cmds.map (fun y => if y = k then { y with issuers := y.issuers ++ [(c, tag)] } else y) })
  match k.result with
  | some r => s1.deliver c tag (wordBytes r)
  | none => s1

/-- Records a command. -/
def ExLayer.addCmd (x : ExLayer) (fn : Nat) (a b : Word) (seg : Nat) (r : Option Word) (c : CoreId) (tag : Nat) : ExLayer :=
  { x with cmds := x.cmds ++ [⟨x.ord, fn, a, b, seg, r, [(c, tag)]⟩] }

/-- A command whose result is a status (R268). -/
def State.exStatus (s : State) (c : CoreId) (tag : Nat) (code : Code) : State := s.deliver c tag (wordBytes (dcmdResult code 0))

/-- A local address in a scalar operand; anything else is the fault 0x030B. -/
def localArg (s : State) (w : Word) (align : Nat) : Option Nat :=
  match addrForm w align with
  | some (m, a) => if (s.elsewhere m).isNone then some a else none
  | none => none

/-- EX ROUTE (R243 to R246). -/
def State.exRoute (s : State) (c : CoreId) (n : Part) (tag : Nat) (a b : Word) : State :=
  let d := c.die
  let seg := (s.core c).seg
  let old := s.layer d n
  match old.bind (fun x => x.shared c seg 1 a b) with
  | some k => s.joinCmd c n tag k
  | none =>
    if old.any (fun x => !x.closed) then s.exStatus c tag 0x0402
    else
      match localArg s a 1, localArg s b 1 with
      | some ca, some la =>
        let thr := s.regN .exWshipThreshold d.val
        let pool := s.regN .exPoolSize d.val
        let r0 := s.readMem (stationAcc d n) ca 128
        match r0.2 with
        | .error e => r0.1.kill c e
        | .ok rec_ =>
          let cfg := layerCfgOf rec_
          if !layerCfgOk rec_ pool then s.exStatus c tag 0x0401
          else
            let r1 := r0.1.readMem (stationAcc d n) cfg.table (32 * cfg.experts)
            let r2 := if cfg.bias = 0 then (r1.1, .ok []) else r1.1.readMem (stationAcc d n) cfg.bias (4 * cfg.experts)
            let r3 := r2.1.readMem (stationAcc d n) la 32
            match r1.2, r2.2, r3.2 with
            | .error e, _, _ | _, .error e, _ | _, _, .error e => r3.1.kill c e
            | .ok tb, .ok bb, .ok db =>
              let es := (runsOf 32 tb).map (expertOf (s.memberDies n))
              if es.any (·.isNone) then s.exStatus c tag 0x0401
              else
                let td := descOf db
                let r4 := r3.1.exTile d n td
                match r4.2 with
                | .error e => r4.1.kill c e
                | .ok tile =>
                  if tile.fmt ≠ .fp32 ∨ tile.cols ≠ cfg.experts then r4.1.kill c 0x030A
                  else
                    let bias := (runsOf 4 bb).map (fun x => fpSingle.decode (bytesNat x))
                    let g := gateAll cfg bias tile.view.elems
                    let res := dcmdResult 0 (tile.rows * cfg.topK)
                    let kept := (old.map (fun x => x.cmds.filter (fun k => decide (k.seg = seg)))).getD []
                    let ord := match old with
                      | some y => if y.seg = seg then y.ord + 1 else 0
                      | none => 0
                    let x : ExLayer :=
                      { closed := false, seg := seg, ord := ord, cfg := cfg, experts := es.filterMap id, threshold := thr,
                        poolBase := s.regN .exPoolBase d.val, poolSize := pool, hash := exCfgHash rec_ tb thr pool,
                        tokens := tile.rows, gates := g.1, counts := [], dieCounts := [], counted := false, act := none,
                        sent := false, shipped := [], landed := [], headers := [], rows := [], waited := 0, returned := 0,
                        retHeaders := [], retRows := [], combine := none, cmds := kept }
                    let s1 := (r4.1.setLayer d n (x.addCmd 1 a b seg (some res) c tag)).bump .exNanRows d.val 0 g.2
                    ((s1.deliver c tag (wordBytes res)).exWrites d n seg x.gateWrites).exRun n
      | _, _ => s.kill c 0x030B

/-- EX DISPATCH (R254, R268): the activation tile is read at issue. -/
def State.exDispatchCmd (s : State) (c : CoreId) (n : Part) (tag : Nat) (a b : Word) : State :=
  let d := c.die
  match s.layer d n with
  | none => s.exStatus c tag 0x0402
  | some x =>
    match x.shared c (s.core c).seg 2 a b with
    | some k => s.joinCmd c n tag k
    | none =>
      if x.closed || x.act.isSome || b != 0 then s.exStatus c tag 0x0402
      else
        match localArg s a 1 with
        | none => s.kill c 0x030B
        | some la =>
          let r := s.readMem (stationAcc d n) la 32
          match r.2 with
          | .error e => r.1.kill c e
          | .ok db =>
            let td := descOf db
            let r1 := r.1.exTile d n td
            match r1.2 with
            | .error e => r1.1.kill c e
            | .ok t =>
              if t.fmt ≠ .a8 ∨ t.rows ≠ x.tokens ∨ t.cols + t.cols / 32 ≠ x.cfg.rowBytes then r1.1.kill c 0x030A
              else
                let v := t.view
                let rows := (List.range t.rows).map (fun i =>
                  v.raw.getD i [] ++ (v.scales.getD i []).map (BitVec.ofNat 8))
                let y := ({ x with act := some rows }).addCmd 2 a b (s.core c).seg none c tag
                (r1.1.setLayer d n y).exRun n

/-- EX WAITIN (R259, R268): allowed once DISPATCH was issued, for the next round; its result comes when the round is in place. -/
def State.exWaitinCmd (s : State) (c : CoreId) (n : Part) (tag : Nat) (a b : Word) : State :=
  let d := c.die
  match s.layer d n with
  | none => s.exStatus c tag 0x0402
  | some x =>
    match x.shared c (s.core c).seg 3 a b with
    | some k => s.joinCmd c n tag k
    | none =>
      if x.closed || x.act.isNone || b != 0 || decide (a.toNat ≠ x.waitins)
          || (x.sent && decide (s.rounds n x (s.self, d) ≤ a.toNat)) then s.exStatus c tag 0x0402
      else (s.setLayer d n (x.addCmd 3 a b (s.core c).seg none c tag)).exRun n

/-- The OUT row of a received row: the parts of every slot (R262). -/
def ExLayer.outPieces (x : ExLayer) (t : ModIx × Fin 8) (i : Nat) : List (Nat × Nat) :=
  let p := x.poolMap t x.rows.length
  (List.range x.cfg.slices).map (fun k => (p.outBlocks + k * p.slotStride + i * x.outLine, x.outLine))

/-- EX RETURN (R262, R268). -/
def State.exReturnCmd (s : State) (c : CoreId) (n : Part) (tag : Nat) (a b : Word) : State :=
  let d := c.die
  match s.layer d n with
  | none => s.exStatus c tag 0x0402
  | some x =>
    match x.shared c (s.core c).seg 4 a b with
    | some k => s.joinCmd c n tag k
    | none =>
      if x.closed || b != 0 || decide (a.toNat ≠ x.returned) || decide (x.waited ≠ x.returned + 1) then s.exStatus c tag 0x0402
      else
        let t : ModIx × Fin 8 := (s.self, d)
        let r := s.exReads d n ((List.range x.rows.length).flatMap (x.outPieces t))
        match r.2 with
        | .error e => r.1.exFault d n x.seg e
        | .ok bs =>
          let rows := List.zipWith (fun q bytes => (q, bytes)) x.rows (runsOf x.retBytes bs)
          let y := ({ x with returned := x.returned + 1, rows := [], headers := [] }).addCmd 4 a b (s.core c).seg
            (some (dcmdResult 0 0)) c tag
          let s1 := (r.1.setLayer d n y).deliver c tag (wordBytes (dcmdResult 0 0))
          let back (m : ModIx × Fin 8) : ExSegment :=
            let mine := rows.filter (fun p => decide ((p.1.srcModule, p.1.srcDie) = m))
            { s1.mkSegment n x d m x.returned with
              rowsField := mine.length, rowBytes := x.retBytes, runs := runsOfRows (mine.map (·.1.expert)),
              rows := mine.map (fun p => ⟨p.1.batchRow, p.1.rank, p.2⟩) }
          ((s.memberDies n).foldl (fun u m => State.exSend n 4 u .ret (back m)) s1).exRun n

/-- EX COMBINE (R263, R268). -/
def State.exCombineCmd (s : State) (c : CoreId) (n : Part) (tag : Nat) (a b : Word) : State :=
  let d := c.die
  match s.layer d n with
  | none => s.exStatus c tag 0x0402
  | some x =>
    match x.shared c (s.core c).seg 5 a b with
    | some k => s.joinCmd c n tag k
    | none =>
      if x.closed || b != 0 || x.combine.isSome || !x.sent || decide (x.returned ≠ s.rounds n x (s.self, d)) then
        s.exStatus c tag 0x0402
      else
        match localArg s a 1 with
        | none => s.kill c 0x030B
        | some la =>
          let r := s.readMem (stationAcc d n) la 32
          match r.2 with
          | .error e => r.1.kill c e
          | .ok db =>
            let td := descOf db
            match descCheck td false with
            | some e => r.1.kill c e
            | none =>
              let f := fmtOf (descFmt td)
              if (f ≠ .fp32 ∧ f ≠ .bf16) ∨ descRows td ≠ x.tokens ∨ descCols td * x.outSize ≠ x.retBytes
                  ∨ (s.descDst td).isSome then r.1.kill c 0x030A
              else
                let y := ({ x with combine := some td }).addCmd 5 a b (s.core c).seg none c tag
                (r.1.setLayer d n y).exRun n

/-- EX QUERY (R268): T_e and whether the expert was shipped. -/
def State.exQueryCmd (s : State) (c : CoreId) (n : Part) (tag : Nat) (a b : Word) : State :=
  match s.openLayer c.die n with
  | none => s.exStatus c tag 0x0402
  | some x =>
    if !x.counted || b != 0 || decide (x.cfg.experts ≤ a.toNat) then s.exStatus c tag 0x0402
    else s.deliver c tag (wordBytes (dcmdResult 0
      (x.total a.toNat % 2 ^ 32 + if x.shipped.contains a.toNat then 2 ^ 32 else 0)))

/-! ## Issue of DCMD (R209) -/

/-- A command of a die station: KV 0, EX 1, SV 2; one that the station does not define is 0x030D (R209). -/
def State.dieCommand (s : State) (c : CoreId) (n : Part) (station fn tag : Nat) (a b : Word) : State :=
  match station, fn with
  | 0, 1 => s.kvAlloc c n tag a b
  | 0, 2 => s.kvPageCmd c n tag a b
  | 1, 1 => s.exRoute c n tag a b
  | 1, 2 => s.exDispatchCmd c n tag a b
  | 1, 3 => s.exWaitinCmd c n tag a b
  | 1, 4 => s.exReturnCmd c n tag a b
  | 1, 5 => s.exCombineCmd c n tag a b
  | 1, 6 => s.exQueryCmd c n tag a b
  | 2, 1 => s.draftsync c n tag a b
  | 2, 2 => s.svYield c n tag a
  | _, _ => s.kill c 0x030D

/-- Issue of a DCMD: its register is late, and the station acts (R209, R212). -/
def dcmd (c : CoreId) (f : FmtR) : State → State :=
  issue1 c f.guard (f.c != 0 || decide (2 < f.x.toNat)) false [.s f.a, .s f.b] (fun s =>
    let x := s.core c
    let n := (s.partOf c).getD 0
    let tag := x.nextTag
    State.thenNext c (fun t =>
      (t.updCore c (fun y => y.addLate (.s f.d))).dieCommand c n f.x.toNat f.fn.toNat tag (x.rdS f.a) (x.rdS f.b)) s)

/-- KV ALLOC (R288). -/
def execAlloc (c : CoreId) (f : FmtR) : State → Out := lift (dcmd c f)
/-- KV PAGE (R303). -/
def execKvPage (c : CoreId) (f : FmtR) : State → Out := lift (dcmd c f)
/-- SV DRAFTSYNC (R293). -/
def execDraftsync (c : CoreId) (f : FmtR) : State → Out := lift (dcmd c f)
/-- SV YIELD (R297). -/
def execYield (c : CoreId) (f : FmtR) : State → Out := lift (dcmd c f)
/-- EX ROUTE (R244). -/
def execRoute (c : CoreId) (f : FmtR) : State → Out := lift (dcmd c f)
/-- EX DISPATCH (R268). -/
def execDispatch (c : CoreId) (f : FmtR) : State → Out := lift (dcmd c f)
/-- EX WAITIN (R259). -/
def execWaitin (c : CoreId) (f : FmtR) : State → Out := lift (dcmd c f)
/-- EX RETURN (R262). -/
def execReturnRows (c : CoreId) (f : FmtR) : State → Out := lift (dcmd c f)
/-- EX COMBINE (R263). -/
def execCombine (c : CoreId) (f : FmtR) : State → Out := lift (dcmd c f)
/-- EX QUERY (R268). -/
def execExQuery (c : CoreId) (f : FmtR) : State → Out := lift (dcmd c f)

/-! ## Segments from other modules (R247, R255, R262, R251, R407) -/

/-- An exchange segment that comes in (R407): its bytes count on the ports it crosses; it goes on towards other modules it is for
(R266, R414); here it is taken under its stamp. -/
def State.exArrive (s : State) (n : Part) (kind : ExKind) (g : ExSegment) : State :=
  let s0 := (s.exchangePackets n kind g).foldl (fun t pk => t.countArrival 0x10 pk) s
  let on := if g.mask = 0 then decide (g.dstModule ≠ s.self)
    else !(s.treePorts n g.srcModule (maskMods g.mask) 3).isEmpty
  let s1 := if on then s0.sendExchange n kind g else s0
  if !(if g.mask = 0 then decide (g.dstModule = s.self) else g.mask.getLsbD s.self.val) then s1
  else
    match s.stamped n g.tick.toNat g.run with
    | .discard => s1
    | .stale => s1.bump .fabDiscards 0 0 1
    | .hold => { s1 with fab := { s1.fab with heldX := s1.fab.heldX ++ [(n, kind, g)] } }
    | .take => (State.exSend n 4 s1 kind { g with dstModule := s.self }).exRun n

/-- COUNT (R246, R247). -/
def execCountRecord (n : Part) (x : ExSegment) : State → Out := lift (fun s => s.exArrive n .count x)
/-- DISPATCH (R255). -/
def execDispatchSegment (n : Part) (x : ExSegment) : State → Out := lift (fun s => s.exArrive n .dispatch x)
/-- RETURN (R262). -/
def execReturnSegment (n : Part) (x : ExSegment) : State → Out := lift (fun s => s.exArrive n .ret x)
/-- SHIP (R251). -/
def execShipSegment (n : Part) (x : ExSegment) : State → Out := lift (fun s => s.exArrive n .ship x)

/-- EX_COUNT_TIMEOUT (R267): a record of the layer has come from another module, be it held for a die that is not ready. -/
def execExCountTimeout (die : Fin 8) (n : Part) : State → Out :=
  lift (fun s =>
    match s.openLayer die n with
    | none => s
    | some x =>
      let first (m : ModIx) : Bool := decide (m ≠ s.self) && (Assoc.find m x.counts).isNone
      let others := x.counts.any (fun p => decide (p.1 ≠ s.self))
        || s.fab.heldX.any (fun p => decide (p.1 = n ∧ p.2.1 = .count ∧ p.2.2.seg = x.seg)
          && decide (s.stamped n p.2.2.tick.toNat p.2.2.run = .take) && first p.2.2.srcModule)
      s.when (!x.counted && others) (fun t => t.exFault die n x.seg 0x0404))

/-- EX_DATA_TIMEOUT (R267): the die expects a DISPATCH of its round, weights, or a RETURN. -/
def execExDataTimeout (die : Fin 8) (n : Part) : State → Out :=
  lift (fun s =>
    match s.openLayer die n with
    | none => s
    | some x =>
      let t : ModIx × Fin 8 := (s.self, die)
      let rows := decide (x.returned < s.rounds n x t) && !((s.memberDies n).all (fun m => x.headers.contains m))
      let ships := (x.landsOn t).any (fun e => !x.landed.contains e)
      let rets := (s.memberDies n).any (fun m => (List.range (s.rounds n x m)).any (fun r => !x.retHeaders.contains (r, m)))
      s.when (x.counted && (rows || ships || rets)) (fun u => u.exFault die n x.seg 0x0405))

/-- A rewind or an abort leaves EX idle (R239, R185). -/
def State.exClear (s : State) (n : Part) : State :=
  let s1 := { s with ex := s.ex.filter (fun p => decide (p.1.2 ≠ n)) }
  { s1 with fab := { s1.fab with heldX := s1.fab.heldX.filter (fun p =>
    decide (p.1 ≠ n) || decide (s1.stamped n p.2.2.tick.toNat p.2.2.run = .hold)) } }

end Sys2Proof.Machine
end

