-- ==== Sys2Proof/Machine/Packets.lean ====
section
/-! DEFINITION. Fabric packets that come in, collectives, and the limits on answers and held packets (R404 to R414, R418 to
R425). -/

namespace Sys2Proof.Machine

/-! ## Issue of a COLL (R211, R418, R421, R424) -/

/-- COLL: its kind is checked, then the group descriptor and the source tile are read; a ninth COLL waits. -/
def collIssue (c : CoreId) (f : FmtT) : State → State :=
  issue1 c f.guard (tBad f { t0 := true, t1 := true, fn := 0xFF, s := true, s2 := true }
      || decide (f.fn.toNat = 0) || decide (7 < f.fn.toNat)) false [.td f.t0, .td f.t1, .s f.s] (fun s =>
    let x := s.core c
    let g := x.rdS f.s
    let k := f.fn.toNat
    let src := x.rdTd f.t0
    match firstCode [addrCheck g 64, if k = 7 then none else descCheck src false] with
    | some e => s.kill c e
    | none =>
      match s.freeHandle c with
      | none => s
      | some h =>
        let w := s.scalarAt g
        let run : CollRun :=
          { kind := k, src := src, dst := x.rdTd f.t1, handle := h,
            pieces := [⟨w.1, w.2, 64, none, none⟩] ++ (if k = 7 then [] else s.tilePieces src), entries := false }
        issued c [] (fun t => t.updCore c (fun y =>
          let y1 := y.wrS f.s2 (BitVec.ofNat 64 h)
          { y1 with colls := Assoc.put h ⟨false, []⟩ y1.colls, collRuns := y1.collRuns ++ [run] })) s)

/-- ALLREDUCE_SUM (R418). -/
def execAllreduceSum (c : CoreId) (f : FmtT) : State → Out := lift (collIssue c f)
/-- REDUCE_SUM (R418). -/
def execReduceSum (c : CoreId) (f : FmtT) : State → Out := lift (collIssue c f)
/-- REDUCE_SCATTER_SUM (R418). -/
def execReduceScatterSum (c : CoreId) (f : FmtT) : State → Out := lift (collIssue c f)
/-- ALLREDUCE_MAX (R418). -/
def execAllreduceMax (c : CoreId) (f : FmtT) : State → Out := lift (collIssue c f)
/-- ALLGATHER (R418). -/
def execAllgather (c : CoreId) (f : FmtT) : State → Out := lift (collIssue c f)
/-- BROADCAST (R418). -/
def execBroadcast (c : CoreId) (f : FmtT) : State → Out := lift (collIssue c f)
/-- BARRIER (R418). -/
def execBarrier (c : CoreId) (f : FmtT) : State → Out := lift (collIssue c f)

/-! ## Answers to requests (R408, R412) -/

/-- The bytes that a piece wants, from an answer that starts at the multiple of 8 below it. -/
def Piece.take (p : Piece) (bs : List Byte) : Piece := { p with data := some ((bs.drop (p.addr % 8)).take p.len) }

/-- An answer reaches what a core asked for. -/
def State.answerCore (s : State) (c : CoreId) (r : Request) (bs : List Byte) : State :=
  let fill (p : Piece) : Piece := if p.tag = some r.tag ∧ p.data.isNone then p.take bs else p
  match r.kind with
  | .load t => (s.bump .lxBytesLoaded (s.coreIx c) 0 bs.length).deliver c t bs
  | .atom t _ => s.deliver c t bs
  | .poll =>
    match (s.core c).wait with
    | some (.waitv _ v k) => if waitCond k (bytesWord bs) v = some true then s.resume c else s
    | _ => s
  | .piece =>
    let x := s.core c
    let lx := x.lxRuns.any (fun q => q.pieces.any (fun p => decide (p.tag = some r.tag)))
    (if lx then s.bump .lxBytesLoaded (s.coreIx c) 0 bs.length else s).updCore c (fun y =>
      { y with lxRuns := y.lxRuns.map (fun q => { q with pieces := q.pieces.map fill }),
               collRuns := y.collRuns.map (fun q => { q with pieces := q.pieces.map fill }) })
  | _ => s

/-- A request's fault at its source (R408, R412). -/
def State.requestFails (s : State) (r : Request) (code : Code) : State :=
  match r.src with
  | .core c => if r.stamped then s.kill c code (some .lx) else s
  | .die _ => if r.stamped then s.segError r.part r.seg code none else s.lastCode code
  | _ => s

/-- What follows at the source of a request. -/
def State.afterAnswer (s : State) (r : Request) : State :=
  match r.src with
  | .core c => State.settle c s
  | _ => s.wakeAll r.part

/-- An outstanding request by tag. -/
def State.request (s : State) (tag : Code) : Option Request := s.fab.reqs.find? (fun r => decide (r.tag = tag))

/-- Ends a request. -/
def State.dropRequest (s : State) (tag : Code) : State :=
  { s with fab := { s.fab with reqs := s.fab.reqs.filter (fun r => decide (r.tag ≠ tag)) } }

/-- A response that comes in: late where nothing waits for it; a member's acknowledgement of a multicast; data or a fault
(R408, R412, R414). -/
def State.responseIn (s : State) (pk : Packet) : State :=
  match s.request pk.tag with
  | none => s.bump .fabLateResp 0 0 1
  | some r =>
    let left := r.members.filter (fun m => decide (m ≠ pk.srcModule))
    if !left.isEmpty then
      { s with fab := { s.fab with reqs := s.fab.reqs.map (fun q => if q.tag = r.tag then { q with members := left } else q) } }
    else
      let s1 := s.dropRequest r.tag
      let status : Code := if pk.status = 0 ∧ pk.poison then 0x0603 else pk.status
      let s2 :=
        if status ≠ 0 then s1.requestFails r status
        else
          match r.src with
          | .core c => s1.answerCore c r pk.payload
          | _ => s1
      s2.afterAnswer r

/-- A request is declared dead: its poison is delivered and 0x0811 raised in a segment (R412). -/
def State.requestDead (s : State) (r : Request) : State :=
  let s1 := ((s.dropRequest r.tag).bump .fabDeadCount 0 0 1).setReg .fabCode 0 0 0x0811
  let s2 :=
    match r.src, r.kind with
    | .core c, .load _ | .core c, .poll | .core c, .piece => s1.answerCore c r (poisonBytes r.len)
    | .core c, .atom _ nr => if nr then s1 else s1.answerCore c r (wordBytes deadWord)
    | _, _ => s1
  (s2.requestFails r 0x0811).afterAnswer r

/-! ## Packets at their target -/

/-- The stamp under which a remote write or atomic is made (R406, R409). -/
def pkStamp (pk : Packet) : Stamp := if pk.stamped then some (.remote pk.srcModule pk.srcDie, pk.seg) else none

/-- Who makes the access of a packet: its partition, in the segment of its stamp. What a stamp says is work of a tick comes from a
step program: die stations send each other no stores to regions (R325, R406). -/
def pkAcc (pk : Packet) : Accessor :=
  { hostAcc pk.part with prog := pk.stamped, seg := if pk.stamped then some pk.seg else none, work := pk.stamped }

/-- The local address of a packet (R309, R404). -/
def pkLocal (pk : Packet) : Nat := bits pk.addr 49 0

/-- The answer to a request, under the request's stamp (R406, R408). -/
def State.respond (s : State) (op : PacketOp) (pk : Packet) (status : Code) (poison : Bool) (payload : List Byte) : State :=
  let base := s.plainPacket pk.part [pk.srcModule] payload
  s.sendPacket op { base with run := pk.run, stamped := pk.stamped, seg := pk.seg, tick := pk.tick, status := status,
                              srcDie := pk.dstDie, dstDie := pk.srcDie, tag := pk.tag, poison := poison }

/-- READ at its target (R309, R325, R408). -/
def State.serveRead (s : State) (pk : Packet) : State :=
  let r := s.readMem (pkAcc pk) (pkLocal pk) pk.len
  match r.2 with
  | .ok bs => r.1.respond .readResp pk 0 false bs
  | .error e => (r.1.lastCode e).respond .readResp pk e false []

/-- Whether a WRITE carries what one serving station sends another (log 32). -/
def State.forServing (s : State) (pk : Packet) : Bool :=
  if h : pk.srcDie.toNat < 8 then
    let d : Fin 8 := ⟨pk.srcDie.toNat, h⟩
    let a := (pkLocal pk)
    pk.stamped && (decide (a = svBlock d)
      || (decide (tableAddr d pk.part ≤ a) && decide (a < tableAddr d pk.part + s.tableBytes pk.part)))
  else false

/-- Marks the units of a range of close memory poisoned (R315, R404). -/
def State.poisonRange (s : State) (p : Place) (len : Nat) : State :=
  if p.space = .close then
    let us := (List.range ((p.phys + len - 1) / 64 - p.phys / 64 + 1)).map (fun k => p.phys / 64 + k)
    { s with ms := { s.ms with poisoned := s.ms.poisoned ++ us.filter (fun u => !s.ms.poisoned.contains u) } }
  else s

/-- Whether weight ingest that comes by multicast is for a shard under repair: SHARD_VERIFY then writes what the repair may write
(R366). -/
def State.repairing (s : State) (n : Part) (a : Nat) : Bool :=
  s.wt.any (fun p => decide (p.1.1 = n) && p.2.repairs.any (fun r =>
    (p.2.shards[r.1]?).any (fun k => decide (k.dest ≤ a ∧ a < k.dest + k.bytes))))

/-- WRITE at its target (R60, R309, R325, R408). A payload that is poisoned leaves its units of close memory poisoned
(log 39). -/
def State.serveWrite (s : State) (pk : Packet) : State :=
  if s.forServing pk then
    let d : Fin 8 := Fin.ofNat 8 pk.srcDie.toNat
    ((s.svReceive pk.part d pk.seg (pkLocal pk) pk.payload).respond .writeAck pk 0 false []).wakeAll pk.part
  else if pk.mc && !pk.stamped && s.repairing pk.part (pkLocal pk) then s.respond .writeAck pk 0 false []
  else
    let r := s.writeMem (pkAcc pk) (pkStamp pk) (pkLocal pk) pk.payload
    match r.2 with
    | .ok () =>
      let s1 :=
        match pk.poison, s.place (pkAcc pk) (pkLocal pk) pk.payload.length true with
        | true, .ok p => r.1.poisonRange p pk.payload.length
        | _, _ => r.1
      s1.respond .writeAck pk 0 false []
    | .error e => (r.1.lastCode e).respond .writeAck pk e false []

/-- An atomic at its target (R62, R410). -/
def State.serveAtom (s : State) (op : AtomOp) (pk : Packet) : State :=
  let w (i : Nat) : Word := bytesWord ((pk.payload.drop (8 * i)).take 8)
  let r := s.atomMem (pkAcc pk) (pkStamp pk) op pk.nr (pkLocal pk) (w 0) (w 1)
  match r.2 with
  | .ok old => r.1.respond .atomResp pk 0 false (if pk.nr then [] else wordBytes old)
  | .error e => (r.1.lastCode e).respond .atomResp pk e false []

/-- A share of a collective, or a part of one (R422, R425). -/
def State.collIn (s : State) (isResult : Bool) (pk : Packet) : State :=
  let p := shareOf pk.srcModule pk.payload
  let k : CollKey := (pk.part, pk.seg, fieldNat pk.payload 2 2, fieldNat pk.payload 4 4)
  let off := fieldNat pk.payload 24 4
  let x := (s.inst k).getD (newInst k p.kind p.hash)
  let join (old : Option CollPart) : Option CollPart :=
    match old with
    | none => if off = 0 then some p else none
    | some q => if off = q.data.length ∧ off ≠ 0 then some { q with data := q.data ++ p.data } else some q
  let x1 :=
    if isResult then { x with result := join x.result }
    else
      let mine := x.parts.find? (fun q => decide (q.module = pk.srcModule))
      { x with parts := x.parts.filter (fun q => decide (q.module ≠ pk.srcModule)) ++ (join mine).toList }
  ((s.putInst x1).collStep k).wakeAll pk.part

/-- What a packet does at the module it is for. -/
def State.effect (s : State) (op : PacketOp) (pk : Packet) : State :=
  match op with
  | .read => s.serveRead pk
  | .write => s.serveWrite pk
  | .atomAdd => s.serveAtom .add pk
  | .atomMax => s.serveAtom .max pk
  | .atomCas => s.serveAtom .cas pk
  | .atomSwap => s.serveAtom .swap pk
  | .atomLadd => s.serveAtom .ladd pk
  | .readResp | .writeAck | .atomResp => s.responseIn pk
  | .collPart => s.collIn false pk
  | .collResult => s.collIn true pk

/-- A packet under its stamp (R407). -/
def State.underStamp (s : State) (op : PacketOp) (pk : Packet) : State :=
  if !pk.stamped then s.effect op pk
  else
    match s.stamped pk.part pk.tick.toNat pk.run with
    | .discard => s
    | .stale => s.bump .fabDiscards 0 0 1
    | .take => s.effect op pk
    | .hold => { s with fab := { s.fab with held := s.fab.held ++ [(op, pk)] } }

/-- A packet with a reserved field set (R405). -/
def State.badPacket (s : State) : State := (s.bump .fabBadPackets 0 0 1).mgmtReport .fabCode 0x0808

/-- Whether a packet has a reserved operation or a reserved bit set (R404, R405). -/
def pkBad (op : PacketOp) (pk : Packet) : Bool :=
  decide (pk.rsv ≠ 0) || decide (bits pk.addr 63 56 ≠ 0) || (packetClass op pk.mc ≠ 2 && decide (pk.status ≠ 0))

/-- A packet comes in: discarded where a reserved field is set; passed on towards its destinations; delivered here (R401,
R405, R414). -/
def State.packetIn (s0 : State) (op : PacketOp) (pk : Packet) : State :=
  if pkBad op pk then s0.badPacket
  else
    let s := s0.countArrival op.code pk
    if pk.mc then
      let cls := packetClass op true
      let on := !(s.treePorts pk.part pk.srcModule (maskMods pk.mask) cls).isEmpty
      let s1 := if on then s.sendPacket op pk else s
      if pk.mask.getLsbD s.self.val then s1.underStamp op pk else s1
    else if pk.dstModule ≠ s.self then s.sendPacket op pk
    else s.underStamp op pk

/-- READ (R408). -/
def execRead (pk : Packet) : State → Out := lift (fun s => s.packetIn .read pk)
/-- WRITE (R408, R414). -/
def execWrite (pk : Packet) : State → Out := lift (fun s => s.packetIn .write pk)
/-- ATOM_ADD (R410). -/
def execAtomAdd (pk : Packet) : State → Out := lift (fun s => s.packetIn .atomAdd pk)
/-- ATOM_MAX (R410). -/
def execAtomMax (pk : Packet) : State → Out := lift (fun s => s.packetIn .atomMax pk)
/-- ATOM_CAS (R410). -/
def execAtomCas (pk : Packet) : State → Out := lift (fun s => s.packetIn .atomCas pk)
/-- ATOM_SWAP (R410). -/
def execAtomSwap (pk : Packet) : State → Out := lift (fun s => s.packetIn .atomSwap pk)
/-- ATOM_LADD (R410). -/
def execAtomLadd (pk : Packet) : State → Out := lift (fun s => s.packetIn .atomLadd pk)
/-- READ_RESP (R408). -/
def execReadResp (pk : Packet) : State → Out := lift (fun s => s.packetIn .readResp pk)
/-- WRITE_ACK (R408). -/
def execWriteAck (pk : Packet) : State → Out := lift (fun s => s.packetIn .writeAck pk)
/-- ATOM_RESP (R408). -/
def execAtomResp (pk : Packet) : State → Out := lift (fun s => s.packetIn .atomResp pk)
/-- COLL_PART (R422, R425). -/
def execCollPart (pk : Packet) : State → Out := lift (fun s => s.packetIn .collPart pk)
/-- COLL_RESULT (R423). -/
def execCollResult (pk : Packet) : State → Out := lift (fun s => s.packetIn .collResult pk)

/-! ## Limits -/

/-- FAB_DEAD_TIMEOUT (R412). -/
def execFabDeadTimeout (tag : Code) : State → Out :=
  lift (fun s =>
    match s.request tag with
    | none => s
    | some r => s.requestDead r)

/-- Takes the first element that a test picks out of a list. -/
def dropFirst {α : Type} (p : α → Bool) : List α → List α
  | [] => []
  | a :: l => if p a then l else a :: dropFirst p l

/-- FAB_HELD_TIMEOUT (R407): the first held packet of the tag goes; an exchange segment, whose record has no tag, is named by
its place. -/
def execFabHeldTimeout (tag : Code) : State → Out :=
  lift (fun s =>
    if s.fab.held.any (fun p => decide (p.2.tag = tag)) then
      { s with fab := { s.fab with held := dropFirst (fun p => decide (p.2.tag = tag)) s.fab.held } }
    else { s with fab := { s.fab with heldX := s.fab.heldX.eraseIdx tag.toNat } })

/-- CE_COLL_TIMEOUT (R424). -/
def execCeCollTimeout (n : Part) (group : Code) (inst : Nat) : State → Out :=
  lift (fun s =>
    match s.insts.find? (fun x => decide (x.part = n ∧ x.group = group.toNat ∧ x.n = inst ∧ x.fault = 0)) with
    | none => s
    | some x => s.collFault x.key 0x080C)

/-- Held packets and segments of a domain are looked at again when its tick or run changes (R407). -/
def State.releaseHeld (s : State) (n : Part) : State :=
  let ps := s.fab.held.filter (fun p => decide (p.2.part = n))
  let s1 := { s with fab := { s.fab with held := s.fab.held.filter (fun p => decide (p.2.part ≠ n)) } }
  ps.foldl (fun t p => t.underStamp p.1 p.2) s1

/-- Instances and requests of a domain's abandoned run are gone (R407, R425). -/
def State.dropRun (s : State) (n : Part) : State :=
  { s with fab := { s.fab with reqs := s.fab.reqs.filter (fun r => !(decide (r.part = n) && r.stamped)),
                               insts := s.fab.insts.filter (fun x => decide (x.part ≠ n)) } }

end Sys2Proof.Machine
end

