-- ==== Sys2Proof/Machine/Rewind.lean ====
section
/-! DEFINITION. The start of a step on the cores (R191), the restore of a checkpoint (R48, R185, R192), and the discarding of a
tick (R54). -/

namespace Sys2Proof.Machine

/-! ## Cores -/

/-- Replaces what a function of them makes of the cores of a partition. -/
def State.mapCores (s : State) (n : Part) (f : CoreId → Core → Core) : State :=
  let mine := s.coresOf n
  { s with cores := s.cores.filter (fun p => !mine.contains p.1) ++ mine.map (fun c => (c, f c (s.core c))) }

/-- Streams at the start of a step or of a rerun: their configuration stays, their rings are empty (R159, R191). -/
def emptied (l : List (BitVec 4 × Stream)) : List (BitVec 4 × Stream) := l.map (fun q => (q.1, { q.2 with tiles := [] }))

/-- A core at the start of a step (R191), with the checkpoint a rewind of segment 0 restores. Without a program it has nothing
to run and waits for the commit (log 33). -/
def Core.stepStart (prog : Option Program) (now : Word) (x : Core) : Core :=
  let y : Core := { Core.init with streams := emptied x.streams, running := true, started := now, nextTag := x.nextTag }
  match prog with
  | none => { y with wait := some .commit }
  | some p =>
    let td : Vector Desc 32 := Vector.ofFn (fun i => p.tds.getD i.val 0)
    let z := { y with pc := p.entry, td := td }
    { z with ckpts := [⟨0, z.s, z.p, z.td, z.pc, [], [], z.streams, []⟩] }

/-- A core restored to the start of segment `j` (R48, R192): its stations are idle, its rings empty. -/
def Core.restore (j : Nat) (x : Core) : Core :=
  match x.ckpts.find? (fun k => decide (k.seg = j)) with
  | none => { Core.init with streams := x.streams, running := x.running, wait := some .commit, started := x.started, nextTag := x.nextTag }
  | some k =>
    { Core.init with
      s := k.s, p := k.p, td := k.td, pc := k.pc, loops := k.loops, calls := k.calls, streams := emptied k.streams,
      colls := k.colls, running := true, seg := j, ckpts := x.ckpts.filter (fun y => decide (y.seg ≤ j)),
      started := x.started, nextTag := x.nextTag }

/-- Stops the sequencers and stations of a partition, which abandon their commands (R220, R479). -/
def State.stopCores (s : State) (n : Part) : State :=
  s.mapCores n (fun _ x => { x with running := false, wait := none, late := [], mxq := [], vxq := [], txq := [], lxq := [],
                                    svq := [], lxRuns := [], collRuns := [] })

/-! ## Provisional work (R185) -/

/-- What a domain keeps of its running tick after segments from `j` on are discarded. -/
def Domain.before_ (j : Nat) (d : Domain) : Domain :=
  { d with
    errs := d.errs.filter (fun e => decide (e.1 < j)),
    traps := d.traps.filter (fun e => decide (e.1 < j)),
    journal := d.journal.filter (fun e => decide (e.seg < j)),
    bound := d.bound.filter (fun k => decide (k < j)),
    closeBy := d.closeBy.filter (fun e => decide (e.1.1 < j)),
    cxlBy := d.cxlBy.filter (fun e => decide (e.1.1 < j)),
    fabBy := d.fabBy.filter (fun e => decide (e.1.1 < j)),
    health := d.health.filter (fun e => decide (e.1.1 < j)) }

/-- Discards the work of segments from `j` on in every place of R185: exchange payloads, pages, samples and commands of the
tick, replays, tile-list claims, collectives and requests, the journal; barriers are empty again. -/
def State.discardFrom (s : State) (n : Part) (j : Nat) : State :=
  let s1 := ((((s.exClear n).kvRewind n j).updBatch n (Batch.rewind j)).cancelReplays n j).restoreClaims n j
  let s2 := { s1 with barriers := s1.barriers.filter (fun b => decide (b.1.2.1 ≠ n)) }
  (s2.dropRun n).updDom n (Domain.before_ j)

/-- The TRAP events of segments from `first` to below `last`, sent with the vote or when the run is abandoned (R624, log 14). -/
def State.trapEvents (s : State) (n : Part) (first last : Nat) : State :=
  let due := (s.dom n).traps.filter (fun t => decide (first ≤ t.1 ∧ t.1 < last))
  let s1 := s.updDom n (fun d => { d with traps := d.traps.filter (fun t => decide (t ∉ due)) })
  due.foldl (fun t k => t.partEvent n 0x0311
    (natBytes 2 k.2.2.1.toNat ++ natBytes 1 k.1 ++ natBytes 1 k.2.1 ++ natBytes 4 k.2.2.2)) s1

/-! ## Rewind and abort -/

/-- Segment 0 of a tick built on a module whose SV.CFG_HASH differs fails with 0x0509, which SV keeps on the partition's dies
(R278, R304). -/
def State.mismatched (s : State) (n : Part) : State :=
  if (s.svPart n).running.mismatch then
    ((s.partDies n).foldl (fun t d => t.setReg .svFault d.val 0 (faultWord 0x0509 0 (t.dom n).tick)) s).segError n 0 0x0509 none
  else s

/-- The restore of R48: the work of segments from `j` on is discarded and the checkpoint before segment `j` restored; sites at
fault are replaced unless the retraction is a pre-emption (R49, R481, R499). The votes held for later segments go (R47). -/
def State.rewind (s : State) (n : Part) (j run : Nat) (preempt : Bool) : State :=
  let s1 := (s.trapEvents n j 64).discardFrom n j
  let s2 := s1.updDom n (fun d => { d with
    run := run, voted := min d.voted j, stopped := false,
    tally := { d.tally with votes := d.tally.votes.filter (fun v => decide (v.1 < j)), waits := [], acks := [], silent := none } })
  let s3 := if preempt then s2 else s2.derRestore n j
  let s4 := s3.mapCores n (fun _ x => x.restore j)
  if j = 0 then s4.mismatched n else s4

/-- The bytes of APPEND memory that the tick wrote get back what they held before it; the Pannier stays as it is (R54, R336,
log 44). -/
def State.undoAppend (s : State) (n : Part) : State :=
  (s.dom n).before.foldl (fun t c => t.store c.1 [c.2])
    (s.updDom n (fun d => { d with before := [] }))

/-- All work of the running tick is discarded and the state committed before it restored (R54). -/
def State.discardTick (s : State) (n : Part) : State :=
  let s1 := ((s.trapEvents n 0 64).discardFrom n 0).undoAppend n
  let s2 := s1.derRestore n 0
  let s3 := s2.mapCores n (fun _ x => { x.restore 0 with running := false, wait := none })
  let x := s3.svPart n
  let s4 := s3.setSvPart n { x with running := Batch.empty, next := none }
  let s5 := { s4 with fab := { s4.fab with held := s4.fab.held.filter (fun p => decide (p.2.part ≠ n)) } }
  s5.updDom n (fun d => { d with tally := Tally.empty, applyAt := none, committed := false, holding := false, stopped := false,
                                 heldStart := false })

/-! ## The start of a tick -/

/-- Segment 0 of the domain's tick starts (R37, R57, R191): packets that waited for the tick are looked at (R407). -/
def State.beginTick (s : State) (n : Part) : State :=
  let s1 := s.updDom n (fun d => { d with
    state := .running, run := 0, voted := 0, passed := 0, errs := [], tally := Tally.empty, applyAt := none,
    committed := false, bound := [], closeBy := [], cxlBy := [], fabBy := [], health := [], traps := [], journal := [],
    before := [], preempted := false, holding := false, stopped := false, applyWaits := false, heldStart := false })
  let s1' := (s.partDies n).foldl (fun t d => t.setReg .exSkewMeasured d.val 0 (t.reg .exSkewMeasured d.val &&& 0xFFFFFFFF))
    (s1.dropRun n)
  let s2 := { s1' with
    ex := s1'.ex.filter (fun p => decide (p.1.2 ≠ n)),
    claims := s1'.claims.filter (fun k => decide (k.2.1 ≠ n)),
    barriers := s1'.barriers.filter (fun b => decide (b.1.2.1 ≠ n)) }
  let prog := s2.program n
  let s3 := s2.mapCores n (fun _ x => x.stepStart prog s2.now)
  (s3.mismatched n).releaseHeld n

/-- Segment 0 of the tick starts, or waits for the end of a thermal hold (R542). -/
def State.startTick (s : State) (n : Part) : State :=
  let s1 := s.beginTick n
  if s1.pw.hold then (s1.stopCores n).updDom n (fun d => { d with heldStart := true }) else s1

/-- The end of a thermal hold lets a held segment 0 start (R542). -/
def State.releaseStart (s : State) (n : Part) : State :=
  if (s.dom n).heldStart then
    let prog := s.program n
    let s1 := s.updDom n (fun d => { d with heldStart := false })
    if (s.dom n).holding then s1 else s1.mapCores n (fun _ x => x.stepStart prog s.now)
  else s

end Sys2Proof.Machine
end

