-- ==== Sys2Proof/Machine/Commit.lean ====
section
/-! DEFINITION. The apply of a commit (R56, R68, R69, R116, R347, R348, R484), disabling a domain (R39), and the reset of a
partition (R589). -/

namespace Sys2Proof.Machine

/-! ## Measured quantities (R69, R347, R348) -/

/-- Close-memory bytes, second-tier bytes and torus-port bytes of the running tick, over its segments, by place. -/
def totals (l : List ((Nat × Nat) × Nat)) (places : Nat) : List Nat :=
  (List.range places).map (fun k => ((l.filter (fun e => decide (e.1.2 = k))).map (·.2)).sum)

/-- STATE bytes of the running tick on a compute die. -/
def Domain.stateBytes (d : Domain) (die : Fin 8) : Nat := ((d.journal.filter (fun e => decide (e.die = die))).map JEntry.len).sum

/-- Whether the running tick is BOUND_EXCEEDED (R69). -/
def State.boundExceeded (s : State) (n : Part) : Bool :=
  let d := s.dom n
  !d.bound.isEmpty ||
    (match s.program n with
    | none => false
    | some p =>
      let k := planCounts (s.svPart n).running.plan
      decide (p.costFor 3 k < (totals d.cxlBy 4).sum)
        || (totals d.fabBy 12).any (fun b => decide (p.costFor 4 k * p.skew < 16 * b))
        || (List.finRange 8).any (fun die => decide (p.costFor 5 k < d.stateBytes die)))

/-- The busiest place of a tier: its bytes, and its share of the tier's in 1/65536. -/
def busiest (l : List Nat) : Nat := l.foldl max 0
def portionOf (part whole : Nat) : Nat := if whole = 0 then 0 else min 65535 (part * 65536 / whole)

/-- MEM.P_CLOSE_BYTES, MEM.P_CXL_BYTES, and event 0x060A where a tier's traffic broke its spread (R347, R348). -/
def State.reportTraffic (s : State) (n : Part) : State :=
  let d := s.dom n
  let close := totals d.closeBy 4
  let cxl := totals d.cxlBy 4
  let s1 := (s.setReg .memPCloseBytes 0 n.val (BitVec.ofNat 64 close.sum)).setReg .memPCxlBytes 0 n.val (BitVec.ofNat 64 cxl.sum)
  match s.program n with
  | none => s1
  | some p =>
    let k := planCounts (s.svPart n).running.plan
    let s2 :=
      if p.costFor 2 k < 4 * busiest close then
        s1.partReport .memCode n 0x060A (natBytes 1 0 ++ natBytes 2 (portionOf (busiest close) close.sum))
      else s1
    if (List.finRange 4).any (fun q => decide (p.costFor 3 k * s.cxlRate q < cxl.getD q.val 0 * s.regN .cadAdmCxlBw)) then
      s2.partReport .memCode n 0x060A (natBytes 1 1 ++ natBytes 2 (portionOf (busiest cxl) cxl.sum))
    else s2

/-- The health report of a committed tick (R116). -/
def State.reportHealth (s : State) (n : Part) : State :=
  let d := s.dom n
  let count (h : Nat) : Nat := ((d.health.filter (fun e => decide (e.1.2 = h))).map (·.2)).sum
  s.eventOn (s.regN .hpPEvchan 0 n.val) 2 0 (s.tickOf n)
    (natBytes 8 d.tick ++ (List.range 9).flatMap (fun h => natBytes 8 (count h)))

/-- Interference cycles of a partition at the arbiters from `lo` to below `hi`. -/
def State.interference (s : State) (n : Part) (lo hi : Nat) : List Nat :=
  ((List.finRange 14).filter (fun a => decide (lo ≤ a.val ∧ a.val < hi))).map (fun a =>
    Assoc.getD n 0 (Assoc.getD a Arbiter.init s.arb).interference)

/-- The slowdown report of an observed partition (R483, R484). -/
def State.reportSlowdown (s : State) (n : Part) : State :=
  let sum (lo hi : Nat) : Nat := sat32 (s.interference n lo hi).sum
  let most := sat32 (busiest (s.interference n 0 14))
  let s1 : State := { s with arb := s.arb.map (fun p => (p.1, { p.2 with interference := Assoc.del n p.2.interference })) }
  if s.observed n then
    (s1.setReg .partSlowdown 0 n.val (BitVec.ofNat 64 most)).partReport .partCode n 0x0A05
      (natBytes 4 (sum 0 4) ++ natBytes 4 (sum 4 8) ++ natBytes 4 (sum 8 14) ++ natBytes 4 most)
  else s1

/-! ## The apply (R56) -/

/-- The commit of the running tick is applied at `apply` (R56): journal, pages, request table, results and events; the marks
of R68 and R69; the reports of the tick; the changes that wait for it. -/
def State.commitWork (s : State) (n : Part) (apply : Word) : State :=
  let d := s.dom n
  let due := s.tickTime n (d.tick + 1)
  let late := decide (due < apply.toNat)
  let bound := s.boundExceeded n
  let s1 := if late then
      ((s.setReg .cadDomShift 0 n.val (s.reg .cadDomShift 0 n.val + BitVec.ofNat 64 (apply.toNat - due))).bump
        .cadDomLateTicks 0 n.val 1).domReport n 0x0109
    else s
  let s2 := if bound then s1.domReport n 0x010A else s1
  let s3 := (s2.applyJournal d.journal).updDom n (fun x => { x with journal := [], before := [] })
  let s4 := (s3.commitRequests n d.tick apply late bound).reportHealth n
  let s5 := (s4.reportTraffic n).reportSlowdown n
  let s6 := ((s5.announceSwitches n).derCommit n).applyChange n
  let s7 := ((s6.nxTake n).nxPublish n).setReg .cadDomLastCommit 0 n.val apply
  s7.updDom n (fun x => { x with lastTick := some d.tick, lastLate := late, lastBound := bound, tick := d.tick + 1,
                                 applyAt := none, committed := false, applyWaits := false })

/-! ## Disabling, and the reset of a partition (R39, R589) -/

/-- What BOOT_PART_RESET does on this module (R589). -/
def State.partReset (s : State) (n : Part) : State :=
  let mine := (s.entriesOf n).map (·.1)
  let s1 : State := { s with
    sv := { s.sv with
      entries := s.sv.entries.filter (fun p => !mine.contains p.1),
      results := s.sv.results.filter (fun p => !mine.contains p.1),
      parts := Assoc.del n s.sv.parts },
    kv := s.kv.filter (fun p => decide (p.1.2 ≠ n)),
    wt := s.wt.filter (fun p => decide (p.1.1 ≠ n)),
    loads := s.loads.filter (fun l => decide (l.part ≠ n)),
    pn := s.pn.map (fun p => (p.1, pnStart (p.2.filter (fun i => decide (i.part ≠ n))))),
    hp := { s.hp with
      queues := s.hp.queues.filter (fun q => decide (q.1.1 ≠ some n)),
      channels := s.hp.channels.filter (fun c => decide (c.2.owner ≠ some n)) } }
  let s2 := s1.mapCores n (fun _ _ => Core.init)
  let due := s2.boot.partReset.filter (fun p => decide (p.1 = n))
  due.foldl (fun t p => t.complete 0x00D4 p.2 0)
    { s2 with boot := { s2.boot with partReset := s2.boot.partReset.filter (fun p => decide (p.1 ≠ n)) } }

/-- The check of RETIRING versions at an apply after which no batch follows (R371). -/
def State.retireAfter (s : State) (n : Part) : State := (s.updBatch n (fun _ => Batch.empty)).retireVersions n

/-- ENABLE of a domain becomes 0 (R39): a tick whose COMMIT has come is applied, any other is discarded; the registers are
unlocked; a change that waits for the domain applies (R570), and a partition reset that waits for it (R589). -/
def State.disable (s : State) (n : Part) : State :=
  if !s.enabled n then s
  else
    let d := s.dom n
    let s1 :=
      if (d.state = .running ∨ d.state = .rewinding) ∧ d.applyAt.isSome then (s.commitWork n s.now).retireAfter n
      else if d.state = .running ∨ d.state = .rewinding then s.discardTick n
      else s
    let s2 := s1.setReg .cadDomCtrl 0 n.val 0
    let s3 := s2.updDom n (fun x => { Domain.init with
      tick := x.tick, lastTick := x.lastTick, lastLate := x.lastLate, lastBound := x.lastBound })
    let s4 := s3.mapCores n (fun _ x => { x with running := false, wait := none })
    let x := s4.svPart n
    let s5 := (s4.setSvPart n { x with running := Batch.empty, next := none, mismatch := false }).flushVersions n
    let s6 := ((s5.applyChange n).latchCfg n).reviewAfterDisable
    if s6.boot.partReset.any (fun p => decide (p.1 = n)) then s6.partReset n else s6

/-- DOM_DISABLE (R39). -/
def execDomDisable (n : Part) : State → Out := lift (fun s => s.disable n)

end Sys2Proof.Machine
end

