-- ==== Sys2Proof/Machine/Vote.lean ====
section
/-! DEFINITION. The life of a domain: enabling and settings (R38, R467), the start of ticks (R37, R57), votes and their
resolution (R44 to R47), retraction (R48 to R50, R480, R481), silence, failover and abort (R51 to R54), commit (R55, R56) and
admission close (R64). -/

namespace Sys2Proof.Machine

/-! ## Votes (R44 to R46) -/

/-- The first error found in a segment: the code of its DIRTY vote, 0 for CLEAN (R44). -/
def Domain.voteCode (d : Domain) (j : Nat) : Code := ((d.errs.find? (fun e => decide (e.1 = j))).map (fun e => e.2.1)).getD 0

/-- Whether a domain has work of a tick in progress. -/
def Domain.live (d : Domain) : Bool := decide (d.state = .running) || decide (d.state = .rewinding)

/-- A management message about a segment of the running tick (R417). -/
def State.segMsg (s : State) (n : Part) (j : Nat) (code : Code) (module : Nat) : Mgmt :=
  let d := s.dom n
  { src := s.self, dom := n, run := d.run, seg := j, code := code, module := module, tick := s.tickOf n, time := 0, hash := 0 }

/-- The master and the deputy, without this module. -/
def State.tellers (s : State) (n : Part) : List ModIx :=
  (([(s.dom n).master] ++ (s.dom n).deputy.toList).filter (fun m => decide (m ≠ s.self)))

/-- Sends a message to every other member and is the result of handling it here too (R46, R415). -/
def State.broadcast (s : State) (n : Part) (t : MgmtType) (m : Mgmt) : State := s.sendMgmt t (s.otherMembers n) m []

/-- Changes the tally of a domain. -/
def State.updTally (s : State) (n : Part) (f : Tally → Tally) : State := s.updDom n (fun d => { d with tally := f d.tally })

/-! ## What PASS, ABORT and COMMIT do -/

/-- PASS for a segment (R41, R46, R226). -/
def State.doPass (s : State) (n : Part) (j : Nat) : State :=
  let s1 := s.updDom n (fun d => { d with
    passed := j + 1, errs := d.errs.filter (fun e => decide (e.1 ≠ j)),
    tally := { d.tally with resolved := j + 1, votes := d.tally.votes.filter (fun v => decide (j < v.1)),
                            waits := d.tally.waits.filter (fun v => decide (j < v.1)) } })
  s1.wakeAll n

/-- ABORT of the running tick (R54). -/
def State.doAbort (s : State) (n : Part) : State :=
  let s1 := (s.discardTick n).updDom n (fun d => { d with state := .suspended, run := 0 })
  let s2 := s1.domReport n 0x0108
  if (s2.dom n).resetAfter then s2.disable n else s2

/-- COMMIT of the running tick with its apply time (R55). -/
def State.doCommit (s : State) (n : Part) (time : Word) : State :=
  s.updDom n (fun d => { d with committed := true, applyAt := some time })

/-- What a retraction for a pre-emption adds: the event, the count since enable, the hold (R481, R486). -/
def State.startHold (s : State) (n : Part) (j : Nat) (module : Nat) : State :=
  let s1 := (s.partReport .partCode n 0x0A04 (natBytes 1 j ++ natBytes 1 module)).bump .partPStatus 0 n.val (2 ^ 32)
  (s1.stopCores n).updDom n (fun d => { d with preempted := true, holding := true, state := .rewinding })

/-- Records an acknowledgement of a retraction (R52). -/
def State.recordAck (s : State) (n : Part) (m : ModIx) : State :=
  s.updTally n (fun t => { t with acks := t.acks ++ [m], silent := if t.silent = some m then none else t.silent })

/-- A segment 0 that a thermal hold keeps from starting stays so through a restore (R542). -/
def State.keepHeld (s : State) (n : Part) : State := if (s.dom n).heldStart then s.stopCores n else s

/-- RETRACT of a segment: the reports, the restore of R48, the acknowledgement, and the rerun, at once or after the hold of a
pre-emption. -/
def State.doRetract (s : State) (n : Part) (j run : Nat) (code : Code) (module : Nat) : State :=
  let s1 := if code = 0x0104 then s.domReport n 0x0104 (natBytes 1 module)
    else s.domReport n 0x0103 (natBytes 1 module ++ natBytes 2 code.toNat)
  let s2 := s1.bump .cadDomRetracts 0 n.val 1
  let s3 := if code.toNat / 256 = 0x0B then s2.bump .intRetracts 0 0 1 else s2
  let s4 := (s3.rewind n j run (decide (code = 0x0A04))).updDom n (fun d => { d with state := .running, holding := false })
  let s5 :=
    if s4.silent n then s4
    else
      let s' := s4.sendMgmt .retractAck (s4.tellers n) (s4.segMsg n j 0 s4.self.val) []
      if s'.isMaster n || s'.isDeputy n then s'.recordAck n s'.self else s'
  let s6 := if code = 0x0A04 then s5.startHold n j module else s5
  ((s6.releaseHeld n).keepHeld n).wakeAll n

/-! ## Resolution at the master (R46, R47, R50, R480) -/

/-- Broadcasts ABORT and takes it (R54). -/
def State.abortAll (s : State) (n : Part) : State := (s.broadcast n .abort { s.mgmt n with tick := s.tickOf n }).doAbort n

/-- Broadcasts RETRACT and takes it, or ABORT once the retractions of the tick are used up (R46, R50). -/
def State.retractAll (s : State) (n : Part) (j : Nat) (code : Code) (module : ModIx) : State :=
  let run := (s.dom n).run + 1
  if s.regN .cadDomMaxRetracts 0 n.val < run then s.abortAll n
  else
    (s.broadcast n .retract { s.segMsg n j code module.val with run := run }).doRetract n j run code module.val

/-- The module and code that a retraction names: the lowest-index module with a code other than 0x0A04, else the
lowest-index one that voted with it (R480). -/
def dirtyOf (votes : List (ModIx × Code)) : Option (ModIx × Code) :=
  let pick (l : List (ModIx × Code)) : Option (ModIx × Code) :=
    l.foldl (fun b v => match b with
      | none => some v
      | some w => if v.1 < w.1 then some v else some w) none
  let dirty := votes.filter (fun v => decide (v.2 ≠ 0))
  match pick (dirty.filter (fun v => decide (v.2 ≠ 0x0A04))) with
  | some v => some v
  | none => pick dirty

/-- The votes held for a segment. -/
def Tally.votesFor (t : Tally) (j : Nat) : List (ModIx × Code) :=
  (t.votes.filter (fun v => decide (v.1 = j))).map (fun v => (v.2.1, v.2.2))

/-- Whether every member's vote on a segment is held. -/
def State.complete? (s : State) (n : Part) (j : Nat) : Bool :=
  let l := ((s.dom n).tally.votesFor j).map (·.1)
  (s.members n).all (fun m => l.contains m)

/-- COMMIT leaves the master once the last segment has PASS, with the scheduled boundary or the time of its broadcast
(R55). -/
def State.commitAll (s : State) (n : Part) : State :=
  let t := BitVec.ofNat 64 (max (s.tickTime n ((s.dom n).tick + 1)) s.now.toNat)
  (s.broadcast n .commit { s.mgmt n with tick := s.tickOf n, time := t }).doCommit n t

/-- The master resolves its segments in order as far as the votes it holds go (R46, R47). -/
def State.resolve (n : Part) : Nat → State → State
  | 0, s => s
  | k + 1, s =>
    let d := s.dom n
    let j := d.tally.resolved
    if !s.isMaster n || decide (d.state ≠ .running) || d.committed || decide (s.stepSegs n ≤ j) || !s.complete? n j then s
    else
      match dirtyOf (d.tally.votesFor j) with
      | some v => s.retractAll n j v.2 v.1
      | none =>
        let s1 := (s.broadcast n .pass (s.segMsg n j 0 0)).doPass n j
        if s1.stepSegs n ≤ j + 1 then s1.commitAll n else State.resolve n k s1

/-- A vote reaches the master or the deputy: one of another tick or run waits for it, or is stale (R46, R406). -/
def State.takeVote (s : State) (m : Mgmt) : State :=
  let n := m.dom
  let d := s.dom n
  if !(s.isMaster n || s.isDeputy n) then s
  else if m.tick.toNat = d.tick ∧ m.run = d.run ∧ d.live then
    if m.seg < d.tally.resolved ∨ d.tally.votes.any (fun v => decide (v.1 = m.seg ∧ v.2.1 = m.src)) then s
    else State.resolve n 65 (s.updTally n (fun t => { t with votes := t.votes ++ [(m.seg, m.src, m.code)] }))
  else if d.tick < m.tick.toNat ∨ (m.tick.toNat = d.tick ∧ (!d.live || decide (d.run < m.run))) then
    s.updDom n (fun x => { x with early := x.early ++ [m] })
  else s

/-- Votes that waited are looked at again when the tick or the run changes. -/
def State.takeEarly (s : State) (n : Part) : State :=
  let l := (s.dom n).early
  l.foldl State.takeVote (s.updDom n (fun d => { d with early := [] }))

/-- This module votes on its next segment (R44, R624): to the master and the deputy, itself included. -/
def State.castVote (s : State) (n : Part) (code : Code) : State :=
  let j := (s.dom n).voted
  let s1 := (s.trapEvents n j (j + 1)).updDom n (fun d => { d with voted := j + 1 })
  let m := s1.segMsg n j code s1.self.val
  ((s1.sendMgmt .vote (s1.tellers n) m []).takeVote m).takeEarly n

/-- Whether requests of a segment await an answer, whose errors would be the segment's (R44, R412). -/
def State.requestsOpen (s : State) (n : Part) (j : Nat) : Bool :=
  s.fab.reqs.any (fun r => decide (r.part = n) && r.stamped && decide (r.seg = j))

/-- Whether every check on this module's next segment has finished: every core has ended it or been killed in it, its sampled
units are replayed and its requests answered (R44, R220, R497, R505). -/
def State.mayVote (s : State) (n : Part) : Bool :=
  let d := s.dom n
  decide (d.state = .running) && !d.committed && !d.stopped && !d.heldStart && !s.silent n
    && decide (d.voted < s.endedSegs n) && !s.replaysPending n d.voted && !s.requestsOpen n d.voted

/-- VOTE_CAST (R44). -/
def execVoteCast (n : Part) : State → Out :=
  lift (fun s => s.when (s.mayVote n) (fun t => t.castVote n ((t.dom n).voteCode (t.dom n).voted)))

/-- VOTE (R46). -/
def execVote (m : Mgmt) : State → Out := lift (fun s => (s.takeVote m).takeEarly m.dom)

/-- Records that a module is slow, not silent (R45). -/
def State.takeWait (s : State) (m : Mgmt) : State :=
  let d := s.dom m.dom
  if (s.isMaster m.dom || s.isDeputy m.dom) && d.live && decide (m.tick.toNat = d.tick) && decide (m.run = d.run) then
    s.updTally m.dom (fun t => { t with waits := t.waits ++ [(m.seg, m.src)] })
  else s

/-- WAIT_FRAME_SEND (R45, R505, R542): on the segment that this module has not yet voted on. -/
def execWaitFrameSend (n : Part) : State → Out :=
  lift (fun s =>
    let d := s.dom n
    if !d.live || d.committed || s.silent n || decide (s.stepSegs n ≤ d.voted) then s
    else
      let m := s.segMsg n d.voted 0 s.self.val
      (s.sendMgmt .wait (s.tellers n) m []).takeWait m)

/-- WAIT (R45). -/
def execWait (m : Mgmt) : State → Out := lift (fun s => s.takeWait m)

/-! ## Results from the master (R53) -/

/-- Whether a result concerns the running tick, not yet committed, and comes from the master. -/
def State.fromMaster (s : State) (m : Mgmt) : Bool :=
  let d := s.dom m.dom
  d.live && !d.committed && decide (m.src = d.master) && decide (m.tick.toNat = d.tick)

/-- PASS (R41, R46, R53): segments pass in order. -/
def execPass (m : Mgmt) : State → Out :=
  lift (fun s =>
    let d := s.dom m.dom
    s.when (s.fromMaster m && decide (m.run = d.run) && decide (m.seg = d.passed)) (fun t => t.doPass m.dom m.seg))

/-- The member that becomes deputy after one that became master: the next-lowest index (R53). -/
def State.nextDeputy (s : State) (n : Part) (m : ModIx) : Option ModIx := (s.members n).find? (fun x => decide (m < x))

/-- A RETRACT of the deputy that names the master silent makes the deputy master (R53, log 52). -/
def State.newMaster (s : State) (m : Mgmt) : State :=
  let d := s.dom m.dom
  if m.code = 0x0104 ∧ m.module = d.master.val ∧ d.deputy = some m.src ∧ m.src ≠ s.self then
    s.updDom m.dom (fun x => { x with master := m.src, deputy := s.nextDeputy m.dom m.src })
  else s

/-- RETRACT (R48, R53, R481). -/
def execRetract (m : Mgmt) : State → Out :=
  lift (fun s0 =>
    let s := s0.newMaster m
    let d := s.dom m.dom
    s.when (s.fromMaster m && decide (d.run < m.run) && decide (d.passed ≤ m.seg)) (fun t =>
      (t.doRetract m.dom m.seg m.run m.code m.module).takeEarly m.dom))

/-- RETRACT_ACK (R52). -/
def execRetractAck (m : Mgmt) : State → Out :=
  lift (fun s =>
    let d := s.dom m.dom
    s.when ((s.isMaster m.dom || s.isDeputy m.dom) && d.live && decide (m.tick.toNat = d.tick) && decide (m.run = d.run))
      (fun t => t.recordAck m.dom m.src))

/-- ABORT (R53, R54). -/
def execAbort (m : Mgmt) : State → Out := lift (fun s => s.when (s.fromMaster m) (fun t => t.doAbort m.dom))

/-- COMMIT (R53, R55). -/
def execCommit (m : Mgmt) : State → Out := lift (fun s => s.when (s.fromMaster m) (fun t => t.doCommit m.dom m.time))

/-! ## Silence (R51 to R53) -/

/-- SILENT_TIMEOUT (R51): the member has sent neither vote nor WAIT for the segment under resolution, of which a first vote has
come. -/
def execSilentTimeout (n : Part) (silent : ModIx) : State → Out :=
  lift (fun s =>
    let d := s.dom n
    let j := d.tally.resolved
    let heard := ((d.tally.votesFor j).map (·.1)).contains silent || d.tally.waits.any (fun w => decide (w = (j, silent)))
    if !s.isMaster n || decide (d.state ≠ .running) || d.committed || heard || (d.tally.votesFor j).isEmpty
        || !(s.members n).contains silent
        || decide (s.stepSegs n ≤ j) then s
    else
      let s1 := s.retractAll n j 0x0104 silent
      if (s1.dom n).live && !((s1.dom n).tally.acks.contains silent) then s1.updTally n (fun t => { t with silent := some silent })
      else s1)

/-- REJOIN_TIMEOUT (R52): the silent member's acknowledgement has not come. -/
def execRejoinTimeout (n : Part) : State → Out :=
  lift (fun s =>
    s.when (s.isMaster n && (s.dom n).live && (s.dom n).tally.silent.isSome) (fun t => t.abortAll n))

/-- MASTER_FAILOVER (R53): the deputy, with a complete tally and no result, becomes master and declares the former master
silent. -/
def execMasterFailover (n : Part) : State → Out :=
  lift (fun s =>
    let d := s.dom n
    let j := d.tally.resolved
    if !s.isDeputy n || decide (d.state ≠ .running) || d.committed || decide (s.stepSegs n ≤ j) || !s.complete? n j then s
    else
      let old := d.master
      let s1 := s.updDom n (fun x => { x with master := s.self, deputy := s.nextDeputy n s.self })
      let s2 := (s1.domReport n 0x010C (natBytes 1 old.val)).retractAll n j 0x0104 old
      if (s2.dom n).live then s2.updTally n (fun t => { t with silent := some old }) else s2)

/-! ## Enabling (R38, R467, R505, R570) -/

/-- The settings of a domain (R417). -/
def State.settings (s : State) (n : Part) : Settings :=
  { period := s.reg .cadDomPeriod 0 n.val, spokes := BitVec.ofNat 64 (s.spokes n), margin := BitVec.ofNat 64 (s.margin n),
    epoch := s.reg .cadDomEpoch 0 n.val, k0 := s.reg .cadDomTick 0 n.val, slice := s.sliceReg n }

/-- Settings as the words of a SETTINGS message. -/
def settingsWords (d : Settings) : List Word := [d.period, d.spokes, d.margin, d.epoch, d.k0, d.slice]

/-- Whether the block of a slice lies inside the map's extents (R393). -/
def sliceInside (e : Nat × Nat × Nat) (w : Word) : Bool :=
  decide (bits w 1 0 + bits w 9 8 < e.1) && decide (bits w 3 2 + bits w 11 10 < e.2.1)
    && decide (bits w 5 4 + bits w 13 12 < e.2.2)

/-- Whether the settings and the time base of a domain let it start (R35, R38, R64). -/
def State.settingsOk (s : State) (n : Part) : Bool :=
  sliceInside s.extents (s.sliceReg n) &&
  let p := s.regN .cadDomPeriod 0 n.val
  let k := s.spokes n
  let m := s.margin n
  let lead := s.regN .cadDomAdmLead 0 n.val
  let epoch := s.regN .cadDomEpoch 0 n.val
  decide (250 ≤ p) && decide (p ≤ 100000) && decide (4 ≤ k) && decide (k ≤ 64) && decide (p * 1000 % k = 0)
    && decide (k ≤ 20 * m) && decide (10 * m ≤ 3 * k) && decide (50 ≤ lead) && decide (lead ≤ p)
    && decide (s.now.toNat + lead * 1000 ≤ epoch) && decide (epoch % 1000 = 0)
    && (decide (s.tb.state = .locked) || decide (s.tb.state = .root)) && decide (s.tb.errBound.toNat < 100)

/-- The SETTINGS of every member are compared with this module's own once all have come: with any different the domain does
not start (R38). The master first passes every member's on (log 53). -/
def State.compareSettings (s : State) (n : Part) : State :=
  let d := s.dom n
  let l := d.tally.settings
  if decide (d.state ≠ .starting) || !(s.members n).all (fun m => (Assoc.find m l).isSome) then s
  else
    let s1 :=
      if s.isMaster n then
        (s.members n).foldl (fun t m =>
          t.sendMgmt .settings (t.otherMembers n) { t.mgmt n with module := m.val }
            ((Assoc.find m l).map settingsWords |>.getD [])) s
      else s
    if (s.members n).all (fun m => decide (Assoc.find m l = some (s.settings n))) then s1
    else (s1.domReport n 0x0105).disable n

/-- The effect of DOM_ENABLE (R38, R467, R505, R570). -/
def State.enable (s : State) (n : Part) : State :=
  if s.enabled n then s
  else if !s.settingsOk n || !s.partValid n || s.silent n || s.changePends n then s.domReport n 0x0106
  else
    let k0 := s.regN .cadDomTick 0 n.val
    let zero (t : State) (r : Reg) : State := t.setReg r 0 n.val 0
    let s1 := [Reg.cadDomRetracts, .cadDomLateTicks, .cadDomShift, .partPStatus].foldl zero (s.setReg .cadDomCtrl 0 n.val 1)
    let master := s1.firstMaster n
    let s2 := s1.updDom n (fun d => { Domain.init with
      state := .starting, master := master, deputy := s1.nextDeputy n master, tick := k0,
      lastTick := if k0 = 0 then none else some (k0 - 1), lastLate := d.lastLate, lastBound := d.lastBound,
      early := d.early, tally := { Tally.empty with settings := Assoc.put s1.self (s1.settings n) d.tally.settings } })
    let s3 := if s2.isMaster n then s2
      else s2.sendMgmt .settings [master] { s2.mgmt n with module := s2.self.val } (settingsWords (s2.settings n))
    s3.compareSettings n

/-- DOM_ENABLE (R38, R467, R505, R570). -/
def execDomEnable (n : Part) : State → Out := lift (fun s => s.enable n)

/-- SETTINGS (R38): a member's reach the master, and from the master every other member. -/
def execSettings (m : Mgmt) (d : Settings) : State → Out :=
  lift (fun s =>
    let n := m.dom
    let st := (s.dom n).state
    let due := if s.firstMaster n = s.self then decide (m.module = m.src.val) && (decide (st = .idle) || decide (st = .starting))
      else decide (m.src = s.firstMaster n) && decide (st = .starting)
    if !due then s
    else
      (s.updTally n (fun t => { t with settings := Assoc.put (Fin.ofNat 64 m.module) d t.settings })).compareSettings n)

/-! ## Ticks (R37, R55 to R57) -/

/-- Whether every member's settings have come and agree, so that a starting domain starts (R38). -/
def State.agreed (s : State) (n : Part) : Bool :=
  (s.members n).all (fun m => decide (Assoc.find m (s.dom n).tally.settings = some (s.settings n)))

/-- TICK_START (R37): the first tick of an enabled domain starts. -/
def execTickStart (n : Part) : State → Out :=
  lift (fun s =>
    s.when (decide ((s.dom n).state = .starting) && s.agreed n) (fun t => (((t.finalise n).startTick n).takeEarly n).wakeAll n))

/-- What follows the apply of a commit: the next tick, unless the domain is to be suspended or its partition reset (R57, R73,
R589). -/
def State.afterApply (s : State) (n : Part) : State :=
  let d := s.dom n
  if d.resetAfter then s.disable n
  else if d.suspendAfter.isSome then
    let x := s.svPart n
    let s1 := (s.setSvPart n { x with running := Batch.empty, next := none }).retireVersions n
    (s1.updDom n (fun x => { x with state := .suspended, suspendAfter := none })).mapCores n (fun _ x =>
      { x with running := false, wait := none })
  else ((((s.finalise n).retireVersions n).startTick n).takeEarly n).wakeAll n

/-- The apply of a scheduled commit: it waits for a promotion that is still being copied (R56, R344). -/
def State.apply (s : State) (n : Part) : State :=
  let d := s.dom n
  match d.applyAt with
  | none => s
  | some t =>
    if d.state ≠ .running then s
    else if s.promotionRuns n d.tick then s.updDom n (fun x => { x with applyWaits := true })
    else (s.commitWork n (if d.applyWaits then BitVec.ofNat 64 (max t.toNat s.now.toNat) else t)).afterApply n

/-- COMMIT_APPLY (R56). -/
def execCommitApply (n : Part) : State → Out := lift (fun s => s.apply n)

/-- KV_PAGE_COPY_DONE (R343, R344): an apply that waited for the copy goes on. -/
def execKvPageCopyDone (die : Fin 8) (n : Part) (entry : Nat) : State → Out :=
  lift (fun s =>
    let s1 := (s.pageCopyDone die n entry).wakeAll n
    if (s1.dom n).applyWaits then s1.apply n else s1)

/-- PREEMPT_HOLD_END (R481): the segment starts again on the same cores. -/
def execPreemptHoldEnd (n : Part) : State → Out :=
  lift (fun s =>
    s.when (s.dom n).holding (fun t =>
      let j := (t.dom n).voted
      ((t.updDom n (fun d => { d with holding := false, state := .running })).mapCores n (fun _ x => x.restore j)).keepHeld n |>.wakeAll n))

/-! ## Admission (R64, R278, R281, R304) -/

/-- ADMISSION_CLOSE (R64): configuration written since takes effect, g is evaluated, the intake applied, the batch built. -/
def execAdmissionClose (n : Part) : State → Out :=
  lift (fun s =>
    let d := s.dom n
    if !(d.live || decide (d.state = .starting)) || (s.svPart n).next.isSome then s
    else
      let k := if d.state = .starting then d.tick else d.tick + 1
      let s1 := ((s.latchCfg n).evalIssueLevel n).applyIntake n k
      if (s1.svPart n).mismatch then
        let x := s1.svPart n
        s1.setSvPart n { x with next := some { Batch.empty with tick := k, mismatch := true } }
      else s1.buildBatch n k)

end Sys2Proof.Machine
end

