-- ==== Sys2Proof/Machine/Arb.lean ====
section
/-! DEFINITION. Arbiters (R470 to R476, R483), pre-emption (R479, R482) and the partition commands (R485). -/

namespace Sys2Proof.Machine

/-! ## One window (R471 to R474) -/

/-- An arbiter. -/
def State.arbiter (s : State) (a : Fin 14) : Arbiter := Assoc.getD a Arbiter.init s.arb

/-- Replaces an arbiter. -/
def State.setArb (s : State) (a : Fin 14) (x : Arbiter) : State := { s with arb := Assoc.put a x s.arb }

/-- The credit of a partition at an arbiter now (R472). -/
def State.creditNow (s : State) (a : Fin 14) (n : Part) : Nat :=
  let w := s.regN .arbWindow
  if !s.partValid n || s.bestEffort n then 0
  else if a.val < 4 then
    let rate := 48000 * s.regN .memMdRate 0 a.val * (if (s.reg .memCtrl).getLsbD 0 then 15 else 16) / 16
    creditOf (s.share n) (s.regN .cadAdmCloseBw) w (4 * rate)
  else if a.val < 8 then
    if (s.cxlPort (Fin.ofNat 4 (a.val - 4))).state = .inService then creditOf (s.share n) 108000 w 120000 else 0
  else
    let x := s.port (Fin.ofNat 6 (a.val - 8))
    creditOf (s.share n) (s.regN .cadAdmFabBw) w (if x.lanes.length = 8 then 200000 else 400000)

/-- A window under way: by partition what still waits, the credit left, the grants within credit and beyond, and the
interference cycles; the URGENT and BACKGROUND requests waiting, the URGENT grants left, and the grants of either; the turn of
the round robin and its length. -/
structure Window where
  demand : List Nat
  credit : List Nat
  guar : List Nat
  best : List Nat
  wait : List Nat
  urgent : Nat
  quota : Nat
  urgentG : Nat
  back : Nat
  backG : Nat
  turn : Nat
  length : Nat
  idle : Nat
  deriving DecidableEq, Repr

/-- Whose a granted cycle is. -/
inductive Grant | part (n : Nat) (best : Bool) | urgent | back | none
  deriving DecidableEq, Repr

/-- The partition whose turn it is among those with credit and requests: the one whose turn runs, until it has had `burst`
cycles while another waits, then the next in order (R474). -/
def Window.guarTurn (w : Window) (burst : Nat) : Option Nat :=
  let ok (n : Nat) : Bool := decide (0 < w.demand.getD n 0) && decide (0 < w.credit.getD n 0)
  let others := (List.range 16).filter (fun n => ok n && decide (n ≠ w.turn))
  if ok w.turn && (others.isEmpty || decide (w.length < burst)) then some w.turn
  else match others.find? (fun n => decide (w.turn < n)) with
    | some n => some n
    | none => others.head?

/-- The BEST_EFFORT partition with the smallest (b + 1) / SHARE, the lower number of equals (R474). -/
def Window.bestTurn (w : Window) (shares : List Nat) : Option Nat :=
  ((List.range 16).filter (fun n => decide (0 < w.demand.getD n 0))).foldl (fun b n => match b with
    | none => some n
    | some m => if (w.best.getD n 0 + 1) * shares.getD m 0 < (w.best.getD m 0 + 1) * shares.getD n 0 then some n else some m) none

/-- The grant of a cycle (R471). -/
def Window.grant (w : Window) (shares : List Nat) (burst : Nat) : Grant :=
  match w.guarTurn burst with
  | some n => .part n false
  | none =>
    if 0 < w.urgent ∧ 0 < w.quota then .urgent
    else match w.bestTurn shares with
      | some n => .part n true
      | none => if 0 < w.back then .back else .none

/-- One cycle: the grant is made, and every partition whose requests wait while it goes elsewhere counts (R483). -/
def Window.cycle (shares : List Nat) (burst : Nat) (w : Window) : Window :=
  let g := w.grant shares burst
  let mine (n : Nat) : Bool := match g with
    | .part m _ => decide (m = n)
    | _ => false
  let waits := w.wait.mapIdx (fun n k => if decide (0 < w.demand.getD n 0) && !mine n && decide (g ≠ .none) then k + 1 else k)
  let w1 := { w with wait := waits }
  match g with
  | .part n b =>
    let w2 := { w1 with demand := modNth (· - 1) n w1.demand }
    if b then { w2 with best := modNth (· + 1) n w2.best, length := 0 }
    else { w2 with credit := modNth (· - 1) n w2.credit, guar := modNth (· + 1) n w2.guar,
                   turn := n, length := if w.turn = n then w.length + 1 else 1 }
  | .urgent => { w1 with length := 0, urgent := w1.urgent - 1, quota := w1.quota - 1, urgentG := w1.urgentG + 1 }
  | .back => { w1 with length := 0, back := w1.back - 1, backG := w1.backG + 1 }
  | .none => { w1 with length := 0, idle := w1.idle + 1 }

/-- The cycles of a window. -/
def runWindow (shares : List Nat) (burst : Nat) : Nat → Window → Window
  | 0, w => w
  | k + 1, w => runWindow shares burst k (w.cycle shares burst)

/-- ARB_WINDOW_END (R470 to R476, R483): the requests of the window, taken as waiting from its start (log 56), are granted; the
counters count; saturation is reported; the next window takes the settings written since. -/
def execArbWindowEnd (a : Fin 14) (load : ArbLoad) : State → Out :=
  lift (fun s =>
    let x := s.arbiter a
    let now := (List.finRange 16).map (fun n => s.creditNow a n)
    let zeros16 := List.replicate 16 0
    let shares := (List.finRange 16).map (fun n => s.share n)
    let urgent := x.urgent.length + load.urgent
    let w := runWindow shares x.burst x.window
      { demand := (List.range 16).map (fun n => load.demand.getD n 0), credit := if x.credits.isEmpty then now else x.credits,
        guar := zeros16, best := zeros16, wait := zeros16, urgent := urgent, quota := x.quota, urgentG := 0,
        back := load.background + x.refreshes.length, backG := 0, turn := x.turn, length := x.length, idle := 0 }
    let sum (l : List Nat) : Nat := l.sum
    let s1 := ((((s.bump .arbGrants 0 a.val (sum w.guar + sum w.best + w.urgentG + w.backG)).bump .arbUrgent 0 a.val w.urgentG).bump
      .arbBest 0 a.val (sum w.best)).bump .arbBack 0 a.val w.backG).bump .arbIdle 0 a.val w.idle
    let s2 := (List.range 16).foldl (fun t n => t.bump .arbPgrants 0 (a.val * 16 + n) (w.guar.getD n 0 + w.best.getD n 0)) s1
    let sat := decide (0 < w.urgent) && decide (w.quota = 0)
    let report := sat && (match x.lastSat with
      | none => true
      | some t => decide (10000000 ≤ (s.now - t).toNat))
    let inter := (List.finRange 16).foldl (fun l n =>
      if s.observed n && decide (0 < w.wait.getD n.val 0) then Assoc.put n (Assoc.getD n 0 l + w.wait.getD n.val 0) l else l) x.interference
    let s3 := s2.setArb a { x with
      window := s.regN .arbWindow, quota := s.regN .arbUrgentQuota, burst := s.regN .arbBurst, credits := now,
      urgent := x.urgent.drop w.urgentG, refreshes := x.refreshes.drop w.backG, interference := inter,
      turn := w.turn, length := w.length,
      lastSat := if report then some s.now else x.lastSat }
    let s4 := if sat then s3.bump .arbUrgentSat 0 a.val 1 else s3
    if report then s4.mgmtReport .arbCode 0x0A06 (natBytes 1 a.val ++ natBytes 4 w.urgent) else s4)

/-! ## Deadlines (R475) -/

/-- AGENT_DEADLINE (R475): the agent's oldest request becomes URGENT. -/
def execAgentDeadline (a : Fin 14) (agent : Agent) : State → Out :=
  lift (fun s =>
    let x := s.arbiter a
    if agent = .refresh then
      if x.refreshes.isEmpty then s else s.setArb a { x with urgent := x.urgent ++ [agent], refreshes := x.refreshes.tail }
    else s.setArb a { x with urgent := x.urgent ++ [agent] })

/-- GDDR7_REFRESH (R475): a refresh request is presented to the arbiter of the memory-port die. -/
def execGddr7Refresh (md : Fin 4) (device : Fin 12) : State → Out :=
  lift (fun s =>
    let a : Fin 14 := Fin.ofNat 14 md.val
    s.setArb a { s.arbiter a with refreshes := (s.arbiter a).refreshes ++ [device] })

/-! ## Pre-emption (R479, R482) -/

/-- Whether a pre-emption request acts on a domain (R479): this module must have a segment left to vote on, and take part. -/
def State.preemptible (s : State) (n : Part) : Bool :=
  let d := s.dom n
  s.partValid n && s.bestEffort n && decide (d.state = .running) && !d.committed && !d.preempted && !s.silent n
    && (d.stopped || decide (d.voted < s.stepSegs n))

/-- A pre-emption request (R479): the domain stops and the vote on the lowest segment not yet voted is DIRTY with 0x0A04. A
second request finds that done (log 56). -/
def State.preempt (s : State) (n : Part) : State :=
  if !s.preemptible n || (s.dom n).stopped then s
  else ((s.stopCores n).updDom n (fun d => { d with stopped := true })).castVote n 0x0A04

/-! ## Partition commands (R485) -/

/-- The partition that a 4-byte body names. -/
def namedPart (f : Frame) : Option Part :=
  let k := fieldNat f.body 0 4
  if h : k < 16 then some ⟨k, h⟩ else none

/-- PART_QUERY (R485). -/
def execPartQuery (f : Frame) : State → Out :=
  lift (fun s => s.startCmd 0x00C0 f .any (fun t o =>
    let other := match o with
      | .part m => decide (namedPart f ≠ some m)
      | _ => false
    if f.body.length ≠ 4 then t.complete 0x00C0 f 0x0901
    else if other then t.complete 0x00C0 f 0x0907
    else match namedPart f with
      | none => t.complete 0x00C0 f 0x0A03
      | some n =>
        if !t.partValid n then t.complete 0x00C0 f 0x0A03
        else t.complete 0x00C0 f 0 (wordBytes (t.partCfg n) ++ wordBytes (t.viewPartStatus n) ++ wordBytes (t.viewCredit n))))

/-- PREEMPT (R485). -/
def execPreempt (f : Frame) : State → Out :=
  lift (fun s => s.mgmtCmd 0x00C1 f (fun t =>
    if f.body.length ≠ 4 then t.complete 0x00C1 f 0x0901
    else match namedPart f with
      | none => t.complete 0x00C1 f 0x0A03
      | some n =>
        if !t.partValid n then t.complete 0x00C1 f 0x0A03
        else if !t.preemptible n then t.complete 0x00C1 f 0x0903
        else (t.preempt n).complete 0x00C1 f 0))

end Sys2Proof.Machine
end

