-- ==== Sys2Proof/Machine/IntCmds.lean ====
section
/-! DEFINITION. The integrity commands of the host (R512, R514). -/

namespace Sys2Proof.Machine

/-- INT_SNAPSHOT_READ (R512, R514). -/
def execIntSnapshotRead (f : Frame) : State → Out :=
  lift (fun s => s.mgmtCmd 0x00B0 f (fun t =>
    let i := fieldNat f.body 0 4
    if f.body.length ≠ 4 ∨ 63 < i then t.complete 0x00B0 f 0x0901
    else
      match Assoc.find i t.integ.snapshots with
      | none => t.complete 0x00B0 f 0x0903
      | some bs => t.complete 0x00B0 f 0 bs))

/-- INT_SNAPSHOT_CLEAR (R514): the sequence goes on. -/
def execIntSnapshotClear (f : Frame) : State → Out :=
  lift (fun s => s.mgmtCmd 0x00B1 f (fun t =>
    if !f.body.isEmpty then t.complete 0x00B1 f 0x0901
    else
      (State.flashWrite { t with integ := { t.integ with snapshots := [] } }).complete 0x00B1 f 0))

/-- The answer of DER_QUERY: site states, then the slot map (R514). -/
def State.derMap (s : State) (d : Fin 8) : List Byte :=
  (dieSites d).flatMap (fun i => wordBytes (s.viewSite i))
    ++ (List.finRange 144).flatMap (fun k => natBytes 2 (((s.siteOf ⟨d, k⟩).map (fun i => i.site.val)).getD 0xFFFF))

/-- DER_QUERY (R514). -/
def execDerQuery (f : Frame) : State → Out :=
  lift (fun s => s.startCmd 0x00B2 f .any (fun t _ =>
    let d := fieldNat f.body 0 4
    if h : f.body.length = 4 ∧ d < 8 then t.complete 0x00B2 f 0 (t.derMap ⟨d, h.2⟩)
    else t.complete 0x00B2 f 0x0901))

/-- The site that a body of a die and a site names. -/
def bodySite (b : List Byte) : Option SiteId :=
  let d := fieldNat b 0 4
  let k := fieldNat b 4 4
  if h : d < 8 ∧ k < 160 then (if b.length = 8 then some ⟨⟨d, h.1⟩, ⟨k, h.2⟩⟩ else none) else none

/-- DER_QUARANTINE (R500, R514). -/
def execDerQuarantine (f : Frame) : State → Out :=
  lift (fun s => s.mgmtCmd 0x00B3 f (fun t =>
    match bodySite f.body with
    | none => t.complete 0x00B3 f 0x0901
    | some i =>
      let x := t.site i
      if x.state ≠ .inService ∧ x.state ≠ .watch ∧ x.state ≠ .spare then t.complete 0x00B3 f 0x0903
      else if x.slot.isSome ∧ (t.spareFor i.die).isNone then t.complete 0x00B3 f 0x0903
      else t.quarantineLater i (some f)))

/-- DER_SCAN (R506, R514): a die that scans a site scans this one next. -/
def execDerScan (f : Frame) : State → Out :=
  lift (fun s => s.mgmtCmd 0x00B4 f (fun t =>
    match bodySite f.body with
    | none => t.complete 0x00B4 f 0x0901
    | some i =>
      let x := t.site i
      if x.state ≠ .spare ∨ t.replaying i ∨ x.scanCmd.isSome then t.complete 0x00B4 f 0x0903
      else
        t.setSite i { x with state := if t.scanning i.die then .spare else .scanning, due := true, scanCmd := some f }))

end Sys2Proof.Machine
end

