-- ==== Sys2Proof/Machine/Reset.lean ====
section
/-! DEFINITION. Cold and warm resets, what they keep, and the ways into and out of STANDBY (R518 to R520, R532, R587, R588,
R591). -/

namespace Sys2Proof.Machine

/-! ## What a reset keeps -/

/-- Registers with counts that flash keeps (R515, R516). -/
def Reg.inFlash : Reg → Bool
  | .derQuarantines | .derRetirements => true
  | _ => false

/-- Registers that a warm reset keeps (R588). -/
def Reg.keptWarm (r : Reg) : Bool :=
  match r.info.block with
  | .sec | .der | .int | .boot => true
  | .pwr | .fwl | .hp => decide (r.info.acc = .rw) || decide (r.info.acc = .rwProt)
  | .part => decide (r = .partCfg)
  | .mem =>
    match r with
    | .memCtrl | .memIlvSize | .memRegA | .memRegB | .memSpareBase | .memSpareFrames | .memJournalBase => true
    | _ => false
  | .cxl => decide (r = .cxlCtrl)
  | _ => false

/-- Registers of the root die's blocks, which a loss of the main rails does not reach (R519). -/
def Reg.onRoot (r : Reg) : Bool :=
  match r.info.block with
  | .pwr | .fwl | .sec | .boot | .der | .int => true
  | _ => false

/-- The registers of a state that a test keeps. -/
def State.keepRegs (s : State) (f : Reg → Bool) : List (RegKey × Word) := s.regs.filter (fun p => f p.1.reg)

/-- The module with everything emptied that a reset empties: only the queue of commands, the messages sent, the index of free
values, and the state of flash, power and pins stay (R588). -/
def State.emptied (s : State) : State :=
  { State.reset with
    pending := s.pending, tx := s.tx, freeCtr := s.freeCtr, integ := s.integ, pw := s.pw, trust := s.trust, boot := s.boot }

/-- Contents of memory from an address on become unspecified: of die stores at a warm reset, of every memory where the main rails
go off (log 58). -/
def State.loseStores (s : State) (from_ : Nat) : State :=
  { s with mem := s.mem.blur from_ 0x3000000000000 (.loose s.freeCtr), freeCtr := s.freeCtr + 1 }

/-- A site after a cold reset (R491): one in QUARANTINED, SCANNING or WATCH starts as QUARANTINED. -/
def Site.afterCold (x : Site) : Site :=
  match x.state with
  | .quarantined | .scanning | .watch =>
    { x with state := .quarantined, home := if x.standsFor.isSome then none else x.slot.or x.home, standsFor := none,
             watchEnd := 0, scanCmd := none, rotated := false, due := false }
  | _ => { x with watchEnd := 0, scanCmd := none, rotated := false, due := false }

/-- Integrity after a cold reset: slot map, sites, snapshots and counts come from flash (R489, R491, R512). -/
def Integrity.afterCold (x : Integrity) (opTime : Nat) : Integrity :=
  { Integrity.init with
    sites := x.sites.map (fun p => (p.1, p.2.afterCold)), clock := opTime, snapshots := x.snapshots, snapSeq := x.snapSeq }

/-- Trust after a cold reset (R559, R572, R573, R591): the keys are erased, FULL returns to LOCKED, records loaded since apply,
and a pending change is discarded. -/
def Trust.afterCold (t : Trust) : Trust :=
  { t with
    slots := [], debug := if t.debugStored = 2 then 0 else t.debugStored, fullSeen := false, debugAuth := false, change := none,
    loadSeq := 0, aliasLeft := 32768, aliasMade := false, aliasLms := false, bootCount := t.bootCount + 1, repairLoaded := t.repair,
    records := t.nextRecords.foldl (fun l p => Assoc.put p.1 p.2 l) t.records, nextRecords := [] }

/-- Whether a slot holds the TRIAL image, which the next boot takes (R582). -/
def Boot.trial (b : Boot) : Option Bool :=
  if b.slotA.state = .trial then some false else if b.slotB.state = .trial then some true else none

/-- Chooses the image of a boot (R582). -/
def Boot.choose (b : Boot) : Boot :=
  { b with running := b.trial.getD b.current, trialRunning := b.trial.isSome }

/-- Bring-up state after a cold reset. -/
def Boot.afterCold (b : Boot) (cause : Nat) : Boot :=
  Boot.choose { Boot.init with cause := cause, slotA := b.slotA, slotB := b.slotB, current := b.current }

/-- The power manager after a cold reset: the pins stay as they are, events in flash stay (R543, R588). -/
def Power.afterCold (p : Power) (st : PwrState) : Power :=
  { Power.init with
    state := st, pwrEn := p.pwrEn, resetN := p.resetN, straps := p.straps, alertHigh := p.alertHigh, stored := p.stored }

/-- STANDBY, where PWR_EN and MOD_RESET_N let it: MOD_ID is latched and STAGGER entered (R518, R520), unless boot stage 1 has
failed (R555). -/
def State.leaveStandby (s : State) : State :=
  let p := s.pw
  if p.state = .standby ∧ p.pwrEn ∧ p.resetN ∧ s.boot.failed = none then
    { s with pw := { p with state := .stagger, slot := p.straps } }
  else s

/-- A site that serves a slot in QUARANTINED gives it to a spare (R499, R505). -/
def State.dropSlots (s : State) : State :=
  s.integ.sites.foldl (fun t p => if (t.site p.1).state = .quarantined then t.moveSlot p.1 else t) s

/-- A cold reset takes effect (R588): every register takes its reset value, and the module is in a power state. -/
def State.coldReset (s : State) (cause : Nat) (st : PwrState) : State :=
  let s1 : State := { s.emptied with
    regs := s.keepRegs Reg.inFlash
    integ := s.integ.afterCold s.opTime
    pw := s.pw.afterCold st
    trust := s.trust.afterCold
    boot := s.boot.afterCold cause
    ms := { MemSys.init with retired := s.ms.retired } }
  (s1.dropSlots.loseStores 0).leaveStandby

/-! ## The start of a reset (R532, R587, R591) -/

/-- The module stops issue in every domain (R532). -/
def State.stopIssue (s : State) : State := (List.finRange 16).foldl State.stopCores s

/-- Ramp-down begins (R532). -/
def State.rampDown (s : State) (d : DownTo) : State :=
  let s1 := s.stopIssue
  { s1 with pw := { s1.pw with down := some d }, trust := { s1.trust with change := none } }

/-- Registers of the power manager that count, or report the estimate, after a warm reset (R588, log 58). -/
def Power.afterWarm (p : Power) : Power :=
  { p with
    state := .ramp, down := none, gain := 4096, estFault := false, badPeriods := 0, goodPeriods := 0, missing := 0,
    excessUj := 0, emergUs := 0, ballastUj := 0, levels := Power.init.levels, vfPoint := p.vfPoint, lastSlope := none,
    unreach := false, preempted := false }

/-- A warm reset takes effect (R587, R588): the module enters RAMP at stage 1. -/
def State.warmReset (s : State) (cause : Nat) : State :=
  let s1 : State := { s.emptied with
    regs := s.keepRegs Reg.keptWarm
    mem := s.mem
    ms := { MemSys.init with poisoned := s.ms.poisoned, retired := s.ms.retired }
    integ := { s.integ with
      queue := [], suspects := [], atCommit := s.integ.atCommit.map (fun p => (p.1, none)), clock := s.opTime, unparked := [],
      sites := s.integ.sites.map (fun p => (p.1, { p.2 with scanCmd := none })) }
    pw := s.pw.afterWarm
    trust := { s.trust with change := none }
    fab := { Fabric.init with map := s.fab.map, index := s.fab.index, mapBytes := s.fab.mapBytes }
    boot := Boot.choose { s.boot with
      stage := 1, failed := none, ready := false, cause := cause, warm := true, readyEvent := false, waitingReset := none,
      partReset := [] } }
  (s1.setReg .pwrEffectiveCap 0 0 (BitVec.ofNat 64 s1.effectiveCap.1)).loseStores dieBase

/-- Whether a reset is in progress (R591). -/
def State.resetting (s : State) : Bool := s.pw.down.isSome || s.boot.waitingReset.isSome

/-- A reset with no flash write in the way begins. A warm reset, and a cold one that PWR_EN asks for, first lower the draw of a
module whose dies run (R532, R587, log 58). -/
def State.beginReset (s : State) (cold : Bool) (cause : Nat) : State :=
  let s1 := { s with boot := { s.boot with waitingReset := none } }
  let live := decide (s.pw.state = .on) || decide (s.pw.state = .ramp)
  if cold then (if cause = 1 ∧ live then s1.rampDown .standby else s1.coldReset cause .standby)
  else if s.pw.state = .on then State.rampDown { s1 with boot := { s1.boot with cause := cause } } .warm
  else s1.warmReset cause

/-- A reset of any kind: it waits for the writes of records and snapshots that Cobalt has begun in flash (R591). A cold reset
takes the place of a waiting warm one. -/
def State.startReset (s : State) (cold : Bool) (cause : Nat) : State :=
  if s.boot.flashWrites = 0 then s.beginReset cold cause
  else
    match s.boot.waitingReset with
    | some (true, _) => s
    | _ => { s with boot := { s.boot with waitingReset := some (cold, cause) } }

/-- The ramp-down has ended (R532). -/
def State.endDown (s : State) : State :=
  match s.pw.down with
  | none => s
  | some .standby => s.coldReset 1 .standby
  | some .warm => s.warmReset s.boot.cause

/-! ## Loss of the main rails (R519, R543, R598) -/

/-- Every die but RD loses its power: the module is TRIPPED, and an event is kept in flash until it is next ON. -/
def State.trip (s : State) (code : Code) : State :=
  if s.pw.state ≠ .on ∧ s.pw.state ≠ .ramp then s
  else
    let s1 : State := { s.emptied with
      regs := s.keepRegs Reg.onRoot
      tb := s.tb
      ms := { MemSys.init with retired := s.ms.retired }
      integ := { s.integ with queue := [], suspects := [], atCommit := s.integ.atCommit.map (fun p => (p.1, none)), unparked := [] }
      pw := { s.pw with state := .tripped, down := none, stored := s.pw.stored ++ [code], levels := Power.init.levels }
      trust := { s.trust with change := none }
      boot := { s.boot with ready := false, readyEvent := false, partReset := [], flashWrites := s.boot.flashWrites + 1 } }
    (s1.loseStores 0)

end Sys2Proof.Machine
end

