-- ==== Sys2Proof/Machine/Power.lean ====
section
/-! DEFINITION. The power manager (R518 to R549, R598): caps and heartbeats, the estimate and the levels, calibration, thermal
control, supply failures and the pins PWR_EN and MOD_RESET_N. -/

namespace Sys2Proof.Machine

/-! ## Pre-emption by the power manager (R529) -/

/-- Requests pre-emption of every RUNNING BEST_EFFORT domain; each request counts, also one that R479 refuses. -/
def State.preemptBest (s : State) : State :=
  (List.finRange 16).foldl (fun t n =>
    if t.bestEffort n && t.partValid n && decide ((t.dom n).state = .running) then (t.bump .pwrPreempts 0 0 1).preempt n else t) s

/-- Evaluates the effective cap again; an entry into EMERGENCY requests pre-emption (R529, R534, R535). -/
def State.newCaps (s : State) : State :=
  let t := s.recap
  if t.pw.emergency && !s.pw.emergency then t.preemptBest else t

/-! ## Caps and heartbeats (R534, R538, R546) -/

/-- A heartbeat: it arms the monitor if it is the first since a cold reset, and clears SAFE_CAP (R538). -/
def State.heartbeat (s : State) : State :=
  let t := s.setPw { s.pw with armed := s.pw.armed || !s.pw.beaten, beaten := true, safeCap := false }
  if s.pw.safeCap then t.newCaps else t

/-- A discarded write of a PWR register (R547, R617). -/
def State.pwrRefused (s : State) : State := s.setReg .pwrCode 0 0 0x0C0E

/-- A write of PWR.CAP (R534, R538): over I3C it is a heartbeat too, unless it is discarded. -/
def State.writeCap (s : State) (i3c : Bool) (value : Word) : State :=
  if value.toNat < 1200 ∨ 3600 < value.toNat then s.pwrRefused
  else
    let t := (s.storeCap value.toNat).newCaps
    if i3c then t.heartbeat else t

/-- PWR_CAP_WRITE (R534, R538). -/
def execPwrCapWrite (i3c : Bool) (value : Word) : State → Out := lift (fun s => s.writeCap i3c value)

/-- PWR_HEARTBEAT_WRITE (R538). -/
def execPwrHeartbeatWrite (_value : Word) : State → Out := lift (fun s => s.heartbeat)

/-- A write of PWR.HB_CTRL: the timeout, and ARMED; disarming leaves SAFE_CAP to the next heartbeat (R538, R547, log 57). -/
def State.writeHbCtrl (s : State) (value : Word) : State :=
  let ms := bits value 31 0
  if ms < 1000 ∨ 600000 < ms then s.pwrRefused
  else
    let t := s.setReg .pwrHbCtrl 0 0 (BitVec.ofNat 64 ms)
    t.setPw { t.pw with armed := value.getLsbD 32 }

/-- PWR_HB_CTRL_WRITE (R538). -/
def execPwrHbCtrlWrite (value : Word) : State → Out := lift (fun s => s.writeHbCtrl value)

/-- HEARTBEAT_TIMEOUT (R538, R545): SAFE_CAP holds while the monitor is armed. -/
def execHeartbeatTimeout : State → Out :=
  lift (fun s =>
    if !s.pw.armed || s.pw.safeCap then s
    else ((s.setPw { s.pw with safeCap := true }).pwrReport 0x0C05).newCaps)

/-- PWR_CAP (R546). -/
def execPwrCap (f : Frame) : State → Out :=
  lift (fun s => s.mgmtCmd 0x00A0 f (fun t =>
    let w := fieldNat f.body 0 4
    if f.body.length ≠ 8 ∨ fieldNat f.body 4 4 ≠ 0 then t.complete 0x00A0 f 0x0901
    else if w < 1200 ∨ 3600 < w then t.complete 0x00A0 f 0x0C01
    else
      let u := (t.writeCap false (BitVec.ofNat 64 w)).heartbeat
      u.complete 0x00A0 f 0 (natBytes 4 (u.regN .pwrCap))))

/-- PWR_HEARTBEAT (R546). -/
def execPwrHeartbeat (f : Frame) : State → Out :=
  lift (fun s => s.mgmtCmd 0x00A1 f (fun t =>
    if f.body.isEmpty then t.heartbeat.complete 0x00A1 f 0 else t.complete 0x00A1 f 0x0901))

/-- PWR_QUERY (R546). -/
def execPwrQuery (f : Frame) : State → Out :=
  lift (fun s => s.startCmd 0x00A2 f .any (fun t _ =>
    if !f.body.isEmpty then t.complete 0x00A2 f 0x0901
    else t.complete 0x00A2 f 0 (([.pwrStatus, .pwrCap, .pwrEffectiveCap, .pwrEstimate, .pwrMeasured, .pwrCoolant] : List Reg).flatMap
      (fun r => wordBytes (t.readKey (rk r))))))

/-! ## Levels (R478, R526 to R528, R541, R543) -/

/-- The bound on the three levels of a die: its thermal ceiling, and 1 at 105 degrees (R540, R543). -/
def Power.bound (p : Power) (d : Nat) : Nat := if 1680 ≤ p.tj.getD d 0 then 1 else p.ceilings.getD d 16

/-- Whether a GUARANTEED partition has cores on a die. -/
def State.guaranteedOn (s : State) (d : Nat) : Bool :=
  (List.finRange 16).any (fun n => s.partValid n && !s.bestEffort n && (s.partCfg n).getLsbD (16 + d))

/-- The levels within their bounds; BEST_EFFORT cores issue at level 1 while any GUARANTEED core is held below 16 (R478). -/
def State.fitLevels (s : State) (l : List DieLevels) : List DieLevels :=
  let l1 := l.mapIdx (fun d x =>
    let b := s.pw.bound d
    (⟨min x.g b, min x.b b, min x.ballast b⟩ : DieLevels))
  let held := (List.range 8).any (fun d => s.guaranteedOn d && decide ((l1.getD d ⟨16, 16, 0⟩).g < 16))
  if held then l1.map (fun x => { x with b := min x.b 1 }) else l1

/-- Applies the bounds to the levels in effect. -/
def State.clampLevels (s : State) : State := s.setPw { s.pw with levels := s.fitLevels s.pw.levels }

/-- The place of the first element with the largest value. -/
def maxPlace (l : List Nat) : Nat := l.idxOf (l.foldl max 0)

/-- The place of the first element with the smallest value. -/
def minPlace (l : List Nat) : Nat := l.idxOf (l.foldl min 1000)

/-- One level less of a kind, on the die whose level is highest. -/
def lowerOne (get : DieLevels → Nat) (put : DieLevels → Nat → DieLevels) (l : List DieLevels) : List DieLevels :=
  l.modify (maxPlace (l.map get)) (fun x => put x (get x - 1))

/-- One level more of a kind, on the die whose level is lowest. -/
def raiseOne (get : DieLevels → Nat) (put : DieLevels → Nat → DieLevels) (l : List DieLevels) : List DieLevels :=
  l.modify (minPlace (l.map get)) (fun x => put x (get x + 1))

/-- One step down in the order of R527: ballast, BEST_EFFORT cores to 1, GUARANTEED cores to 11, and below in EMERGENCY only. -/
def stepDown (emergency : Bool) (l : List DieLevels) : List DieLevels :=
  if l.any (fun x => decide (0 < x.ballast)) then lowerOne (·.ballast) (fun x k => { x with ballast := k }) l
  else if l.any (fun x => decide (1 < x.b)) then lowerOne (·.b) (fun x k => { x with b := k }) l
  else if l.any (fun x => decide ((if emergency then 1 else 11) < x.g)) then lowerOne (·.g) (fun x k => { x with g := k }) l
  else l

/-- One step up in the opposite order (R527). -/
def stepUp (l : List DieLevels) : List DieLevels :=
  if l.any (fun x => decide (x.g < 16)) then raiseOne (·.g) (fun x k => { x with g := k }) l
  else if l.any (fun x => decide (x.b < 16)) then raiseOne (·.b) (fun x k => { x with b := k }) l
  else l

/-- One step more of ballast (R532). -/
def stepBallast (l : List DieLevels) : List DieLevels := raiseOne (·.ballast) (fun x k => { x with ballast := min 16 k }) l

/-- Repeats a step. -/
def repeatStep (f : List DieLevels → List DieLevels) : Nat → List DieLevels → List DieLevels
  | 0, l => l
  | k + 1, l => repeatStep f k (f l)

/-- The limit on E now: the effective cap, or in CAP_TRACKING the line of R536; a shelf loss ignores the line down to the shelf
cap (R537, R545). -/
def State.limit (s : State) : Nat :=
  let cap := s.regN .pwrEffectiveCap
  if !s.pw.tracking then cap
  else
    let line := s.pw.trackE0 - s.regN .pwrSlope * ((s.now - s.pw.trackStart).toNat / 1000) / 1000
    max cap (if s.pw.shelfLoss then min line (s.regN .pwrShelfCap) else line)

/-- The controller's microsecond (R526, R527, R532): down while E is above the limit, else up; ballast while E is below K, and
away above it. How many levels it moves is a free value (log 57). -/
def State.control (s : State) : State :=
  if s.pw.state ≠ .on then s
  else
    let r := s.fresh
    let n := r.1.toNat % 137
    let e := s.pw.estimate
    let l := s.pw.levels
    let l1 :=
      if s.limit < e then repeatStep (stepDown s.pw.emergency) n l
      else
        let up := repeatStep stepUp n l
        if e < s.keepLevel then repeatStep stepBallast n up
        else repeatStep (fun x => if x.any (fun y => decide (0 < y.ballast)) then stepDown false x else x) (n / 8) up
    let t := r.2.setPw { r.2.pw with levels := l1 }
    t.clampLevels

/-- Whether step 3 of R527 is exhausted. -/
def lowest (g : Nat) (l : List DieLevels) : Bool := l.all (fun x => decide (x.ballast = 0 ∧ x.b ≤ 1 ∧ x.g ≤ g))

/-- Pre-emption after 50 us above a cap at or above the floor (R529), once for each excess. -/
def State.excessPreempt (s : State) (aboveUs : Nat) : State :=
  if s.pw.estimate ≤ s.regN .pwrEffectiveCap then s.setPw { s.pw with preempted := false }
  else if s.pw.preempted || s.pw.emergency || decide (aboveUs < 50) || !lowest 11 s.pw.levels then s
  else (s.setPw { s.pw with preempted := true }).preemptBest

/-- Event 0x0C0B: E above the effective cap with every core at level 1, once for each excess (R549). -/
def State.unreachable (s : State) : State :=
  if s.pw.estimate ≤ s.regN .pwrEffectiveCap then s.setPw { s.pw with unreach := false }
  else if s.pw.unreach || !lowest 1 s.pw.levels then s
  else (s.setPw { s.pw with unreach := true }).pwrReport 0x0C0B

/-- Ballast could not hold the slope in this microsecond: FWL.UNHELD, and event 0x0C0A at most once per 10 ms (R532, R548). -/
def State.slopeUnheld (s : State) : State :=
  let t := s.bump .fwlUnheld 0 0 1
  let late := match s.pw.lastSlope with
    | none => true
    | some w => decide (10000000 ≤ (s.now - w).toNat)
  if late then ((t.setPw { t.pw with lastSlope := some t.now }).setReg .fwlCode 0 0 0x0C0A).mgmtEvent 0x0C0A else t

/-- Energies and times of one microsecond at E watts (R547, R548, log 57). -/
def State.account (s : State) (e : Nat) : State :=
  let cap := s.regN .pwrEffectiveCap
  let r := s.fresh
  let ballast := if s.ballastOn then r.1.toNat % (e + 1) else 0
  let t := if s.ballastOn then r.2 else s
  let above := if s.pw.tracking then e - cap else 0
  (t.setPw { t.pw with
    estimate := e, energyUj := t.pw.energyUj + e, excessUj := t.pw.excessUj + above, ballastUj := t.pw.ballastUj + ballast,
    emergUs := t.pw.emergUs + bitN t.pw.emergency }).bump .pwrExcess 0 0 above

/-- The segments 0 that a thermal hold kept start once it has ended and E has reached K (R542). -/
def State.endHeld (s : State) : State :=
  if s.pw.hold || decide (s.pw.estimate < s.keepLevel) then s else (List.finRange 16).foldl State.releaseStart s

/-- Whether a site issues ballast: it is in service on a die whose ballast level is above 0 (R152, R532). -/
def State.ballasts (s : State) (i : SiteId) : Bool :=
  decide ((s.site i).state = .inService ∨ (s.site i).state = .watch)
    && decide (0 < (s.pw.levels.getD i.die.val ⟨16, 16, 0⟩).ballast)

/-- The ballast cycles of a microsecond, and the residue checks that failed on them (R153). -/
def State.ballastCycles (s : State) (e : EstimateInput) : State :=
  let t := e.ballast.foldl (fun t p => t.when (s.ballasts p.1) (fun u => u.bump .mxBallastCycles (siteIx p.1) 0 p.2)) s
  e.errs.foldl (fun t x => t.when (t.ballasts x.site) (fun u => u.ballastMismatch x)) t

/-- POWER_ESTIMATE (R153, R523, R526 to R529, R532, R536). -/
def execPowerEstimate (e : EstimateInput) : State → Out :=
  lift (fun s =>
    let s1 := (s.ballastCycles e).account (e.sum * s.pw.gain / 4096)
    let s2 := if s1.pw.tracking ∧ s1.pw.estimate ≤ s1.regN .pwrEffectiveCap then s1.endTracking else s1
    let s3 := if e.unheld then s2.slopeUnheld else s2
    ((s3.control.excessPreempt e.aboveUs).unreachable).endHeld)

/-! ## Calibration (R524) -/

/-- EST_FAULT is set, with G at 1.25 (R524). -/
def State.estFails (s : State) : State :=
  let t := s.setPw { s.pw with estFault := true, gain := 5120, goodPeriods := 0 }
  if s.pw.estFault then t else t.pwrReport 0x0C09

/-- G times the ratio of two powers, moved by at most 5 % and kept from 0.80 to 1.25; which way it rounds is a free value
(log 57). -/
def State.adjustGain (s : State) (measured mean : Nat) : State :=
  if mean = 0 then s
  else
    let r := s.fresh
    let g := s.pw.gain
    let exact := g * measured
    let q := exact / mean + (if exact % mean = 0 then 0 else r.1.toNat % 2)
    let near := max (g * 95 / 100) (min (g * 105 / 100) q)
    let t := r.2
    t.setPw { t.pw with gain := max 3277 (min 5120 near) }

/-- CALIBRATION (R524): the mean measured power of 10 ms, or none, the mean of E, and the input voltage in mV. -/
def execCalibration (measured : Option Nat) (meanE : Nat) (vin : Nat) : State → Out :=
  lift (fun s =>
    match measured with
    | none =>
      let t := s.setPw { s.pw with missing := s.pw.missing + 1, goodPeriods := 0 }
      if 3 ≤ t.pw.missing then t.estFails else t
    | some m =>
      let s1 := s.setReg .pwrMeasured 0 0 (fields [(m % 2 ^ 32, 0), (vin % 2 ^ 16, 32)])
      let inside := decide (80 * meanE ≤ 100 * m) && decide (100 * m ≤ 125 * meanE)
      let s2 := s1.adjustGain m meanE
      if inside then
        let good := s2.pw.goodPeriods + 1
        s2.setPw { s2.pw with missing := 0, badPeriods := 0, goodPeriods := good, estFault := s2.pw.estFault && decide (good < 10) }
      else
        let s3 := s2.setPw { s2.pw with missing := 0, badPeriods := s2.pw.badPeriods + 1, goodPeriods := 0 }
        if 3 ≤ s3.pw.badPeriods then s3.estFails else s3)

/-! ## Thermal control (R540 to R544) -/

/-- A temperature of PWR.THERM_CTRL in 1/16 degree: THROTTLE at 0, CRITICAL at 8, RELEASE at 16. -/
def State.thermLimit (s : State) (lo : Nat) : Int := 16 * (bits (s.reg .pwrThermCtrl) (lo + 7) lo : Nat)

/-- A die's ceiling and its count of cool periods after a sample (R540). -/
def ceilingStep (throttle : Int) (tj : Int) (c run : Nat) : Nat × Nat :=
  if throttle ≤ tj then (max 1 (c - 1), 0)
  else if tj < throttle - 32 then (if 10 ≤ run + 1 then (min 16 (c + 1), 0) else (c, run + 1))
  else (c, 0)

/-- The ceilings after a sample, with event 0x0C06 (R540). -/
def State.throttle (s : State) (tj : List Int) : State :=
  let l := (List.range 20).map (fun d =>
    ceilingStep (s.thermLimit 0) (tj.getD d 0) (s.pw.ceilings.getD d 16) (s.pw.coolRuns.getD d 0))
  let on := l.any (fun x => decide (x.1 < 16))
  let t := s.setPw { s.pw with tj := tj, ceilings := l.map (·.1), coolRuns := l.map (·.2), throttled := on }
  (if on = s.pw.throttled then t else t.pwrReport 0x0C06).clampLevels

/-- Thermal hold begins, with event 0x0C07 and pre-emption, or ends (R529, R542). -/
def State.thermalHold (s : State) (tj : List Int) : State :=
  if !s.pw.hold && tj.any (fun t => decide (s.thermLimit 8 ≤ t)) then
    ((s.setPw { s.pw with hold := true }).pwrReport 0x0C07).preemptBest
  else if s.pw.hold && tj.all (fun t => decide (t ≤ s.thermLimit 16)) then (s.setPw { s.pw with hold := false }).endHeld
  else s

/-- The coolant sensors, with event 0x0C0C when the inlet passes 40 degrees (R541). -/
def State.coolant (s : State) (inlet outlet : Int) : State :=
  let hot := decide (640 < inlet)
  let t := (s.setReg .pwrCoolant 0 0 (fields [(wrap 16 inlet, 0), (wrap 16 outlet, 16)])).setPw { s.pw with coolantHigh := hot }
  if hot && !s.pw.coolantHigh then t.pwrReport 0x0C0C else t

/-- THERMAL_SAMPLE (R540 to R543). -/
def execThermalSample (x : ThermalInput) : State → Out :=
  lift (fun s =>
    if s.pw.state = .off then s
    else
      let s1 := ((s.coolant x.inlet x.outlet).throttle x.tj).thermalHold x.tj
      if x.tj.any (fun t => decide (1760 ≤ t)) then s1.trip 0x0C08 else s1)

/-- THERM_ALERT_N as the module drives it: low (false) under R544. -/
def State.thermAlertN (s : State) : Bool :=
  !(s.pw.ceilings.any (fun c => decide (c < 16)) || s.pw.hold || decide (s.pw.state = .tripped))

/-- STBY_OK as the module drives it (R519). -/
def State.stbyOk (s : State) : Bool := decide (s.pw.state ≠ .off)

/-- An output pin: driven while STBY_OK is high, else high-impedance (R602). -/
def State.pin (s : State) (level : Bool) : Option Bool := if s.stbyOk then some level else none

/-- THERM_ALERT_N as the pin shows it (R544, R602). -/
def State.thermAlertPin (s : State) : Option Bool := s.pin s.thermAlertN

/-- PERST_N of a CXL connector: low from reset until the port's training starts (R611). -/
def State.perstN (s : State) (p : Fin 4) : Option Bool := s.pin (s.boot.ready && decide ((s.cxlPort p).state ≠ .down))

/-! ## Parking (R530) -/

/-- SITE_UNPARK_DONE (R530): the site is parked, or has power, as its part asks. -/
def execSiteUnparkDone (i : SiteId) : State → Out :=
  lift (fun s =>
    if s.parks i then { s with integ := { s.integ with unparked := s.integ.unparked.filter (fun k => decide (k ≠ i)) } }
    else s.power i)

/-! ## Supply failures (R518, R537, R539, R598) -/

/-- PWR_ALERT_N is low: SHELF_LOSS, no ballast, the shelf cap, pre-emption, event 0x0C04 (R529, R537). -/
def State.shelfDown (s : State) : State :=
  if s.pw.state = .off then s
  else if s.pw.shelfLoss then s.setPw { s.pw with alertHigh := false }
  else
    let t := s.setPw { s.pw with
      shelfLoss := true, alertHigh := false, levels := s.pw.levels.map (fun x => { x with ballast := 0 }) }
    ((t.pwrReport 0x0C04).recap).preemptBest

/-- SHELF_ALERT (R537). -/
def execShelfAlert : State → Out := lift (fun s => s.shelfDown)

/-- SHELF_ALERT_CLEAR (R537). -/
def execShelfAlertClear : State → Out :=
  lift (fun s =>
    if s.pw.shelfLoss then (s.setPw { s.pw with shelfLoss := false, alertHigh := true }).newCaps
    else s.setPw { s.pw with alertHigh := true })

/-- INPUT_LOW (R539): as PWR_ALERT_N low, with event 0x0C0D. -/
def execInputLow : State → Out :=
  lift (fun s => if s.pw.state = .off then s else (s.pwrReport 0x0C0D).shelfDown)

/-- INPUT_FAIL (R539, R587): every rail goes off, and the flash writes under way with them. -/
def execInputFail : State → Out := lift (fun s => s.coldReset 0 .off)

/-- INPUT_RISE (R518, R539): OFF is left for STANDBY, where boot stage 1 runs. -/
def execInputRise : State → Out :=
  lift (fun s => if s.pw.state = .off then (s.setPw { s.pw with state := .standby }).leaveStandby else s)

/-- INPUT_HIGH (R598). -/
def execInputHigh : State → Out := lift (fun s => s.trip 0x0C10)

/-! ## PWR_EN, MOD_RESET_N and STAGGER (R518, R520, R532, R587) -/

/-- PWR_EN_RISE (R518, R520), with the straps of MOD_ID as they read. -/
def execPwrEnRise (straps : BitVec 6) : State → Out :=
  lift (fun s => (s.setPw { s.pw with pwrEn := true, straps := straps }).leaveStandby)

/-- PWR_EN_FALL (R518, R532, R587). -/
def execPwrEnFall : State → Out :=
  lift (fun s =>
    let t := s.setPw { s.pw with pwrEn := false }
    match s.pw.state with
    | .off | .standby => t
    | .stagger | .ramp | .on | .tripped => if s.pw.down = some .standby then t else t.startReset true 1)

/-- STAGGER_END (R520): the module enters RAMP. -/
def execStaggerEnd : State → Out :=
  lift (fun s =>
    if s.pw.state ≠ .stagger then s
    else { s with pw := { s.pw with state := .ramp }, boot := { s.boot with stage := 1 } })

/-- RAMP_DOWN_DONE (R532, R591). -/
def execRampDownDone : State → Out :=
  lift (fun s =>
    match s.pw.down with
    | none => s
    | some d =>
      if s.boot.flashWrites = 0 then s.endDown
      else { s with boot := { s.boot with waitingReset := some (decide (d = .standby), if d = .standby then 1 else s.boot.cause) } })

/-- FLASH_RECORD_WRITTEN (R591). -/
def execFlashRecordWritten : State → Out :=
  lift (fun s =>
    let t := { s with boot := { s.boot with flashWrites := s.boot.flashWrites - 1 } }
    match t.boot.waitingReset with
    | some (cold, cause) =>
      if t.boot.flashWrites ≠ 0 then t
      else if t.pw.down.isSome then t.endDown
      else t.beginReset cold cause
    | none => t)

/-- MOD_RESET (R587). -/
def execModReset : State → Out :=
  lift (fun s =>
    let t := s.setPw { s.pw with resetN := false }
    if s.pw.state = .off then t else t.startReset true 2)

/-- MOD_RESET_N_RELEASE (R518). -/
def execModResetNRelease : State → Out := lift (fun s => (s.setPw { s.pw with resetN := true }).leaveStandby)

end Sys2Proof.Machine
end

