-- ==== Sys2Proof/Machine/Trust.lean ====
section
/-! DEFINITION. The trust commands of the host (R551 to R553, R559, R564 to R577). -/

namespace Sys2Proof.Machine

/-! ## The TAP (R572, R603) -/

/-- The IDCODE of the TAP: version, part number, manufacturer code and 1 (R603). -/
def tapIdcode : BitVec 32 := BitVec.ofNat 32 (1 + 0x2AD * 2 + 0x5384 * 2 ^ 12 + 0x1 * 2 ^ 28)

/-- Instructions of the TAP: the four of IEEE 1149.1 that R572 names, and every other. -/
inductive TapInstr | bypass | idcode | samplePreload | extest | other
  deriving DecidableEq, Repr

/-- Whether the TAP has an instruction at the debug level: every one at FULL only (R572, R603). -/
def State.tapHas (s : State) (i : TapInstr) : Bool := decide (i ≠ .other) || decide (s.trust.debug = 2)

/-- Whether the debug level opens the IEEE 1500 wrapper of a site: from DIAG on, of SPARE and QUARANTINED sites (R572). -/
def State.wrapperOpen (s : State) (i : SiteId) : Bool :=
  decide (1 ≤ s.trust.debug) && decide ((s.site i).state = .spare ∨ (s.site i).state = .quarantined)

/-! ## Keys and signatures -/

/-- The public key of a Kodraul key number (R550, log 60). -/
def kodraulKey (id : Nat) (lms : Bool) : List Byte := (List.range (if lms then 56 else 97)).map (Config.kodraulByte id lms)

/-- The number that names the ALIAS keys of this boot to `Config.signByte`. -/
def State.aliasKey (s : State) : Nat := 0x0200 + 256 * s.trust.bootCount

/-! ## SEC_ENROLL (R565) -/

/-- SEC_ENROLL. -/
def execSecEnroll (f : Frame) : State → Out :=
  lift (fun s => s.mgmtCmd 0x0090 f (fun t =>
    let op := sub f.body 0 97
    let cu := sub f.body 104 97
    if f.body.length ≠ 208 ∨ !zeros (sub f.body 97 7) ∨ !zeros (sub f.body 201 7) then t.complete 0x0090 f 0x0901
    else if t.trust.enrolled then t.complete 0x0090 f 0x0903
    else if op = cu ∨ !onCurve op ∨ !onCurve cu then (t.secCode 0x0D01).complete 0x0090 f 0x0D01
    else ((t.setTrust { t.trust with operator := op, custodian := cu }).flashWrite).complete 0x0090 f 0))

/-! ## SEC_CHANGE (R568 to R570) -/

/-- Approval tokens of 192 bytes. -/
def tokensOf (k : Nat) (bs : List Byte) : List (List Byte) := (List.range k).map (fun i => sub bs (192 * i) 192)

/-- Whether a token is malformed (R568). -/
def tokenBad (t : List Byte) : Bool :=
  decide (t.length ≠ 192) || decide (fieldNat t 0 4 ≠ 0x4B534154) || decide (fieldNat t 4 2 ≠ 1)
    || decide (fieldNat t 6 1 ≠ 1 ∧ fieldNat t 6 1 ≠ 2) || !zeros (sub t 72 24)

/-- Whether a token's signature verifies under its role's key (R568). -/
def State.tokenSigned (s : State) (t : List Byte) : Bool :=
  ecdsaVerify (if fieldNat t 6 1 = 1 then s.trust.operator else s.trust.custodian) (t.take 96) (t.drop 96)

/-- The first check of R569 that a change fails, in the order of its table. -/
def State.changeCheck (s : State) (body : List Byte) : Except Code (List ChangeItem) :=
  let k := fieldNat body 0 4
  let toks := tokensOf (min k 2) (body.drop 8)
  let change := body.drop (8 + 192 * k)
  if s.trust.change.isSome then .error 0x0903
  else if body.length < 8 ∨ fieldNat body 4 4 ≠ 0 ∨ k ≠ (if s.trust.enrolled then 2 else 0) ∨ toks.any tokenBad then .error 0x0D01
  else
    match parseChange change with
    | none => .error 0x0D01
    | some items =>
      let t := s.putItems items
      if toks.any (fun x => decide (fieldNat x 8 8 ≠ Config.serial.toNat) || decide (fieldNat x 16 8 ≠ s.trust.changeSeq + 1)) then
        .error 0x0D06
      else if s.trust.enrolled ∧ !((toks.map (fun x => fieldNat x 6 1)).contains 1 && (toks.map (fun x => fieldNat x 6 1)).contains 2) then
        .error 0x0D07
      else if toks.any (fun x => !s.tokenSigned x) then .error 0x0D02
      else if toks.any (fun x => decide (sub x 24 48 ≠ sha384 change)) ∨ items.any ChangeItem.bad then .error 0x0D08
      else if 1 < (s.touched items).length then .error 0x0D09
      else if items.any (fun i => decide (i.typ = 6) && decide (fieldNat i.data 0 1 = 2)) ∧ !s.trust.debugAuth then .error 0x0D10
      else if t.partsBad then .error 0x0A01
      else if s.partsBusy t then .error 0x0A02
      else if t.regionsBad then .error 0x0607
      else if t.trust.operator.isEmpty != t.trust.custodian.isEmpty then .error 0x0D08
      else .ok items

/-- SEC_CHANGE (R569, R570): applied at once, or pending on the one enabled partition that it touches. -/
def execSecChange (f : Frame) : State → Out :=
  lift (fun s => s.mgmtCmd 0x0091 f (fun t =>
    match t.changeCheck f.body with
    | .error e => (if 0x0D00 ≤ e then t.secCode e else t).complete 0x0091 f e
    | .ok items =>
      match t.touched items with
      | n :: _ => t.setTrust { t.trust with change := some (items, n, f) }
      | [] => t.applyItems items f))

/-- SEC_QUERY (R577). -/
def execSecQuery (f : Frame) : State → Out :=
  lift (fun s => s.startCmd 0x0092 f .any (fun t _ =>
    if !f.body.isEmpty then t.complete 0x0092 f 0x0901
    else t.complete 0x0092 f 0 (t.setupDigest ++ wordBytes t.viewSec ++ natBytes 8 t.trust.changeSeq ++ natBytes 8 t.trust.loadSeq
      ++ (List.range 63).flatMap (fun k => wordBytes (t.viewSlot (k + 1))))))

/-! ## Key slots (R573 to R575) -/

/-- Whether a session may use a key slot (R575). -/
def State.slotAllowed (s : State) (o : SessOwner) (k : Nat) : Bool :=
  match o with
  | .mgmt => decide (59 ≤ k)
  | .part n => decide (k ≤ 58) && decide ((s.trust.slot k).owner = n.val)
  | .net _ => false

/-- Whether a key slot is in use (R575). -/
def State.slotBusy (s : State) (k : Nat) : Bool :=
  ((s.trust.slot k).key.isSome && (List.range 64).any (fun i =>
      let r := s.region i
      r.valid && decide (r.key = k) && s.enabled r.part))
    || (decide (59 ≤ k) && decide (k ≤ 62) && decide ((s.cxlPort (Fin.ofNat 4 (k - 59))).state = .inService))

/-- The length of the key of a slot. -/
def keyLength (k : Nat) : Nat := if k = 63 then 48 else 64

/-- A new key in a slot: the regions that name it are read under it (R329, log 9). -/
def State.loadKey (s : State) (k : Nat) (key : List Byte) : State :=
  let x := s.trust.slot k
  (s.setTrust { s.trust with slots := Assoc.put k ⟨x.owner, some key⟩ s.trust.slots, loadSeq := s.trust.loadSeq + 1 }).rekey s

/-- The KEK of SEC_KEY_LOAD: from the ephemeral key, KEYX of this boot, the serial value, the slot and LOAD_SEQ + 1 (R574). -/
def State.keyKek (s : State) (body : List Byte) : List Byte :=
  (sha384 (ecdhX (Config.keyxSecret s.trust.bootCount) (sub body 8 97) ++ serialBytes ++ sub body 0 4
    ++ natBytes 8 (s.trust.loadSeq + 1))).take 32

/-- The key that a body of SEC_KEY_LOAD carries, or none where it fails to decrypt (R574). -/
def State.openKey (s : State) (body : List Byte) : Option (List Byte) :=
  let n := body.length - 140
  if onCurve (sub body 8 97) then gcmOpen (s.keyKek body) (sub body 112 12) (body.take 112) (sub body 124 n) (sub body (124 + n) 16)
  else none

/-- SEC_KEY_LOAD (R574, R575). -/
def execSecKeyLoad (f : Frame) : State → Out :=
  lift (fun s => s.startCmd 0x0093 f .any (fun t o =>
    let k := fieldNat f.body 0 4
    if f.body.length < 140 ∨ k = 0 ∨ 63 < k ∨ fieldNat f.body 4 4 ≠ 0 ∨ !zeros (sub f.body 105 7) then t.complete 0x0093 f 0x0901
    else if !t.slotAllowed o k then (t.secCode 0x0D0C).complete 0x0093 f 0x0D0C
    else if t.slotBusy k then t.complete 0x0093 f 0x0903
    else
      match t.openKey f.body with
      | none => (t.secCode 0x0D0B).complete 0x0093 f 0x0D0B
      | some key =>
        if key.length ≠ keyLength k then (t.secCode 0x0D0B).complete 0x0093 f 0x0D0B
        else (t.loadKey k key).complete 0x0093 f 0))

/-- SEC_KEY_ERASE (R575). -/
def execSecKeyErase (f : Frame) : State → Out :=
  lift (fun s => s.startCmd 0x0094 f .any (fun t o =>
    let k := fieldNat f.body 0 4
    if f.body.length ≠ 4 ∨ k = 0 ∨ 63 < k then t.complete 0x0094 f 0x0901
    else if !t.slotAllowed o k then (t.secCode 0x0D0C).complete 0x0094 f 0x0D0C
    else if t.slotBusy k then t.complete 0x0094 f 0x0903
    else
      ((t.setTrust { t.trust with slots := Assoc.put k { t.trust.slot k with key := none } t.trust.slots }).rekey t).complete
        0x0094 f 0))

/-! ## Records (R551, R559, R564, R577) -/

/-- SEC_RECORD_READ (R577). -/
def execSecRecordRead (f : Frame) : State → Out :=
  lift (fun s => s.startCmd 0x0095 f .any (fun t _ =>
    let kind := fieldNat f.body 0 4
    if f.body.length ≠ 8 then t.complete 0x0095 f 0x0901
    else if kind = 0 then t.complete 0x0095 f 0 t.certificates
    else
      match t.recordAt kind (fieldNat f.body 4 4) with
      | none => t.complete 0x0095 f 0x0903
      | some bs => t.complete 0x0095 f 0 bs))

/-- The REPORT record of a nonce (R553, R564). -/
def State.reportRecord (s : State) (nonce : List Byte) : List Byte :=
  let b := nonce ++ wordBytes s.now ++ natBytes 8 s.trust.changeSeq ++ (List.range 11).flatMap (fun k => s.measurement (k + 1))
    ++ List.replicate 48 0
  let h := recordHeader 7 0x0200 0x0200 0 b.length serialBytes
  h ++ b ++ signBlock s.aliasKey true (h ++ b)

/-- SEC_REPORT (R551, R564). -/
def execSecReport (f : Frame) : State → Out :=
  lift (fun s => s.startCmd 0x0096 f .any (fun t _ =>
    if f.body.length ≠ 32 then t.complete 0x0096 f 0x0901
    else if !t.trust.aliasLms || decide (t.trust.aliasLeft = 0) then (t.secCode 0x0D0E).complete 0x0096 f 0x0D0E
    else
      (t.setTrust { t.trust with aliasLeft := t.trust.aliasLeft - 1 }).complete 0x0096 f 0 (t.reportRecord f.body)))

/-- A record at the front of bytes: its header and body. -/
def recordLen (bs : List Byte) : Nat := 64 + fieldNat bs 16 4 + 2816

/-- The body of a record. -/
def recordBody (r : List Byte) : List Byte := sub r 64 (fieldNat r 16 4)

/-- The first check of R553 that a Kodraul record of a kind fails: header, signers, revocation, SUBJECT, signatures. -/
def State.recordCheck (s : State) (r : List Byte) (kind : Nat) (subject : List Byte) : Code :=
  let e := fieldNat r 8 2
  let l := fieldNat r 10 2
  let msg := r.take (64 + fieldNat r 16 4)
  let sig := r.drop (64 + fieldNat r 16 4)
  let kodraul (k : Nat) : Bool := decide (1 ≤ k ∧ k ≤ 255)
  if r.length ≠ recordLen r ∨ fieldNat r 0 4 ≠ 0x4B535352 ∨ fieldNat r 4 2 ≠ 1 ∨ fieldNat r 6 1 ≠ kind ∨ !zeros (sub r 7 1)
      ∨ !zeros (sub r 20 4) ∨ !zeros (sub r 56 8) then 0x0D01
  else if !kodraul e || !kodraul l then 0x0D01
  else if s.trust.revoked.contains e || s.trust.revoked.contains l then 0x0D03
  else if sub r 24 32 ≠ padTo 32 subject then 0x0D05
  else if zeros (sub sig 2764 52) && ecdsaVerify (kodraulKey e false) msg (sig.take 96)
      && lmsVerify (kodraulKey l true) msg (sub sig 96 2668) then 0
  else 0x0D02

/-- A DEBUG_AUTH or REVOKE record loaded (R552, R569). -/
def State.loadRecord (s : State) (r : List Byte) : Code × State :=
  let kind := fieldNat r 6 1
  let n := fieldNat (recordBody r) 0 2
  let code := s.recordCheck r kind (if kind = 8 then serialBytes else [])
  let t := s.trust
  if code ≠ 0 then (code, s)
  else if kind = 8 then
    (0, s.setTrust { t with debugAuth := true, records := Assoc.put (8, 0) r t.records })
  else if n = 0 ∨ 255 < n ∨ fieldNat r 8 2 = n ∨ fieldNat r 10 2 = n then (0x0D01, s)
  else (0, s.setTrust { t with revoked := if t.revoked.contains n then t.revoked else t.revoked ++ [n],
                               records := Assoc.put (9, n) r t.records })

/-- A VOLTAGE_TABLE and DIE_ID pair, which apply from the next cold reset (R559). -/
def State.loadPair (s : State) (v i : List Byte) : Code × State :=
  let d := fieldNat (recordBody i) 10 1
  let c1 := s.recordCheck v 4 (dieSubject d)
  let c2 := s.recordCheck i 3 (dieSubject d)
  let t := s.trust
  if c1 ≠ 0 then (c1, s)
  else if c2 ≠ 0 then (c2, s)
  else if (recordBody v).length ≠ 128 ∨ (recordBody i).length ≠ 72 ∨ 19 < d then (0x0D01, s)
  else if sub (recordBody i) 20 48 ≠ sha384 (recordBody v) then (0x0D05, s)
  else (0, s.setTrust { t with nextRecords := Assoc.put (4, d) v (Assoc.put (3, d) i t.nextRecords) })

/-- SEC_RECORD_LOAD (R559, R577). -/
def execSecRecordLoad (f : Frame) : State → Out :=
  lift (fun s => s.mgmtCmd 0x0097 f (fun t =>
    let kind := fieldNat f.body 6 1
    let n := recordLen f.body
    let r : Code × State :=
      if kind = 8 ∨ kind = 9 then t.loadRecord f.body
      else if kind = 4 then t.loadPair (f.body.take n) (f.body.drop n)
      else (0x0D01, t)
    (if r.1 = 0 then r.2.flashWrite else t.secCode r.1).complete 0x0097 f r.1))

end Sys2Proof.Machine
end

