-- ==== Sys2Proof/Machine/Boot.lean ====
section
/-! DEFINITION. Bring-up and firmware (R551, R555, R580 to R596, R604). -/

namespace Sys2Proof.Machine

/-! ## Failures and rollback (R555, R583, R592, R596) -/

/-- Keeps a code in BOOT.CODE (R595). -/
def State.bootCode (s : State) (code : Code) : State := s.setReg .bootCode 0 0 (codeWord code)

/-- The TRIAL image that runs is marked BAD, with event 0x0E06 (R592). -/
def State.markBad (s : State) (reason : Nat) : State :=
  let b := s.boot.running
  let t := s.setImage b { s.image b with state := .bad }
  State.mgmtReport (State.flashWrite { t with boot := { t.boot with trialRunning := false } }) .bootCode 0x0E06
    (natBytes 1 (bitN b) ++ natBytes 1 reason)

/-- The code of a failed stage goes where its chapter keeps it (R555, R578, R595). -/
def State.stageCode (s : State) (code : Code) (stage : Nat) : State :=
  if code.toNat / 256 = 0x0D then s.setReg .secCode 0 0 (fields [(code.toNat, 0), (stage % 8, 16)])
  else if code.toNat / 256 = 0x0B then s.derReport code []
  else s.bootCode code

/-- Whether the TRIAL image boots. -/
def State.onTrial (s : State) : Bool := s.boot.trialRunning && decide ((s.image s.boot.running).state = .trial)

/-- The boot of a TRIAL image has failed: it is BAD, and the module starts again from CURRENT, from RAMP by a warm reset (R592,
log 59). -/
def State.rollback (s : State) : State :=
  let t := s.markBad 0
  if t.pw.state = .ramp then t.warmReset 5
  else State.leaveStandby { t with boot := (Boot.choose { t.boot with cause := 5, failed := none }) }

/-- A bring-up stage fails (R583): bring-up stops there, or a TRIAL image is rolled back; MEM.STATUS shows FAILED where it is the
stage that trains GDDR7 (R349). -/
def State.failStage (s : State) (code : Code) (stage : Nat) : State :=
  let t0 := s.stageCode code stage
  let t := if s.pw.state = .ramp ∧ s.boot.stage = 5 then t0.setReg .memStatus 0 0 3 else t0
  if t.onTrial then t.rollback else { t with boot := { t.boot with failed := some code } }

/-- TRIAL_READY_TIMEOUT (R592). -/
def execTrialReadyTimeout : State → Out :=
  lift (fun s => if s.onTrial && !s.boot.ready && decide (s.pw.state = .ramp) then s.rollback else s)

/-- TRIAL_TIMEOUT (R592): the image keeps serving until the next reset. -/
def execTrialTimeout : State → Out := lift (fun s => if s.onTrial && s.boot.ready then s.markBad 1 else s)

/-! ## Stages (R583 to R585) -/

/-- The end of boot stage 6 at a cold reset: DEV-LMS makes its signature, which ALIAS-LMS depends on (R551). -/
def State.signAlias (s : State) : State :=
  let t := s.trust
  if t.aliasMade then s
  else
    let u :=
      if t.devLeft = 0 then s.setTrust { t with aliasMade := true, aliasLms := false, aliasLeft := 0 }
      else State.flashWrite (s.setTrust { t with devLeft := t.devLeft - 1, aliasMade := true, aliasLms := true, aliasLeft := 32768 })
    if u.trust.devLeft < 1024 then (u.secCode 0x0D0D).mgmtEvent 0x0D0D else u

/-- TBC starts at 0 in FREE (R585). -/
def State.startTbc (s : State) : State :=
  { s with tb := { TimeBase.init with runs := true }, integ := { s.integ with clock := s.opTime } }

/-- Post-package repair at a cold start: a device that reports the repair repairs the failing row, which frees the spare; on any
other the retirement stands (R312, R319, log 103). -/
def State.packageRepair (s : State) : State :=
  let stays (f : (Fin 4 × Nat) × Nat × Nat) : Bool := !Config.repairs f.1.1.val (gddrAt true f.2.2).device.val
  { s with ms := { s.ms with retired := s.ms.retired.filter stays } }

/-- GDDR7 has trained: the rate of each die, with event 0x060C where it is reduced (R313, R345); close memory is written with zero
unless the reset was warm (R583, R587). -/
def State.memoryUp (s : State) (rates : List Nat) : State :=
  let s1 := (List.range 4).foldl (fun t d =>
    let r := rates.getD d 40
    let u := t.setReg .memMdRate 0 d (BitVec.ofNat 64 r)
    if r < 40 then u.mgmtReport .memCode 0x060C (natBytes 1 d) else u) s
  let s2 := (s1.setReg .cadAdmCloseBw 0 0 (BitVec.ofNat 64 (172800 * s1.mdRate))).setReg .memStatus 0 0 1
  if s.boot.warm then s2
  else State.packageRepair { s2 with mem := s2.mem.blur 0 s2.closeTop .zero }

/-- Training starts on every external port (R583). -/
def State.trainPorts (s : State) : State :=
  let s1 := if (s.reg .hpCtrl).getLsbD 0 then s.setHp { s.hp with state := .training } else s
  let s2 := (List.finRange 4).foldl (fun t p =>
    if (t.reg .cxlCtrl 0 p.val).getLsbD 0 then t.setCxl p { CxlPort.init with state := .training } else t.setCxl p CxlPort.init) s1
  (List.finRange 6).foldl (fun t p =>
    if t.mayTrain p then t.setPort p { FabPort.init with state := .training, stage := .phy } else t) s2

/-- The module enters ON and is READY; events kept in flash are reported (R543, R584, R598). -/
def State.enterOn (s : State) (timeUs : Nat) : State :=
  let codes := s.pw.stored
  let s1 : State := { s with
    pw := { s.pw with state := .on, stored := [] }
    boot := { s.boot with ready := true, timeUs := timeUs, readyEvent := true, warm := false } }
  codes.foldl (fun t c => t.pwrReport c) s1.trainPorts

/-- The dies that have a service point run it (R522). -/
def State.runPoint (s : State) (k : Nat) : State := s.setPw { s.pw with vfPoint := List.replicate 20 k }

/-- The end of the stage in progress (R583). -/
def State.nextStage (s : State) (r : StageResult) : State :=
  let k := s.boot.stage
  let go (t : State) : State := { t with boot := { t.boot with stage := k + 1 } }
  match k with
  | 1 => go (s.runPoint 0)
  | 2 => go s
  | 3 => go s.signAlias.startTbc
  | 4 => go (s.runPoint 15)
  | 5 => go (s.memoryUp r.mdRates)
  | _ => s.enterOn r.timeUs

/-- RAMP_STAGE_COMPLETE (R583): a stage of RAMP ends, or boot stage 1 in STANDBY. -/
def execRampStageComplete (r : StageResult) : State → Out :=
  lift (fun s =>
    if s.boot.failed.isSome || s.boot.ready then s
    else
      match s.pw.state with
      | .ramp => if r.code = 0 then s.nextStage r else s.failStage r.code r.boot
      | .standby | .stagger => if r.code = 0 then s else s.failStage r.code r.boot
      | _ => s)

/-- BRINGUP_STAGE_TIMEOUT (R583). -/
def execBringupStageTimeout : State → Out :=
  lift (fun s =>
    if s.boot.failed.isSome || s.boot.ready then s
    else
      match s.pw.state with
      | .ramp | .standby => s.failStage 0x0E01 0
      | _ => s)

/-- The characters of a string as ASCII. -/
def ascii (t : String) : List Byte := t.toList.map (fun c => BitVec.ofNat 8 c.toNat)

/-- A hexadecimal digit as ASCII. -/
def hexDigit (n : Nat) : Byte := BitVec.ofNat 8 (if n < 10 then 48 + n else 87 + n)

/-- The line of a failed stage: its number and code, with carriage return and line feed (R604). -/
def uartLine (stage : Nat) (code : Code) : List Byte :=
  ascii "KS8 STAGE " ++ [BitVec.ofNat 8 (48 + stage % 10)] ++ ascii " CODE 0x"
    ++ [3, 2, 1, 0].map (fun k => hexDigit (code.toNat / 16 ^ k % 16)) ++ [13, 10]

/-- UART_STAGE_LINE (R604). -/
def execUartStageLine : State → Out :=
  lift (fun s =>
    match s.boot.failed with
    | none => s
    | some c => s.send (.uart (uartLine s.boot.stage c)))

/-! ## Firmware (R581, R592 to R594) -/

/-- The image slot that a number names. -/
def slotOf (k : Nat) : Option Bool := if k = 0 then some false else if k = 1 then some true else none

/-- Bytes of the largest image. -/
def imageMax : Nat := 96 * mib

/-- BOOT_FW_WRITE (R592 to R594). -/
def execBootFwWrite (f : Frame) : State → Out :=
  lift (fun s => s.mgmtCmd 0x00D0 f (fun t =>
    let off := fieldNat f.body 4 4
    let bs := f.body.drop 8
    match slotOf (fieldNat f.body 0 4) with
    | none => t.complete 0x00D0 f 0x0901
    | some b =>
      if f.body.length < 8 ∨ mib < bs.length ∨ imageMax < off + bs.length then t.complete 0x00D0 f 0x0901
      else if t.boot.current = b ∨ t.boot.trial.isSome then t.complete 0x00D0 f 0x0903
      else
        (t.setImage b { t.image b with state := .empty, version := 0, svn := 0, writes := (t.image b).writes ++ [(off, bs)] }).complete
          0x00D0 f 0))

/-- The checks of BOOT_FW_ACTIVATE on an image (R592): header, DIGEST, records, SVN; its version and lowest SVN. -/
def State.imageCheck (s : State) (bs : List Byte) : Option (Nat × Nat) :=
  let len := fieldNat bs 12 4
  let recs := imageRecords (fieldNat bs 6 2) ((bs.take len).drop 64)
  let svns := recs.map (fun r => fieldNat r 12 4)
  if fieldNat bs 0 4 ≠ 0x4B53494D ∨ fieldNat bs 4 2 ≠ 1 ∨ imageMax < len ∨ len < 64 ∨ bs.length < len then none
  else if sub bs 16 48 ≠ sha384 ((bs.take len).drop 64) then none
  else if recs.length ≠ fieldNat bs 6 2 ∨ recs.isEmpty ∨ (recs.map List.length).sum ≠ len - 64 then none
  else if recs.any (fun r => decide (s.recordCheck r 1 [] ≠ 0)) ∨ svns.any (fun v => decide (v < s.trust.fusedSvn)) then none
  else some (fieldNat bs 8 4, svns.foldl min (svns.headD 0))

/-- BOOT_FW_ACTIVATE (R592, R593). -/
def execBootFwActivate (f : Frame) : State → Out :=
  lift (fun s => s.mgmtCmd 0x00D1 f (fun t =>
    match slotOf (fieldNat f.body 0 4) with
    | none => t.complete 0x00D1 f 0x0901
    | some b =>
      if f.body.length ≠ 4 then t.complete 0x00D1 f 0x0901
      else if t.boot.current = b then t.complete 0x00D1 f 0x0903
      else
        match t.imageCheck (t.imageBytes b) with
        | none => (t.bootCode 0x0E04).complete 0x00D1 f 0x0E04
        | some (v, svn) =>
          ((t.setImage b { t.image b with state := .trial, version := v, svn := svn }).flashWrite).complete 0x00D1 f 0))

/-- BOOT_FW_COMMIT (R592, R593). -/
def execBootFwCommit (f : Frame) : State → Out :=
  lift (fun s => s.mgmtCmd 0x00D2 f (fun t =>
    let b := t.boot.running
    if f.body.length ≠ 4 then t.complete 0x00D2 f 0x0901
    else if (t.image b).state ≠ .trial then t.complete 0x00D2 f 0x0903
    else
      let t1 := (t.setImage b { t.image b with state := .valid }).setImage (!b) { t.image (!b) with state := .valid }
      let svn := if fieldNat f.body 0 4 % 2 = 1 then max t1.trust.fusedSvn (t1.image b).svn else t1.trust.fusedSvn
      let t2 : State := { t1 with
        boot := { t1.boot with current := b, trialRunning := false }
        trust := { t1.trust with fusedSvn := svn } }
      t2.flashWrite.complete 0x00D2 f 0))

/-! ## Reset commands (R587, R589 to R591, R594) -/

/-- BOOT_RESET: it completes before the reset starts. -/
def State.resetCmd (s : State) (f : Frame) : State :=
  s.mgmtCmd 0x00D3 f (fun t =>
    let kind := fieldNat f.body 0 4
    if f.body.length ≠ 4 ∨ 1 < kind then t.complete 0x00D3 f 0x0901
    else if t.resetting then t.complete 0x00D3 f 0x0903
    else (t.complete 0x00D3 f 0).startReset (decide (kind = 0)) (3 + kind))

/-- BOOT_RESET_COLD (R587). -/
def execBootResetCold (f : Frame) : State → Out := lift (fun s => s.resetCmd f)

/-- BOOT_RESET_WARM (R587). -/
def execBootResetWarm (f : Frame) : State → Out := lift (fun s => s.resetCmd f)

/-- BOOT_PART_RESET (R589): a running domain commits its tick first. -/
def execBootPartReset (f : Frame) : State → Out :=
  lift (fun s => s.mgmtCmd 0x00D4 f (fun t =>
    if f.body.length ≠ 4 then t.complete 0x00D4 f 0x0901
    else match namedPart f with
      | none => t.complete 0x00D4 f 0x0A03
      | some n =>
        if !t.partValid n then t.complete 0x00D4 f 0x0A03
        else
          let u := { t with boot := { t.boot with partReset := t.boot.partReset ++ [(n, f)] } }
          let d := u.dom n
          if !u.enabled n then u.partReset n
          else if d.state = .running ∨ d.state = .rewinding then u.updDom n (fun x => { x with resetAfter := true })
          else u.disable n))

/-- BOOT_CORE_RESET (R590). -/
def execBootCoreReset (f : Frame) : State → Out :=
  lift (fun s => s.mgmtCmd 0x00D5 f (fun t =>
    match bodySite f.body with
    | none => t.complete 0x00D5 f 0x0901
    | some i =>
      if (t.site i).slot.isSome ∨ t.replaying i ∨ (t.site i).state = .scanning then t.complete 0x00D5 f 0x0903
      else (t.coreReset i).complete 0x00D5 f 0))

end Sys2Proof.Machine
end

