-- ==== Sys2Proof/Machine/Integrity.lean ====
section
/-! DEFINITION. The commands of chapter 14 that come from hardware: replays, scans, watch, rotation, PLLs. -/

namespace Sys2Proof.Machine

/-- REPLAY_START (R494). -/
def execReplayStart (die : Fin 8) : State → Out := lift (fun s => s.startReplay die)

/-- REPLAY_COMPLETE (R496). -/
def execReplayComplete (die : Fin 8) (digest : Option (List Byte)) : State → Out := lift (fun s => s.endReplay die digest)

/-- SCAN_START (R501). -/
def execScanStart (die : Fin 8) : State → Out := lift (fun s => s.startScan die)

/-- SCAN_COMPLETE (R501, R503, R505, R506). -/
def execScanComplete (die : Fin 8) (pass : Bool) : State → Out := lift (fun s => s.endScan die pass)

/-- WATCH_EXPIRE (R502). -/
def execWatchExpire (i : SiteId) : State → Out :=
  lift (fun s =>
    let x := s.site i
    s.setSite i { x with state := if x.state = .watch then .inService else x.state, watchEnd := 0 })

/-- SPARE_SCAN_DUE (R506). -/
def execSpareScanDue (i : SiteId) : State → Out :=
  lift (fun s => s.when (decide ((s.site i).state = .spare)) (fun t => t.setSite i { t.site i with due := true }))

/-- ROTATE_DUE (R507). -/
def execRotateDue (die : Fin 8) : State → Out := lift (fun s => s.planRotation die)

/-- PLL_LOCK_LOSS (R509). -/
def execPllLockLoss (d : Fin 20) : State → Out := lift (fun s => s.pllLost d)

end Sys2Proof.Machine
end

