-- ==== Sys2Proof/Machine/RegWrite.lean ====
section
/-! DEFINITION. Writing a register (R5 to R8, R39, R141, R165, R324, R448, R464, R547, R605 to R607, R616, R617) and the
commands that read and write registers. -/

namespace Sys2Proof.Machine

/-! ## Limits (R617) -/

/-- Whether a number lies between two. -/
def within (lo hi n : Nat) : Bool := decide (lo ≤ n) && decide (n ≤ hi)

/-- Whether a number is a power of two between two. -/
def pow2Within (lo hi n : Nat) : Bool := within lo hi n && (List.range 64).any (fun k => decide (n = 2 ^ k))

/-- Whether a number is a multiple. -/
def multiple (k n : Nat) : Bool := decide (n % k = 0)

/-- Whether a value obeys what the register's table states of its fields. -/
def State.inLimits (s : State) (k : RegKey) (w : Word) : Bool :=
  let v := w.toNat
  match k.reg with
  | .cadSilentTimeout => within 50 100000 v
  | .cadRejoinTimeout => within 100 100000 v
  | .cadDomMaxRetracts => within 1 64 v
  | .mxResidueInject => within 1 126 (bits w 15 8)
  | .lxStallLimit => within 1024 0xFFFFFFFF v
  | .exWshipThreshold => within 1 0xFFFFFFFF v
  | .exPoolBase | .svTableBase | .svPAreaSize | .kvPPoolBase => multiple mib v
  | .exPoolSize => multiple mib v && within (256 * mib) (16384 * mib) v
  | .exCountTimeout | .exDataTimeout | .ceCollTimeout => within 20 100000 v
  | .svIntakeGuard => within 10 1000 v
  | .svPVocab => decide (v = 0) || within 2 16777216 v
  | .svPPrefill => within 16 65535 (bits w 15 0)
  | .kvPPage => multiple 64 (bits w 47 16) && [16, 32, 64].contains (bits w 7 0)
  | .kvPMapStride => multiple 64 v && within 64 65536 v
  | .memScrubPeriod => within 3600 604800 v
  | .memCeThresh => within 1 255 v
  | .memSpareBase => multiple 16384 v
  | .memSpareFrames => within 0 1024 v
  | .memTcEpoch => within 1000 10000000 v
  | .memTcThresh => within 1 65535 v
  | .memPDemote => within 1 8 (bits w 23 16)
  | .cxlTimeout => within 2 1000 v
  | .pnFillDeadline => within 100 1000000 v
  | .fabDeadTimeout => within 2 200 v
  | .fabRetryLimit => within 1 4095 v
  | .hpMaxFrame => within 1518 9216 v
  | .hpRto => within 20 10000 v
  | .hpSessionTimeout => within 100 60000 v
  | .hpMgmtPrefixLen | .hpPPrefixLen => within 0 128 v
  | .hpPtpCtrl => within 0 2 (bits w 9 8)
  | .hpPQueues => within 0 256 v
  | .nxPTxCtl | .nxPRxCtl => multiple 64 v
  | .nxPTxSize => decide (v = 0) || pow2Within 4096 (16 * mib) v
  | .nxPRxSize => decide (v = 0) || pow2Within 65536 (1024 * mib) v
  | .nxPTxBase => multiple (max 1 (s.regN .nxPTxSize k.i k.j)) v
  | .nxPRxBase => multiple (max 1 (s.regN .nxPRxSize k.i k.j)) v
  | .arbWindow => pow2Within 256 4096 v
  | .arbUrgentQuota => within 1 (s.regN .arbWindow / 4) v
  | .arbBurst => within 1 64 v
  | .arbDlScrub | .arbDlKv | .arbDlTc | .arbDlIngest | .arbDlHost => within 1 100000 v
  | .intAuditRate => within 0 16 (bits w 12 8) && (within 0 24 (bits w 4 0) || decide (bits w 4 0 = 31))
  | .derWatchHours | .derSpareScanPeriod => within 1 8760 v
  | .derEventWindow => within 1 87600 v
  | .derRotatePeriod => decide (v = 0) || within 24 8760 v
  | .pwrSlope => within 10 2000 v
  | .pwrShelfCap | .pwrSafeCap => within 1200 3600 v
  | .pwrStagger => within 0 20 v
  | .pwrThermCtrl =>
    let t := bits w 7 0
    within 85 100 t && within (t + 2) 104 (bits w 15 8) && within 70 (t - 2) (bits w 23 16)
  | .bootTrialTimeout => within 10 86400 v
  | _ => true

/-- A write is discarded: the code register of a block whose chapter names a code for it (R324, R337, R464, R487, R516, R547,
R549, R617). -/
def State.discard (s : State) (k : RegKey) : State :=
  match k.reg.info.block with
  | .mem => s.setReg .memCode 0 0 0x060D
  | .pn => s.setReg .pnCode k.i 0 0x060D
  | .part => s.setReg .partCode 0 0 0x0A07
  | .arb => s.setReg .arbCode 0 0 0x0A07
  | .der => s.setReg .derCode 0 0 0x0B0E
  | .pwr => s.setReg .pwrCode 0 0 0x0C0E
  | .fwl => s.setReg .fwlCode 0 0 0x0C0E
  | _ => s

/-! ## Counters -/

/-- Counters return to zero. -/
def State.clearRegs (s : State) (f : RegKey → Bool) : State := { s with regs := s.regs.filter (fun p => !f p.1) }

/-- Whether a register of a block lies between two offsets. -/
def Reg.between (r : Reg) (b : Block) (lo hi : Nat) : Bool := decide (r.info.block = b) && within lo hi r.info.off

/-- A counter clear: bit 0 of the value written (R154 and the other register tables). -/
def State.clearIf (s : State) (value : Word) (f : RegKey → Bool) : State := s.when (value.getLsbD 0) (fun t => t.clearRegs f)

/-- R154. -/
def State.clearMx (s : State) (i : Nat) (value : Word) : State :=
  s.clearIf value (fun k => (k.reg.between .mx 0x10 0x50 || k.reg.between .mx 0x60 0x60 || k.reg.between .mx 0x78 0x78) && decide (k.i = i))

/-- R187. -/
def State.clearVx (s : State) (i : Nat) (value : Word) : State := s.clearIf value (fun k => k.reg.between .vx 0x08 0x28 && decide (k.i = i))

/-- R188. -/
def State.clearTx (s : State) (i : Nat) (value : Word) : State := s.clearIf value (fun k => k.reg.between .tx 0x10 0x38 && decide (k.i = i))

/-- R189. -/
def State.clearLx (s : State) (i : Nat) (value : Word) : State := s.clearIf value (fun k => k.reg.between .lx 0x10 0x28 && decide (k.i = i))

/-- R269. -/
def State.clearEx (s : State) (d : Nat) (value : Word) : State := s.clearIf value (fun k => k.reg.between .ex 0x38 0x68 && decide (k.i = d))

/-- R304. -/
def State.clearSv (s : State) (d : Nat) (value : Word) : State := s.clearIf value (fun k => k.reg.between .sv 0x20 0x38 && decide (k.i = d))

/-- R304. -/
def State.clearSvPart (s : State) (n : Nat) (value : Word) : State :=
  s.clearIf value (fun k => k.reg.between .sv 0x1048 0x1068 && decide (k.j = n))

/-- R305. -/
def State.clearKv (s : State) (d : Nat) (value : Word) : State :=
  s.clearIf value (fun k => decide (k.reg = .kvPAllocs) && decide (k.i = d))

/-- R349. -/
def State.clearMem (s : State) (value : Word) : State :=
  s.clearIf value (fun k => k.reg.between .mem 0x60 0x68 || k.reg.between .mem 0x80 0x88)

/-- R350. -/
def State.clearCxl (s : State) (p : Nat) (value : Word) : State := s.clearIf value (fun k => k.reg.between .cxl 0x20 0x38 && decide (k.j = p))

/-- R351. -/
def State.clearPn (s : State) (d : Nat) (value : Word) : State := s.clearIf value (fun k => k.reg.between .pn 0x20 0x40 && decide (k.i = d))

/-- R426: the fabric's counters and every port's. -/
def State.clearFab (s : State) (value : Word) : State :=
  s.clearIf value (fun k => k.reg.between .fab 0x28 0x50
    || [Reg.fabFecCorrected, .fabFecUncorrected, .fabNaks, .fabTxFlits, .fabRxFlits, .fabLinkDowns].contains k.reg)

/-- R427. -/
def State.clearCe (s : State) (p : Nat) (value : Word) : State := s.clearIf value (fun k => k.reg.between .ce 0x10 0x28 && decide (k.i = p))

/-- R460. -/
def State.clearHp (s : State) (value : Word) : State := s.clearIf value (fun k => k.reg.between .hp 0x90 0xB8)

/-- R461. -/
def State.clearNx (s : State) (value : Word) : State := s.clearIf value (fun k => k.reg.between .nx 0x08 0x18)

/-- R487. -/
def State.clearArb (s : State) (value : Word) : State :=
  s.clearIf value (fun k =>
    [Reg.arbGrants, .arbUrgent, .arbBest, .arbBack, .arbUrgentSat, .arbIdle, .arbPgrants].contains k.reg)

/-- R515. -/
def State.clearInt (s : State) (value : Word) : State := s.clearIf value (fun k => k.reg.between .int 0x10 0x58)

/-- R516. -/
def State.clearDer (s : State) (value : Word) : State := s.clearIf value (fun k => k.reg.between .der 0x38 0x48)

/-- R547. -/
def State.clearPwr (s : State) (value : Word) : State :=
  s.when (value.getLsbD 0) (fun t => (t.clearRegs (fun k => k.reg.between .pwr 0x78 0x88)).setPw { t.pw with emergUs := 0 })

/-- R548. -/
def State.clearFwl (s : State) (value : Word) : State :=
  s.when (value.getLsbD 0) (fun t => (t.clearRegs (fun k => k.reg.between .fwl 0x10 0x18)).setPw { t.pw with ballastUj := 0 })

/-- MX_CTR_CLEAR (R154). -/
def execMxCtrClear (i : SiteId) (value : Word) : State → Out := lift (fun s => s.clearMx (siteIx i) value)

/-- VX_CTR_CLEAR (R187). -/
def execVxCtrClear (i : SiteId) (value : Word) : State → Out := lift (fun s => s.clearVx (siteIx i) value)

/-- TX_CTR_CLEAR (R188). -/
def execTxCtrClear (i : SiteId) (value : Word) : State → Out := lift (fun s => s.clearTx (siteIx i) value)

/-- LX_CTR_CLEAR (R189). -/
def execLxCtrClear (i : SiteId) (value : Word) : State → Out := lift (fun s => s.clearLx (siteIx i) value)

/-- EX_CTR_CLEAR (R269). -/
def execExCtrClear (die : Fin 8) (value : Word) : State → Out := lift (fun s => s.clearEx die.val value)

/-- SV_CTR_CLEAR (R304). -/
def execSvCtrClear (die : Fin 8) (value : Word) : State → Out := lift (fun s => s.clearSv die.val value)

/-- SV_P_CTR_CLEAR (R304). -/
def execSvPCtrClear (_die : Fin 8) (n : Part) (value : Word) : State → Out := lift (fun s => s.clearSvPart n.val value)

/-- KV_CTR_CLEAR (R305). -/
def execKvCtrClear (die : Fin 8) (value : Word) : State → Out := lift (fun s => s.clearKv die.val value)

/-- MEM_CTR_CLEAR (R349). -/
def execMemCtrClear (value : Word) : State → Out := lift (fun s => s.clearMem value)

/-- CXL_CTR_CLEAR (R350). -/
def execCxlCtrClear (p : Fin 4) (value : Word) : State → Out := lift (fun s => s.clearCxl p.val value)

/-- PN_CTR_CLEAR (R351). -/
def execPnCtrClear (die : Fin 8) (value : Word) : State → Out := lift (fun s => s.clearPn die.val value)

/-- FAB_CTR_CLEAR (R426). -/
def execFabCtrClear (value : Word) : State → Out := lift (fun s => s.clearFab value)

/-- CE_CTR_CLEAR (R427). -/
def execCeCtrClear (p : Port) (value : Word) : State → Out := lift (fun s => s.clearCe p.val value)

/-- HP_CTR_CLEAR (R460). -/
def execHpCtrClear (value : Word) : State → Out := lift (fun s => s.clearHp value)

/-- NX_CTR_CLEAR (R461). -/
def execNxCtrClear (value : Word) : State → Out := lift (fun s => s.clearNx value)

/-- ARB_CTR_CLEAR (R487). -/
def execArbCtrClear (value : Word) : State → Out := lift (fun s => s.clearArb value)

/-- INT_CTR_CLEAR (R515). -/
def execIntCtrClear (value : Word) : State → Out := lift (fun s => s.clearInt value)

/-- DER_CTR_CLEAR (R516). -/
def execDerCtrClear (value : Word) : State → Out := lift (fun s => s.clearDer value)

/-- PWR_CTR_CLEAR (R547). -/
def execPwrCtrClear (value : Word) : State → Out := lift (fun s => s.clearPwr value)

/-- FWL_CTR_CLEAR (R548). -/
def execFwlCtrClear (value : Word) : State → Out := lift (fun s => s.clearFwl value)

/-! ## Registers that act (R141, R165, R304, R321, R430) -/

/-- MX.RESIDUE_INJECT (R141): writes with ARM are ignored unless the debug level is DIAG or FULL. -/
def State.writeInject (s : State) (i : Nat) (value : Word) : State :=
  let k := rk .mxResidueInject i
  if !s.inLimits k value || (value.getLsbD 0 && decide (s.trust.debug = 0)) then s else s.setRaw k (value &&& 0xFF01)

/-- LX.QSTATn (R165): each 1 clears a flag of the stream's sticky status. -/
def State.writeQstat (s : State) (i q : Nat) (value : Word) : State :=
  match s.coreOn i with
  | none => s
  | some c =>
    let h := BitVec.ofNat 4 q
    match Assoc.find h (s.core c).streams with
    | none => s
    | some x => s.updCore c (fun y => { y with streams := Assoc.put h { x with sticky := x.sticky &&& ~~~(value.setWidth 7) } y.streams })

/-- MX_RESIDUE_INJECT (R141). -/
def execMxResidueInject (i : SiteId) (value : Word) : State → Out := lift (fun s => s.writeInject (siteIx i) value)

/-- LX_QSTAT_CLEAR (R165). -/
def execLxQstatClear (i : SiteId) (q : Fin 16) (value : Word) : State → Out := lift (fun s => s.writeQstat (siteIx i) q.val value)

/-- A configuration register of SV or KV (R304, R305): while its domain is enabled the value in effect stays until the next
admission close. -/
def State.writeServing (s : State) (k : RegKey) (w : Word) : State :=
  let module := decide (k.reg = .svTableBase) || decide (k.reg = .svIntakeGuard)
  let live := if module then !s.allDisabled else s.enabled (Fin.ofNat 16 k.j)
  let s1 :=
    if live && (Assoc.find k s.sv.old).isNone then { s with sv := { s.sv with old := Assoc.put k (s.raw k) s.sv.old } } else s
  s1.setRaw k w

/-- CXL.CTRL: ENABLE at 0 holds the port DOWN, and at 1 lets it train (R321, R350, log 62). -/
def State.writeCxlCtrl (s : State) (p : Fin 4) (w : Word) : State :=
  let s1 := s.setReg .cxlCtrl 0 p.val w
  if !w.getLsbD 0 then s1.setCxl p CxlPort.init
  else if (s.cxlPort p).state = .down ∧ s.boot.ready then s1.setCxl p { CxlPort.init with state := .training }
  else s1

/-- HP.CTRL: ENABLE at 0 takes the port DOWN, and at 1 lets it train (R460, log 62). -/
def State.writeHpCtrl (s : State) (w : Word) : State :=
  let s1 := s.setReg .hpCtrl 0 0 w
  if !w.getLsbD 0 then s1.setHp { s1.hp with state := .down, lanes := 0, macsec := false }
  else if s.hp.state = .down ∧ s.boot.ready then s1.setHp { s1.hp with state := .training }
  else s1

/-! ## The dispatcher -/

/-- A write of a register that only stores its value; a changed tier-cache range holds no copy (R338). -/
def State.storeReg (s : State) (k : RegKey) (w : Word) : State :=
  let t := s.setRaw k w
  match k.reg with
  | .memTcBase | .memTcSize => { t with ms := { t.ms with tcSlots := [], tcBytes := [], tcHits := [] } }
  | .pwrShelfCap | .pwrSafeCap => t.newCaps
  | _ => if k.reg.info.block = .sv ∨ k.reg.info.block = .kv then s.writeServing k w else t

/-- Whether a domain register is locked (R39). -/
def Reg.locks : Reg → Bool
  | .cadDomPeriod | .cadDomEpoch | .cadDomSpokes | .cadDomTick | .cadDomSlice => true
  | _ => false

/-- A write of an RW register, its reserved bits ignored (R6, R8, R39, R617). -/
def State.writeRw (s : State) (k : RegKey) (v : Word) : State :=
  let w := v &&& k.reg.info.mask
  let n : Part := Fin.ofNat 16 k.j
  if k.reg.locks && s.enabled n then s.domReport n 0x0107
  else if !s.inLimits k w then s.discard k
  else s.storeReg k w

/-- What a write does to a register, by its name (R6): `i3c` tells where it comes from (R538). -/
def State.writeKey (s : State) (i3c : Bool) (k : RegKey) (v : Word) : State :=
  let n : Part := Fin.ofNat 16 k.j
  let d : Fin 8 := Fin.ofNat 8 k.i
  match k.reg with
  | .cadDomCtrl => if v.getLsbD 0 then s.enable n else s.disable n
  | .mxResidueInject => s.writeInject k.i (v &&& 0xFF01)
  | .lxQstat => s.writeQstat k.i k.j v
  | .mxCtrClear => s.clearMx k.i v
  | .vxCtrClear => s.clearVx k.i v
  | .txCtrClear => s.clearTx k.i v
  | .lxCtrClear => s.clearLx k.i v
  | .exCtrClear => s.clearEx k.i v
  | .svCtrClear => s.clearSv k.i v
  | .svPCtrClear => s.clearSvPart k.j v
  | .kvCtrClear => s.clearKv k.i v
  | .memCtrClear => s.clearMem v
  | .cxlCtrClear => s.clearCxl k.j v
  | .pnCtrClear => s.clearPn k.i v
  | .fabCtrClear => s.clearFab v
  | .ceCtrClear => s.clearCe k.i v
  | .hpCtrClear => s.clearHp v
  | .nxCtrClear => s.clearNx v
  | .arbCtrClear => s.clearArb v
  | .intCtrClear => s.clearInt v
  | .derCtrClear => s.clearDer v
  | .pwrCtrClear => s.clearPwr v
  | .fwlCtrClear => s.clearFwl v
  | .memCtrl => s.writeMemCtrl v
  | .memIlvSize => s.writeIlvSize v
  | .pnSize => s.writePnSize d v
  | .pnPQuota => s.writePnQuota d n v
  | .fabPortRetrain => s.writeRetrain (Fin.ofNat 6 k.j) v
  | .fabPortCtrl => s.writePortCtrl (Fin.ofNat 6 k.j) v
  | .cxlCtrl => s.writeCxlCtrl (Fin.ofNat 4 k.j) (v &&& 3)
  | .hpCtrl => s.writeHpCtrl (v &&& 0x17)
  | .pwrCap => s.writeCap i3c v
  | .pwrHeartbeat => s.heartbeat
  | .pwrHbCtrl => s.writeHbCtrl (v &&& 0x1FFFFFFFF)
  | r =>
    match r.info.acc with
    | .rw => s.writeRw k v
    | .rwProt => s.discard k
    | .ro | .wo | .w1c => s

/-- A write at an address of register space: one that names no register does nothing (R5, R8, R616). -/
def State.writeAddr (s : State) (i3c : Bool) (a : Nat) (v : Word) : State :=
  match regAt a with
  | some k => s.writeKey i3c k v
  | none => s

/-- REGISTER_WRITE (R617). -/
def execRegisterWrite (addr value : Word) : State → Out := lift (fun s => s.writeAddr false addr.toNat value)

/-- REG_READ (R448). -/
def execRegRead (f : Frame) : State → Out :=
  lift (fun s => s.mgmtCmd 0x0052 f (fun t =>
    if f.body.length ≠ 8 then t.complete 0x0052 f 0x0901
    else t.complete 0x0052 f 0 (wordBytes (t.readAddr (fieldNat f.body 0 8)))))

/-- REG_WRITE (R448): a discarded write completes with success. -/
def execRegWrite (f : Frame) : State → Out :=
  lift (fun s => s.mgmtCmd 0x0053 f (fun t =>
    if f.body.length ≠ 16 then t.complete 0x0053 f 0x0901
    else (t.writeAddr false (fieldNat f.body 0 8) (bytesWord (f.body.drop 8))).complete 0x0053 f 0))

/-! ## I3C (R584, R605 to R607) -/

/-- Replaces bring-up state. -/
def State.setBoot (s : State) (b : Boot) : State := { s with boot := b }

/-- The target's address on the bus: the dynamic one, or 0x30 + MOD_ID[2:0] (R605). -/
def State.i3cAddress (s : State) : BitVec 7 :=
  let straps := if s.pw.state = .standby then s.pw.straps else s.pw.slot
  s.boot.i3cAddr.getD (0x30 + (straps.setWidth 3).setWidth 7)

/-- I3C_SETDASA (R605). -/
def execI3cSetdasa (addr : BitVec 7) : State → Out :=
  lift (fun s => if s.pw.state = .off then s else s.setBoot { s.boot with i3cAddr := some addr })

/-- I3C_ENTDAA (R605). -/
def execI3cEntdaa (addr : BitVec 7) : State → Out :=
  lift (fun s => if s.pw.state = .off then s else s.setBoot { s.boot with i3cAddr := some addr })

/-- The block of an address that stands once. -/
def blockOf (a : Nat) : Option Block := (blockAt a).map (·.1)

/-- Whether a read over I3C is served (R607). -/
def State.i3cReads (s : State) (a : Nat) : Bool := s.boot.ready || ([Block.pwr, .fwl, .boot, .sec].map some).contains (blockOf a)

/-- Whether a write over I3C is served (R607). -/
def State.i3cWrites (s : State) (a : Nat) : Bool :=
  s.boot.ready || (match regAt a with
    | some k => decide (k.reg.info.block = .pwr) && decide (k.reg.info.acc = .rw)
    | none => false)

/-- I3C_REGISTER_READ (R606, R607): another `OP` than 0x01 is refused. -/
def execI3cRegisterRead (h : I3cHead) : State → Out :=
  lift (fun s =>
    if s.pw.state = .off then s
    else if h.op = 1 && s.i3cReads h.addr.toNat then s.setBoot { s.boot with i3cValue := s.readAddr h.addr.toNat, i3cStatus := 0 }
    else s.setBoot { s.boot with i3cValue := 0, i3cStatus := 0x0907 })

/-- I3C_REGISTER_WRITE (R538, R606, R607): another `OP` than 0x02 is refused. -/
def execI3cRegisterWrite (h : I3cHead) (value : Word) : State → Out :=
  lift (fun s =>
    if s.pw.state = .off then s
    else if h.op = 2 && s.i3cWrites h.addr.toNat then
      let t := s.writeAddr true h.addr.toNat value
      t.setBoot { t.boot with i3cValue := 0, i3cStatus := 0 }
    else s.setBoot { s.boot with i3cValue := 0, i3cStatus := 0x0907 })

/-- I3C_PRIVATE_READ (R606): value and status of the last access. -/
def execI3cPrivateRead : State → Out :=
  lift (fun s =>
    if s.pw.state = .off then s else s.send (.i3c (wordBytes s.boot.i3cValue ++ natBytes 2 s.boot.i3cStatus.toNat)))

end Sys2Proof.Machine
end

