-- ==== Sys2Proof/Machine/Scalar.lean ====
section
/-! DEFINITION. Control, scalar and descriptor instructions of the sequencer (R198 to R201, R221 to R225, R624). -/

namespace Sys2Proof.Machine

/-! ## Shapes -/

/-- A format-R scalar instruction: sD takes a function of sA and sB (R198). -/
def scalarRR (c : CoreId) (f : FmtR) (op : Word → Word → Word) : State → State :=
  issue1 c f.guard (f.c != 0 || f.fn != 0 || f.x != 0) true [.s f.a, .s f.b]
    (onCore c 1 (fun x => x.wrS f.d (op (x.rdS f.a) (x.rdS f.b))))

/-- Whether a format-J word without an offset has a bit set (R195, R198). -/
def jBad (f : FmtJ) : Bool := f.rsv != 0 || f.off != 0

/-! ## Control -/

/-- NOP (R198). -/
def execNop (c : CoreId) (f : FmtJ) : State → Out := lift (issue1 c f.guard (jBad f) true [] (onCore c 1 id))

/-- The word a relative jump reaches (R198); before the first word it is past any code. -/
def target (pc : Nat) (off : BitVec 42) : Nat :=
  let t : Int := (pc : Int) + off.toInt
  if t < 0 then 8192 else t.toNat

/-- BR (R198). -/
def execBr (c : CoreId) (f : FmtJ) : State → Out :=
  lift (issue1 c f.guard (f.rsv != 0) false [] (fun s => s.jump c (target (s.core c).pc f.off)))

/-- CALL (R225). -/
def execCall (c : CoreId) (f : FmtJ) : State → Out :=
  lift (issue1 c f.guard (f.rsv != 0) false [] (fun s =>
    let x := s.core c
    if 8 ≤ x.calls.length then s.kill c 0x0304
    else s.setCore c { x with calls := ⟨x.pc + 1, x.loops.length⟩ :: x.calls, pc := target x.pc f.off }))

/-- RET (R225). -/
def execRet (c : CoreId) (f : FmtJ) : State → Out :=
  lift (issue1 c f.guard (jBad f) false [] (fun s =>
    let x := s.core c
    match x.calls with
    | [] => s.kill c 0x0304
    | r :: rest =>
      if r.depth < x.loops.length then s.kill c 0x0304
      else
        match Core.flow 9 { x with calls := rest } r.ret with
        | some y => s.setCore c y
        | none => s.kill c 0x0306))

/-- LOOP (R221): pass 0 of the body, or the word after it. -/
def execLoop (c : CoreId) (f : FmtL) : State → Out :=
  lift (issue c ⟨f.guard, 1, false, true, [.s f.a]⟩ (1 + f.len.toNat) (fun s =>
    let x := s.core c
    let n := (x.rdS f.a).toNat
    if n = 0 then (s.setCore c (x.wrS f.d 0)).advance c (1 + f.len.toNat)
    else if 8 ≤ x.loops.length then s.kill c 0x0305
    else
      let fr : LoopFrame := ⟨x.pc + 1, x.pc + f.len.toNat, some n, 0, f.bound.toNat, 0, f.d⟩
      s.setCore c (Core.wrS { x with loops := fr :: x.loops, pc := x.pc + 1 } f.d 0)))

/-- LOOPW (R223). -/
def execLoopw (c : CoreId) (f : FmtL) : State → Out :=
  lift (issue c ⟨f.guard, 1, pnBad f.a, true, []⟩ (1 + f.len.toNat) (fun s =>
    let x := s.core c
    if 8 ≤ x.loops.length then s.kill c 0x0305
    else
      let fr : LoopFrame := ⟨x.pc + 1, x.pc + f.len.toNat, none, pn f.a, f.bound.toNat, 0, f.d⟩
      s.setCore c (Core.wrS { x with loops := fr :: x.loops, pc := x.pc + 1 } f.d 0)))

/-- BREAK (R224): the innermost loop open on the loop stack. -/
def execBreakLoop (c : CoreId) (f : FmtJ) : State → Out :=
  lift (issue1 c f.guard (jBad f) true [] (fun s =>
    let x := s.core c
    match x.loops with
    | [] => s.kill c 0x0305
    | l :: rest =>
      match Core.flow 9 { x with loops := rest } (l.last + 1) with
      | some y => s.setCore c y
      | none => s.kill c 0x0306))

/-- TRAP (R198, R624): the event travels with the vote. -/
def execTrap (c : CoreId) (f : FmtI) : State → Out :=
  lift (issue1 c f.guard (f.d != 0 || f.a != 0 || decide (65536 ≤ f.imm.toNat)) false [] (fun s =>
    let n := (s.partOf c).getD 0
    let s1 := s.updDom n (fun d =>
      { d with traps := d.traps ++ [((s.core c).seg, d.run, f.imm.setWidth 16, s.lcore n c)] })
    s1.kill c 0x0311))

/-- An unassigned opcode (R194, R196, R198): 0x0301 whatever its guard. A word with an assigned opcode is the instruction that
`seqInstr` reads from it, and none of this row. -/
def execIllegalOpcode (c : CoreId) (w : Word) : State → Out :=
  lift (fun s => if (seqInstr c w 0).isNone && (s.core c).canIssue && s.pw.down.isNone then s.kill c 0x0301 else s)

/-! ## Scalars -/

/-- ADD (R197). -/
def execAdd (c : CoreId) (f : FmtR) : State → Out := lift (scalarRR c f (fun a b => a + b))
/-- SUB (R197). -/
def execSub (c : CoreId) (f : FmtR) : State → Out := lift (scalarRR c f (fun a b => a - b))
/-- MUL (R198). -/
def execMul (c : CoreId) (f : FmtR) : State → Out := lift (scalarRR c f (fun a b => a * b))
/-- MULH (R198). -/
def execMulh (c : CoreId) (f : FmtR) : State → Out := lift (scalarRR c f mulHigh)
/-- AND (R198). -/
def execAnd (c : CoreId) (f : FmtR) : State → Out := lift (scalarRR c f (fun a b => a &&& b))
/-- OR (R198). -/
def execOr (c : CoreId) (f : FmtR) : State → Out := lift (scalarRR c f (fun a b => a ||| b))
/-- XOR (R198). -/
def execXor (c : CoreId) (f : FmtR) : State → Out := lift (scalarRR c f (fun a b => a ^^^ b))
/-- SHL by sB[5:0] (R198). -/
def execShl (c : CoreId) (f : FmtR) : State → Out := lift (scalarRR c f (fun a b => a <<< (b.toNat % 64)))
/-- SHR by sB[5:0] (R198). -/
def execShr (c : CoreId) (f : FmtR) : State → Out := lift (scalarRR c f (fun a b => a >>> (b.toNat % 64)))
/-- SRA by sB[5:0] (R198). -/
def execSra (c : CoreId) (f : FmtR) : State → Out := lift (scalarRR c f (fun a b => a.sshiftRight (b.toNat % 64)))
/-- MIN (R198). -/
def execMin (c : CoreId) (f : FmtR) : State → Out := lift (scalarRR c f (fun a b => if BitVec.slt b a then b else a))
/-- MAX (R198). -/
def execMax (c : CoreId) (f : FmtR) : State → Out := lift (scalarRR c f (fun a b => if BitVec.slt a b then b else a))

/-- CLZ (R198). -/
def execClz (c : CoreId) (f : FmtR) : State → Out :=
  lift (issue1 c f.guard (f.b != 0 || f.c != 0 || f.fn != 0 || f.x != 0) true [.s f.a]
    (onCore c 1 (fun x => x.wrS f.d (BitVec.ofNat 64 (leadingZeros (x.rdS f.a))))))

/-- ADDI (R197). -/
def execAddi (c : CoreId) (f : FmtI) : State → Out :=
  lift (issue1 c f.guard false true [.s f.a] (onCore c 1 (fun x => x.wrS f.d (x.rdS f.a + f.imm.signExtend 64))))

/-- LI (R193, R198). -/
def execLi (c : CoreId) (f : FmtI) (literal : Word) : State → Out :=
  lift (issue c ⟨f.guard, 2, f.a != 0 || f.imm != 0, true, []⟩ 2 (onCore c 2 (fun x => x.wrS f.d literal)))

/-- SEL (R198). -/
def execSel (c : CoreId) (f : FmtR) : State → Out :=
  lift (issue1 c f.guard (pnBad f.c || f.fn != 0 || f.x != 0) true [.s f.a, .s f.b]
    (onCore c 1 (fun x => x.wrS f.d (if x.rdP (pn f.c) then x.rdS f.a else x.rdS f.b))))

/-- CMP (R198). -/
def execCmp (c : CoreId) (f : FmtR) : State → Out :=
  lift (issue1 c f.guard (pnBad f.d || f.c != 0 || f.x != 0 || (cmpCond f.fn 0 0).isNone) true [.s f.a, .s f.b]
    (onCore c 1 (fun x => x.wrP (pn f.d) ((cmpCond f.fn (x.rdS f.a) (x.rdS f.b)).getD false))))

/-- PLOG (R198). -/
def execPlog (c : CoreId) (f : FmtR) : State → Out :=
  lift (issue1 c f.guard
    (pnBad f.d || pnBad f.a || pnBad f.b || f.c != 0 || f.x != 0 || (plogOp f.fn true true).isNone) true []
    (onCore c 1 (fun x => x.wrP (pn f.d) ((plogOp f.fn (x.rdP (pn f.a)) (x.rdP (pn f.b))).getD false))))

/-! ## Descriptors -/

/-- TDMOV (R198). -/
def execTdmov (c : CoreId) (f : FmtR) : State → Out :=
  lift (issue1 c f.guard (f.b != 0 || f.c != 0 || f.fn != 0 || f.x != 0) true [.td f.a]
    (onCore c 1 (fun x => x.wrTd f.d (x.rdTd f.a))))

/-- The identifier of a descriptor field that may be written: `STATUS` may only be read (R200). -/
def writeField (fn : BitVec 8) : Option (Nat × Nat × Bool) := if fn = 0x0C then none else descFieldId fn.toNat

/-- Puts a value into a field of a descriptor register, or faults where it does not fit (R200). -/
def putField (c : CoreId) (d : BitVec 5) (fld : Nat × Nat × Bool) (words : Nat) (v : Int) (s : State) : State :=
  if fieldFits fld.2.1 fld.2.2 v then onCore c words (fun x => x.wrTd d (fieldPut (x.rdTd d) fld.1 fld.2.1 v)) s
  else s.kill c 0x030A

/-- TDSET (R200). -/
def execTdset (c : CoreId) (f : FmtR) : State → Out :=
  lift (issue1 c f.guard (f.b != 0 || f.c != 0 || f.x != 0 || (writeField f.fn).isNone) true [.s f.a, .td f.d] (fun s =>
    let fld := (writeField f.fn).getD (0, 0, false)
    putField c f.d fld 1 (fieldOperand fld.2.2 ((s.core c).rdS f.a)) s))

/-- TDGET (R200). -/
def execTdget (c : CoreId) (f : FmtR) : State → Out :=
  lift (issue1 c f.guard (f.b != 0 || f.c != 0 || f.x != 0 || (descFieldId f.fn.toNat).isNone) true [.td f.a]
    (onCore c 1 (fun x =>
      let fld := (descFieldId f.fn.toNat).getD (0, 0, false)
      x.wrS f.d (BitVec.ofInt 64 (fieldValue (x.rdTd f.a) fld.1 fld.2.1 fld.2.2)))))

/-- TDADD: the field plus a signed scalar (R200). -/
def execTdadd (c : CoreId) (f : FmtR) : State → Out :=
  lift (issue1 c f.guard (f.b != 0 || f.c != 0 || f.x != 0 || (writeField f.fn).isNone) true [.s f.a, .td f.d] (fun s =>
    let fld := (writeField f.fn).getD (0, 0, false)
    let x := s.core c
    putField c f.d fld 1 (fieldValue (x.rdTd f.d) fld.1 fld.2.1 fld.2.2 + (x.rdS f.a).toInt) s))

/-- TDSETI (R200). -/
def execTdseti (c : CoreId) (f : FmtR) (literal : Word) : State → Out :=
  lift (issue c
    ⟨f.guard, 2, f.a != 0 || f.b != 0 || f.c != 0 || f.x != 0 || (writeField f.fn).isNone, true, [.td f.d]⟩ 2 (fun s =>
    let fld := (writeField f.fn).getD (0, 0, false)
    putField c f.d fld 2 (fieldOperand fld.2.2 literal) s))

/-! ## Special registers -/

/-- The special registers of R201; reserved numbers give none. -/
def specialReg (s : State) (c : CoreId) (k : Nat) : Option Word :=
  let n := (s.partOf c).getD 0
  let num (v : Nat) : Option Word := some (BitVec.ofNat 64 v)
  match k with
  | 0 => some s.now
  | 1 => num (s.dom n).tick
  | 2 => num (s.core c).seg
  | 3 => num (s.lcore n c)
  | 4 => num ((s.partDies n).length * s.corePer n)
  | 5 => num c.die.val
  | 6 => num n.val
  | 7 => num s.self.val
  | 8 => some (s.sliceReg n)
  | 9 => num (((s.svPart n).running.program.map (·.toNat)).getD 0)
  | 10 => num (tableAddr c.die n)
  | 11 => num (s.svPart n).running.rows.length
  | 12 => num ((s.now - (s.core c).started).toNat * 11 / 10)
  | _ => none

/-- RDSR (R201). CYCLES counts the 1.1 GHz clock over TBC (R24, log 18). -/
def execRdsr (c : CoreId) (f : FmtI) : State → Out :=
  lift (issue1 c f.guard (f.a != 0 || decide (12 < f.imm.toNat)) false []
    (fun s => onCore c 1 (fun x => x.wrS f.d ((specialReg s c f.imm.toNat).getD 0)) s))

end Sys2Proof.Machine
end

