-- ==== Sys2Proof/Machine/Spdm.lean ====
section
/-! DEFINITION. The SPDM 1.3 responder (R441, R561 to R563), and the packets of a session that carry sequence numbers (R438). The layout of its messages is that of DMTF DSP0274 1.3, which R441
names and does not restate (log 61). -/

namespace Sys2Proof.Machine

/-- The responder of a session before any request. -/
def Spdm.init : Spdm := ⟨false, false, false, [], [], []⟩

/-- The responder of a session. -/
def State.spdm (s : State) (n : Nat) : Spdm := Assoc.getD n Spdm.init s.hp.spdm

/-- Replaces the responder of a session. -/
def State.setSpdm (s : State) (n : Nat) (x : Spdm) : State := s.setHp { s.hp with spdm := Assoc.put n x s.hp.spdm }

/-- An ERROR response: its code and data. -/
def spdmError (code data : Nat) : List Byte := [0x13, 0x7F] ++ natBytes 1 code ++ natBytes 1 data

/-- Four fresh words as 32 bytes: the nonce of a response. -/
def State.nonce (s : State) : List Byte × State :=
  let a := s.fresh
  let b := a.2.fresh
  let c := b.2.fresh
  let d := c.2.fresh
  (wordBytes a.1 ++ wordBytes b.1 ++ wordBytes c.1 ++ wordBytes d.1, d.2)

/-- A response, and the state after it. -/
abbrev SpdmOut := List Byte × State

/-- Whether a request has the version agreed; all but GET_VERSION carry 1.3. -/
def spdmOk (msg : List Byte) (len : Nat) : Bool := decide (msg.head? = some 0x13) && decide (len ≤ msg.length)

/-- The error of a request that is not well formed. -/
def spdmBad (msg : List Byte) : List Byte := if msg.head? = some 0x13 then spdmError 1 0 else spdmError 0x41 0

/-- Appends a request and its response to the transcript that a signature covers. -/
def State.record (s : State) (n : Nat) (msg rsp : List Byte) : State :=
  let x := s.spdm n
  s.setSpdm n { x with transcript := x.transcript ++ msg ++ rsp }

/-- VERSION: only 1.3; the negotiation starts anew. -/
def State.answerVersion (s : State) (n : Nat) (msg : List Byte) : SpdmOut :=
  if msg.length < 4 ∨ msg.head? ≠ some 0x10 then (spdmError 0x41 0, s)
  else
    let rsp : List Byte := [0x10, 0x04, 0, 0, 0, 1] ++ natBytes 2 0x1300
    (rsp, s.setSpdm n { Spdm.init with version := true, transcript := msg ++ rsp })

/-- CAPABILITIES: certificates, challenge, signed measurements and chunks; CT_EXPONENT and the largest message are free values. -/
def State.answerCapabilities (s : State) (n : Nat) (msg : List Byte) : SpdmOut :=
  if !spdmOk msg 20 then (spdmBad msg, s)
  else if !(s.spdm n).version then (spdmError 4 0, s)
  else
    let r := s.fresh
    let k := ((s.session n).map (·.maxLen)).getD 1024
    let rsp : List Byte := [0x13, 0x61, 0, 0, 0] ++ natBytes 1 (bits r.1 7 0) ++ [0, 0] ++ natBytes 4 0x20016 ++ natBytes 4 k
      ++ natBytes 4 (max k (bits r.1 63 32))
    let x := r.2.spdm n
    (rsp, r.2.setSpdm n { x with caps := true, algs := false, transcript := x.transcript ++ msg ++ rsp })

/-- ALGORITHMS: DMTF measurements, SHA-384 for both uses, ECDSA P-384, as far as the request offers them. -/
def State.answerAlgorithms (s : State) (n : Nat) (msg : List Byte) : SpdmOut :=
  if !spdmOk msg 32 then (spdmBad msg, s)
  else if !(s.spdm n).caps then (spdmError 4 0, s)
  else
    let asym := if fieldNat msg 8 4 / 0x80 % 2 = 1 then 0x80 else 0
    let hash := if fieldNat msg 12 4 / 2 % 2 = 1 then 2 else 0
    let spec := fieldNat msg 6 1 % 2
    let rsp : List Byte := [0x13, 0x63, 0, 0] ++ natBytes 2 36 ++ natBytes 1 spec ++ [0] ++ natBytes 4 (4 * spec) ++ natBytes 4 asym
      ++ natBytes 4 hash ++ List.replicate 12 0 ++ [0, 0, 0, 0]
    let x := s.spdm n
    (rsp, s.setSpdm n { x with algs := decide (asym ≠ 0 ∧ hash ≠ 0), transcript := x.transcript ++ msg ++ rsp })

/-- DIGESTS: slot 0. -/
def State.answerDigests (s : State) (n : Nat) (msg : List Byte) : SpdmOut :=
  if !spdmOk msg 4 then (spdmBad msg, s)
  else if !(s.spdm n).algs then (spdmError 4 0, s)
  else
    let rsp : List Byte := [0x13, 0x01, 1, 1] ++ sha384 s.certificates
    (rsp, s.record n msg rsp)

/-- CERTIFICATE: a portion of the chain of slot 0 (R561). -/
def State.answerCertificate (s : State) (n : Nat) (msg : List Byte) : SpdmOut :=
  let c := s.certificates
  let off := fieldNat msg 4 2
  if !spdmOk msg 8 then (spdmBad msg, s)
  else if !(s.spdm n).algs then (spdmError 4 0, s)
  else if fieldNat msg 2 1 ≠ 0 ∨ c.length < off then (spdmError 1 0, s)
  else
    let k := min (fieldNat msg 6 2) (c.length - off)
    let rsp : List Byte := [0x13, 0x02, 0, 0] ++ natBytes 2 k ++ natBytes 2 (c.length - off - k) ++ sub c off k
    (rsp, s.record n msg rsp)

/-- The signature of the ALIAS ECDSA key over the transcript. -/
def State.spdmSign (s : State) (n : Nat) (msg rsp : List Byte) : List Byte :=
  (List.range 96).map (Config.signByte s.aliasKey ((s.spdm n).transcript ++ msg ++ rsp))

/-- A measurement in DMTF measurement-block form (R563); the type byte of its value is open (log 61). -/
def State.measBlock (s : State) (k : Nat) : List Byte :=
  natBytes 1 k ++ [1] ++ natBytes 2 51 ++ [Config.recordByte 100 k 0] ++ natBytes 2 48 ++ s.measurement k

/-- All measurement blocks. -/
def State.measBlocks (s : State) : List Byte := (List.range 11).flatMap (fun k => s.measBlock (k + 1))

/-- CHALLENGE_AUTH, signed by the ALIAS key (R550, R562). -/
def State.answerChallenge (s : State) (n : Nat) (msg : List Byte) : SpdmOut :=
  let typ := fieldNat msg 3 1
  if !spdmOk msg 44 then (spdmBad msg, s)
  else if !(s.spdm n).algs then (spdmError 4 0, s)
  else if fieldNat msg 2 1 ≠ 0 ∨ (typ ≠ 0 ∧ typ ≠ 1 ∧ typ ≠ 0xFF) then (spdmError 1 0, s)
  else
    let r := s.nonce
    let t := r.2
    let rsp : List Byte := [0x13, 0x03, 0, 1] ++ sha384 t.certificates ++ r.1 ++ (if typ = 0 then [] else sha384 t.measBlocks) ++ [0, 0]
      ++ sub msg 36 8
    let x := t.spdm n
    (rsp ++ t.spdmSign n msg rsp, t.setSpdm n { x with transcript := [] })

/-- MEASUREMENTS (R563): the count, one block or all; signed where the request asks for it. -/
def State.answerMeasurements (s : State) (n : Nat) (msg : List Byte) : SpdmOut :=
  let signed := decide (fieldNat msg 2 1 % 2 = 1)
  let op := fieldNat msg 3 1
  if !spdmOk msg (if signed then 45 else 12) then (spdmBad msg, s)
  else if !(s.spdm n).algs then (spdmError 4 0, s)
  else if 11 < op ∧ op ≠ 0xFF then (spdmError 1 0, s)
  else
    let r := s.nonce
    let t := r.2
    let blocks := if op = 0 then [] else if op = 0xFF then t.measBlocks else t.measBlock op
    let count := if op = 0 then 0 else if op = 0xFF then 11 else 1
    let rsp : List Byte := [0x13, 0x60] ++ natBytes 1 (if op = 0 then 11 else 0) ++ [0] ++ natBytes 1 count ++ natBytes 3 blocks.length
      ++ blocks ++ r.1 ++ [0, 0] ++ sub msg (if signed then 37 else 4) 8
    if signed then
      let x := t.spdm n
      (rsp ++ t.spdmSign n msg rsp, t.setSpdm n { x with transcript := [] })
    else (rsp, t.record n msg rsp)

/-- The response to a request by its code; every other request is unsupported (R562). -/
def State.answer (s : State) (n : Nat) (msg : List Byte) : SpdmOut :=
  match fieldNat msg 1 1 with
  | 0x84 => s.answerVersion n msg
  | 0xE1 => s.answerCapabilities n msg
  | 0xE3 => s.answerAlgorithms n msg
  | 0x81 => s.answerDigests n msg
  | 0x82 => s.answerCertificate n msg
  | 0x83 => s.answerChallenge n msg
  | 0xE0 => s.answerMeasurements n msg
  | k => (spdmError 7 k, s)

/-- Sends a response: one longer than the agreed MAX_LEN is kept for CHUNK_GET, with the ERROR LargeResponse (R441). -/
def State.spdmReply (n : Nat) (r : SpdmOut) : State :=
  let t := r.2
  let k := ((t.session n).map (·.maxLen)).getD 1024
  let large := decide (k < r.1.length)
  let bs := if large then spdmError 0x0F 0 ++ [1] else r.1
  let t1 := if large then t.setSpdm n { t.spdm n with outbound := r.1 } else t
  (t1.send (.spdm n bs)).sessionSend n [(.spdm, bs)]

/-- A request reaches the responder of an established session (R441). -/
def State.spdmIn (s : State) (n : Nat) (f : State → SpdmOut) : State :=
  s.when ((s.session n).any (·.established)) (fun t => State.spdmReply n (f t))

/-- CHUNK_SEND_ACK: the chunk is kept; the last one completes the large request, whose response the answer carries. -/
def State.answerChunk (s : State) (n : Nat) (msg : List Byte) : SpdmOut :=
  let first := decide (fieldNat msg 4 2 = 0)
  let size := fieldNat msg 8 4
  let data := sub msg (if first then 16 else 12) size
  let x := s.spdm n
  if !spdmOk msg 12 || decide (data.length ≠ size) then (spdmBad msg, s)
  else
    let whole := (if first then [] else x.inbound) ++ data
    let ack : List Byte := [0x13, 0x05, 0] ++ sub msg 3 1 ++ sub msg 4 2
    if fieldNat msg 2 1 % 2 = 0 then (ack, s.setSpdm n { x with inbound := whole })
    else
      let r := (s.setSpdm n { x with inbound := [] }).answer n whole
      (ack ++ r.1, r.2)

/-- CHUNK_RESPONSE: the next part of the large response. -/
def State.answerChunkGet (s : State) (n : Nat) (msg : List Byte) : SpdmOut :=
  let x := s.spdm n
  let k := ((s.session n).map (·.maxLen)).getD 1024
  let seqNo := fieldNat msg 4 2
  if !spdmOk msg 6 then (spdmBad msg, s)
  else if x.outbound.isEmpty then (spdmError 4 0, s)
  else
    let part := k - 16
    let off := seqNo * part
    let data := sub x.outbound off part
    let last := decide (x.outbound.length ≤ off + part)
    let size := if seqNo = 0 then natBytes 4 x.outbound.length else []
    let rsp : List Byte := [0x13, 0x06] ++ natBytes 1 (bitN last) ++ sub msg 3 1 ++ sub msg 4 2 ++ [0, 0] ++ natBytes 4 data.length
      ++ size ++ data
    (rsp, if last then s.setSpdm n { x with outbound := [] } else s)

/-! ## The requests -/

/-- Answers a message of any request code: what a packet held early does once it is next (R438, R562). -/
def State.spdmTake (n : Nat) (msg : List Byte) (s : State) : State :=
  s.spdmIn n (fun t =>
    match fieldNat msg 1 1 with
    | 0x85 => t.answerChunk n msg
    | 0x86 => t.answerChunkGet n msg
    | _ => t.answer n msg)

/-- An SPDM packet of a session comes in, with the answer of its request (R438, R441). -/
def State.spdmPacket (s : State) (h : BrosinHdr) (msg : List Byte) (f : State → Nat → List Byte → SpdmOut) : State :=
  s.sequenced (fun n m t => t.spdmIn n (fun u => f u n m)) State.spdmTake h .spdm msg

/-- DATA (R438, R442). -/
def execData (h : BrosinHdr) (payload : List Byte) : State → Out :=
  lift (fun s => s.sequenced State.spdmTake State.spdmTake h .data payload)

/-- NET (R455, R458). -/
def execNet (h : BrosinHdr) (payload : List Byte) : State → Out :=
  lift (fun s => s.sequenced State.spdmTake State.spdmTake h .net payload)

/-- GET_VERSION (R562). -/
def execGetVersion (h : BrosinHdr) (msg : List Byte) : State → Out := lift (fun s => s.spdmPacket h msg State.answerVersion)

/-- GET_CAPABILITIES (R562). -/
def execGetCapabilities (h : BrosinHdr) (msg : List Byte) : State → Out := lift (fun s => s.spdmPacket h msg State.answerCapabilities)

/-- NEGOTIATE_ALGORITHMS (R562). -/
def execNegotiateAlgorithms (h : BrosinHdr) (msg : List Byte) : State → Out := lift (fun s => s.spdmPacket h msg State.answerAlgorithms)

/-- GET_DIGESTS (R562). -/
def execGetDigests (h : BrosinHdr) (msg : List Byte) : State → Out := lift (fun s => s.spdmPacket h msg State.answerDigests)

/-- GET_CERTIFICATE (R561, R562). -/
def execGetCertificate (h : BrosinHdr) (msg : List Byte) : State → Out := lift (fun s => s.spdmPacket h msg State.answerCertificate)

/-- CHALLENGE (R562). -/
def execChallenge (h : BrosinHdr) (msg : List Byte) : State → Out := lift (fun s => s.spdmPacket h msg State.answerChallenge)

/-- GET_MEASUREMENTS (R563). -/
def execGetMeasurements (h : BrosinHdr) (msg : List Byte) : State → Out := lift (fun s => s.spdmPacket h msg State.answerMeasurements)

/-- CHUNK_SEND (R562). -/
def execChunkSend (h : BrosinHdr) (msg : List Byte) : State → Out := lift (fun s => s.spdmPacket h msg State.answerChunk)

/-- CHUNK_GET (R562): its response fits a packet. -/
def execChunkGet (h : BrosinHdr) (msg : List Byte) : State → Out := lift (fun s => s.spdmPacket h msg State.answerChunkGet)

/-- Any other request: UnsupportedRequest with the request's code (R562). -/
def execSpdmUnsupportedRequest (h : BrosinHdr) (msg : List Byte) : State → Out :=
  lift (fun s => s.spdmPacket h msg (fun t _ m => (spdmError 7 (fieldNat m 1 1), t)))

end Sys2Proof.Machine
end

