-- ==== Sys2Proof/Machine/Dispatch.lean ====
section
/-! DEFINITION. One arm per command. -/

namespace Sys2Proof.Machine

def exec (i : Instr) (s : State) : Host.Outcome State Fault Refusal :=
  match i with
  | .registerWrite addr value => Sys2Proof.Machine.execRegisterWrite addr value s
  | .domEnable n => Sys2Proof.Machine.execDomEnable n s
  | .domDisable n => Sys2Proof.Machine.execDomDisable n s
  | .mxResidueInject k value => Sys2Proof.Machine.execMxResidueInject k value s
  | .lxQstatClear k q value => Sys2Proof.Machine.execLxQstatClear k q value s
  | .mxCtrClear k value => Sys2Proof.Machine.execMxCtrClear k value s
  | .vxCtrClear k value => Sys2Proof.Machine.execVxCtrClear k value s
  | .txCtrClear k value => Sys2Proof.Machine.execTxCtrClear k value s
  | .lxCtrClear k value => Sys2Proof.Machine.execLxCtrClear k value s
  | .exCtrClear die value => Sys2Proof.Machine.execExCtrClear die value s
  | .svCtrClear die value => Sys2Proof.Machine.execSvCtrClear die value s
  | .svPCtrClear die n value => Sys2Proof.Machine.execSvPCtrClear die n value s
  | .kvCtrClear die value => Sys2Proof.Machine.execKvCtrClear die value s
  | .memCtrClear value => Sys2Proof.Machine.execMemCtrClear value s
  | .cxlCtrClear p value => Sys2Proof.Machine.execCxlCtrClear p value s
  | .pnCtrClear die value => Sys2Proof.Machine.execPnCtrClear die value s
  | .fabCtrClear value => Sys2Proof.Machine.execFabCtrClear value s
  | .ceCtrClear p value => Sys2Proof.Machine.execCeCtrClear p value s
  | .hpCtrClear value => Sys2Proof.Machine.execHpCtrClear value s
  | .nxCtrClear value => Sys2Proof.Machine.execNxCtrClear value s
  | .arbCtrClear value => Sys2Proof.Machine.execArbCtrClear value s
  | .intCtrClear value => Sys2Proof.Machine.execIntCtrClear value s
  | .derCtrClear value => Sys2Proof.Machine.execDerCtrClear value s
  | .pwrCtrClear value => Sys2Proof.Machine.execPwrCtrClear value s
  | .fwlCtrClear value => Sys2Proof.Machine.execFwlCtrClear value s
  | .memCtrlWrite value => Sys2Proof.Machine.execMemCtrlWrite value s
  | .memIlvSizeWrite value => Sys2Proof.Machine.execMemIlvSizeWrite value s
  | .memClearDone => Sys2Proof.Machine.execMemClearDone s
  | .pnSizeWrite die value => Sys2Proof.Machine.execPnSizeWrite die value s
  | .pnPQuotaWrite die n value => Sys2Proof.Machine.execPnPQuotaWrite die n value s
  | .fabPortRetrain p value => Sys2Proof.Machine.execFabPortRetrain p value s
  | .fabPortCtrlWrite p value => Sys2Proof.Machine.execFabPortCtrlWrite p value s
  | .pwrCapWrite i3c value => Sys2Proof.Machine.execPwrCapWrite i3c value s
  | .pwrHeartbeatWrite value => Sys2Proof.Machine.execPwrHeartbeatWrite value s
  | .pwrHbCtrlWrite value => Sys2Proof.Machine.execPwrHbCtrlWrite value s
  | .timeSyncSend p => Sys2Proof.Machine.execTimeSyncSend p s
  | .timeSync p time t1 t2 t3 bound => Sys2Proof.Machine.execTimeSync p time t1 t2 t3 bound s
  | .tbUnlocked bound => Sys2Proof.Machine.execTbUnlocked bound s
  | .tbPathFail => Sys2Proof.Machine.execTbPathFail s
  | .ptpSync hostTime => Sys2Proof.Machine.execPtpSync hostTime s
  | .ppsOutPulse => Sys2Proof.Machine.execPpsOutPulse s
  | .ppsInEdge => Sys2Proof.Machine.execPpsInEdge s
  | .tickStart n => Sys2Proof.Machine.execTickStart n s
  | .voteCast n => Sys2Proof.Machine.execVoteCast n s
  | .waitFrameSend n => Sys2Proof.Machine.execWaitFrameSend n s
  | .vote m => Sys2Proof.Machine.execVote m s
  | .wait m => Sys2Proof.Machine.execWait m s
  | .pass m => Sys2Proof.Machine.execPass m s
  | .retract m => Sys2Proof.Machine.execRetract m s
  | .retractAck m => Sys2Proof.Machine.execRetractAck m s
  | .abort m => Sys2Proof.Machine.execAbort m s
  | .commit m => Sys2Proof.Machine.execCommit m s
  | .commitApply n => Sys2Proof.Machine.execCommitApply n s
  | .silentTimeout n silent => Sys2Proof.Machine.execSilentTimeout n silent s
  | .rejoinTimeout n => Sys2Proof.Machine.execRejoinTimeout n s
  | .masterFailover n => Sys2Proof.Machine.execMasterFailover n s
  | .settings m d => Sys2Proof.Machine.execSettings m d s
  | .admissionClose n => Sys2Proof.Machine.execAdmissionClose n s
  | .nop c f => Sys2Proof.Machine.execNop c f s
  | .br c f => Sys2Proof.Machine.execBr c f s
  | .call c f => Sys2Proof.Machine.execCall c f s
  | .ret c f => Sys2Proof.Machine.execRet c f s
  | .loop c f => Sys2Proof.Machine.execLoop c f s
  | .loopw c f => Sys2Proof.Machine.execLoopw c f s
  | .breakLoop c f => Sys2Proof.Machine.execBreakLoop c f s
  | .segend c f => Sys2Proof.Machine.execSegend c f s
  | .stepend c f => Sys2Proof.Machine.execStepend c f s
  | .trap c f => Sys2Proof.Machine.execTrap c f s
  | .illegalOpcode c w => Sys2Proof.Machine.execIllegalOpcode c w s
  | .add c f => Sys2Proof.Machine.execAdd c f s
  | .sub c f => Sys2Proof.Machine.execSub c f s
  | .mul c f => Sys2Proof.Machine.execMul c f s
  | .mulh c f => Sys2Proof.Machine.execMulh c f s
  | .and c f => Sys2Proof.Machine.execAnd c f s
  | .or c f => Sys2Proof.Machine.execOr c f s
  | .xor c f => Sys2Proof.Machine.execXor c f s
  | .shl c f => Sys2Proof.Machine.execShl c f s
  | .shr c f => Sys2Proof.Machine.execShr c f s
  | .sra c f => Sys2Proof.Machine.execSra c f s
  | .min c f => Sys2Proof.Machine.execMin c f s
  | .max c f => Sys2Proof.Machine.execMax c f s
  | .clz c f => Sys2Proof.Machine.execClz c f s
  | .addi c f => Sys2Proof.Machine.execAddi c f s
  | .li c f literal => Sys2Proof.Machine.execLi c f literal s
  | .sel c f => Sys2Proof.Machine.execSel c f s
  | .cmp c f => Sys2Proof.Machine.execCmp c f s
  | .plog c f => Sys2Proof.Machine.execPlog c f s
  | .ld c f => Sys2Proof.Machine.execLd c f s
  | .st c f => Sys2Proof.Machine.execSt c f s
  | .atom c f => Sys2Proof.Machine.execAtom c f s
  | .rdsr c f => Sys2Proof.Machine.execRdsr c f s
  | .waitv c f => Sys2Proof.Machine.execWaitv c f s
  | .waitvPoll c => Sys2Proof.Machine.execWaitvPoll c s
  | .tdld c f => Sys2Proof.Machine.execTdld c f s
  | .tdst c f => Sys2Proof.Machine.execTdst c f s
  | .tdmov c f => Sys2Proof.Machine.execTdmov c f s
  | .tdset c f => Sys2Proof.Machine.execTdset c f s
  | .tdget c f => Sys2Proof.Machine.execTdget c f s
  | .tdadd c f => Sys2Proof.Machine.execTdadd c f s
  | .tdseti c f literal => Sys2Proof.Machine.execTdseti c f literal s
  | .qopen c f => Sys2Proof.Machine.execQopen c f s
  | .qclose c f => Sys2Proof.Machine.execQclose c f s
  | .qsync c f => Sys2Proof.Machine.execQsync c f s
  | .qstat c f => Sys2Proof.Machine.execQstat c f s
  | .streamStall c st => Sys2Proof.Machine.execStreamStall c st s
  | .waitLimit c => Sys2Proof.Machine.execWaitLimit c s
  | .mxld c f => Sys2Proof.Machine.execMxld c f s
  | .mxLoadComplete c bank => Sys2Proof.Machine.execMxLoadComplete c bank s
  | .mxrun c f => Sys2Proof.Machine.execMxrun c f s
  | .mxout c f => Sys2Proof.Machine.execMxout c f s
  | .mxsave c f => Sys2Proof.Machine.execMxsave c f s
  | .mxrst c f => Sys2Proof.Machine.execMxrst c f s
  | .mxwalk c f => Sys2Proof.Machine.execMxwalk c f s
  | .vxFp32Op c f => Sys2Proof.Machine.execVxFp32Op c f s
  | .vxInt32Op c f => Sys2Proof.Machine.execVxInt32Op c f s
  | .vxTranscendental c f => Sys2Proof.Machine.execVxTranscendental c f s
  | .vxRowReduction c f => Sys2Proof.Machine.execVxRowReduction c f s
  | .vxCvt c f => Sys2Proof.Machine.execVxCvt c f s
  | .vxLadd c f => Sys2Proof.Machine.execVxLadd c f s
  | .quant c f => Sys2Proof.Machine.execQuant c f s
  | .dequant c f => Sys2Proof.Machine.execDequant c f s
  | .convert c f => Sys2Proof.Machine.execConvert c f s
  | .transpose c f => Sys2Proof.Machine.execTranspose c f s
  | .gather c f => Sys2Proof.Machine.execGather c f s
  | .scatter c f => Sys2Proof.Machine.execScatter c f s
  | .tld c f => Sys2Proof.Machine.execTld c f s
  | .tst c f => Sys2Proof.Machine.execTst c f s
  | .route c f => Sys2Proof.Machine.execRoute c f s
  | .dispatch c f => Sys2Proof.Machine.execDispatch c f s
  | .waitin c f => Sys2Proof.Machine.execWaitin c f s
  | .returnRows c f => Sys2Proof.Machine.execReturnRows c f s
  | .combine c f => Sys2Proof.Machine.execCombine c f s
  | .exQuery c f => Sys2Proof.Machine.execExQuery c f s
  | .countRecord n x => Sys2Proof.Machine.execCountRecord n x s
  | .dispatchSegment n x => Sys2Proof.Machine.execDispatchSegment n x s
  | .returnSegment n x => Sys2Proof.Machine.execReturnSegment n x s
  | .shipSegment n x => Sys2Proof.Machine.execShipSegment n x s
  | .exCountTimeout die n => Sys2Proof.Machine.execExCountTimeout die n s
  | .exDataTimeout die n => Sys2Proof.Machine.execExDataTimeout die n s
  | .alloc c f => Sys2Proof.Machine.execAlloc c f s
  | .kvPage c f => Sys2Proof.Machine.execKvPage c f s
  | .draftsync c f => Sys2Proof.Machine.execDraftsync c f s
  | .yield c f => Sys2Proof.Machine.execYield c f s
  | .kvPageCopyDone die n entry => Sys2Proof.Machine.execKvPageCopyDone die n entry s
  | .sample c f => Sys2Proof.Machine.execSample c f s
  | .stopchk c f => Sys2Proof.Machine.execStopchk c f s
  | .claim c f => Sys2Proof.Machine.execClaim c f s
  | .fence c f => Sys2Proof.Machine.execFence c f s
  | .bar c f => Sys2Proof.Machine.execBar c f s
  | .allreduceSum c f => Sys2Proof.Machine.execAllreduceSum c f s
  | .reduceSum c f => Sys2Proof.Machine.execReduceSum c f s
  | .reduceScatterSum c f => Sys2Proof.Machine.execReduceScatterSum c f s
  | .allreduceMax c f => Sys2Proof.Machine.execAllreduceMax c f s
  | .allgather c f => Sys2Proof.Machine.execAllgather c f s
  | .broadcast c f => Sys2Proof.Machine.execBroadcast c f s
  | .barrier c f => Sys2Proof.Machine.execBarrier c f s
  | .cwait c f => Sys2Proof.Machine.execCwait c f s
  | .digest c f => Sys2Proof.Machine.execDigest c f s
  | .audb c f => Sys2Proof.Machine.execAudb c f s
  | .aude c f => Sys2Proof.Machine.execAude c f s
  | .memScrub unit bad => Sys2Proof.Machine.execMemScrub unit bad s
  | .frameRetireCopyDone md frame => Sys2Proof.Machine.execFrameRetireCopyDone md frame s
  | .cxlTrained p dev => Sys2Proof.Machine.execCxlTrained p dev s
  | .cxlLinkDown p => Sys2Proof.Machine.execCxlLinkDown p s
  | .cxlTimeout p user => Sys2Proof.Machine.execCxlTimeout p user s
  | .pnFillComplete die => Sys2Proof.Machine.execPnFillComplete die s
  | .tcEpochEnd => Sys2Proof.Machine.execTcEpochEnd s
  | .tcCopyDone frame => Sys2Proof.Machine.execTcCopyDone frame s
  | .tcHitFallback frame => Sys2Proof.Machine.execTcHitFallback frame s
  | .modelLoad f => Sys2Proof.Machine.execModelLoad f s
  | .manifestReceive m manifest timeout => Sys2Proof.Machine.execManifestReceive m manifest timeout s
  | .report m version shard => Sys2Proof.Machine.execReport m version shard s
  | .shardFetchStart n version shard => Sys2Proof.Machine.execShardFetchStart n version shard s
  | .shardVerify n version shard bytes => Sys2Proof.Machine.execShardVerify n version shard bytes s
  | .shardFetchTimeout n version shard => Sys2Proof.Machine.execShardFetchTimeout n version shard s
  | .shardRetryTimer n version shard => Sys2Proof.Machine.execShardRetryTimer n version shard s
  | .shardResendRequest n version shard target => Sys2Proof.Machine.execShardResendRequest n version shard target s
  | .modelActivate f => Sys2Proof.Machine.execModelActivate f s
  | .modelDrop f => Sys2Proof.Machine.execModelDrop f s
  | .modelRepair f => Sys2Proof.Machine.execModelRepair f s
  | .modelQuery f => Sys2Proof.Machine.execModelQuery f s
  | .laneSerWindow p lane count => Sys2Proof.Machine.execLaneSerWindow p lane count s
  | .laneLockLoss p lane => Sys2Proof.Machine.execLaneLockLoss p lane s
  | .laneCtl p lane spare x => Sys2Proof.Machine.execLaneCtl p lane spare x s
  | .laneMoveTimeout p => Sys2Proof.Machine.execLaneMoveTimeout p s
  | .dataFlit p fl => Sys2Proof.Machine.execDataFlit p fl s
  | .nak p fl => Sys2Proof.Machine.execNak p fl s
  | .idleFlit p fl => Sys2Proof.Machine.execIdleFlit p fl s
  | .linkNakLimit p => Sys2Proof.Machine.execLinkNakLimit p s
  | .linkRxTimeout p => Sys2Proof.Machine.execLinkRxTimeout p s
  | .portTrain p => Sys2Proof.Machine.execPortTrain p s
  | .trainStageComplete p found => Sys2Proof.Machine.execTrainStageComplete p found s
  | .trainStageTimeout p => Sys2Proof.Machine.execTrainStageTimeout p s
  | .ident p fl => Sys2Proof.Machine.execIdent p fl s
  | .fabricMap f => Sys2Proof.Machine.execFabricMap f s
  | .linkState m seqNo ports => Sys2Proof.Machine.execLinkState m seqNo ports s
  | .linkStateTimer => Sys2Proof.Machine.execLinkStateTimer s
  | .read pk => Sys2Proof.Machine.execRead pk s
  | .write pk => Sys2Proof.Machine.execWrite pk s
  | .atomAdd pk => Sys2Proof.Machine.execAtomAdd pk s
  | .atomMax pk => Sys2Proof.Machine.execAtomMax pk s
  | .atomCas pk => Sys2Proof.Machine.execAtomCas pk s
  | .atomSwap pk => Sys2Proof.Machine.execAtomSwap pk s
  | .atomLadd pk => Sys2Proof.Machine.execAtomLadd pk s
  | .readResp pk => Sys2Proof.Machine.execReadResp pk s
  | .writeAck pk => Sys2Proof.Machine.execWriteAck pk s
  | .atomResp pk => Sys2Proof.Machine.execAtomResp pk s
  | .collPart pk => Sys2Proof.Machine.execCollPart pk s
  | .collResult pk => Sys2Proof.Machine.execCollResult pk s
  | .fabDeadTimeout tag => Sys2Proof.Machine.execFabDeadTimeout tag s
  | .fabHeldTimeout tag => Sys2Proof.Machine.execFabHeldTimeout tag s
  | .ceCollTimeout n group inst => Sys2Proof.Machine.execCeCollTimeout n group inst s
  | .hostLaneFail lane => Sys2Proof.Machine.execHostLaneFail lane s
  | .arpRequest target => Sys2Proof.Machine.execArpRequest target s
  | .neighborSolicitation target => Sys2Proof.Machine.execNeighborSolicitation target s
  | .echoRequest v6 dst payload => Sys2Proof.Machine.execEchoRequest v6 dst payload s
  | .mkaFrame agreed => Sys2Proof.Machine.execMkaFrame agreed s
  | .openReq src v4 h payload => Sys2Proof.Machine.execOpenReq src v4 h payload s
  | .openOk h payload => Sys2Proof.Machine.execOpenOk h payload s
  | .close h payload => Sys2Proof.Machine.execClose h payload s
  | .data h payload => Sys2Proof.Machine.execData h payload s
  | .ack h payload => Sys2Proof.Machine.execAck h payload s
  | .keepalive h payload => Sys2Proof.Machine.execKeepalive h payload s
  | .eventAck h payload => Sys2Proof.Machine.execEventAck h payload s
  | .net h payload => Sys2Proof.Machine.execNet h payload s
  | .ackTimer session => Sys2Proof.Machine.execAckTimer session s
  | .brosinRto session => Sys2Proof.Machine.execBrosinRto session s
  | .keepaliveTimer session => Sys2Proof.Machine.execKeepaliveTimer session s
  | .sessionTimeout session => Sys2Proof.Machine.execSessionTimeout session s
  | .hostNop f => Sys2Proof.Machine.execHostNop f s
  | .unknownCommand cmd f => Sys2Proof.Machine.execUnknownCommand cmd f s
  | .submit f => Sys2Proof.Machine.execSubmit f s
  | .cancel f => Sys2Proof.Machine.execCancel f s
  | .forward m f => Sys2Proof.Machine.execForward m f s
  | .intake m cmds => Sys2Proof.Machine.execIntake m cmds s
  | .resultRead f => Sys2Proof.Machine.execResultRead f s
  | .resultAck f => Sys2Proof.Machine.execResultAck f s
  | .programInstall f => Sys2Proof.Machine.execProgramInstall f s
  | .programRemove f => Sys2Proof.Machine.execProgramRemove f s
  | .pnLoad f => Sys2Proof.Machine.execPnLoad f s
  | .pnPin f => Sys2Proof.Machine.execPnPin f s
  | .pnUnpin f => Sys2Proof.Machine.execPnUnpin f s
  | .pnDrop f => Sys2Proof.Machine.execPnDrop f s
  | .pnQuery f => Sys2Proof.Machine.execPnQuery f s
  | .memRead f => Sys2Proof.Machine.execMemRead f s
  | .memWrite f => Sys2Proof.Machine.execMemWrite f s
  | .regRead f => Sys2Proof.Machine.execRegRead f s
  | .regWrite f => Sys2Proof.Machine.execRegWrite f s
  | .channelOpen f => Sys2Proof.Machine.execChannelOpen f s
  | .channelClose f => Sys2Proof.Machine.execChannelClose f s
  | .getVersion h msg => Sys2Proof.Machine.execGetVersion h msg s
  | .getCapabilities h msg => Sys2Proof.Machine.execGetCapabilities h msg s
  | .negotiateAlgorithms h msg => Sys2Proof.Machine.execNegotiateAlgorithms h msg s
  | .getDigests h msg => Sys2Proof.Machine.execGetDigests h msg s
  | .getCertificate h msg => Sys2Proof.Machine.execGetCertificate h msg s
  | .challenge h msg => Sys2Proof.Machine.execChallenge h msg s
  | .getMeasurements h msg => Sys2Proof.Machine.execGetMeasurements h msg s
  | .chunkSend h msg => Sys2Proof.Machine.execChunkSend h msg s
  | .chunkGet h msg => Sys2Proof.Machine.execChunkGet h msg s
  | .spdmUnsupportedRequest h msg => Sys2Proof.Machine.execSpdmUnsupportedRequest h msg s
  | .arbWindowEnd a load => Sys2Proof.Machine.execArbWindowEnd a load s
  | .agentDeadline a agent => Sys2Proof.Machine.execAgentDeadline a agent s
  | .partQuery f => Sys2Proof.Machine.execPartQuery f s
  | .preempt f => Sys2Proof.Machine.execPreempt f s
  | .preemptHoldEnd n => Sys2Proof.Machine.execPreemptHoldEnd n s
  | .replayStart die => Sys2Proof.Machine.execReplayStart die s
  | .replayComplete die digest => Sys2Proof.Machine.execReplayComplete die digest s
  | .scanStart die => Sys2Proof.Machine.execScanStart die s
  | .scanComplete die pass => Sys2Proof.Machine.execScanComplete die pass s
  | .watchExpire k => Sys2Proof.Machine.execWatchExpire k s
  | .spareScanDue k => Sys2Proof.Machine.execSpareScanDue k s
  | .rotateDue die => Sys2Proof.Machine.execRotateDue die s
  | .pllLockLoss d => Sys2Proof.Machine.execPllLockLoss d s
  | .intSnapshotRead f => Sys2Proof.Machine.execIntSnapshotRead f s
  | .intSnapshotClear f => Sys2Proof.Machine.execIntSnapshotClear f s
  | .derQuery f => Sys2Proof.Machine.execDerQuery f s
  | .derQuarantine f => Sys2Proof.Machine.execDerQuarantine f s
  | .derScan f => Sys2Proof.Machine.execDerScan f s
  | .inputRise => Sys2Proof.Machine.execInputRise s
  | .inputLow => Sys2Proof.Machine.execInputLow s
  | .inputFail => Sys2Proof.Machine.execInputFail s
  | .inputHigh => Sys2Proof.Machine.execInputHigh s
  | .pwrEnRise straps => Sys2Proof.Machine.execPwrEnRise straps s
  | .pwrEnFall => Sys2Proof.Machine.execPwrEnFall s
  | .rampDownDone => Sys2Proof.Machine.execRampDownDone s
  | .staggerEnd => Sys2Proof.Machine.execStaggerEnd s
  | .modReset => Sys2Proof.Machine.execModReset s
  | .shelfAlert => Sys2Proof.Machine.execShelfAlert s
  | .shelfAlertClear => Sys2Proof.Machine.execShelfAlertClear s
  | .powerEstimate e => Sys2Proof.Machine.execPowerEstimate e s
  | .calibration measured meanE vin => Sys2Proof.Machine.execCalibration measured meanE vin s
  | .thermalSample t => Sys2Proof.Machine.execThermalSample t s
  | .heartbeatTimeout => Sys2Proof.Machine.execHeartbeatTimeout s
  | .siteUnparkDone k => Sys2Proof.Machine.execSiteUnparkDone k s
  | .pwrCap f => Sys2Proof.Machine.execPwrCap f s
  | .pwrHeartbeat f => Sys2Proof.Machine.execPwrHeartbeat f s
  | .pwrQuery f => Sys2Proof.Machine.execPwrQuery f s
  | .secEnroll f => Sys2Proof.Machine.execSecEnroll f s
  | .secChange f => Sys2Proof.Machine.execSecChange f s
  | .secQuery f => Sys2Proof.Machine.execSecQuery f s
  | .secKeyLoad f => Sys2Proof.Machine.execSecKeyLoad f s
  | .secKeyErase f => Sys2Proof.Machine.execSecKeyErase f s
  | .secRecordRead f => Sys2Proof.Machine.execSecRecordRead f s
  | .secReport f => Sys2Proof.Machine.execSecReport f s
  | .secRecordLoad f => Sys2Proof.Machine.execSecRecordLoad f s
  | .rampStageComplete r => Sys2Proof.Machine.execRampStageComplete r s
  | .bringupStageTimeout => Sys2Proof.Machine.execBringupStageTimeout s
  | .tbRoleTimeout => Sys2Proof.Machine.execTbRoleTimeout s
  | .uartStageLine => Sys2Proof.Machine.execUartStageLine s
  | .bootFwWrite f => Sys2Proof.Machine.execBootFwWrite f s
  | .bootFwActivate f => Sys2Proof.Machine.execBootFwActivate f s
  | .bootFwCommit f => Sys2Proof.Machine.execBootFwCommit f s
  | .bootResetCold f => Sys2Proof.Machine.execBootResetCold f s
  | .bootResetWarm f => Sys2Proof.Machine.execBootResetWarm f s
  | .bootPartReset f => Sys2Proof.Machine.execBootPartReset f s
  | .bootCoreReset f => Sys2Proof.Machine.execBootCoreReset f s
  | .trialReadyTimeout => Sys2Proof.Machine.execTrialReadyTimeout s
  | .trialTimeout => Sys2Proof.Machine.execTrialTimeout s
  | .i3cSetdasa addr => Sys2Proof.Machine.execI3cSetdasa addr s
  | .i3cEntdaa addr => Sys2Proof.Machine.execI3cEntdaa addr s
  | .i3cRegisterRead addr => Sys2Proof.Machine.execI3cRegisterRead addr s
  | .i3cRegisterWrite addr value => Sys2Proof.Machine.execI3cRegisterWrite addr value s
  | .i3cPrivateRead => Sys2Proof.Machine.execI3cPrivateRead s
  | .modResetNRelease => Sys2Proof.Machine.execModResetNRelease s
  | .hostPortTrained => Sys2Proof.Machine.execHostPortTrained s
  | .flashRecordWritten => Sys2Proof.Machine.execFlashRecordWritten s
  | .gddr7Refresh md device => Sys2Proof.Machine.execGddr7Refresh md device s

end Sys2Proof.Machine
end

