-- ==== Sys2Proof/Safety.lean ====
section
/-! DEFINITION. What a safe run is, in the terms the claims use. -/

namespace Sys2Proof.Machine

/-- A step that neither faults nor is refused. -/
def Completes (s : State) : Prop := ∃ t, step s = .next t

/-- A command completes on a state. -/
def Runs (i : Instr) (s : State) : Prop := ∃ t, exec i s = .next t

end Sys2Proof.Machine
end

