-- ==== Sys2Proof/Certificates/Slice0/Obligations.lean ====
section
/-! DEFINITION. The statements for the provers. Each names the rules of spec/ that it formalises; helpers that only shorten the
statements come first, under Sys2Proof.Claims. -/

namespace Sys2Proof.Claims

open Sys2Proof.Machine

/-- What an operation leaves, with the queue of the commands that wait as it was. -/
def after (f : State → State) (s : State) : State := { f s with pending := s.pending }

/-! ## The counters that each clear command names, from the register tables -/

/-- A register instance of a list, at instance `i` of its block. -/
def at1 (l : List Reg) (i : Nat) (k : RegKey) : Bool := l.contains k.reg && decide (k.i = i)

/-- A register instance of a list, at index `j` of its range. -/
def at2 (l : List Reg) (j : Nat) (k : RegKey) : Bool := l.contains k.reg && decide (k.j = j)

/-- A register of a list, whatever its instance. -/
def atAll (l : List Reg) (k : RegKey) : Bool := l.contains k.reg

/-- The value that a clear command writes and the counters that its register's row names (R154, R187 to R189, R269, R304, R305,
R349 to R351, R426, R427, R460, R461, R487, R515, R516, R547, R548). -/
def clears : Instr → Option (Word × (RegKey → Bool))
  | .mxCtrClear i v => some (v, at1 [.mxCyclesIssued, .mxCyclesSkipped, .mxCyclesStalled, .mxOutlierSpill, .mxIloReadouts,
      .mxIhiReadouts, .mxSatReadouts, .mxNanReadouts, .mxResidueErrs, .mxBallastCycles, .mxListClaims] (siteIx i))
  | .vxCtrClear i v => some (v, at1 [.vxOps, .vxTransOps, .vxSpillProducts, .vxNanOut, .vxCyclesStalled] (siteIx i))
  | .txCtrClear i v =>
    some (v, at1 [.txZeroBlocks, .txUnderBlocks, .txSatBlocks, .txNanBlocks, .txBytesIn, .txCyclesStalled] (siteIx i))
  | .lxCtrClear i v => some (v, at1 [.lxBytesLoaded, .lxBytesStored, .lxRemoteOps, .lxCyclesStalled] (siteIx i))
  | .exCtrClear d v => some (v, at1 [.exRowsSent, .exRowsReceived, .exShipsSent, .exShipBytes, .exEmptyExperts, .exRoundsExtra,
      .exNanRows] d.val)
  | .svCtrClear d v => some (v, at1 [.svRowsSampled, .svDraftsProposed, .svDraftsAccepted, .svNanRows] d.val)
  | .svPCtrClear _ n v => some (v, at2 [.svPTokens, .svPTtftMisses, .svPTbtMisses, .svPTtftMax, .svPTbtMax] n.val)
  | .kvCtrClear d v => some (v, at1 [.kvPAllocs] d.val)
  | .memCtrClear v => some (v, atAll [.memCeCount, .memUeCount, .memTcHitBytes, .memTcCopies])
  | .cxlCtrClear p v => some (v, at2 [.cxlRdBytes, .cxlWrBytes, .cxlPoisonReads, .cxlLinkDowns] p.val)
  | .pnCtrClear d v => some (v, at1 [.pnHitBytes, .pnMissBytes, .pnFillBytes, .pnEvictions, .pnInvalidations] d.val)
  | .fabCtrClear v => some (v, atAll [.fabDeadCount, .fabLateResp, .fabDiscards, .fabRouteEpoch, .fabDetours, .fabBadPackets,
      .fabFecCorrected, .fabFecUncorrected, .fabNaks, .fabTxFlits, .fabRxFlits, .fabLinkDowns])
  | .ceCtrClear p v => some (v, at1 [.ceColls, .ceBytesReduced, .ceRsatResults, .ceNanResults] p.val)
  | .hpCtrClear v =>
    some (v, atAll [.hpRxFrames, .hpTxFrames, .hpRetransmits, .hpBadFrames, .hpMacsecDrops, .hpEvReleased])
  | .nxCtrClear v => some (v, atAll [.nxSent, .nxReceived, .nxDiscarded])
  | .arbCtrClear v =>
    some (v, atAll [.arbGrants, .arbUrgent, .arbBest, .arbBack, .arbUrgentSat, .arbIdle, .arbPgrants])
  | .intCtrClear v => some (v, atAll [.intUnits, .intSampled, .intSkipped, .intReplays, .intAuditMismatches, .intResidueEvents,
      .intBallastEvents, .intInjected, .intClockEvents, .intRetracts])
  | .derCtrClear v => some (v, atAll [.derScans, .derScanFails, .derRotations])
  | .pwrCtrClear v => some (v, atAll [.pwrExcess, .pwrEmergTime, .pwrPreempts])
  | .fwlCtrClear v => some (v, atAll [.fwlBallastMj, .fwlUnheld])
  | _ => none

/-- A register whose write only stores the value (R6, R617): an RW row without an effect of its own, of no block whose writes
wait for an admission close. -/
def plain (r : Reg) : Bool :=
  decide (r.info.acc = .rw) && decide (r.info.block ≠ .sv) && decide (r.info.block ≠ .kv)
    && !([Reg.cadDomCtrl, .mxResidueInject, .memCtrl, .memIlvSize, .pnSize, .pnPQuota, .fabPortCtrl, .cxlCtrl, .hpCtrl, .pwrCap,
          .pwrHbCtrl, .memTcBase, .memTcSize, .pwrShelfCap, .pwrSafeCap].contains r)

/-- The command of its own that a write of a register is, where it has one; `i` is the site of a core station's register. -/
def actsAs (i : SiteId) (k : RegKey) (v : Word) : Option Instr :=
  let d : Fin 8 := Fin.ofNat 8 k.i
  let n : Part := Fin.ofNat 16 k.j
  match k.reg with
  | .cadDomCtrl => some (if v.getLsbD 0 then .domEnable n else .domDisable n)
  | .mxResidueInject => some (.mxResidueInject i (v &&& 0xFF01))
  | .lxQstat => some (.lxQstatClear i (Fin.ofNat 16 k.j) v)
  | .mxCtrClear => some (.mxCtrClear i v)
  | .vxCtrClear => some (.vxCtrClear i v)
  | .txCtrClear => some (.txCtrClear i v)
  | .lxCtrClear => some (.lxCtrClear i v)
  | .exCtrClear => some (.exCtrClear d v)
  | .svCtrClear => some (.svCtrClear d v)
  | .svPCtrClear => some (.svPCtrClear d n v)
  | .kvCtrClear => some (.kvCtrClear d v)
  | .memCtrClear => some (.memCtrClear v)
  | .cxlCtrClear => some (.cxlCtrClear (Fin.ofNat 4 k.j) v)
  | .pnCtrClear => some (.pnCtrClear d v)
  | .fabCtrClear => some (.fabCtrClear v)
  | .ceCtrClear => some (.ceCtrClear (Fin.ofNat 6 k.i) v)
  | .hpCtrClear => some (.hpCtrClear v)
  | .nxCtrClear => some (.nxCtrClear v)
  | .arbCtrClear => some (.arbCtrClear v)
  | .intCtrClear => some (.intCtrClear v)
  | .derCtrClear => some (.derCtrClear v)
  | .pwrCtrClear => some (.pwrCtrClear v)
  | .fwlCtrClear => some (.fwlCtrClear v)
  | .memCtrl => some (.memCtrlWrite v)
  | .memIlvSize => some (.memIlvSizeWrite v)
  | .pnSize => some (.pnSizeWrite d v)
  | .pnPQuota => some (.pnPQuotaWrite d n v)
  | .fabPortRetrain => some (.fabPortRetrain (Fin.ofNat 6 k.j) v)
  | .fabPortCtrl => some (.fabPortCtrlWrite (Fin.ofNat 6 k.j) v)
  | .pwrCap => some (.pwrCapWrite false v)
  | .pwrHeartbeat => some (.pwrHeartbeatWrite v)
  | .pwrHbCtrl => some (.pwrHbCtrlWrite (v &&& 0x1FFFFFFFF))
  | _ => none

/-- A register of a core's station, at the site it names. -/
def sited (i : SiteId) (k : RegKey) : Prop :=
  k.reg.info.block = .mx ∨ k.reg.info.block = .vx ∨ k.reg.info.block = .tx ∨ k.reg.info.block = .lx → k.i = siteIx i

end Sys2Proof.Claims

open Sys2Proof Sys2Proof.Machine Sys2Proof.Claims

/-! ## The block -/

/-- A step takes the command at the front of the queue and runs it on the state with the queue's rest. -/
def Obligations.StepRunsTheFrontCommand : Prop :=
  ∀ (c : Instr) (rest : List Instr) (s : State),
    step { s with pending := c :: rest } = exec c { s with pending := rest }

/-- With no command waiting the block idles: the model's choice that TBC then counts 1 ns where it runs (R28, log 1); while an
offset to the parent's time is left, 1 ns of it goes with the count (R29, R30, log 42). TBC never steps back. Where no port is in
IDENT, MISWIRED or VERSION_HOLD nothing else changes. -/
def Obligations.EmptyQueueCountsTheTimeBase : Prop :=
  ∀ s : State, s.pending = [] →
    (s.tb.runs = false → step s = .next s)
    ∧ (s.tb.runs = true →
        ∃ t, step s = .next t ∧ t.pending = [] ∧ t.mem = s.mem ∧ t.cores = s.cores ∧ t.doms = s.doms
          ∧ t.tb = { s.tb with tbc := t.tb.tbc, offset := t.tb.offset }
          ∧ (s.tb.offset = 0 → t.tb.tbc = s.tb.tbc + 1 ∧ t.tb.offset = 0)
          ∧ (0 < s.tb.offset → t.tb.tbc = s.tb.tbc + 2 ∧ t.tb.offset = s.tb.offset - 1)
          ∧ (s.tb.offset < 0 → t.tb.tbc = s.tb.tbc ∧ t.tb.offset = s.tb.offset + 1)
          ∧ ((∀ p, (s.port p).state ≠ .ident ∧ (s.port p).state ≠ .miswired ∧ (s.port p).state ≠ .versionHold) →
              t = { s with tb := t.tb }))

/-- No command faults or is refused, on any state, and no command touches the queue of those that wait. -/
def Sys2Proof.Claims.EveryCommandCompletes : Prop :=
  ∀ (i : Instr) (s : State), ∃ t, exec i s = .next t ∧ t.pending = s.pending

/-- The commands of the queue run first in, first out, and none is lost: after `k` steps the queue holds all but the first
`k`. -/
def Sys2Proof.Claims.QueueRunsFirstInFirstOut : Prop :=
  ∀ (k : Nat) (s : State), ∃ t, Host.Core.run core k s = .next t ∧ t.pending = s.pending.drop k

/-- Every step keeps the canonical form of memory: addresses strictly rising, no entry equal to what an unlisted address reads
as. -/
def Obligations.StepKeepsTheMemoryForm : Prop :=
  ∀ s t : State, s.mem.wf → step s = .next t → t.mem.wf

/-- The state after reset: no command waits, nothing was sent, memory has its canonical form, the module is
in STANDBY, no domain is enabled, no core runs, and every register holds the reset value of its table's row. -/
def Obligations.ResetState : Prop :=
  State.reset.pending = [] ∧ State.reset.tx = [] ∧ State.reset.mem.wf ∧ State.reset.pw.state = .standby
    ∧ State.reset.tb.state = .free ∧ (∀ n, State.reset.enabled n = false) ∧ (∀ c, (State.reset.core c).running = false)
    ∧ ∀ k, State.reset.raw k = k.reset

/-! ## Registers -/

/-- R154, R187 to R189, R269, R304, R305, R349 to R351, R426, R427, R460, R461, R487, R515, R516, R547, R548: writing 1 to CLEAR
sets the counters that the row names to zero and changes no other register and nothing else but the sums that two of the counters
are drawn from; writing 0 changes nothing. -/
def Obligations.CounterClears : Prop :=
  ∀ (i : Instr) (v : Word) (named : RegKey → Bool) (s : State), clears i = some (v, named) →
    ∃ t, exec i s = .next t
      ∧ (v.getLsbD 0 = true → ∀ k, t.raw k = if named k then 0 else s.raw k)
      ∧ (v.getLsbD 0 = false → t = s)
      ∧ t = { s with regs := t.regs, pw := { s.pw with emergUs := t.pw.emergUs, ballastUj := t.pw.ballastUj } }
      ∧ (∀ x, i = .pwrCtrClear x → x.getLsbD 0 = true → t.readKey (rk .pwrEmergTime) = 0)
      ∧ (∀ x, i = .fwlCtrClear x → x.getLsbD 0 = true → t.readKey (rk .fwlBallastMj) = 0)

/-- R5, R6, R8, R39, R617: a write of a plain RW register that is not locked stores the value without its reserved bits where the
value obeys the register's limits, and otherwise is discarded as a whole; over I3C it also leaves status 0. -/
def Sys2Proof.Claims.PlainRegisterWrites : Prop :=
  ∀ (s : State) (addr v : Word) (k : RegKey), regAt addr.toNat = some k → plain k.reg = true →
    (k.reg.locks && s.enabled (Fin.ofNat 16 k.j)) = false →
    (s.inLimits k (v &&& k.reg.info.mask) = true →
      exec (.registerWrite addr v) s = .next (s.setRaw k (v &&& k.reg.info.mask))
      ∧ (s.setRaw k (v &&& k.reg.info.mask)).raw k = v &&& k.reg.info.mask
      ∧ (s.pw.state ≠ .off → s.i3cWrites addr.toNat = true →
          exec (.i3cRegisterWrite ⟨2, addr⟩ v) s =
            .next { s.setRaw k (v &&& k.reg.info.mask) with boot := { s.boot with i3cValue := 0, i3cStatus := 0 } }))
    ∧ (s.inLimits k (v &&& k.reg.info.mask) = false → exec (.registerWrite addr v) s = .next (s.discard k))

/-- R5, R6, R8, R39, R304, R305, R321, R338, R430, R534, R617: every other write of a register. One that has a command of its
own acts as that command; one of a read-only register does nothing and one of a protected one is discarded; a locked register
is left, with 0x0107; a configuration register of SV or KV is stored, and while its domain is enabled the value it had stays
in effect; the tier cache forgets its copies when its range is written, the caps are evaluated again when one is, and CXL.CTRL
and HP.CTRL hold their port DOWN or let it train. An address that names no register is the model's choice: the write does
nothing (log 108). -/
def Sys2Proof.Claims.OtherRegisterWrites : Prop :=
  ∀ (s : State) (addr v : Word) (i : SiteId),
    (regAt addr.toNat = none → exec (.registerWrite addr v) s = .next s)
    ∧ ∀ k, regAt addr.toNat = some k → sited i k → let w := v &&& k.reg.info.mask
      (∀ c, actsAs i k v = some c → exec (.registerWrite addr v) s = exec c s)
      ∧ (k.reg.info.acc = .ro → exec (.registerWrite addr v) s = .next s)
      ∧ (k.reg.info.acc = .rwProt → exec (.registerWrite addr v) s = .next (s.discard k))
      ∧ ((k.reg.locks && s.enabled (Fin.ofNat 16 k.j)) = true →
          exec (.registerWrite addr v) s = .next (after (fun t => t.domReport (Fin.ofNat 16 k.j) 0x0107) s))
      ∧ (k.reg.info.acc = .rw → k.reg.info.block = .sv ∨ k.reg.info.block = .kv → s.inLimits k w = true →
          ∃ t, exec (.registerWrite addr v) s = .next t ∧ t.raw k = w ∧ (∀ q, q ≠ k → t.raw q = s.raw q)
            ∧ t = { s with regs := t.regs, sv := { s.sv with old := t.sv.old } }
            ∧ (s.allDisabled = true → t.sv.old = s.sv.old)
            ∧ (s.enabled (Fin.ofNat 16 k.j) = true → k.reg ≠ .svTableBase → k.reg ≠ .svIntakeGuard → Assoc.find k s.sv.old = none →
                Assoc.find k t.sv.old = some (s.raw k)))
      ∧ (k.reg = .memTcBase ∨ k.reg = .memTcSize → s.inLimits k w = true → exec (.registerWrite addr v) s =
          .next { s.setRaw k w with ms := { s.ms with tcSlots := [], tcBytes := [], tcHits := [] } })
      ∧ (k.reg = .pwrShelfCap ∨ k.reg = .pwrSafeCap → s.inLimits k w = true →
          exec (.registerWrite addr v) s = .next (after (fun t => (t.setRaw k w).newCaps) s))
      ∧ (k.reg = .cxlCtrl → let p : Fin 4 := Fin.ofNat 4 k.j
          ∃ t, exec (.registerWrite addr v) s = .next t ∧ t.reg .cxlCtrl 0 p.val = v &&& 3
            ∧ (v.getLsbD 0 = false → t.cxlPort p = CxlPort.init)
            ∧ (v.getLsbD 0 = true → (s.cxlPort p).state = .down → s.boot.ready = true → (t.cxlPort p).state = .training)
            ∧ (v.getLsbD 0 = true → (s.cxlPort p).state ≠ .down → t.cxl = s.cxl))
      ∧ (k.reg = .hpCtrl → ∃ t, exec (.registerWrite addr v) s = .next t ∧ t.reg .hpCtrl = v &&& 0x17
            ∧ (v.getLsbD 0 = false → t.hp.state = .down ∧ t.hp.macsec = false)
            ∧ (v.getLsbD 0 = true → s.hp.state = .down → s.boot.ready = true → t.hp.state = .training)
            ∧ (v.getLsbD 0 = true → s.hp.state ≠ .down → t.hp = s.hp))

/-- R5, R156: the address of a register instance names exactly that register. -/
def Sys2Proof.Claims.RegisterAddressesNameTheirRegister : Prop :=
  ∀ k : RegKey, k.home = k → k.j < k.reg.info.n1 * k.reg.info.n2 →
    (∃ d c n, stationBlock d c n = some (k.reg.info.block, k.i)) ∨ (k.reg.info.block.base.isSome ∧ k.i = 0) →
    regAt k.addr = some k


/-- R448, R606, R607, R6, R8: an I3C register read, whose OP is 0x01, keeps the register's value with status 0, and the
private read after it sends value and status; another OP, and an address that the table of registers over I3C does not name,
give 0x0907 and write nothing. -/
def Sys2Proof.Claims.I3cReadsARegister : Prop :=
  ∀ (s : State) (addr : Word), s.pw.state ≠ .off →
    (s.i3cReads addr.toNat = true →
      exec (.i3cRegisterRead ⟨1, addr⟩) s =
        .next { s with boot := { s.boot with i3cValue := s.readAddr addr.toNat, i3cStatus := 0 } })
    ∧ (∀ op : Byte, op ≠ 1 ∨ s.i3cReads addr.toNat = false →
        exec (.i3cRegisterRead ⟨op, addr⟩) s = .next { s with boot := { s.boot with i3cValue := 0, i3cStatus := 0x0907 } })
    ∧ (∀ (op : Byte) (v : Word), op ≠ 2 ∨ s.i3cWrites addr.toNat = false →
        exec (.i3cRegisterWrite ⟨op, addr⟩ v) s = .next { s with boot := { s.boot with i3cValue := 0, i3cStatus := 0x0907 } })
    ∧ exec .i3cPrivateRead s =
        .next { s with tx := .i3c (wordBytes s.boot.i3cValue ++ natBytes 2 s.boot.i3cStatus.toNat) :: s.tx }

/-- R605: SETDASA and ENTDAA give the module its dynamic address, to which its target then answers. -/
def Sys2Proof.Claims.I3cAddressAssignment : Prop :=
  ∀ (s : State) (a : BitVec 7), s.pw.state ≠ .off →
    ∃ t, exec (.i3cSetdasa a) s = .next t ∧ exec (.i3cEntdaa a) s = .next t ∧ t.i3cAddress = a
      ∧ t = { s with boot := { s.boot with i3cAddr := some a } }

/-- R313: with every domain disabled a write that changes MEM.CTRL.ECC sets MEM.ILV_SIZE to all of close memory, clears close
memory to zero and leaves MEM.STATUS CLEARING until MEM_CLEAR_DONE; a write that leaves ECC as it is changes nothing; no
Pannier item whose source it clears stays VALID (R335). With a domain enabled it is discarded with 0x060D. -/
def Sys2Proof.Claims.EccChangeClearsCloseMemory : Prop :=
  ∀ (s : State) (v : Word),
    (s.allDisabled = true → (s.reg .memCtrl).getLsbD 0 ≠ v.getLsbD 0 →
      ∃ t, exec (.memCtrlWrite v) s = .next t
        ∧ t.reg .memCtrl = v &&& 1 ∧ t.regN .memIlvSize = t.closeTop ∧ t.regN .memStatus = 2
        ∧ (∀ a, a < 4 * dieClose false → t.mem.read a = 0)
        ∧ (∀ a, 4 * dieClose false ≤ a → t.mem.read a = s.mem.read a)
        ∧ t.ms.poisoned = []
        ∧ (∀ d, ∀ i ∈ t.pnDir d, i.state = .valid → i.bytes = 0 ∨ 4 * dieClose false ≤ i.src)
        ∧ (∀ k, k ≠ rk .memCtrl → k ≠ rk .memIlvSize → k ≠ rk .memStatus → k.reg ≠ .pnInvalidations → t.raw k = s.raw k)
        ∧ t = { s with regs := t.regs, mem := t.mem, pn := t.pn, ms := { s.ms with poisoned := [], tcSlots := [] } }
        ∧ ∃ u, exec .memClearDone t = .next u ∧ u = t.setReg .memStatus 0 0 1 ∧ u.regN .memStatus = 1)
    ∧ (s.allDisabled = true → (s.reg .memCtrl).getLsbD 0 = v.getLsbD 0 → exec (.memCtrlWrite v) s = .next s)
    ∧ (s.allDisabled = false → exec (.memCtrlWrite v) s = .next (s.setReg .memCode 0 0 0x060D))
    ∧ (s.regN .memStatus = 2 → exec .memClearDone s = .next (s.setReg .memStatus 0 0 1))
    ∧ (s.regN .memStatus ≠ 2 → exec .memClearDone s = .next s)

/-- R313: with every domain disabled a multiple of 4 GiB up to the size of close memory changes the interleaved zone; what
close memory then holds is unspecified, every other byte is as before. A write of the size it has changes nothing, and any
other is discarded with 0x060D. -/
def Sys2Proof.Claims.InterleaveChange : Prop :=
  ∀ (s : State) (v : Word), let ok : Prop := s.allDisabled = true ∧ v.toNat % 2 ^ 32 = 0 ∧ v.toNat ≤ s.closeTop
    (ok → s.reg .memIlvSize ≠ v →
      ∃ t, exec (.memIlvSizeWrite v) s = .next t ∧ t.reg .memIlvSize = v
        ∧ (∀ a, s.closeTop ≤ a → t.mem.read a = s.mem.read a)
        ∧ (∀ k, k ≠ rk .memIlvSize → t.raw k = s.raw k)
        ∧ t = { s with regs := t.regs, mem := t.mem, freeCtr := s.freeCtr + 1 })
    ∧ (ok → s.reg .memIlvSize = v → exec (.memIlvSizeWrite v) s = .next s)
    ∧ (¬ok → exec (.memIlvSizeWrite v) s = .next (s.setReg .memCode 0 0 0x060D))

/-- R141, R165, R426: an armed injection is stored only at debug level DIAG or FULL; writing 1 to a flag of LX.QSTATn clears that
flag of the stream and no other; writing GO retrains a port and writing ENABLE 1 stores it. -/
def Sys2Proof.Claims.RegistersThatAct : Prop :=
  (∀ (s : State) (i : SiteId) (v : Word), s.inLimits (rk .mxResidueInject (siteIx i)) v = true →
      (v.getLsbD 0 = false ∨ s.trust.debug ≠ 0 →
        exec (.mxResidueInject i v) s = .next (s.setReg .mxResidueInject (siteIx i) 0 (v &&& 0xFF01)))
      ∧ (v.getLsbD 0 = true → s.trust.debug = 0 → exec (.mxResidueInject i v) s = .next s))
  ∧ (∀ (s : State) (i : SiteId) (q : Fin 16) (v : Word) (c : CoreId) (x : Stream), s.coreOn (siteIx i) = some c →
      Assoc.find (BitVec.ofNat 4 q.val) (s.core c).streams = some x →
      ∃ t, exec (.lxQstatClear i q v) s = .next t ∧ t = s.setCore c (t.core c)
        ∧ Assoc.find (BitVec.ofNat 4 q.val) (t.core c).streams = some { x with sticky := x.sticky &&& ~~~(v.setWidth 7) }
        ∧ t.core c = { s.core c with streams := (t.core c).streams }
        ∧ ∀ r, r ≠ BitVec.ofNat 4 q.val → Assoc.find r (t.core c).streams = Assoc.find r (s.core c).streams)
  ∧ (∀ (s : State) (p : Port) (v : Word), v.getLsbD 0 = true → (s.port p).state ≠ .down → (s.port p).state ≠ .disabled →
      exec (.fabPortRetrain p v) s = .next (s.portDown p true))
  ∧ (∀ (s : State) (p : Port) (v : Word), v.getLsbD 0 = true → (s.port p).state ≠ .disabled →
      exec (.fabPortCtrlWrite p v) s = .next (s.setReg .fabPortCtrl 0 p.val (v &&& 1)))

/-- R337: PN.SIZE takes a size of at most 160 MiB while the die's directory is empty, and PN.P_QUOTA a quota that leaves the
sum of quotas within PN.SIZE and covers what the partition holds; each is discarded with 0x060D otherwise. -/
def Sys2Proof.Claims.PannierRegisterWrites : Prop :=
  ∀ (s : State) (d : Fin 8) (n : Part) (v : Word),
    (s.pnDir d = [] → v.toNat ≤ 160 → exec (.pnSizeWrite d v) s = .next (s.setReg .pnSize d.val 0 v))
    ∧ (s.pnDir d ≠ [] ∨ 160 < v.toNat → exec (.pnSizeWrite d v) s = .next (s.setReg .pnCode d.val 0 0x060D))
    ∧ (let others := ((List.finRange 16).map (fun k => if k = n then 0 else s.regN .pnPQuota d.val k.val)).sum
       (others + v.toNat ≤ s.regN .pnSize d.val → pnFrames (s.pnDir d) n ≤ 16 * v.toNat →
          exec (.pnPQuotaWrite d n v) s = .next (s.setReg .pnPQuota d.val n.val v))
       ∧ (s.regN .pnSize d.val < others + v.toNat ∨ 16 * v.toNat < pnFrames (s.pnDir d) n →
          exec (.pnPQuotaWrite d n v) s = .next (s.setReg .pnCode d.val 0 0x060D)))

/-! ## The time base and pins -/

/-- R29, R33, R34, R610, R32: a link that carries the time base starts an exchange with TBC as its first timestamp; the host's
time less TBC is the PTP offset; the output pulses while OUT_EN is 1 at a whole second of TBC, or of host time where SRC is 1,
and at no other time; an input edge loads TBC, and one within 500 ms of the last is ignored; a failed path moves to the spare. -/
def Sys2Proof.Claims.TimeBaseInputs : Prop :=
  (∀ (s : State) (p : Port), s.timeLink s.self p = true → s.tb.state ≠ .free →
      exec (.timeSyncSend p) s = .next (s.sendTime p [s.now, 0, 0]))
  ∧ (∀ (s : State) (h : Word), exec (.ptpSync h) s = .next (s.setReg .cadPtpOffset 0 0 (h - s.tb.tbc)))
  ∧ (∀ s : State, let whole (w : Word) : Prop := w.toNat % 1000000000 = 0
      let second : Prop :=
        if (s.reg .cadPpsCtrl).getLsbD 1 = true then whole (s.tb.tbc + s.reg .cadPtpOffset) else whole s.tb.tbc
      ((s.reg .cadPpsCtrl).getLsbD 0 = true → second → exec .ppsOutPulse s = .next { s with tx := .pps :: s.tx })
      ∧ ((s.reg .cadPpsCtrl).getLsbD 0 = false ∨ ¬ second → exec .ppsOutPulse s = .next s))
  ∧ (∀ s : State,
      ((∀ t, s.tb.edge = some t → 500000000 ≤ (s.tb.tbc - t).toNat) →
        ∃ u, exec .ppsInEdge s = .next u ∧ u.reg .cadPpsInStamp = s.tb.tbc ∧ u.tb.edge = some s.tb.tbc
          ∧ (∀ k, k ≠ rk .cadPpsInStamp → u.raw k = s.raw k)
          ∧ u = { s with regs := u.regs, tb := { s.tb with edge := some s.tb.tbc } })
      ∧ (∀ t, s.tb.edge = some t → (s.tb.tbc - t).toNat < 500000000 → exec .ppsInEdge s = .next s))
  ∧ (∀ s : State, s.tb.spare = false →
      exec .tbPathFail s = .next (State.mgmtReport { s with tb := { s.tb with spare := true } } .derCode 0x0B0C))


/-! ## The sequencer: helpers -/

namespace Sys2Proof.Claims

open Sys2Proof.Machine

/-- The sequencer of `c` issues an instruction with this guard that reads these registers: a step runs on it, it waits for
nothing, its segment is not killed, the module is not losing power, control is on a word of the code that is no literal, the
guard holds, no register it reads is late, and outside an audit unit unless the instruction may stand in one (R193, R212, R225,
R230). -/
def Issues (s : State) (c : CoreId) (guard : BitVec 4) (reads : List Dest) (inAudit : Bool) : Prop :=
  (s.core c).canIssue = true ∧ s.pw.down = none
    ∧ (∀ p, s.program ((s.partOf c).getD 0) = some p → p.badPc (s.core c).pc = false)
    ∧ (s.core c).guardPasses guard = true ∧ (inAudit = true ∨ (s.core c).audit = none)
    ∧ ∀ d ∈ reads, (s.core c).isLate d = false

/-- Control that reaches the word `nxt` in sequence reaches no loop's end (R221). -/
def SeqTo (x : Core) (nxt : Nat) : Prop := ∀ l ∈ x.loops.head?, x.openLoops = 0 ∨ nxt ≠ l.last + 1

/-- No loop's body ends `n` words on. -/
def Straight (x : Core) (n : Nat) : Prop := SeqTo x (x.pc + n)

/-- A scalar instruction: its core, guard, words, whether a reserved bit or code is set, the registers it reads, its
destination and the value of its result. -/
structure ScalarForm where
  core : CoreId
  guard : BitVec 4
  words : Nat
  reserved : Bool
  reads : List Dest
  dest : BitVec 5
  value : Core → Word

/-- Format R with two scalar operands and no function code. -/
def twoOperands (c : CoreId) (f : FmtR) (op : Word → Word → Word) : Option ScalarForm :=
  some ⟨c, f.guard, 1, f.c != 0 || f.fn != 0 || f.x != 0, [.s f.a, .s f.b], f.d, fun x => op (x.rdS f.a) (x.rdS f.b)⟩

/-- R197 and R198: the scalar instructions and their results. -/
def scalarOf : Instr → Option ScalarForm
  | .add c f => twoOperands c f (fun a b => a + b)
  | .sub c f => twoOperands c f (fun a b => a - b)
  | .mul c f => twoOperands c f (fun a b => a * b)
  | .mulh c f => twoOperands c f (fun a b => BitVec.ofInt 64 (a.toInt * b.toInt / 2 ^ 64))
  | .and c f => twoOperands c f (fun a b => a &&& b)
  | .or c f => twoOperands c f (fun a b => a ||| b)
  | .xor c f => twoOperands c f (fun a b => a ^^^ b)
  | .shl c f => twoOperands c f (fun a b => a <<< (b.extractLsb' 0 6).toNat)
  | .shr c f => twoOperands c f (fun a b => a >>> (b.extractLsb' 0 6).toNat)
  | .sra c f => twoOperands c f (fun a b => a.sshiftRight (b.extractLsb' 0 6).toNat)
  | .min c f => twoOperands c f (fun a b => if a.toInt ≤ b.toInt then a else b)
  | .max c f => twoOperands c f (fun a b => if b.toInt ≤ a.toInt then a else b)
  | .clz c f => some ⟨c, f.guard, 1, f.b != 0 || f.c != 0 || f.fn != 0 || f.x != 0, [.s f.a], f.d,
      fun x => BitVec.ofNat 64 (leadingZeros (x.rdS f.a))⟩
  | .addi c f => some ⟨c, f.guard, 1, false, [.s f.a], f.d, fun x => x.rdS f.a + f.imm.signExtend 64⟩
  | .li c f l => some ⟨c, f.guard, 2, f.a != 0 || f.imm != 0, [], f.d, fun _ => l⟩
  | .sel c f => some ⟨c, f.guard, 1, decide (8 ≤ f.c.toNat) || f.fn != 0 || f.x != 0, [.s f.a, .s f.b], f.d,
      fun x => if x.rdP (f.c.setWidth 3) then x.rdS f.a else x.rdS f.b⟩
  | .tdget c f => some ⟨c, f.guard, 1, f.b != 0 || f.c != 0 || f.x != 0 || (descFieldId f.fn.toNat).isNone, [.td f.a], f.d,
      fun x => match descFieldId f.fn.toNat with
        | some (lo, n, sgn) => BitVec.ofInt 64 (fieldValue (x.rdTd f.a) lo n sgn)
        | none => 0⟩
  | _ => none

/-- What a fault of a core's segment leaves (R44, R220): the sequencer stopped with its queues empty, LX.FAULT with code,
segment and tick, the error for the segment's vote; every register of the core as it was, and nothing else changed. -/
def Stopped (s : State) (c : CoreId) (n : Part) (code : Code) (t : State) : Prop :=
  t.core c = { s.core c with killed := some code, wait := none, late := [], mxq := [], vxq := [], txq := [], lxq := [], svq := [],
                             lxRuns := [], collRuns := [] }
    ∧ t.reg .lxFault (s.coreIx c) = faultWord code (s.core c).seg (s.dom n).tick
    ∧ (t.dom n).errs = (s.dom n).errs ++ [((s.core c).seg, code, none)]
    ∧ (∀ k, k ≠ rk .lxFault (s.coreIx c) → t.raw k = s.raw k)
    ∧ t = { s.setCore c (t.core c) with regs := t.regs, doms := t.doms }

/-- A core of a partition whose segment runs. -/
def RunsIn (s : State) (c : CoreId) (n : Part) : Prop := s.partOf c = some n ∧ (s.core c).killed = none

end Sys2Proof.Claims

/-! ## Scalar instructions -/

/-- R190, R193, R197, R198, R200: the scalar instructions without a fault of their own write their result to sD, and a write to s0
is discarded; no other scalar, no predicate, no descriptor register, no memory and no other state changes, and the next
instruction follows. A reserved bit stops each with 0x0302 (R195, R196). -/
def Obligations.ScalarResults : Prop :=
  ∀ (i : Instr) (w : ScalarForm) (s : State), scalarOf i = some w →
    Issues s w.core w.guard w.reads true →
    (w.reserved = false → Straight (s.core w.core) w.words →
      ∃ t, exec i s = .next t ∧ t = s.setCore w.core (t.core w.core)
        ∧ (t.core w.core).rdS w.dest = (if w.dest = 0 then 0 else w.value (s.core w.core))
        ∧ (∀ r, r ≠ w.dest → (t.core w.core).rdS r = (s.core w.core).rdS r)
        ∧ (t.core w.core).pc = (s.core w.core).pc + w.words
        ∧ t.core w.core = { s.core w.core with s := (t.core w.core).s, late := (t.core w.core).late, pc := (t.core w.core).pc })
    ∧ (w.reserved = true → exec i s = .next (s.kill w.core 0x0302))

/-- R190, R195, R198: CMP writes the condition of its function code and PLOG the operation of its function code to pD; a write
to p0 is discarded; the next instruction follows and nothing else changes. -/
def Sys2Proof.Claims.PredicateResults : Prop :=
  ∀ (c : CoreId) (f : FmtR) (s : State), Straight (s.core c) 1 → f.c = 0 → f.x = 0 → f.d.toNat < 8 →
    (Issues s c f.guard [.s f.a, .s f.b] true → ∀ v : Bool,
      (let a := (s.core c).rdS f.a
       let b := (s.core c).rdS f.b
       (f.fn = 0 ∧ v = decide (a = b)) ∨ (f.fn = 1 ∧ v = decide (a ≠ b)) ∨ (f.fn = 2 ∧ v = decide (a.toInt < b.toInt))
         ∨ (f.fn = 3 ∧ v = decide (b.toInt ≤ a.toInt)) ∨ (f.fn = 4 ∧ v = decide (a.toNat < b.toNat))
         ∨ (f.fn = 5 ∧ v = decide (b.toNat ≤ a.toNat))) →
      ∃ t, exec (.cmp c f) s = .next t
        ∧ t = s.setCore c { (s.core c) with p := (t.core c).p, pc := (s.core c).pc + 1 }
        ∧ ∀ r, (t.core c).rdP r = if r = 0 then true else if r = f.d.setWidth 3 then v else (s.core c).rdP r)
    ∧ (Issues s c f.guard [] true → f.a.toNat < 8 → f.b.toNat < 8 → ∀ v : Bool,
      (let a := (s.core c).rdP (f.a.setWidth 3)
       let b := (s.core c).rdP (f.b.setWidth 3)
       (f.fn = 0 ∧ v = (a && b)) ∨ (f.fn = 1 ∧ v = (a || b)) ∨ (f.fn = 2 ∧ v = (a != b)) ∨ (f.fn = 3 ∧ v = (a && !b))) →
      ∃ t, exec (.plog c f) s = .next t
        ∧ t = s.setCore c { (s.core c) with p := (t.core c).p, pc := (s.core c).pc + 1 }
        ∧ ∀ r, (t.core c).rdP r = if r = 0 then true else if r = f.d.setWidth 3 then v else (s.core c).rdP r)

/-- R198, R200: TDMOV copies a tile descriptor register; TDSET, TDADD and TDSETI put a value that fits into a field other than
STATUS and leave every bit outside the field; a value that does not fit is the fault 0x030A. -/
def Obligations.DescriptorResults : Prop :=
  (∀ (c : CoreId) (f : FmtR) (s : State), Issues s c f.guard [.td f.a] true → Straight (s.core c) 1 →
    f.b = 0 → f.c = 0 → f.fn = 0 → f.x = 0 →
    ∃ t, exec (.tdmov c f) s = .next t
      ∧ t = s.setCore c { s.core c with td := (t.core c).td, late := (t.core c).late, pc := (s.core c).pc + 1 }
      ∧ ∀ r, (t.core c).rdTd r = if r = f.d then (s.core c).rdTd f.a else (s.core c).rdTd r)
  ∧ (∀ (c : CoreId) (f : FmtR) (l : Word) (s : State) (lo n : Nat) (sgn : Bool), f.b = 0 → f.c = 0 → f.x = 0 →
      descFieldId f.fn.toNat = some (lo, n, sgn) → f.fn ≠ 0x0C →
      let old := fieldValue ((s.core c).rdTd f.d) lo n sgn
      let operand (w : Word) : Int := if sgn then w.toInt else (w.toNat : Int)
      let fits (v : Int) : Prop := if sgn then -(2 ^ (n - 1)) ≤ v ∧ v < 2 ^ (n - 1) else 0 ≤ v ∧ v < 2 ^ n
      ∀ (i : Instr) (words : Nat) (reads : List Dest) (v : Int),
        ((i = .tdset c f ∧ words = 1 ∧ reads = [.s f.a, .td f.d] ∧ v = operand ((s.core c).rdS f.a))
          ∨ (i = .tdadd c f ∧ words = 1 ∧ reads = [.s f.a, .td f.d] ∧ v = old + ((s.core c).rdS f.a).toInt)
          ∨ (i = .tdseti c f l ∧ f.a = 0 ∧ words = 2 ∧ reads = [.td f.d] ∧ v = operand l)) →
        Issues s c f.guard reads true →
        (fits v → Straight (s.core c) words →
          ∃ t, exec i s = .next t
            ∧ t = s.setCore c { s.core c with td := (t.core c).td, late := (t.core c).late, pc := (s.core c).pc + words }
            ∧ fieldValue ((t.core c).rdTd f.d) lo n sgn = v
            ∧ (∀ b, b < lo ∨ lo + n ≤ b → ((t.core c).rdTd f.d).getLsbD b = ((s.core c).rdTd f.d).getLsbD b)
            ∧ ∀ r, r ≠ f.d → (t.core c).rdTd r = (s.core c).rdTd r)
        ∧ (¬ fits v → exec i s = .next (s.kill c 0x030A)))

/-- R201: RDSR reads the special registers: TBC, the domain's tick, the segment, the logical core number, the partition's cores,
the die, the partition, the module's own index, the slice, the rows of the batch. -/
def Sys2Proof.Claims.SpecialRegisters : Prop :=
  ∀ (c : CoreId) (f : FmtI) (s : State) (n : Part), Issues s c f.guard [] false → Straight (s.core c) 1 → f.a = 0 →
    s.partOf c = some n →
    (f.imm.toNat < 13 →
      ∃ t v, exec (.rdsr c f) s = .next t ∧ specialReg s c f.imm.toNat = some v
        ∧ t = s.setCore c { (s.core c).wrS f.d v with pc := (s.core c).pc + 1 }
        ∧ (f.imm = 0 → v = s.tb.tbc) ∧ (f.imm = 1 → v.toNat = (s.dom n).tick % 2 ^ 64)
        ∧ (f.imm = 2 → v.toNat = (s.core c).seg % 2 ^ 64) ∧ (f.imm = 3 → v = BitVec.ofNat 64 (s.lcore n c))
        ∧ (f.imm = 4 → v = BitVec.ofNat 64 ((s.partDies n).length * s.corePer n))
        ∧ (f.imm = 5 → v.toNat = c.die.val) ∧ (f.imm = 6 → v.toNat = n.val) ∧ (f.imm = 7 → v.toNat = s.self.val)
        ∧ (f.imm = 8 → v = s.sliceReg n)
        ∧ (f.imm = 11 → v = BitVec.ofNat 64 (s.svPart n).running.rows.length))
    ∧ (13 ≤ f.imm.toNat → exec (.rdsr c f) s = .next (s.kill c 0x0302))

/-! ## Control flow, faults -/

/-- R198, R221, R223, R224, R225: NOP goes on; BR, CALL and RET set the program counter, CALL and RET push and pop the return
stack of 8; LOOP and LOOPW open a loop with pass number 0 in sD; LOOP with a count of zero passes its body over; BREAK leaves
the innermost loop. -/
def Sys2Proof.Claims.ControlFlow : Prop :=
  ∀ (c : CoreId) (s : State) (x : Core), x = s.core c →
    (∀ f : FmtJ, Issues s c f.guard [] true → f.rsv = 0 → f.off = 0 → Straight x 1 →
      exec (.nop c f) s = .next (s.setCore c { x with pc := x.pc + 1 }))
    ∧ (∀ (f : FmtJ) (k : Nat), Issues s c f.guard [] false → f.rsv = 0 → (k : Int) = x.pc + f.off.toInt →
      exec (.br c f) s = .next (s.setCore c { x with pc := k })
      ∧ (x.calls.length < 8 →
          exec (.call c f) s = .next (s.setCore c { x with calls := ⟨x.pc + 1, x.loops.length⟩ :: x.calls, pc := k }))
      ∧ (8 ≤ x.calls.length → exec (.call c f) s = .next (s.kill c 0x0304)))
    ∧ (∀ f : FmtJ, Issues s c f.guard [] false → f.rsv = 0 → f.off = 0 →
      (x.calls = [] → exec (.ret c f) s = .next (s.kill c 0x0304))
      ∧ ∀ r rest, x.calls = r :: rest →
        (r.depth < x.loops.length → exec (.ret c f) s = .next (s.kill c 0x0304))
        ∧ (x.loops.length ≤ r.depth → SeqTo { x with calls := rest } r.ret →
            exec (.ret c f) s = .next (s.setCore c { x with calls := rest, pc := r.ret })))
    ∧ (∀ f : FmtL, Issues s c f.guard [.s f.a] true →
      (x.rdS f.a ≠ 0 → x.loops.length < 8 →
        exec (.loop c f) s = .next (s.setCore c ({ x with
          loops := ⟨x.pc + 1, x.pc + f.len.toNat, some (x.rdS f.a).toNat, 0, f.bound.toNat, 0, f.d⟩ :: x.loops,
          pc := x.pc + 1 }.wrS f.d 0)))
      ∧ (x.rdS f.a ≠ 0 → 8 ≤ x.loops.length → exec (.loop c f) s = .next (s.kill c 0x0305))
      ∧ (x.rdS f.a = 0 → SeqTo x (x.pc + (1 + f.len.toNat)) →
        exec (.loop c f) s = .next (s.setCore c { x.wrS f.d 0 with pc := x.pc + (1 + f.len.toNat) })))
    ∧ (∀ f : FmtL, Issues s c f.guard [] true → f.a.toNat < 8 →
      (x.loops.length < 8 →
        exec (.loopw c f) s = .next (s.setCore c ({ x with
          loops := ⟨x.pc + 1, x.pc + f.len.toNat, none, f.a.setWidth 3, f.bound.toNat, 0, f.d⟩ :: x.loops,
          pc := x.pc + 1 }.wrS f.d 0)))
      ∧ (8 ≤ x.loops.length → exec (.loopw c f) s = .next (s.kill c 0x0305)))
    ∧ (∀ f : FmtJ, Issues s c f.guard [] true → f.rsv = 0 → f.off = 0 →
      (x.loops = [] → exec (.breakLoop c f) s = .next (s.kill c 0x0305))
      ∧ ∀ l rest, x.loops = l :: rest → SeqTo { x with loops := rest } (l.last + 1) →
        exec (.breakLoop c f) s = .next (s.setCore c { x with loops := rest, pc := l.last + 1 }))

/-- R221, R223: control that reaches the word after a loop's body, here past a NOP, starts the next pass with its number in
the loop's index register while passes are left or the loop's predicate holds; otherwise the loop is left; a LOOPW whose
passes reach four times its declared bound with the predicate still set is the fault 0x0306. -/
def Sys2Proof.Claims.LoopPasses : Prop :=
  ∀ (c : CoreId) (f : FmtJ) (s : State) (x : Core) (l : LoopFrame) (rest : List LoopFrame), x = s.core c →
    Issues s c f.guard [] true → f.rsv = 0 → f.off = 0 → x.loops = l :: rest → x.openLoops ≠ 0 → x.pc + 1 = l.last + 1 →
    let again := ({ x with loops := { l with pass := l.pass + 1 } :: rest, pc := l.first }.wrS l.index
      (BitVec.ofNat 64 (l.pass + 1)))
    (∀ n, l.count = some n →
      (l.pass + 1 < n → exec (.nop c f) s = .next (s.setCore c again))
      ∧ (n ≤ l.pass + 1 → SeqTo { x with loops := rest } (x.pc + 1) →
          exec (.nop c f) s = .next (s.setCore c { x with loops := rest, pc := x.pc + 1 })))
    ∧ (l.count = none →
      (x.rdP l.pred = true → l.pass + 1 < 4 * l.bound → exec (.nop c f) s = .next (s.setCore c again))
      ∧ (x.rdP l.pred = true → 4 * l.bound ≤ l.pass + 1 → exec (.nop c f) s = .next (s.kill c 0x0306))
      ∧ (x.rdP l.pred = false → SeqTo { x with loops := rest } (x.pc + 1) →
          exec (.nop c f) s = .next (s.setCore c { x with loops := rest, pc := x.pc + 1 })))

/-- R44, R154, R194, R198, R219, R220, R624: a word whose opcode is unassigned stops the segment with 0x0301 whatever its
guard (an assigned one is no word of this row), a wait that reaches its limit with 0x030C, TRAP with 0x0311 after keeping its
value for the event; LX.FAULT holds code, segment and tick. -/
def Sys2Proof.Claims.SegmentFaults : Prop :=
  ∀ (c : CoreId) (n : Part) (s : State), RunsIn s c n → (s.core c).running = true →
    (∀ w : Word, (s.core c).wait = none → s.pw.down = none →
        (seqInstr c w 0 = none → ∃ t, exec (.illegalOpcode c w) s = .next t ∧ Stopped s c n 0x0301 t)
        ∧ (seqInstr c w 0 ≠ none → exec (.illegalOpcode c w) s = .next s))
    ∧ (s.countsWait c = true → ∃ t, exec (.waitLimit c) s = .next t ∧ Stopped s c n 0x030C t)
    ∧ (∀ f : FmtI, Issues s c f.guard [] false → f.d = 0 → f.a = 0 → f.imm.toNat < 65536 →
        ∃ t, exec (.trap c f) s = .next t
          ∧ Stopped (s.updDom n (fun d =>
              { d with traps := d.traps ++ [((s.core c).seg, d.run, f.imm.setWidth 16, s.lcore n c)] })) c n 0x0311 t)

/-- R162, R220: a station that waited on a stream for the limit stops its core's segment with 0x0308; VX.FAULT or TX.FAULT keeps
a stall of its own station too, LX.FAULT is the core's, and MX.FAULT, which keeps codes 0x02xx only, stays. -/
def Sys2Proof.Claims.StreamStall : Prop :=
  ∀ (c : CoreId) (n : Part) (st : Station) (s : State), RunsIn s c n → s.onStream c st = true →
    ∃ t, exec (.streamStall c st) s = .next t
      ∧ (t.core c).killed = some 0x0308 ∧ (t.core c).mxq = [] ∧ (t.core c).vxq = [] ∧ (t.core c).txq = [] ∧ (t.core c).lxq = []
      ∧ (t.core c).s = (s.core c).s ∧ (t.core c).streams = (s.core c).streams
      ∧ (let w := faultWord 0x0308 (s.core c).seg (s.dom n).tick
         t.reg .lxFault (s.coreIx c) = w
         ∧ t.reg .mxFault (s.coreIx c) = s.reg .mxFault (s.coreIx c) ∧ (st = .vx → t.reg .vxFault (s.coreIx c) = w)
         ∧ (st = .tx → t.reg .txFault (s.coreIx c) = w))
      ∧ t = { s.setCore c (t.core c) with regs := t.regs, doms := t.doms }

/-- R193, R195, R196, R212, R225, R230: a sequencer that waits or is stopped issues nothing; control outside the code or on a
literal is 0x0303; a failed guard passes the instruction over with its literal or its loop body; inside an audit unit an
instruction that must not stand there is 0x030E; an instruction that reads a late register waits. -/
def Obligations.IssueRules : Prop :=
  ∀ (c : CoreId) (s : State) (x : Core), x = s.core c →
    (∀ (f : FmtR) (g : FmtI) (h : FmtJ), x.canIssue = false ∨ s.pw.down.isSome = true →
      exec (.add c f) s = .next s ∧ exec (.st c g) s = .next s ∧ exec (.br c h) s = .next s ∧ exec (.stepend c h) s = .next s)
    ∧ (∀ (f : FmtR) (g : FmtI) (h : FmtJ) (p : Program), x.canIssue = true → s.pw.down = none →
      s.program ((s.partOf c).getD 0) = some p → p.badPc x.pc = true →
      exec (.add c f) s = .next (s.kill c 0x0303) ∧ exec (.st c g) s = .next (s.kill c 0x0303)
        ∧ exec (.br c h) s = .next (s.kill c 0x0303) ∧ exec (.stepend c h) s = .next (s.kill c 0x0303))
    ∧ (x.canIssue = true → s.pw.down = none → (∀ p, s.program ((s.partOf c).getD 0) = some p → p.badPc x.pc = false) →
      (∀ g : FmtI, x.guardPasses g.guard = false →
        (Straight x 1 → exec (.addi c g) s = .next (s.setCore c { x with pc := x.pc + 1 })
          ∧ exec (.st c g) s = .next (s.setCore c { x with pc := x.pc + 1 }))
        ∧ (∀ l, Straight x 2 → g.a = 0 → g.imm = 0 → exec (.li c g l) s = .next (s.setCore c { x with pc := x.pc + 2 })))
      ∧ (∀ l : FmtL, x.guardPasses l.guard = false → SeqTo x (x.pc + (1 + l.len.toNat)) →
          exec (.loop c l) s = .next (s.setCore c { x with pc := x.pc + (1 + l.len.toNat) }))
      ∧ (∀ (g : FmtI) (h : FmtJ), x.audit.isSome = true → x.guardPasses g.guard = true → x.guardPasses h.guard = true →
          exec (.st c g) s = .next (s.kill c 0x030E) ∧ (h.rsv = 0 → exec (.br c h) s = .next (s.kill c 0x030E)))
      ∧ (∀ g : FmtI, x.guardPasses g.guard = true → x.isLate (.s g.a) = true → exec (.addi c g) s = .next s))


/-! ## Stations, waits, collectives, die stations: helpers -/

namespace Sys2Proof.Claims

open Sys2Proof.Machine

/-- A station command at issue: its core and guard, the registers it reads, whether it may stand in an audit unit, whether its
reserved bits are zero, its checks in the order of R213, the length of its station's queue, and the core with the command in
that queue. -/
structure StationForm where
  core : CoreId
  guard : BitVec 4
  reads : List Dest
  inAudit : Bool
  plain : Bool
  checks : List (Option Code)
  len : Core → Nat
  put : Core → Core

/-- MX takes a command. -/
def mxForm (c : CoreId) (g : BitVec 4) (rd : List Dest) (ok : Bool) (ch : List (Option Code)) (k : StCmd) : Option StationForm :=
  some ⟨c, g, rd, true, ok, ch, fun x => x.mxq.length, fun x => { x with mxq := x.mxq ++ [k] }⟩

/-- VX takes a command. -/
def vxForm (s : State) (c : CoreId) (f : FmtT) : Option StationForm :=
  let x := s.core c
  let mode (lo n : Nat) : Nat := f.m.toNat / 2 ^ lo % 2 ^ n
  some ⟨c, f.guard, [.s f.s, .s f.s2], true, !vxReserved f,
    [if vxPair f then none else some 0x030A, produces x f.q0 6 (some (mode 4 4)) 0,
      consumes x f.q1 3 (if vxClass f.fn = some .ladd then some 11 else none) 0,
      if vxUsesB f.fn = true ∧ mode 2 2 ≠ 3 then consumes x f.q2 4 (if vxClass f.fn = some .ladd then some 11 else none) 0
      else none,
      if vxUsesC f.fn = true ∧ mode 0 2 ≠ 3 then consumes x f.q3 5 none 0 else none],
    fun y => y.vxq.length, fun y => { y with vxq := y.vxq ++
      [.vx f.fn f.q0 f.q1 f.q2 f.q3 (BitVec.ofNat 4 (mode 4 4)) (BitVec.ofNat 2 (mode 2 2)) (BitVec.ofNat 2 (mode 0 2))
        (x.rdS f.s) (x.rdS f.s2)] }⟩

/-- TX takes a command: QUANT 0, DEQUANT 1, CONVERT 2, TRANSPOSE 3, GATHER 4, SCATTER 5 (R208). -/
def txForm (s : State) (c : CoreId) (f : FmtT) (k : Nat) : Option StationForm :=
  let x := s.core c
  let td := x.rdTd f.t0
  let ix := k = 4 ∨ k = 5
  some ⟨c, f.guard, [.s f.s, .td f.t0], true,
    decide (f.fn.toNat = k) && decide (f.q3 = 0 ∧ f.t1 = 0 ∧ f.m = 0 ∧ f.s2 = 0) && decide (ix ∨ f.q2 = 0),
    [produces x f.q0 9 (some (descFmt td)) 0, consumes x f.q1 7 none 0, if ix then consumes x f.q2 8 (some 12) 0 else none],
    fun y => y.txq.length, fun y => { y with txq := y.txq ++ [.tx f.fn f.q0 f.q1 f.q2 td (x.rdS f.s)] }⟩

/-- LX takes a command that gives no register. -/
def lxForm (c : CoreId) (g : BitVec 4) (rd : List Dest) (au ok : Bool) (ch : List (Option Code)) (k : StCmd) :
    Option StationForm :=
  some ⟨c, g, rd, au, ok, ch, fun x => x.lxLength, fun x => { x with lxq := x.lxq ++ [k] }⟩

/-- LX takes a command whose result is late: the register is named at issue (R212). -/
def lateForm (s : State) (c : CoreId) (g : BitVec 4) (rd : List Dest) (ok : Bool) (ch : List (Option Code)) (d : Dest)
    (k : Nat → StCmd) : Option StationForm :=
  some ⟨c, g, rd, false, ok, ch, fun x => x.lxLength,
    fun x => { x.addLate d with lxq := x.lxq ++ [k (s.core c).nextTag] }⟩

/-- The fields of format T but the ones a use names are zero (R195). -/
def onlyT (f : FmtT) (u : UseT) : Bool := !tBad f u

/-- R198 to R210, R213, R215: the commands of MX, VX, TX, LX and SV, with the fields they take and the checks at issue. -/
def stationOf (s : State) : Instr → Option StationForm
  | .mxld c f => mxForm c f.guard [] (onlyT f { q1 := true }) [consumes (s.core c) f.q1 0 none 0] (.mxld f.q1)
  | .mxrun c f =>
    mxForm c f.guard [.td f.t0] (onlyT f.toFmtT { q1 := true, t0 := true, m := 7 }) [consumes (s.core c) f.q1 1 none 0]
      (.mxrun f.q1 ((s.core c).rdTd f.t0) (f.m.getLsbD 0) (f.m.getLsbD 1) (f.m.getLsbD 2) f.err)
  | .mxout c f =>
    mxForm c f.guard [.td f.t0] (onlyT f { q0 := true, t0 := true, m := 1 })
      [produces (s.core c) f.q0 2 (some (descFmt ((s.core c).rdTd f.t0))) 0]
      (.mxout f.q0 ((s.core c).rdTd f.t0) (f.m.getLsbD 0))
  | .mxsave c f =>
    mxForm c f.guard [.s f.s] (onlyT f { m := 1, s := true }) [saveCheck s c ((s.core c).rdS f.s)]
      (.mxsave ((s.core c).rdS f.s) (f.m.getLsbD 0))
  | .mxrst c f =>
    mxForm c f.guard [.s f.s, .td f.t0] (onlyT f { t0 := true, m := 1, s := true }) [saveCheck s c ((s.core c).rdS f.s)]
      (.mxrst ((s.core c).rdS f.s) ((s.core c).rdTd f.t0) (f.m.getLsbD 0))
  | .mxwalk c f =>
    let x := s.core c
    some ⟨c, f.guard, [.s f.s, .td f.t0], true, onlyT f.toFmtT { q1 := true, t0 := true, s := true },
      [consumes x f.q1 1 none 0, addrCheck (x.rdS f.s) 32], fun y => y.mxq.length,
      fun y => { y with mxq := y.mxq ++ [.mxwalk f.q1 (x.rdTd f.t0) (x.rdS f.s) f.err x.nextTag],
                        lxq := y.lxq ++ [.walk (x.rdTd f.t0) (x.rdS f.s) x.nextTag], nextTag := x.nextTag + 1 }⟩
  | .vxFp32Op c f => vxForm s c f
  | .vxInt32Op c f => vxForm s c f
  | .vxTranscendental c f => vxForm s c f
  | .vxRowReduction c f => vxForm s c f
  | .vxCvt c f => vxForm s c f
  | .vxLadd c f => vxForm s c f
  | .quant c f => txForm s c f 0
  | .dequant c f => txForm s c f 1
  | .convert c f => txForm s c f 2
  | .transpose c f => txForm s c f 3
  | .gather c f => txForm s c f 4
  | .scatter c f => txForm s c f 5
  | .tld c f =>
    lxForm c f.guard [.td f.t0] true (onlyT f { q0 := true, t0 := true })
      [produces (s.core c) f.q0 0xA (some (descFmt ((s.core c).rdTd f.t0))) 0] (.tld f.q0 ((s.core c).rdTd f.t0))
  | .tst c f =>
    lxForm c f.guard [.td f.t0] true (onlyT f { q1 := true, t0 := true })
      [consumes (s.core c) f.q1 0xB (some (descFmt ((s.core c).rdTd f.t0))) 0]
      (.tst f.q1 ((s.core c).rdTd f.t0) (((s.core c).audit.filter (·.sampled)).map (·.id)))
  | .ld c f =>
    lateForm s c f.guard [.s f.a] true [addrCheck ((s.core c).rdS f.a + f.imm.signExtend 64) 8] (.s f.d)
      (fun tag => .ld tag ((s.core c).rdS f.a + f.imm.signExtend 64))
  | .tdld c f =>
    lateForm s c f.guard [.s f.a] true [addrCheck ((s.core c).rdS f.a + f.imm.signExtend 64) 32] (.td f.d)
      (fun tag => .tdld tag ((s.core c).rdS f.a + f.imm.signExtend 64))
  | .st c f =>
    lxForm c f.guard [.s f.a, .s f.d] false true [addrCheck ((s.core c).rdS f.a + f.imm.signExtend 64) 8]
      (.st 0 ((s.core c).rdS f.a + f.imm.signExtend 64) ((s.core c).rdS f.d))
  | .tdst c f =>
    lxForm c f.guard [.s f.a, .td f.d] false true [addrCheck ((s.core c).rdS f.a + f.imm.signExtend 64) 32]
      (.tdst 0 ((s.core c).rdS f.a + f.imm.signExtend 64) ((s.core c).rdTd f.d))
  | .atom c f =>
    lateForm s c f.guard [.s f.a, .s f.b, .s f.c] (decide (f.fn.toNat ≤ 4 ∧ f.x.toNat ≤ 1))
      [addrCheck ((s.core c).rdS f.a) 8] (if f.x.getLsbD 0 then .none else .s f.d)
      (fun tag => .atom tag ((atomOf f.fn).getD .add) ((s.core c).rdS f.a) ((s.core c).rdS f.b) ((s.core c).rdS f.c)
        (f.x.getLsbD 0))
  | .digest c f =>
    lxForm c f.guard [.td f.a, .s f.b] false (decide (f.d = 0 ∧ f.c = 0 ∧ f.fn = 0 ∧ f.x = 0))
      [addrCheck ((s.core c).rdS f.b) 16] (.digest ((s.core c).rdTd f.a) ((s.core c).rdS f.b))
  | .sample c f =>
    some ⟨c, f.guard, [.s f.s, .s f.s2], false,
      onlyT f { q0 := true, q1 := true, fn := 7, m := 1, s := true, s2 := true } && decide (f.fn.toNat % 4 ≠ 3),
      [consumes (s.core c) f.q1 0xD (some 1) 2, if f.m.getLsbD 0 then produces (s.core c) f.q0 0xC (some 12) 2 else none],
      fun x => x.svq.length,
      fun x => { x with svq := x.svq ++ [.sample f.q0 f.q1 (f.m.getLsbD 0) (f.fn.toNat % 4) (f.fn.getLsbD 2)
        ((s.core c).rdS f.s) ((s.core c).rdS f.s2)] }⟩
  | _ => none

/-- Nothing of a core's stations is under way, and no core of its partition waits: a command that its stations take is the only
thing they do. -/
def QuietStations (s : State) (c : CoreId) (n : Part) : Prop :=
  let x := s.core c
  s.partOf c = some n ∧ x.mxq = [] ∧ x.vxq = [] ∧ x.txq = [] ∧ x.lxq = [] ∧ x.svq = [] ∧ x.lxRuns = [] ∧ x.collRuns = []
    ∧ s.waiters n = [] ∧ (s.svPart n).running.syncs = []

/-- A register's 8 bytes of memory as a word. -/
def wordAt (s : State) (a : Nat) : Word := bytesWord (s.load a 8)

/-- No unit of a range is poisoned, here or at a CXL device (R315, R322). -/
def Clean (s : State) (a n : Nat) : Prop := s.poisonedIn a n = false ∧ s.poisonPort a n = none

/-- Memory but for `n` bytes at `a`. -/
def sameBut (s t : State) (a n : Nat) : Prop := ∀ b, b < a ∨ a + n ≤ b → t.mem.read b = s.mem.read b

end Sys2Proof.Claims

/-! ## Station commands -/

/-- R198 to R210, R213 to R215, R220: a station command whose checks pass enters its station's queue of 8 in program order,
names its late register, its stations run as far as they can, and the next instruction follows; with a full queue it waits; a
failed check stops the segment with its code, and a reserved bit with 0x0302. -/
def Obligations.StationCommands : Prop :=
  ∀ (i : Instr) (w : StationForm) (s : State), stationOf s i = some w → Issues s w.core w.guard w.reads w.inAudit →
    (w.plain = true → (∀ k ∈ w.checks, k = none) → w.len (s.core w.core) < 8 →
      exec i s = .next (after (State.thenNext w.core (fun t => t.updCore w.core w.put)) s))
    ∧ (w.plain = true → (∀ k ∈ w.checks, k = none) → 8 ≤ w.len (s.core w.core) → exec i s = .next s)
    ∧ (∀ k e l, w.plain = true → w.checks = k ++ some e :: l → (∀ q ∈ k, q = none) → exec i s = .next (s.kill w.core e))
    ∧ ((∀ c f, i ≠ .quant c f ∧ i ≠ .dequant c f ∧ i ≠ .convert c f ∧ i ≠ .transpose c f ∧ i ≠ .gather c f ∧ i ≠ .scatter c f) →
        w.plain = false → exec i s = .next (s.kill w.core 0x0302))

/-- R60, R62, R198, R199, R215: on a local address that its checks let through, with its stations idle, LD reads the word and
TDLD the 32 bytes at sA plus the sign-extended IMM, where no unit is poisoned; ST and TDST write them there at once, or into
the domain's journal where the memory is STATE; ATOM answers the old word and stores the new one. Every other byte of memory,
every other register and predicate stay. -/
def Obligations.LocalAccesses : Prop :=
  ∀ (c : CoreId) (n : Part) (s : State) (phys : Nat), QuietStations s c n → (s.core c).calls = [] → (s.core c).loops = [] →
    (s.core c).late = [] →
    (∀ f : FmtI, Issues s c f.guard [.s f.a, .s f.d] false → ∀ a : Nat,
      addrForm ((s.core c).rdS f.a + f.imm.signExtend 64) 8 = some (none, a) →
      (s.place (s.coreAcc c) a 8 false = .ok ⟨.core, phys, 0, none⟩ → Clean s phys 8 →
        ∃ t, exec (.ld c f) s = .next t ∧ (t.core c).rdS f.d = (if f.d = 0 then 0 else wordAt s phys)
          ∧ (∀ r, r ≠ f.d → (t.core c).rdS r = (s.core c).rdS r) ∧ (t.core c).p = (s.core c).p ∧ (t.core c).td = (s.core c).td
          ∧ (t.core c).late = [] ∧ (t.core c).pc = (s.core c).pc + 1 ∧ t.mem = s.mem ∧ t.doms = s.doms)
      ∧ (s.place (s.coreAcc c) a 8 true = .ok ⟨.core, phys, 0, none⟩ → Clean s phys 8 →
            ∃ t, exec (.st c f) s = .next t ∧ wordAt t phys = (s.core c).rdS f.d ∧ sameBut s t phys 8
              ∧ (t.core c).s = (s.core c).s ∧ (t.core c).p = (s.core c).p ∧ (t.core c).td = (s.core c).td
              ∧ (t.core c).pc = (s.core c).pc + 1)
      ∧ (∀ p, s.place (s.coreAcc c) a 8 true = .ok p → p.cls = 2 → Clean s p.phys 8 → (∀ m, (s.dom m).journal = []) →
            ∃ t, exec (.st c f) s = .next t ∧ t.mem = s.mem ∧ (t.core c).s = (s.core c).s
              ∧ (t.dom n).journal = (s.dom n).journal
                  ++ [⟨p.phys, .store (wordBytes ((s.core c).rdS f.d)), 0, .core c, (s.core c).seg, c.die⟩]
              ∧ (t.core c).pc = (s.core c).pc + 1))
    ∧ (∀ f : FmtI, Issues s c f.guard [.s f.a, .td f.d] false → ∀ a : Nat,
      addrForm ((s.core c).rdS f.a + f.imm.signExtend 64) 32 = some (none, a) →
      (s.place (s.coreAcc c) a 32 false = .ok ⟨.core, phys, 0, none⟩ → Clean s phys 32 →
        ∃ t, exec (.tdld c f) s = .next t ∧ (t.core c).rdTd f.d = BitVec.ofNat 256 (s.loadN phys 32)
          ∧ (∀ r, r ≠ f.d → (t.core c).rdTd r = (s.core c).rdTd r) ∧ (t.core c).s = (s.core c).s ∧ t.mem = s.mem
          ∧ (t.core c).pc = (s.core c).pc + 1)
      ∧ (s.place (s.coreAcc c) a 32 true = .ok ⟨.core, phys, 0, none⟩ → Clean s phys 32 →
        ∃ t, exec (.tdst c f) s = .next t ∧ t.loadN phys 32 = ((s.core c).rdTd f.d).toNat ∧ sameBut s t phys 32
          ∧ (t.core c).s = (s.core c).s ∧ (t.core c).td = (s.core c).td ∧ (t.core c).pc = (s.core c).pc + 1))
    ∧ (∀ f : FmtR, Issues s c f.guard [.s f.a, .s f.b, .s f.c] false → f.x = 0 → ∀ a : Nat,
      addrForm ((s.core c).rdS f.a) 8 = some (none, a) → s.place (s.coreAcc c) a 8 true = .ok ⟨.core, phys, 0, none⟩ → Clean s phys 8 →
      ∀ new : Word,
        (let old := wordAt s phys
         let v := (s.core c).rdS f.b
         (f.fn = 0 ∧ new = old + v) ∨ (f.fn = 1 ∧ new = if old.toInt < v.toInt then v else old)
          ∨ (f.fn = 2 ∧ new = if old = (s.core c).rdS f.c then v else old) ∨ (f.fn = 3 ∧ new = v)) →
        ∃ t, exec (.atom c f) s = .next t ∧ (t.core c).rdS f.d = (if f.d = 0 then 0 else wordAt s phys)
          ∧ (∀ r, r ≠ f.d → (t.core c).rdS r = (s.core c).rdS r) ∧ wordAt t phys = new ∧ sameBut s t phys 8
          ∧ (t.core c).pc = (s.core c).pc + 1)

/-! ## Streams and waits -/

/-- R159, R165, R189, R203: QOPEN opens a handle that is not open with an empty ring; QSTAT reads the stream's status word and
with CLR clears its sticky flags; QCLOSE frees a stream and QSYNC passes it when it is quiet. Ring, port and format errors are
0x0309. -/
def Obligations.StreamCommands : Prop :=
  ∀ (c : CoreId) (n : Part) (s : State) (x : Core), x = s.core c →
    (∀ f : FmtQ, Issues s c f.guard [] false → f.rsv = 0 →
      (qopenBad x f = true → exec (.qopen c f) s = .next (s.kill c 0x0309))
      ∧ (qopenBad x f = false → Assoc.find f.qn x.streams = none →
          exec (.qopen c f) s = .next (after (State.thenNext c (fun t => t.setCore c { x with
            streams := Assoc.put f.qn ⟨f.prod, f.cons, f.dstn, f.fmt, f.rlog, f.base, [], 0⟩ x.streams })) s))
      ∧ (qopenBad x f = false → QuietStations s c n → Straight x 1 → Assoc.find f.qn x.streams = none →
          exec (.qopen c f) s = .next (s.setCore c { x with
            streams := Assoc.put f.qn ⟨f.prod, f.cons, f.dstn, f.fmt, f.rlog, f.base, [], 0⟩ x.streams, pc := x.pc + 1 })))
    ∧ (∀ f : FmtT, f.q1 = 0 → f.q2 = 0 → f.q3 = 0 → f.t0 = 0 → f.t1 = 0 → f.fn = 0 → f.s = 0 →
      (Issues s c f.guard [] false → f.m = 0 → f.s2 = 0 →
        (Assoc.find f.q0 x.streams = none →
          exec (.qclose c f) s = .next (s.kill c 0x0309) ∧ exec (.qsync c f) s = .next (s.kill c 0x0309))
        ∧ ((Assoc.find f.q0 x.streams).isSome = true →
          exec (.qclose c f) s = .next (after (startWait c (.qclose f.q0)) s)
          ∧ exec (.qsync c f) s = .next (after (startWait c (.qsync f.q0)) s)
          ∧ (x.quiet f.q0 = true → Straight x 1 →
              State.wake c (s.setCore c { x with wait := some (.qclose f.q0) })
                = s.setCore c { x with streams := Assoc.del f.q0 x.streams, pc := x.pc + 1 }
              ∧ State.wake c (s.setCore c { x with wait := some (.qsync f.q0) }) = s.setCore c { x with pc := x.pc + 1 })))
      ∧ (Issues s c f.guard [] true → f.m.toNat < 2 → Straight x 1 →
        ∃ t, exec (.qstat c f) s = .next t ∧ (t.core c).rdS f.s2 = (if f.s2 = 0 then 0 else qstatWord (Assoc.find f.q0 x.streams))
          ∧ (∀ r, r ≠ f.s2 → (t.core c).rdS r = x.rdS r)
          ∧ (∀ q, Assoc.find q (t.core c).streams =
              (Assoc.find q x.streams).map (fun y => if q = f.q0 ∧ f.m = 1 then { y with sticky := 0 } else y))
          ∧ t = s.setCore c { x with s := (t.core c).s, late := (t.core c).late, streams := (t.core c).streams, pc := x.pc + 1 }))

/-- R41, R166, R216 to R218, R226 to R228, R420, R423: FENCE, CWAIT, SEGEND, STEPEND and BAR start their waits, which end at
once where nothing is outstanding; a last segment cannot end with SEGEND, a handle never issued and an unequal barrier count
are faults; a barrier that as many cores have reached as the first arrival fixed takes new arrivals; WAITV polls its word
until its condition holds. -/
def Sys2Proof.Claims.Waits : Prop :=
  ∀ (c : CoreId) (n : Part) (s : State) (x : Core), x = s.core c → s.partOf c = some n →
    (∀ f : FmtR, Issues s c f.guard [] false → f.d = 0 → f.a = 0 → f.b = 0 → f.c = 0 → f.x = 0 → 1 ≤ f.fn.toNat → f.fn.toNat ≤ 3 →
      exec (.fence c f) s = .next (after (startWait c (.fence f.fn)) s)
      ∧ (QuietStations s c n → x.colls = [] → s.fab.reqs = [] → x.loops = [] → s.barriers = [] → x.mx = Mx.init →
          exec (.fence c f) s = .next (s.setCore c { x with pc := x.pc + 1 })))
    ∧ (∀ f : FmtR, Issues s c f.guard [.s f.a] false → f.d = 0 → f.b = 0 → f.c = 0 → f.x = 0 →
      (f.fn = 0 →
        (Assoc.find (x.rdS f.a).toNat x.colls = none → exec (.cwait c f) s = .next (s.kill c 0x080B))
        ∧ ((Assoc.find (x.rdS f.a).toNat x.colls).isSome = true →
            exec (.cwait c f) s = .next (after (startWait c (.cwait (x.rdS f.a).toNat)) s)))
      ∧ (f.fn.toNat < 16 →
        let key := (c.die, n, f.fn.toNat)
        let count := x.rdS f.a
        let arrive (here : List CoreId) (full : List (List CoreId)) : Barrier :=
          if count.toNat ≤ here.length + 1 then ⟨count, [], full ++ [here ++ [c]]⟩ else ⟨count, here ++ [c], full⟩
        (∀ b, Assoc.find key s.barriers = some b → b.arrived ≠ [] → b.count ≠ count →
            exec (.bar c f) s = .next (s.kill c 0x0313))
        ∧ (∀ b, Assoc.find key s.barriers = some b → b.arrived = [] ∨ b.count = count →
            exec (.bar c f) s = .next (after (startWait c (.bar f.fn.toNat))
              { s with barriers := Assoc.put key (arrive b.arrived b.full) s.barriers }))
        ∧ (Assoc.find key s.barriers = none →
            exec (.bar c f) s = .next (after (startWait c (.bar f.fn.toNat))
              { s with barriers := Assoc.put key (arrive [] []) s.barriers }))))
    ∧ (∀ f : FmtR, Issues s c f.guard [.s f.a, .s f.b] false → f.d = 0 → f.c = 0 → f.x = 0 → f.fn.toNat < 4 →
      (addrForm (x.rdS f.a) 8 = none → exec (.waitv c f) s = .next (s.kill c 0x030B))
      ∧ (addrForm (x.rdS f.a) 8 ≠ none →
          let t := s.setCore c { x with wait := some (.waitv (x.rdS f.a) (x.rdS f.b) f.fn) }
          exec (.waitv c f) s = .next (after (fun u => u.pollWait c) t) ∧ exec (.waitvPoll c) t = .next (after (fun u => u.pollWait c) t)))
    ∧ (∀ f : FmtJ, Issues s c f.guard [] false → f.rsv = 0 → f.off = 0 →
      (s.stepSegs n ≤ x.seg + 1 → exec (.segend c f) s = .next (s.kill c 0x030F))
      ∧ (x.seg + 1 < s.stepSegs n → exec (.segend c f) s = .next (after (startWait c .segend) s))
      ∧ exec (.stepend c f) s = .next (after (startWait c .stepend) s))

/-- R218: a poll of WAITV on a local word that its checks let through ends the wait where the condition of its function code holds
between the word and sB, and goes on waiting otherwise. -/
def Sys2Proof.Claims.WaitPolls : Prop :=
  ∀ (c : CoreId) (n : Part) (s : State) (addr b : Word) (fn : BitVec 8) (a phys : Nat) (hit : Bool), s.partOf c = some n →
    (s.core c).wait = some (.waitv addr b fn) → (s.core c).killed = none → addrForm addr 8 = some (none, a) →
    s.place (s.coreAcc c) a 8 false = .ok ⟨.core, phys, 0, none⟩ → Clean s phys 8 →
    (let w := wordAt s phys
     (fn = 0 ∧ hit = decide (w = b)) ∨ (fn = 1 ∧ hit = decide (w ≠ b)) ∨ (fn = 2 ∧ hit = decide (b.toInt ≤ w.toInt))
       ∨ (fn = 3 ∧ hit = decide (b.toNat ≤ w.toNat))) →
    (hit = false → ∃ t, exec (.waitvPoll c) s = .next t ∧ t.cores = s.cores ∧ t.mem = s.mem)
    ∧ (hit = true → (s.core c).loops = [] → (s.core c).mxq = [] → (s.core c).vxq = [] → (s.core c).txq = [] → (s.core c).lxq = []
        → (s.core c).svq = [] → (s.core c).lxRuns = [] → (s.core c).collRuns = [] → s.waiters n = [c] → s.barriers = []
        → (s.svPart n).running.syncs = [] →
        ∃ t, exec (.waitvPoll c) s = .next t ∧ t.core c = { s.core c with wait := none, pc := (s.core c).pc + 1 } ∧ t.mem = s.mem)


/-! ## Collectives, die stations, lists, audit units -/

namespace Sys2Proof.Claims

open Sys2Proof.Machine

/-- R418: the collectives and their kinds. -/
def collOf : Instr → Option (CoreId × FmtT × Nat)
  | .allreduceSum c f => some (c, f, 1)
  | .reduceSum c f => some (c, f, 2)
  | .reduceScatterSum c f => some (c, f, 3)
  | .allreduceMax c f => some (c, f, 4)
  | .allgather c f => some (c, f, 5)
  | .broadcast c f => some (c, f, 6)
  | .barrier c f => some (c, f, 7)
  | _ => none

/-- What a command of a die station does: partition, late register's tag, its two operands. -/
abbrev DieEffect := State → CoreId → Part → Nat → Word → Word → State

/-- R209: the commands of KV (station 0), EX (1) and SV (2), with their function codes and what each does there. -/
def dieOf : Instr → Option (CoreId × FmtR × Nat × Nat × DieEffect)
  | .alloc c f => some (c, f, 0, 1, fun s => s.kvAlloc)
  | .kvPage c f => some (c, f, 0, 2, fun s => s.kvPageCmd)
  | .route c f => some (c, f, 1, 1, fun s => s.exRoute)
  | .dispatch c f => some (c, f, 1, 2, fun s => s.exDispatchCmd)
  | .waitin c f => some (c, f, 1, 3, fun s => s.exWaitinCmd)
  | .returnRows c f => some (c, f, 1, 4, fun s => s.exReturnCmd)
  | .combine c f => some (c, f, 1, 5, fun s => s.exCombineCmd)
  | .exQuery c f => some (c, f, 1, 6, fun s => s.exQueryCmd)
  | .draftsync c f => some (c, f, 2, 1, fun s => s.draftsync)
  | .yield c f => some (c, f, 2, 2, fun s c n tag a _ => s.svYield c n tag a)
  | _ => none

/-- A core with quiet stations, no loop, no call and no late result. -/
def Bare (s : State) (c : CoreId) (n : Part) : Prop :=
  QuietStations s c n ∧ (s.core c).calls = [] ∧ (s.core c).loops = [] ∧ (s.core c).late = []

end Sys2Proof.Claims

/-- R195, R211, R418, R420, R424: a COLL of any kind whose group address is aligned and whose source descriptor passes its
checks takes the lowest handle of the eight that is not in use, writes its number to sD, and its read of the group descriptor
and the source tile begins; with all eight in use it waits. -/
def Obligations.CollectiveIssue : Prop :=
  ∀ (i : Instr) (c : CoreId) (f : FmtT) (k : Nat) (s : State), collOf i = some (c, f, k) →
    Issues s c f.guard [.td f.t0, .td f.t1, .s f.s] false → f.fn.toNat = k → f.q0 = 0 → f.q1 = 0 → f.q2 = 0 → f.q3 = 0 → f.m = 0 →
    (addrForm ((s.core c).rdS f.s) 64 = none → exec i s = .next (s.kill c 0x030B))
    ∧ (∀ a, addrForm ((s.core c).rdS f.s) 64 = some a →
        (∀ e, k ≠ 7 → descCheck ((s.core c).rdTd f.t0) false = some e → exec i s = .next (s.kill c e))
        ∧ (k = 7 ∨ descCheck ((s.core c).rdTd f.t0) false = none →
            (s.freeHandle c = none → exec i s = .next s)
            ∧ ∀ h, s.freeHandle c = some h → h < 8 ∧
              exec i s = .next (after (State.thenNext c (fun t =>
                let y := (t.core c).wrS f.s2 (BitVec.ofNat 64 h)
                let run : CollRun :=
                  { kind := k, src := (s.core c).rdTd f.t0, dst := (s.core c).rdTd f.t1, handle := h, entries := false,
                    pieces := [⟨s.elsewhere a.1, a.2, 64, none, none⟩]
                      ++ (if k = 7 then [] else s.tilePieces ((s.core c).rdTd f.t0)) }
                t.setCore c { y with colls := Assoc.put h ⟨false, []⟩ y.colls, collRuns := y.collRuns ++ [run] })) s)))

/-- R209, R212: a DCMD names its register late and runs its station's command with sA and sB; a station that is not there or a
reserved bit is 0x0302. -/
def Sys2Proof.Claims.DieCommands : Prop :=
  ∀ (i : Instr) (c : CoreId) (f : FmtR) (station fn : Nat) (run : DieEffect) (n : Part) (s : State),
    dieOf i = some (c, f, station, fn, run) → s.partOf c = some n → Issues s c f.guard [.s f.a, .s f.b] false →
    (f.c = 0 → f.x.toNat = station → f.fn.toNat = fn →
      exec i s = .next (after (State.thenNext c (fun t =>
        run (t.updCore c (fun y => y.addLate (.s f.d))) c n (s.core c).nextTag ((s.core c).rdS f.a) ((s.core c).rdS f.b))) s))
    ∧ (f.c ≠ 0 ∨ 2 < f.x.toNat → exec i s = .next (s.kill c 0x0302))

/-- R268, R293, R297, R303: with its stations quiet, KV PAGE answers a page's address, SV YIELD the tokens and end reason of a
checked sequence, SV DRAFTSYNC the count of rows that are filled, and EX QUERY the total of an expert and whether it was
shipped; a page, row or expert that is not there answers its status. -/
def Sys2Proof.Claims.DieResults : Prop :=
  ∀ (c : CoreId) (f : FmtR) (n : Part) (s : State), Bare s c n → Issues s c f.guard [.s f.a, .s f.b] false → f.c = 0 →
    let a := ((s.core c).rdS f.a).toNat
    let b := ((s.core c).rdS f.b).toNat
    let answers (i : Instr) (status v : Nat) : Prop :=
      ∃ t, exec i s = .next t
        ∧ (t.core c).rdS f.d = (if f.d = 0 then 0 else BitVec.ofNat 64 (status * 2 ^ 48 + v % 2 ^ 48))
        ∧ (∀ r, r ≠ f.d → (t.core c).rdS r = (s.core c).rdS r) ∧ (t.core c).pc = (s.core c).pc + 1
        ∧ t = s.setCore c (t.core c)
    (f.x = 0 → f.fn = 2 →
      (∀ p, (s.pool c.die n).pageOf a (b / s.kvTokens n) = some p → answers (.kvPage c f) 0 (s.pageAddr c.die n p))
      ∧ ((s.pool c.die n).pageOf a (b / s.kvTokens n) = none → answers (.kvPage c f) 0x0508 0))
    ∧ (f.x = 2 → f.fn = 2 →
      (∀ row g, (s.svPart n).running.rows[a]? = some row → ((s.svPart n).running.yieldOf row.entry).checked = some g →
        let y := (s.svPart n).running.yieldOf row.entry
        answers (.yield c f) 0 (y.tokens.length + 256 * y.endReason.code))
      ∧ ((s.svPart n).running.rows[a]? = none → answers (.yield c f) 0x0508 0))
    ∧ (f.x = 2 → f.fn = 1 →
      (a + b ≤ (s.svPart n).running.rows.length →
        (∀ k, a ≤ k → k < a + b → ((s.svPart n).running.rows[k]?).all (fun r => decide (r.role = .verify)) = true
          ∧ (s.svPart n).running.rowFilled k = true) → answers (.draftsync c f) 0 b)
      ∧ ((s.svPart n).running.rows.length < a + b → answers (.draftsync c f) 0x0508 0))
    ∧ (f.x = 1 → f.fn = 6 →
      (∀ x, s.openLayer c.die n = some x → x.counted = true → a < x.cfg.experts → (s.core c).rdS f.b = 0 →
        answers (.exQuery c f) 0 (x.total a % 2 ^ 32 + if x.shipped.contains a then 2 ^ 32 else 0))
      ∧ (s.openLayer c.die n = none → answers (.exQuery c f) 0x0402 0))

/-- R147, R148: CLAIM at a list that is used up, its HEAD at its LENGTH, writes all ones to sD and changes no memory; otherwise it
stores HEAD + 1, gives the old HEAD and makes the entry MX's item. -/
def Sys2Proof.Claims.ListClaims : Prop :=
  ∀ (c : CoreId) (f : FmtR) (n : Part) (s : State) (a phys : Nat), Bare s c n → Issues s c f.guard [.s f.a] false → f.b = 0 →
    f.c = 0 → f.fn = 0 → f.x = 0 → addrForm ((s.core c).rdS f.a) 64 = some (none, a) →
    s.place (s.coreAcc c) a 64 false = .ok ⟨.core, phys, 0, none⟩ → Clean s phys 64 →
    (s.loadN (phys + 8) 4 ≤ s.loadN (phys + 12) 4 →
      ∃ t, exec (.claim c f) s = .next t ∧ (t.core c).rdS f.d = (if f.d = 0 then 0 else 0xFFFFFFFFFFFFFFFF) ∧ t.mem = s.mem
        ∧ (t.core c).mx.item = none ∧ (t.core c).pc = (s.core c).pc + 1 ∧ t.claims = s.claims
        ∧ ∀ r, r ≠ f.d → (t.core c).rdS r = (s.core c).rdS r)
    ∧ (s.loadN (phys + 12) 4 < s.loadN (phys + 8) 4 → ∀ t w, s.claim c a = (t, .ok w) →
        exec (.claim c f) s = .next { onCore c 1 (fun x => x.wrS f.d w) t with pending := s.pending }
        ∧ w = BitVec.ofNat 64 (s.loadN (phys + 12) 4))

/-- R229, R230, R493: AUDB opens a unit of the core with its number and the registers at its start, and a draw decides whether
it is sampled; AUDE closes it, counts it, and queues its replay on the die if it was sampled; with no unit open it is 0x030E. -/
def Sys2Proof.Claims.AuditUnits : Prop :=
  ∀ (c : CoreId) (n : Part) (s : State), Bare s c n →
    (∀ f : FmtI, Issues s c f.guard [] false → f.d = 0 → f.a = 0 → f.imm.toNat < 65536 →
      ∃ t b, exec (.audb c f) s = .next t
        ∧ t.core c = { s.core c with
            audit := some ⟨(s.core c).nextTag, f.imm.setWidth 16, b, (s.core c).s.toList, (s.core c).p.toList,
              (s.core c).td.toList, []⟩
            nextTag := (s.core c).nextTag + 1
            pc := (s.core c).pc + 1 }
        ∧ t.reg .intSampled = s.reg .intSampled + (if b then 1 else 0)
        ∧ t = { s.setCore c (t.core c) with regs := t.regs, freeCtr := t.freeCtr })
    ∧ (∀ f : FmtJ, Issues s c f.guard [] true → f.rsv = 0 → f.off = 0 →
      ((s.core c).audit = none → exec (.aude c f) s = .next (s.kill c 0x030E))
      ∧ ∀ u, (s.core c).audit = some u →
        ∃ t, exec (.aude c f) s = .next t ∧ t.core c = { s.core c with audit := none, pc := (s.core c).pc + 1 }
          ∧ t.reg .intUnits = s.reg .intUnits + 1 ∧ t.mem = s.mem
          ∧ (u.sampled = false → t.integ = s.integ)
          ∧ (u.sampled = true → ∀ i, s.siteOf c = some i → ∃ r : Replay,
              Assoc.getD c.die [] t.integ.queue = Assoc.getD c.die [] s.integ.queue ++ [r]
              ∧ r.site = i ∧ r.part = n ∧ r.seg = (s.core c).seg ∧ r.unit = u.unit ∧ r.audit = u))

/-- R121, R210, R297: a bank whose loading ends is complete; STOPCHK checks the sequences of the rows it names, in order. -/
def Sys2Proof.Claims.LoadAndStopChecks : Prop :=
  ∀ (c : CoreId) (n : Part) (s : State),
    (QuietStations s c n → (s.core c).killed = none → ∀ (bank : Bool) (k : MxBank),
      (if bank then (s.core c).mx.bank1 else (s.core c).mx.bank0) = some k →
      ∃ t, exec (.mxLoadComplete c bank) s = .next t
        ∧ (if bank then (t.core c).mx.bank1 else (t.core c).mx.bank0) = some { k with complete := true }
        ∧ t = s.setCore c { s.core c with mx := (t.core c).mx })
    ∧ (∀ f : FmtT, Issues s c f.guard [.s f.s, .s f.s2] false → s.partOf c = some n → f.q0 = 0 → f.q1 = 0 → f.q2 = 0 → f.q3 = 0 →
        f.t0 = 0 → f.t1 = 0 → f.fn = 0 → f.m = 0 →
        exec (.stopchk c f) s = .next (after (State.thenNext c (fun t =>
          (dedup (((((s.svPart n).running.rows.drop ((s.core c).rdS f.s).toNat).take ((s.core c).rdS f.s2).toNat)).map (·.entry))).foldl
            (fun u e => u.checkSeq c n e) t)) s))


/-! ## The exchange, the Pannier, the memory tiers -/

namespace Sys2Proof.Claims

open Sys2Proof.Machine

/-- Where an exchange segment is for this module and goes on to no other (R414): addressed to it alone, or to a group whose tree
ends here. -/
def EndsHere (s : State) (n : Part) (g : ExSegment) : Prop :=
  (g.mask = 0 ∧ g.dstModule = s.self)
    ∨ (g.mask ≠ 0 ∧ g.mask.getLsbD s.self.val = true ∧ s.treePorts n g.srcModule (maskMods g.mask) 3 = [])

/-- Nothing but the bytes that came in over the torus ports is different (R65, R69). -/
def OnlyCounted (s u : State) : Prop :=
  u = { s with doms := u.doms } ∧ ∀ m, u.dom m = { s.dom m with fabBy := (u.dom m).fabBy }

/-- The exchange segments. -/
def exchangeOf : Instr → Option (Part × ExKind × ExSegment)
  | .countRecord n g => some (n, .count, g)
  | .dispatchSegment n g => some (n, .dispatch, g)
  | .returnSegment n g => some (n, .ret, g)
  | .shipSegment n g => some (n, .ship, g)
  | _ => none

end Sys2Proof.Claims

/-- R251, R254, R255, R262, R407, R414: an exchange segment of a later tick or a later run, or of a domain that is not running
yet, is held; one of an earlier run of the tick is discarded and counted; one of an earlier tick or of a suspended domain is
discarded; one of the tick and run now is taken by its die. Its bytes count on the port it comes in by (R65, R69). One that is
for other modules goes on towards them, and where it is not for this one nothing else is done with it. -/
def Sys2Proof.Claims.ExchangeStamps : Prop :=
  ∀ (i : Instr) (n : Part) (kind : ExKind) (g : ExSegment) (s : State), exchangeOf i = some (n, kind, g) →
    (EndsHere s n g → (∀ c, (s.dom n).lastTick = some c → c < g.tick.toNat) →
      let d := s.dom n
      (d.tick < g.tick.toNat ∨ (g.tick.toNat = d.tick ∧ (d.state = .idle ∨ d.state = .starting
          ∨ ((d.state = .running ∨ d.state = .rewinding) ∧ d.run < g.run))) →
        ∃ u, OnlyCounted s u ∧ exec i s = .next { u with fab := { s.fab with heldX := s.fab.heldX ++ [(n, kind, g)] } })
      ∧ (g.tick.toNat < d.tick ∨ (g.tick.toNat = d.tick ∧ d.state = .suspended) → ∃ u, OnlyCounted s u ∧ exec i s = .next u)
      ∧ (g.tick.toNat = d.tick → d.state = .running ∨ d.state = .rewinding →
          (g.run < d.run → ∃ u t, OnlyCounted s u ∧ exec i s = .next t ∧ t.reg .fabDiscards = s.reg .fabDiscards + 1
            ∧ t = { u with regs := t.regs })
          ∧ (g.run = d.run → ∃ u, OnlyCounted s u ∧ exec i s = .next (after (fun t =>
              (State.exSend n 4 t kind { g with dstModule := s.self }).exRun n) u))))
    ∧ ((g.mask = 0 ∧ g.dstModule ≠ s.self)
        ∨ (g.mask.getLsbD s.self.val = false ∧ s.treePorts n g.srcModule (maskMods g.mask) 3 ≠ [] ∧ g.mask ≠ 0) →
        ∃ t, exec i s = .next t ∧ Msg.exchange kind g ∈ t.tx ∧ t.fab.heldX = s.fab.heldX ∧ t.ex = s.ex ∧ t.mem = s.mem
          ∧ t.cores = s.cores)

/-- R239, R246, R247, R267, R270: a die that has counts of another module but not of all, for the limit, raises 0x0404; one
that waits for rows, weights or results for the limit raises 0x0405; each keeps the code with segment and tick in EX.FAULT and
stops the cores of the partition on the die. -/
def Sys2Proof.Claims.ExchangeTimeouts : Prop :=
  ∀ (die : Fin 8) (n : Part) (s : State) (x : ExLayer), s.openLayer die n = some x →
    (x.counted = false → (∃ m ∈ x.counts, m.1 ≠ s.self) →
      ∃ t, exec (.exCountTimeout die n) s = .next t
        ∧ t.reg .exFault die.val = faultWord 0x0404 x.seg (s.dom n).tick ∧ t.mem = s.mem ∧ t.ex = s.ex
        ∧ ∀ c, c.die = die → (s.core c).running = true → s.partOf c = some n → (t.core c).killed.isSome = true)
    ∧ (x.counted = true → (∃ e ∈ x.landsOn (s.self, die), e ∉ x.landed) →
      ∃ t, exec (.exDataTimeout die n) s = .next t
        ∧ t.reg .exFault die.val = faultWord 0x0405 x.seg (s.dom n).tick ∧ t.mem = s.mem ∧ t.ex = s.ex
        ∧ ∀ c, c.die = die → (s.core c).running = true → s.partOf c = some n → (t.core c).killed.isSome = true)

/-- R343, R344: the end of a background copy of an entry's pages ends the entry's demotion on the die, marks its promotion copied,
and gives the ALLOCs their results that waited for these pages alone. -/
def Sys2Proof.Claims.PageCopies : Prop :=
  ∀ (die : Fin 8) (n : Part) (e : Nat) (s : State), s.waiters n = [] → (s.svPart n).running.syncs = [] →
    (s.dom n).applyWaits = false → ∃ t, exec (.kvPageCopyDone die n e) s = .next t
    ∧ (t.pool die n).demoting = (s.pool die n).demoting.filter (fun x => decide (x.1 ≠ e))
    ∧ (t.pool die n).taken = (s.pool die n).taken
    ∧ (t.pool die n).promote = (s.pool die n).promote.map (fun x => if x.1 = e then (x.1, x.2.1, x.2.2.1, true) else x)
    ∧ t.mem = s.mem ∧ (∀ k, t.raw k = s.raw k) ∧ ∀ q, q ≠ (die, n) → t.pool q.1 q.2 = s.pool q.1 q.2

/-- R314, R315, R316, R317, R349: with ECC on, a scrub of a unit with one symbol in error corrects it, counts it and logs its
address; one with two cannot: it poisons the 64-byte unit, counts and logs it, and starts the frame's retirement into the lowest
free spare; with more either happens, which is left open (log 103); a clean unit changes nothing. The unit at address 0 starts a
new period of counts. -/
def Sys2Proof.Claims.MemoryScrub : Prop :=
  ∀ (s : State) (u : BitVec 50), let a := u.toNat / 64 * 64
    (a = 0 → exec (.memScrub u 0) s = .next { s with ms := { s.ms with ceCount := [] } })
    ∧ (a ≠ 0 → (∀ bad, s.closeTop ≤ a ∨ (s.reg .memCtrl).getLsbD 0 = false → exec (.memScrub u bad) s = .next s)
      ∧ (a < s.closeTop → (s.reg .memCtrl).getLsbD 0 = true →
        exec (.memScrub u 0) s = .next s
        ∧ (Assoc.getD (s.frameOf a) 0 s.ms.ceCount + 1 < s.regN .memCeThresh →
            ∃ t, exec (.memScrub u 1) s = .next t ∧ t.reg .memCeCount = s.reg .memCeCount + 1
              ∧ t.reg .memErrLog = BitVec.ofNat 64 (a % 2 ^ 50)
              ∧ Assoc.find (s.frameOf a) t.ms.ceCount = some (Assoc.getD (s.frameOf a) 0 s.ms.ceCount + 1)
              ∧ t = { s with regs := t.regs, ms := { s.ms with ceCount := t.ms.ceCount } })
        ∧ (∀ k, s.freeSpare (s.frameOf a).1 = some k → s.ms.retired = [] → s.ms.copying = [] → s.ms.poisoned = [] →
            ∃ t, exec (.memScrub u 2) s = .next t ∧ t.reg .memUeCount = s.reg .memUeCount + 1
              ∧ t.reg .memErrLog = BitVec.ofNat 64 (2 ^ 63 + a % 2 ^ 50)
              ∧ t = { s with regs := t.regs
                             ms := { s.ms with poisoned := [a / 64], copying := [(s.frameOf a, k, (s.mdOf a).2)] } })
        ∧ (∀ bad, 3 ≤ bad → ∃ t, exec (.memScrub u bad) s = .next t
            ∧ (t.reg .memUeCount = s.reg .memUeCount + 1 ∨ t.reg .memCeCount = s.reg .memCeCount + 1)
            ∧ ∀ b, b < a ∨ a + 64 ≤ b → t.mem.read b = s.mem.read b)))

/-- R317: the end of a frame's copy maps it to its spare, counts it and reports 0x0605 with the frame's address. -/
def Sys2Proof.Claims.FrameRetirement : Prop :=
  ∀ (s : State) (md : Fin 4) (frame : Nat) (k : Nat × Nat), Assoc.find (md, frame) s.ms.copying = some k →
    ∃ t, exec (.frameRetireCopyDone md frame) s = .next t
      ∧ t.ms.retired = s.ms.retired ++ [((md, frame), k)] ∧ t.ms.copying = Assoc.del (md, frame) s.ms.copying
      ∧ t.reg .memRetired = s.reg .memRetired + 1 ∧ t.reg .memCode = 0x0605 ∧ t.trust.repairs = s.trust.repairs + 1
      ∧ t.mem = s.mem ∧ t.cores = s.cores ∧ t.doms = s.doms

/-- R320, R321, R322, R345, R350, R352: a device within the limits takes an enabled port into service with its width, rate,
capacity and poisoned units; a width or rate that the port has not is no training; another device is refused with 0x060B; a
port that trained below full width or rate reports 0x060C; a link that goes down trains again; an access without a response is
0x0604: it stops its core's segment, or is the error of the segment that its die station serves. -/
def Sys2Proof.Claims.CxlPorts : Prop :=
  ∀ (s : State) (p : Fin 4),
    (∀ dev : CxlDevice, ¬ ((dev.width = 16 ∨ dev.width = 8) ∧ (dev.rate = 64 ∨ dev.rate = 32)) →
      exec (.cxlTrained p dev) s = .next s)
    ∧ (∀ dev : CxlDevice, (s.reg .cxlCtrl 0 p.val).getLsbD 0 = true → (s.cxlPort p).state = .down ∨ (s.cxlPort p).state = .training →
      dev.width = 16 ∨ dev.width = 8 → dev.rate = 64 ∨ dev.rate = 32 →
      (s.cxlRefuses p dev = true → ∃ t, exec (.cxlTrained p dev) s = .next t
        ∧ (t.cxlPort p).state = .refused ∧ t.reg .cxlCode 0 p.val = 0x060B ∧ t.mem = s.mem ∧ ∀ q, q ≠ p → t.cxlPort q = s.cxlPort q)
      ∧ (s.cxlRefuses p dev = false → ∃ t, exec (.cxlTrained p dev) s = .next t
        ∧ t.cxlPort p = ⟨.inService, dev.width, dev.rate, (s.reg .cxlCtrl 0 p.val).getLsbD 1, dev.capacity, dev.poison⟩
        ∧ t.regN .cadAdmCxlBw = ((List.finRange 4).map t.cxlRate).sum % 2 ^ 64
        ∧ (dev.width < 16 ∨ dev.rate < 64 → t.reg .cxlCode 0 p.val = 0x060C)
        ∧ (16 ≤ dev.width → 64 ≤ dev.rate → t = { s with cxl := t.cxl, regs := t.regs })
        ∧ t.mem = s.mem ∧ ∀ q, q ≠ p → t.cxlPort q = s.cxlPort q))
    ∧ ((s.cxlPort p).state = .inService → ∃ t, exec (.cxlLinkDown p) s = .next t
        ∧ (t.cxlPort p).state = .training ∧ t.reg .cxlLinkDowns 0 p.val = s.reg .cxlLinkDowns 0 p.val + 1
        ∧ t = { s with cxl := t.cxl, regs := t.regs } ∧ ∀ q, q ≠ p → t.cxlPort q = s.cxlPort q)
    ∧ (∀ c n, RunsIn s c n → (s.core c).running = true → ∃ t, exec (.cxlTimeout p (.core c)) s = .next t
        ∧ (t.core c).killed = some 0x0604 ∧ t.reg .cxlCode 0 p.val = 0x0604 ∧ t.reg .memCode = 0x0604
        ∧ (t.core c).s = (s.core c).s ∧ t.mem = s.mem)
    ∧ (∀ d n, (s.dom n).state = .running → ∃ t, exec (.cxlTimeout p (.station d n)) s = .next t
        ∧ (t.dom n).errs = (s.dom n).errs ++ [(s.segNow n, 0x0604, none)]
        ∧ t.reg .cxlCode 0 p.val = 0x0604 ∧ t.reg .memCode = 0x0604 ∧ t = { s with regs := t.regs, doms := t.doms })
    ∧ (∃ t, exec (.cxlTimeout p .agent) s = .next t ∧ t.reg .cxlCode 0 p.val = 0x0604 ∧ t.reg .memCode = 0x0604
        ∧ t = { s with regs := t.regs })

/-- R339, R340: an epoch's end keeps at most one frame per 2 MiB slot and forgets the epoch's counts; a copy that ends serves
its frame and is counted; bytes of a hit that the device serves after all count as the port's, not as the cache's. -/
def Sys2Proof.Claims.TierCache : Prop :=
  ∀ s : State,
    (∃ t, exec .tcEpochEnd s = .next t ∧ t.ms.tcSlots.length ≤ s.regN .memTcSize / 2097152 ∧ t.ms.tcBytes = []
      ∧ (∀ f, (f, true) ∈ t.ms.tcSlots → (f, true) ∈ s.ms.tcSlots)
      ∧ (∀ f b, (f, b) ∈ t.ms.tcSlots → (∃ b', (f, b') ∈ s.ms.tcSlots)
          ∨ (s.tcCandidate f = true ∧ ∃ k, (f, k) ∈ s.ms.tcBytes ∧ s.regN .memTcThresh * 2097152 ≤ k))
      ∧ t = { s with ms := { s.ms with tcSlots := t.ms.tcSlots, tcBytes := [] } })
    ∧ (∀ f, (f, false) ∈ s.ms.tcSlots → ∃ t, exec (.tcCopyDone f) s = .next t ∧ (f, true) ∈ t.ms.tcSlots
        ∧ t.reg .memTcCopies = s.reg .memTcCopies + 1 ∧ t.mem = s.mem
        ∧ t = { s with regs := t.regs, ms := { s.ms with tcSlots := t.ms.tcSlots } })
    ∧ ∀ f, (Assoc.find f s.ms.tcHits = none → exec (.tcHitFallback f) s = .next s)
        ∧ ∀ k, Assoc.find f s.ms.tcHits = some k → ∃ t, exec (.tcHitFallback f) s = .next t
            ∧ t.regN .memTcHitBytes = s.regN .memTcHitBytes - k
            ∧ (let p := (f * 2097152 - cxlBase) / 0x20000000000
               t.reg .cxlRdBytes 0 p = s.reg .cxlRdBytes 0 p + BitVec.ofNat 64 k)
            ∧ t = { s with regs := t.regs, ms := { s.ms with tcHits := Assoc.del f s.ms.tcHits } }

/-- R333, R351: a fill that ends, of a range that reads without an error, makes its item VALID and counts its bytes; one whose
range does not read makes no item VALID and keeps the code in PN.CODE (log 105). The directory loses no item, and no other
die's changes. -/
def Sys2Proof.Claims.PannierFills : Prop :=
  ∀ (s : State) (d : Fin 8) (i : PnItem), (s.pnDir d).filter (fun j => decide (j.state = .filling)) = [i] →
    (∀ p, s.place (hostAcc i.part) i.src i.bytes false = .ok p → Clean s p.phys i.bytes →
      ∃ t, exec (.pnFillComplete d) s = .next t ∧ { i with state := .valid } ∈ t.pnDir d
        ∧ t.reg .pnFillBytes d.val = s.reg .pnFillBytes d.val + BitVec.ofNat 64 i.bytes
        ∧ (t.pnDir d).length = (s.pnDir d).length
        ∧ t = { s with regs := t.regs, pn := t.pn, ms := { s.ms with tcBytes := t.ms.tcBytes, tcHits := t.ms.tcHits } }
        ∧ ∀ e, e ≠ d → t.pnDir e = s.pnDir e)
    ∧ (∀ e, s.place (hostAcc i.part) i.src i.bytes false = .error e →
      ∃ t, exec (.pnFillComplete d) s = .next t ∧ t.reg .pnCode d.val = e.setWidth 64
        ∧ (∀ j ∈ t.pnDir d, j.state = .valid → j ∈ s.pnDir d) ∧ (t.pnDir d).length = (s.pnDir d).length
        ∧ t = { s with regs := t.regs, pn := t.pn } ∧ ∀ e, e ≠ d → t.pnDir e = s.pnDir e)


/-- R29, R30, R73, R585: an exchange with the parent puts its round trip into the last 64, takes the parent's bound, and locks
from the 64th on with a bound below 100 ns; what TBC lacks of the parent's time with half the mean of the round trips is the
offset steered in, and a locked TBC does not step (log 42); one from another partner is answered. A bound above 1,000 ns
suspends every enabled domain after its tick; a module without an UP port takes its role after READY. -/
def Sys2Proof.Claims.TimeExchanges : Prop :=
  (∀ (s : State) (p : Port) (time t1 t2 t3 b : Word), s.tb.parent = some p →
    ∃ t, exec (.timeSync p time t1 t2 t3 b) s = .next t
      ∧ t.tb.trips = (((s.tb.tbc - t1) - (t3 - t2)) :: s.tb.trips).take 64 ∧ t.tb.errBound = b
      ∧ (s.tb.state = .acquiring → t.tb.state = if 64 ≤ t.tb.trips.length ∧ b.toNat < 100 then .locked else .acquiring)
      ∧ (s.tb.state = .holdover → t.tb.state = if b.toNat < 100 then .locked else .holdover)
      ∧ (s.tb.state = .locked → t.tb.state = .locked ∧ t.tb.tbc = s.tb.tbc)
      ∧ t.tb.tbc + BitVec.ofInt 64 t.tb.offset
          = time + BitVec.ofNat 64 ((t.tb.trips.map (·.toNat)).sum / t.tb.trips.length / 2)
      ∧ t = { s with tb := t.tb, integ := t.integ } ∧ t.opTime = s.opTime)
  ∧ (∀ (s : State) (p : Port) (time t1 t2 t3 b : Word), s.tb.parent ≠ some p → s.timeLink s.self p = true → s.tb.state ≠ .free →
      exec (.timeSync p time t1 t2 t3 b) s = .next (after (fun t => t.sendTime p [t1, s.tb.tbc, s.tb.tbc]) s))
  ∧ (∀ (s : State) (b : Word), ∃ t, exec (.tbUnlocked b) s = .next t ∧ t.tb = { s.tb with errBound := b }
      ∧ (b.toNat ≤ 1000 → t = { s with tb := { s.tb with errBound := b } })
      ∧ (1000 < b.toNat → ∀ n, s.enabled n = true → (s.dom n).state ≠ .suspended →
          t.dom n = { s.dom n with suspendAfter := some 0x0102 } ∧ t.reg .cadDomCode 0 n.val = 0x0102)
      ∧ (∀ n, s.enabled n = false ∨ (s.dom n).state = .suspended → t.dom n = s.dom n) ∧ t.mem = s.mem ∧ t.cores = s.cores)
  ∧ (∀ s : State, s.tb.state = .free → s.boot.ready = true → (∀ p, (s.port p).state ≠ .up) →
      exec .tbRoleTimeout s = .next (after State.takeRole s)
      ∧ (s.timeRoot = s.self → ∃ t, exec .tbRoleTimeout s = .next t ∧ t.tb.state = .root ∧ t.tb.hops = 0 ∧ t.tb.errBound = 0
          ∧ t = { s with tb := t.tb }))

/-! ## Domains -/

/-- R38, R39, R467: enabling a domain that is enabled does nothing; with settings outside their limits, an invalid partition,
a silent module or a change that touches it, it stays disabled with 0x0106; otherwise it starts at K0, before any SETTINGS has
come, with its counts at zero. Disabling one that is disabled does nothing; otherwise it is idle, without its settings' lock. -/
def Sys2Proof.Claims.DomainEnable : Prop :=
  ∀ (s : State) (n : Part),
    (s.enabled n = true → exec (.domEnable n) s = .next s)
    ∧ (s.enabled n = false → (s.settingsOk n && s.partValid n && !s.silent n && !s.changePends n) = false →
        exec (.domEnable n) s = .next (after (fun t => t.domReport n 0x0106) s))
    ∧ (s.enabled n = false → (s.settingsOk n && s.partValid n && !s.silent n && !s.changePends n) = true →
        (s.dom n).tally.settings = [] →
        ∃ t, exec (.domEnable n) s = .next t
          ∧ t.enabled n = true ∧ (t.dom n).state = .starting ∧ (t.dom n).tick = s.regN .cadDomTick 0 n.val
          ∧ (t.dom n).run = 0 ∧ (t.dom n).master = (s.members n).headD s.self
          ∧ t.reg .cadDomRetracts 0 n.val = 0 ∧ t.reg .cadDomShift 0 n.val = 0 ∧ t.mem = s.mem)
    ∧ (s.enabled n = false → exec (.domDisable n) s = .next s)
    ∧ (s.enabled n = true → ∃ t, exec (.domDisable n) s = .next t ∧ t.enabled n = false ∧ (t.dom n).state = .idle)

/-- R38, R278: the lowest-index module of a slice records each member's SETTINGS while its domain is idle or starting. A
domain whose SETTINGS have all come and agree starts its first tick. -/
def Sys2Proof.Claims.DomainStart : Prop :=
  (∀ (s : State) (m : Mgmt) (d : Settings), s.firstMaster m.dom = s.self → m.module = m.src.val → (s.dom m.dom).state = .idle →
    ∃ t, exec (.settings m d) s = .next t
      ∧ (t.dom m.dom) = { s.dom m.dom with tally :=
          { (s.dom m.dom).tally with settings := Assoc.put m.src d (s.dom m.dom).tally.settings } }
      ∧ t = s.setDom m.dom (t.dom m.dom))
  ∧ (∀ (s : State) (n : Part), (s.dom n).state = .starting → s.agreed n = true →
      exec (.tickStart n) s = .next (after (fun t => (((t.finalise n).startTick n).takeEarly n).wakeAll n) s)
      ∧ (s.fab.held = [] →
          let u := (s.finalise n).startTick n
          (u.dom n).state = .running ∧ (u.dom n).run = 0 ∧ (u.dom n).voted = 0 ∧ (u.dom n).passed = 0
            ∧ (u.dom n).journal = [] ∧ (u.dom n).committed = false))
  ∧ (∀ (s : State) (n : Part), (s.dom n).state ≠ .starting ∨ s.agreed n = false → exec (.tickStart n) s = .next s)

/-- R44, R45, R46: once every core has ended the segment or was killed in it, its units are replayed and its requests
answered, a module votes on it, with the first error's code or 0, and goes on to its next segment: to the master and the
deputy, and where it is one of them it takes its own vote too. A member that is neither sends its vote and its WAIT to both.
Before that it casts no vote. -/
def Sys2Proof.Claims.MemberVotes : Prop :=
  (∀ (s : State) (n : Part),
    (s.mayVote n = true → (s.dom n).traps = [] →
      exec (.voteCast n) s = .next (after (fun _ =>
        let d := s.dom n
        let u := s.setDom n { d with voted := d.voted + 1 }
        let m := s.segMsg n d.voted (((d.errs.find? (fun e => decide (e.1 = d.voted))).map (fun e => e.2.1)).getD 0) s.self.val
        ((u.sendMgmt .vote (s.tellers n) m []).takeVote m).takeEarly n) s))
    ∧ (s.mayVote n = false → exec (.voteCast n) s = .next s))
  ∧ ∀ (s : State) (n : Part), s.isMaster n = false → s.isDeputy n = false → (s.dom n).early = [] →
    (s.mayVote n = true → (s.dom n).traps = [] →
      ∃ t, exec (.voteCast n) s = .next t
        ∧ Msg.mgmt .vote (s.tellers n) (s.segMsg n (s.dom n).voted ((s.dom n).voteCode (s.dom n).voted) s.self.val) [] ∈ t.tx
        ∧ (t.dom n).voted = (s.dom n).voted + 1 ∧ (t.dom n).run = (s.dom n).run ∧ (t.dom n).errs = (s.dom n).errs
        ∧ t.mem = s.mem ∧ t.cores = s.cores)
    ∧ ((s.dom n).live = true → (s.dom n).committed = false → s.silent n = false → (s.dom n).voted < s.stepSegs n →
      ∃ t, exec (.waitFrameSend n) s = .next t
        ∧ Msg.mgmt .wait (s.tellers n) (s.segMsg n (s.dom n).voted 0 s.self.val) [] ∈ t.tx
        ∧ t.mem = s.mem ∧ t.cores = s.cores ∧ (t.dom n).voted = (s.dom n).voted)

/-- R45, R46, R47, R50, R55, R480: the master holds the votes of the running tick; while one is missing it only records it.
With all it resolves the next segment: PASS to every member where all are clean, COMMIT after the last one, and otherwise
RETRACT with the code of the lowest-index module whose code is not a pre-emption's, or ABORT when the retractions of the tick
are used up. A WAIT is recorded. -/
def Sys2Proof.Claims.MasterResolves : Prop :=
  (∀ (s : State) (m : Mgmt), s.isMaster m.dom = true ∨ s.isDeputy m.dom = true → (s.dom m.dom).live = true →
    m.tick.toNat = (s.dom m.dom).tick → m.run = (s.dom m.dom).run →
    (∃ t, exec (.wait m) s = .next t ∧ (t.dom m.dom).tally.waits = (s.dom m.dom).tally.waits ++ [(m.seg, m.src)]
      ∧ t = s.setDom m.dom (t.dom m.dom))
    ∧ ((s.dom m.dom).tally.resolved ≤ m.seg → (∀ v ∈ (s.dom m.dom).tally.votes, ¬(v.1 = m.seg ∧ v.2.1 = m.src)) →
        (s.dom m.dom).early = [] →
        let u := s.setDom m.dom { s.dom m.dom with
          tally := { (s.dom m.dom).tally with votes := (s.dom m.dom).tally.votes ++ [(m.seg, m.src, m.code)] } }
        (exec (.vote m) s = .next (after (fun _ => (State.resolve m.dom 65 u).takeEarly m.dom) s))
        ∧ (u.complete? m.dom (s.dom m.dom).tally.resolved = false → exec (.vote m) s = .next u)))
  ∧ (∀ (s : State) (n : Part) (k : Nat), s.isMaster n = true → (s.dom n).state = .running → (s.dom n).committed = false →
      let j := (s.dom n).tally.resolved
      j < s.stepSegs n → s.complete? n j = true →
      let dirty := ((s.dom n).tally.votesFor j).filter (fun v => decide (v.2 ≠ 0))
      let faults := dirty.filter (fun v => decide (v.2 ≠ 0x0A04))
      (dirty = [] → ∃ u, u = (s.broadcast n .pass (s.segMsg n j 0 0)).doPass n j
          ∧ State.resolve n (k + 1) s = if u.stepSegs n ≤ j + 1 then u.commitAll n else State.resolve n k u)
      ∧ (∀ v, v ∈ faults → (∀ w ∈ faults, v.1 ≤ w.1) → (∀ w ∈ faults, w.1 = v.1 → w = v) →
          ((s.dom n).run < s.regN .cadDomMaxRetracts 0 n.val →
            State.resolve n (k + 1) s = (s.broadcast n .retract { s.segMsg n j v.2 v.1.val with run := (s.dom n).run + 1 }).doRetract n j
              ((s.dom n).run + 1) v.2 v.1.val)
          ∧ (s.regN .cadDomMaxRetracts 0 n.val ≤ (s.dom n).run → State.resolve n (k + 1) s = s.abortAll n)))

/-- R41, R46, R48, R52 to R55: a member takes the master's results of the running tick: PASS passes the next segment and
forgets its errors; RETRACT with a later run restores from its segment on; ABORT discards the tick and suspends the domain
with 0x0108; COMMIT fixes the apply time. An acknowledgement of a retraction is recorded and ends the sender's silence.
Messages of another tick or from another module than the master change nothing. -/
def Sys2Proof.Claims.MasterResults : Prop :=
  ∀ (s : State) (m : Mgmt),
    (s.fromMaster m = true →
      (m.run = (s.dom m.dom).run → m.seg = (s.dom m.dom).passed →
        exec (.pass m) s = .next (after (fun t => t.doPass m.dom m.seg) s)
        ∧ (s.waiters m.dom = [] → (s.svPart m.dom).running.syncs = [] → ∃ t, exec (.pass m) s = .next t
            ∧ (t.dom m.dom).passed = m.seg + 1 ∧ (t.dom m.dom).errs = (s.dom m.dom).errs.filter (fun e => decide (e.1 ≠ m.seg))
            ∧ (t.dom m.dom).tally.resolved = m.seg + 1 ∧ t = s.setDom m.dom (t.dom m.dom)))
      ∧ (∃ t, exec (.commit m) s = .next t ∧ t = s.setDom m.dom { s.dom m.dom with committed := true, applyAt := some m.time })
      ∧ exec (.abort m) s = .next (after (fun t => t.doAbort m.dom) s)
      ∧ ((s.dom m.dom).run < m.run → (s.dom m.dom).passed ≤ m.seg → m.code ≠ 0x0104 →
          exec (.retract m) s =
            .next (after (fun t => (t.doRetract m.dom m.seg m.run m.code m.module).takeEarly m.dom) s)))
    ∧ (s.fromMaster m = false → exec (.pass m) s = .next s ∧ exec (.commit m) s = .next s ∧ exec (.abort m) s = .next s)
    ∧ (s.isMaster m.dom = true ∨ s.isDeputy m.dom = true → (s.dom m.dom).live = true → m.tick.toNat = (s.dom m.dom).tick →
        m.run = (s.dom m.dom).run →
        ∃ t, exec (.retractAck m) s = .next t ∧ (t.dom m.dom).tally.acks = (s.dom m.dom).tally.acks ++ [m.src]
          ∧ ((s.dom m.dom).tally.silent = some m.src → (t.dom m.dom).tally.silent = none)
          ∧ ((s.dom m.dom).tally.silent ≠ some m.src → (t.dom m.dom).tally.silent = (s.dom m.dom).tally.silent)
          ∧ t = s.setDom m.dom (t.dom m.dom))

/-- R51, R52, R53: the master retracts a segment with 0x0104 for a member of which it has neither vote nor WAIT, once a first
vote on the segment has come, and aborts where a silent member's acknowledgement stays out; a deputy with every vote and no
result becomes master, reports 0x010C, and retracts for the former master. -/
def Sys2Proof.Claims.SilentModules : Prop :=
  ∀ (s : State) (n : Part), let d := s.dom n
    (∀ m, s.isMaster n = true → d.state = .running → d.committed = false → m ∈ s.members n → d.tally.resolved < s.stepSegs n →
      (∀ v ∈ d.tally.votes, ¬(v.1 = d.tally.resolved ∧ v.2.1 = m)) → (d.tally.resolved, m) ∉ d.tally.waits →
      (∃ v ∈ d.tally.votes, v.1 = d.tally.resolved) →
      exec (.silentTimeout n m) s = .next (after (fun t =>
        let u := t.retractAll n d.tally.resolved 0x0104 m
        if (u.dom n).live ∧ m ∉ (u.dom n).tally.acks then u.updTally n (fun k => { k with silent := some m }) else u) s))
    ∧ (∀ m, (∀ v ∈ d.tally.votes, v.1 ≠ d.tally.resolved) → exec (.silentTimeout n m) s = .next s)
    ∧ (s.isMaster n = true → d.live = true → d.tally.silent.isSome = true →
        exec (.rejoinTimeout n) s = .next (after (fun t => t.abortAll n) s))
    ∧ (s.isDeputy n = true → d.state = .running → d.committed = false → d.tally.resolved < s.stepSegs n →
        s.complete? n d.tally.resolved = true →
        ∃ u, u.dom n = { d with master := s.self, deputy := (s.members n).find? (fun x => decide (s.self < x)) }
          ∧ u = s.setDom n (u.dom n)
          ∧ exec (.masterFailover n) s = .next (after (fun _ =>
              let w := (u.domReport n 0x010C (natBytes 1 d.master.val)).retractAll n d.tally.resolved 0x0104 d.master
              if (w.dom n).live then w.updTally n (fun t => { t with silent := some d.master }) else w) s))

/-- R56, R57, R73, R344: COMMIT_APPLY without a scheduled commit does nothing; with one it applies the tick's work, moves to
the next tick and notes the tick and its time, unless a promotion's copy is under way, for which the apply waits. -/
def Sys2Proof.Claims.CommitApplies : Prop :=
  ∀ (s : State) (n : Part),
    ((s.dom n).applyAt = none → exec (.commitApply n) s = .next s)
    ∧ (∀ time, (s.dom n).applyAt = some time → (s.dom n).state = .running →
      (s.promotionRuns n (s.dom n).tick = true → ∃ t, exec (.commitApply n) s = .next t
        ∧ t = s.setDom n { s.dom n with applyWaits := true })
      ∧ (s.promotionRuns n (s.dom n).tick = false → (s.dom n).applyWaits = false →
        ∃ u, u = s.commitWork n time ∧ exec (.commitApply n) s = .next (after (fun _ => u.afterApply n) s)
          ∧ (u.dom n).tick = (s.dom n).tick + 1 ∧ (u.dom n).lastTick = some (s.dom n).tick ∧ (u.dom n).applyAt = none
          ∧ (u.dom n).committed = false ∧ u.reg .cadDomLastCommit 0 n.val = time))

/-- R64, R278, R281, R304, R481: at an admission close of a domain whose batch is not yet built, the configuration written
since takes effect, the issue level is evaluated, the intake applied and the batch of the next tick built; the end of a
pre-emption's hold lets the domain run again. -/
def Sys2Proof.Claims.AdmissionAndHold : Prop :=
  ∀ (s : State) (n : Part), let d := s.dom n
    ((s.svPart n).next.isSome = true ∨ d.state = .idle ∨ d.state = .suspended → exec (.admissionClose n) s = .next s)
    ∧ ((s.svPart n).next = none → d.live = true ∨ d.state = .starting →
        let k := if d.state = .starting then d.tick else d.tick + 1
        ∃ u, u = ((s.latchCfg n).evalIssueLevel n).applyIntake n k
          ∧ ((u.svPart n).mismatch = false → exec (.admissionClose n) s = .next (after (fun _ => u.buildBatch n k) s))
          ∧ ((u.svPart n).mismatch = true → ∃ t, exec (.admissionClose n) s = .next t
              ∧ (∃ b, (t.svPart n).next = some b ∧ b.tick = k ∧ b.mismatch = true ∧ b.plan = []) ∧ t.mem = u.mem))
    ∧ (d.holding = false → exec (.preemptHoldEnd n) s = .next s)
    ∧ (d.holding = true → exec (.preemptHoldEnd n) s = .next (after (fun t =>
        (((t.updDom n (fun x => { x with holding := false, state := .running })).mapCores n
          (fun _ x => x.restore d.voted)).keepHeld n).wakeAll n) s))


/-! ## Host commands: helpers -/

namespace Sys2Proof.Claims

open Sys2Proof.Machine

/-- A host command of an owner's session starts (R440, R443 to R446): the module is READY, the command is the first of its
queue, or the queue is empty, the session is of the kind the command needs, its queue is one the owner has, and its body is no
longer than 16 MiB. -/
def Accepted (s : State) (cmd : Code) (f : Frame) (o : SessOwner) (kind : SessKind) : Prop :=
  s.boot.ready = true ∧ s.cmdOwner cmd f = some o ∧ o.isKind kind = true ∧ s.queueOk o f.queue = true
    ∧ (s.queue (o.queueKey, f.queue.toNat) = []
        ∨ ∃ q l, s.queue (o.queueKey, f.queue.toNat) = q :: l ∧ q.cmd = cmd ∧ q.frame = f ∧ q.started = false)
    ∧ f.body.length ≤ 16777216

/-- The command at the head of its queue, started; TBC at its arrival stays with it (R274). -/
def started (s : State) (cmd : Code) (f : Frame) (o : SessOwner) : State :=
  let q := s.queue (o.queueKey, f.queue.toNat)
  s.setQueue (o.queueKey, f.queue.toNat) (⟨cmd, f, true, (q.head?.map (·.arrival)).getD s.tb.tbc⟩ :: q.tail)

/-- Once it is accepted, a command on the sessions of `kind` does what `run` says, from the state in which it has started. -/
def Effect (i : Instr) (cmd : Code) (f : Frame) (o : SessOwner) (kind : SessKind) (s : State) (run : State → State) : Prop :=
  Accepted s cmd f o kind → exec i s = .next (after (fun t => run (started t cmd f o)) s)

/-- A command that is accepted completes with a status and a body, in a state that `run` gives. -/
def Answers (i : Instr) (cmd : Code) (f : Frame) (o : SessOwner) (kind : SessKind) (s : State) (status : Code)
    (body : List Byte := []) (run : State → State := id) : Prop :=
  Effect i cmd f o kind s (fun t => (run t).complete cmd f status body)

/-- The host commands: their codes, frames and kinds of session (R390, R445, R446 and the chapters of each). -/
def hostOf : Instr → Option (Code × Frame × SessKind)
  | .hostNop f => some (0x0001, f, .any)
  | .unknownCommand cmd f => some (cmd, f, .any)
  | .memRead f => some (0x0050, f, .part)
  | .memWrite f => some (0x0051, f, .part)
  | .regRead f => some (0x0052, f, .mgmt)
  | .regWrite f => some (0x0053, f, .mgmt)
  | .modelLoad f => some (0x0030, f, .part)
  | .modelActivate f => some (0x0031, f, .part)
  | .modelDrop f => some (0x0032, f, .part)
  | .modelRepair f => some (0x0033, f, .part)
  | .modelQuery f => some (0x0034, f, .part)
  | .pnLoad f => some (0x0040, f, .part)
  | .pnPin f => some (0x0041, f, .part)
  | .pnUnpin f => some (0x0042, f, .part)
  | .pnDrop f => some (0x0043, f, .part)
  | .pnQuery f => some (0x0044, f, .part)
  | .channelOpen f => some (0x0060, f, .any)
  | .channelClose f => some (0x0061, f, .any)
  | .fabricMap f => some (0x0070, f, .mgmt)
  | .submit f => some (0x0010, f, .part)
  | .cancel f => some (0x0011, f, .part)
  | .resultRead f => some (0x0012, f, .part)
  | .resultAck f => some (0x0013, f, .part)
  | .programInstall f => some (0x0020, f, .part)
  | .programRemove f => some (0x0021, f, .part)
  | .secEnroll f => some (0x0090, f, .mgmt)
  | .secChange f => some (0x0091, f, .mgmt)
  | .secQuery f => some (0x0092, f, .any)
  | .secKeyLoad f => some (0x0093, f, .any)
  | .secKeyErase f => some (0x0094, f, .any)
  | .secRecordRead f => some (0x0095, f, .any)
  | .secReport f => some (0x0096, f, .any)
  | .secRecordLoad f => some (0x0097, f, .mgmt)
  | .pwrCap f => some (0x00A0, f, .mgmt)
  | .pwrHeartbeat f => some (0x00A1, f, .mgmt)
  | .pwrQuery f => some (0x00A2, f, .any)
  | .intSnapshotRead f => some (0x00B0, f, .mgmt)
  | .intSnapshotClear f => some (0x00B1, f, .mgmt)
  | .derQuery f => some (0x00B2, f, .any)
  | .derQuarantine f => some (0x00B3, f, .mgmt)
  | .derScan f => some (0x00B4, f, .mgmt)
  | .partQuery f => some (0x00C0, f, .any)
  | .preempt f => some (0x00C1, f, .mgmt)
  | .bootFwWrite f => some (0x00D0, f, .mgmt)
  | .bootFwActivate f => some (0x00D1, f, .mgmt)
  | .bootFwCommit f => some (0x00D2, f, .mgmt)
  | .bootResetCold f => some (0x00D3, f, .mgmt)
  | .bootResetWarm f => some (0x00D3, f, .mgmt)
  | .bootPartReset f => some (0x00D4, f, .mgmt)
  | .bootCoreReset f => some (0x00D5, f, .mgmt)
  | _ => none

end Sys2Proof.Claims

/-- R442 to R446: no command starts before READY; behind an unstarted command of its queue it waits, and past 1,024 waiting it
is refused with 0x0904; on the wrong kind of session it completes with 0x0907, on a queue its owner does not have with 0x0906,
and with a body over 16 MiB with 0x0901. NOP completes with success, an unassigned command with 0x0902: the completion frame
carries command, number, status and body, leaves the queue, and counts for its partition. -/
def Obligations.CommandStart : Prop :=
  (∀ (i : Instr) (cmd : Code) (f : Frame) (kind : SessKind) (s : State), hostOf i = some (cmd, f, kind) →
    (s.boot.ready = false → exec i s = .next s)
    ∧ ∀ o, s.boot.ready = true → s.cmdOwner cmd f = some o → o.isKind .any = true →
      let k := (o.queueKey, f.queue.toNat)
      (∀ q l, s.queue k = q :: l → q.cmd ≠ cmd ∨ q.frame ≠ f → (∀ x ∈ l, x.cmd ≠ cmd ∨ x.frame ≠ f) →
        (l.length < 1023 → exec i s = .next (s.setQueue k (s.queue k ++ [⟨cmd, f, false, s.tb.tbc⟩])))
        ∧ (1023 ≤ l.length → exec i s = .next (after (fun t => t.answerCmd cmd f 0x0904) s)))
      ∧ (s.queue k = [] →
          (o.isKind kind = false → exec i s = .next (after (fun t => (started t cmd f o).complete cmd f 0x0907) s))
          ∧ (o.isKind kind = true → s.queueOk o f.queue = false →
              exec i s = .next (after (fun t => (started t cmd f o).complete cmd f 0x0906) s))
          ∧ (o.isKind kind = true → s.queueOk o f.queue = true → 16777216 < f.body.length →
              exec i s = .next (after (fun t => (started t cmd f o).complete cmd f 0x0901) s))))
  ∧ (∀ (f : Frame) (o : SessOwner) (s : State),
      (f.body = [] → Answers (.hostNop f) 0x0001 f o .any s 0) ∧ (f.body ≠ [] → Answers (.hostNop f) 0x0001 f o .any s 0x0901)
      ∧ ∀ cmd, Answers (.unknownCommand cmd f) cmd f o .any s 0x0902)
  ∧ (∀ (f : Frame) (n : Part) (s : State), f.body = [] → Accepted s 0x0001 f (.part n) .any → s.sessOwner f.session = some (.part n) →
      (∀ q ∈ s.hp.queues, q.1 = (some n, f.queue.toNat)) →
      ∃ t, exec (.hostNop f) s = .next t ∧ Msg.completion f.session 0x0001 f.cmdId 0 [] ∈ t.tx
        ∧ t.queue (some n, f.queue.toNat) = (s.queue (some n, f.queue.toNat)).tail
        ∧ t.reg .hpPCmds 0 n.val = s.reg .hpPCmds 0 n.val + 1 ∧ t.mem = s.mem ∧ t.cores = s.cores ∧ t.doms = s.doms)

/-- R58, R447, R448: MEM_READ answers the committed bytes of a range of its partition and MEM_WRITE writes them there, SERVING
memory of an enabled domain excepted; REG_READ answers a register's value and REG_WRITE writes one. A malformed body is
0x0901, an address outside the space 0x0601, a place that the checks refuse its code, a poisoned unit 0x0603. -/
def Sys2Proof.Claims.HostMemoryAndRegisters : Prop :=
  ∀ (f : Frame) (n : Part) (s : State),
    (let a := fieldNat f.body 0 8
     let len := fieldNat f.body 8 8
     (f.body.length ≠ 16 ∨ 1048576 < len → Answers (.memRead f) 0x0050 f (.part n) .part s 0x0901)
     ∧ (f.body.length = 16 → len ≤ 1048576 →
        (2 ^ 50 ≤ a → Answers (.memRead f) 0x0050 f (.part n) .part s 0x0601)
        ∧ (a < 2 ^ 50 →
          (len = 0 → Answers (.memRead f) 0x0050 f (.part n) .part s 0)
          ∧ ∀ e, 0 < len → s.place (hostAcc n) a len false = .error e →
              Answers (.memRead f) 0x0050 f (.part n) .part s e [] (fun t => t.accessFails a e))
        ∧ ∀ p, a < 2 ^ 50 → 0 < len → s.place (hostAcc n) a len false = .ok p →
            (s.poisonedIn p.phys len = true → Answers (.memRead f) 0x0050 f (.part n) .part s 0x0603)
            ∧ (Clean s p.phys len → p.space = .core → p.region = none →
                (s.dom n).before = [] → Answers (.memRead f) 0x0050 f (.part n) .part s 0 (s.load p.phys len))))
    ∧ (let a := fieldNat f.body 0 8
       let bs := f.body.drop 8
       (f.body.length < 8 ∨ 1048576 < bs.length → Answers (.memWrite f) 0x0051 f (.part n) .part s 0x0901)
       ∧ (8 < f.body.length → bs.length ≤ 1048576 →
          (2 ^ 50 ≤ a → Answers (.memWrite f) 0x0051 f (.part n) .part s 0x0601)
          ∧ (∀ e, a < 2 ^ 50 → s.place (hostAcc n) a bs.length true = .error e →
              Answers (.memWrite f) 0x0051 f (.part n) .part s e [] (fun t => t.accessFails a e))
          ∧ ∀ p, a < 2 ^ 50 → s.place (hostAcc n) a bs.length true = .ok p →
              (p.cls ≠ 0 → s.enabled n = true → Answers (.memWrite f) 0x0051 f (.part n) .part s 0x0903)
              ∧ (p.cls = 0 ∨ s.enabled n = false → p.space = .core → Clean s p.phys bs.length →
                  Answers (.memWrite f) 0x0051 f (.part n) .part s 0 [] (fun t => t.putBytes p bs)
                  ∧ (∀ b, b < p.phys ∨ p.phys + bs.length ≤ b → (s.putBytes p bs).mem.read b = s.mem.read b)
                  ∧ (s.putBytes p bs).load p.phys bs.length = bs)))
    ∧ (f.body.length = 8 → Answers (.regRead f) 0x0052 f .mgmt .mgmt s 0 (wordBytes ((started s 0x0052 f .mgmt).readAddr (fieldNat f.body 0 8))))
    ∧ (f.body.length ≠ 8 → Answers (.regRead f) 0x0052 f .mgmt .mgmt s 0x0901)
    ∧ (f.body.length = 16 → Answers (.regWrite f) 0x0053 f .mgmt .mgmt s 0 []
        (fun t => t.writeAddr false (fieldNat f.body 0 8) (bytesWord (f.body.drop 8))))
    ∧ (f.body.length ≠ 16 → Answers (.regWrite f) 0x0053 f .mgmt .mgmt s 0x0901)

/-- R331, R332, R390, R452: the Pannier's commands load, pin, unpin, drop and list the items of a partition; CHANNEL_OPEN
opens a channel that is not open with its ring and destination, CHANNEL_CLOSE closes one of its own; FABRIC_MAP installs a map
while the module's own place stays, or all domains are disabled. -/
def Sys2Proof.Claims.PannierChannelAndMapCommands : Prop :=
  ∀ (f : Frame) (n : Part) (o : SessOwner) (s : State),
    (let k := f.body.length / 32
     let rs := (List.range k).map (fun i => pnRecord ((f.body.drop (32 * i)).take 32))
     (f.body.length = 32 * k → 0 < k → k ≤ 256 → Effect (.pnLoad f) 0x0040 f (.part n) .part s (fun t =>
        (t.pnLoadAll n rs).1.complete 0x0040 f (t.pnLoadAll n rs).2))
     ∧ (f.body.length ≠ 32 * k ∨ k = 0 ∨ 256 < k → Answers (.pnLoad f) 0x0040 f (.part n) .part s 0x0901)
     ∧ (∀ r d, f.body.length = 32 → r = pnRecord f.body → s.pnRecordBad n r = false → maskDies r.mask = [d] → s.pnDir d = [] →
          r.bytes ≤ s.regN .pnPQuota d.val n.val * 1048576 → ∃ t, s.pnLoadAll n [r] = (t, 0)
            ∧ t.pnDir d = [⟨r.src, r.bytes, n, r.prio, r.version, r.pin, 0, .filling⟩] ∧ t.mem = s.mem))
    ∧ (f.body.length = 16 →
        let a := fieldNat f.body 0 8
        let len := fieldNat f.body 8 4
        let mask := f.body.getD 12 0
        (fieldNat f.body 13 3 = 0 →
          Effect (.pnPin f) 0x0041 f (.part n) .part s (fun t =>
            (t.pnSetPin n a len mask true).1.complete 0x0041 f (t.pnSetPin n a len mask true).2)
          ∧ Effect (.pnUnpin f) 0x0042 f (.part n) .part s (fun t =>
            (t.pnSetPin n a len mask false).1.complete 0x0042 f (t.pnSetPin n a len mask false).2))
        ∧ (fieldNat f.body 13 1 = 0 → Effect (.pnDrop f) 0x0043 f (.part n) .part s (fun t =>
            let r := t.pnDropAll n (some (a, len)) (BitVec.ofNat 16 (fieldNat f.body 14 2)) mask
            r.1.complete 0x0043 f r.2))
        ∧ (fieldNat f.body 13 1 = 1 → Effect (.pnDrop f) 0x0043 f (.part n) .part s (fun t =>
            let r := t.pnDropAll n none (BitVec.ofNat 16 (fieldNat f.body 14 2)) mask
            r.1.complete 0x0043 f r.2)))
    ∧ (∀ d : Fin 8, f.body.length = 4 → fieldNat f.body 0 4 = d.val →
        Answers (.pnQuery f) 0x0044 f (.part n) .part s 0 ((s.pnDir d).flatMap PnItem.record))
    ∧ (f.body.length ≠ 4 → Answers (.pnQuery f) 0x0044 f (.part n) .part s 0x0901)
    ∧ (let c := fieldNat f.body 0 4
       let ring := fieldNat f.body 8 4
       f.body.length = 32 → c < 4096 → fieldNat f.body 6 2 = 0 → fieldNat f.body 12 4 = 0 → 1 ≤ ring → ring ≤ 256 →
        (s.chan c = none → Answers (.channelOpen f) 0x0060 f o .any s 0 [] (fun t =>
          t.setChan c { owner := o.queueKey, dst := addrOf (f.body.drop 16), port := fieldNat f.body 4 2,
                        ringBytes := ring * 1048576, nextSeq := 1, ring := [] }))
        ∧ ((s.chan c).isSome = true → Answers (.channelOpen f) 0x0060 f o .any s 0x0903))
    ∧ (f.body.length = 4 → ∀ x, s.chan (fieldNat f.body 0 4) = some x →
        (x.owner = o.queueKey → (∀ e ∈ s.sv.entries, e.2.state = .free ∨ e.2.channel ≠ fieldNat f.body 0 4) →
          Answers (.channelClose f) 0x0061 f o .any s 0 [] (fun t =>
            { t with hp := { t.hp with channels := Assoc.del (fieldNat f.body 0 4) t.hp.channels } }))
        ∧ (x.owner ≠ o.queueKey → Answers (.channelClose f) 0x0061 f o .any s 0x0903))
    ∧ (mapBad f.body = true → Answers (.fabricMap f) 0x0070 f .mgmt .mgmt s 0x0812 [] (fun t => t.setReg .fabCode 0 0 0x0812))
    ∧ (mapBad f.body = false →
        (mapSelf f.body = some s.self ∨ s.allDisabled = true →
          Answers (.fabricMap f) 0x0070 f .mgmt .mgmt s 0 [] (fun t => t.installMap f.body))
        ∧ (mapSelf f.body ≠ some s.self → s.allDisabled = false → Answers (.fabricMap f) 0x0070 f .mgmt .mgmt s 0x0903))

/-! ## Weight supply -/

/-- R357, R366, R367, R373, R374: MODEL_ACTIVATE and MODEL_DROP go to the master; MODEL_QUERY answers the eight slots;
MODEL_REPAIR of a shard of a READY, ACTIVE or RETIRING version starts the repair on every module; MODEL_LOAD refuses a
manifest that is malformed (0x0701), not signed (0x0702), already in the slot table (0x0903), or without a slot (0x0705). -/
def Sys2Proof.Claims.ModelCommands : Prop :=
  ∀ (f : Frame) (n : Part) (s : State),
    (f.body.length = 8 → fieldNat f.body 4 4 ≤ 1 →
      Effect (.modelActivate f) 0x0031 f (.part n) .part s (fun t => t.forwardCmd 0x0031 f n))
    ∧ (f.body.length ≠ 8 ∨ 1 < fieldNat f.body 4 4 → Answers (.modelActivate f) 0x0031 f (.part n) .part s 0x0901)
    ∧ (f.body.length = 4 → Effect (.modelDrop f) 0x0032 f (.part n) .part s (fun t => t.forwardCmd 0x0032 f n))
    ∧ (f.body.length ≠ 4 → Answers (.modelDrop f) 0x0032 f (.part n) .part s 0x0901)
    ∧ (f.body = [] → Answers (.modelQuery f) 0x0034 f (.part n) .part s 0 ((List.finRange 8).flatMap (s.slotRecord n)))
    ∧ (f.body ≠ [] → Answers (.modelQuery f) 0x0034 f (.part n) .part s 0x0901)
    ∧ (let v := BitVec.ofNat 16 (fieldNat f.body 0 4)
       let shard := fieldNat f.body 4 4
       f.body.length = 8 →
        (s.slotOf n v = none → Answers (.modelRepair f) 0x0033 f (.part n) .part s 0x0706)
        ∧ ∀ i x, s.slotOf n v = some (i, x) →
          (x.state = .loading ∨ x.state = .failed → Answers (.modelRepair f) 0x0033 f (.part n) .part s 0x0903)
          ∧ (x.state ≠ .loading → x.state ≠ .failed →
            (x.shards.length ≤ shard → Answers (.modelRepair f) 0x0033 f (.part n) .part s 0x0701)
            ∧ (shard < x.shards.length → s.otherMembers n = [] →
                Answers (.modelRepair f) 0x0033 f (.part n) .part s 0 [] (fun t => t.startRepair n v shard))))
    ∧ (let tmo := fieldNat f.body 12 4
       (f.body.length ≠ 16 ∨ 60000 < tmo ∨ (0 < tmo ∧ tmo < 10) → Answers (.modelLoad f) 0x0030 f (.part n) .part s 0x0901)
       ∧ (f.body.length = 16 → tmo = 0 ∨ (10 ≤ tmo ∧ tmo ≤ 60000) → ∀ u b,
          (started s 0x0030 f (.part n)).readMem (hostAcc n) (fieldNat f.body 0 8) (fieldNat f.body 8 4) = (u, .ok b) →
          let v := BitVec.ofNat 16 (fieldNat b 6 2)
          (manifestBad (u.sliceReg n) b = true → Answers (.modelLoad f) 0x0030 f (.part n) .part s 0x0701 [] (fun _ => u))
          ∧ (manifestBad (u.sliceReg n) b = false →
            (u.manifestSigned n b = false → Answers (.modelLoad f) 0x0030 f (.part n) .part s 0x0702 [] (fun _ => u))
            ∧ (u.manifestSigned n b = true →
              ((u.slotOf n v).isSome = true → Answers (.modelLoad f) 0x0030 f (.part n) .part s 0x0903 [] (fun _ => u))
              ∧ (u.slotOf n v = none → u.freeSlot n = none → Answers (.modelLoad f) 0x0030 f (.part n) .part s 0x0705 [] (fun _ => u))
              ∧ (u.slotOf n v = none → (u.freeSlot n).isSome = true → u.otherMembers n = [] → u.orders n = u.self →
                  u.self ∈ u.members n → (∀ l ∈ u.loads, ¬(l.part = n ∧ l.number = v)) →
                  Effect (.modelLoad f) 0x0030 f (.part n) .part s (fun _ =>
                    ((u.popCmd 0x0030 f).masterLoad ⟨0x0030, n, u.self, u.arrivedAt 0x0030 f,
                      { f with body := f.body ++ natBytes 2 v.toNat }⟩).takeManifest n b (if tmo = 0 then 2000 else tmo)))))))

/-- R358 to R363: a manifest is kept for the intake and its placement reported; a report reaches the master's tally; a queued
shard, the first of its version, with fewer than 16 in progress starts to be read and its storage endpoint is asked; a try
that fails at a reader is noticed to the other keepers and waits before the next; a retry reads again; a module that waits in
vain for the reader's copy queues the shard to read it itself; a reader with a verified copy reads it from memory and sends it
again. -/
def Sys2Proof.Claims.ShardSupply : Prop :=
  (∀ (s : State) (m : Mgmt) (b : List Byte) (t : Word), exec (.manifestReceive m b t) s = .next (after (fun u => u.takeManifest m.dom b t.toNat) s)
    ∧ ∀ v shard, exec (.report m v shard) s = .next (after (fun u => u.takeReport m.dom m.src m.code v shard) s)
      ∧ (s.orders m.dom ≠ s.self → m.code = 0 ∨ (m.code = 0x0703 ∧ m.src ≠ s.orders m.dom) → exec (.report m v shard) s = .next s)
      ∧ (∀ i x, s.orders m.dom = s.self → m.code = 0x0708 → s.slotOf m.dom v = some (i, x) → Assoc.find shard x.repairs = none →
          x.state = .loading → Version.complete { x with verified := x.verified ++ [(m.src, shard)] } = false →
          (m.src, shard) ∉ x.verified → (∀ k, x.shards[shard]? = some k → k.reader ≠ m.src.val) →
          exec (.report m v shard) s = .next (s.setVer m.dom i { x with verified := x.verified ++ [(m.src, shard)] })))
  ∧ (∀ (s : State) (n : Part) (number : Code) (shard : Nat) (v : Version) (k : Shard) (x : Fetch),
      s.fetchOf n number shard = some (v, k, x) →
      (x.phase = .queued → (∀ y ∈ v.fetches, y.2.phase = .queued → shard ≤ y.1) → s.fetching < 16 →
        exec (.shardFetchStart n number shard) s = .next (after (fun t => t.startTry n v shard k x) s)
        ∧ ((v.sources[sourceIx v k x]?).any (·.onModule) = false → ∃ t, exec (.shardFetchStart n number shard) s = .next t
            ∧ t.tx = .shardFetch n v.number shard (sourceIx v k x) :: s.tx ∧ t = { s with wt := t.wt, tx := t.tx }))
      ∧ (x.phase ≠ .queued ∨ 16 ≤ s.fetching → exec (.shardFetchStart n number shard) s = .next s)
      ∧ (x.phase = .delay → exec (.shardRetryTimer n number shard) s = .next (after (fun t => t.startTry n v shard k x) s))
      ∧ (x.phase ≠ .delay → exec (.shardRetryTimer n number shard) s = .next s)
      ∧ (x.phase ≠ .reading → exec (.shardFetchTimeout n number shard) s = .next s)
      ∧ (x.phase = .reading →
          (s.reads k x = false → exec (.shardFetchTimeout n number shard) s =
            .next (s.setFetch n number shard { x with own := true, phase := .queued }))
          ∧ (s.reads k x = true → x.tries + 1 < 3 → exec (.shardFetchTimeout n number shard) s =
            .next (after (fun t => (t.noticeRetry n v.number shard k).setFetch n v.number shard
              { x with tries := x.tries + 1, phase := .delay }) s))
          ∧ (s.reads k x = true → 3 ≤ x.tries + 1 → exec (.shardFetchTimeout n number shard) s =
            .next (after (fun t => t.tryFailed n v shard k x) s)))
      ∧ (∀ target u bs, k.reader = s.self.val → x.phase = .verified →
          s.readMem (hostAcc n) k.dest k.bytes = (u, .ok bs) →
          exec (.shardResendRequest n number shard target) s = .next (after (fun _ => u.sendShard n number shard k [target] bs) s)
          ∧ (s.route n target = .none → u = s → exec (.shardResendRequest n number shard target) s = .next s)))

/-- R359 to R363, R366: the bytes of a shard's try are written at its destination for the partition of the load, no other byte of
memory changes, and with the manifest's length and SHA-384 digest the fetch is VERIFIED and reported. A module that is not the
reader asks for a further copy up to three times once it knows that the reader's passed, and then queues the shard to read the
sources itself; the reader sends the bytes on to the other keepers, and a wrong digest or a refused write fails its try. -/
def Sys2Proof.Claims.ShardVerification : Prop :=
  ∀ (s : State) (n : Part) (number : Code) (shard : Nat) (v : Version) (k : Shard) (x : Fetch) (bytes : List Byte),
    s.fetchOf n number shard = some (v, k, x) → x.phase = .reading → Assoc.find shard v.repairs = none →
    let right : Prop := bytes.length = k.bytes ∧ sha384 bytes = k.digest
    let put (u : State) := u.writeMem (hostAcc n) none k.dest (bytes.take k.bytes)
    (s.reads k x = false →
      (∀ w, put s = (w, .ok ()) →
        (right → exec (.shardVerify n number shard bytes) s =
            .next (after (fun _ => (w.setFetch n number shard { x with phase := .verified }).report n 0x0708 number shard false) s))
        ∧ (¬ right →
          (x.passed = false → exec (.shardVerify n number shard bytes) s =
            .next (after (fun _ => w.setFetch n v.number shard { x with bad := true }) s))
          ∧ (x.passed = true → x.resends < 3 → exec (.shardVerify n number shard bytes) s =
            .next (after (fun _ => (w.setFetch n v.number shard { x with resends := x.resends + 1 }).send
              (.shardResend (Fin.ofNat 64 k.reader) n v.number shard)) s))
          ∧ (x.passed = true → 3 ≤ x.resends → exec (.shardVerify n number shard bytes) s =
            .next (after (fun _ => w.setFetch n v.number shard { x with own := true, phase := .queued }) s)))
        ∧ ∀ p, s.place (hostAcc n) k.dest (bytes.take k.bytes).length true = .ok p →
            w.load p.phys (bytes.take k.bytes).length = bytes.take k.bytes
            ∧ ∀ b, b < p.phys ∨ p.phys + (bytes.take k.bytes).length ≤ b → w.mem.read b = s.mem.read b)
      ∧ (∀ w e, put s = (w, .error e) → exec (.shardVerify n number shard bytes) s = .next (after (fun _ => w.badTry n v shard k x) s)))
    ∧ (s.reads k x = true → (v.sources[sourceIx v k x]?).any (·.onModule) = false →
      let u := s.sendShard n number shard k (s.shardReaders k) bytes
      (∀ w, put u = (w, .ok ()) →
        (right → exec (.shardVerify n number shard bytes) s =
          .next (after (fun _ => (w.setFetch n number shard { x with phase := .verified }).report n 0x0708 number shard
            (!(w.shardReaders k).isEmpty)) s))
        ∧ (¬ right → exec (.shardVerify n number shard bytes) s = .next (after (fun _ => w.tryFailed n v shard k x) s)))
      ∧ (∀ w e, put u = (w, .error e) →
          exec (.shardVerify n number shard bytes) s = .next (after (fun _ => w.tryFailed n v shard k x) s)))


/-! ## Fabric links -/

namespace Sys2Proof.Claims

open Sys2Proof.Machine

/-- What a module sends that is no codeword: flits, packets and messages, in the order in which it sends them. -/
def plainOf (tx : List Msg) : List Msg := tx.filter (fun m => match m with
  | .codewords _ _ _ => false
  | _ => true)

/-- The rows that carry a flit, with its type. -/
def flitOf : Instr → Option (Port × Flit × FlitKind)
  | .dataFlit p fl => some (p, fl, .data)
  | .idleFlit p fl => some (p, fl, .idle)
  | .nak p fl => some (p, fl, .nak)
  | .ident p fl => some (p, fl, .ident)
  | .laneCtl p _ _ x => some (p, x.flit, .laneCtl)
  | _ => none

end Sys2Proof.Claims

/-- R379, R380, R385: corrected symbols of a window are counted, and a lane above FAB.LANE_SER_LIMIT or without codeword lock
is retired: its logical lane moves to the lowest free spare, which LANE_CTL names to the partner, with a REPAIR record and
event 0x0805; with no spare the port runs its eight lowest healthy lanes. The partner follows a LANE_CTL; a lane move that
does not end, repeated NAKs, and silence outside a move take the port DOWN. -/
def Sys2Proof.Claims.LaneRetirement : Prop :=
  ∀ (s : State) (p : Port), let x := s.port p
    x.state = .up →
    (∀ (lane : Fin 18) (k : Nat), lane.val ∈ x.lanes →
      (List.range 18).find? (fun k => x.healthy.getLsbD k && !(x.failed ||| BitVec.ofNat 18 (2 ^ lane.val)).getLsbD k
        && !x.lanes.contains k) = some k →
      (∃ t, exec (.laneLockLoss p lane) s = .next t
        ∧ (t.port p).lanes = x.lanes.map (fun l => if l = lane.val then k else l) ∧ (t.port p).moving = true
        ∧ (t.port p).failed = x.failed ||| BitVec.ofNat 18 (2 ^ lane.val) ∧ (t.port p).state = .up
        ∧ (∃ pair, Msg.flit p .laneCtl (flitWithCrc .laneCtl { flitEmpty with ack := x.rxSeq, payload :=
            ((List.range 240).map (Config.laneCtlByte (x.lanes.idxOf lane.val) k pair)) }) ∈ t.tx) ∧ t.reg .fabCode = 0x0805
        ∧ t.trust.repairs = s.trust.repairs + 1 ∧ t.mem = s.mem ∧ t.cores = s.cores)
      ∧ ∀ count, s.regN .fabLaneSerLimit < count → ∃ t, exec (.laneSerWindow p lane count) s = .next t
        ∧ (t.port p).lanes = x.lanes.map (fun l => if l = lane.val then k else l) ∧ (t.port p).moving = true
        ∧ t.reg .fabFecCorrected 0 p.val = s.reg .fabFecCorrected 0 p.val + BitVec.ofNat 64 count ∧ t.reg .fabCode = 0x0805)
    ∧ (∀ (lane : Fin 18) (count : Nat), count ≤ s.regN .fabLaneSerLimit → ∃ t, exec (.laneSerWindow p lane count) s = .next t
        ∧ t.reg .fabFecCorrected 0 p.val = s.reg .fabFecCorrected 0 p.val + BitVec.ofNat 64 count ∧ t = { s with regs := t.regs })
    ∧ (∀ (fl : Flit) (lane : Fin 16) (spare : Fin 18) (pair old : Nat), flitOk .laneCtl fl = true → x.lanes[lane.val]? = some old →
        old ≠ spare.val →
        ∃ t, exec (.laneCtl p lane spare ⟨fl, pair⟩) s = .next t
          ∧ (t.port p).lanes = modNth (fun _ => spare.val) lane.val x.lanes ∧ (t.port p).moving = true
          ∧ (t.port p).failed = x.failed ||| BitVec.ofNat 18 (2 ^ old) ∧ t.reg .fabCode = 0x0805 ∧ t.mem = s.mem)
    ∧ (x.moving = true → exec (.laneMoveTimeout p) s = .next (after (fun t => t.portDown p true) s)
        ∧ exec (.linkRxTimeout p) s = .next s)
    ∧ (x.moving = false → exec (.laneMoveTimeout p) s = .next s
        ∧ exec (.linkRxTimeout p) s = .next (after (fun t => t.portDown p true) s))
    ∧ exec (.linkNakLimit p) s = .next (after (fun t => t.portDown p true) s)
    ∧ ∃ t, exec (.linkNakLimit p) s = .next t ∧ (t.port p).state = .down ∧ (t.port p).retry = [] ∧ (t.port p).credits = []
        ∧ t.reg .fabLinkDowns 0 p.val = s.reg .fabLinkDowns 0 p.val + 1 ∧ t.mem = s.mem

/-- R381 to R384, R386, R426: on an UP port the next data flit in sequence that decodes, matches its CRC and has its TYPE is
taken, counted, acknowledged, and its credit returned in an IDLE flit; one out of sequence is discarded with its
acknowledgement. That, and a flit of any type whose codewords do not decode, whose CRC differs or whose TYPE is another, asks
once for retransmission with NAK. A NAK and an IDLE flit take their acknowledgement, and after a NAK every flit beyond it is
sent again. Flits fill the codewords of a pair: with the fifth the two go out over the lanes in use, 544 symbols each, header
and bytes first. -/
def Sys2Proof.Claims.FlitExchange : Prop :=
  ∀ (s : State) (p : Port) (fl : Flit), let x := s.port p
    x.state = .up →
    (flitOk .data fl = true → fl.seq = x.rxSeq + 1 → x.waiting = [] → ∃ t, exec (.dataFlit p fl) s = .next t
      ∧ (t.port p).rxSeq = fl.seq ∧ (t.port p).naked = false ∧ (t.port p).retry = afterAck fl.ack x.retry
      ∧ t.reg .fabRxFlits 0 p.val = s.reg .fabRxFlits 0 p.val + 1
      ∧ (let g := flitWithCrc .idle { flitEmpty with ack := fl.seq, creditVc := fl.vc, credits := 1 }
         plainOf t.tx = .flit p .idle g :: plainOf s.tx
         ∧ (x.stream.length < 1024 → (t.port p).stream = x.stream ++ flitBytes g ∧ t.tx = .flit p .idle g :: s.tx)
         ∧ (x.stream.length = 1024 → (t.port p).stream = []
            ∧ ∃ c d : List (BitVec 10), t.tx = .codewords p (laneSymbols x.lanes c) (laneSymbols x.lanes d) :: .flit p .idle g :: s.tx
              ∧ c.take 514 = codewordMessage false ((x.stream ++ flitBytes g).take 640)
              ∧ d.take 514 = codewordMessage true ((x.stream ++ flitBytes g).drop 640)
              ∧ c.drop 514 = rsParity (c.take 514) ∧ d.drop 514 = rsParity (d.take 514)))
      ∧ t = { s with regs := t.regs, fab := t.fab, tx := t.tx })
    ∧ (flitOk .data fl = true → fl.seq ≠ x.rxSeq + 1 → x.naked = false → ∃ t, exec (.dataFlit p fl) s = .next t
      ∧ (t.port p).rxSeq = x.rxSeq ∧ (t.port p).retry = x.retry ∧ (t.port p).naked = true
      ∧ plainOf t.tx = .flit p .nak (flitWithCrc .nak { flitEmpty with ack := x.rxSeq }) :: plainOf s.tx
      ∧ t.reg .fabNaks 0 p.val = s.reg .fabNaks 0 p.val + 1 ∧ t = { s with regs := t.regs, fab := t.fab, tx := t.tx })
    ∧ (∀ i k, flitOf i = some (p, fl, k) → flitOk k fl = false → x.naked = false → ∃ t, exec i s = .next t
      ∧ (t.port p).rxSeq = x.rxSeq ∧ (t.port p).retry = x.retry ∧ (t.port p).naked = true
      ∧ t.reg .fabNaks 0 p.val = s.reg .fabNaks 0 p.val + 1
      ∧ t.reg .fabFecUncorrected 0 p.val = s.reg .fabFecUncorrected 0 p.val
          + BitVec.ofNat 64 (fl.errs.filter (fun e => decide (15 < e))).length
      ∧ plainOf t.tx = .flit p .nak (flitWithCrc .nak { flitEmpty with ack := x.rxSeq }) :: plainOf s.tx
      ∧ t = { s with regs := t.regs, fab := t.fab, tx := t.tx })
    ∧ (flitOk .idle fl = true → x.waiting = [] → ∃ t, exec (.idleFlit p fl) s = .next t
      ∧ (t.port p).retry = afterAck fl.ack x.retry ∧ (t.port p).rxSeq = x.rxSeq
      ∧ (t.port p).credit fl.creditVc = x.credit fl.creditVc + fl.credits.toNat ∧ t = { s with fab := t.fab })
    ∧ (flitOk .nak fl = true → x.waiting = [] → ∃ t, exec (.nak p fl) s = .next t
      ∧ (t.port p).retry = afterAck fl.ack x.retry
      ∧ plainOf t.tx = ((afterAck fl.ack x.retry).map (fun g => Msg.flit p .data g)).reverse ++ plainOf s.tx
      ∧ t.reg .fabTxFlits 0 p.val = s.reg .fabTxFlits 0 p.val + BitVec.ofNat 64 (afterAck fl.ack x.retry).length
      ∧ t = { s with regs := t.regs, fab := t.fab, tx := t.tx })

/-- R378, R380, R392, R394 to R397: a DOWN port that is enabled and leads somewhere trains: PHY, which finds the permutation
of the lanes and their polarities, lane check, codeword lock, IDENT. The lane check takes as healthy a lane found in PHY with
no more corrected symbols than FAB.LANE_SER_LIMIT and keeps the sixteen or eight lowest, or the port starts over; a stage that
does not end starts over. Three identical records of the partner evaluate the port: UP, MISWIRED with 0x0803, or VERSION_HOLD
with 0x0804. -/
def Sys2Proof.Claims.PortTraining : Prop :=
  ∀ (s : State) (p : Port), let x := s.port p
    (x.state = .down → s.mayTrain p = true →
      exec (.portTrain p) s = .next (s.setPort p { FabPort.init with state := .training, stage := .phy }))
    ∧ (x.state ≠ .down ∨ s.mayTrain p = false → exec (.portTrain p) s = .next s)
    ∧ (∀ f : TrainFind, x.state = .training →
      (x.stage = .phy → exec (.trainStageComplete p f) s = .next (s.setPort p { x with stage := .laneCheck, found := f.seen }))
      ∧ (x.stage = .laneCheck → ∀ h : BitVec 18,
        (∀ k, k < 18 → h.getLsbD k = ((x.found.getD k none).isSome && decide (f.counts.getD k 0 ≤ s.regN .fabLaneSerLimit))) →
        (∀ l, lanesOf h = some l → l.length = 16 →
          exec (.trainStageComplete p f) s = .next (s.setPort p { x with stage := .lock, healthy := h, lanes := l }))
        ∧ (∀ l, lanesOf h = some l → l.length = 8 → ∃ t, exec (.trainStageComplete p f) s = .next t
            ∧ t.port p = { x with stage := .lock, healthy := h, lanes := l } ∧ t.reg .fabCode = 0x0806)
        ∧ (lanesOf h = none → exec (.trainStageComplete p f) s = .next (after (fun t => t.portDown p false) s)))
      ∧ (x.stage = .lock → ∃ t, exec (.trainStageComplete p f) s = .next t
          ∧ t.port p = { x with state := .ident, stage := .ident, idents := [], stream := (t.port p).stream }
          ∧ ∃ r : IdentRecord, r.magic = 0x4B49 ∧ r.serial = Config.serial ∧ r.port.toNat = p.val ∧ r.level = 3 ∧ r.features = 3
            ∧ Msg.flit p .ident (flitWithCrc .ident { flitEmpty with ack := x.rxSeq, payload := identBytes r }) ∈ t.tx))
    ∧ (x.state = .training ∨ x.state = .ident → exec (.trainStageTimeout p) s = .next (after (fun t => t.portDown p false) s)
        ∧ ∃ t, exec (.trainStageTimeout p) s = .next t ∧ (t.port p).state = .down ∧ t.mem = s.mem)
    ∧ (∀ (fl : Flit) (r : IdentRecord), flitOk .ident fl = true → identOf fl.payload = r → r.magic = 0x4B49 → x.state = .ident →
      (x.idents.head? ≠ some r → exec (.ident p fl) s = .next (s.setPort p { x with idents := [r] }))
      ∧ (x.idents = [r, r] → 2 ≤ r.state.toNat → r.state.toNat ≤ 5 →
        ∃ t, exec (.ident p fl) s = .next t ∧ (t.port p).state = (s.evaluate p r).1 ∧ (t.port p).reason = (s.evaluate p r).2
          ∧ ((s.evaluate p r).1 = .miswired → t.reg .fabCode = 0x0803)
          ∧ ((s.evaluate p r).1 = .versionHold → t.reg .fabCode = 0x0804) ∧ t.mem = s.mem ∧ t.cores = s.cores))

/-- R389, R390, R392, R398: a LINK_STATE of another module with a higher number replaces its entry and is passed on; one with
no higher number changes nothing; a change of the database counts and reports new routes. The timer sends the module's own
with the next number. -/
def Sys2Proof.Claims.LinkStates : Prop :=
  (∀ (s : State) (m : Mgmt) (q : Word) (ports : List Word), Fin.ofNat 64 m.module ≠ s.self →
    let old := Assoc.find (Fin.ofNat 64 m.module : ModIx) s.fab.lsdb
    ((∃ l, old = some l ∧ q.toNat ≤ l.seqNo.toNat) → exec (.linkState m q ports) s = .next s)
    ∧ ((∀ l, old = some l → l.seqNo.toNat < q.toNat) → (∀ p, (s.port p).state ≠ .up) →
        ((old.map (·.ports) = some ports) → exec (.linkState m q ports) s =
          .next { s with fab := { s.fab with lsdb := Assoc.put (Fin.ofNat 64 m.module) ⟨q, ports⟩ s.fab.lsdb } })
        ∧ ((old.map (·.ports) ≠ some ports) → s.tb.state = .free → ∃ t, exec (.linkState m q ports) s = .next t
            ∧ Assoc.find (Fin.ofNat 64 m.module : ModIx) t.fab.lsdb = some ⟨q, ports⟩
            ∧ t.reg .fabRouteEpoch = s.reg .fabRouteEpoch + 1 ∧ t.reg .fabCode = 0x0807 ∧ t.mem = s.mem)))
  ∧ (∀ (s : State) (m : Mgmt) (q : Word) (ports : List Word), Fin.ofNat 64 m.module = s.self →
      exec (.linkState m q ports) s = .next s)
  ∧ (∀ s : State, ∃ t, exec .linkStateTimer s = .next t ∧ t.fab.lsSeq = s.fab.lsSeq + 1 ∧ t.mem = s.mem ∧ t.cores = s.cores
      ∧ ((∃ p, (s.port p).state = .up) → ∃ dst m, Msg.mgmt .linkState dst m
          ((s.fab.lsSeq + 1) :: (List.finRange 6).map (fun p => (s.port p).status)) ∈ t.tx))


/-! ## Fabric packets -/

namespace Sys2Proof.Claims

open Sys2Proof.Machine

/-- R405: the packet commands and their operations. -/
def packetOf : Instr → Option (PacketOp × Packet)
  | .read pk => some (.read, pk)
  | .write pk => some (.write, pk)
  | .atomAdd pk => some (.atomAdd, pk)
  | .atomMax pk => some (.atomMax, pk)
  | .atomCas pk => some (.atomCas, pk)
  | .atomSwap pk => some (.atomSwap, pk)
  | .atomLadd pk => some (.atomLadd, pk)
  | .readResp pk => some (.readResp, pk)
  | .writeAck pk => some (.writeAck, pk)
  | .atomResp pk => some (.atomResp, pk)
  | .collPart pk => some (.collPart, pk)
  | .collResult pk => some (.collResult, pk)
  | _ => none

/-- A packet that this module handles now: addressed to it alone, no reserved bit, and without a stamp. -/
def Local (s : State) (op : PacketOp) (pk : Packet) : Prop :=
  pkBad op pk = false ∧ pk.mc = false ∧ pk.dstModule = s.self ∧ pk.stamped = false

/-- The answer to a packet: `op` with this status and payload, under the packet's tag, to the die that sent it. -/
def Replied (t : State) (op : PacketOp) (pk : Packet) (status : Code) (payload : List Byte) : Prop :=
  ∃ a, Msg.packet op a ∈ t.tx ∧ a.tag = pk.tag ∧ a.status = status ∧ a.payload = payload ∧ a.dstModule = pk.srcModule
    ∧ a.dstDie = pk.srcDie ∧ a.part = pk.part

end Sys2Proof.Claims

/-- R401, R405, R406, R407: a packet with a reserved field set is discarded, counted and reported with 0x0808; one for another
module goes on towards it; a stamped one for this module is held where its tick or run is to come, dropped where it is over,
and handled now otherwise; one without a stamp is handled at once. Its bytes count on the port it comes in by (R65, R69). A
multicast packet goes on along its tree, and is handled here too where its mask names this module (R414). -/
def Obligations.PacketRules : Prop :=
  ∀ (i : Instr) (op : PacketOp) (pk : Packet) (s : State), packetOf i = some (op, pk) →
    (pkBad op pk = true → ∃ t, exec i s = .next t ∧ t.reg .fabBadPackets = s.reg .fabBadPackets + 1 ∧ t.reg .fabCode = 0x0808
      ∧ t.mem = s.mem ∧ t.cores = s.cores ∧ t.doms = s.doms)
    ∧ (pkBad op pk = false → pk.mc = false →
      (pk.dstModule ≠ s.self → ∃ u, OnlyCounted s u ∧ exec i s = .next (after (fun t => t.sendPacket op pk) u))
      ∧ (pk.dstModule = s.self →
        (pk.stamped = false → exec i s = .next (after (fun t => t.effect op pk) s))
        ∧ (pk.stamped = true → (∀ c, (s.dom pk.part).lastTick = some c → c < pk.tick.toNat) →
          let d := s.dom pk.part
          (pk.tick.toNat < d.tick ∨ (pk.tick.toNat = d.tick ∧ d.state = .suspended) → ∃ u, OnlyCounted s u ∧ exec i s = .next u)
          ∧ (d.tick < pk.tick.toNat ∨ (pk.tick.toNat = d.tick ∧ (d.state = .idle ∨ d.state = .starting
              ∨ ((d.state = .running ∨ d.state = .rewinding) ∧ d.run < pk.run))) →
              ∃ u, OnlyCounted s u ∧ exec i s = .next { u with fab := { s.fab with held := s.fab.held ++ [(op, pk)] } })
          ∧ (pk.tick.toNat = d.tick → d.state = .running ∨ d.state = .rewinding →
              (pk.run < d.run → ∃ u t, OnlyCounted s u ∧ exec i s = .next t ∧ t.reg .fabDiscards = s.reg .fabDiscards + 1
                ∧ t = { u with regs := t.regs })
              ∧ (pk.run = d.run → ∃ u, OnlyCounted s u ∧ exec i s = .next (after (fun t => t.effect op pk) u))))))
    ∧ (pkBad op pk = false → pk.mc = true → ∃ u, OnlyCounted s u ∧
        let v := if s.treePorts pk.part pk.srcModule (maskMods pk.mask) (packetClass op true) = [] then u else u.sendPacket op pk
        exec i s = .next (after (fun _ => if pk.mask.getLsbD s.self.val then v.underStamp op pk else v) s))

/-- R309, R404, R408, R410: at its target READ answers the bytes, WRITE writes them and acknowledges, and each atomic answers
the old word and stores the new one; no other byte changes. An access that the checks refuse answers its code, without effect
on memory. -/
def Obligations.RemoteAccesses : Prop :=
  ∀ (s : State) (pk : Packet) (phys : Nat),
    (Local s .read pk → 0 < pk.len →
      (s.place (hostAcc pk.part) (bits pk.addr 49 0) pk.len false = .ok ⟨.core, phys, 0, none⟩ → Clean s phys pk.len →
        ∃ t, exec (.read pk) s = .next t ∧ Replied t .readResp pk 0 (s.load phys pk.len) ∧ t.mem = s.mem ∧ t.cores = s.cores)
      ∧ ∀ e, s.place (hostAcc pk.part) (bits pk.addr 49 0) pk.len false = .error e →
          ∃ t, exec (.read pk) s = .next t ∧ Replied t .readResp pk e [] ∧ t.mem = s.mem ∧ t.cores = s.cores)
    ∧ (Local s .write pk → pk.payload ≠ [] → pk.poison = false →
      (s.place (hostAcc pk.part) (bits pk.addr 49 0) pk.payload.length true = .ok ⟨.core, phys, 0, none⟩ → Clean s phys pk.payload.length →
        ∃ t, exec (.write pk) s = .next t ∧ Replied t .writeAck pk 0 [] ∧ t.load phys pk.payload.length = pk.payload
          ∧ sameBut s t phys pk.payload.length ∧ t.cores = s.cores)
      ∧ ∀ e, s.place (hostAcc pk.part) (bits pk.addr 49 0) pk.payload.length true = .error e →
          ∃ t, exec (.write pk) s = .next t ∧ Replied t .writeAck pk e [] ∧ t.mem = s.mem ∧ t.cores = s.cores)
    ∧ ∀ (i : Instr) (op : PacketOp) (new : Word),
        (let old := wordAt s phys
         let v := bytesWord (pk.payload.take 8)
         (i = .atomAdd pk ∧ op = .atomAdd ∧ new = old + v)
          ∨ (i = .atomMax pk ∧ op = .atomMax ∧ new = if old.toInt < v.toInt then v else old)
          ∨ (i = .atomCas pk ∧ op = .atomCas ∧ new = if old = bytesWord ((pk.payload.drop 8).take 8) then v else old)
          ∨ (i = .atomSwap pk ∧ op = .atomSwap ∧ new = v)
          ∨ (i = .atomLadd pk ∧ op = .atomLadd ∧ new = (l64Add old v).1)) →
        Local s op pk → s.place (hostAcc pk.part) (bits pk.addr 49 0) 8 true = .ok ⟨.core, phys, 0, none⟩ → Clean s phys 8 →
        ∃ t, exec i s = .next t ∧ Replied t .atomResp pk 0 (if pk.nr then [] else wordBytes (wordAt s phys))
          ∧ wordAt t phys = new ∧ sameBut s t phys 8 ∧ t.cores = s.cores

/-- R408, R412, R414, R420 to R424: a response with no request outstanding is counted late. One for a load of a core ends the
request and gives its register the data; an acknowledgement of a store ends the request; a fault stops the core's segment with
the status. A request that stays without an answer is dead: 0x0811, counted, and its segment stopped. A held packet of a tag
is dropped at its limit; parts and results of a collective reach its instance, whose limit is 0x080C at the cores that wait. -/
def Obligations.Responses : Prop :=
  (∀ (i : Instr) (op : PacketOp) (pk : Packet) (s : State),
    (i = .readResp pk ∧ op = .readResp) ∨ (i = .writeAck pk ∧ op = .writeAck) ∨ (i = .atomResp pk ∧ op = .atomResp) →
    Local s op pk →
    (s.request pk.tag = none → ∃ t, exec i s = .next t ∧ t.reg .fabLateResp = s.reg .fabLateResp + 1 ∧ t = { s with regs := t.regs })
    ∧ (∀ r c n, s.request pk.tag = some r → r.src = .core c → r.members = [] → QuietStations s c n → (s.core c).killed = none →
      s.barriers = [] →
      (pk.status = 0 → pk.poison = false →
        (r.kind = .store → ∃ t, exec i s = .next t ∧ t.request pk.tag = none ∧ t = { s with fab := t.fab })
        ∧ (∀ tag d, r.kind = .load tag → Assoc.find tag (s.core c).late = some (.s d) → ∃ t, exec i s = .next t
            ∧ t.request pk.tag = none ∧ (t.core c).s = (s.core c).s.set (ix5 d).val (bytesWord pk.payload) (ix5 d).isLt
            ∧ (t.core c).late = (s.core c).late.filter (fun p => decide (p.1 ≠ tag)) ∧ t.mem = s.mem
            ∧ (t.core c).pc = (s.core c).pc)
        ∧ (∀ tag nr d, r.kind = .atom tag nr → Assoc.find tag (s.core c).late = some (.s d) → ∃ t, exec i s = .next t
            ∧ t.request pk.tag = none ∧ (t.core c).s = (s.core c).s.set (ix5 d).val (bytesWord pk.payload) (ix5 d).isLt
            ∧ t.mem = s.mem))
      ∧ (pk.status ≠ 0 → r.stamped = true → ∃ t, exec i s = .next t ∧ t.request pk.tag = none
          ∧ (t.core c).killed = some pk.status ∧ (t.core c).s = (s.core c).s ∧ t.mem = s.mem)))
  ∧ (∀ (s : State) (tag : Code),
      (s.request tag = none → exec (.fabDeadTimeout tag) s = .next s)
      ∧ ∀ r c n, s.request tag = some r → r.src = .core c → r.kind = .store → r.stamped = true → QuietStations s c n →
          (s.core c).killed = none → s.barriers = [] → ∃ t, exec (.fabDeadTimeout tag) s = .next t ∧ t.request tag = none
            ∧ (t.core c).killed = some 0x0811 ∧ t.reg .fabDeadCount = s.reg .fabDeadCount + 1 ∧ t.reg .fabCode = 0x0811 ∧ t.mem = s.mem)
  ∧ (∀ (s : State) (tag : Code) (a b : List (PacketOp × Packet)) (p : PacketOp × Packet), s.fab.held = a ++ p :: b → p.2.tag = tag →
      (∀ q ∈ a, q.2.tag ≠ tag) → exec (.fabHeldTimeout tag) s = .next { s with fab := { s.fab with held := a ++ b } })
  ∧ (∀ (s : State) (tag : Code), (∀ q ∈ s.fab.held, q.2.tag ≠ tag) →
      exec (.fabHeldTimeout tag) s = .next { s with fab := { s.fab with heldX := s.fab.heldX.eraseIdx tag.toNat } })
  ∧ (∀ (s : State) (pk : Packet),
      (Local s .collPart pk → exec (.collPart pk) s = .next (after (fun t => t.collIn false pk) s))
      ∧ (Local s .collResult pk → exec (.collResult pk) s = .next (after (fun t => t.collIn true pk) s)))
  ∧ (∀ (s : State) (n : Part) (g : Code) (k : Nat),
      ((∀ x ∈ s.insts, ¬(x.part = n ∧ x.group = g.toNat ∧ x.n = k ∧ x.fault = 0)) → exec (.ceCollTimeout n g k) s = .next s)
      ∧ ∀ x, s.insts = [x] → x.part = n → x.group = g.toNat → x.n = k → x.fault = 0 → ∃ t, exec (.ceCollTimeout n g k) s = .next t
          ∧ (∀ c ∈ x.contribs, (s.core c.core).colls = [] → RunsIn s c.core n → (t.core c.core).killed = some 0x080C) ∧ t.mem = s.mem)


/-! ## The host port and its sessions -/

namespace Sys2Proof.Claims

open Sys2Proof.Machine

/-- The commands that are frames of the host port other than an agreement, and whether MACsec protects each (R431, R432, R434). -/
def frameOf : Instr → Option Bool
  | .arpRequest x => some x.prot
  | .neighborSolicitation x => some x.prot
  | .echoRequest _ _ x => some x.prot
  | .openReq _ _ h _ | .openOk h _ | .close h _ | .data h _ | .ack h _ | .keepalive h _ | .net h _ | .eventAck h _ | .getVersion h _
  | .getCapabilities h _ | .negotiateAlgorithms h _ | .getDigests h _ | .getCertificate h _ | .challenge h _ | .getMeasurements h _
  | .chunkSend h _ | .chunkGet h _ | .spdmUnsupportedRequest h _ => some h.prot
  | _ => none

/-- A frame is taken: the port is UP, and the frame is protected where HP.CTRL requires it. -/
def Heard (s : State) (prot : Bool) : Prop :=
  s.hp.state = .up ∧ ((s.reg .hpCtrl).getLsbD 1 = true → s.hp.macsec = true ∧ prot = true)

/-- A state once a frame has been counted. -/
def heard (s : State) : State := s.bump .hpRxFrames 0 0 1

/-- The commands that are packets of a session, with what they carry. -/
def sessionPacket : Instr → Option (BrosinHdr × List Byte)
  | .close h p | .data h p | .ack h p | .keepalive h p | .net h p | .getVersion h p | .getCapabilities h p | .negotiateAlgorithms h p
  | .getDigests h p | .getCertificate h p | .challenge h p | .getMeasurements h p | .chunkSend h p | .chunkGet h p
  | .spdmUnsupportedRequest h p => some (h, p)
  | _ => none

/-- R454, R460: HP.CODE after a report of a code there: the code, or 0x0908 where the event that carries it releases others. -/
def Coded (t : State) (code : Word) : Prop := t.reg .hpCode = code ∨ t.reg .hpCode = 0x0908

/-- R438: a session once the acknowledgement and window of a packet are taken. -/
def ackedBy (x : Session) (h : BrosinHdr) : Session :=
  let left := x.unacked.filter (fun p => seqAfter p.1 h.ack)
  { x with unacked := left, peerAck := h.ack, peerWindow := h.window,
           resends := if left.length = x.unacked.length then x.resends else 0 }

/-- A session that is no session of the net station, with nothing waiting to be sent or held early. -/
def Plainly (x : Session) : Prop := (∀ p, x.owner ≠ .net p) ∧ x.waiting = [] ∧ x.early = []

/-- Who asks for a session with an OPEN of partition byte `p`, where the prefix of R460 admits the source (R437, R455). -/
def opener (s : State) (src : BitVec 128) (p : Nat) : Option SessOwner :=
  if p < 16 then
    if prefixAdmits (s.reg .hpPPrefixHi 0 p) (s.reg .hpPPrefixLo 0 p) (s.regN .hpPPrefixLen 0 p) src then some (.part (Fin.ofNat 16 p))
    else none
  else if p = 0xFF then
    if prefixAdmits (s.reg .hpMgmtPrefixHi) (s.reg .hpMgmtPrefixLo) (s.regN .hpMgmtPrefixLen) src then some .mgmt else none
  else if p = 0xFE then some (.net (s.peerAt src))
  else none

end Sys2Proof.Claims

/-- R430, R608: a failed lane that carries the port selects the spare lane where HP.CTRL admits it and it is free, and the
port retrains, 0x0909; else the port is DOWN, 0x090A. R584: a port that has trained is UP with 4 lanes, unless HP.CTRL
disables it. -/
def Sys2Proof.Claims.HostPortEvents : Prop :=
  ∀ s : State,
    (∀ lane : Fin 5,
      ((s.hp.state = .down ∨ s.hp.carries lane = false) → exec (.hostLaneFail lane) s = .next s)
      ∧ (s.hp.state ≠ .down → s.hp.carries lane = true →
        ((s.reg .hpCtrl).getLsbD 2 = true → s.hp.spareFor = none → ∃ t, exec (.hostLaneFail lane) s = .next t
          ∧ t.hp.state = .training ∧ t.hp.lanes = 0 ∧ t.hp.spareFor = some (Fin.ofNat 4 lane.val)
          ∧ Msg.laneSelect (Fin.ofNat 4 lane.val) ∈ t.tx ∧ Coded t 0x0909 ∧ t.hp.sessions = s.hp.sessions ∧ t.mem = s.mem)
        ∧ (((s.reg .hpCtrl).getLsbD 2 = false ∨ s.hp.spareFor ≠ none) → ∃ t, exec (.hostLaneFail lane) s = .next t
          ∧ t.hp.state = .down ∧ t.hp.lanes = 0 ∧ t.hp.macsec = false ∧ t.hp.spareFor = s.hp.spareFor ∧ Coded t 0x090A
          ∧ t.hp.sessions = s.hp.sessions ∧ t.mem = s.mem)))
    ∧ (((s.reg .hpCtrl).getLsbD 0 = false ∨ s.hp.state = .up) → exec .hostPortTrained s = .next s)
    ∧ ((s.reg .hpCtrl).getLsbD 0 = true → s.hp.state ≠ .up →
        (s.boot.readyEvent = false → exec .hostPortTrained s = .next { s with hp := { s.hp with state := .up, lanes := 4 } })
        ∧ (s.boot.readyEvent = true → ∃ t, exec .hostPortTrained s = .next t ∧ t.hp.state = .up ∧ t.hp.lanes = 4
            ∧ t.boot.readyEvent = false ∧ t.reg .bootCode = 0x0E07 ∧ t.mem = s.mem))

/-- R431, R432, R573: a frame is lost while the port is not UP, counted, and dropped where MACsec is required and does not
protect it. ARP, neighbour solicitation and echo answer for the module's own address alone. An agreement of MACsec needs the
key of slot 63. -/
def Sys2Proof.Claims.HostPortFrames : Prop :=
  (∀ (i : Instr) (p : Bool) (s : State), frameOf i = some p →
    (s.hp.state ≠ .up → exec i s = .next s)
    ∧ (s.hp.state = .up → (s.reg .hpCtrl).getLsbD 1 = true → (s.hp.macsec = false ∨ p = false) →
        exec i s = .next ((heard s).bump .hpMacsecDrops 0 0 1)))
  ∧ (∀ (agreed : Bool) (s : State),
    (s.hp.state ≠ .up → exec (.mkaFrame agreed) s = .next s)
    ∧ (s.hp.state = .up → exec (.mkaFrame agreed) s = .next
        (if agreed = true ∧ s.slotLoaded 63 = true then (heard s).setHp { s.hp with macsec := true } else heard s)))
  ∧ (∀ (p : Bool) (s : State), Heard s p →
    (∀ a : BitVec 32, exec (.arpRequest ⟨p, a⟩) s = .next
      (if a ≠ 0 ∧ (s.reg .hpIp4).setWidth 32 = a then ((heard s).send (.arpReply a)).bump .hpTxFrames 0 0 1 else heard s))
    ∧ (∀ a : BitVec 128, exec (.neighborSolicitation ⟨p, a⟩) s = .next
      (if a = (s.reg .hpIp6Hi).append (s.reg .hpIp6Lo) then
        ((heard s).send (.neighborAdvertisement a)).bump .hpTxFrames 0 0 1 else heard s))
    ∧ (∀ (a : BitVec 128) (bs : List Byte),
      exec (.echoRequest true a ⟨p, bs⟩) s = .next
        (if a = (s.reg .hpIp6Hi).append (s.reg .hpIp6Lo) then ((heard s).send (.echoReply true bs)).bump .hpTxFrames 0 0 1
         else heard s)
      ∧ exec (.echoRequest false a ⟨p, bs⟩) s = .next
        (if a.setWidth 32 = (s.reg .hpIp4).setWidth 32 ∧ s.reg .hpIp4 ≠ 0 then
          ((heard s).send (.echoReply false bs)).bump .hpTxFrames 0 0 1 else heard s)))

/-- R437, R460: an OPEN with a reserved field set is a bad frame; one whose prefix, partition or length is not admitted, or
that finds 1,024 sessions, is answered 0x090D and makes no session; any other makes one of the agreed length. OPEN_OK
establishes the net session that waits, or ends it. -/
def Sys2Proof.Claims.SessionOpening : Prop :=
  (∀ (src : BitVec 128) (v4 : Bool) (h : BrosinHdr) (bs : List Byte) (s : State), Heard s h.prot →
    ((h.wellFormed = false ∨ bs.length ≠ 8 ∨ fieldNat bs 1 1 ≠ 0 ∨ fieldNat bs 4 4 ≠ 0) →
      exec (.openReq src v4 h bs) s = .next ((heard s).bump .hpBadFrames 0 0 1))
    ∧ (h.wellFormed = true → bs.length = 8 → fieldNat bs 1 1 = 0 → fieldNat bs 4 4 = 0 →
      ((opener s src (fieldNat bs 0 1) = none ∨ fieldNat bs 2 2 < 1024 ∨ 8192 < fieldNat bs 2 2 ∨ 1024 ≤ s.hp.sessions.length) →
        ∃ t, exec (.openReq src v4 h bs) s = .next t ∧ t.hp = s.hp ∧ t.reg .hpCode = 0x090D
          ∧ Msg.brosin .openOk src (sentHdr .openOk 8 0 1024 0 0 0) ([0x0D, 0x09] ++ List.replicate 6 0) ∈ t.tx ∧ t.mem = s.mem)
      ∧ (∀ o, opener s src (fieldNat bs 0 1) = some o → 1024 ≤ fieldNat bs 2 2 → fieldNat bs 2 2 ≤ 8192 → s.hp.sessions.length < 1024 →
        let n := s.hp.nextSession
        let len := min (fieldNat bs 2 2) (s.maxPayload v4)
        ∃ t, exec (.openReq src v4 h bs) s = .next t ∧ t.session n = some (newSession o src v4 len true h.window)
          ∧ (∀ m, m ≠ n → t.session m = s.session m) ∧ t.hp.nextSession = n + 1
          ∧ Msg.brosin .openOk src (sentHdr .openOk 8 0 1024 0 0 n) ([0, 0] ++ natBytes 2 len ++ natBytes 4 0) ∈ t.tx ∧ t.mem = s.mem)))
  ∧ (∀ (h : BrosinHdr) (bs : List Byte) (s : State), Heard s h.prot →
    ((h.wellFormed = false ∨ bs.length < 4) → exec (.openOk h bs) s = .next ((heard s).bump .hpBadFrames 0 0 1))
    ∧ (h.wellFormed = true → 4 ≤ bs.length → (∀ p ∈ s.hp.sessions, p.2.established = true) → exec (.openOk h bs) s = .next (heard s))
    ∧ (h.wellFormed = true → 4 ≤ bs.length → ∀ k x, s.hp.sessions.find? (fun p => !p.2.established) = some (k, x) →
        (∀ p, x.owner ≠ .net (some p)) →
        (fieldNat bs 0 2 ≠ 0 → exec (.openOk h bs) s = .next ((heard s).dropSession k))
        ∧ (fieldNat bs 0 2 = 0 → exec (.openOk h bs) s = .next (((heard s).dropSession k).setSession h.session
            { x with established := true, maxLen := min x.maxLen (fieldNat bs 2 2), peerWindow := h.window })))
    ∧ (h.wellFormed = true → 4 ≤ bs.length → ∀ k x p, s.hp.sessions.find? (fun p => !p.2.established) = some (k, x) →
        x.owner = .net (some p) →
        (fieldNat bs 0 2 ≠ 0 → exec (.openOk h bs) s = .next (after (fun t => (t.dropSession k).netLost p) (heard s)))
        ∧ (fieldNat bs 0 2 = 0 → exec (.openOk h bs) s = .next (after (fun t => ((t.dropSession k).setSession h.session
            { x with established := true, maxLen := min x.maxLen (fieldNat bs 2 2), peerWindow := h.window }).netSend p) (heard s)))))

/-- R434, R438, R439, R442, R443: a packet of no session is dropped, a malformed or too long one counted; every other gives
its acknowledgement and window, and CLOSE ends the session. DATA is taken in order: a duplicate is discarded, one ahead is
held, the next adds its bytes to the stream, and a whole frame joins its queue, or is answered 0x0904 where the queue holds
1,024. -/
def Obligations.SessionPackets : Prop :=
  (∀ (i : Instr) (h : BrosinHdr) (bs : List Byte) (s : State), sessionPacket i = some (h, bs) → Heard s h.prot →
    (s.session h.session = none → exec i s = .next (heard s))
    ∧ ∀ x, s.session h.session = some x → (h.wellFormed = false ∨ x.maxLen < bs.length) →
        exec i s = .next ((heard s).bump .hpBadFrames 0 0 1))
  ∧ (∀ (h : BrosinHdr) (bs : List Byte) (s : State) (x : Session), Heard s h.prot → s.session h.session = some x → h.wellFormed = true →
    bs.length ≤ x.maxLen →
    exec (.ack h bs) s = .next (after (fun t => t.takeBrosinAck h.session h) (heard s))
    ∧ exec (.keepalive h bs) s = .next (after (fun t => t.takeBrosinAck h.session h) (heard s))
    ∧ (Plainly x →
      let n := h.session
      let y := ackedBy x h
      exec (.ack h bs) s = .next ((heard s).setSession n y)
      ∧ exec (.keepalive h bs) s = .next ((heard s).setSession n y)
      ∧ (∃ t, exec (.close h bs) s = .next t ∧ t.session n = none ∧ (∀ m, m ≠ n → t.session m = s.session m) ∧ t.tx = s.tx ∧ t.mem = s.mem)
      ∧ ((h.seq = x.rxSeq ∨ 2 ^ 31 ≤ (h.seq - x.rxSeq).toNat ∨ 1024 < (h.seq - x.rxSeq).toNat) →
          exec (.data h bs) s = .next ((heard s).setSession n { y with ackDue := true }))
      ∧ (2 ≤ (h.seq - x.rxSeq).toNat → (h.seq - x.rxSeq).toNat ≤ 1024 →
          exec (.data h bs) s = .next ((heard s).setSession n { y with early := [(h.seq, .data, bs)], ackDue := true }))
      ∧ (h.seq = x.rxSeq + 1 → let all := x.stream ++ bs
          ((all.length < 16 ∨ (fieldNat all 4 4 ≤ 16777216 ∧ all.length < 16 + fieldNat all 4 4)) →
            exec (.data h bs) s = .next ((heard s).setSession n { y with rxSeq := h.seq, ackDue := true, stream := all }))
          ∧ (16 ≤ all.length → fieldNat all 4 4 ≤ 16777216 → all.length = 16 + fieldNat all 4 4 →
            let q : Code := BitVec.ofNat 16 (fieldNat all 2 2)
            let cmd : Code := BitVec.ofNat 16 (fieldNat all 0 2)
            let f : Frame := ⟨n, q, BitVec.ofNat 64 (fieldNat all 8 8), all.drop 16⟩
            let k := (x.owner.queueKey, q.toNat)
            ((s.queue k).length < 1024 → exec (.data h bs) s = .next
              (((heard s).setSession n { y with rxSeq := h.seq, ackDue := true, stream := [] }).setQueue k (s.queue k ++ [⟨cmd, f, false, s.now⟩])))
            ∧ (1024 ≤ (s.queue k).length → ∃ t, exec (.data h bs) s = .next t
                ∧ Msg.completion n cmd (BitVec.ofNat 64 (fieldNat all 8 8)) 0x0904 [] ∈ t.tx ∧ t.hp.queues = s.hp.queues
                ∧ t.reg .hpCode = 0x0904 ∧ t.mem = s.mem)))))

/-- R455, R458: NET is taken in order like DATA; the first packet of a message needs room for the whole message in the
partition's receive ring, and one that finds none is not taken; a whole message is counted and its place in the ring is
passed. -/
def Sys2Proof.Claims.NetPackets : Prop :=
  ∀ (h : BrosinHdr) (bs : List Byte) (s : State) (x : Session), Heard s h.prot → s.session h.session = some x → h.wellFormed = true →
    bs.length ≤ x.maxLen → x.owner = .net none → x.waiting = [] → x.early = [] →
    let n := h.session
    let y := ackedBy x h
    ((h.seq = x.rxSeq ∨ 2 ^ 31 ≤ (h.seq - x.rxSeq).toNat ∨ 1024 < (h.seq - x.rxSeq).toNat) →
      exec (.net h bs) s = .next ((heard s).setSession n { y with ackDue := true }))
    ∧ (2 ≤ (h.seq - x.rxSeq).toNat → (h.seq - x.rxSeq).toNat ≤ 1024 →
        exec (.net h bs) s = .next ((heard s).setSession n { y with early := [(h.seq, .net, bs)], ackDue := true }))
    ∧ (h.seq = x.rxSeq + 1 →
      (s.netRoom x bs = false → exec (.net h bs) s = .next ((heard s).setSession n y))
      ∧ (s.netRoom x bs = true → let all := x.net ++ bs
        (all.length < 32 + fieldNat all 4 4 → exec (.net h bs) s = .next
          ((heard s).setSession n { y with rxSeq := h.seq, ackDue := true, net := all, partial_ := x.partial_ + 1 }))
        ∧ (32 + fieldNat all 4 4 ≤ all.length → let m : Part := Fin.ofNat 16 (fieldNat all 0 1)
          ∃ t, exec (.net h bs) s = .next t ∧ t.session n = some { y with rxSeq := h.seq, ackDue := true, net := [], partial_ := 0 }
            ∧ t.reg .nxReceived = s.reg .nxReceived + 1
            ∧ Assoc.find m t.hp.nxRx = some (Assoc.getD m 0 s.hp.nxRx + (32 + fieldNat all 4 4 + 31) / 32 * 32))))

/-- R438, R439, R454, R459: the timers of a session. An acknowledgement that is due goes out; the oldest packet without one is
sent again and counted; a keepalive goes out; a session that times out is gone with 0x0909; without such a session nothing
happens. EVENT_ACK frees the acknowledged events of its channel, and a channel's oldest event is sent again under its number
plus 0x10000. -/
def Sys2Proof.Claims.SessionTimers : Prop :=
  (∀ (n : Nat) (s : State),
    (s.session n = none → exec (.ackTimer n) s = .next s ∧ exec (.keepaliveTimer n) s = .next s
      ∧ exec (.sessionTimeout n) s = .next s ∧ (n < 0x10000 → exec (.brosinRto n) s = .next s))
    ∧ ∀ x, s.session n = some x →
      let hdr (typ : BrosinType) (len : Nat) (flags : Code) (q : BitVec 32) := sentHdr typ len flags (1024 - x.early.length) x.acked q n
      let y := { x with ackDue := false }
      (exec (.ackTimer n) s = .next
        (if x.ackDue = true then ((s.setSession n y).send (.brosin .ack x.src (hdr .ack 0 0 0) [])).bump .hpTxFrames 0 0 1 else s))
      ∧ (exec (.keepaliveTimer n) s = .next
        (if x.established = true then ((s.setSession n y).send (.brosin .keepalive x.src (hdr .keepalive 0 0 0) [])).bump .hpTxFrames 0 0 1 else s))
      ∧ (n < 0x10000 → x.unacked = [] → exec (.brosinRto n) s = .next s)
      ∧ (∀ q typ bs l, n < 0x10000 → x.unacked = (q, typ, bs) :: l → exec (.brosinRto n) s = .next
          ((((s.setSession n { y with resends := x.resends + 1 }).send (.brosin typ x.src (hdr typ bs.length 1 q) bs)).bump .hpTxFrames 0 0 1).bump
            .hpRetransmits 0 0 1))
      ∧ ((∀ p, x.owner ≠ .net (some p)) → ∃ t, exec (.sessionTimeout n) s = .next t ∧ t.session n = none
          ∧ (∀ m, m ≠ n → t.session m = s.session m) ∧ Coded t 0x0909 ∧ t.mem = s.mem)
      ∧ (∀ p, x.owner = .net (some p) → exec (.sessionTimeout n) s = .next
          (after (fun t => ((t.dropSession n).mgmtReport .hpCode 0x0909 (natBytes 4 n)).netLost p) s)))
  ∧ (∀ (h : BrosinHdr) (bs : List Byte) (s : State), Heard s h.prot →
    (h.wellFormed = false → exec (.eventAck h bs) s = .next ((heard s).bump .hpBadFrames 0 0 1))
    ∧ (h.wellFormed = true →
      (s.chan h.session = none → exec (.eventAck h bs) s = .next (heard s))
      ∧ ∀ c, s.chan h.session = some c → exec (.eventAck h bs) s = .next
          ((heard s).setChan h.session { c with ring := c.ring.filter (fun p => seqAfter p.1 h.ack) })))
  ∧ (∀ (k : Nat) (s : State) (c : Channel), s.chan k = some c →
    (c.ring = [] → exec (.brosinRto (0x10000 + k)) s = .next s)
    ∧ ∀ p l, c.ring = p :: l → exec (.brosinRto (0x10000 + k)) s = .next
        (((s.send (.brosin .event c.dst (sentHdr .event p.2.length 1 0 0 p.1 k) p.2)).bump .hpTxFrames 0 0 1).bump .hpRetransmits 0 0 1))


/-! ## Serving: requests -/

/-- R277, R278, R280, R443, R445, R449, R450: the commands that change requests and programs check their bodies, leave their
queue and go to the master of the slice with the TBC at which they arrived; SUBMIT names an open channel of its partition
where it arrives; RESULT_READ answers the result of a DONE entry of its partition with the count of reads. The master gathers
a command for the intake of an admission that is still open; every other module keeps the intake it receives for its admission
close. -/
def Obligations.ServingCommands : Prop :=
  (∀ (f : Frame) (n : Part) (s : State),
    ((f.body.length < 904 ∨ f.body.length ≠ 904 + 4 * fieldNat f.body 76 4) → Answers (.submit f) 0x0010 f (.part n) .part s 0x0901)
    ∧ (904 ≤ f.body.length → f.body.length = 904 + 4 * fieldNat f.body 76 4 →
        (s.channelBad n f.body = true → Answers (.submit f) 0x0010 f (.part n) .part s
          (if s.cfg .svPVocab 0 n.val = 0 ∨ s.namedProgram n = none then 0x0903 else 0x0501))
        ∧ (s.channelBad n f.body = false → Effect (.submit f) 0x0010 f (.part n) .part s (fun t => t.forwardCmd 0x0010 f n)))
    ∧ (f.body.length ≠ 8 → Answers (.cancel f) 0x0011 f (.part n) .part s 0x0901)
    ∧ (f.body.length = 8 → Effect (.cancel f) 0x0011 f (.part n) .part s (fun t => t.forwardCmd 0x0011 f n))
    ∧ ((f.body.length ≠ 16 ∨ fieldNat f.body 4 4 ≠ 0) → Answers (.resultAck f) 0x0013 f (.part n) .part s 0x0901
        ∧ Answers (.resultRead f) 0x0012 f (.part n) .part s 0x0901)
    ∧ (f.body.length = 16 → fieldNat f.body 4 4 = 0 →
        Effect (.resultAck f) 0x0013 f (.part n) .part s (fun t => t.forwardCmd 0x0013 f n)
        ∧ (s.resultEntry n f.body = none → Answers (.resultRead f) 0x0012 f (.part n) .part s 0x0502)
        ∧ ∀ e x, s.resultEntry n f.body = some (e, x) →
            (x.state ≠ .done → Answers (.resultRead f) 0x0012 f (.part n) .part s 0x0905)
            ∧ ∀ r, x.state = .done → Assoc.find e s.sv.results = some r →
                Answers (.resultRead f) 0x0012 f (.part n) .part s 0 (r.bytes ++ natBytes 8 (r.reads + 1))
                  (fun t => { t with sv := { t.sv with results := Assoc.put e { r with reads := r.reads + 1 } t.sv.results } }))
    ∧ Effect (.programInstall f) 0x0020 f (.part n) .part s (fun t => t.forwardCmd 0x0020 f n)
    ∧ (f.body.length ≠ 4 → Answers (.programRemove f) 0x0021 f (.part n) .part s 0x0901)
    ∧ (f.body.length = 4 → Effect (.programRemove f) 0x0021 f (.part n) .part s (fun t => t.forwardCmd 0x0021 f n)))
  ∧ (∀ (cmd : Code) (f : Frame) (n : Part) (u : State), let h : HostCmd := ⟨cmd, n, u.self, u.arrivedAt cmd f, f⟩
    let v := u.popCmd cmd f
    let x := u.svPart n
    (u.orders n ≠ u.self → ∃ g, Msg.forward (u.orders n) g h ∈ (u.forwardCmd cmd f n).tx ∧ g.dom = n ∧ g.time = u.arrivedAt cmd f
      ∧ (u.forwardCmd cmd f n).svPart n = x)
    ∧ (u.orders n = u.self → u.enabled n = true →
        u.forwardCmd cmd f n = v.setSvPart n { x with gathered := x.gathered ++ [(u.intakeTick n, h)] })
    ∧ (u.orders n = u.self → u.enabled n = false → versionCmd cmd = false →
        u.forwardCmd cmd f n = v.setSvPart n { x with gathered := x.gathered ++ [(0, h)] }))
  ∧ (∀ (m : Mgmt) (h : HostCmd) (s : State),
    (h.cmd = 0x0033 → exec (.forward m h) s = .next (after (fun t => t.startRepair m.dom (BitVec.ofNat 16 (fieldNat h.frame.body 0 4))
      (fieldNat h.frame.body 4 4)) s))
    ∧ (h.cmd ≠ 0x0033 → s.orders m.dom ≠ s.self → exec (.forward m h) s = .next s)
    ∧ (h.cmd = 0x0030 → s.orders m.dom = s.self → exec (.forward m h) s = .next (after (fun t => t.masterLoad h) s))
    ∧ (h.cmd ≠ 0x0033 → h.cmd ≠ 0x0030 → s.orders m.dom = s.self → s.enabled h.part = true → let x := s.svPart h.part
        exec (.forward m h) s = .next (s.setSvPart h.part { x with gathered := x.gathered ++ [(s.intakeTick h.part, h)] })))
  ∧ (∀ (m : Mgmt) (cmds : List HostCmd) (s : State), let x := s.svPart m.dom
    (s.enabled m.dom = true → exec (.intake m cmds) s =
      .next (s.setSvPart m.dom { x with intakes := x.intakes ++ [(m.tick.toNat, m.hash, cmds)] }))
    ∧ (s.enabled m.dom = false → exec (.intake m cmds) s = .next (after (fun t => cmds.foldl State.applyVersion t) s)))

/-- R234, R235, R275, R276, R279, R280, R450: what the intake of tick k does with a command. SUBMIT makes the lowest FREE
entry or is refused by the first check it fails; CANCEL marks an entry that is not DONE; RESULT_ACK frees a DONE one with its
part of the area; PROGRAM_INSTALL and PROGRAM_REMOVE list and drop a program. -/
def Sys2Proof.Claims.IntakeApplications : Prop :=
  ∀ (s : State) (h : HostCmd) (k : Nat), let n := h.part
    let b := h.frame.body
    (h.cmd = 0x0011 →
      ((∀ p ∈ s.sv.entries, p.2.part = n → p.2.reqId ≠ bytesWord (b.take 8)) → State.applyCmd k s h = s.completeFwd h 0x0502)
      ∧ ∀ e x, s.sv.entries = [(e, x)] → x.part = n → x.reqId = bytesWord (b.take 8) →
          (x.state = .done → State.applyCmd k s h = s.completeFwd h 0x0903)
          ∧ (x.state ≠ .done → State.applyCmd k s h = (s.putEntry e { x with cancel := true }).completeFwd h 0))
    ∧ (h.cmd = 0x0013 →
      (s.resultEntry n b = none → State.applyCmd k s h = s.completeFwd h 0x0502)
      ∧ ∀ e x, s.resultEntry n b = some (e, x) →
          (x.state ≠ .done → State.applyCmd k s h = s.completeFwd h 0x0903)
          ∧ (x.state = .done → h.origin ≠ s.self → ((State.applyCmd k s h).entry? e).isNone = true
              ∧ Assoc.find e (State.applyCmd k s h).sv.results = none ∧ ∀ u ∈ ((State.applyCmd k s h).svPart n).area, u.1 ≠ e))
    ∧ (h.cmd = 0x0020 →
      (s.imageOk n b = none → State.applyCmd k s h = s.completeFwd h 0x0310)
      ∧ ∀ p, s.imageOk n b = some p →
          ((Assoc.find (n, p.id) s.programs).isSome = true → State.applyCmd k s h = s.completeFwd h 0x0903)
          ∧ (Assoc.find (n, p.id) s.programs = none →
              State.applyCmd k s h = State.completeFwd { s with programs := Assoc.put (n, p.id) p s.programs } h 0))
    ∧ (h.cmd = 0x0021 → let id : BitVec 32 := BitVec.ofNat 32 (fieldNat b 0 4)
      ((Assoc.find (n, id) s.programs = none ∨ (s.cfg .svPProgram 0 n.val).setWidth 32 = id) →
        State.applyCmd k s h = s.completeFwd h 0x0903)
      ∧ ((Assoc.find (n, id) s.programs).isSome = true → (s.cfg .svPProgram 0 n.val).setWidth 32 ≠ id →
        State.applyCmd k s h = State.completeFwd { s with programs := Assoc.del (n, id) s.programs } h 0))
    ∧ (h.cmd = 0x0010 →
      ((s.cfg .svPVocab 0 n.val = 0 ∨ s.namedProgram n = none) → State.applyCmd k s h = s.completeFwd h 0x0903)
      ∧ (s.cfg .svPVocab 0 n.val ≠ 0 → (s.namedProgram n).isSome = true →
        (s.requestBad n b = true → State.applyCmd k s h = s.completeFwd h 0x0501)
        ∧ (s.requestBad n b = false →
          ((∃ p ∈ s.sv.entries, p.2.part = n ∧ p.2.reqId = bytesWord (sub b 120 8)) → State.applyCmd k s h = s.completeFwd h 0x050A)
          ∧ ((∀ p ∈ s.sv.entries, p.2.part = n → p.2.reqId ≠ bytesWord (sub b 120 8)) →
            (s.freeEntryIx n = none → State.applyCmd k s h = s.completeFwd h 0x0503)
            ∧ ∀ e, s.freeEntryIx n = some e → let len := (b.length - 128 + 7) / 8 * 8
              (areaFit (s.cfgN .svPAreaSize 0 n.val) len (s.svPart n).area = none → State.applyCmd k s h = s.completeFwd h 0x0504)
              ∧ ∀ o p, areaFit (s.cfgN .svPAreaSize 0 n.val) len (s.svPart n).area = some o →
                  let a := s.cfgN .svPAreaBase 0 n.val + o
                  s.place (stationAcc (Fin.ofNat 8 e) n) a (b.length - 128) true = .ok p →
                  (s.neverAdmissible n (fieldNat b 76 4) = true →
                    State.applyCmd k s h = (s.domReport n 0x010B).completeFwd h 0x010B)
                  ∧ (s.neverAdmissible n (fieldNat b 76 4) = false → h.origin ≠ s.self →
                    (State.applyCmd k s h).entry? e = some (newEntry h k a)
                    ∧ ((State.applyCmd k s h).svPart n).area = (s.svPart n).area ++ [(e, o, len)])))))

/-- R273, R279: an entry is allocated lowest first, within the range of its partition and where none stands; its part of the
area lies within the area and overlaps no part in use. -/
def Sys2Proof.Claims.ServingAllocation : Prop :=
  (∀ (s : State) (n : Part) (e : Nat), s.freeEntryIx n = some e →
    s.inQuota n e = true ∧ s.entry? e = none ∧ ∀ d, d < e → s.inQuota n d = true → (s.entry? d).isSome = true)
  ∧ (∀ (size len o : Nat) (used : List (Nat × Nat × Nat)), areaFit size len used = some o →
    o + len ≤ size ∧ ∀ u ∈ used, o + len ≤ u.2.1 ∨ u.2.1 + u.2.2 ≤ o)


/-! ## The SPDM responder -/

namespace Sys2Proof.Claims

open Sys2Proof.Machine

/-- R441: a response on a session, from the state that the request leaves: sent whole where it fits the session's length; else
kept for CHUNK_GET, with the error LargeResponse sent in its place. -/
def Says (s : State) (n : Nat) (x : Session) (i : Instr) (rsp : List Byte) (u : State) : Prop :=
  let large : List Byte := [0x13, 0x7F, 0x0F, 0, 1]
  (rsp.length ≤ x.maxLen → exec i s = .next (after (fun _ => (u.send (.spdm n rsp)).sessionSend n [(.spdm, rsp)]) s))
  ∧ (x.maxLen < rsp.length → exec i s = .next (after (fun _ =>
      ((u.setSpdm n { u.spdm n with outbound := rsp }).send (.spdm n large)).sessionSend n [(.spdm, large)]) s))

/-- The SPDM commands with their packet. -/
def spdmRequest : Instr → Option (BrosinHdr × List Byte)
  | .getVersion h m | .getCapabilities h m | .negotiateAlgorithms h m | .getDigests h m | .getCertificate h m | .challenge h m
  | .getMeasurements h m | .chunkSend h m | .chunkGet h m | .spdmUnsupportedRequest h m => some (h, m)
  | _ => none

/-- R434, R438: a packet of a plain session comes in well formed and within its length. -/
def PacketIn (s : State) (x : Session) (h : BrosinHdr) (m : List Byte) : Prop :=
  Heard s h.prot ∧ s.session h.session = some x ∧ Plainly x ∧ h.wellFormed = true ∧ m.length ≤ x.maxLen

/-- A state once the next packet of a session is taken. -/
def inOrder (s : State) (x : Session) (h : BrosinHdr) : State :=
  (heard s).setSession h.session { ackedBy x h with rxSeq := h.seq, ackDue := true }

end Sys2Proof.Claims

/-- R438, R441, R561 to R563: the packets are taken in order, and only an established session is answered. GET_VERSION agrees
1.3 and starts anew; the others follow in their order, else the error is UnexpectedRequest, a malformed one InvalidRequest,
another version VersionMismatch, any other code UnsupportedRequest. The digest is that of the certificate chain, a certificate
request gives a part of it, CHALLENGE and signed MEASUREMENTS carry a signature of the ALIAS key, and chunks carry what does
not fit. The nonces are free values. -/
def Obligations.SpdmResponder : Prop :=
  (∀ (i : Instr) (h : BrosinHdr) (m : List Byte) (s : State) (x : Session), spdmRequest i = some (h, m) → PacketIn s x h m →
    ((h.seq = x.rxSeq ∨ 2 ^ 31 ≤ (h.seq - x.rxSeq).toNat ∨ 1024 < (h.seq - x.rxSeq).toNat) →
      exec i s = .next ((heard s).setSession h.session { ackedBy x h with ackDue := true }))
    ∧ (2 ≤ (h.seq - x.rxSeq).toNat → (h.seq - x.rxSeq).toNat ≤ 1024 → exec i s = .next ((heard s).setSession h.session
        { ackedBy x h with early := [(h.seq, .spdm, m)], ackDue := true }))
    ∧ (h.seq = x.rxSeq + 1 → x.established = false → exec i s = .next (inOrder s x h)))
  ∧ (∀ (h : BrosinHdr) (m : List Byte) (s₀ : State) (x : Session), PacketIn s₀ x h m → h.seq = x.rxSeq + 1 → x.established = true →
    let n := h.session
    let s := inOrder s₀ x h
    let y := s.spdm n
    let say (i : Instr) (rsp : List Byte) (u : State) : Prop := Says s₀ n x i rsp u
    let unexpected : List Byte := [0x13, 0x7F, 4, 0]
    let invalid : List Byte := [0x13, 0x7F, 1, 0]
    let mismatch : List Byte := [0x13, 0x7F, 0x41, 0]
    ((4 ≤ m.length ∧ m.head? = some 0x10) → let rsp : List Byte := [0x10, 4, 0, 0, 0, 1, 0, 0x13]
      say (.getVersion h m) rsp (s.setSpdm n { Spdm.init with version := true, transcript := m ++ rsp }))
    ∧ (¬(4 ≤ m.length ∧ m.head? = some 0x10) → say (.getVersion h m) mismatch s)
    ∧ (m.head? ≠ some 0x13 → say (.getCapabilities h m) mismatch s ∧ say (.negotiateAlgorithms h m) mismatch s
        ∧ say (.getDigests h m) mismatch s ∧ say (.getCertificate h m) mismatch s ∧ say (.challenge h m) mismatch s
        ∧ say (.getMeasurements h m) mismatch s ∧ say (.chunkSend h m) mismatch s ∧ say (.chunkGet h m) mismatch s)
    ∧ say (.spdmUnsupportedRequest h m) ([0x13, 0x7F, 7] ++ natBytes 1 (fieldNat m 1 1)) s
    ∧ (m.head? = some 0x13 →
      (m.length < 20 → say (.getCapabilities h m) invalid s) ∧ (m.length < 32 → say (.negotiateAlgorithms h m) invalid s)
      ∧ (m.length < 4 → say (.getDigests h m) invalid s) ∧ (m.length < 8 → say (.getCertificate h m) invalid s)
      ∧ (20 ≤ m.length → y.version = false → say (.getCapabilities h m) unexpected s)
      ∧ (20 ≤ m.length → y.version = true → ∃ rsp t, exec (.getCapabilities h m) s₀ = .next t ∧ (t.spdm n).caps = true
          ∧ (t.spdm n).algs = false ∧ rsp.length = 20 ∧ rsp.take 5 = [0x13, 0x61, 0, 0, 0] ∧ (rsp.drop 8).take 4 = [0x16, 0, 2, 0]
          ∧ (20 ≤ x.maxLen → Msg.spdm n rsp ∈ t.tx) ∧ t.mem = s₀.mem)
      ∧ (32 ≤ m.length → y.caps = false → say (.negotiateAlgorithms h m) unexpected s)
      ∧ (32 ≤ m.length → y.caps = true → fieldNat m 6 1 % 2 = 1 → fieldNat m 8 4 / 0x80 % 2 = 1 → fieldNat m 12 4 / 2 % 2 = 1 →
          let rsp : List Byte := [0x13, 0x63, 0, 0, 36, 0, 1, 0, 4, 0, 0, 0, 0x80, 0, 0, 0, 2, 0, 0, 0] ++ List.replicate 16 0
          say (.negotiateAlgorithms h m) rsp (s.setSpdm n { y with algs := true, transcript := y.transcript ++ m ++ rsp }))
      ∧ (4 ≤ m.length → y.algs = false → say (.getDigests h m) unexpected s)
      ∧ (4 ≤ m.length → y.algs = true → let rsp := [0x13, 0x01, 1, 1] ++ sha384 s.certificates
          say (.getDigests h m) rsp (s.setSpdm n { y with transcript := y.transcript ++ m ++ rsp }))
      ∧ (8 ≤ m.length → y.algs = false → say (.getCertificate h m) unexpected s)
      ∧ (8 ≤ m.length → y.algs = true → let off := fieldNat m 4 2
          ((fieldNat m 2 1 ≠ 0 ∨ s.certificates.length < off) → say (.getCertificate h m) invalid s)
          ∧ (fieldNat m 2 1 = 0 → off ≤ s.certificates.length →
            let k := min (fieldNat m 6 2) (s.certificates.length - off)
            let rsp := [0x13, 0x02, 0, 0] ++ natBytes 2 k ++ natBytes 2 (s.certificates.length - off - k) ++ (s.certificates.drop off).take k
            say (.getCertificate h m) rsp (s.setSpdm n { y with transcript := y.transcript ++ m ++ rsp })))
      ∧ (44 ≤ m.length → y.algs = false → say (.challenge h m) unexpected s)
      ∧ (44 ≤ m.length → y.algs = true → fieldNat m 2 1 = 0 → fieldNat m 3 1 = 0 →
          let u := s.nonce.2
          let body := [0x13, 0x03, 0, 1] ++ sha384 s.certificates ++ s.nonce.1 ++ [0, 0] ++ (m.drop 36).take 8
          say (.challenge h m) (body ++ (List.range 96).map (Config.signByte s.aliasKey (y.transcript ++ m ++ body)))
            (u.setSpdm n { y with transcript := [] }))
      ∧ (45 ≤ m.length → y.algs = false → say (.getMeasurements h m) unexpected s)
      ∧ (45 ≤ m.length → y.algs = true → 11 < fieldNat m 3 1 → fieldNat m 3 1 ≠ 0xFF → say (.getMeasurements h m) invalid s)
      ∧ (12 ≤ m.length → y.algs = true → fieldNat m 2 1 % 2 = 0 → 1 ≤ fieldNat m 3 1 → fieldNat m 3 1 ≤ 11 →
          let k := fieldNat m 3 1
          let u := s.nonce.2
          let rsp := [0x13, 0x60, 0, 0, 1] ++ natBytes 3 (s.measBlock k).length ++ s.measBlock k ++ s.nonce.1 ++ [0, 0] ++ (m.drop 4).take 8
          say (.getMeasurements h m) rsp (u.setSpdm n { y with transcript := y.transcript ++ m ++ rsp }))
      ∧ (12 ≤ m.length → fieldNat m 4 2 = 0 → m.length = 16 + fieldNat m 8 4 → fieldNat m 2 1 % 2 = 0 →
          say (.chunkSend h m) ([0x13, 0x05, 0] ++ (m.drop 3).take 1 ++ (m.drop 4).take 2) (s.setSpdm n { y with inbound := m.drop 16 }))
      ∧ (6 ≤ m.length → y.outbound = [] → say (.chunkGet h m) unexpected s)
      ∧ (6 ≤ m.length → y.outbound ≠ [] → fieldNat m 4 2 = 0 → y.outbound.length ≤ x.maxLen - 16 →
          let rsp := [0x13, 0x06, 1] ++ (m.drop 3).take 1 ++ (m.drop 4).take 2 ++ [0, 0] ++ natBytes 4 y.outbound.length
            ++ natBytes 4 y.outbound.length ++ y.outbound
          say (.chunkGet h m) rsp (s.setSpdm n { y with outbound := [] }))))

/-! ## Arbiters and partitions -/

namespace Sys2Proof.Claims

open Sys2Proof.Machine

/-- What a window has granted, and its idle cycles. -/
def grantsOf (w : Window) : Nat := w.guar.sum + w.best.sum + w.urgentG + w.backG

/-- A window's lists stand for the 16 partitions. -/
def Window16 (w : Window) : Prop :=
  w.demand.length = 16 ∧ w.credit.length = 16 ∧ w.guar.length = 16 ∧ w.best.length = 16 ∧ w.wait.length = 16

/-- The window that ARB_WINDOW_END runs, from the state and the requests of the window (R471 to R475). -/
def windowOf (s : State) (a : Fin 14) (load : ArbLoad) : Window :=
  let x := s.arbiter a
  let zeros16 := List.replicate 16 0
  runWindow ((List.finRange 16).map (fun n => s.share n)) x.burst x.window
    { demand := (List.range 16).map (fun n => load.demand.getD n 0),
      credit := if x.credits.isEmpty then (List.finRange 16).map (fun n => s.creditNow a n) else x.credits,
      guar := zeros16, best := zeros16, wait := zeros16, urgent := x.urgent.length + load.urgent, quota := x.quota, urgentG := 0,
      back := load.background + x.refreshes.length, backG := 0, turn := x.turn, length := x.length,
      idle := 0 }

end Sys2Proof.Claims

/-- R471 to R474: in every window, however long, each cycle is one grant or idle; no partition is granted more within credit
than its credit, nor more in all than it asked for; and no URGENT grant goes past the quota. -/
def Sys2Proof.Claims.ArbiterGrants : Prop :=
  ∀ (shares : List Nat) (burst k : Nat) (w : Window), Window16 w →
    let v := runWindow shares burst k w
    Window16 v
    ∧ grantsOf v + v.idle = grantsOf w + w.idle + k
    ∧ (∀ n, n < 16 → v.guar.getD n 0 + v.credit.getD n 0 = w.guar.getD n 0 + w.credit.getD n 0
        ∧ v.demand.getD n 0 + v.guar.getD n 0 + v.best.getD n 0 = w.demand.getD n 0 + w.guar.getD n 0 + w.best.getD n 0
        ∧ w.wait.getD n 0 ≤ v.wait.getD n 0 ∧ v.wait.getD n 0 ≤ w.wait.getD n 0 + k)
    ∧ v.urgentG + v.quota = w.urgentG + w.quota ∧ v.urgentG + v.urgent = w.urgentG + w.urgent ∧ v.backG + v.back = w.backG + w.back

/-- R470, R474 to R476: at the end of a window its grants are counted, and the next window takes the settings and credits of
now, and the turn of the round robin as it stands. A request whose deadline comes is URGENT from then on, and a refresh joins
the requests of its die's arbiter. -/
def Sys2Proof.Claims.ArbiterWindows : Prop :=
  (∀ (a : Fin 14) (load : ArbLoad) (s : State), let x := s.arbiter a
    let w := windowOf s a load
    ∃ t, exec (.arbWindowEnd a load) s = .next t
      ∧ t.reg .arbGrants 0 a.val = s.reg .arbGrants 0 a.val + BitVec.ofNat 64 (grantsOf w)
      ∧ t.reg .arbUrgent 0 a.val = s.reg .arbUrgent 0 a.val + BitVec.ofNat 64 w.urgentG
      ∧ t.reg .arbBest 0 a.val = s.reg .arbBest 0 a.val + BitVec.ofNat 64 w.best.sum
      ∧ t.reg .arbBack 0 a.val = s.reg .arbBack 0 a.val + BitVec.ofNat 64 w.backG
      ∧ t.reg .arbIdle 0 a.val = s.reg .arbIdle 0 a.val + BitVec.ofNat 64 w.idle
      ∧ (t.arbiter a).window = s.regN .arbWindow ∧ (t.arbiter a).quota = s.regN .arbUrgentQuota
      ∧ (t.arbiter a).burst = s.regN .arbBurst ∧ (t.arbiter a).urgent = x.urgent.drop w.urgentG
      ∧ (t.arbiter a).turn = w.turn ∧ (t.arbiter a).length = w.length
      ∧ (t.arbiter a).credits = (List.finRange 16).map (fun n => s.creditNow a n)
      ∧ (t.arbiter a).refreshes = x.refreshes.drop w.backG ∧ t.mem = s.mem ∧ t.cores = s.cores ∧ t.doms = s.doms)
  ∧ (∀ (a : Fin 14) (s : State), let x := s.arbiter a
    (∀ g : Agent, g ≠ .refresh → exec (.agentDeadline a g) s = .next (s.setArb a { x with urgent := x.urgent ++ [g] }))
    ∧ (x.refreshes = [] → exec (.agentDeadline a .refresh) s = .next s)
    ∧ (∀ d l, x.refreshes = d :: l → exec (.agentDeadline a .refresh) s =
        .next (s.setArb a { x with urgent := x.urgent ++ [.refresh], refreshes := l })))
  ∧ (∀ (md : Fin 4) (d : Fin 12) (s : State), let a : Fin 14 := ⟨md.val, by omega⟩
    exec (.gddr7Refresh md d) s = .next (s.setArb a { s.arbiter a with refreshes := (s.arbiter a).refreshes ++ [d] }))

/-- R479, R482, R485: PART_QUERY answers the configuration, status and credit of a partition that is in use, on a partition's
session for itself only. PREEMPT acts on a BEST_EFFORT domain that runs and has a segment left, stops its cores and casts the
vote DIRTY with 0x0A04; else 0x0903. -/
def Sys2Proof.Claims.PartitionCommands : Prop :=
  ∀ (f : Frame) (s : State),
    (∀ o, f.body.length ≠ 4 → Answers (.partQuery f) 0x00C0 f o .any s 0x0901)
    ∧ (∀ m, f.body.length = 4 → namedPart f ≠ some m → Answers (.partQuery f) 0x00C0 f (.part m) .any s 0x0907)
    ∧ (∀ o, f.body.length = 4 → (o = .mgmt ∨ ∃ m, o = .part m ∧ namedPart f = some m) →
        (namedPart f = none → Answers (.partQuery f) 0x00C0 f o .any s 0x0A03)
        ∧ ∀ n, namedPart f = some n →
          (s.partValid n = false → Answers (.partQuery f) 0x00C0 f o .any s 0x0A03)
          ∧ (s.partValid n = true → Answers (.partQuery f) 0x00C0 f o .any s 0
              (wordBytes (s.partCfg n) ++ wordBytes (s.viewPartStatus n) ++ wordBytes (s.viewCredit n))))
    ∧ (f.body.length ≠ 4 → Answers (.preempt f) 0x00C1 f .mgmt .mgmt s 0x0901)
    ∧ (f.body.length = 4 →
        (namedPart f = none → Answers (.preempt f) 0x00C1 f .mgmt .mgmt s 0x0A03)
        ∧ ∀ n, namedPart f = some n →
          (s.partValid n = false → Answers (.preempt f) 0x00C1 f .mgmt .mgmt s 0x0A03)
          ∧ (s.partValid n = true → s.preemptible n = false → Answers (.preempt f) 0x00C1 f .mgmt .mgmt s 0x0903)
          ∧ (s.partValid n = true → s.preemptible n = true →
              Answers (.preempt f) 0x00C1 f .mgmt .mgmt s 0 [] (fun t => t.preempt n)
              ∧ ((s.dom n).stopped = true → s.preempt n = s)
              ∧ ((s.dom n).stopped = false →
                  s.preempt n = ((s.stopCores n).updDom n (fun d => { d with stopped := true })).castVote n 0x0A04)))


/-! ## Integrity and Derailleur -/

/-- R494 to R497: a replay starts on the first available site, and counts. The first digest that matches ends the unit; one
that differs counts a mismatch and needs a third run, which decides: the replaying site at fault, 0x0B09, without effect on
the vote; the original at fault, 0x0B02 in the vote and suspect; or, all three different, both. Each decision takes a
snapshot. -/
def Sys2Proof.Claims.ReplayRuns : Prop :=
  ∀ (d : Fin 8) (s : State), let q := Assoc.getD d [] s.integ.queue
    (q = [] → exec (.replayStart d) s = .next s ∧ ∀ g, exec (.replayComplete d g) s = .next s)
    ∧ (∀ r l, q = r :: l → r.running = none →
        (∀ i, s.replaySite d r = some i → exec (.replayStart d) s = .next
          ((s.setReplays d ({ r with running := some i.site } :: l)).bump .intReplays 0 0 1))
        ∧ (s.replaySite d r = none → l = [] → exec (.replayStart d) s = .next s))
    ∧ (∀ r k, q = [r] → r.running = some k → let orig := some (originalDigest r.audit)
        (r.runs = [] → exec (.replayComplete d orig) s = .next (s.setReplays d []))
        ∧ (∀ g, r.runs = [] → g ≠ orig → exec (.replayComplete d g) s = .next
            ((s.bump .intAuditMismatches 0 0 1).setReplays d [{ r with runs := [(k, g)], running := none }]))
        ∧ (∀ k1 first, r.runs = [(k1, first)] → let other : SiteId := ⟨d, k1⟩
            (∃ t, exec (.replayComplete d orig) s = .next t ∧ Assoc.getD d [] t.integ.queue = [] ∧ t.reg .intCode = 0x0B09
              ∧ t.reg .intSnapshots = s.reg .intSnapshots + 1 ∧ t.integ.suspects = s.integ.suspects ∧ t.doms = s.doms)
            ∧ (first.isSome = true → first ≠ orig → ∃ t, exec (.replayComplete d first) s = .next t
              ∧ Assoc.getD d [] t.integ.queue = [] ∧ t.reg .intCode = 0x0B02 ∧ t.reg .intSnapshots = s.reg .intSnapshots + 1
              ∧ t.integ.suspects = s.integ.suspects ++ [(r.site, r.part, r.seg, 0x0B02)]
              ∧ (t.dom r.part).errs = (s.dom r.part).errs ++ [(r.seg, 0x0B02, some r.site)] ∧ t.mem = s.mem ∧ t.cores = s.cores)
            ∧ (∀ g, g ≠ orig → (g = none ∨ g ≠ first) → (s.site other).state ≠ .spare → ∃ t, exec (.replayComplete d g) s = .next t
              ∧ Assoc.getD d [] t.integ.queue = [] ∧ t.reg .intCode = 0x0B02 ∧ t.reg .intSnapshots = s.reg .intSnapshots + 1
              ∧ t.integ.suspects = s.integ.suspects ++ [(r.site, r.part, r.seg, 0x0B02), (other, r.part, r.seg, 0x0B02)]
              ∧ (t.dom r.part).errs = (s.dom r.part).errs ++ [(r.seg, 0x0B02, some r.site)] ∧ t.mem = s.mem ∧ t.cores = s.cores)))

/-- R501 to R503, R506, R507: one site of a die is scanned at a time, the lowest quarantined first. A failed scan retires the
site; a passed one makes a spare of a site that was spare or freed by rotation, and of a site without a slot to return to; a
site with one goes on watch and waits for its return. A watch that expires, a scan that is due and a planned rotation mark
their site. -/
def Obligations.SiteScans : Prop :=
  (∀ (d : Fin 8) (s : State),
    ((s.scanning d = true ∨ s.scanNext d = none) → exec (.scanStart d) s = .next s)
    ∧ (∀ i, s.scanning d = false → s.scanNext d = some i →
        exec (.scanStart d) s = .next (s.setSite i { s.site i with state := .scanning }))
    ∧ (∀ p, s.scanning d = false → exec (.scanComplete d p) s = .next s)
    ∧ (∀ i, (dieSites d).find? (fun j => decide ((s.site j).state = .scanning)) = some i → let x := s.site i
        (∃ t, exec (.scanComplete d false) s = .next t ∧ t.site i = { x with
              state := .retired, scanOk := false, scanAt := s.opTime,
              scanCmd := none, rotated := false, due := false, home := none }
          ∧ (∀ j, j ≠ i → t.site j = s.site j) ∧ t.reg .derScans = s.reg .derScans + 1 ∧ t.reg .derScanFails = s.reg .derScanFails + 1
          ∧ t.reg .derRetirements = s.reg .derRetirements + 1 ∧ t.reg .derCode = 0x0B06 ∧ t.mem = s.mem ∧ t.cores = s.cores)
        ∧ (x.due = true ∨ x.rotated = true → (∀ k, (s.siteOf ⟨i.die, k⟩).isSome = true) →
          ∃ t, exec (.scanComplete d true) s = .next t ∧ t.site i = { x with
              state := .spare, scanOk := true, scanAt := s.opTime,
              scanCmd := none, rotated := false, due := false }
            ∧ (∀ j, j ≠ i → t.site j = s.site j) ∧ t.reg .derScans = s.reg .derScans + 1 ∧ t.cores = s.cores)
        ∧ (x.due = false → x.rotated = false → x.home = none → (∀ k, (s.siteOf ⟨i.die, k⟩).isSome = true) →
          ∃ t, exec (.scanComplete d true) s = .next t ∧ t.site i = { x with
              state := .spare, scanOk := true, scanAt := s.opTime,
              scanCmd := none, watchEnd := s.opTime + s.regN .derWatchHours * 3600000000000 }
            ∧ (∀ j, j ≠ i → t.site j = s.site j) ∧ t.reg .derScans = s.reg .derScans + 1 ∧ t.reg .derCode = 0x0B05)
        ∧ (∀ k n, x.due = false → x.rotated = false → x.home = some k → s.partOf ⟨i.die, k⟩ = some n →
          ∃ t, exec (.scanComplete d true) s = .next t ∧ t.site i = { x with
              state := .watch, scanOk := true, scanAt := s.opTime,
              scanCmd := none, watchEnd := s.opTime + s.regN .derWatchHours * 3600000000000 }
            ∧ i ∈ t.integ.returning ∧ t.reg .derCode = 0x0B05 ∧ t.mem = s.mem ∧ t.cores = s.cores))
    ∧ (s.regN .derRotatePeriod = 0 → exec (.rotateDue d) s = .next s)
    ∧ (∀ i, s.regN .derRotatePeriod ≠ 0 → s.oldestScan d = some i →
        ((∃ r ∈ s.integ.rotating, r.die = d) → exec (.rotateDue d) s = .next s)
        ∧ ((∀ r ∈ s.integ.rotating, r.die ≠ d) → (s.siteHeld i).isSome = true → exec (.rotateDue d) s = .next
            { s with integ := { s.integ with rotating := s.integ.rotating ++ [i] } })))
  ∧ (∀ (i : SiteId) (s : State), let x := s.site i
    exec (.watchExpire i) s = .next (s.setSite i { x with state := if x.state = .watch then .inService else x.state, watchEnd := 0 })
    ∧ (x.state = .spare → exec (.spareScanDue i) s = .next (s.setSite i { x with due := true }))
    ∧ (x.state ≠ .spare → exec (.spareScanDue i) s = .next s))

/-- R509: a die whose PLL in use loses lock goes on with the lowest one that is locked, 0x0B0A, or stops, 0x0B0B; on a compute
die every running core is killed with 0x0B03, a snapshot is taken and the clock event counts. -/
def Sys2Proof.Claims.LockLoss : Prop :=
  ∀ (d : Fin 20) (s : State), let r := s.reg .derPll 0 d.val
    let lost := bits r 5 4
    let after := bits r 2 0 - (if bits r 2 0 / 2 ^ lost % 2 = 1 then 2 ^ lost else 0)
    let new := [0, 1, 2].find? (fun i => decide (after / 2 ^ i % 2 = 1))
    ∃ t, exec (.pllLockLoss d) s = .next t ∧ t.reg .derPll 0 d.val = setBits (setBits r 2 0 after) 5 4 (new.getD lost)
      ∧ (new.isSome = true → t.reg .derCode = 0x0B0A) ∧ (new = none → t.reg .derCode = 0x0B0B) ∧ t.mem = s.mem
      ∧ (8 ≤ d.val → t.cores = s.cores ∧ t.doms = s.doms)
      ∧ (d.val < 8 → t.reg .intCode = 0x0B03 ∧ t.reg .intClockEvents = s.reg .intClockEvents + 1
          ∧ t.reg .intSnapshots = s.reg .intSnapshots + 1
          ∧ (∀ c n, c.die.val = d.val → RunsIn s c n → (s.core c).running = true → (t.core c).killed = some 0x0B03)
          ∧ ∀ c, c.die.val ≠ d.val → t.core c = s.core c)

/-- R500, R506, R512, R514: the integrity commands: a snapshot is read by its place and all are cleared; the sites and the
slot map of a die are listed; a site in service, on watch or spare is quarantined where a spare can take its slot; a spare is
scanned at once, or next. -/
def Sys2Proof.Claims.IntegrityCommands : Prop :=
  ∀ (f : Frame) (s : State),
    (let i := fieldNat f.body 0 4
     (f.body.length ≠ 4 ∨ 63 < i → Answers (.intSnapshotRead f) 0x00B0 f .mgmt .mgmt s 0x0901)
     ∧ (f.body.length = 4 → i ≤ 63 →
        (Assoc.find i s.integ.snapshots = none → Answers (.intSnapshotRead f) 0x00B0 f .mgmt .mgmt s 0x0903)
        ∧ ∀ bs, Assoc.find i s.integ.snapshots = some bs → Answers (.intSnapshotRead f) 0x00B0 f .mgmt .mgmt s 0 bs))
    ∧ (f.body ≠ [] → Answers (.intSnapshotClear f) 0x00B1 f .mgmt .mgmt s 0x0901)
    ∧ (f.body = [] → Answers (.intSnapshotClear f) 0x00B1 f .mgmt .mgmt s 0 []
        (fun t => State.flashWrite { t with integ := { t.integ with snapshots := [] } }))
    ∧ (∀ o, (f.body.length ≠ 4 ∨ 8 ≤ fieldNat f.body 0 4 → Answers (.derQuery f) 0x00B2 f o .any s 0x0901)
        ∧ ∀ d : Fin 8, f.body.length = 4 → fieldNat f.body 0 4 = d.val → Answers (.derQuery f) 0x00B2 f o .any s 0 (s.derMap d))
    ∧ (bodySite f.body = none → Answers (.derQuarantine f) 0x00B3 f .mgmt .mgmt s 0x0901
        ∧ Answers (.derScan f) 0x00B4 f .mgmt .mgmt s 0x0901)
    ∧ (∀ i, bodySite f.body = some i → let x := s.site i
        ((x.state ≠ .inService ∧ x.state ≠ .watch ∧ x.state ≠ .spare) ∨ (x.slot.isSome = true ∧ s.spareFor i.die = none) →
          Answers (.derQuarantine f) 0x00B3 f .mgmt .mgmt s 0x0903)
        ∧ (x.state = .inService ∨ x.state = .watch ∨ x.state = .spare → x.slot = none ∨ (s.spareFor i.die).isSome = true →
          Effect (.derQuarantine f) 0x00B3 f .mgmt .mgmt s (fun t => t.quarantineLater i (some f)))
        ∧ (x.state ≠ .spare ∨ s.replaying i = true ∨ x.scanCmd.isSome = true → Answers (.derScan f) 0x00B4 f .mgmt .mgmt s 0x0903)
        ∧ (x.state = .spare → s.replaying i = false → x.scanCmd = none → Effect (.derScan f) 0x00B4 f .mgmt .mgmt s (fun t =>
            t.setSite i { x with state := if s.scanning i.die = true then .spare else .scanning, due := true, scanCmd := some f })))


/-! ## Power -/

/-- R534 to R536: the effective cap is the smallest cap that holds; when it is evaluated again, EMERGENCY holds exactly while
it lies below the floor, and a cap at or above the estimate ends CAP_TRACKING, while a fall below the estimate starts it. -/
def Sys2Proof.Claims.EffectiveCaps : Prop :=
  ∀ s : State,
    s.effectiveCap ∈ s.caps ∧ (∀ c ∈ s.caps, s.effectiveCap.1 ≤ c.1)
    ∧ s.recap.reg .pwrEffectiveCap = BitVec.ofNat 64 s.effectiveCap.1
    ∧ s.recap.pw.emergency = decide (s.effectiveCap.1 < s.regN .pwrFloor)
    ∧ (s.pw.estimate ≤ s.effectiveCap.1 → s.recap.pw.tracking = false)
    ∧ (s.effectiveCap.1 < s.pw.estimate → s.pw.tracking = true → s.recap.pw.tracking = true)
    ∧ (s.effectiveCap.1 < s.pw.estimate → s.effectiveCap.1 < s.regN .pwrEffectiveCap → s.pw.tracking = false →
        s.recap.pw.tracking = true ∧ s.recap.pw.trackE0 = s.pw.estimate ∧ s.recap.pw.trackStart = s.now)
    ∧ s.recap.mem = s.mem ∧ s.recap.cores = s.cores ∧ s.recap.doms = s.doms ∧ s.recap.reg .pwrCap = s.reg .pwrCap

/-- R534, R538, R546, R547: a cap outside 1,200 W to 3,600 W and a heartbeat timeout outside 1 s to 600 s are discarded with
0x0C0E; any other cap is kept, or the floor in its place where the policy says so, and the caps are evaluated again. Over I3C
and by PWR_CAP it is a heartbeat too. A heartbeat clears SAFE_CAP, arms the monitor if it is the first, and SAFE_CAP holds
once an armed monitor times out. -/
def Sys2Proof.Claims.PowerCaps : Prop :=
  (∀ (v : Word) (s : State),
    (v.toNat < 1200 ∨ 3600 < v.toNat → ∀ b, exec (.pwrCapWrite b v) s = .next (s.setReg .pwrCode 0 0 0x0C0E))
    ∧ (1200 ≤ v.toNat → v.toNat ≤ 3600 →
        exec (.pwrCapWrite false v) s = .next (after (fun t => (t.storeCap v.toNat).newCaps) s)
        ∧ exec (.pwrCapWrite true v) s = .next (after (fun t => ((t.storeCap v.toNat).newCaps).heartbeat) s)
        ∧ (s.storeCap v.toNat).reg .pwrCap =
            (if (s.reg .pwrCapPolicy).getLsbD 0 = false ∧ v.toNat < s.regN .pwrFloor then s.reg .pwrFloor else v))
    ∧ (let ms := bits v 31 0
       (ms < 1000 ∨ 600000 < ms → exec (.pwrHbCtrlWrite v) s = .next (s.setReg .pwrCode 0 0 0x0C0E))
       ∧ (1000 ≤ ms → ms ≤ 600000 → exec (.pwrHbCtrlWrite v) s = .next
          ((s.setReg .pwrHbCtrl 0 0 (BitVec.ofNat 64 ms)).setPw { s.pw with armed := v.getLsbD 32 })))
    ∧ (let p := { s.pw with armed := s.pw.armed || !s.pw.beaten, beaten := true, safeCap := false }
       (s.pw.safeCap = false → exec (.pwrHeartbeatWrite v) s = .next (s.setPw p))
       ∧ (s.pw.safeCap = true → exec (.pwrHeartbeatWrite v) s = .next (after (fun t => (t.setPw p).newCaps) s)))
    ∧ ((s.pw.armed = false ∨ s.pw.safeCap = true) → exec .heartbeatTimeout s = .next s)
    ∧ (s.pw.armed = true → s.pw.safeCap = false → exec .heartbeatTimeout s = .next
        (after (fun t => ((t.setPw { t.pw with safeCap := true }).pwrReport 0x0C05).newCaps) s)))
  ∧ (∀ (f : Frame) (s : State),
    (let w := fieldNat f.body 0 4
     ((f.body.length ≠ 8 ∨ fieldNat f.body 4 4 ≠ 0) → Answers (.pwrCap f) 0x00A0 f .mgmt .mgmt s 0x0901)
     ∧ (f.body.length = 8 → fieldNat f.body 4 4 = 0 →
        (w < 1200 ∨ 3600 < w → Answers (.pwrCap f) 0x00A0 f .mgmt .mgmt s 0x0C01)
        ∧ (1200 ≤ w → w ≤ 3600 → Effect (.pwrCap f) 0x00A0 f .mgmt .mgmt s (fun t =>
            let u := ((t.storeCap w).newCaps).heartbeat
            u.complete 0x00A0 f 0 (natBytes 4 (u.regN .pwrCap))))))
    ∧ (f.body = [] → Answers (.pwrHeartbeat f) 0x00A1 f .mgmt .mgmt s 0 [] State.heartbeat)
    ∧ (f.body ≠ [] → Answers (.pwrHeartbeat f) 0x00A1 f .mgmt .mgmt s 0x0901)
    ∧ ∀ o, (f.body ≠ [] → Answers (.pwrQuery f) 0x00A2 f o .any s 0x0901)
        ∧ (f.body = [] → Answers (.pwrQuery f) 0x00A2 f o .any s 0
            (([.pwrStatus, .pwrCap, .pwrEffectiveCap, .pwrEstimate, .pwrMeasured, .pwrCoolant] : List Reg).flatMap
              (fun r => wordBytes ((started s 0x00A2 f o).readKey ⟨r, 0, 0⟩)))))

/-- R153, R478, R492, R500, R511, R523, R526, R540, R543: a microsecond's estimate is the sum of the dies' times G / 4,096,
and counts as energy. The ballast cycles of a site that issues ballast count, and a residue check that fails on one is counted
and recorded, sends 0x0B08 and quarantines the site without a DIRTY vote, at a commit where a partition holds its slot. What
the controller leaves as levels stays, for every free value, within each die's ceiling, and 1 for a die at 105 degrees; while
a die with GUARANTEED cores issues them below 16, every BEST_EFFORT core issues at level 1 at most. -/
def Sys2Proof.Claims.EstimateAndLevels : Prop :=
  (∀ (e : EstimateInput) (s : State), s.pw.state ≠ .on → s.pw.tracking = false → e.unheld = false → s.ballastOn = false →
    e.errs = [] → e.sum * s.pw.gain / 4096 ≤ s.regN .pwrEffectiveCap → (∀ n, (s.dom n).heldStart = false) →
    ∃ t, exec (.powerEstimate e) s = .next t ∧ t.pw.estimate = e.sum * s.pw.gain / 4096
      ∧ t.pw.energyUj = s.pw.energyUj + e.sum * s.pw.gain / 4096 ∧ t.pw.emergUs = s.pw.emergUs + bitN s.pw.emergency
      ∧ t.pw.levels = s.pw.levels ∧ t.pw.excessUj = s.pw.excessUj ∧ t.mem = s.mem ∧ t.cores = s.cores)
  ∧ (∀ (e : EstimateInput) (s : State), exec (.powerEstimate e) s = .next (after (fun t =>
      let a := (t.ballastCycles e).account (e.sum * t.pw.gain / 4096)
      let b := if a.pw.tracking = true ∧ a.pw.estimate ≤ a.regN .pwrEffectiveCap then a.endTracking else a
      let c := if e.unheld = true then b.slopeUnheld else b
      ((c.control.excessPreempt e.aboveUs).unreachable).endHeld) s))
  ∧ (∀ (e : EstimateInput) (s : State) (i : SiteId) (k : Nat), e.ballast = [(i, k)] → e.errs = [] →
      (s.ballasts i = true ↔ ((s.site i).state = .inService ∨ (s.site i).state = .watch) ∧ 0 < (s.pw.levels.getD i.die.val ⟨16, 16, 0⟩).ballast)
      ∧ (s.ballasts i = true → s.ballastCycles e = s.bump .mxBallastCycles (siteIx i) 0 k)
      ∧ (s.ballasts i = false → s.ballastCycles e = s))
  ∧ (∀ (e : EstimateInput) (s : State) (x : BallastErr), e.ballast = [] → e.errs = [x] → let u := s.ballastCycles e
      (s.ballasts x.site = false → u = s)
      ∧ (s.ballasts x.site = true → u.reg .mxResidueErrs (siteIx x.site) = s.reg .mxResidueErrs (siteIx x.site) + 1
          ∧ u.reg .intBallastEvents = s.reg .intBallastEvents + 1 ∧ u.reg .intSnapshots = s.reg .intSnapshots + 1 ∧ u.doms = s.doms
          ∧ ((s.siteHeld x.site).isSome = true → u.reg .intCode = 0x0B08 ∧ u.mem = s.mem ∧ u.cores = s.cores
              ∧ u.integ.atCommit = s.integ.atCommit ++ [(x.site, none)] ∧ u.integ.sites = s.integ.sites)))
  ∧ (∀ s : State, s.pw.state = .on → let v := s.control
      (∀ d x, v.pw.levels[d]? = some x → x.g ≤ s.pw.bound d ∧ x.b ≤ s.pw.bound d ∧ x.ballast ≤ s.pw.bound d)
      ∧ (∀ d x y, d < 8 → s.guaranteedOn d = true → v.pw.levels[d]? = some x → x.g < 16 → y ∈ v.pw.levels → y.b ≤ 1)
      ∧ v.pw.levels.length = s.pw.levels.length)

/-- R524: 10 ms without a measured power count, and the third sets EST_FAULT with G at 1.25. A measured power is kept with the
voltage; G moves by at most 5 %, for every free rounding, and stays from 0.80 to 1.25; the ratio inside starts the count of
good periods, the third outside in a row sets EST_FAULT, and 10 good ones clear it. -/
def Sys2Proof.Claims.Calibration : Prop :=
  ∀ (mean vin : Nat) (s : State),
    (s.pw.missing + 1 < 3 → exec (.calibration none mean vin) s = .next
      (s.setPw { s.pw with missing := s.pw.missing + 1, goodPeriods := 0 }))
    ∧ (2 ≤ s.pw.missing → ∃ t, exec (.calibration none mean vin) s = .next t ∧ t.pw.estFault = true ∧ t.pw.gain = 5120
        ∧ t.pw.goodPeriods = 0 ∧ (s.pw.estFault = false → t.reg .pwrCode = 0x0C09) ∧ t.mem = s.mem)
    ∧ ∀ m, let inside := 80 * mean ≤ 100 * m ∧ 100 * m ≤ 125 * mean
        ∃ t, exec (.calibration (some m) mean vin) s = .next t ∧ t.pw.missing = 0
          ∧ t.reg .pwrMeasured = BitVec.ofNat 64 (m % 2 ^ 32 + vin % 2 ^ 16 * 2 ^ 32) ∧ t.mem = s.mem ∧ t.cores = s.cores
          ∧ (mean ≠ 0 → inside → 3277 ≤ t.pw.gain ∧ t.pw.gain ≤ 5120 ∧ t.pw.gain ≤ max 3277 (s.pw.gain * 105 / 100)
              ∧ min 5120 (s.pw.gain * 95 / 100) ≤ t.pw.gain)
          ∧ (mean = 0 → inside → t.pw.gain = s.pw.gain)
          ∧ (inside → t.pw.badPeriods = 0 ∧ t.pw.goodPeriods = s.pw.goodPeriods + 1
              ∧ (t.pw.estFault = true ↔ s.pw.estFault = true ∧ s.pw.goodPeriods + 1 < 10))
          ∧ (¬inside → t.pw.badPeriods = s.pw.badPeriods + 1 ∧ t.pw.goodPeriods = 0
              ∧ (2 ≤ s.pw.badPeriods → t.pw.estFault = true ∧ t.pw.gain = 5120)
              ∧ (s.pw.badPeriods < 2 → t.pw.estFault = s.pw.estFault))

/-- R540 to R543: a sample has no effect in OFF. A die at THROTTLE or above loses one level of its ceiling, one more than 2
degrees below gains one after ten samples, and a ceiling never leaves 1 to 16. A die at CRITICAL starts thermal hold, and one
at 110 degrees trips the module. -/
def Obligations.ThermalSamples : Prop :=
  (∀ (x : ThermalInput) (s : State),
    (s.pw.state = .off → exec (.thermalSample x) s = .next s)
    ∧ (s.pw.state ≠ .off → exec (.thermalSample x) s = .next (after (fun t =>
        let u := ((t.coolant x.inlet x.outlet).throttle x.tj).thermalHold x.tj
        if x.tj.any (fun k => decide (1760 ≤ k)) then u.trip 0x0C08 else u) s)))
  ∧ (∀ (throttle tj : Int) (c run : Nat), let r := ceilingStep throttle tj c run
    (1 ≤ c → c ≤ 16 → 1 ≤ r.1 ∧ r.1 ≤ 16)
    ∧ (throttle ≤ tj → r = (max 1 (c - 1), 0))
    ∧ (tj < throttle → throttle - 32 ≤ tj → r = (c, 0))
    ∧ (tj < throttle - 32 → (run < 9 → r = (c, run + 1)) ∧ (9 ≤ run → r = (min 16 (c + 1), 0))))
  ∧ (∀ (tj : List Int) (s : State),
    (∀ d, d < 20 → (s.throttle tj).pw.ceilings.getD d 16 =
        (ceilingStep (s.thermLimit 0) (tj.getD d 0) (s.pw.ceilings.getD d 16) (s.pw.coolRuns.getD d 0)).1)
    ∧ ((s.throttle tj).pw.throttled = true ↔ ∃ d, d < 20 ∧ (s.throttle tj).pw.ceilings.getD d 16 < 16)
    ∧ (s.pw.hold = false → (∀ t ∈ tj, t < s.thermLimit 8) → s.thermalHold tj = s)
    ∧ (s.pw.hold = false → (∃ t ∈ tj, s.thermLimit 8 ≤ t) →
        s.thermalHold tj = ((s.setPw { s.pw with hold := true }).pwrReport 0x0C07).preemptBest)
    ∧ (s.pw.hold = true → (∃ t ∈ tj, s.thermLimit 16 < t) → s.thermalHold tj = s)
    ∧ (s.pw.hold = true → (∀ t ∈ tj, t ≤ s.thermLimit 16) → s.thermalHold tj = (s.setPw { s.pw with hold := false }).endHeld))

/-- R518 to R520, R530, R532, R537, R539, R587, R591, R598: what the pins do. The input's rise leaves OFF, a loss of it goes
there, too high a voltage trips the module; a shelf alert takes ballast away and evaluates the shelf cap; PWR_EN, MOD_RESET_N,
the end of STAGGER and of the ramp-down move the module between its states; a reset waits for the flash writes under way. -/
def Obligations.PowerPins : Prop :=
  ∀ s : State,
    (s.pw.state ≠ .off → exec .inputRise s = .next s)
    ∧ (s.pw.state = .off → exec .inputRise s = .next ((s.setPw { s.pw with state := .standby }).leaveStandby))
    ∧ exec .inputFail s = .next (after (fun t => t.coldReset 0 .off) s)
    ∧ exec .inputHigh s = .next (after (fun t => t.trip 0x0C10) s)
    ∧ (s.pw.state = .off → exec .inputLow s = .next s ∧ exec .shelfAlert s = .next s)
    ∧ (s.pw.state ≠ .off → exec .inputLow s = .next (after (fun t => (t.pwrReport 0x0C0D).shelfDown) s)
        ∧ (s.pw.shelfLoss = true → exec .shelfAlert s = .next (s.setPw { s.pw with alertHigh := false }))
        ∧ (s.pw.shelfLoss = false → exec .shelfAlert s = .next (after (fun t => (((t.setPw { t.pw with
            shelfLoss := true, alertHigh := false, levels := t.pw.levels.map (fun x => { x with ballast := 0 }) }).pwrReport
              0x0C04).recap).preemptBest) s)))
    ∧ (s.pw.shelfLoss = false → exec .shelfAlertClear s = .next (s.setPw { s.pw with alertHigh := true }))
    ∧ (s.pw.shelfLoss = true → exec .shelfAlertClear s = .next
        (after (fun t => (t.setPw { t.pw with shelfLoss := false, alertHigh := true }).newCaps) s))
    ∧ (∀ straps, exec (.pwrEnRise straps) s = .next ((s.setPw { s.pw with pwrEn := true, straps := straps }).leaveStandby))
    ∧ (s.pw.state = .standby → s.pw.pwrEn = true → s.pw.resetN = true → s.boot.failed = none →
        s.leaveStandby = s.setPw { s.pw with state := .stagger, slot := s.pw.straps })
    ∧ ((s.pw.state ≠ .standby ∨ s.pw.pwrEn = false ∨ s.pw.resetN = false ∨ s.boot.failed ≠ none) → s.leaveStandby = s)
    ∧ (let t := s.setPw { s.pw with pwrEn := false }
       (s.pw.state = .off ∨ s.pw.state = .standby ∨ s.pw.down = some .standby → exec .pwrEnFall s = .next t)
       ∧ (s.pw.state ≠ .off → s.pw.state ≠ .standby → s.pw.down ≠ some .standby →
          exec .pwrEnFall s = .next (after (fun _ => t.startReset true 1) s)))
    ∧ (s.pw.state ≠ .stagger → exec .staggerEnd s = .next s)
    ∧ (s.pw.state = .stagger → exec .staggerEnd s = .next
        { s with pw := { s.pw with state := .ramp }, boot := { s.boot with stage := 1 } })
    ∧ (s.pw.down = none → exec .rampDownDone s = .next s)
    ∧ (∀ d, s.pw.down = some d → s.boot.flashWrites = 0 → exec .rampDownDone s = .next (after State.endDown s))
    ∧ (∀ d, s.pw.down = some d → s.boot.flashWrites ≠ 0 → exec .rampDownDone s = .next { s with boot := { s.boot with
        waitingReset := some (decide (d = .standby), if d = .standby then 1 else s.boot.cause) } })
    ∧ (let t := { s with boot := { s.boot with flashWrites := s.boot.flashWrites - 1 } }
       (s.boot.waitingReset = none ∨ 1 < s.boot.flashWrites → exec .flashRecordWritten s = .next t)
       ∧ (∀ cold cause, s.boot.waitingReset = some (cold, cause) → s.boot.flashWrites ≤ 1 →
          (s.pw.down ≠ none → exec .flashRecordWritten s = .next (after (fun _ => t.endDown) s))
          ∧ (s.pw.down = none → exec .flashRecordWritten s = .next (after (fun _ => t.beginReset cold cause) s))))
    ∧ (let t := s.setPw { s.pw with resetN := false }
       (s.pw.state = .off → exec .modReset s = .next t)
       ∧ (s.pw.state ≠ .off → exec .modReset s = .next (after (fun _ => t.startReset true 2) s)))
    ∧ exec .modResetNRelease s = .next ((s.setPw { s.pw with resetN := true }).leaveStandby)
    ∧ (∀ i, s.parks i = true → exec (.siteUnparkDone i) s = .next { s with integ := { s.integ with
        unparked := s.integ.unparked.filter (fun k => decide (k ≠ i)) } })
    ∧ (∀ i, s.parks i = false → exec (.siteUnparkDone i) s = .next (after (fun t => t.power i) s) ∧ i ∈ (s.power i).integ.unparked)

/-- R491, R512, R516, R519, R543, R559, R573, R587, R588, R598: what a reset and a trip leave. A cold reset gives every
register its reset value but the counts that flash keeps, erases the keys, ends every session and domain, and keeps the
snapshots; a warm one keeps close memory, the registers of R588 and the keys; a trip keeps the registers of the root die and
its event until the module is next ON. -/
def Obligations.ResetsLeave : Prop :=
  (∀ (s : State) (cause : Nat) (st : PwrState), let t := s.coldReset cause st
    (∀ r i j, r.inFlash = false → r ≠ .derCode → t.reg r i j = State.reset.reg r i j)
    ∧ (∀ r i j, r.inFlash = true → t.reg r i j = s.reg r i j)
    ∧ t.cores = State.reset.cores ∧ t.doms = State.reset.doms ∧ t.hp = State.reset.hp ∧ t.fab = State.reset.fab ∧ t.sv = State.reset.sv
    ∧ t.tb = State.reset.tb ∧ t.trust.slots = [] ∧ t.trust.change = none ∧ t.trust.debugAuth = false
    ∧ t.trust.bootCount = s.trust.bootCount + 1 ∧ t.trust.revoked = s.trust.revoked ∧ t.trust.fusedSvn = s.trust.fusedSvn
    ∧ t.integ.snapshots = s.integ.snapshots ∧ t.ms.retired = s.ms.retired ∧ t.boot.ready = false ∧ t.boot.cause = cause
    ∧ t.pw.pwrEn = s.pw.pwrEn ∧ (st ≠ .standby → t.pw.state = st) ∧ (st = .standby → t.pw.state = .standby ∨ t.pw.state = .stagger)
    ∧ t.pending = s.pending)
  ∧ (∀ (s : State) (cause : Nat), let t := s.warmReset cause
    (∀ a, a < dieBase → t.mem.read a = s.mem.read a)
    ∧ (∀ r i j, r.keptWarm = true → r ≠ .pwrEffectiveCap → t.reg r i j = s.reg r i j)
    ∧ (∀ r i j, r.keptWarm = false → r ≠ .pwrEffectiveCap → t.reg r i j = State.reset.reg r i j)
    ∧ t.cores = State.reset.cores ∧ t.doms = State.reset.doms ∧ t.hp = State.reset.hp ∧ t.sv = State.reset.sv
    ∧ t.trust = { s.trust with change := none } ∧ t.fab.map = s.fab.map ∧ t.ms.poisoned = s.ms.poisoned
    ∧ t.pw.state = .ramp ∧ t.pw.down = none ∧ t.boot.stage = 1 ∧ t.boot.ready = false ∧ t.boot.cause = cause ∧ t.boot.warm = true)
  ∧ (∀ (s : State) (code : Code),
    (s.pw.state ≠ .on → s.pw.state ≠ .ramp → s.trip code = s)
    ∧ (s.pw.state = .on ∨ s.pw.state = .ramp → let t := s.trip code
        t.pw.state = .tripped ∧ t.pw.stored = s.pw.stored ++ [code] ∧ t.boot.ready = false ∧ t.tb = s.tb
        ∧ t.cores = State.reset.cores ∧ t.doms = State.reset.doms ∧ t.hp = State.reset.hp
        ∧ (∀ r i j, r.onRoot = true → t.reg r i j = s.reg r i j) ∧ (∀ r i j, r.onRoot = false → t.reg r i j = State.reset.reg r i j)
        ∧ t.trust.slots = s.trust.slots ∧ t.integ.sites = s.integ.sites))


/-! ## Bring-up -/

/-- R313, R319, R349, R543, R551, R555, R581 to R585, R592, R604: a stage that ends with code 0 is followed by the next, and
stage 6 makes the module READY and ON; a code, or too long a stage, fails it: bring-up stops there, or a TRIAL image is rolled
back, and MEM.STATUS shows a failed training of GDDR7. The console tells a failed stage. A TRIAL image that is not READY in
time is rolled back, and one not committed in time is BAD. -/
def Sys2Proof.Claims.BringUpStages : Prop :=
  (∀ (r : StageResult) (s : State),
    ((s.boot.failed.isSome = true ∨ s.boot.ready = true) →
      exec (.rampStageComplete r) s = .next s ∧ exec .bringupStageTimeout s = .next s)
    ∧ (s.boot.failed = none → s.boot.ready = false →
      (s.pw.state = .off ∨ s.pw.state = .on ∨ s.pw.state = .tripped → exec (.rampStageComplete r) s = .next s)
      ∧ (s.pw.state = .standby ∨ s.pw.state = .stagger → r.code = 0 → exec (.rampStageComplete r) s = .next s)
      ∧ (s.pw.state = .ramp ∨ s.pw.state = .standby ∨ s.pw.state = .stagger → r.code ≠ 0 →
          exec (.rampStageComplete r) s = .next (after (fun t => t.failStage r.code r.boot) s))
      ∧ (s.pw.state = .ramp ∨ s.pw.state = .standby →
          exec .bringupStageTimeout s = .next (after (fun t => t.failStage 0x0E01 0) s))
      ∧ (s.pw.state = .ramp → r.code = 0 →
          (s.boot.stage = 1 ∨ s.boot.stage = 2 → ∃ t, exec (.rampStageComplete r) s = .next t ∧ t.boot.stage = s.boot.stage + 1
            ∧ t = { s with boot := t.boot, pw := t.pw })
          ∧ (s.boot.stage = 3 → ∃ t, exec (.rampStageComplete r) s = .next t ∧ t.boot.stage = 4 ∧ t.tb.tbc = 0 ∧ t.tb.runs = true
              ∧ t.mem = s.mem)
          ∧ (s.boot.stage = 4 → exec (.rampStageComplete r) s = .next
              { s with boot := { s.boot with stage := 5 }, pw := { s.pw with vfPoint := List.replicate 20 15 } })
          ∧ (s.boot.stage = 5 → ∃ t, exec (.rampStageComplete r) s = .next t ∧ t.boot.stage = 6 ∧ t.reg .memStatus = 1
              ∧ (∀ d, d < 4 → t.reg .memMdRate 0 d = BitVec.ofNat 64 (r.mdRates.getD d 40))
              ∧ ((∃ d, d < 4 ∧ r.mdRates.getD d 40 < 40) → t.reg .memCode = 0x060C)
              ∧ (s.boot.warm = true → t.mem = s.mem)
              ∧ (s.boot.warm = false → (∀ a, a < s.closeTop → t.mem.read a = 0) ∧ ∀ a, s.closeTop ≤ a → t.mem.read a = s.mem.read a))
          ∧ (s.boot.stage = 6 → ∃ t, exec (.rampStageComplete r) s = .next t ∧ t.boot.ready = true ∧ t.pw.state = .on
              ∧ t.pw.stored = [] ∧ t.boot.timeUs = r.timeUs ∧ t.mem = s.mem ∧ t.cores = s.cores))))
  ∧ (∀ (s : State) (code : Code) (stage : Nat), s.onTrial = false → (s.failStage code stage).boot.failed = some code
      ∧ (s.failStage code stage).pw = s.pw ∧ (s.failStage code stage).mem = s.mem
      ∧ (s.pw.state = .ramp → s.boot.stage = 5 → (s.failStage code stage).reg .memStatus = 3))
  ∧ (∀ s : State,
      (s.boot.failed = none → exec .uartStageLine s = .next s)
      ∧ (∀ c, s.boot.failed = some c → exec .uartStageLine s = .next (s.send (.uart (uartLine s.boot.stage c))))
      ∧ (s.onTrial = true → s.boot.ready = false → s.pw.state = .ramp → ∃ t, exec .trialReadyTimeout s = .next t
          ∧ (t.image s.boot.running).state = .bad ∧ t.boot.cause = 5 ∧ t.boot.stage = 1 ∧ t.boot.trialRunning = t.boot.trial.isSome)
      ∧ ((s.onTrial = false ∨ s.boot.ready = true ∨ s.pw.state ≠ .ramp) → exec .trialReadyTimeout s = .next s)
      ∧ ((s.onTrial = false ∨ s.boot.ready = false) → exec .trialTimeout s = .next s)
      ∧ (s.onTrial = true → s.boot.ready = true → ∃ t, exec .trialTimeout s = .next t ∧ (t.image s.boot.running).state = .bad
          ∧ t.boot.trialRunning = false ∧ t.boot.ready = true ∧ t.reg .bootCode = 0x0E06 ∧ t.mem = s.mem ∧ t.cores = s.cores))

/-- R581, R587, R589, R590, R592 to R594: the commands of bring-up. An image is written into the slot that is neither CURRENT
nor on trial, checked and marked TRIAL, and made CURRENT while it runs; a reset command completes before its reset starts; the
reset of a partition follows the commit of its running tick; a core that serves no slot is reset at once. -/
def Sys2Proof.Claims.BootCommands : Prop :=
  ∀ (f : Frame) (s : State),
    (let off := fieldNat f.body 4 4
     let bs := f.body.drop 8
     ((2 ≤ fieldNat f.body 0 4 ∨ f.body.length < 8 ∨ 1048576 < bs.length ∨ imageMax < off + bs.length) →
        Answers (.bootFwWrite f) 0x00D0 f .mgmt .mgmt s 0x0901)
     ∧ ∀ b, slotOf (fieldNat f.body 0 4) = some b → 8 ≤ f.body.length → bs.length ≤ 1048576 → off + bs.length ≤ imageMax →
        (s.boot.current = b ∨ s.boot.trial.isSome = true → Answers (.bootFwWrite f) 0x00D0 f .mgmt .mgmt s 0x0903)
        ∧ (s.boot.current ≠ b → s.boot.trial = none → Answers (.bootFwWrite f) 0x00D0 f .mgmt .mgmt s 0 [] (fun t => t.setImage b
            { s.image b with state := .empty, version := 0, svn := 0, writes := (s.image b).writes ++ [(off, bs)] })))
    ∧ ((2 ≤ fieldNat f.body 0 4 ∨ f.body.length ≠ 4) → Answers (.bootFwActivate f) 0x00D1 f .mgmt .mgmt s 0x0901)
    ∧ (∀ b, slotOf (fieldNat f.body 0 4) = some b → f.body.length = 4 →
        (s.boot.current = b → Answers (.bootFwActivate f) 0x00D1 f .mgmt .mgmt s 0x0903)
        ∧ (s.boot.current ≠ b → s.imageCheck (s.imageBytes b) = none →
            Answers (.bootFwActivate f) 0x00D1 f .mgmt .mgmt s 0x0E04 [] (fun t => t.bootCode 0x0E04))
        ∧ (∀ v svn, s.boot.current ≠ b → s.imageCheck (s.imageBytes b) = some (v, svn) →
            Answers (.bootFwActivate f) 0x00D1 f .mgmt .mgmt s 0 [] (fun t =>
              (t.setImage b { s.image b with state := .trial, version := v, svn := svn }).flashWrite)))
    ∧ (f.body.length ≠ 4 → Answers (.bootFwCommit f) 0x00D2 f .mgmt .mgmt s 0x0901)
    ∧ (let b := s.boot.running
       f.body.length = 4 →
        ((s.image b).state ≠ .trial → Answers (.bootFwCommit f) 0x00D2 f .mgmt .mgmt s 0x0903)
        ∧ ((s.image b).state = .trial → Answers (.bootFwCommit f) 0x00D2 f .mgmt .mgmt s 0 [] (fun t =>
            let u := (t.setImage b { s.image b with state := .valid }).setImage (!b) { s.image (!b) with state := .valid }
            let low : Nat := if fieldNat f.body 0 4 % 2 = 1 then max s.trust.fusedSvn (s.image b).svn else s.trust.fusedSvn
            State.flashWrite { u with
              boot := { u.boot with current := b, trialRunning := false }
              trust := { u.trust with fusedSvn := low } })))
    ∧ (∀ i : Instr, i = .bootResetCold f ∨ i = .bootResetWarm f → let kind := fieldNat f.body 0 4
        ((f.body.length ≠ 4 ∨ 1 < kind) → Answers i 0x00D3 f .mgmt .mgmt s 0x0901)
        ∧ (f.body.length = 4 → kind ≤ 1 →
          (s.resetting = true → Answers i 0x00D3 f .mgmt .mgmt s 0x0903)
          ∧ (s.resetting = false → Effect i 0x00D3 f .mgmt .mgmt s (fun t =>
              (t.complete 0x00D3 f 0).startReset (decide (kind = 0)) (3 + kind)))))
    ∧ (f.body.length ≠ 4 → Answers (.bootPartReset f) 0x00D4 f .mgmt .mgmt s 0x0901)
    ∧ (f.body.length = 4 → (namedPart f = none ∨ ∃ n, namedPart f = some n ∧ s.partValid n = false) →
        Answers (.bootPartReset f) 0x00D4 f .mgmt .mgmt s 0x0A03)
    ∧ (∀ n, f.body.length = 4 → namedPart f = some n → s.partValid n = true → Effect (.bootPartReset f) 0x00D4 f .mgmt .mgmt s (fun t =>
        let u := { t with boot := { t.boot with partReset := t.boot.partReset ++ [(n, f)] } }
        if s.enabled n = false then u.partReset n
        else if (s.dom n).state = .running ∨ (s.dom n).state = .rewinding then u.updDom n (fun x => { x with resetAfter := true })
        else u.disable n))
    ∧ (bodySite f.body = none → Answers (.bootCoreReset f) 0x00D5 f .mgmt .mgmt s 0x0901)
    ∧ (∀ i, bodySite f.body = some i →
        ((s.site i).slot.isSome = true ∨ s.replaying i = true ∨ (s.site i).state = .scanning →
          Answers (.bootCoreReset f) 0x00D5 f .mgmt .mgmt s 0x0903)
        ∧ ((s.site i).slot = none → s.replaying i = false → (s.site i).state ≠ .scanning →
          Answers (.bootCoreReset f) 0x00D5 f .mgmt .mgmt s 0 [] (fun t => t.coreReset i)))

/-- R589, R590: the reset of a partition frees its request entries, its versions, Pannier items, queues and channels, and its
cores start afresh; the registers of a site's stations take their reset values and its core store reads zero. Every other
partition and core keeps its own. -/
def Sys2Proof.Claims.PartitionAndCoreResets : Prop :=
  (∀ (s : State) (n : Part), (∀ p ∈ s.boot.partReset, p.1 ≠ n) → let t := s.partReset n
    (∀ p ∈ t.sv.entries, p.2.part ≠ n) ∧ (∀ p, p.2.part ≠ n → p ∈ s.sv.entries → (∀ q ∈ s.sv.entries, q.1 = p.1 → q = p) → p ∈ t.sv.entries)
    ∧ (∀ k v, Assoc.find (n, k) t.wt ≠ some v) ∧ (∀ d, ∀ i ∈ t.pnDir d, i.part ≠ n) ∧ (∀ q, t.queue (some n, q) = [])
    ∧ (∀ c x, t.chan c = some x → x.owner ≠ some n) ∧ (∀ c, c ∈ s.coresOf n → t.core c = Core.init)
    ∧ (∀ c, c ∉ s.coresOf n → t.core c = s.core c) ∧ t.mem = s.mem ∧ t.regs = s.regs ∧ t.doms = s.doms)
  ∧ (∀ (s : State) (i : SiteId), let t := s.coreReset i
    (∀ a, siteAddr i ≤ a → a < siteAddr i + coreStoreBytes → t.mem.read a = 0)
    ∧ (∀ a, a < siteAddr i ∨ siteAddr i + coreStoreBytes ≤ a → t.mem.read a = s.mem.read a)
    ∧ (∀ r j, (r.info.block = .mx ∨ r.info.block = .vx ∨ r.info.block = .tx ∨ r.info.block = .lx) →
        t.reg r (siteIx i) j = State.reset.reg r (siteIx i) j)
    ∧ (∀ r k j, k ≠ siteIx i → t.reg r k j = s.reg r k j) ∧ t.cores = s.cores ∧ t.integ = s.integ)

/-! ## Trust -/

namespace Sys2Proof.Claims

open Sys2Proof.Machine

/-- SEC_RECORD_LOAD completes with the code of its checks. -/
def pairLoaded (r : Code × State) (t : State) (f : Frame) : State :=
  (if r.1 = 0 then r.2.flashWrite else t.secCode r.1).complete 0x0097 f r.1

end Sys2Proof.Claims

/-- R551, R565, R569, R570, R573 to R577: ENROLL takes two keys of the curve once; a change is refused by the first check it
fails, and applies at once or waits for the enabled partition that it touches; a key slot takes a key that decrypts, or is
erased, by a session that may use it while no enabled partition does; a report counts a signature of the ALIAS key down; a
record that verifies is kept. -/
def Obligations.TrustCommands : Prop :=
  ∀ (f : Frame) (s : State),
    (let op := (f.body.drop 0).take 97
     let cu := (f.body.drop 104).take 97
     ((f.body.length ≠ 208 ∨ zeros ((f.body.drop 97).take 7) = false ∨ zeros ((f.body.drop 201).take 7) = false) →
        Answers (.secEnroll f) 0x0090 f .mgmt .mgmt s 0x0901)
     ∧ (f.body.length = 208 → zeros ((f.body.drop 97).take 7) = true → zeros ((f.body.drop 201).take 7) = true →
        (s.trust.enrolled = true → Answers (.secEnroll f) 0x0090 f .mgmt .mgmt s 0x0903)
        ∧ (s.trust.enrolled = false →
          (op = cu ∨ onCurve op = false ∨ onCurve cu = false →
            Answers (.secEnroll f) 0x0090 f .mgmt .mgmt s 0x0D01 [] (fun t => t.secCode 0x0D01))
          ∧ (op ≠ cu → onCurve op = true → onCurve cu = true → Answers (.secEnroll f) 0x0090 f .mgmt .mgmt s 0 []
              (fun t => (t.setTrust { t.trust with operator := op, custodian := cu }).flashWrite)))))
    ∧ (∀ e, (started s 0x0091 f .mgmt).changeCheck f.body = .error e → Answers (.secChange f) 0x0091 f .mgmt .mgmt s e []
        (fun t => if 0x0D00 ≤ e then t.secCode e else t))
    ∧ (∀ items, (started s 0x0091 f .mgmt).changeCheck f.body = .ok items →
        ((started s 0x0091 f .mgmt).touched items = [] → Effect (.secChange f) 0x0091 f .mgmt .mgmt s (fun t => t.applyItems items f))
        ∧ (∀ n l, (started s 0x0091 f .mgmt).touched items = n :: l → Effect (.secChange f) 0x0091 f .mgmt .mgmt s (fun t =>
            t.setTrust { t.trust with change := some (items, n, f) })))
    ∧ (∀ o,
      (f.body ≠ [] → Answers (.secQuery f) 0x0092 f o .any s 0x0901)
      ∧ (f.body = [] → Answers (.secQuery f) 0x0092 f o .any s 0 (s.setupDigest ++ wordBytes s.viewSec ++ natBytes 8 s.trust.changeSeq
          ++ natBytes 8 s.trust.loadSeq ++ (List.range 63).flatMap (fun k => wordBytes (s.viewSlot (k + 1)))))
      ∧ (let k := fieldNat f.body 0 4
         ((f.body.length < 140 ∨ k = 0 ∨ 63 < k ∨ fieldNat f.body 4 4 ≠ 0 ∨ zeros ((f.body.drop 105).take 7) = false) →
            Answers (.secKeyLoad f) 0x0093 f o .any s 0x0901)
         ∧ (140 ≤ f.body.length → 1 ≤ k → k ≤ 63 → fieldNat f.body 4 4 = 0 → zeros ((f.body.drop 105).take 7) = true →
            (s.slotAllowed o k = false → Answers (.secKeyLoad f) 0x0093 f o .any s 0x0D0C [] (fun t => t.secCode 0x0D0C))
            ∧ (s.slotAllowed o k = true → s.slotBusy k = true → Answers (.secKeyLoad f) 0x0093 f o .any s 0x0903)
            ∧ (s.slotAllowed o k = true → s.slotBusy k = false →
              ((s.openKey f.body = none ∨ ∃ key, s.openKey f.body = some key ∧ key.length ≠ keyLength k) →
                Answers (.secKeyLoad f) 0x0093 f o .any s 0x0D0B [] (fun t => t.secCode 0x0D0B))
              ∧ ∀ key, s.openKey f.body = some key → key.length = keyLength k →
                  Answers (.secKeyLoad f) 0x0093 f o .any s 0 [] (fun t => t.loadKey k key)))
         ∧ ((f.body.length ≠ 4 ∨ k = 0 ∨ 63 < k) → Answers (.secKeyErase f) 0x0094 f o .any s 0x0901)
         ∧ (f.body.length = 4 → 1 ≤ k → k ≤ 63 →
            (s.slotAllowed o k = false → Answers (.secKeyErase f) 0x0094 f o .any s 0x0D0C [] (fun t => t.secCode 0x0D0C))
            ∧ (s.slotAllowed o k = true → s.slotBusy k = true → Answers (.secKeyErase f) 0x0094 f o .any s 0x0903)
            ∧ (s.slotAllowed o k = true → s.slotBusy k = false → Answers (.secKeyErase f) 0x0094 f o .any s 0 [] (fun t =>
                (t.setTrust { t.trust with slots := Assoc.put k { t.trust.slot k with key := none } t.trust.slots }).rekey t))))
      ∧ (f.body.length ≠ 8 → Answers (.secRecordRead f) 0x0095 f o .any s 0x0901)
      ∧ (let kind := fieldNat f.body 0 4
         f.body.length = 8 →
          (kind = 0 → Answers (.secRecordRead f) 0x0095 f o .any s 0 s.certificates)
          ∧ (kind ≠ 0 → s.recordAt kind (fieldNat f.body 4 4) = none → Answers (.secRecordRead f) 0x0095 f o .any s 0x0903)
          ∧ (∀ bs, kind ≠ 0 → s.recordAt kind (fieldNat f.body 4 4) = some bs → Answers (.secRecordRead f) 0x0095 f o .any s 0 bs))
      ∧ (f.body.length ≠ 32 → Answers (.secReport f) 0x0096 f o .any s 0x0901)
      ∧ (f.body.length = 32 →
          (s.trust.aliasLms = false ∨ s.trust.aliasLeft = 0 →
            Answers (.secReport f) 0x0096 f o .any s 0x0D0E [] (fun t => t.secCode 0x0D0E))
          ∧ (s.trust.aliasLms = true → s.trust.aliasLeft ≠ 0 → Answers (.secReport f) 0x0096 f o .any s 0
              ((started s 0x0096 f o).reportRecord f.body)
              (fun t => t.setTrust { t.trust with aliasLeft := t.trust.aliasLeft - 1 }))))
    ∧ (let kind := fieldNat f.body 6 1
       (kind ≠ 4 → kind ≠ 8 → kind ≠ 9 → Answers (.secRecordLoad f) 0x0097 f .mgmt .mgmt s 0x0D01 [] (fun t => t.secCode 0x0D01))
       ∧ (kind = 8 ∨ kind = 9 → Effect (.secRecordLoad f) 0x0097 f .mgmt .mgmt s (fun t => pairLoaded (t.loadRecord f.body) t f))
       ∧ (kind = 4 → Effect (.secRecordLoad f) 0x0097 f .mgmt .mgmt s (fun t =>
            pairLoaded (t.loadPair (f.body.take (recordLen f.body)) (f.body.drop (recordLen f.body))) t f)))


/-! ## Exact arithmetic, and single rules -/

namespace Sys2Proof.Claims

open Sys2Proof.Machine

/-- The number that a dyadic stands for. -/
def valueOf (d : Dy) : ℚ := (d.m : ℚ) * (2 : ℚ) ^ d.e

/-- The long register's range as integers (R102). -/
def inWindow (x : Int) : Int := max (-(2 ^ 127)) (min (2 ^ 127 - 1) x)

end Sys2Proof.Claims

/-- R103, R105: a contribution is truncated toward minus infinity to a whole multiple of 2^(A−96) before it is added, and ILO
is set exactly where that changes it, IHI where it lies outside the range (R104); a NaN contribution sets INAN, and a register
with INAN set reads out as NaN. -/
def Obligations.ContributionsTruncate : Prop :=
  ∀ (a : Acc) (spilled : Bool),
    (∀ d : Dy, let u : ℚ := (2 : ℚ) ^ (a.anchor.toInt - 96)
      let b := accAdd a (some d) spilled
      ∃ x : Int, (x : ℚ) * u ≤ valueOf d ∧ valueOf d < ((x : ℚ) + 1) * u ∧ b.sum = a.sum + inWindow x
        ∧ (b.flags.getLsbD 0 = true ↔ a.flags.getLsbD 0 = true ∨ (x : ℚ) * u ≠ valueOf d)
        ∧ (b.flags.getLsbD 1 = true ↔ a.flags.getLsbD 1 = true ∨ inWindow x ≠ x)
        ∧ b.nan = a.nan ∧ b.count = a.count + 1 ∧ b.anchor = a.anchor ∧ b.rscale = a.rscale)
    ∧ (let b := accAdd a none spilled
       b.nan = true ∧ b.sum = a.sum ∧ b.count = a.count + 1 ∧ b.anchor = a.anchor ∧ b.rscale = a.rscale)
    ∧ (a.nan = true → a.count ≠ 0 → (readElem .fp32 (some a)).1 = 0x7FC00000 ∧ (readElem .bf16 (some a)).1 = 0x7FC0
        ∧ (readElem .fp16 (some a)).1 = 0x7E00 ∧ (readElem .int32 (some a)).1 = 0x80000000
        ∧ (readElem .l64 (some a)).1 = 0x8000000000000000)

/-- R106: contributions added in any order leave the same accumulation, and so the same readout in every target; and a run
that is split in two leaves what the whole leaves. -/
def Obligations.AccumulationOrder : Prop :=
  ∀ (a : Acc) (l m : List (Option Dy × Bool)), l.Perm m →
    l.foldl (fun x c => accAdd x c.1 c.2) a = m.foldl (fun x c => accAdd x c.1 c.2) a
    ∧ (∀ f, readElem f (some (l.foldl (fun x c => accAdd x c.1 c.2) a)) = readElem f (some (m.foldl (fun x c => accAdd x c.1 c.2) a)))
    ∧ (l.foldl (fun x c => accAdd x c.1 c.2) a).sum = a.sum + (l.map (fun c => match c.1 with
        | some d => inWindow (d.floorAt (a.anchor.toInt - 96))
        | none => 0)).sum
    ∧ ((l.foldl (fun x c => accAdd x c.1 c.2) a).nan = true ↔ a.nan = true ∨ ∃ c ∈ l, c.1 = none)
    ∧ ∀ l1 l2 : List (Option Dy × Bool), (l1 ++ l2).Perm l →
        l2.foldl (fun x c => accAdd x c.1 c.2) (l1.foldl (fun x c => accAdd x c.1 c.2) a) = l.foldl (fun x c => accAdd x c.1 c.2) a

/-- R108, R109, R112: an accumulation without a contribution reads out as zero, also where its row scale is not finite, which
is the model's choice (log 112); readout to L64 rounds R × 2^(−56) to the nearest integer, ties to even, clamps it to ±(2^63 −
1) and sets RSAT when it clamps, gives NaN when INAN is set or the row scale is not finite, and does not apply a finite one. -/
def Obligations.LongReadout : Prop :=
  (∀ (f : Fmt) (a : Acc), readElem f none = (0, 0) ∧ (a.count = 0 → a.sum = 0 → readElem f (some a) = (0, 0)))
  ∧ (∀ a : Acc, a.count ≠ 0 → let finite (r : BitVec 16) : Prop := r.toNat / 128 % 256 ≠ 255
      ((a.nan = true ∨ ¬finite a.rscale) → (readElem .l64 (some a)).1 = 0x8000000000000000)
      ∧ (a.nan = false → finite a.rscale → ∃ x : Int, 2 * (2 ^ 56 * x - inWindow a.sum).natAbs ≤ 2 ^ 56
          ∧ (2 * (2 ^ 56 * x - inWindow a.sum).natAbs = 2 ^ 56 → x % 2 = 0)
          ∧ (let y : Int := max (-(2 ^ 63 - 1)) (min (2 ^ 63 - 1) x)
             (readElem .l64 (some a)).1 = (BitVec.ofInt 64 y).toNat
             ∧ ((readElem .l64 (some a)).2.getLsbD 3 = true ↔ a.flags.getLsbD 3 = true ∨ y ≠ x))
          ∧ ∀ r, finite r → readElem .l64 (some { a with rscale := r }) = readElem .l64 (some a)))

/-- R564: the REPORT record that SEC_REPORT returns: its 624-byte body holds the nonce, TBC, the change sequence, measurements
1 to 11 and zeros. -/
def Obligations.ReportRecord : Prop :=
  ∀ (f : Frame) (o : SessOwner) (s : State), f.body.length = 32 → s.trust.aliasLms = true → s.trust.aliasLeft ≠ 0 →
    let u := started s 0x0096 f o
    let rec_ := u.reportRecord f.body
    Answers (.secReport f) 0x0096 f o .any s 0 rec_ (fun t => t.setTrust { t.trust with aliasLeft := t.trust.aliasLeft - 1 })
    ∧ bytesNat ((rec_.drop 6).take 1) = 7 ∧ bytesNat ((rec_.drop 16).take 4) = 624
    ∧ (rec_.drop 64).take 624 = f.body ++ wordBytes s.tb.tbc ++ natBytes 8 s.trust.changeSeq
        ++ (List.range 11).flatMap (fun k => u.measurement (k + 1)) ++ List.replicate 48 0
    ∧ (∀ k, (u.measurement k).length = 48)

/-- R472: the credit of a partition is ceil(q × ADM × WINDOW / RATE) grants, with q = SHARE / 256. -/
def Obligations.ArbiterCredit : Prop :=
  ∀ share adm window rate : Nat, 0 < rate →
    let c := creditOf share adm window rate
    (share : ℚ) / 256 * adm * window / rate ≤ c ∧ (c : ℚ) < (share : ℚ) / 256 * adm * window / rate + 1

/-- R544: THERM_ALERT_N is low while a thermal ceiling is below 16, while thermal hold lasts, and while the module is TRIPPED,
and only then. -/
def Obligations.ThermalAlert : Prop :=
  ∀ s : State, s.thermAlertN = false ↔ ((∃ c ∈ s.pw.ceilings, c < 16) ∨ s.pw.hold = true ∨ s.pw.state = .tripped)

/-- R346, R473, R474: where the credits of a window's partitions add up to no more than its cycles, a partition with credit
that still has requests at the window's end has been granted the whole of its credit: nothing that another partition, an agent
or a best-effort grant does takes it away. -/
def Obligations.GuaranteedCredit : Prop :=
  ∀ (shares : List Nat) (burst k n : Nat) (w : Window), Sys2Proof.Claims.Window16 w → n < 16 → w.credit.sum ≤ k →
    let v := runWindow shares burst k w
    v.demand.getD n 0 = 0 ∨ v.guar.getD n 0 = w.guar.getD n 0 + w.credit.getD n 0

/-! ## The statements in parts -/

/-- No command faults or is refused, on any state, and no command touches the queue of those that wait. The commands
of the queue run first in, first out, and none is lost: after `k` steps the queue holds all but the first `k`. -/
def Obligations.CommandsCompleteInOrder : Prop :=
  Sys2Proof.Claims.EveryCommandCompletes ∧ Sys2Proof.Claims.QueueRunsFirstInFirstOut

/-- R5, R6, R8, R39, R617: a write of a plain RW register that is not locked stores the value without its reserved
bits where the value obeys the register's limits, and otherwise is discarded as a whole; over I3C it also leaves
status 0. R5, R6, R8, R39, R304, R305, R321, R338, R430, R534, R617: every other write of a register. One that has a
command of its own acts as that command; one of a read-only register does nothing and one of a protected one is
discarded; a locked register is left, with 0x0107; a configuration register of SV or KV is stored, and while its
domain is enabled the value it had stays in effect; the tier cache forgets its copies when its range is written, the
caps are evaluated again when one is, and CXL.CTRL and HP.CTRL hold their port DOWN or let it train. An address that
names no register is the model's choice: the write does nothing (log 108). R5, R156: the address of a register
instance names exactly that register. -/
def Obligations.RegisterWrites : Prop :=
  Sys2Proof.Claims.PlainRegisterWrites ∧ Sys2Proof.Claims.OtherRegisterWrites ∧ Sys2Proof.Claims.RegisterAddressesNameTheirRegister

/-- R448, R606, R607, R6, R8: an I3C register read, whose OP is 0x01, keeps the register's value with status 0, and
the private read after it sends value and status; another OP, and an address that the table of registers over I3C does
not name, give 0x0907 and write nothing. R605: SETDASA and ENTDAA give the module its dynamic address, to which its
target then answers. R141, R165, R426: an armed injection is stored only at debug level DIAG or FULL; writing 1 to a
flag of LX.QSTATn clears that flag of the stream and no other; writing GO retrains a port and writing ENABLE 1 stores
it. R337: PN.SIZE takes a size of at most 160 MiB while the die's directory is empty, and PN.P_QUOTA a quota that
leaves the sum of quotas within PN.SIZE and covers what the partition holds; each is discarded with 0x060D otherwise.
-/
def Obligations.RegisterEffects : Prop :=
  Sys2Proof.Claims.I3cReadsARegister ∧ Sys2Proof.Claims.I3cAddressAssignment ∧ Sys2Proof.Claims.RegistersThatAct ∧ Sys2Proof.Claims.PannierRegisterWrites

/-- R29, R33, R34, R610, R32: a link that carries the time base starts an exchange with TBC as its first timestamp;
the host's time less TBC is the PTP offset; the output pulses while OUT_EN is 1 at a whole second of TBC, or of host
time where SRC is 1, and at no other time; an input edge loads TBC, and one within 500 ms of the last is ignored; a
failed path moves to the spare. R29, R30, R73, R585: an exchange with the parent puts its round trip into the last 64,
takes the parent's bound, and locks from the 64th on with a bound below 100 ns; what TBC lacks of the parent's time
with half the mean of the round trips is the offset steered in, and a locked TBC does not step (log 42); one from
another partner is answered. A bound above 1,000 ns suspends every enabled domain after its tick; a module without an
UP port takes its role after READY. -/
def Obligations.TimeBaseCommands : Prop :=
  Sys2Proof.Claims.TimeBaseInputs ∧ Sys2Proof.Claims.TimeExchanges

/-- R190, R195, R198: CMP writes the condition of its function code and PLOG the operation of its function code to pD;
a write to p0 is discarded; the next instruction follows and nothing else changes. R201: RDSR reads the special
registers: TBC, the domain's tick, the segment, the logical core number, the partition's cores, the die, the
partition, the module's own index, the slice, the rows of the batch. -/
def Obligations.PredicatesAndSpecialRegisters : Prop :=
  Sys2Proof.Claims.PredicateResults ∧ Sys2Proof.Claims.SpecialRegisters

/-- R198, R221, R223, R224, R225: NOP goes on; BR, CALL and RET set the program counter, CALL and RET push and pop the
return stack of 8; LOOP and LOOPW open a loop with pass number 0 in sD; LOOP with a count of zero passes its body
over; BREAK leaves the innermost loop. R221, R223: control that reaches the word after a loop's body, here past a NOP,
starts the next pass with its number in the loop's index register while passes are left or the loop's predicate holds;
otherwise the loop is left; a LOOPW whose passes reach four times its declared bound with the predicate still set is
the fault 0x0306. -/
def Obligations.ControlAndLoops : Prop :=
  Sys2Proof.Claims.ControlFlow ∧ Sys2Proof.Claims.LoopPasses

/-- R44, R154, R194, R198, R219, R220, R624: a word whose opcode is unassigned stops the segment with 0x0301 whatever
its guard (an assigned one is no word of this row), a wait that reaches its limit with 0x030C, TRAP with 0x0311 after
keeping its value for the event; LX.FAULT holds code, segment and tick. R162, R220: a station that waited on a stream
for the limit stops its core's segment with 0x0308; VX.FAULT or TX.FAULT keeps a stall of its own station too,
LX.FAULT is the core's, and MX.FAULT, which keeps codes 0x02xx only, stays. -/
def Obligations.SegmentFaultsAndStalls : Prop :=
  Sys2Proof.Claims.SegmentFaults ∧ Sys2Proof.Claims.StreamStall

/-- R41, R166, R216 to R218, R226 to R228, R420, R423: FENCE, CWAIT, SEGEND, STEPEND and BAR start their waits, which
end at once where nothing is outstanding; a last segment cannot end with SEGEND, a handle never issued and an unequal
barrier count are faults; a barrier that as many cores have reached as the first arrival fixed takes new arrivals;
WAITV polls its word until its condition holds. R218: a poll of WAITV on a local word that its checks let through ends
the wait where the condition of its function code holds between the word and sB, and goes on waiting otherwise. -/
def Obligations.CoreWaits : Prop :=
  Sys2Proof.Claims.Waits ∧ Sys2Proof.Claims.WaitPolls

/-- R209, R212: a DCMD names its register late and runs its station's command with sA and sB; a station that is not
there or a reserved bit is 0x0302. R268, R293, R297, R303: with its stations quiet, KV PAGE answers a page's address,
SV YIELD the tokens and end reason of a checked sequence, SV DRAFTSYNC the count of rows that are filled, and EX QUERY
the total of an expert and whether it was shipped; a page, row or expert that is not there answers its status. R147,
R148: CLAIM at a list that is used up, its HEAD at its LENGTH, writes all ones to sD and changes no memory; otherwise
it stores HEAD + 1, gives the old HEAD and makes the entry MX's item. R121, R210, R297: a bank whose loading ends is
complete; STOPCHK checks the sequences of the rows it names, in order. -/
def Obligations.DieCommandResults : Prop :=
  Sys2Proof.Claims.DieCommands ∧ Sys2Proof.Claims.DieResults ∧ Sys2Proof.Claims.ListClaims ∧ Sys2Proof.Claims.LoadAndStopChecks

/-- R229, R230, R493: AUDB opens a unit of the core with its number and the registers at its start, and a draw decides
whether it is sampled; AUDE closes it, counts it, and queues its replay on the die if it was sampled; with no unit
open it is 0x030E. R494 to R497: a replay starts on the first available site, and counts. The first digest that
matches ends the unit; one that differs counts a mismatch and needs a third run, which decides: the replaying site at
fault, 0x0B09, without effect on the vote; the original at fault, 0x0B02 in the vote and suspect; or, all three
different, both. Each decision takes a snapshot. -/
def Obligations.AuditsAndReplays : Prop :=
  Sys2Proof.Claims.AuditUnits ∧ Sys2Proof.Claims.ReplayRuns

/-- R251, R254, R255, R262, R407, R414: an exchange segment of a later tick or a later run, or of a domain that is not
running yet, is held; one of an earlier run of the tick is discarded and counted; one of an earlier tick or of a
suspended domain is discarded; one of the tick and run now is taken by its die. Its bytes count on the port it comes
in by (R65, R69). One that is for other modules goes on towards them, and where it is not for this one nothing else is
done with it. R239, R246, R247, R267, R270: a die that has counts of another module but not of all, for the limit,
raises 0x0404; one that waits for rows, weights or results for the limit raises 0x0405; each keeps the code with
segment and tick in EX.FAULT and stops the cores of the partition on the die. -/
def Obligations.Exchanges : Prop :=
  Sys2Proof.Claims.ExchangeStamps ∧ Sys2Proof.Claims.ExchangeTimeouts

/-- R343, R344: the end of a background copy of an entry's pages ends the entry's demotion on the die, marks its
promotion copied, and gives the ALLOCs their results that waited for these pages alone. R339, R340: an epoch's end
keeps at most one frame per 2 MiB slot and forgets the epoch's counts; a copy that ends serves its frame and is
counted; bytes of a hit that the device serves after all count as the port's, not as the cache's. R333, R351: a fill
that ends, of a range that reads without an error, makes its item VALID and counts its bytes; one whose range does not
read makes no item VALID and keeps the code in PN.CODE (log 105). The directory loses no item, and no other die's
changes. R320, R321, R322, R345, R350, R352: a device within the limits takes an enabled port into service with its
width, rate, capacity and poisoned units; a width or rate that the port has not is no training; another device is
refused with 0x060B; a port that trained below full width or rate reports 0x060C; a link that goes down trains again;
an access without a response is 0x0604: it stops its core's segment, or is the error of the segment that its die
station serves. -/
def Obligations.MemoryTiers : Prop :=
  Sys2Proof.Claims.PageCopies ∧ Sys2Proof.Claims.TierCache ∧ Sys2Proof.Claims.PannierFills ∧ Sys2Proof.Claims.CxlPorts

/-- R313: with every domain disabled a write that changes MEM.CTRL.ECC sets MEM.ILV_SIZE to all of close memory,
clears close memory to zero and leaves MEM.STATUS CLEARING until MEM_CLEAR_DONE; a write that leaves ECC as it is
changes nothing; no Pannier item whose source it clears stays VALID (R335). With a domain enabled it is discarded with
0x060D. R313: with every domain disabled a multiple of 4 GiB up to the size of close memory changes the interleaved
zone; what close memory then holds is unspecified, every other byte is as before. A write of the size it has changes
nothing, and any other is discarded with 0x060D. R314, R315, R316, R317, R349: with ECC on, a scrub of a unit with one
symbol in error corrects it, counts it and logs its address; one with two cannot: it poisons the 64-byte unit, counts
and logs it, and starts the frame's retirement into the lowest free spare; with more either happens, which is left
open (log 103); a clean unit changes nothing. The unit at address 0 starts a new period of counts. R317: the end of a
frame's copy maps it to its spare, counts it and reports 0x0605 with the frame's address. -/
def Obligations.MemoryGeometryAndRepair : Prop :=
  Sys2Proof.Claims.EccChangeClearsCloseMemory ∧ Sys2Proof.Claims.InterleaveChange ∧ Sys2Proof.Claims.MemoryScrub ∧ Sys2Proof.Claims.FrameRetirement

/-- R38, R39, R467: enabling a domain that is enabled does nothing; with settings outside their limits, an invalid
partition, a silent module or a change that touches it, it stays disabled with 0x0106; otherwise it starts at K0,
before any SETTINGS has come, with its counts at zero. Disabling one that is disabled does nothing; otherwise it is
idle, without its settings' lock. R38, R278: the lowest-index module of a slice records each member's SETTINGS while
its domain is idle or starting. A domain whose SETTINGS have all come and agree starts its first tick. -/
def Obligations.DomainEntry : Prop :=
  Sys2Proof.Claims.DomainEnable ∧ Sys2Proof.Claims.DomainStart

/-- R44, R45, R46: once every core has ended the segment or was killed in it, its units are replayed and its requests
answered, a module votes on it, with the first error's code or 0, and goes on to its next segment: to the master and
the deputy, and where it is one of them it takes its own vote too. A member that is neither sends its vote and its
WAIT to both. Before that it casts no vote. R41, R46, R48, R52 to R55: a member takes the master's results of the
running tick: PASS passes the next segment and forgets its errors; RETRACT with a later run restores from its segment
on; ABORT discards the tick and suspends the domain with 0x0108; COMMIT fixes the apply time. An acknowledgement of a
retraction is recorded and ends the sender's silence. Messages of another tick or from another module than the master
change nothing. -/
def Obligations.SegmentVotes : Prop :=
  Sys2Proof.Claims.MemberVotes ∧ Sys2Proof.Claims.MasterResults

/-- R45, R46, R47, R50, R55, R480: the master holds the votes of the running tick; while one is missing it only
records it. With all it resolves the next segment: PASS to every member where all are clean, COMMIT after the last
one, and otherwise RETRACT with the code of the lowest-index module whose code is not a pre-emption's, or ABORT when
the retractions of the tick are used up. A WAIT is recorded. R51, R52, R53: the master retracts a segment with 0x0104
for a member of which it has neither vote nor WAIT, once a first vote on the segment has come, and aborts where a
silent member's acknowledgement stays out; a deputy with every vote and no result becomes master, reports 0x010C, and
retracts for the former master. -/
def Obligations.MasterDecisions : Prop :=
  Sys2Proof.Claims.MasterResolves ∧ Sys2Proof.Claims.SilentModules

/-- R56, R57, R73, R344: COMMIT_APPLY without a scheduled commit does nothing; with one it applies the tick's work,
moves to the next tick and notes the tick and its time, unless a promotion's copy is under way, for which the apply
waits. R64, R278, R281, R304, R481: at an admission close of a domain whose batch is not yet built, the configuration
written since takes effect, the issue level is evaluated, the intake applied and the batch of the next tick built; the
end of a pre-emption's hold lets the domain run again. -/
def Obligations.CommitAndAdmission : Prop :=
  Sys2Proof.Claims.CommitApplies ∧ Sys2Proof.Claims.AdmissionAndHold

/-- R58, R447, R448: MEM_READ answers the committed bytes of a range of its partition and MEM_WRITE writes them there,
SERVING memory of an enabled domain excepted; REG_READ answers a register's value and REG_WRITE writes one. A
malformed body is 0x0901, an address outside the space 0x0601, a place that the checks refuse its code, a poisoned
unit 0x0603. R331, R332, R390, R452: the Pannier's commands load, pin, unpin, drop and list the items of a partition;
CHANNEL_OPEN opens a channel that is not open with its ring and destination, CHANNEL_CLOSE closes one of its own;
FABRIC_MAP installs a map while the module's own place stays, or all domains are disabled. -/
def Obligations.HostAccesses : Prop :=
  Sys2Proof.Claims.HostMemoryAndRegisters ∧ Sys2Proof.Claims.PannierChannelAndMapCommands

/-- R357, R366, R367, R373, R374: MODEL_ACTIVATE and MODEL_DROP go to the master; MODEL_QUERY answers the eight slots;
MODEL_REPAIR of a shard of a READY, ACTIVE or RETIRING version starts the repair on every module; MODEL_LOAD refuses a
manifest that is malformed (0x0701), not signed (0x0702), already in the slot table (0x0903), or without a slot
(0x0705). R358 to R363: a manifest is kept for the intake and its placement reported; a report reaches the master's
tally; a queued shard, the first of its version, with fewer than 16 in progress starts to be read and its storage
endpoint is asked; a try that fails at a reader is noticed to the other keepers and waits before the next; a retry
reads again; a module that waits in vain for the reader's copy queues the shard to read it itself; a reader with a
verified copy reads it from memory and sends it again. R359 to R363, R366: the bytes of a shard's try are written at
its destination for the partition of the load, no other byte of memory changes, and with the manifest's length and
SHA-384 digest the fetch is VERIFIED and reported. A module that is not the reader asks for a further copy up to three
times once it knows that the reader's passed, and then queues the shard to read the sources itself; the reader sends
the bytes on to the other keepers, and a wrong digest or a refused write fails its try. -/
def Obligations.ModelVersions : Prop :=
  Sys2Proof.Claims.ModelCommands ∧ Sys2Proof.Claims.ShardSupply ∧ Sys2Proof.Claims.ShardVerification

/-- R379, R380, R385: corrected symbols of a window are counted, and a lane above FAB.LANE_SER_LIMIT or without
codeword lock is retired: its logical lane moves to the lowest free spare, which LANE_CTL names to the partner, with a
REPAIR record and event 0x0805; with no spare the port runs its eight lowest healthy lanes. The partner follows a
LANE_CTL; a lane move that does not end, repeated NAKs, and silence outside a move take the port DOWN. R381 to R384,
R386, R426: on an UP port the next data flit in sequence that decodes, matches its CRC and has its TYPE is taken,
counted, acknowledged, and its credit returned in an IDLE flit; one out of sequence is discarded with its
acknowledgement. That, and a flit of any type whose codewords do not decode, whose CRC differs or whose TYPE is
another, asks once for retransmission with NAK. A NAK and an IDLE flit take their acknowledgement, and after a NAK
every flit beyond it is sent again. Flits fill the codewords of a pair: with the fifth the two go out over the lanes
in use, 544 symbols each, header and bytes first. -/
def Obligations.LinkLanesAndFlits : Prop :=
  Sys2Proof.Claims.LaneRetirement ∧ Sys2Proof.Claims.FlitExchange

/-- R378, R380, R392, R394 to R397: a DOWN port that is enabled and leads somewhere trains: PHY, which finds the
permutation of the lanes and their polarities, lane check, codeword lock, IDENT. The lane check takes as healthy a
lane found in PHY with no more corrected symbols than FAB.LANE_SER_LIMIT and keeps the sixteen or eight lowest, or the
port starts over; a stage that does not end starts over. Three identical records of the partner evaluate the port: UP,
MISWIRED with 0x0803, or VERSION_HOLD with 0x0804. R389, R390, R392, R398: a LINK_STATE of another module with a
higher number replaces its entry and is passed on; one with no higher number changes nothing; a change of the database
counts and reports new routes. The timer sends the module's own with the next number. -/
def Obligations.PortsAndLinkStates : Prop :=
  Sys2Proof.Claims.PortTraining ∧ Sys2Proof.Claims.LinkStates

/-- R430, R608: a failed lane that carries the port selects the spare lane where HP.CTRL admits it and it is free, and
the port retrains, 0x0909; else the port is DOWN, 0x090A. R584: a port that has trained is UP with 4 lanes, unless
HP.CTRL disables it. R431, R432, R573: a frame is lost while the port is not UP, counted, and dropped where MACsec is
required and does not protect it. ARP, neighbour solicitation and echo answer for the module's own address alone. An
agreement of MACsec needs the key of slot 63. R455, R458: NET is taken in order like DATA; the first packet of a
message needs room for the whole message in the partition's receive ring, and one that finds none is not taken; a
whole message is counted and its place in the ring is passed. -/
def Obligations.HostPort : Prop :=
  Sys2Proof.Claims.HostPortEvents ∧ Sys2Proof.Claims.HostPortFrames ∧ Sys2Proof.Claims.NetPackets

/-- R437, R460: an OPEN with a reserved field set is a bad frame; one whose prefix, partition or length is not
admitted, or that finds 1,024 sessions, is answered 0x090D and makes no session; any other makes one of the agreed
length. OPEN_OK establishes the net session that waits, or ends it. R438, R439, R454, R459: the timers of a session.
An acknowledgement that is due goes out; the oldest packet without one is sent again and counted; a keepalive goes
out; a session that times out is gone with 0x0909; without such a session nothing happens. EVENT_ACK frees the
acknowledged events of its channel, and a channel's oldest event is sent again under its number plus 0x10000. -/
def Obligations.SessionEnds : Prop :=
  Sys2Proof.Claims.SessionOpening ∧ Sys2Proof.Claims.SessionTimers

/-- R234, R235, R275, R276, R279, R280, R450: what the intake of tick k does with a command. SUBMIT makes the lowest
FREE entry or is refused by the first check it fails; CANCEL marks an entry that is not DONE; RESULT_ACK frees a DONE
one with its part of the area; PROGRAM_INSTALL and PROGRAM_REMOVE list and drop a program. R273, R279: an entry is
allocated lowest first, within the range of its partition and where none stands; its part of the area lies within the
area and overlaps no part in use. -/
def Obligations.ServingIntake : Prop :=
  Sys2Proof.Claims.IntakeApplications ∧ Sys2Proof.Claims.ServingAllocation

/-- R471 to R474: in every window, however long, each cycle is one grant or idle; no partition is granted more within
credit than its credit, nor more in all than it asked for; and no URGENT grant goes past the quota. R470, R474 to
R476: at the end of a window its grants are counted, and the next window takes the settings and credits of now, and
the turn of the round robin as it stands. A request whose deadline comes is URGENT from then on, and a refresh joins
the requests of its die's arbiter. R479, R482, R485: PART_QUERY answers the configuration, status and credit of a
partition that is in use, on a partition's session for itself only. PREEMPT acts on a BEST_EFFORT domain that runs and
has a segment left, stops its cores and casts the vote DIRTY with 0x0A04; else 0x0903. -/
def Obligations.ArbitersAndPartitions : Prop :=
  Sys2Proof.Claims.ArbiterGrants ∧ Sys2Proof.Claims.ArbiterWindows ∧ Sys2Proof.Claims.PartitionCommands

/-- R509: a die whose PLL in use loses lock goes on with the lowest one that is locked, 0x0B0A, or stops, 0x0B0B; on a
compute die every running core is killed with 0x0B03, a snapshot is taken and the clock event counts. R500, R506,
R512, R514: the integrity commands: a snapshot is read by its place and all are cleared; the sites and the slot map of
a die are listed; a site in service, on watch or spare is quarantined where a spare can take its slot; a spare is
scanned at once, or next. -/
def Obligations.ClocksAndIntegrityCommands : Prop :=
  Sys2Proof.Claims.LockLoss ∧ Sys2Proof.Claims.IntegrityCommands

/-- R534 to R536: the effective cap is the smallest cap that holds; when it is evaluated again, EMERGENCY holds
exactly while it lies below the floor, and a cap at or above the estimate ends CAP_TRACKING, while a fall below the
estimate starts it. R534, R538, R546, R547: a cap outside 1,200 W to 3,600 W and a heartbeat timeout outside 1 s to
600 s are discarded with 0x0C0E; any other cap is kept, or the floor in its place where the policy says so, and the
caps are evaluated again. Over I3C and by PWR_CAP it is a heartbeat too. A heartbeat clears SAFE_CAP, arms the monitor
if it is the first, and SAFE_CAP holds once an armed monitor times out. -/
def Obligations.PowerCapRules : Prop :=
  Sys2Proof.Claims.EffectiveCaps ∧ Sys2Proof.Claims.PowerCaps

/-- R153, R478, R492, R500, R511, R523, R526, R540, R543: a microsecond's estimate is the sum of the dies' times G /
4,096, and counts as energy. The ballast cycles of a site that issues ballast count, and a residue check that fails on
one is counted and recorded, sends 0x0B08 and quarantines the site without a DIRTY vote, at a commit where a partition
holds its slot. What the controller leaves as levels stays, for every free value, within each die's ceiling, and 1 for
a die at 105 degrees; while a die with GUARANTEED cores issues them below 16, every BEST_EFFORT core issues at level 1
at most. R524: 10 ms without a measured power count, and the third sets EST_FAULT with G at 1.25. A measured power is
kept with the voltage; G moves by at most 5 %, for every free rounding, and stays from 0.80 to 1.25; the ratio inside
starts the count of good periods, the third outside in a row sets EST_FAULT, and 10 good ones clear it. -/
def Obligations.EstimateAndCalibration : Prop :=
  Sys2Proof.Claims.EstimateAndLevels ∧ Sys2Proof.Claims.Calibration

/-- R313, R319, R349, R543, R551, R555, R581 to R585, R592, R604: a stage that ends with code 0 is followed by the
next, and stage 6 makes the module READY and ON; a code, or too long a stage, fails it: bring-up stops there, or a
TRIAL image is rolled back, and MEM.STATUS shows a failed training of GDDR7. The console tells a failed stage. A TRIAL
image that is not READY in time is rolled back, and one not committed in time is BAD. R581, R587, R589, R590, R592 to
R594: the commands of bring-up. An image is written into the slot that is neither CURRENT nor on trial, checked and
marked TRIAL, and made CURRENT while it runs; a reset command completes before its reset starts; the reset of a
partition follows the commit of its running tick; a core that serves no slot is reset at once. R589, R590: the reset
of a partition frees its request entries, its versions, Pannier items, queues and channels, and its cores start
afresh; the registers of a site's stations take their reset values and its core store reads zero. Every other
partition and core keeps its own. -/
def Obligations.BringUp : Prop :=
  Sys2Proof.Claims.BringUpStages ∧ Sys2Proof.Claims.BootCommands ∧ Sys2Proof.Claims.PartitionAndCoreResets
end

