-- ==== Sys2Proof/Laws/State.lean ====
section
/-! SUPPORT. What each update of the state leaves alone: one lemma for each update and field, true by computation. -/

namespace Sys2Proof.Machine

@[simp] theorem State.setRaw_pending (s : State) (k : RegKey) (v : Word) : (s.setRaw k v).pending = s.pending := rfl
@[simp] theorem State.setRaw_tx (s : State) (k : RegKey) (v : Word) : (s.setRaw k v).tx = s.tx := rfl
@[simp] theorem State.setRaw_mem (s : State) (k : RegKey) (v : Word) : (s.setRaw k v).mem = s.mem := rfl
@[simp] theorem State.setRaw_freeCtr (s : State) (k : RegKey) (v : Word) : (s.setRaw k v).freeCtr = s.freeCtr := rfl
@[simp] theorem State.setRaw_tb (s : State) (k : RegKey) (v : Word) : (s.setRaw k v).tb = s.tb := rfl
@[simp] theorem State.setRaw_doms (s : State) (k : RegKey) (v : Word) : (s.setRaw k v).doms = s.doms := rfl
@[simp] theorem State.setRaw_cores (s : State) (k : RegKey) (v : Word) : (s.setRaw k v).cores = s.cores := rfl
@[simp] theorem State.setRaw_ms (s : State) (k : RegKey) (v : Word) : (s.setRaw k v).ms = s.ms := rfl
@[simp] theorem State.setRaw_cxl (s : State) (k : RegKey) (v : Word) : (s.setRaw k v).cxl = s.cxl := rfl
@[simp] theorem State.setRaw_pn (s : State) (k : RegKey) (v : Word) : (s.setRaw k v).pn = s.pn := rfl
@[simp] theorem State.setRaw_claims (s : State) (k : RegKey) (v : Word) : (s.setRaw k v).claims = s.claims := rfl
@[simp] theorem State.setRaw_barriers (s : State) (k : RegKey) (v : Word) : (s.setRaw k v).barriers = s.barriers := rfl
@[simp] theorem State.setRaw_programs (s : State) (k : RegKey) (v : Word) : (s.setRaw k v).programs = s.programs := rfl
@[simp] theorem State.setRaw_ex (s : State) (k : RegKey) (v : Word) : (s.setRaw k v).ex = s.ex := rfl
@[simp] theorem State.setRaw_sv (s : State) (k : RegKey) (v : Word) : (s.setRaw k v).sv = s.sv := rfl
@[simp] theorem State.setRaw_kv (s : State) (k : RegKey) (v : Word) : (s.setRaw k v).kv = s.kv := rfl
@[simp] theorem State.setRaw_wt (s : State) (k : RegKey) (v : Word) : (s.setRaw k v).wt = s.wt := rfl
@[simp] theorem State.setRaw_loads (s : State) (k : RegKey) (v : Word) : (s.setRaw k v).loads = s.loads := rfl
@[simp] theorem State.setRaw_fab (s : State) (k : RegKey) (v : Word) : (s.setRaw k v).fab = s.fab := rfl
@[simp] theorem State.setRaw_hp (s : State) (k : RegKey) (v : Word) : (s.setRaw k v).hp = s.hp := rfl
@[simp] theorem State.setRaw_arb (s : State) (k : RegKey) (v : Word) : (s.setRaw k v).arb = s.arb := rfl
@[simp] theorem State.setRaw_integ (s : State) (k : RegKey) (v : Word) : (s.setRaw k v).integ = s.integ := rfl
@[simp] theorem State.setRaw_pw (s : State) (k : RegKey) (v : Word) : (s.setRaw k v).pw = s.pw := rfl
@[simp] theorem State.setRaw_trust (s : State) (k : RegKey) (v : Word) : (s.setRaw k v).trust = s.trust := rfl
@[simp] theorem State.setRaw_boot (s : State) (k : RegKey) (v : Word) : (s.setRaw k v).boot = s.boot := rfl

@[simp] theorem State.setReg_pending (s : State) (r : Reg) (i j : Nat) (v : Word) : (s.setReg r i j v).pending = s.pending := rfl
@[simp] theorem State.setReg_tx (s : State) (r : Reg) (i j : Nat) (v : Word) : (s.setReg r i j v).tx = s.tx := rfl
@[simp] theorem State.setReg_mem (s : State) (r : Reg) (i j : Nat) (v : Word) : (s.setReg r i j v).mem = s.mem := rfl
@[simp] theorem State.setReg_freeCtr (s : State) (r : Reg) (i j : Nat) (v : Word) : (s.setReg r i j v).freeCtr = s.freeCtr := rfl
@[simp] theorem State.setReg_tb (s : State) (r : Reg) (i j : Nat) (v : Word) : (s.setReg r i j v).tb = s.tb := rfl
@[simp] theorem State.setReg_doms (s : State) (r : Reg) (i j : Nat) (v : Word) : (s.setReg r i j v).doms = s.doms := rfl
@[simp] theorem State.setReg_cores (s : State) (r : Reg) (i j : Nat) (v : Word) : (s.setReg r i j v).cores = s.cores := rfl
@[simp] theorem State.setReg_ms (s : State) (r : Reg) (i j : Nat) (v : Word) : (s.setReg r i j v).ms = s.ms := rfl
@[simp] theorem State.setReg_cxl (s : State) (r : Reg) (i j : Nat) (v : Word) : (s.setReg r i j v).cxl = s.cxl := rfl
@[simp] theorem State.setReg_pn (s : State) (r : Reg) (i j : Nat) (v : Word) : (s.setReg r i j v).pn = s.pn := rfl
@[simp] theorem State.setReg_claims (s : State) (r : Reg) (i j : Nat) (v : Word) : (s.setReg r i j v).claims = s.claims := rfl
@[simp] theorem State.setReg_barriers (s : State) (r : Reg) (i j : Nat) (v : Word) : (s.setReg r i j v).barriers = s.barriers := rfl
@[simp] theorem State.setReg_programs (s : State) (r : Reg) (i j : Nat) (v : Word) : (s.setReg r i j v).programs = s.programs := rfl
@[simp] theorem State.setReg_ex (s : State) (r : Reg) (i j : Nat) (v : Word) : (s.setReg r i j v).ex = s.ex := rfl
@[simp] theorem State.setReg_sv (s : State) (r : Reg) (i j : Nat) (v : Word) : (s.setReg r i j v).sv = s.sv := rfl
@[simp] theorem State.setReg_kv (s : State) (r : Reg) (i j : Nat) (v : Word) : (s.setReg r i j v).kv = s.kv := rfl
@[simp] theorem State.setReg_wt (s : State) (r : Reg) (i j : Nat) (v : Word) : (s.setReg r i j v).wt = s.wt := rfl
@[simp] theorem State.setReg_loads (s : State) (r : Reg) (i j : Nat) (v : Word) : (s.setReg r i j v).loads = s.loads := rfl
@[simp] theorem State.setReg_fab (s : State) (r : Reg) (i j : Nat) (v : Word) : (s.setReg r i j v).fab = s.fab := rfl
@[simp] theorem State.setReg_hp (s : State) (r : Reg) (i j : Nat) (v : Word) : (s.setReg r i j v).hp = s.hp := rfl
@[simp] theorem State.setReg_arb (s : State) (r : Reg) (i j : Nat) (v : Word) : (s.setReg r i j v).arb = s.arb := rfl
@[simp] theorem State.setReg_integ (s : State) (r : Reg) (i j : Nat) (v : Word) : (s.setReg r i j v).integ = s.integ := rfl
@[simp] theorem State.setReg_pw (s : State) (r : Reg) (i j : Nat) (v : Word) : (s.setReg r i j v).pw = s.pw := rfl
@[simp] theorem State.setReg_trust (s : State) (r : Reg) (i j : Nat) (v : Word) : (s.setReg r i j v).trust = s.trust := rfl
@[simp] theorem State.setReg_boot (s : State) (r : Reg) (i j : Nat) (v : Word) : (s.setReg r i j v).boot = s.boot := rfl

@[simp] theorem State.bump_pending (s : State) (r : Reg) (i j n : Nat) : (s.bump r i j n).pending = s.pending := rfl
@[simp] theorem State.bump_tx (s : State) (r : Reg) (i j n : Nat) : (s.bump r i j n).tx = s.tx := rfl
@[simp] theorem State.bump_mem (s : State) (r : Reg) (i j n : Nat) : (s.bump r i j n).mem = s.mem := rfl
@[simp] theorem State.bump_freeCtr (s : State) (r : Reg) (i j n : Nat) : (s.bump r i j n).freeCtr = s.freeCtr := rfl
@[simp] theorem State.bump_tb (s : State) (r : Reg) (i j n : Nat) : (s.bump r i j n).tb = s.tb := rfl
@[simp] theorem State.bump_doms (s : State) (r : Reg) (i j n : Nat) : (s.bump r i j n).doms = s.doms := rfl
@[simp] theorem State.bump_cores (s : State) (r : Reg) (i j n : Nat) : (s.bump r i j n).cores = s.cores := rfl
@[simp] theorem State.bump_ms (s : State) (r : Reg) (i j n : Nat) : (s.bump r i j n).ms = s.ms := rfl
@[simp] theorem State.bump_cxl (s : State) (r : Reg) (i j n : Nat) : (s.bump r i j n).cxl = s.cxl := rfl
@[simp] theorem State.bump_pn (s : State) (r : Reg) (i j n : Nat) : (s.bump r i j n).pn = s.pn := rfl
@[simp] theorem State.bump_claims (s : State) (r : Reg) (i j n : Nat) : (s.bump r i j n).claims = s.claims := rfl
@[simp] theorem State.bump_barriers (s : State) (r : Reg) (i j n : Nat) : (s.bump r i j n).barriers = s.barriers := rfl
@[simp] theorem State.bump_programs (s : State) (r : Reg) (i j n : Nat) : (s.bump r i j n).programs = s.programs := rfl
@[simp] theorem State.bump_ex (s : State) (r : Reg) (i j n : Nat) : (s.bump r i j n).ex = s.ex := rfl
@[simp] theorem State.bump_sv (s : State) (r : Reg) (i j n : Nat) : (s.bump r i j n).sv = s.sv := rfl
@[simp] theorem State.bump_kv (s : State) (r : Reg) (i j n : Nat) : (s.bump r i j n).kv = s.kv := rfl
@[simp] theorem State.bump_wt (s : State) (r : Reg) (i j n : Nat) : (s.bump r i j n).wt = s.wt := rfl
@[simp] theorem State.bump_loads (s : State) (r : Reg) (i j n : Nat) : (s.bump r i j n).loads = s.loads := rfl
@[simp] theorem State.bump_fab (s : State) (r : Reg) (i j n : Nat) : (s.bump r i j n).fab = s.fab := rfl
@[simp] theorem State.bump_hp (s : State) (r : Reg) (i j n : Nat) : (s.bump r i j n).hp = s.hp := rfl
@[simp] theorem State.bump_arb (s : State) (r : Reg) (i j n : Nat) : (s.bump r i j n).arb = s.arb := rfl
@[simp] theorem State.bump_integ (s : State) (r : Reg) (i j n : Nat) : (s.bump r i j n).integ = s.integ := rfl
@[simp] theorem State.bump_pw (s : State) (r : Reg) (i j n : Nat) : (s.bump r i j n).pw = s.pw := rfl
@[simp] theorem State.bump_trust (s : State) (r : Reg) (i j n : Nat) : (s.bump r i j n).trust = s.trust := rfl
@[simp] theorem State.bump_boot (s : State) (r : Reg) (i j n : Nat) : (s.bump r i j n).boot = s.boot := rfl

@[simp] theorem State.store_pending (s : State) (a : Nat) (bs : List Byte) : (s.store a bs).pending = s.pending := rfl
@[simp] theorem State.store_tx (s : State) (a : Nat) (bs : List Byte) : (s.store a bs).tx = s.tx := rfl
@[simp] theorem State.store_regs (s : State) (a : Nat) (bs : List Byte) : (s.store a bs).regs = s.regs := rfl
@[simp] theorem State.store_freeCtr (s : State) (a : Nat) (bs : List Byte) : (s.store a bs).freeCtr = s.freeCtr := rfl
@[simp] theorem State.store_tb (s : State) (a : Nat) (bs : List Byte) : (s.store a bs).tb = s.tb := rfl
@[simp] theorem State.store_doms (s : State) (a : Nat) (bs : List Byte) : (s.store a bs).doms = s.doms := rfl
@[simp] theorem State.store_cores (s : State) (a : Nat) (bs : List Byte) : (s.store a bs).cores = s.cores := rfl
@[simp] theorem State.store_ms (s : State) (a : Nat) (bs : List Byte) : (s.store a bs).ms = s.ms := rfl
@[simp] theorem State.store_cxl (s : State) (a : Nat) (bs : List Byte) : (s.store a bs).cxl = s.cxl := rfl
@[simp] theorem State.store_pn (s : State) (a : Nat) (bs : List Byte) : (s.store a bs).pn = s.pn := rfl
@[simp] theorem State.store_claims (s : State) (a : Nat) (bs : List Byte) : (s.store a bs).claims = s.claims := rfl
@[simp] theorem State.store_barriers (s : State) (a : Nat) (bs : List Byte) : (s.store a bs).barriers = s.barriers := rfl
@[simp] theorem State.store_programs (s : State) (a : Nat) (bs : List Byte) : (s.store a bs).programs = s.programs := rfl
@[simp] theorem State.store_ex (s : State) (a : Nat) (bs : List Byte) : (s.store a bs).ex = s.ex := rfl
@[simp] theorem State.store_sv (s : State) (a : Nat) (bs : List Byte) : (s.store a bs).sv = s.sv := rfl
@[simp] theorem State.store_kv (s : State) (a : Nat) (bs : List Byte) : (s.store a bs).kv = s.kv := rfl
@[simp] theorem State.store_wt (s : State) (a : Nat) (bs : List Byte) : (s.store a bs).wt = s.wt := rfl
@[simp] theorem State.store_loads (s : State) (a : Nat) (bs : List Byte) : (s.store a bs).loads = s.loads := rfl
@[simp] theorem State.store_fab (s : State) (a : Nat) (bs : List Byte) : (s.store a bs).fab = s.fab := rfl
@[simp] theorem State.store_hp (s : State) (a : Nat) (bs : List Byte) : (s.store a bs).hp = s.hp := rfl
@[simp] theorem State.store_arb (s : State) (a : Nat) (bs : List Byte) : (s.store a bs).arb = s.arb := rfl
@[simp] theorem State.store_integ (s : State) (a : Nat) (bs : List Byte) : (s.store a bs).integ = s.integ := rfl
@[simp] theorem State.store_pw (s : State) (a : Nat) (bs : List Byte) : (s.store a bs).pw = s.pw := rfl
@[simp] theorem State.store_trust (s : State) (a : Nat) (bs : List Byte) : (s.store a bs).trust = s.trust := rfl
@[simp] theorem State.store_boot (s : State) (a : Nat) (bs : List Byte) : (s.store a bs).boot = s.boot := rfl

@[simp] theorem State.send_pending (s : State) (m : Msg) : (s.send m).pending = s.pending := rfl
@[simp] theorem State.send_regs (s : State) (m : Msg) : (s.send m).regs = s.regs := rfl
@[simp] theorem State.send_mem (s : State) (m : Msg) : (s.send m).mem = s.mem := rfl
@[simp] theorem State.send_freeCtr (s : State) (m : Msg) : (s.send m).freeCtr = s.freeCtr := rfl
@[simp] theorem State.send_tb (s : State) (m : Msg) : (s.send m).tb = s.tb := rfl
@[simp] theorem State.send_doms (s : State) (m : Msg) : (s.send m).doms = s.doms := rfl
@[simp] theorem State.send_cores (s : State) (m : Msg) : (s.send m).cores = s.cores := rfl
@[simp] theorem State.send_ms (s : State) (m : Msg) : (s.send m).ms = s.ms := rfl
@[simp] theorem State.send_cxl (s : State) (m : Msg) : (s.send m).cxl = s.cxl := rfl
@[simp] theorem State.send_pn (s : State) (m : Msg) : (s.send m).pn = s.pn := rfl
@[simp] theorem State.send_claims (s : State) (m : Msg) : (s.send m).claims = s.claims := rfl
@[simp] theorem State.send_barriers (s : State) (m : Msg) : (s.send m).barriers = s.barriers := rfl
@[simp] theorem State.send_programs (s : State) (m : Msg) : (s.send m).programs = s.programs := rfl
@[simp] theorem State.send_ex (s : State) (m : Msg) : (s.send m).ex = s.ex := rfl
@[simp] theorem State.send_sv (s : State) (m : Msg) : (s.send m).sv = s.sv := rfl
@[simp] theorem State.send_kv (s : State) (m : Msg) : (s.send m).kv = s.kv := rfl
@[simp] theorem State.send_wt (s : State) (m : Msg) : (s.send m).wt = s.wt := rfl
@[simp] theorem State.send_loads (s : State) (m : Msg) : (s.send m).loads = s.loads := rfl
@[simp] theorem State.send_fab (s : State) (m : Msg) : (s.send m).fab = s.fab := rfl
@[simp] theorem State.send_hp (s : State) (m : Msg) : (s.send m).hp = s.hp := rfl
@[simp] theorem State.send_arb (s : State) (m : Msg) : (s.send m).arb = s.arb := rfl
@[simp] theorem State.send_integ (s : State) (m : Msg) : (s.send m).integ = s.integ := rfl
@[simp] theorem State.send_pw (s : State) (m : Msg) : (s.send m).pw = s.pw := rfl
@[simp] theorem State.send_trust (s : State) (m : Msg) : (s.send m).trust = s.trust := rfl
@[simp] theorem State.send_boot (s : State) (m : Msg) : (s.send m).boot = s.boot := rfl

@[simp] theorem State.setDom_pending (s : State) (n : Part) (d : Domain) : (s.setDom n d).pending = s.pending := rfl
@[simp] theorem State.setDom_tx (s : State) (n : Part) (d : Domain) : (s.setDom n d).tx = s.tx := rfl
@[simp] theorem State.setDom_regs (s : State) (n : Part) (d : Domain) : (s.setDom n d).regs = s.regs := rfl
@[simp] theorem State.setDom_mem (s : State) (n : Part) (d : Domain) : (s.setDom n d).mem = s.mem := rfl
@[simp] theorem State.setDom_freeCtr (s : State) (n : Part) (d : Domain) : (s.setDom n d).freeCtr = s.freeCtr := rfl
@[simp] theorem State.setDom_tb (s : State) (n : Part) (d : Domain) : (s.setDom n d).tb = s.tb := rfl
@[simp] theorem State.setDom_cores (s : State) (n : Part) (d : Domain) : (s.setDom n d).cores = s.cores := rfl
@[simp] theorem State.setDom_ms (s : State) (n : Part) (d : Domain) : (s.setDom n d).ms = s.ms := rfl
@[simp] theorem State.setDom_cxl (s : State) (n : Part) (d : Domain) : (s.setDom n d).cxl = s.cxl := rfl
@[simp] theorem State.setDom_pn (s : State) (n : Part) (d : Domain) : (s.setDom n d).pn = s.pn := rfl
@[simp] theorem State.setDom_claims (s : State) (n : Part) (d : Domain) : (s.setDom n d).claims = s.claims := rfl
@[simp] theorem State.setDom_barriers (s : State) (n : Part) (d : Domain) : (s.setDom n d).barriers = s.barriers := rfl
@[simp] theorem State.setDom_programs (s : State) (n : Part) (d : Domain) : (s.setDom n d).programs = s.programs := rfl
@[simp] theorem State.setDom_ex (s : State) (n : Part) (d : Domain) : (s.setDom n d).ex = s.ex := rfl
@[simp] theorem State.setDom_sv (s : State) (n : Part) (d : Domain) : (s.setDom n d).sv = s.sv := rfl
@[simp] theorem State.setDom_kv (s : State) (n : Part) (d : Domain) : (s.setDom n d).kv = s.kv := rfl
@[simp] theorem State.setDom_wt (s : State) (n : Part) (d : Domain) : (s.setDom n d).wt = s.wt := rfl
@[simp] theorem State.setDom_loads (s : State) (n : Part) (d : Domain) : (s.setDom n d).loads = s.loads := rfl
@[simp] theorem State.setDom_fab (s : State) (n : Part) (d : Domain) : (s.setDom n d).fab = s.fab := rfl
@[simp] theorem State.setDom_hp (s : State) (n : Part) (d : Domain) : (s.setDom n d).hp = s.hp := rfl
@[simp] theorem State.setDom_arb (s : State) (n : Part) (d : Domain) : (s.setDom n d).arb = s.arb := rfl
@[simp] theorem State.setDom_integ (s : State) (n : Part) (d : Domain) : (s.setDom n d).integ = s.integ := rfl
@[simp] theorem State.setDom_pw (s : State) (n : Part) (d : Domain) : (s.setDom n d).pw = s.pw := rfl
@[simp] theorem State.setDom_trust (s : State) (n : Part) (d : Domain) : (s.setDom n d).trust = s.trust := rfl
@[simp] theorem State.setDom_boot (s : State) (n : Part) (d : Domain) : (s.setDom n d).boot = s.boot := rfl

@[simp] theorem State.updDom_pending (s : State) (n : Part) (f : Domain → Domain) : (s.updDom n f).pending = s.pending := rfl
@[simp] theorem State.updDom_tx (s : State) (n : Part) (f : Domain → Domain) : (s.updDom n f).tx = s.tx := rfl
@[simp] theorem State.updDom_regs (s : State) (n : Part) (f : Domain → Domain) : (s.updDom n f).regs = s.regs := rfl
@[simp] theorem State.updDom_mem (s : State) (n : Part) (f : Domain → Domain) : (s.updDom n f).mem = s.mem := rfl
@[simp] theorem State.updDom_freeCtr (s : State) (n : Part) (f : Domain → Domain) : (s.updDom n f).freeCtr = s.freeCtr := rfl
@[simp] theorem State.updDom_tb (s : State) (n : Part) (f : Domain → Domain) : (s.updDom n f).tb = s.tb := rfl
@[simp] theorem State.updDom_cores (s : State) (n : Part) (f : Domain → Domain) : (s.updDom n f).cores = s.cores := rfl
@[simp] theorem State.updDom_ms (s : State) (n : Part) (f : Domain → Domain) : (s.updDom n f).ms = s.ms := rfl
@[simp] theorem State.updDom_cxl (s : State) (n : Part) (f : Domain → Domain) : (s.updDom n f).cxl = s.cxl := rfl
@[simp] theorem State.updDom_pn (s : State) (n : Part) (f : Domain → Domain) : (s.updDom n f).pn = s.pn := rfl
@[simp] theorem State.updDom_claims (s : State) (n : Part) (f : Domain → Domain) : (s.updDom n f).claims = s.claims := rfl
@[simp] theorem State.updDom_barriers (s : State) (n : Part) (f : Domain → Domain) : (s.updDom n f).barriers = s.barriers := rfl
@[simp] theorem State.updDom_programs (s : State) (n : Part) (f : Domain → Domain) : (s.updDom n f).programs = s.programs := rfl
@[simp] theorem State.updDom_ex (s : State) (n : Part) (f : Domain → Domain) : (s.updDom n f).ex = s.ex := rfl
@[simp] theorem State.updDom_sv (s : State) (n : Part) (f : Domain → Domain) : (s.updDom n f).sv = s.sv := rfl
@[simp] theorem State.updDom_kv (s : State) (n : Part) (f : Domain → Domain) : (s.updDom n f).kv = s.kv := rfl
@[simp] theorem State.updDom_wt (s : State) (n : Part) (f : Domain → Domain) : (s.updDom n f).wt = s.wt := rfl
@[simp] theorem State.updDom_loads (s : State) (n : Part) (f : Domain → Domain) : (s.updDom n f).loads = s.loads := rfl
@[simp] theorem State.updDom_fab (s : State) (n : Part) (f : Domain → Domain) : (s.updDom n f).fab = s.fab := rfl
@[simp] theorem State.updDom_hp (s : State) (n : Part) (f : Domain → Domain) : (s.updDom n f).hp = s.hp := rfl
@[simp] theorem State.updDom_arb (s : State) (n : Part) (f : Domain → Domain) : (s.updDom n f).arb = s.arb := rfl
@[simp] theorem State.updDom_integ (s : State) (n : Part) (f : Domain → Domain) : (s.updDom n f).integ = s.integ := rfl
@[simp] theorem State.updDom_pw (s : State) (n : Part) (f : Domain → Domain) : (s.updDom n f).pw = s.pw := rfl
@[simp] theorem State.updDom_trust (s : State) (n : Part) (f : Domain → Domain) : (s.updDom n f).trust = s.trust := rfl
@[simp] theorem State.updDom_boot (s : State) (n : Part) (f : Domain → Domain) : (s.updDom n f).boot = s.boot := rfl

@[simp] theorem State.updTally_pending (s : State) (n : Part) (f : Tally → Tally) : (s.updTally n f).pending = s.pending := rfl
@[simp] theorem State.updTally_tx (s : State) (n : Part) (f : Tally → Tally) : (s.updTally n f).tx = s.tx := rfl
@[simp] theorem State.updTally_regs (s : State) (n : Part) (f : Tally → Tally) : (s.updTally n f).regs = s.regs := rfl
@[simp] theorem State.updTally_mem (s : State) (n : Part) (f : Tally → Tally) : (s.updTally n f).mem = s.mem := rfl
@[simp] theorem State.updTally_freeCtr (s : State) (n : Part) (f : Tally → Tally) : (s.updTally n f).freeCtr = s.freeCtr := rfl
@[simp] theorem State.updTally_tb (s : State) (n : Part) (f : Tally → Tally) : (s.updTally n f).tb = s.tb := rfl
@[simp] theorem State.updTally_cores (s : State) (n : Part) (f : Tally → Tally) : (s.updTally n f).cores = s.cores := rfl
@[simp] theorem State.updTally_ms (s : State) (n : Part) (f : Tally → Tally) : (s.updTally n f).ms = s.ms := rfl
@[simp] theorem State.updTally_cxl (s : State) (n : Part) (f : Tally → Tally) : (s.updTally n f).cxl = s.cxl := rfl
@[simp] theorem State.updTally_pn (s : State) (n : Part) (f : Tally → Tally) : (s.updTally n f).pn = s.pn := rfl
@[simp] theorem State.updTally_claims (s : State) (n : Part) (f : Tally → Tally) : (s.updTally n f).claims = s.claims := rfl
@[simp] theorem State.updTally_barriers (s : State) (n : Part) (f : Tally → Tally) : (s.updTally n f).barriers = s.barriers := rfl
@[simp] theorem State.updTally_programs (s : State) (n : Part) (f : Tally → Tally) : (s.updTally n f).programs = s.programs := rfl
@[simp] theorem State.updTally_ex (s : State) (n : Part) (f : Tally → Tally) : (s.updTally n f).ex = s.ex := rfl
@[simp] theorem State.updTally_sv (s : State) (n : Part) (f : Tally → Tally) : (s.updTally n f).sv = s.sv := rfl
@[simp] theorem State.updTally_kv (s : State) (n : Part) (f : Tally → Tally) : (s.updTally n f).kv = s.kv := rfl
@[simp] theorem State.updTally_wt (s : State) (n : Part) (f : Tally → Tally) : (s.updTally n f).wt = s.wt := rfl
@[simp] theorem State.updTally_loads (s : State) (n : Part) (f : Tally → Tally) : (s.updTally n f).loads = s.loads := rfl
@[simp] theorem State.updTally_fab (s : State) (n : Part) (f : Tally → Tally) : (s.updTally n f).fab = s.fab := rfl
@[simp] theorem State.updTally_hp (s : State) (n : Part) (f : Tally → Tally) : (s.updTally n f).hp = s.hp := rfl
@[simp] theorem State.updTally_arb (s : State) (n : Part) (f : Tally → Tally) : (s.updTally n f).arb = s.arb := rfl
@[simp] theorem State.updTally_integ (s : State) (n : Part) (f : Tally → Tally) : (s.updTally n f).integ = s.integ := rfl
@[simp] theorem State.updTally_pw (s : State) (n : Part) (f : Tally → Tally) : (s.updTally n f).pw = s.pw := rfl
@[simp] theorem State.updTally_trust (s : State) (n : Part) (f : Tally → Tally) : (s.updTally n f).trust = s.trust := rfl
@[simp] theorem State.updTally_boot (s : State) (n : Part) (f : Tally → Tally) : (s.updTally n f).boot = s.boot := rfl

@[simp] theorem State.setCore_pending (s : State) (c : CoreId) (x : Core) : (s.setCore c x).pending = s.pending := rfl
@[simp] theorem State.setCore_tx (s : State) (c : CoreId) (x : Core) : (s.setCore c x).tx = s.tx := rfl
@[simp] theorem State.setCore_regs (s : State) (c : CoreId) (x : Core) : (s.setCore c x).regs = s.regs := rfl
@[simp] theorem State.setCore_mem (s : State) (c : CoreId) (x : Core) : (s.setCore c x).mem = s.mem := rfl
@[simp] theorem State.setCore_freeCtr (s : State) (c : CoreId) (x : Core) : (s.setCore c x).freeCtr = s.freeCtr := rfl
@[simp] theorem State.setCore_tb (s : State) (c : CoreId) (x : Core) : (s.setCore c x).tb = s.tb := rfl
@[simp] theorem State.setCore_doms (s : State) (c : CoreId) (x : Core) : (s.setCore c x).doms = s.doms := rfl
@[simp] theorem State.setCore_ms (s : State) (c : CoreId) (x : Core) : (s.setCore c x).ms = s.ms := rfl
@[simp] theorem State.setCore_cxl (s : State) (c : CoreId) (x : Core) : (s.setCore c x).cxl = s.cxl := rfl
@[simp] theorem State.setCore_pn (s : State) (c : CoreId) (x : Core) : (s.setCore c x).pn = s.pn := rfl
@[simp] theorem State.setCore_claims (s : State) (c : CoreId) (x : Core) : (s.setCore c x).claims = s.claims := rfl
@[simp] theorem State.setCore_barriers (s : State) (c : CoreId) (x : Core) : (s.setCore c x).barriers = s.barriers := rfl
@[simp] theorem State.setCore_programs (s : State) (c : CoreId) (x : Core) : (s.setCore c x).programs = s.programs := rfl
@[simp] theorem State.setCore_ex (s : State) (c : CoreId) (x : Core) : (s.setCore c x).ex = s.ex := rfl
@[simp] theorem State.setCore_sv (s : State) (c : CoreId) (x : Core) : (s.setCore c x).sv = s.sv := rfl
@[simp] theorem State.setCore_kv (s : State) (c : CoreId) (x : Core) : (s.setCore c x).kv = s.kv := rfl
@[simp] theorem State.setCore_wt (s : State) (c : CoreId) (x : Core) : (s.setCore c x).wt = s.wt := rfl
@[simp] theorem State.setCore_loads (s : State) (c : CoreId) (x : Core) : (s.setCore c x).loads = s.loads := rfl
@[simp] theorem State.setCore_fab (s : State) (c : CoreId) (x : Core) : (s.setCore c x).fab = s.fab := rfl
@[simp] theorem State.setCore_hp (s : State) (c : CoreId) (x : Core) : (s.setCore c x).hp = s.hp := rfl
@[simp] theorem State.setCore_arb (s : State) (c : CoreId) (x : Core) : (s.setCore c x).arb = s.arb := rfl
@[simp] theorem State.setCore_integ (s : State) (c : CoreId) (x : Core) : (s.setCore c x).integ = s.integ := rfl
@[simp] theorem State.setCore_pw (s : State) (c : CoreId) (x : Core) : (s.setCore c x).pw = s.pw := rfl
@[simp] theorem State.setCore_trust (s : State) (c : CoreId) (x : Core) : (s.setCore c x).trust = s.trust := rfl
@[simp] theorem State.setCore_boot (s : State) (c : CoreId) (x : Core) : (s.setCore c x).boot = s.boot := rfl

@[simp] theorem State.updCore_pending (s : State) (c : CoreId) (f : Core → Core) : (s.updCore c f).pending = s.pending := rfl
@[simp] theorem State.updCore_tx (s : State) (c : CoreId) (f : Core → Core) : (s.updCore c f).tx = s.tx := rfl
@[simp] theorem State.updCore_regs (s : State) (c : CoreId) (f : Core → Core) : (s.updCore c f).regs = s.regs := rfl
@[simp] theorem State.updCore_mem (s : State) (c : CoreId) (f : Core → Core) : (s.updCore c f).mem = s.mem := rfl
@[simp] theorem State.updCore_freeCtr (s : State) (c : CoreId) (f : Core → Core) : (s.updCore c f).freeCtr = s.freeCtr := rfl
@[simp] theorem State.updCore_tb (s : State) (c : CoreId) (f : Core → Core) : (s.updCore c f).tb = s.tb := rfl
@[simp] theorem State.updCore_doms (s : State) (c : CoreId) (f : Core → Core) : (s.updCore c f).doms = s.doms := rfl
@[simp] theorem State.updCore_ms (s : State) (c : CoreId) (f : Core → Core) : (s.updCore c f).ms = s.ms := rfl
@[simp] theorem State.updCore_cxl (s : State) (c : CoreId) (f : Core → Core) : (s.updCore c f).cxl = s.cxl := rfl
@[simp] theorem State.updCore_pn (s : State) (c : CoreId) (f : Core → Core) : (s.updCore c f).pn = s.pn := rfl
@[simp] theorem State.updCore_claims (s : State) (c : CoreId) (f : Core → Core) : (s.updCore c f).claims = s.claims := rfl
@[simp] theorem State.updCore_barriers (s : State) (c : CoreId) (f : Core → Core) : (s.updCore c f).barriers = s.barriers := rfl
@[simp] theorem State.updCore_programs (s : State) (c : CoreId) (f : Core → Core) : (s.updCore c f).programs = s.programs := rfl
@[simp] theorem State.updCore_ex (s : State) (c : CoreId) (f : Core → Core) : (s.updCore c f).ex = s.ex := rfl
@[simp] theorem State.updCore_sv (s : State) (c : CoreId) (f : Core → Core) : (s.updCore c f).sv = s.sv := rfl
@[simp] theorem State.updCore_kv (s : State) (c : CoreId) (f : Core → Core) : (s.updCore c f).kv = s.kv := rfl
@[simp] theorem State.updCore_wt (s : State) (c : CoreId) (f : Core → Core) : (s.updCore c f).wt = s.wt := rfl
@[simp] theorem State.updCore_loads (s : State) (c : CoreId) (f : Core → Core) : (s.updCore c f).loads = s.loads := rfl
@[simp] theorem State.updCore_fab (s : State) (c : CoreId) (f : Core → Core) : (s.updCore c f).fab = s.fab := rfl
@[simp] theorem State.updCore_hp (s : State) (c : CoreId) (f : Core → Core) : (s.updCore c f).hp = s.hp := rfl
@[simp] theorem State.updCore_arb (s : State) (c : CoreId) (f : Core → Core) : (s.updCore c f).arb = s.arb := rfl
@[simp] theorem State.updCore_integ (s : State) (c : CoreId) (f : Core → Core) : (s.updCore c f).integ = s.integ := rfl
@[simp] theorem State.updCore_pw (s : State) (c : CoreId) (f : Core → Core) : (s.updCore c f).pw = s.pw := rfl
@[simp] theorem State.updCore_trust (s : State) (c : CoreId) (f : Core → Core) : (s.updCore c f).trust = s.trust := rfl
@[simp] theorem State.updCore_boot (s : State) (c : CoreId) (f : Core → Core) : (s.updCore c f).boot = s.boot := rfl

@[simp] theorem State.updMx_pending (s : State) (c : CoreId) (f : Mx → Mx) : (s.updMx c f).pending = s.pending := rfl
@[simp] theorem State.updMx_tx (s : State) (c : CoreId) (f : Mx → Mx) : (s.updMx c f).tx = s.tx := rfl
@[simp] theorem State.updMx_regs (s : State) (c : CoreId) (f : Mx → Mx) : (s.updMx c f).regs = s.regs := rfl
@[simp] theorem State.updMx_mem (s : State) (c : CoreId) (f : Mx → Mx) : (s.updMx c f).mem = s.mem := rfl
@[simp] theorem State.updMx_freeCtr (s : State) (c : CoreId) (f : Mx → Mx) : (s.updMx c f).freeCtr = s.freeCtr := rfl
@[simp] theorem State.updMx_tb (s : State) (c : CoreId) (f : Mx → Mx) : (s.updMx c f).tb = s.tb := rfl
@[simp] theorem State.updMx_doms (s : State) (c : CoreId) (f : Mx → Mx) : (s.updMx c f).doms = s.doms := rfl
@[simp] theorem State.updMx_ms (s : State) (c : CoreId) (f : Mx → Mx) : (s.updMx c f).ms = s.ms := rfl
@[simp] theorem State.updMx_cxl (s : State) (c : CoreId) (f : Mx → Mx) : (s.updMx c f).cxl = s.cxl := rfl
@[simp] theorem State.updMx_pn (s : State) (c : CoreId) (f : Mx → Mx) : (s.updMx c f).pn = s.pn := rfl
@[simp] theorem State.updMx_claims (s : State) (c : CoreId) (f : Mx → Mx) : (s.updMx c f).claims = s.claims := rfl
@[simp] theorem State.updMx_barriers (s : State) (c : CoreId) (f : Mx → Mx) : (s.updMx c f).barriers = s.barriers := rfl
@[simp] theorem State.updMx_programs (s : State) (c : CoreId) (f : Mx → Mx) : (s.updMx c f).programs = s.programs := rfl
@[simp] theorem State.updMx_ex (s : State) (c : CoreId) (f : Mx → Mx) : (s.updMx c f).ex = s.ex := rfl
@[simp] theorem State.updMx_sv (s : State) (c : CoreId) (f : Mx → Mx) : (s.updMx c f).sv = s.sv := rfl
@[simp] theorem State.updMx_kv (s : State) (c : CoreId) (f : Mx → Mx) : (s.updMx c f).kv = s.kv := rfl
@[simp] theorem State.updMx_wt (s : State) (c : CoreId) (f : Mx → Mx) : (s.updMx c f).wt = s.wt := rfl
@[simp] theorem State.updMx_loads (s : State) (c : CoreId) (f : Mx → Mx) : (s.updMx c f).loads = s.loads := rfl
@[simp] theorem State.updMx_fab (s : State) (c : CoreId) (f : Mx → Mx) : (s.updMx c f).fab = s.fab := rfl
@[simp] theorem State.updMx_hp (s : State) (c : CoreId) (f : Mx → Mx) : (s.updMx c f).hp = s.hp := rfl
@[simp] theorem State.updMx_arb (s : State) (c : CoreId) (f : Mx → Mx) : (s.updMx c f).arb = s.arb := rfl
@[simp] theorem State.updMx_integ (s : State) (c : CoreId) (f : Mx → Mx) : (s.updMx c f).integ = s.integ := rfl
@[simp] theorem State.updMx_pw (s : State) (c : CoreId) (f : Mx → Mx) : (s.updMx c f).pw = s.pw := rfl
@[simp] theorem State.updMx_trust (s : State) (c : CoreId) (f : Mx → Mx) : (s.updMx c f).trust = s.trust := rfl
@[simp] theorem State.updMx_boot (s : State) (c : CoreId) (f : Mx → Mx) : (s.updMx c f).boot = s.boot := rfl

@[simp] theorem State.setSite_pending (s : State) (i : SiteId) (x : Site) : (s.setSite i x).pending = s.pending := rfl
@[simp] theorem State.setSite_tx (s : State) (i : SiteId) (x : Site) : (s.setSite i x).tx = s.tx := rfl
@[simp] theorem State.setSite_regs (s : State) (i : SiteId) (x : Site) : (s.setSite i x).regs = s.regs := rfl
@[simp] theorem State.setSite_mem (s : State) (i : SiteId) (x : Site) : (s.setSite i x).mem = s.mem := rfl
@[simp] theorem State.setSite_freeCtr (s : State) (i : SiteId) (x : Site) : (s.setSite i x).freeCtr = s.freeCtr := rfl
@[simp] theorem State.setSite_tb (s : State) (i : SiteId) (x : Site) : (s.setSite i x).tb = s.tb := rfl
@[simp] theorem State.setSite_doms (s : State) (i : SiteId) (x : Site) : (s.setSite i x).doms = s.doms := rfl
@[simp] theorem State.setSite_cores (s : State) (i : SiteId) (x : Site) : (s.setSite i x).cores = s.cores := rfl
@[simp] theorem State.setSite_ms (s : State) (i : SiteId) (x : Site) : (s.setSite i x).ms = s.ms := rfl
@[simp] theorem State.setSite_cxl (s : State) (i : SiteId) (x : Site) : (s.setSite i x).cxl = s.cxl := rfl
@[simp] theorem State.setSite_pn (s : State) (i : SiteId) (x : Site) : (s.setSite i x).pn = s.pn := rfl
@[simp] theorem State.setSite_claims (s : State) (i : SiteId) (x : Site) : (s.setSite i x).claims = s.claims := rfl
@[simp] theorem State.setSite_barriers (s : State) (i : SiteId) (x : Site) : (s.setSite i x).barriers = s.barriers := rfl
@[simp] theorem State.setSite_programs (s : State) (i : SiteId) (x : Site) : (s.setSite i x).programs = s.programs := rfl
@[simp] theorem State.setSite_ex (s : State) (i : SiteId) (x : Site) : (s.setSite i x).ex = s.ex := rfl
@[simp] theorem State.setSite_sv (s : State) (i : SiteId) (x : Site) : (s.setSite i x).sv = s.sv := rfl
@[simp] theorem State.setSite_kv (s : State) (i : SiteId) (x : Site) : (s.setSite i x).kv = s.kv := rfl
@[simp] theorem State.setSite_wt (s : State) (i : SiteId) (x : Site) : (s.setSite i x).wt = s.wt := rfl
@[simp] theorem State.setSite_loads (s : State) (i : SiteId) (x : Site) : (s.setSite i x).loads = s.loads := rfl
@[simp] theorem State.setSite_fab (s : State) (i : SiteId) (x : Site) : (s.setSite i x).fab = s.fab := rfl
@[simp] theorem State.setSite_hp (s : State) (i : SiteId) (x : Site) : (s.setSite i x).hp = s.hp := rfl
@[simp] theorem State.setSite_arb (s : State) (i : SiteId) (x : Site) : (s.setSite i x).arb = s.arb := rfl
@[simp] theorem State.setSite_pw (s : State) (i : SiteId) (x : Site) : (s.setSite i x).pw = s.pw := rfl
@[simp] theorem State.setSite_trust (s : State) (i : SiteId) (x : Site) : (s.setSite i x).trust = s.trust := rfl
@[simp] theorem State.setSite_boot (s : State) (i : SiteId) (x : Site) : (s.setSite i x).boot = s.boot := rfl

@[simp] theorem State.setReplays_pending (s : State) (d : Fin 8) (l : List Replay) : (s.setReplays d l).pending = s.pending := rfl
@[simp] theorem State.setReplays_tx (s : State) (d : Fin 8) (l : List Replay) : (s.setReplays d l).tx = s.tx := rfl
@[simp] theorem State.setReplays_regs (s : State) (d : Fin 8) (l : List Replay) : (s.setReplays d l).regs = s.regs := rfl
@[simp] theorem State.setReplays_mem (s : State) (d : Fin 8) (l : List Replay) : (s.setReplays d l).mem = s.mem := rfl
@[simp] theorem State.setReplays_freeCtr (s : State) (d : Fin 8) (l : List Replay) : (s.setReplays d l).freeCtr = s.freeCtr := rfl
@[simp] theorem State.setReplays_tb (s : State) (d : Fin 8) (l : List Replay) : (s.setReplays d l).tb = s.tb := rfl
@[simp] theorem State.setReplays_doms (s : State) (d : Fin 8) (l : List Replay) : (s.setReplays d l).doms = s.doms := rfl
@[simp] theorem State.setReplays_cores (s : State) (d : Fin 8) (l : List Replay) : (s.setReplays d l).cores = s.cores := rfl
@[simp] theorem State.setReplays_ms (s : State) (d : Fin 8) (l : List Replay) : (s.setReplays d l).ms = s.ms := rfl
@[simp] theorem State.setReplays_cxl (s : State) (d : Fin 8) (l : List Replay) : (s.setReplays d l).cxl = s.cxl := rfl
@[simp] theorem State.setReplays_pn (s : State) (d : Fin 8) (l : List Replay) : (s.setReplays d l).pn = s.pn := rfl
@[simp] theorem State.setReplays_claims (s : State) (d : Fin 8) (l : List Replay) : (s.setReplays d l).claims = s.claims := rfl
@[simp] theorem State.setReplays_barriers (s : State) (d : Fin 8) (l : List Replay) : (s.setReplays d l).barriers = s.barriers := rfl
@[simp] theorem State.setReplays_programs (s : State) (d : Fin 8) (l : List Replay) : (s.setReplays d l).programs = s.programs := rfl
@[simp] theorem State.setReplays_ex (s : State) (d : Fin 8) (l : List Replay) : (s.setReplays d l).ex = s.ex := rfl
@[simp] theorem State.setReplays_sv (s : State) (d : Fin 8) (l : List Replay) : (s.setReplays d l).sv = s.sv := rfl
@[simp] theorem State.setReplays_kv (s : State) (d : Fin 8) (l : List Replay) : (s.setReplays d l).kv = s.kv := rfl
@[simp] theorem State.setReplays_wt (s : State) (d : Fin 8) (l : List Replay) : (s.setReplays d l).wt = s.wt := rfl
@[simp] theorem State.setReplays_loads (s : State) (d : Fin 8) (l : List Replay) : (s.setReplays d l).loads = s.loads := rfl
@[simp] theorem State.setReplays_fab (s : State) (d : Fin 8) (l : List Replay) : (s.setReplays d l).fab = s.fab := rfl
@[simp] theorem State.setReplays_hp (s : State) (d : Fin 8) (l : List Replay) : (s.setReplays d l).hp = s.hp := rfl
@[simp] theorem State.setReplays_arb (s : State) (d : Fin 8) (l : List Replay) : (s.setReplays d l).arb = s.arb := rfl
@[simp] theorem State.setReplays_pw (s : State) (d : Fin 8) (l : List Replay) : (s.setReplays d l).pw = s.pw := rfl
@[simp] theorem State.setReplays_trust (s : State) (d : Fin 8) (l : List Replay) : (s.setReplays d l).trust = s.trust := rfl
@[simp] theorem State.setReplays_boot (s : State) (d : Fin 8) (l : List Replay) : (s.setReplays d l).boot = s.boot := rfl

@[simp] theorem State.setPn_pending (s : State) (d : Fin 8) (l : List PnItem) : (s.setPn d l).pending = s.pending := rfl
@[simp] theorem State.setPn_tx (s : State) (d : Fin 8) (l : List PnItem) : (s.setPn d l).tx = s.tx := rfl
@[simp] theorem State.setPn_regs (s : State) (d : Fin 8) (l : List PnItem) : (s.setPn d l).regs = s.regs := rfl
@[simp] theorem State.setPn_mem (s : State) (d : Fin 8) (l : List PnItem) : (s.setPn d l).mem = s.mem := rfl
@[simp] theorem State.setPn_freeCtr (s : State) (d : Fin 8) (l : List PnItem) : (s.setPn d l).freeCtr = s.freeCtr := rfl
@[simp] theorem State.setPn_tb (s : State) (d : Fin 8) (l : List PnItem) : (s.setPn d l).tb = s.tb := rfl
@[simp] theorem State.setPn_doms (s : State) (d : Fin 8) (l : List PnItem) : (s.setPn d l).doms = s.doms := rfl
@[simp] theorem State.setPn_cores (s : State) (d : Fin 8) (l : List PnItem) : (s.setPn d l).cores = s.cores := rfl
@[simp] theorem State.setPn_ms (s : State) (d : Fin 8) (l : List PnItem) : (s.setPn d l).ms = s.ms := rfl
@[simp] theorem State.setPn_cxl (s : State) (d : Fin 8) (l : List PnItem) : (s.setPn d l).cxl = s.cxl := rfl
@[simp] theorem State.setPn_claims (s : State) (d : Fin 8) (l : List PnItem) : (s.setPn d l).claims = s.claims := rfl
@[simp] theorem State.setPn_barriers (s : State) (d : Fin 8) (l : List PnItem) : (s.setPn d l).barriers = s.barriers := rfl
@[simp] theorem State.setPn_programs (s : State) (d : Fin 8) (l : List PnItem) : (s.setPn d l).programs = s.programs := rfl
@[simp] theorem State.setPn_ex (s : State) (d : Fin 8) (l : List PnItem) : (s.setPn d l).ex = s.ex := rfl
@[simp] theorem State.setPn_sv (s : State) (d : Fin 8) (l : List PnItem) : (s.setPn d l).sv = s.sv := rfl
@[simp] theorem State.setPn_kv (s : State) (d : Fin 8) (l : List PnItem) : (s.setPn d l).kv = s.kv := rfl
@[simp] theorem State.setPn_wt (s : State) (d : Fin 8) (l : List PnItem) : (s.setPn d l).wt = s.wt := rfl
@[simp] theorem State.setPn_loads (s : State) (d : Fin 8) (l : List PnItem) : (s.setPn d l).loads = s.loads := rfl
@[simp] theorem State.setPn_fab (s : State) (d : Fin 8) (l : List PnItem) : (s.setPn d l).fab = s.fab := rfl
@[simp] theorem State.setPn_hp (s : State) (d : Fin 8) (l : List PnItem) : (s.setPn d l).hp = s.hp := rfl
@[simp] theorem State.setPn_arb (s : State) (d : Fin 8) (l : List PnItem) : (s.setPn d l).arb = s.arb := rfl
@[simp] theorem State.setPn_integ (s : State) (d : Fin 8) (l : List PnItem) : (s.setPn d l).integ = s.integ := rfl
@[simp] theorem State.setPn_pw (s : State) (d : Fin 8) (l : List PnItem) : (s.setPn d l).pw = s.pw := rfl
@[simp] theorem State.setPn_trust (s : State) (d : Fin 8) (l : List PnItem) : (s.setPn d l).trust = s.trust := rfl
@[simp] theorem State.setPn_boot (s : State) (d : Fin 8) (l : List PnItem) : (s.setPn d l).boot = s.boot := rfl

@[simp] theorem State.setSvPart_pending (s : State) (n : Part) (x : SvPart) : (s.setSvPart n x).pending = s.pending := rfl
@[simp] theorem State.setSvPart_tx (s : State) (n : Part) (x : SvPart) : (s.setSvPart n x).tx = s.tx := rfl
@[simp] theorem State.setSvPart_regs (s : State) (n : Part) (x : SvPart) : (s.setSvPart n x).regs = s.regs := rfl
@[simp] theorem State.setSvPart_mem (s : State) (n : Part) (x : SvPart) : (s.setSvPart n x).mem = s.mem := rfl
@[simp] theorem State.setSvPart_freeCtr (s : State) (n : Part) (x : SvPart) : (s.setSvPart n x).freeCtr = s.freeCtr := rfl
@[simp] theorem State.setSvPart_tb (s : State) (n : Part) (x : SvPart) : (s.setSvPart n x).tb = s.tb := rfl
@[simp] theorem State.setSvPart_doms (s : State) (n : Part) (x : SvPart) : (s.setSvPart n x).doms = s.doms := rfl
@[simp] theorem State.setSvPart_cores (s : State) (n : Part) (x : SvPart) : (s.setSvPart n x).cores = s.cores := rfl
@[simp] theorem State.setSvPart_ms (s : State) (n : Part) (x : SvPart) : (s.setSvPart n x).ms = s.ms := rfl
@[simp] theorem State.setSvPart_cxl (s : State) (n : Part) (x : SvPart) : (s.setSvPart n x).cxl = s.cxl := rfl
@[simp] theorem State.setSvPart_pn (s : State) (n : Part) (x : SvPart) : (s.setSvPart n x).pn = s.pn := rfl
@[simp] theorem State.setSvPart_claims (s : State) (n : Part) (x : SvPart) : (s.setSvPart n x).claims = s.claims := rfl
@[simp] theorem State.setSvPart_barriers (s : State) (n : Part) (x : SvPart) : (s.setSvPart n x).barriers = s.barriers := rfl
@[simp] theorem State.setSvPart_programs (s : State) (n : Part) (x : SvPart) : (s.setSvPart n x).programs = s.programs := rfl
@[simp] theorem State.setSvPart_ex (s : State) (n : Part) (x : SvPart) : (s.setSvPart n x).ex = s.ex := rfl
@[simp] theorem State.setSvPart_kv (s : State) (n : Part) (x : SvPart) : (s.setSvPart n x).kv = s.kv := rfl
@[simp] theorem State.setSvPart_wt (s : State) (n : Part) (x : SvPart) : (s.setSvPart n x).wt = s.wt := rfl
@[simp] theorem State.setSvPart_loads (s : State) (n : Part) (x : SvPart) : (s.setSvPart n x).loads = s.loads := rfl
@[simp] theorem State.setSvPart_fab (s : State) (n : Part) (x : SvPart) : (s.setSvPart n x).fab = s.fab := rfl
@[simp] theorem State.setSvPart_hp (s : State) (n : Part) (x : SvPart) : (s.setSvPart n x).hp = s.hp := rfl
@[simp] theorem State.setSvPart_arb (s : State) (n : Part) (x : SvPart) : (s.setSvPart n x).arb = s.arb := rfl
@[simp] theorem State.setSvPart_integ (s : State) (n : Part) (x : SvPart) : (s.setSvPart n x).integ = s.integ := rfl
@[simp] theorem State.setSvPart_pw (s : State) (n : Part) (x : SvPart) : (s.setSvPart n x).pw = s.pw := rfl
@[simp] theorem State.setSvPart_trust (s : State) (n : Part) (x : SvPart) : (s.setSvPart n x).trust = s.trust := rfl
@[simp] theorem State.setSvPart_boot (s : State) (n : Part) (x : SvPart) : (s.setSvPart n x).boot = s.boot := rfl

@[simp] theorem State.setEntry_pending (s : State) (e : Nat) (x : Entry) : (s.setEntry e x).pending = s.pending := rfl
@[simp] theorem State.setEntry_tx (s : State) (e : Nat) (x : Entry) : (s.setEntry e x).tx = s.tx := rfl
@[simp] theorem State.setEntry_regs (s : State) (e : Nat) (x : Entry) : (s.setEntry e x).regs = s.regs := rfl
@[simp] theorem State.setEntry_mem (s : State) (e : Nat) (x : Entry) : (s.setEntry e x).mem = s.mem := rfl
@[simp] theorem State.setEntry_freeCtr (s : State) (e : Nat) (x : Entry) : (s.setEntry e x).freeCtr = s.freeCtr := rfl
@[simp] theorem State.setEntry_tb (s : State) (e : Nat) (x : Entry) : (s.setEntry e x).tb = s.tb := rfl
@[simp] theorem State.setEntry_doms (s : State) (e : Nat) (x : Entry) : (s.setEntry e x).doms = s.doms := rfl
@[simp] theorem State.setEntry_cores (s : State) (e : Nat) (x : Entry) : (s.setEntry e x).cores = s.cores := rfl
@[simp] theorem State.setEntry_ms (s : State) (e : Nat) (x : Entry) : (s.setEntry e x).ms = s.ms := rfl
@[simp] theorem State.setEntry_cxl (s : State) (e : Nat) (x : Entry) : (s.setEntry e x).cxl = s.cxl := rfl
@[simp] theorem State.setEntry_pn (s : State) (e : Nat) (x : Entry) : (s.setEntry e x).pn = s.pn := rfl
@[simp] theorem State.setEntry_claims (s : State) (e : Nat) (x : Entry) : (s.setEntry e x).claims = s.claims := rfl
@[simp] theorem State.setEntry_barriers (s : State) (e : Nat) (x : Entry) : (s.setEntry e x).barriers = s.barriers := rfl
@[simp] theorem State.setEntry_programs (s : State) (e : Nat) (x : Entry) : (s.setEntry e x).programs = s.programs := rfl
@[simp] theorem State.setEntry_ex (s : State) (e : Nat) (x : Entry) : (s.setEntry e x).ex = s.ex := rfl
@[simp] theorem State.setEntry_kv (s : State) (e : Nat) (x : Entry) : (s.setEntry e x).kv = s.kv := rfl
@[simp] theorem State.setEntry_wt (s : State) (e : Nat) (x : Entry) : (s.setEntry e x).wt = s.wt := rfl
@[simp] theorem State.setEntry_loads (s : State) (e : Nat) (x : Entry) : (s.setEntry e x).loads = s.loads := rfl
@[simp] theorem State.setEntry_fab (s : State) (e : Nat) (x : Entry) : (s.setEntry e x).fab = s.fab := rfl
@[simp] theorem State.setEntry_hp (s : State) (e : Nat) (x : Entry) : (s.setEntry e x).hp = s.hp := rfl
@[simp] theorem State.setEntry_arb (s : State) (e : Nat) (x : Entry) : (s.setEntry e x).arb = s.arb := rfl
@[simp] theorem State.setEntry_integ (s : State) (e : Nat) (x : Entry) : (s.setEntry e x).integ = s.integ := rfl
@[simp] theorem State.setEntry_pw (s : State) (e : Nat) (x : Entry) : (s.setEntry e x).pw = s.pw := rfl
@[simp] theorem State.setEntry_trust (s : State) (e : Nat) (x : Entry) : (s.setEntry e x).trust = s.trust := rfl
@[simp] theorem State.setEntry_boot (s : State) (e : Nat) (x : Entry) : (s.setEntry e x).boot = s.boot := rfl

@[simp] theorem State.setPool_pending (s : State) (d : Fin 8) (n : Part) (p : KvPool) : (s.setPool d n p).pending = s.pending := rfl
@[simp] theorem State.setPool_tx (s : State) (d : Fin 8) (n : Part) (p : KvPool) : (s.setPool d n p).tx = s.tx := rfl
@[simp] theorem State.setPool_regs (s : State) (d : Fin 8) (n : Part) (p : KvPool) : (s.setPool d n p).regs = s.regs := rfl
@[simp] theorem State.setPool_mem (s : State) (d : Fin 8) (n : Part) (p : KvPool) : (s.setPool d n p).mem = s.mem := rfl
@[simp] theorem State.setPool_freeCtr (s : State) (d : Fin 8) (n : Part) (p : KvPool) : (s.setPool d n p).freeCtr = s.freeCtr := rfl
@[simp] theorem State.setPool_tb (s : State) (d : Fin 8) (n : Part) (p : KvPool) : (s.setPool d n p).tb = s.tb := rfl
@[simp] theorem State.setPool_doms (s : State) (d : Fin 8) (n : Part) (p : KvPool) : (s.setPool d n p).doms = s.doms := rfl
@[simp] theorem State.setPool_cores (s : State) (d : Fin 8) (n : Part) (p : KvPool) : (s.setPool d n p).cores = s.cores := rfl
@[simp] theorem State.setPool_ms (s : State) (d : Fin 8) (n : Part) (p : KvPool) : (s.setPool d n p).ms = s.ms := rfl
@[simp] theorem State.setPool_cxl (s : State) (d : Fin 8) (n : Part) (p : KvPool) : (s.setPool d n p).cxl = s.cxl := rfl
@[simp] theorem State.setPool_pn (s : State) (d : Fin 8) (n : Part) (p : KvPool) : (s.setPool d n p).pn = s.pn := rfl
@[simp] theorem State.setPool_claims (s : State) (d : Fin 8) (n : Part) (p : KvPool) : (s.setPool d n p).claims = s.claims := rfl
@[simp] theorem State.setPool_barriers (s : State) (d : Fin 8) (n : Part) (p : KvPool) : (s.setPool d n p).barriers = s.barriers := rfl
@[simp] theorem State.setPool_programs (s : State) (d : Fin 8) (n : Part) (p : KvPool) : (s.setPool d n p).programs = s.programs := rfl
@[simp] theorem State.setPool_ex (s : State) (d : Fin 8) (n : Part) (p : KvPool) : (s.setPool d n p).ex = s.ex := rfl
@[simp] theorem State.setPool_sv (s : State) (d : Fin 8) (n : Part) (p : KvPool) : (s.setPool d n p).sv = s.sv := rfl
@[simp] theorem State.setPool_wt (s : State) (d : Fin 8) (n : Part) (p : KvPool) : (s.setPool d n p).wt = s.wt := rfl
@[simp] theorem State.setPool_loads (s : State) (d : Fin 8) (n : Part) (p : KvPool) : (s.setPool d n p).loads = s.loads := rfl
@[simp] theorem State.setPool_fab (s : State) (d : Fin 8) (n : Part) (p : KvPool) : (s.setPool d n p).fab = s.fab := rfl
@[simp] theorem State.setPool_hp (s : State) (d : Fin 8) (n : Part) (p : KvPool) : (s.setPool d n p).hp = s.hp := rfl
@[simp] theorem State.setPool_arb (s : State) (d : Fin 8) (n : Part) (p : KvPool) : (s.setPool d n p).arb = s.arb := rfl
@[simp] theorem State.setPool_integ (s : State) (d : Fin 8) (n : Part) (p : KvPool) : (s.setPool d n p).integ = s.integ := rfl
@[simp] theorem State.setPool_pw (s : State) (d : Fin 8) (n : Part) (p : KvPool) : (s.setPool d n p).pw = s.pw := rfl
@[simp] theorem State.setPool_trust (s : State) (d : Fin 8) (n : Part) (p : KvPool) : (s.setPool d n p).trust = s.trust := rfl
@[simp] theorem State.setPool_boot (s : State) (d : Fin 8) (n : Part) (p : KvPool) : (s.setPool d n p).boot = s.boot := rfl

@[simp] theorem State.setLayer_pending (s : State) (d : Fin 8) (n : Part) (x : ExLayer) : (s.setLayer d n x).pending = s.pending := rfl
@[simp] theorem State.setLayer_tx (s : State) (d : Fin 8) (n : Part) (x : ExLayer) : (s.setLayer d n x).tx = s.tx := rfl
@[simp] theorem State.setLayer_regs (s : State) (d : Fin 8) (n : Part) (x : ExLayer) : (s.setLayer d n x).regs = s.regs := rfl
@[simp] theorem State.setLayer_mem (s : State) (d : Fin 8) (n : Part) (x : ExLayer) : (s.setLayer d n x).mem = s.mem := rfl
@[simp] theorem State.setLayer_freeCtr (s : State) (d : Fin 8) (n : Part) (x : ExLayer) : (s.setLayer d n x).freeCtr = s.freeCtr := rfl
@[simp] theorem State.setLayer_tb (s : State) (d : Fin 8) (n : Part) (x : ExLayer) : (s.setLayer d n x).tb = s.tb := rfl
@[simp] theorem State.setLayer_doms (s : State) (d : Fin 8) (n : Part) (x : ExLayer) : (s.setLayer d n x).doms = s.doms := rfl
@[simp] theorem State.setLayer_cores (s : State) (d : Fin 8) (n : Part) (x : ExLayer) : (s.setLayer d n x).cores = s.cores := rfl
@[simp] theorem State.setLayer_ms (s : State) (d : Fin 8) (n : Part) (x : ExLayer) : (s.setLayer d n x).ms = s.ms := rfl
@[simp] theorem State.setLayer_cxl (s : State) (d : Fin 8) (n : Part) (x : ExLayer) : (s.setLayer d n x).cxl = s.cxl := rfl
@[simp] theorem State.setLayer_pn (s : State) (d : Fin 8) (n : Part) (x : ExLayer) : (s.setLayer d n x).pn = s.pn := rfl
@[simp] theorem State.setLayer_claims (s : State) (d : Fin 8) (n : Part) (x : ExLayer) : (s.setLayer d n x).claims = s.claims := rfl
@[simp] theorem State.setLayer_barriers (s : State) (d : Fin 8) (n : Part) (x : ExLayer) : (s.setLayer d n x).barriers = s.barriers := rfl
@[simp] theorem State.setLayer_programs (s : State) (d : Fin 8) (n : Part) (x : ExLayer) : (s.setLayer d n x).programs = s.programs := rfl
@[simp] theorem State.setLayer_sv (s : State) (d : Fin 8) (n : Part) (x : ExLayer) : (s.setLayer d n x).sv = s.sv := rfl
@[simp] theorem State.setLayer_kv (s : State) (d : Fin 8) (n : Part) (x : ExLayer) : (s.setLayer d n x).kv = s.kv := rfl
@[simp] theorem State.setLayer_wt (s : State) (d : Fin 8) (n : Part) (x : ExLayer) : (s.setLayer d n x).wt = s.wt := rfl
@[simp] theorem State.setLayer_loads (s : State) (d : Fin 8) (n : Part) (x : ExLayer) : (s.setLayer d n x).loads = s.loads := rfl
@[simp] theorem State.setLayer_fab (s : State) (d : Fin 8) (n : Part) (x : ExLayer) : (s.setLayer d n x).fab = s.fab := rfl
@[simp] theorem State.setLayer_hp (s : State) (d : Fin 8) (n : Part) (x : ExLayer) : (s.setLayer d n x).hp = s.hp := rfl
@[simp] theorem State.setLayer_arb (s : State) (d : Fin 8) (n : Part) (x : ExLayer) : (s.setLayer d n x).arb = s.arb := rfl
@[simp] theorem State.setLayer_integ (s : State) (d : Fin 8) (n : Part) (x : ExLayer) : (s.setLayer d n x).integ = s.integ := rfl
@[simp] theorem State.setLayer_pw (s : State) (d : Fin 8) (n : Part) (x : ExLayer) : (s.setLayer d n x).pw = s.pw := rfl
@[simp] theorem State.setLayer_trust (s : State) (d : Fin 8) (n : Part) (x : ExLayer) : (s.setLayer d n x).trust = s.trust := rfl
@[simp] theorem State.setLayer_boot (s : State) (d : Fin 8) (n : Part) (x : ExLayer) : (s.setLayer d n x).boot = s.boot := rfl

@[simp] theorem State.setVer_pending (s : State) (n : Part) (i : Fin 8) (v : Version) : (s.setVer n i v).pending = s.pending := rfl
@[simp] theorem State.setVer_tx (s : State) (n : Part) (i : Fin 8) (v : Version) : (s.setVer n i v).tx = s.tx := rfl
@[simp] theorem State.setVer_regs (s : State) (n : Part) (i : Fin 8) (v : Version) : (s.setVer n i v).regs = s.regs := rfl
@[simp] theorem State.setVer_mem (s : State) (n : Part) (i : Fin 8) (v : Version) : (s.setVer n i v).mem = s.mem := rfl
@[simp] theorem State.setVer_freeCtr (s : State) (n : Part) (i : Fin 8) (v : Version) : (s.setVer n i v).freeCtr = s.freeCtr := rfl
@[simp] theorem State.setVer_tb (s : State) (n : Part) (i : Fin 8) (v : Version) : (s.setVer n i v).tb = s.tb := rfl
@[simp] theorem State.setVer_doms (s : State) (n : Part) (i : Fin 8) (v : Version) : (s.setVer n i v).doms = s.doms := rfl
@[simp] theorem State.setVer_cores (s : State) (n : Part) (i : Fin 8) (v : Version) : (s.setVer n i v).cores = s.cores := rfl
@[simp] theorem State.setVer_ms (s : State) (n : Part) (i : Fin 8) (v : Version) : (s.setVer n i v).ms = s.ms := rfl
@[simp] theorem State.setVer_cxl (s : State) (n : Part) (i : Fin 8) (v : Version) : (s.setVer n i v).cxl = s.cxl := rfl
@[simp] theorem State.setVer_pn (s : State) (n : Part) (i : Fin 8) (v : Version) : (s.setVer n i v).pn = s.pn := rfl
@[simp] theorem State.setVer_claims (s : State) (n : Part) (i : Fin 8) (v : Version) : (s.setVer n i v).claims = s.claims := rfl
@[simp] theorem State.setVer_barriers (s : State) (n : Part) (i : Fin 8) (v : Version) : (s.setVer n i v).barriers = s.barriers := rfl
@[simp] theorem State.setVer_programs (s : State) (n : Part) (i : Fin 8) (v : Version) : (s.setVer n i v).programs = s.programs := rfl
@[simp] theorem State.setVer_ex (s : State) (n : Part) (i : Fin 8) (v : Version) : (s.setVer n i v).ex = s.ex := rfl
@[simp] theorem State.setVer_sv (s : State) (n : Part) (i : Fin 8) (v : Version) : (s.setVer n i v).sv = s.sv := rfl
@[simp] theorem State.setVer_kv (s : State) (n : Part) (i : Fin 8) (v : Version) : (s.setVer n i v).kv = s.kv := rfl
@[simp] theorem State.setVer_loads (s : State) (n : Part) (i : Fin 8) (v : Version) : (s.setVer n i v).loads = s.loads := rfl
@[simp] theorem State.setVer_fab (s : State) (n : Part) (i : Fin 8) (v : Version) : (s.setVer n i v).fab = s.fab := rfl
@[simp] theorem State.setVer_hp (s : State) (n : Part) (i : Fin 8) (v : Version) : (s.setVer n i v).hp = s.hp := rfl
@[simp] theorem State.setVer_arb (s : State) (n : Part) (i : Fin 8) (v : Version) : (s.setVer n i v).arb = s.arb := rfl
@[simp] theorem State.setVer_integ (s : State) (n : Part) (i : Fin 8) (v : Version) : (s.setVer n i v).integ = s.integ := rfl
@[simp] theorem State.setVer_pw (s : State) (n : Part) (i : Fin 8) (v : Version) : (s.setVer n i v).pw = s.pw := rfl
@[simp] theorem State.setVer_trust (s : State) (n : Part) (i : Fin 8) (v : Version) : (s.setVer n i v).trust = s.trust := rfl
@[simp] theorem State.setVer_boot (s : State) (n : Part) (i : Fin 8) (v : Version) : (s.setVer n i v).boot = s.boot := rfl

@[simp] theorem State.setPort_pending (s : State) (p : Port) (x : FabPort) : (s.setPort p x).pending = s.pending := rfl
@[simp] theorem State.setPort_tx (s : State) (p : Port) (x : FabPort) : (s.setPort p x).tx = s.tx := rfl
@[simp] theorem State.setPort_regs (s : State) (p : Port) (x : FabPort) : (s.setPort p x).regs = s.regs := rfl
@[simp] theorem State.setPort_mem (s : State) (p : Port) (x : FabPort) : (s.setPort p x).mem = s.mem := rfl
@[simp] theorem State.setPort_freeCtr (s : State) (p : Port) (x : FabPort) : (s.setPort p x).freeCtr = s.freeCtr := rfl
@[simp] theorem State.setPort_tb (s : State) (p : Port) (x : FabPort) : (s.setPort p x).tb = s.tb := rfl
@[simp] theorem State.setPort_doms (s : State) (p : Port) (x : FabPort) : (s.setPort p x).doms = s.doms := rfl
@[simp] theorem State.setPort_cores (s : State) (p : Port) (x : FabPort) : (s.setPort p x).cores = s.cores := rfl
@[simp] theorem State.setPort_ms (s : State) (p : Port) (x : FabPort) : (s.setPort p x).ms = s.ms := rfl
@[simp] theorem State.setPort_cxl (s : State) (p : Port) (x : FabPort) : (s.setPort p x).cxl = s.cxl := rfl
@[simp] theorem State.setPort_pn (s : State) (p : Port) (x : FabPort) : (s.setPort p x).pn = s.pn := rfl
@[simp] theorem State.setPort_claims (s : State) (p : Port) (x : FabPort) : (s.setPort p x).claims = s.claims := rfl
@[simp] theorem State.setPort_barriers (s : State) (p : Port) (x : FabPort) : (s.setPort p x).barriers = s.barriers := rfl
@[simp] theorem State.setPort_programs (s : State) (p : Port) (x : FabPort) : (s.setPort p x).programs = s.programs := rfl
@[simp] theorem State.setPort_ex (s : State) (p : Port) (x : FabPort) : (s.setPort p x).ex = s.ex := rfl
@[simp] theorem State.setPort_sv (s : State) (p : Port) (x : FabPort) : (s.setPort p x).sv = s.sv := rfl
@[simp] theorem State.setPort_kv (s : State) (p : Port) (x : FabPort) : (s.setPort p x).kv = s.kv := rfl
@[simp] theorem State.setPort_wt (s : State) (p : Port) (x : FabPort) : (s.setPort p x).wt = s.wt := rfl
@[simp] theorem State.setPort_loads (s : State) (p : Port) (x : FabPort) : (s.setPort p x).loads = s.loads := rfl
@[simp] theorem State.setPort_hp (s : State) (p : Port) (x : FabPort) : (s.setPort p x).hp = s.hp := rfl
@[simp] theorem State.setPort_arb (s : State) (p : Port) (x : FabPort) : (s.setPort p x).arb = s.arb := rfl
@[simp] theorem State.setPort_integ (s : State) (p : Port) (x : FabPort) : (s.setPort p x).integ = s.integ := rfl
@[simp] theorem State.setPort_pw (s : State) (p : Port) (x : FabPort) : (s.setPort p x).pw = s.pw := rfl
@[simp] theorem State.setPort_trust (s : State) (p : Port) (x : FabPort) : (s.setPort p x).trust = s.trust := rfl
@[simp] theorem State.setPort_boot (s : State) (p : Port) (x : FabPort) : (s.setPort p x).boot = s.boot := rfl

@[simp] theorem State.setInsts_pending (s : State) (l : List CollInst) : (s.setInsts l).pending = s.pending := rfl
@[simp] theorem State.setInsts_tx (s : State) (l : List CollInst) : (s.setInsts l).tx = s.tx := rfl
@[simp] theorem State.setInsts_regs (s : State) (l : List CollInst) : (s.setInsts l).regs = s.regs := rfl
@[simp] theorem State.setInsts_mem (s : State) (l : List CollInst) : (s.setInsts l).mem = s.mem := rfl
@[simp] theorem State.setInsts_freeCtr (s : State) (l : List CollInst) : (s.setInsts l).freeCtr = s.freeCtr := rfl
@[simp] theorem State.setInsts_tb (s : State) (l : List CollInst) : (s.setInsts l).tb = s.tb := rfl
@[simp] theorem State.setInsts_doms (s : State) (l : List CollInst) : (s.setInsts l).doms = s.doms := rfl
@[simp] theorem State.setInsts_cores (s : State) (l : List CollInst) : (s.setInsts l).cores = s.cores := rfl
@[simp] theorem State.setInsts_ms (s : State) (l : List CollInst) : (s.setInsts l).ms = s.ms := rfl
@[simp] theorem State.setInsts_cxl (s : State) (l : List CollInst) : (s.setInsts l).cxl = s.cxl := rfl
@[simp] theorem State.setInsts_pn (s : State) (l : List CollInst) : (s.setInsts l).pn = s.pn := rfl
@[simp] theorem State.setInsts_claims (s : State) (l : List CollInst) : (s.setInsts l).claims = s.claims := rfl
@[simp] theorem State.setInsts_barriers (s : State) (l : List CollInst) : (s.setInsts l).barriers = s.barriers := rfl
@[simp] theorem State.setInsts_programs (s : State) (l : List CollInst) : (s.setInsts l).programs = s.programs := rfl
@[simp] theorem State.setInsts_ex (s : State) (l : List CollInst) : (s.setInsts l).ex = s.ex := rfl
@[simp] theorem State.setInsts_sv (s : State) (l : List CollInst) : (s.setInsts l).sv = s.sv := rfl
@[simp] theorem State.setInsts_kv (s : State) (l : List CollInst) : (s.setInsts l).kv = s.kv := rfl
@[simp] theorem State.setInsts_wt (s : State) (l : List CollInst) : (s.setInsts l).wt = s.wt := rfl
@[simp] theorem State.setInsts_loads (s : State) (l : List CollInst) : (s.setInsts l).loads = s.loads := rfl
@[simp] theorem State.setInsts_hp (s : State) (l : List CollInst) : (s.setInsts l).hp = s.hp := rfl
@[simp] theorem State.setInsts_arb (s : State) (l : List CollInst) : (s.setInsts l).arb = s.arb := rfl
@[simp] theorem State.setInsts_integ (s : State) (l : List CollInst) : (s.setInsts l).integ = s.integ := rfl
@[simp] theorem State.setInsts_pw (s : State) (l : List CollInst) : (s.setInsts l).pw = s.pw := rfl
@[simp] theorem State.setInsts_trust (s : State) (l : List CollInst) : (s.setInsts l).trust = s.trust := rfl
@[simp] theorem State.setInsts_boot (s : State) (l : List CollInst) : (s.setInsts l).boot = s.boot := rfl

@[simp] theorem State.setHp_pending (s : State) (h : HostPort) : (s.setHp h).pending = s.pending := rfl
@[simp] theorem State.setHp_tx (s : State) (h : HostPort) : (s.setHp h).tx = s.tx := rfl
@[simp] theorem State.setHp_regs (s : State) (h : HostPort) : (s.setHp h).regs = s.regs := rfl
@[simp] theorem State.setHp_mem (s : State) (h : HostPort) : (s.setHp h).mem = s.mem := rfl
@[simp] theorem State.setHp_freeCtr (s : State) (h : HostPort) : (s.setHp h).freeCtr = s.freeCtr := rfl
@[simp] theorem State.setHp_tb (s : State) (h : HostPort) : (s.setHp h).tb = s.tb := rfl
@[simp] theorem State.setHp_doms (s : State) (h : HostPort) : (s.setHp h).doms = s.doms := rfl
@[simp] theorem State.setHp_cores (s : State) (h : HostPort) : (s.setHp h).cores = s.cores := rfl
@[simp] theorem State.setHp_ms (s : State) (h : HostPort) : (s.setHp h).ms = s.ms := rfl
@[simp] theorem State.setHp_cxl (s : State) (h : HostPort) : (s.setHp h).cxl = s.cxl := rfl
@[simp] theorem State.setHp_pn (s : State) (h : HostPort) : (s.setHp h).pn = s.pn := rfl
@[simp] theorem State.setHp_claims (s : State) (h : HostPort) : (s.setHp h).claims = s.claims := rfl
@[simp] theorem State.setHp_barriers (s : State) (h : HostPort) : (s.setHp h).barriers = s.barriers := rfl
@[simp] theorem State.setHp_programs (s : State) (h : HostPort) : (s.setHp h).programs = s.programs := rfl
@[simp] theorem State.setHp_ex (s : State) (h : HostPort) : (s.setHp h).ex = s.ex := rfl
@[simp] theorem State.setHp_sv (s : State) (h : HostPort) : (s.setHp h).sv = s.sv := rfl
@[simp] theorem State.setHp_kv (s : State) (h : HostPort) : (s.setHp h).kv = s.kv := rfl
@[simp] theorem State.setHp_wt (s : State) (h : HostPort) : (s.setHp h).wt = s.wt := rfl
@[simp] theorem State.setHp_loads (s : State) (h : HostPort) : (s.setHp h).loads = s.loads := rfl
@[simp] theorem State.setHp_fab (s : State) (h : HostPort) : (s.setHp h).fab = s.fab := rfl
@[simp] theorem State.setHp_arb (s : State) (h : HostPort) : (s.setHp h).arb = s.arb := rfl
@[simp] theorem State.setHp_integ (s : State) (h : HostPort) : (s.setHp h).integ = s.integ := rfl
@[simp] theorem State.setHp_pw (s : State) (h : HostPort) : (s.setHp h).pw = s.pw := rfl
@[simp] theorem State.setHp_trust (s : State) (h : HostPort) : (s.setHp h).trust = s.trust := rfl
@[simp] theorem State.setHp_boot (s : State) (h : HostPort) : (s.setHp h).boot = s.boot := rfl

@[simp] theorem State.setChan_pending (s : State) (c : Nat) (x : Channel) : (s.setChan c x).pending = s.pending := rfl
@[simp] theorem State.setChan_tx (s : State) (c : Nat) (x : Channel) : (s.setChan c x).tx = s.tx := rfl
@[simp] theorem State.setChan_regs (s : State) (c : Nat) (x : Channel) : (s.setChan c x).regs = s.regs := rfl
@[simp] theorem State.setChan_mem (s : State) (c : Nat) (x : Channel) : (s.setChan c x).mem = s.mem := rfl
@[simp] theorem State.setChan_freeCtr (s : State) (c : Nat) (x : Channel) : (s.setChan c x).freeCtr = s.freeCtr := rfl
@[simp] theorem State.setChan_tb (s : State) (c : Nat) (x : Channel) : (s.setChan c x).tb = s.tb := rfl
@[simp] theorem State.setChan_doms (s : State) (c : Nat) (x : Channel) : (s.setChan c x).doms = s.doms := rfl
@[simp] theorem State.setChan_cores (s : State) (c : Nat) (x : Channel) : (s.setChan c x).cores = s.cores := rfl
@[simp] theorem State.setChan_ms (s : State) (c : Nat) (x : Channel) : (s.setChan c x).ms = s.ms := rfl
@[simp] theorem State.setChan_cxl (s : State) (c : Nat) (x : Channel) : (s.setChan c x).cxl = s.cxl := rfl
@[simp] theorem State.setChan_pn (s : State) (c : Nat) (x : Channel) : (s.setChan c x).pn = s.pn := rfl
@[simp] theorem State.setChan_claims (s : State) (c : Nat) (x : Channel) : (s.setChan c x).claims = s.claims := rfl
@[simp] theorem State.setChan_barriers (s : State) (c : Nat) (x : Channel) : (s.setChan c x).barriers = s.barriers := rfl
@[simp] theorem State.setChan_programs (s : State) (c : Nat) (x : Channel) : (s.setChan c x).programs = s.programs := rfl
@[simp] theorem State.setChan_ex (s : State) (c : Nat) (x : Channel) : (s.setChan c x).ex = s.ex := rfl
@[simp] theorem State.setChan_sv (s : State) (c : Nat) (x : Channel) : (s.setChan c x).sv = s.sv := rfl
@[simp] theorem State.setChan_kv (s : State) (c : Nat) (x : Channel) : (s.setChan c x).kv = s.kv := rfl
@[simp] theorem State.setChan_wt (s : State) (c : Nat) (x : Channel) : (s.setChan c x).wt = s.wt := rfl
@[simp] theorem State.setChan_loads (s : State) (c : Nat) (x : Channel) : (s.setChan c x).loads = s.loads := rfl
@[simp] theorem State.setChan_fab (s : State) (c : Nat) (x : Channel) : (s.setChan c x).fab = s.fab := rfl
@[simp] theorem State.setChan_arb (s : State) (c : Nat) (x : Channel) : (s.setChan c x).arb = s.arb := rfl
@[simp] theorem State.setChan_integ (s : State) (c : Nat) (x : Channel) : (s.setChan c x).integ = s.integ := rfl
@[simp] theorem State.setChan_pw (s : State) (c : Nat) (x : Channel) : (s.setChan c x).pw = s.pw := rfl
@[simp] theorem State.setChan_trust (s : State) (c : Nat) (x : Channel) : (s.setChan c x).trust = s.trust := rfl
@[simp] theorem State.setChan_boot (s : State) (c : Nat) (x : Channel) : (s.setChan c x).boot = s.boot := rfl

@[simp] theorem State.setSession_pending (s : State) (n : Nat) (x : Session) : (s.setSession n x).pending = s.pending := rfl
@[simp] theorem State.setSession_tx (s : State) (n : Nat) (x : Session) : (s.setSession n x).tx = s.tx := rfl
@[simp] theorem State.setSession_regs (s : State) (n : Nat) (x : Session) : (s.setSession n x).regs = s.regs := rfl
@[simp] theorem State.setSession_mem (s : State) (n : Nat) (x : Session) : (s.setSession n x).mem = s.mem := rfl
@[simp] theorem State.setSession_freeCtr (s : State) (n : Nat) (x : Session) : (s.setSession n x).freeCtr = s.freeCtr := rfl
@[simp] theorem State.setSession_tb (s : State) (n : Nat) (x : Session) : (s.setSession n x).tb = s.tb := rfl
@[simp] theorem State.setSession_doms (s : State) (n : Nat) (x : Session) : (s.setSession n x).doms = s.doms := rfl
@[simp] theorem State.setSession_cores (s : State) (n : Nat) (x : Session) : (s.setSession n x).cores = s.cores := rfl
@[simp] theorem State.setSession_ms (s : State) (n : Nat) (x : Session) : (s.setSession n x).ms = s.ms := rfl
@[simp] theorem State.setSession_cxl (s : State) (n : Nat) (x : Session) : (s.setSession n x).cxl = s.cxl := rfl
@[simp] theorem State.setSession_pn (s : State) (n : Nat) (x : Session) : (s.setSession n x).pn = s.pn := rfl
@[simp] theorem State.setSession_claims (s : State) (n : Nat) (x : Session) : (s.setSession n x).claims = s.claims := rfl
@[simp] theorem State.setSession_barriers (s : State) (n : Nat) (x : Session) : (s.setSession n x).barriers = s.barriers := rfl
@[simp] theorem State.setSession_programs (s : State) (n : Nat) (x : Session) : (s.setSession n x).programs = s.programs := rfl
@[simp] theorem State.setSession_ex (s : State) (n : Nat) (x : Session) : (s.setSession n x).ex = s.ex := rfl
@[simp] theorem State.setSession_sv (s : State) (n : Nat) (x : Session) : (s.setSession n x).sv = s.sv := rfl
@[simp] theorem State.setSession_kv (s : State) (n : Nat) (x : Session) : (s.setSession n x).kv = s.kv := rfl
@[simp] theorem State.setSession_wt (s : State) (n : Nat) (x : Session) : (s.setSession n x).wt = s.wt := rfl
@[simp] theorem State.setSession_loads (s : State) (n : Nat) (x : Session) : (s.setSession n x).loads = s.loads := rfl
@[simp] theorem State.setSession_fab (s : State) (n : Nat) (x : Session) : (s.setSession n x).fab = s.fab := rfl
@[simp] theorem State.setSession_arb (s : State) (n : Nat) (x : Session) : (s.setSession n x).arb = s.arb := rfl
@[simp] theorem State.setSession_integ (s : State) (n : Nat) (x : Session) : (s.setSession n x).integ = s.integ := rfl
@[simp] theorem State.setSession_pw (s : State) (n : Nat) (x : Session) : (s.setSession n x).pw = s.pw := rfl
@[simp] theorem State.setSession_trust (s : State) (n : Nat) (x : Session) : (s.setSession n x).trust = s.trust := rfl
@[simp] theorem State.setSession_boot (s : State) (n : Nat) (x : Session) : (s.setSession n x).boot = s.boot := rfl

@[simp] theorem State.setQueue_pending (s : State) (k : Option Part × Nat) (q : List Queued) : (s.setQueue k q).pending = s.pending := rfl
@[simp] theorem State.setQueue_tx (s : State) (k : Option Part × Nat) (q : List Queued) : (s.setQueue k q).tx = s.tx := rfl
@[simp] theorem State.setQueue_regs (s : State) (k : Option Part × Nat) (q : List Queued) : (s.setQueue k q).regs = s.regs := rfl
@[simp] theorem State.setQueue_mem (s : State) (k : Option Part × Nat) (q : List Queued) : (s.setQueue k q).mem = s.mem := rfl
@[simp] theorem State.setQueue_freeCtr (s : State) (k : Option Part × Nat) (q : List Queued) : (s.setQueue k q).freeCtr = s.freeCtr := rfl
@[simp] theorem State.setQueue_tb (s : State) (k : Option Part × Nat) (q : List Queued) : (s.setQueue k q).tb = s.tb := rfl
@[simp] theorem State.setQueue_doms (s : State) (k : Option Part × Nat) (q : List Queued) : (s.setQueue k q).doms = s.doms := rfl
@[simp] theorem State.setQueue_cores (s : State) (k : Option Part × Nat) (q : List Queued) : (s.setQueue k q).cores = s.cores := rfl
@[simp] theorem State.setQueue_ms (s : State) (k : Option Part × Nat) (q : List Queued) : (s.setQueue k q).ms = s.ms := rfl
@[simp] theorem State.setQueue_cxl (s : State) (k : Option Part × Nat) (q : List Queued) : (s.setQueue k q).cxl = s.cxl := rfl
@[simp] theorem State.setQueue_pn (s : State) (k : Option Part × Nat) (q : List Queued) : (s.setQueue k q).pn = s.pn := rfl
@[simp] theorem State.setQueue_claims (s : State) (k : Option Part × Nat) (q : List Queued) : (s.setQueue k q).claims = s.claims := rfl
@[simp] theorem State.setQueue_barriers (s : State) (k : Option Part × Nat) (q : List Queued) : (s.setQueue k q).barriers = s.barriers := rfl
@[simp] theorem State.setQueue_programs (s : State) (k : Option Part × Nat) (q : List Queued) : (s.setQueue k q).programs = s.programs := rfl
@[simp] theorem State.setQueue_ex (s : State) (k : Option Part × Nat) (q : List Queued) : (s.setQueue k q).ex = s.ex := rfl
@[simp] theorem State.setQueue_sv (s : State) (k : Option Part × Nat) (q : List Queued) : (s.setQueue k q).sv = s.sv := rfl
@[simp] theorem State.setQueue_kv (s : State) (k : Option Part × Nat) (q : List Queued) : (s.setQueue k q).kv = s.kv := rfl
@[simp] theorem State.setQueue_wt (s : State) (k : Option Part × Nat) (q : List Queued) : (s.setQueue k q).wt = s.wt := rfl
@[simp] theorem State.setQueue_loads (s : State) (k : Option Part × Nat) (q : List Queued) : (s.setQueue k q).loads = s.loads := rfl
@[simp] theorem State.setQueue_fab (s : State) (k : Option Part × Nat) (q : List Queued) : (s.setQueue k q).fab = s.fab := rfl
@[simp] theorem State.setQueue_arb (s : State) (k : Option Part × Nat) (q : List Queued) : (s.setQueue k q).arb = s.arb := rfl
@[simp] theorem State.setQueue_integ (s : State) (k : Option Part × Nat) (q : List Queued) : (s.setQueue k q).integ = s.integ := rfl
@[simp] theorem State.setQueue_pw (s : State) (k : Option Part × Nat) (q : List Queued) : (s.setQueue k q).pw = s.pw := rfl
@[simp] theorem State.setQueue_trust (s : State) (k : Option Part × Nat) (q : List Queued) : (s.setQueue k q).trust = s.trust := rfl
@[simp] theorem State.setQueue_boot (s : State) (k : Option Part × Nat) (q : List Queued) : (s.setQueue k q).boot = s.boot := rfl

@[simp] theorem State.setSpdm_pending (s : State) (n : Nat) (x : Spdm) : (s.setSpdm n x).pending = s.pending := rfl
@[simp] theorem State.setSpdm_tx (s : State) (n : Nat) (x : Spdm) : (s.setSpdm n x).tx = s.tx := rfl
@[simp] theorem State.setSpdm_regs (s : State) (n : Nat) (x : Spdm) : (s.setSpdm n x).regs = s.regs := rfl
@[simp] theorem State.setSpdm_mem (s : State) (n : Nat) (x : Spdm) : (s.setSpdm n x).mem = s.mem := rfl
@[simp] theorem State.setSpdm_freeCtr (s : State) (n : Nat) (x : Spdm) : (s.setSpdm n x).freeCtr = s.freeCtr := rfl
@[simp] theorem State.setSpdm_tb (s : State) (n : Nat) (x : Spdm) : (s.setSpdm n x).tb = s.tb := rfl
@[simp] theorem State.setSpdm_doms (s : State) (n : Nat) (x : Spdm) : (s.setSpdm n x).doms = s.doms := rfl
@[simp] theorem State.setSpdm_cores (s : State) (n : Nat) (x : Spdm) : (s.setSpdm n x).cores = s.cores := rfl
@[simp] theorem State.setSpdm_ms (s : State) (n : Nat) (x : Spdm) : (s.setSpdm n x).ms = s.ms := rfl
@[simp] theorem State.setSpdm_cxl (s : State) (n : Nat) (x : Spdm) : (s.setSpdm n x).cxl = s.cxl := rfl
@[simp] theorem State.setSpdm_pn (s : State) (n : Nat) (x : Spdm) : (s.setSpdm n x).pn = s.pn := rfl
@[simp] theorem State.setSpdm_claims (s : State) (n : Nat) (x : Spdm) : (s.setSpdm n x).claims = s.claims := rfl
@[simp] theorem State.setSpdm_barriers (s : State) (n : Nat) (x : Spdm) : (s.setSpdm n x).barriers = s.barriers := rfl
@[simp] theorem State.setSpdm_programs (s : State) (n : Nat) (x : Spdm) : (s.setSpdm n x).programs = s.programs := rfl
@[simp] theorem State.setSpdm_ex (s : State) (n : Nat) (x : Spdm) : (s.setSpdm n x).ex = s.ex := rfl
@[simp] theorem State.setSpdm_sv (s : State) (n : Nat) (x : Spdm) : (s.setSpdm n x).sv = s.sv := rfl
@[simp] theorem State.setSpdm_kv (s : State) (n : Nat) (x : Spdm) : (s.setSpdm n x).kv = s.kv := rfl
@[simp] theorem State.setSpdm_wt (s : State) (n : Nat) (x : Spdm) : (s.setSpdm n x).wt = s.wt := rfl
@[simp] theorem State.setSpdm_loads (s : State) (n : Nat) (x : Spdm) : (s.setSpdm n x).loads = s.loads := rfl
@[simp] theorem State.setSpdm_fab (s : State) (n : Nat) (x : Spdm) : (s.setSpdm n x).fab = s.fab := rfl
@[simp] theorem State.setSpdm_arb (s : State) (n : Nat) (x : Spdm) : (s.setSpdm n x).arb = s.arb := rfl
@[simp] theorem State.setSpdm_integ (s : State) (n : Nat) (x : Spdm) : (s.setSpdm n x).integ = s.integ := rfl
@[simp] theorem State.setSpdm_pw (s : State) (n : Nat) (x : Spdm) : (s.setSpdm n x).pw = s.pw := rfl
@[simp] theorem State.setSpdm_trust (s : State) (n : Nat) (x : Spdm) : (s.setSpdm n x).trust = s.trust := rfl
@[simp] theorem State.setSpdm_boot (s : State) (n : Nat) (x : Spdm) : (s.setSpdm n x).boot = s.boot := rfl

@[simp] theorem State.setArb_pending (s : State) (a : Fin 14) (x : Arbiter) : (s.setArb a x).pending = s.pending := rfl
@[simp] theorem State.setArb_tx (s : State) (a : Fin 14) (x : Arbiter) : (s.setArb a x).tx = s.tx := rfl
@[simp] theorem State.setArb_regs (s : State) (a : Fin 14) (x : Arbiter) : (s.setArb a x).regs = s.regs := rfl
@[simp] theorem State.setArb_mem (s : State) (a : Fin 14) (x : Arbiter) : (s.setArb a x).mem = s.mem := rfl
@[simp] theorem State.setArb_freeCtr (s : State) (a : Fin 14) (x : Arbiter) : (s.setArb a x).freeCtr = s.freeCtr := rfl
@[simp] theorem State.setArb_tb (s : State) (a : Fin 14) (x : Arbiter) : (s.setArb a x).tb = s.tb := rfl
@[simp] theorem State.setArb_doms (s : State) (a : Fin 14) (x : Arbiter) : (s.setArb a x).doms = s.doms := rfl
@[simp] theorem State.setArb_cores (s : State) (a : Fin 14) (x : Arbiter) : (s.setArb a x).cores = s.cores := rfl
@[simp] theorem State.setArb_ms (s : State) (a : Fin 14) (x : Arbiter) : (s.setArb a x).ms = s.ms := rfl
@[simp] theorem State.setArb_cxl (s : State) (a : Fin 14) (x : Arbiter) : (s.setArb a x).cxl = s.cxl := rfl
@[simp] theorem State.setArb_pn (s : State) (a : Fin 14) (x : Arbiter) : (s.setArb a x).pn = s.pn := rfl
@[simp] theorem State.setArb_claims (s : State) (a : Fin 14) (x : Arbiter) : (s.setArb a x).claims = s.claims := rfl
@[simp] theorem State.setArb_barriers (s : State) (a : Fin 14) (x : Arbiter) : (s.setArb a x).barriers = s.barriers := rfl
@[simp] theorem State.setArb_programs (s : State) (a : Fin 14) (x : Arbiter) : (s.setArb a x).programs = s.programs := rfl
@[simp] theorem State.setArb_ex (s : State) (a : Fin 14) (x : Arbiter) : (s.setArb a x).ex = s.ex := rfl
@[simp] theorem State.setArb_sv (s : State) (a : Fin 14) (x : Arbiter) : (s.setArb a x).sv = s.sv := rfl
@[simp] theorem State.setArb_kv (s : State) (a : Fin 14) (x : Arbiter) : (s.setArb a x).kv = s.kv := rfl
@[simp] theorem State.setArb_wt (s : State) (a : Fin 14) (x : Arbiter) : (s.setArb a x).wt = s.wt := rfl
@[simp] theorem State.setArb_loads (s : State) (a : Fin 14) (x : Arbiter) : (s.setArb a x).loads = s.loads := rfl
@[simp] theorem State.setArb_fab (s : State) (a : Fin 14) (x : Arbiter) : (s.setArb a x).fab = s.fab := rfl
@[simp] theorem State.setArb_hp (s : State) (a : Fin 14) (x : Arbiter) : (s.setArb a x).hp = s.hp := rfl
@[simp] theorem State.setArb_integ (s : State) (a : Fin 14) (x : Arbiter) : (s.setArb a x).integ = s.integ := rfl
@[simp] theorem State.setArb_pw (s : State) (a : Fin 14) (x : Arbiter) : (s.setArb a x).pw = s.pw := rfl
@[simp] theorem State.setArb_trust (s : State) (a : Fin 14) (x : Arbiter) : (s.setArb a x).trust = s.trust := rfl
@[simp] theorem State.setArb_boot (s : State) (a : Fin 14) (x : Arbiter) : (s.setArb a x).boot = s.boot := rfl

@[simp] theorem State.setPw_pending (s : State) (p : Power) : (s.setPw p).pending = s.pending := rfl
@[simp] theorem State.setPw_tx (s : State) (p : Power) : (s.setPw p).tx = s.tx := rfl
@[simp] theorem State.setPw_regs (s : State) (p : Power) : (s.setPw p).regs = s.regs := rfl
@[simp] theorem State.setPw_mem (s : State) (p : Power) : (s.setPw p).mem = s.mem := rfl
@[simp] theorem State.setPw_freeCtr (s : State) (p : Power) : (s.setPw p).freeCtr = s.freeCtr := rfl
@[simp] theorem State.setPw_tb (s : State) (p : Power) : (s.setPw p).tb = s.tb := rfl
@[simp] theorem State.setPw_doms (s : State) (p : Power) : (s.setPw p).doms = s.doms := rfl
@[simp] theorem State.setPw_cores (s : State) (p : Power) : (s.setPw p).cores = s.cores := rfl
@[simp] theorem State.setPw_ms (s : State) (p : Power) : (s.setPw p).ms = s.ms := rfl
@[simp] theorem State.setPw_cxl (s : State) (p : Power) : (s.setPw p).cxl = s.cxl := rfl
@[simp] theorem State.setPw_pn (s : State) (p : Power) : (s.setPw p).pn = s.pn := rfl
@[simp] theorem State.setPw_claims (s : State) (p : Power) : (s.setPw p).claims = s.claims := rfl
@[simp] theorem State.setPw_barriers (s : State) (p : Power) : (s.setPw p).barriers = s.barriers := rfl
@[simp] theorem State.setPw_programs (s : State) (p : Power) : (s.setPw p).programs = s.programs := rfl
@[simp] theorem State.setPw_ex (s : State) (p : Power) : (s.setPw p).ex = s.ex := rfl
@[simp] theorem State.setPw_sv (s : State) (p : Power) : (s.setPw p).sv = s.sv := rfl
@[simp] theorem State.setPw_kv (s : State) (p : Power) : (s.setPw p).kv = s.kv := rfl
@[simp] theorem State.setPw_wt (s : State) (p : Power) : (s.setPw p).wt = s.wt := rfl
@[simp] theorem State.setPw_loads (s : State) (p : Power) : (s.setPw p).loads = s.loads := rfl
@[simp] theorem State.setPw_fab (s : State) (p : Power) : (s.setPw p).fab = s.fab := rfl
@[simp] theorem State.setPw_hp (s : State) (p : Power) : (s.setPw p).hp = s.hp := rfl
@[simp] theorem State.setPw_arb (s : State) (p : Power) : (s.setPw p).arb = s.arb := rfl
@[simp] theorem State.setPw_integ (s : State) (p : Power) : (s.setPw p).integ = s.integ := rfl
@[simp] theorem State.setPw_trust (s : State) (p : Power) : (s.setPw p).trust = s.trust := rfl
@[simp] theorem State.setPw_boot (s : State) (p : Power) : (s.setPw p).boot = s.boot := rfl

@[simp] theorem State.setTrust_pending (s : State) (t : Trust) : (s.setTrust t).pending = s.pending := rfl
@[simp] theorem State.setTrust_tx (s : State) (t : Trust) : (s.setTrust t).tx = s.tx := rfl
@[simp] theorem State.setTrust_regs (s : State) (t : Trust) : (s.setTrust t).regs = s.regs := rfl
@[simp] theorem State.setTrust_mem (s : State) (t : Trust) : (s.setTrust t).mem = s.mem := rfl
@[simp] theorem State.setTrust_freeCtr (s : State) (t : Trust) : (s.setTrust t).freeCtr = s.freeCtr := rfl
@[simp] theorem State.setTrust_tb (s : State) (t : Trust) : (s.setTrust t).tb = s.tb := rfl
@[simp] theorem State.setTrust_doms (s : State) (t : Trust) : (s.setTrust t).doms = s.doms := rfl
@[simp] theorem State.setTrust_cores (s : State) (t : Trust) : (s.setTrust t).cores = s.cores := rfl
@[simp] theorem State.setTrust_ms (s : State) (t : Trust) : (s.setTrust t).ms = s.ms := rfl
@[simp] theorem State.setTrust_cxl (s : State) (t : Trust) : (s.setTrust t).cxl = s.cxl := rfl
@[simp] theorem State.setTrust_pn (s : State) (t : Trust) : (s.setTrust t).pn = s.pn := rfl
@[simp] theorem State.setTrust_claims (s : State) (t : Trust) : (s.setTrust t).claims = s.claims := rfl
@[simp] theorem State.setTrust_barriers (s : State) (t : Trust) : (s.setTrust t).barriers = s.barriers := rfl
@[simp] theorem State.setTrust_programs (s : State) (t : Trust) : (s.setTrust t).programs = s.programs := rfl
@[simp] theorem State.setTrust_ex (s : State) (t : Trust) : (s.setTrust t).ex = s.ex := rfl
@[simp] theorem State.setTrust_sv (s : State) (t : Trust) : (s.setTrust t).sv = s.sv := rfl
@[simp] theorem State.setTrust_kv (s : State) (t : Trust) : (s.setTrust t).kv = s.kv := rfl
@[simp] theorem State.setTrust_wt (s : State) (t : Trust) : (s.setTrust t).wt = s.wt := rfl
@[simp] theorem State.setTrust_loads (s : State) (t : Trust) : (s.setTrust t).loads = s.loads := rfl
@[simp] theorem State.setTrust_fab (s : State) (t : Trust) : (s.setTrust t).fab = s.fab := rfl
@[simp] theorem State.setTrust_hp (s : State) (t : Trust) : (s.setTrust t).hp = s.hp := rfl
@[simp] theorem State.setTrust_arb (s : State) (t : Trust) : (s.setTrust t).arb = s.arb := rfl
@[simp] theorem State.setTrust_integ (s : State) (t : Trust) : (s.setTrust t).integ = s.integ := rfl
@[simp] theorem State.setTrust_pw (s : State) (t : Trust) : (s.setTrust t).pw = s.pw := rfl
@[simp] theorem State.setTrust_boot (s : State) (t : Trust) : (s.setTrust t).boot = s.boot := rfl

@[simp] theorem State.setBoot_pending (s : State) (b : Boot) : (s.setBoot b).pending = s.pending := rfl
@[simp] theorem State.setBoot_tx (s : State) (b : Boot) : (s.setBoot b).tx = s.tx := rfl
@[simp] theorem State.setBoot_regs (s : State) (b : Boot) : (s.setBoot b).regs = s.regs := rfl
@[simp] theorem State.setBoot_mem (s : State) (b : Boot) : (s.setBoot b).mem = s.mem := rfl
@[simp] theorem State.setBoot_freeCtr (s : State) (b : Boot) : (s.setBoot b).freeCtr = s.freeCtr := rfl
@[simp] theorem State.setBoot_tb (s : State) (b : Boot) : (s.setBoot b).tb = s.tb := rfl
@[simp] theorem State.setBoot_doms (s : State) (b : Boot) : (s.setBoot b).doms = s.doms := rfl
@[simp] theorem State.setBoot_cores (s : State) (b : Boot) : (s.setBoot b).cores = s.cores := rfl
@[simp] theorem State.setBoot_ms (s : State) (b : Boot) : (s.setBoot b).ms = s.ms := rfl
@[simp] theorem State.setBoot_cxl (s : State) (b : Boot) : (s.setBoot b).cxl = s.cxl := rfl
@[simp] theorem State.setBoot_pn (s : State) (b : Boot) : (s.setBoot b).pn = s.pn := rfl
@[simp] theorem State.setBoot_claims (s : State) (b : Boot) : (s.setBoot b).claims = s.claims := rfl
@[simp] theorem State.setBoot_barriers (s : State) (b : Boot) : (s.setBoot b).barriers = s.barriers := rfl
@[simp] theorem State.setBoot_programs (s : State) (b : Boot) : (s.setBoot b).programs = s.programs := rfl
@[simp] theorem State.setBoot_ex (s : State) (b : Boot) : (s.setBoot b).ex = s.ex := rfl
@[simp] theorem State.setBoot_sv (s : State) (b : Boot) : (s.setBoot b).sv = s.sv := rfl
@[simp] theorem State.setBoot_kv (s : State) (b : Boot) : (s.setBoot b).kv = s.kv := rfl
@[simp] theorem State.setBoot_wt (s : State) (b : Boot) : (s.setBoot b).wt = s.wt := rfl
@[simp] theorem State.setBoot_loads (s : State) (b : Boot) : (s.setBoot b).loads = s.loads := rfl
@[simp] theorem State.setBoot_fab (s : State) (b : Boot) : (s.setBoot b).fab = s.fab := rfl
@[simp] theorem State.setBoot_hp (s : State) (b : Boot) : (s.setBoot b).hp = s.hp := rfl
@[simp] theorem State.setBoot_arb (s : State) (b : Boot) : (s.setBoot b).arb = s.arb := rfl
@[simp] theorem State.setBoot_integ (s : State) (b : Boot) : (s.setBoot b).integ = s.integ := rfl
@[simp] theorem State.setBoot_pw (s : State) (b : Boot) : (s.setBoot b).pw = s.pw := rfl
@[simp] theorem State.setBoot_trust (s : State) (b : Boot) : (s.setBoot b).trust = s.trust := rfl

@[simp] theorem State.setImage_pending (s : State) (b : Bool) (x : Image) : (s.setImage b x).pending = s.pending := rfl
@[simp] theorem State.setImage_tx (s : State) (b : Bool) (x : Image) : (s.setImage b x).tx = s.tx := rfl
@[simp] theorem State.setImage_regs (s : State) (b : Bool) (x : Image) : (s.setImage b x).regs = s.regs := rfl
@[simp] theorem State.setImage_mem (s : State) (b : Bool) (x : Image) : (s.setImage b x).mem = s.mem := rfl
@[simp] theorem State.setImage_freeCtr (s : State) (b : Bool) (x : Image) : (s.setImage b x).freeCtr = s.freeCtr := rfl
@[simp] theorem State.setImage_tb (s : State) (b : Bool) (x : Image) : (s.setImage b x).tb = s.tb := rfl
@[simp] theorem State.setImage_doms (s : State) (b : Bool) (x : Image) : (s.setImage b x).doms = s.doms := rfl
@[simp] theorem State.setImage_cores (s : State) (b : Bool) (x : Image) : (s.setImage b x).cores = s.cores := rfl
@[simp] theorem State.setImage_ms (s : State) (b : Bool) (x : Image) : (s.setImage b x).ms = s.ms := rfl
@[simp] theorem State.setImage_cxl (s : State) (b : Bool) (x : Image) : (s.setImage b x).cxl = s.cxl := rfl
@[simp] theorem State.setImage_pn (s : State) (b : Bool) (x : Image) : (s.setImage b x).pn = s.pn := rfl
@[simp] theorem State.setImage_claims (s : State) (b : Bool) (x : Image) : (s.setImage b x).claims = s.claims := rfl
@[simp] theorem State.setImage_barriers (s : State) (b : Bool) (x : Image) : (s.setImage b x).barriers = s.barriers := rfl
@[simp] theorem State.setImage_programs (s : State) (b : Bool) (x : Image) : (s.setImage b x).programs = s.programs := rfl
@[simp] theorem State.setImage_ex (s : State) (b : Bool) (x : Image) : (s.setImage b x).ex = s.ex := rfl
@[simp] theorem State.setImage_sv (s : State) (b : Bool) (x : Image) : (s.setImage b x).sv = s.sv := rfl
@[simp] theorem State.setImage_kv (s : State) (b : Bool) (x : Image) : (s.setImage b x).kv = s.kv := rfl
@[simp] theorem State.setImage_wt (s : State) (b : Bool) (x : Image) : (s.setImage b x).wt = s.wt := rfl
@[simp] theorem State.setImage_loads (s : State) (b : Bool) (x : Image) : (s.setImage b x).loads = s.loads := rfl
@[simp] theorem State.setImage_fab (s : State) (b : Bool) (x : Image) : (s.setImage b x).fab = s.fab := rfl
@[simp] theorem State.setImage_hp (s : State) (b : Bool) (x : Image) : (s.setImage b x).hp = s.hp := rfl
@[simp] theorem State.setImage_arb (s : State) (b : Bool) (x : Image) : (s.setImage b x).arb = s.arb := rfl
@[simp] theorem State.setImage_integ (s : State) (b : Bool) (x : Image) : (s.setImage b x).integ = s.integ := rfl
@[simp] theorem State.setImage_pw (s : State) (b : Bool) (x : Image) : (s.setImage b x).pw = s.pw := rfl
@[simp] theorem State.setImage_trust (s : State) (b : Bool) (x : Image) : (s.setImage b x).trust = s.trust := rfl

@[simp] theorem State.setBound_pending (s : State) (b : Word) : (s.setBound b).pending = s.pending := rfl
@[simp] theorem State.setBound_tx (s : State) (b : Word) : (s.setBound b).tx = s.tx := rfl
@[simp] theorem State.setBound_regs (s : State) (b : Word) : (s.setBound b).regs = s.regs := rfl
@[simp] theorem State.setBound_mem (s : State) (b : Word) : (s.setBound b).mem = s.mem := rfl
@[simp] theorem State.setBound_freeCtr (s : State) (b : Word) : (s.setBound b).freeCtr = s.freeCtr := rfl
@[simp] theorem State.setBound_doms (s : State) (b : Word) : (s.setBound b).doms = s.doms := rfl
@[simp] theorem State.setBound_cores (s : State) (b : Word) : (s.setBound b).cores = s.cores := rfl
@[simp] theorem State.setBound_ms (s : State) (b : Word) : (s.setBound b).ms = s.ms := rfl
@[simp] theorem State.setBound_cxl (s : State) (b : Word) : (s.setBound b).cxl = s.cxl := rfl
@[simp] theorem State.setBound_pn (s : State) (b : Word) : (s.setBound b).pn = s.pn := rfl
@[simp] theorem State.setBound_claims (s : State) (b : Word) : (s.setBound b).claims = s.claims := rfl
@[simp] theorem State.setBound_barriers (s : State) (b : Word) : (s.setBound b).barriers = s.barriers := rfl
@[simp] theorem State.setBound_programs (s : State) (b : Word) : (s.setBound b).programs = s.programs := rfl
@[simp] theorem State.setBound_ex (s : State) (b : Word) : (s.setBound b).ex = s.ex := rfl
@[simp] theorem State.setBound_sv (s : State) (b : Word) : (s.setBound b).sv = s.sv := rfl
@[simp] theorem State.setBound_kv (s : State) (b : Word) : (s.setBound b).kv = s.kv := rfl
@[simp] theorem State.setBound_wt (s : State) (b : Word) : (s.setBound b).wt = s.wt := rfl
@[simp] theorem State.setBound_loads (s : State) (b : Word) : (s.setBound b).loads = s.loads := rfl
@[simp] theorem State.setBound_fab (s : State) (b : Word) : (s.setBound b).fab = s.fab := rfl
@[simp] theorem State.setBound_hp (s : State) (b : Word) : (s.setBound b).hp = s.hp := rfl
@[simp] theorem State.setBound_arb (s : State) (b : Word) : (s.setBound b).arb = s.arb := rfl
@[simp] theorem State.setBound_integ (s : State) (b : Word) : (s.setBound b).integ = s.integ := rfl
@[simp] theorem State.setBound_pw (s : State) (b : Word) : (s.setBound b).pw = s.pw := rfl
@[simp] theorem State.setBound_trust (s : State) (b : Word) : (s.setBound b).trust = s.trust := rfl
@[simp] theorem State.setBound_boot (s : State) (b : Word) : (s.setBound b).boot = s.boot := rfl

@[simp] theorem State.flashWrite_pending (s : State) : (s.flashWrite).pending = s.pending := rfl
@[simp] theorem State.flashWrite_tx (s : State) : (s.flashWrite).tx = s.tx := rfl
@[simp] theorem State.flashWrite_regs (s : State) : (s.flashWrite).regs = s.regs := rfl
@[simp] theorem State.flashWrite_mem (s : State) : (s.flashWrite).mem = s.mem := rfl
@[simp] theorem State.flashWrite_freeCtr (s : State) : (s.flashWrite).freeCtr = s.freeCtr := rfl
@[simp] theorem State.flashWrite_tb (s : State) : (s.flashWrite).tb = s.tb := rfl
@[simp] theorem State.flashWrite_doms (s : State) : (s.flashWrite).doms = s.doms := rfl
@[simp] theorem State.flashWrite_cores (s : State) : (s.flashWrite).cores = s.cores := rfl
@[simp] theorem State.flashWrite_ms (s : State) : (s.flashWrite).ms = s.ms := rfl
@[simp] theorem State.flashWrite_cxl (s : State) : (s.flashWrite).cxl = s.cxl := rfl
@[simp] theorem State.flashWrite_pn (s : State) : (s.flashWrite).pn = s.pn := rfl
@[simp] theorem State.flashWrite_claims (s : State) : (s.flashWrite).claims = s.claims := rfl
@[simp] theorem State.flashWrite_barriers (s : State) : (s.flashWrite).barriers = s.barriers := rfl
@[simp] theorem State.flashWrite_programs (s : State) : (s.flashWrite).programs = s.programs := rfl
@[simp] theorem State.flashWrite_ex (s : State) : (s.flashWrite).ex = s.ex := rfl
@[simp] theorem State.flashWrite_sv (s : State) : (s.flashWrite).sv = s.sv := rfl
@[simp] theorem State.flashWrite_kv (s : State) : (s.flashWrite).kv = s.kv := rfl
@[simp] theorem State.flashWrite_wt (s : State) : (s.flashWrite).wt = s.wt := rfl
@[simp] theorem State.flashWrite_loads (s : State) : (s.flashWrite).loads = s.loads := rfl
@[simp] theorem State.flashWrite_fab (s : State) : (s.flashWrite).fab = s.fab := rfl
@[simp] theorem State.flashWrite_hp (s : State) : (s.flashWrite).hp = s.hp := rfl
@[simp] theorem State.flashWrite_arb (s : State) : (s.flashWrite).arb = s.arb := rfl
@[simp] theorem State.flashWrite_integ (s : State) : (s.flashWrite).integ = s.integ := rfl
@[simp] theorem State.flashWrite_pw (s : State) : (s.flashWrite).pw = s.pw := rfl
@[simp] theorem State.flashWrite_trust (s : State) : (s.flashWrite).trust = s.trust := rfl

end Sys2Proof.Machine
end

