-- ==== Sys2Proof/Laws/Tables.lean ====
section
/-! SUPPORT. Finite tables, and the registers, domains, cores and sites kept in them: what a write gives and what it leaves alone. -/

namespace Sys2Proof.Machine

/-! ## Tables -/

section
variable {α β : Type} [DecidableEq α]

@[simp] theorem Assoc.find_nil (k : α) : Assoc.find k ([] : List (α × β)) = none := rfl

theorem Assoc.find_cons (k : α) (p : α × β) (l : List (α × β)) :
    Assoc.find k (p :: l) = if p.1 = k then some p.2 else Assoc.find k l := rfl

theorem Assoc.find_put (k k' : α) (v : β) (l : List (α × β)) :
    Assoc.find k' (Assoc.put k v l) = if k = k' then some v else Assoc.find k' l := by
  induction l with
  | nil => simp [Assoc.put, Assoc.find]
  | cons p l ih =>
    by_cases h : p.1 = k
    · subst h; by_cases h' : p.1 = k' <;> simp [Assoc.put, Assoc.find, h']
    · by_cases h' : p.1 = k'
      · subst h'; simp [Assoc.put, Assoc.find, h, Ne.symm h]
      · simp [Assoc.put, Assoc.find, h, h', ih]

@[simp] theorem Assoc.find_put_self (k : α) (v : β) (l : List (α × β)) : Assoc.find k (Assoc.put k v l) = some v := by
  simp [Assoc.find_put]

theorem Assoc.find_put_ne {k k' : α} (h : k ≠ k') (v : β) (l : List (α × β)) :
    Assoc.find k' (Assoc.put k v l) = Assoc.find k' l := by
  simp [Assoc.find_put, h]

@[simp] theorem Assoc.getD_put_self (k : α) (d v : β) (l : List (α × β)) : Assoc.getD k d (Assoc.put k v l) = v := by
  simp [Assoc.getD]

theorem Assoc.getD_put_ne {k k' : α} (h : k ≠ k') (d v : β) (l : List (α × β)) :
    Assoc.getD k' d (Assoc.put k v l) = Assoc.getD k' d l := by
  simp [Assoc.getD, Assoc.find_put_ne h]

@[simp] theorem Assoc.put_put (k : α) (v w : β) (l : List (α × β)) : Assoc.put k w (Assoc.put k v l) = Assoc.put k w l := by
  induction l with
  | nil => simp [Assoc.put]
  | cons p l ih => by_cases h : p.1 = k <;> simp [Assoc.put, h, ih]

theorem Assoc.find_filter (f : α → Bool) (k : α) (l : List (α × β)) :
    Assoc.find k (l.filter (fun p => f p.1)) = if f k then Assoc.find k l else none := by
  induction l with
  | nil => simp
  | cons p l ih =>
    by_cases hf : f p.1
    · by_cases h : p.1 = k
      · subst h; simp [Assoc.find_cons, hf]
      · simp [Assoc.find_cons, hf, h, ih]
    · by_cases h : p.1 = k
      · subst h; simp [hf, ih]
      · simp [Assoc.find_cons, hf, h, ih]

theorem Assoc.find_del (k k' : α) (l : List (α × β)) :
    Assoc.find k' (Assoc.del k l) = if k = k' then none else Assoc.find k' l := by
  unfold Assoc.del
  rw [Assoc.find_filter (fun x => !decide (x = k))]
  by_cases h : k = k'
  · simp [h]
  · simp [h, Ne.symm h]

end

/-! ## Registers -/

theorem State.raw_setRaw (s : State) (k k' : RegKey) (v : Word) :
    (s.setRaw k v).raw k' = if k = k' then v else s.raw k' := by
  simp only [State.raw, State.setRaw, Assoc.getD, Assoc.find_put]
  split <;> simp_all

@[simp] theorem State.raw_setRaw_self (s : State) (k : RegKey) (v : Word) : (s.setRaw k v).raw k = v := by
  simp [State.raw_setRaw]

theorem State.raw_setRaw_ne (s : State) {k k' : RegKey} (h : k ≠ k') (v : Word) : (s.setRaw k v).raw k' = s.raw k' := by
  simp [State.raw_setRaw, h]

@[simp] theorem State.reg_setReg_self (s : State) (r : Reg) (i j : Nat) (v : Word) : (s.setReg r i j v).reg r i j = v := by
  simp [State.reg, State.setReg]

theorem State.raw_setReg (s : State) (r : Reg) (i j : Nat) (v : Word) (k : RegKey) :
    (s.setReg r i j v).raw k = if rk r i j = k then v else s.raw k := State.raw_setRaw _ _ _ _

/-- What a counter clear leaves: the reset value where it clears, and the old value elsewhere. -/
theorem State.raw_clearRegs (s : State) (f : RegKey → Bool) (k : RegKey) :
    (s.clearRegs f).raw k = if f k then k.reset else s.raw k := by
  simp only [State.raw, State.clearRegs, Assoc.getD, Assoc.find_filter (fun x => !f x)]
  by_cases h : f k <;> simp [h]

/-! ## Domains, cores, sites, sessions -/

@[simp] theorem State.dom_setDom_self (s : State) (n : Part) (d : Domain) : (s.setDom n d).dom n = d := by
  simp [State.dom, State.setDom]

theorem State.dom_setDom_ne (s : State) {n m : Part} (h : n ≠ m) (d : Domain) : (s.setDom n d).dom m = s.dom m := by
  simp [State.dom, State.setDom, Assoc.getD_put_ne h]

@[simp] theorem State.core_setCore_self (s : State) (c : CoreId) (x : Core) : (s.setCore c x).core c = x := by
  simp [State.core, State.setCore]

theorem State.core_setCore_ne (s : State) {c e : CoreId} (h : c ≠ e) (x : Core) : (s.setCore c x).core e = s.core e := by
  simp [State.core, State.setCore, Assoc.getD_put_ne h]

@[simp] theorem State.setCore_setCore (s : State) (c : CoreId) (x y : Core) : (s.setCore c x).setCore c y = s.setCore c y := by
  simp [State.setCore]

@[simp] theorem State.setDom_setDom (s : State) (n : Part) (d e : Domain) : (s.setDom n d).setDom n e = s.setDom n e := by
  simp [State.setDom]

@[simp] theorem State.updCore_eq (s : State) (c : CoreId) (f : Core → Core) : s.updCore c f = s.setCore c (f (s.core c)) := rfl

@[simp] theorem State.updDom_eq (s : State) (n : Part) (f : Domain → Domain) : s.updDom n f = s.setDom n (f (s.dom n)) := rfl

@[simp] theorem State.site_setSite_self (s : State) (i : SiteId) (x : Site) : (s.setSite i x).site i = x := by
  simp [State.site, State.setSite]

theorem State.site_setSite_ne (s : State) {i j : SiteId} (h : i ≠ j) (x : Site) : (s.setSite i x).site j = s.site j := by
  simp [State.site, State.setSite, Assoc.getD_put_ne h]

@[simp] theorem State.port_setPort_self (s : State) (p : Port) (x : FabPort) : (s.setPort p x).port p = x := by
  simp [State.port, State.setPort]

@[simp] theorem State.session_setSession_self (s : State) (n : Nat) (x : Session) : (s.setSession n x).session n = some x := by
  simp [State.session, State.setSession]

@[simp] theorem State.chan_setChan_self (s : State) (c : Nat) (x : Channel) : (s.setChan c x).chan c = some x := by
  simp [State.chan, State.setChan]

/-! ## Core registers (R190) -/

/-- s0 reads as zero whatever is written to it, and any other register reads as it was last written (R190). -/
theorem Core.rdS_wrS (x : Core) (d r : BitVec 5) (v : Word) :
    (x.wrS d v).rdS r = if r = 0 then 0 else if r = d then v else x.rdS r := by
  unfold Core.wrS Core.rdS
  by_cases hr : r = 0
  · simp only [hr, if_true]
  · by_cases hd : d = 0
    · have : r ≠ d := fun e => hr (e.trans hd)
      simp only [hr, hd, if_true, if_false]
    · by_cases h : r = d
      · subst h
        simp only [hr, if_true, if_false]
        exact Vector.getElem_set_self _
      · have : (ix5 d).val ≠ (ix5 r).val := by
          intro e; apply h; apply BitVec.eq_of_toNat_eq; simpa [ix5] using e.symm
        simp only [hr, hd, h, if_false]
        exact Vector.getElem_set_ne _ _ this

/-- p0 reads as 1 whatever is written to it (R190). -/
theorem Core.rdP_wrP (x : Core) (d r : BitVec 3) (v : Bool) :
    (x.wrP d v).rdP r = if r = 0 then true else if r = d then v else x.rdP r := by
  unfold Core.wrP Core.rdP
  by_cases hr : r = 0
  · simp only [hr, if_true]
  · by_cases hd : d = 0
    · have : r ≠ d := fun e => hr (e.trans hd)
      simp only [hr, hd, if_true, if_false]
    · by_cases h : r = d
      · subst h
        simp only [hr, if_true, if_false]
        exact Vector.getElem_set_self _
      · have : (ix3 d).val ≠ (ix3 r).val := by
          intro e; apply h; apply BitVec.eq_of_toNat_eq; simpa [ix3] using e.symm
        simp only [hr, hd, h, if_false]
        exact Vector.getElem_set_ne _ _ this

theorem Core.rdTd_wrTd (x : Core) (d r : BitVec 5) (v : Desc) :
    (x.wrTd d v).rdTd r = if r = d then v else x.rdTd r := by
  unfold Core.wrTd Core.rdTd
  by_cases h : r = d
  · subst h
    simp only [if_true]
    exact Vector.getElem_set_self _
  · have : (ix5 d).val ≠ (ix5 r).val := by
      intro e; apply h; apply BitVec.eq_of_toNat_eq; simpa [ix5] using e.symm
    simp only [h, if_false]
    exact Vector.getElem_set_ne _ _ this

end Sys2Proof.Machine
end

