-- ==== Sys2Proof/Laws/Issue.lean ====
section
/-! SUPPORT. What issue, the program counter and a fault of a segment can do, once for every instruction (R193 to R196, R212, R220,
R221, R225, R230). -/

namespace Sys2Proof.Machine

theorem lift_eq (f : State → State) (s : State) : lift f s = .next { f s with pending := s.pending } := rfl

/-! ## The program counter -/

/-- Control in sequence that reaches no loop's end only moves the program counter. -/
theorem Core.flow_seq (k : Nat) (x : Core) (nxt : Nat)
    (h : ∀ l ∈ x.loops.head?, x.openLoops = 0 ∨ nxt ≠ l.last + 1) : x.flow k nxt = some { x with pc := nxt } := by
  cases k with
  | zero => rfl
  | succ k =>
    unfold Core.flow
    split
    · rfl
    · rename_i l rest hl
      have := h l (by simp [hl])
      simp [this]

/-- Control that reaches the end of an open loop with passes left starts the next pass. -/
theorem Core.flow_again (k : Nat) (x : Core) (l : LoopFrame) (rest : List LoopFrame) (hl : x.loops = l :: rest)
    (ho : x.openLoops ≠ 0) (again : (match l.count with
      | some n => decide (l.pass + 1 < n)
      | none => x.rdP l.pred) = true) (hb : (l.count.isNone && decide (4 * l.bound ≤ l.pass + 1)) = false) :
    x.flow (k + 1) (l.last + 1)
      = some (Core.wrS { x with loops := { l with pass := l.pass + 1 } :: rest, pc := l.first } l.index
          (BitVec.ofNat 64 (l.pass + 1))) := by
  unfold Core.flow
  rw [hl]
  simp [ho, hb]
  intro h
  exact Bool.noConfusion (again.symm.trans h)

/-- Control that reaches the end of an open loop with no pass left leaves it. -/
theorem Core.flow_leave (k : Nat) (x : Core) (l : LoopFrame) (rest : List LoopFrame) (hl : x.loops = l :: rest)
    (ho : x.openLoops ≠ 0) (again : (match l.count with
      | some n => decide (l.pass + 1 < n)
      | none => x.rdP l.pred) = false) :
    x.flow (k + 1) (l.last + 1) = Core.flow k { x with loops := rest } (l.last + 1) := by
  conv => lhs; unfold Core.flow
  rw [hl]
  simp [ho]
  intro h
  exact Bool.noConfusion (h.symm.trans again)

/-- Moving on where no loop ends. -/
theorem State.advance_seq (s : State) (c : CoreId) (n : Nat)
    (h : ∀ l ∈ (s.core c).loops.head?, (s.core c).openLoops = 0 ∨ (s.core c).pc + n ≠ l.last + 1) :
    s.advance c n = s.setCore c { s.core c with pc := (s.core c).pc + n } := by
  unfold State.advance
  simp only [Core.flow_seq 9 (s.core c) _ h]

/-! ## Issue -/

/-- The sequencer cannot issue: nothing. -/
theorem issue_idle (c : CoreId) (i : IssueForm) (k : Nat) (b : State → State) (s : State)
    (h : (s.core c).canIssue = false ∨ s.pw.down.isSome = true) : issue c i k b s = s := by
  unfold issue
  rcases h with h | h <;> simp [h]

/-- Control outside the code or on a literal is 0x0303. -/
theorem issue_badPc (c : CoreId) (i : IssueForm) (k : Nat) (b : State → State) (s : State) (p : Program)
    (h1 : (s.core c).canIssue = true) (h2 : s.pw.down = none) (h3 : s.program ((s.partOf c).getD 0) = some p)
    (h4 : p.badPc (s.core c).pc = true) : issue c i k b s = s.kill c 0x0303 := by
  simp [issue, h1, h2, h3, h4]

/-- What the rest of issue rests on: the sequencer issues, and control is on a word of the code. -/
def State.onCode (s : State) (c : CoreId) : Prop :=
  (s.core c).canIssue = true ∧ s.pw.down = none
    ∧ ∀ p, s.program ((s.partOf c).getD 0) = some p → p.badPc (s.core c).pc = false

theorem State.onCode.onCode_any {s : State} {c : CoreId} (h : s.onCode c) :
    (s.program ((s.partOf c).getD 0)).any (fun p => p.badPc (s.core c).pc) = false := by
  have := h.2.2
  cases hp : s.program ((s.partOf c).getD 0) with
  | none => rfl
  | some p => simp [this p hp]

/-- A reserved bit or code is 0x0302. -/
theorem issue_reserved (c : CoreId) (i : IssueForm) (k : Nat) (b : State → State) (s : State) (h : s.onCode c)
    (hr : i.reserved = true) : issue c i k b s = s.kill c 0x0302 := by
  have h0 := h.onCode_any
  simp only [issue, h.1, h.2.1, h0, hr]
  simp

/-- A failed guard passes the instruction over. -/
theorem issue_guard (c : CoreId) (i : IssueForm) (k : Nat) (b : State → State) (s : State) (h : s.onCode c)
    (hr : i.reserved = false) (hg : (s.core c).guardPasses i.guard = false) : issue c i k b s = s.advance c k := by
  have h0 := h.onCode_any
  simp only [issue, h.1, h.2.1, h0, hr, hg]
  simp

/-- An instruction that must not stand in an audit unit is 0x030E in one. -/
theorem issue_audit (c : CoreId) (i : IssueForm) (k : Nat) (b : State → State) (s : State) (h : s.onCode c)
    (hr : i.reserved = false) (hg : (s.core c).guardPasses i.guard = true) (ha : (s.core c).audit.isSome = true)
    (hi : i.inAudit = false) : issue c i k b s = s.kill c 0x030E := by
  have h0 := h.onCode_any
  simp only [issue, h.1, h.2.1, h0, hr, hg, ha, hi]
  simp

/-- An instruction that reads a late register waits. -/
theorem issue_late (c : CoreId) (i : IssueForm) (k : Nat) (b : State → State) (s : State) (h : s.onCode c)
    (hr : i.reserved = false) (hg : (s.core c).guardPasses i.guard = true)
    (ha : i.inAudit = true ∨ (s.core c).audit = none) (d : Dest) (hd : d ∈ i.reads) (hl : (s.core c).isLate d = true) :
    issue c i k b s = s := by
  have h0 := h.onCode_any
  have h1 : ((s.core c).audit.isSome && !i.inAudit) = false := by rcases ha with ha | ha <;> simp [ha]
  have h2 : i.reads.any (s.core c).isLate = true := List.any_eq_true.2 ⟨d, hd, hl⟩
  simp only [issue, h.1, h.2.1, h0, hr, hg, h1, h2]
  simp

/-- Otherwise the instruction has its own effect. -/
theorem issue_runs (c : CoreId) (i : IssueForm) (k : Nat) (b : State → State) (s : State) (h : s.onCode c)
    (hr : i.reserved = false) (hg : (s.core c).guardPasses i.guard = true)
    (ha : i.inAudit = true ∨ (s.core c).audit = none) (hl : ∀ d ∈ i.reads, (s.core c).isLate d = false) :
    issue c i k b s = b s := by
  have h0 := h.onCode_any
  have h1 : ((s.core c).audit.isSome && !i.inAudit) = false := by rcases ha with ha | ha <;> simp [ha]
  have h2 : i.reads.any (s.core c).isLate = false := by simpa using hl
  simp only [issue, h.1, h.2.1, h0, hr, hg, h1, h2]
  simp

/-- An instruction that only changes its core and goes on where no loop ends. -/
theorem onCore_seq (c : CoreId) (n : Nat) (f : Core → Core) (s : State)
    (hp : (f (s.core c)).pc = (s.core c).pc) (hl : (f (s.core c)).loops = (s.core c).loops)
    (hc : (f (s.core c)).calls = (s.core c).calls)
    (h : ∀ l ∈ (s.core c).loops.head?, (s.core c).openLoops = 0 ∨ (s.core c).pc + n ≠ l.last + 1) :
    onCore c n f s = s.setCore c { f (s.core c) with pc := (s.core c).pc + n } := by
  unfold onCore State.updCore
  rw [State.advance_seq]
  · simp [hp]
  · simpa [hp, hl, hc, Core.openLoops] using h

end Sys2Proof.Machine
end

