-- ==== Sys2Proof/Laws/Memory.lean ====
section
/-! SUPPORT. Memory: a byte written reads back, every other byte stays, and every operation keeps the canonical form. -/

namespace Sys2Proof.Machine

/-! ## Lists of cells -/

/-- Every address of a list lies above `a`. -/
def cellsAbove (a : Nat) (l : List Host.Cell) : Prop := ∀ c ∈ l, a < c.1

theorem cellsRising_cons (c : Host.Cell) (l : List Host.Cell) : cellsRising (c :: l) = true ↔ cellsAbove c.1 l ∧ cellsRising l = true := by
  induction l generalizing c with
  | nil => simp [cellsRising, cellsAbove]
  | cons d l ih =>
    obtain ⟨a, v⟩ := c
    obtain ⟨b, w⟩ := d
    simp only [cellsRising, Bool.and_eq_true, decide_eq_true_eq, cellsAbove, List.mem_cons, forall_eq_or_imp]
    refine ⟨fun ⟨h, k⟩ => ⟨⟨h, fun c hc => ?_⟩, k⟩, fun ⟨⟨h, _⟩, k⟩ => ⟨h, k⟩⟩
    exact Nat.lt_trans h ((ih (b, w)).1 k |>.1 c hc)

theorem cellsFind_above (a : Nat) (l : List Host.Cell) (h : cellsAbove a l) : cellsFind a l = none := by
  induction l with
  | nil => rfl
  | cons c l ih =>
    have h1 : a < c.1 := h c (List.mem_cons_self ..)
    rw [cellsFind, if_neg (by omega)]
    exact ih (fun d hd => h d (List.mem_cons_of_mem _ hd))

theorem cellsFind_put (a b : Nat) (v : Byte) (l : List Host.Cell) :
    cellsFind b (cellsPut a v l) = if b = a then some v else cellsFind b l := by
  induction l with
  | nil => simp only [cellsPut, cellsFind, eq_comm]
  | cons c l ih =>
    obtain ⟨d, w⟩ := c
    simp only [cellsPut]
    split
    · simp only [cellsFind, @eq_comm _ a b]
    · split
      · next h =>
        subst h
        simp only [cellsFind, @eq_comm _ b d]
        split <;> rfl
      · next h1 h2 =>
        simp only [cellsFind, ih]
        by_cases hd : d = b
        · subst hd; rw [if_pos rfl, if_pos rfl, if_neg h2]
        · rw [if_neg hd, if_neg hd]

theorem cellsFind_del (a b : Nat) (l : List Host.Cell) : cellsFind b (cellsDel a l) = if b = a then none else cellsFind b l := by
  induction l with
  | nil => simp [cellsDel, cellsFind]
  | cons c l ih =>
    obtain ⟨d, w⟩ := c
    simp only [cellsDel]
    split
    · next h =>
      subst h
      rw [ih]
      simp only [cellsFind, @eq_comm _ d b]
      split <;> rfl
    · next h =>
      simp only [cellsFind, ih]
      by_cases hd : d = b
      · subst hd; rw [if_pos rfl, if_pos rfl, if_neg h]
      · rw [if_neg hd, if_neg hd]

theorem cellsPut_mem (a : Nat) (v : Byte) (l : List Host.Cell) (c : Host.Cell) (h : c ∈ cellsPut a v l) : c = (a, v) ∨ c ∈ l := by
  induction l with
  | nil => simpa [cellsPut] using h
  | cons d l ih =>
    obtain ⟨b, w⟩ := d
    simp only [cellsPut] at h
    split at h
    · simpa using h
    · split at h
      · rcases List.mem_cons.1 h with h | h
        · exact .inl h
        · exact .inr (List.mem_cons_of_mem _ h)
      · rcases List.mem_cons.1 h with h | h
        · exact .inr (h ▸ List.mem_cons_self ..)
        · exact (ih h).imp_right (List.mem_cons_of_mem _)

theorem cellsDel_mem (a : Nat) (l : List Host.Cell) (c : Host.Cell) (h : c ∈ cellsDel a l) : c ∈ l := by
  induction l with
  | nil => exact h
  | cons d l ih =>
    obtain ⟨b, w⟩ := d
    simp only [cellsDel] at h
    split at h
    · exact List.mem_cons_of_mem _ (ih h)
    · rcases List.mem_cons.1 h with h | h
      · exact h ▸ List.mem_cons_self ..
      · exact List.mem_cons_of_mem _ (ih h)

theorem cellsPut_rising (a : Nat) (v : Byte) (l : List Host.Cell) (h : cellsRising l = true) : cellsRising (cellsPut a v l) = true := by
  induction l with
  | nil => rfl
  | cons d l ih =>
    obtain ⟨b, w⟩ := d
    obtain ⟨hb, hl⟩ := (cellsRising_cons _ _).1 h
    simp only [cellsPut]
    split
    · next hab =>
      refine (cellsRising_cons _ _).2 ⟨fun c hc => ?_, h⟩
      rcases List.mem_cons.1 hc with hc | hc
      · exact hc ▸ hab
      · exact Nat.lt_trans hab (hb c hc)
    · split
      · next hba => exact (cellsRising_cons _ _).2 ⟨fun c hc => hba ▸ hb c hc, hl⟩
      · next h1 h2 =>
        refine (cellsRising_cons _ _).2 ⟨fun c hc => ?_, ih hl⟩
        rcases cellsPut_mem a v l c hc with hc | hc
        · subst hc; simp only; omega
        · exact hb c hc

theorem cellsDel_rising (a : Nat) (l : List Host.Cell) (h : cellsRising l = true) : cellsRising (cellsDel a l) = true := by
  induction l with
  | nil => rfl
  | cons d l ih =>
    obtain ⟨b, w⟩ := d
    obtain ⟨hb, hl⟩ := (cellsRising_cons _ _).1 h
    simp only [cellsDel]
    split
    · exact ih hl
    · exact (cellsRising_cons _ _).2 ⟨fun c hc => hb c (cellsDel_mem a l c hc), ih hl⟩

theorem cellsFilter_rising (p : Host.Cell → Bool) (l : List Host.Cell) (h : cellsRising l = true) : cellsRising (l.filter p) = true := by
  induction l with
  | nil => rfl
  | cons d l ih =>
    obtain ⟨hb, hl⟩ := (cellsRising_cons _ _).1 h
    simp only [List.filter_cons]
    split
    · exact (cellsRising_cons _ _).2 ⟨fun c hc => hb c (List.mem_of_mem_filter hc), ih hl⟩
    · exact ih hl

theorem cellsFind_filter (p : Nat → Bool) (a : Nat) (l : List Host.Cell) :
    cellsFind a (l.filter (fun c => p c.1)) = if p a then cellsFind a l else none := by
  induction l with
  | nil => simp [cellsFind]
  | cons c l ih =>
    obtain ⟨b, w⟩ := c
    simp only [List.filter_cons]
    split
    · next h =>
      simp only [cellsFind, ih]
      split
      · next hb => subst hb; rw [if_pos h]
      · rfl
    · next h =>
      rw [ih]
      simp only [cellsFind]
      split
      · next hp =>
        rw [if_neg]
        intro hb; subst hb; exact h hp
      · rfl

/-! ## Reads after writes -/

@[simp] theorem Memory.dflt_write (m : Memory) (a b : Nat) (v : Byte) : (m.write a v).dflt b = m.dflt b := rfl

/-- A byte written reads back; every other byte is as before. -/
theorem Memory.read_write (m : Memory) (a b : Nat) (v : Byte) : (m.write a v).read b = if b = a then v else m.read b := by
  unfold Memory.read Memory.write
  by_cases h : v = m.dflt a
  · simp only [h, if_true, cellsFind_del, Memory.dflt]
    split
    · next hb => subst hb; rfl
    · rfl
  · simp only [h, if_false, cellsFind_put]
    split <;> rfl

@[simp] theorem Memory.read_write_self (m : Memory) (a : Nat) (v : Byte) : (m.write a v).read a = v := by rw [Memory.read_write]; simp

theorem Memory.read_write_ne (m : Memory) {a b : Nat} (v : Byte) (h : b ≠ a) : (m.write a v).read b = m.read b := by
  rw [Memory.read_write]; simp [h]

/-- What bytes written at rising addresses leave. -/
theorem Memory.read_writeBytes (m : Memory) (a b : Nat) (l : List Byte) :
    (m.writeBytes a l).read b = if a ≤ b ∧ b < a + l.length then l.getD (b - a) 0 else m.read b := by
  induction l generalizing m a with
  | nil => rw [Memory.writeBytes, if_neg (by simp only [List.length_nil]; omega)]
  | cons v l ih =>
    rw [Memory.writeBytes, ih, Memory.read_write, List.length_cons]
    by_cases h1 : b = a
    · subst h1
      rw [if_neg (by omega), if_pos rfl, if_pos (by omega), Nat.sub_self]; rfl
    · rw [if_neg h1]
      by_cases h2 : a + 1 ≤ b ∧ b < a + 1 + l.length
      · rw [if_pos h2, if_pos (by omega), show b - a = (b - (a + 1)) + 1 by omega]; rfl
      · rw [if_neg h2, if_neg (by omega)]

/-- The bytes written read back. -/
theorem Memory.readBytes_writeBytes (m : Memory) (a : Nat) (l : List Byte) : (m.writeBytes a l).readBytes a l.length = l := by
  unfold Memory.readBytes
  apply List.ext_getElem
  · simp
  · intro i h1 h2
    simp only [List.getElem_map, List.getElem_range, Memory.read_writeBytes]
    rw [if_pos (by omega), Nat.add_sub_cancel_left, List.getD_eq_getElem?_getD, List.getElem?_eq_getElem h2]; rfl

/-- Forgetting a range leaves every byte outside it. -/
theorem Memory.read_blur_out (m : Memory) (lo hi a : Nat) (k : Blur) (h : a < lo ∨ hi ≤ a) : (m.blur lo hi k).read a = m.read a := by
  have e : cellsFind a (m.cells.filter (fun c => decide (c.1 < lo ∨ hi ≤ c.1))) = cellsFind a m.cells := by
    rw [cellsFind_filter (fun b => decide (b < lo ∨ hi ≤ b)), if_pos (by simpa using h)]
  unfold Memory.read Memory.dflt Memory.blur
  simp only [e, blurAt]
  rw [if_neg (by omega)]

/-- A range cleared reads as zero. -/
theorem Memory.read_blur_zero (m : Memory) (lo hi a : Nat) (h1 : lo ≤ a) (h2 : a < hi) : (m.blur lo hi .zero).read a = 0 := by
  have e : cellsFind a (m.cells.filter (fun c => decide (c.1 < lo ∨ hi ≤ c.1))) = none := by
    rw [cellsFind_filter (fun b => decide (b < lo ∨ hi ≤ b)), if_neg (by simp; omega)]
  unfold Memory.read Memory.dflt Memory.blur
  simp only [e, blurAt]
  rw [if_pos ⟨h1, h2⟩]; rfl

/-! ## The canonical form -/

theorem Memory.wf_write (m : Memory) (a : Nat) (v : Byte) (h : m.wf) : (m.write a v).wf := by
  unfold Memory.wf Memory.write
  by_cases hv : v = m.dflt a
  · rw [if_pos hv]
    exact ⟨cellsDel_rising a _ h.1, fun c hc => h.2 c (cellsDel_mem a _ c hc)⟩
  · rw [if_neg hv]
    refine ⟨cellsPut_rising a v _ h.1, fun c hc => ?_⟩
    rcases cellsPut_mem a v _ c hc with hc | hc
    · subst hc; exact hv
    · exact h.2 c hc

theorem Memory.wf_writeBytes (m : Memory) (a : Nat) (l : List Byte) (h : m.wf) : (m.writeBytes a l).wf := by
  induction l generalizing m a with
  | nil => exact h
  | cons v l ih => exact ih _ _ (m.wf_write a v h)

theorem Memory.wf_blur (m : Memory) (lo hi : Nat) (k : Blur) (h : m.wf) : (m.blur lo hi k).wf := by
  refine ⟨cellsFilter_rising _ _ h.1, fun c hc => ?_⟩
  have h1 := h.2 c (List.mem_of_mem_filter hc)
  have h2 : c.1 < lo ∨ hi ≤ c.1 := by simpa using (List.mem_filter.1 hc).2
  unfold Memory.dflt Memory.blur
  simp only [blurAt]
  rw [if_neg (by omega)]
  exact h1

theorem Memory.wf_foldl_write (f : Host.Cell → Nat) (l : List Host.Cell) (m : Memory) (h : m.wf) :
    (l.foldl (fun t c => t.write (f c) c.2) m).wf := by
  induction l generalizing m with
  | nil => exact h
  | cons c l ih => exact ih _ (m.wf_write _ _ h)

theorem Memory.wf_foldl_bytes (f : Nat → List Byte) (l : List Nat) (m : Memory) (h : m.wf) :
    (l.foldl (fun t a => t.writeBytes a (f a)) m).wf := by
  induction l generalizing m with
  | nil => exact h
  | cons c l ih => exact ih _ (m.wf_writeBytes _ _ h)

theorem Memory.wf_recode (m : Memory) (lo hi : Nat) (r : Recode) (h : m.wf) : (m.recode lo hi r).wf :=
  Memory.wf_foldl_bytes _ _ _ (m.wf_blur _ _ _ h)

theorem Memory.wf_copyRange (m : Memory) (src dst n seed : Nat) (h : m.wf) : (m.copyRange src dst n seed).wf :=
  Memory.wf_foldl_write _ _ _ (m.wf_blur _ _ _ h)

/-- A store into the state's memory keeps its form. -/
theorem State.wf_store (s : State) (a : Nat) (bs : List Byte) (h : s.mem.wf) : (s.store a bs).mem.wf := Memory.wf_writeBytes _ _ _ h

/-- The memory of the state after reset has the form. -/
theorem State.wf_reset : State.reset.mem.wf := by decide

end Sys2Proof.Machine
end

