-- ==== Sys2Proof/WellFormed.lean ====
section
/-! DEFINITION. Well-formed commands: every operand that stands for a field of a frame, packet or record fits the field's
width in the spec. A command outside these is one that no sender can put on a wire. -/

namespace Sys2Proof

/-- A session number of 4 bytes and a body of at most 16 MiB (R434, R442). -/
def Frame.wf (f : Frame) : Bool := decide (f.session < 2 ^ 32) && decide (f.body.length ≤ 16777216)

/-- The byte fields of a management body (R416). -/
def Mgmt.wf (m : Mgmt) : Bool := decide (m.run < 256) && decide (m.seg < 256) && decide (m.module < 256)

/-- A forwarded command carries a well-formed frame. -/
def HostCmd.wf (h : HostCmd) : Bool := h.frame.wf

/-- A flit of 240 payload bytes on one codeword or two; the command is that of its `TYPE`, or any where its `TYPE` is reserved (R381,
R382). -/
def Flit.wf (f : Flit) (typ : Nat) : Bool :=
  (decide (f.errs.length = 1) || decide (f.errs.length = 2)) && f.errs.all (fun e => decide (e ≤ 544))
    && decide (f.payload.length ≤ 240) && (decide (f.typ.toNat = typ) || decide (4 < f.typ.toNat))

/-- 18 physical lanes (R376). -/
def TrainFind.wf (f : TrainFind) : Bool := decide (f.seen.length = 18) && decide (f.counts.length = 18)

/-- RUN, SEGMENT and LEN of a packet, and a payload of at most LEN bytes for an operation that carries one (R404). -/
def Packet.wf (p : Packet) : Bool :=
  decide (p.run ≤ 64) && decide (p.seg < 64) && decide (p.len ≤ 4096) && decide (p.len % 8 = 0)
    && decide (p.payload.length ≤ 4096)

/-- Fields of an exchange segment (R253, R404). -/
def ExSegment.wf (x : ExSegment) : Bool :=
  decide (x.seg < 64) && decide (x.run ≤ 64) && decide (x.round < 65536) && decide (x.rowsField < 2 ^ 32)
    && decide (x.rowBytes < 2 ^ 32) && x.runs.all (fun r => decide (r.1 < 65536 ∧ r.2 < 2 ^ 32))
    && x.rows.all (fun r => decide (r.batchRow < 2 ^ 32 ∧ r.rank < 256)) && x.counts.all (fun c => decide (c < 2 ^ 32))

/-- WINDOW and SESSION of a Brosin header (R434). -/
def BrosinHdr.wf (h : BrosinHdr) (typ payload : Nat) : Bool :=
  decide (h.window ≤ 1024) && decide (h.session < 2 ^ 32) && decide (h.len < 2 ^ 16) && decide (h.udp = payload)
    && (decide (h.typ.toNat = typ) || decide (h.typ = 0) || decide (10 < h.typ.toNat))

/-- A failed residue check is on one of 64 tokens and on a K position that a tile can have; residues differ modulo 127 (R117,
R120, R137). -/
def ResidueErr.wf (e : ResidueErr) : Bool :=
  decide (e.token < 64) && decide (e.pos < 4096) && decide (1 ≤ e.delta) && decide (e.delta ≤ 126)

/-- Residues of ballast differ modulo 127 (R137, R153). -/
def EstimateInput.wf (e : EstimateInput) : Bool := e.errs.all (fun x => decide (1 ≤ x.delta) && decide (x.delta ≤ 126))

/-- A CXL link trains at x16 or x8 and at 64 or 32 GT/s (R320). -/
def CxlDevice.wf (d : CxlDevice) : Bool := [16, 8].contains d.width && [64, 32].contains d.rate

/-- GDDR7 trains at 40, 36, 32 or 28 Gbit/s, each memory-port die at a rate of its own (R313). -/
def StageResult.wf (r : StageResult) : Bool := decide (r.mdRates.length ≤ 4) && r.mdRates.all (fun x => [40, 36, 32, 28].contains x)

/-- The check of every command. -/
def Instr.wf : Instr → Bool
  | .registerWrite _ _ => true
  | .domEnable _ => true
  | .domDisable _ => true
  | .mxResidueInject _ _ => true
  | .lxQstatClear _ _ _ => true
  | .mxCtrClear _ _ => true
  | .vxCtrClear _ _ => true
  | .txCtrClear _ _ => true
  | .lxCtrClear _ _ => true
  | .exCtrClear _ _ => true
  | .svCtrClear _ _ => true
  | .svPCtrClear _ _ _ => true
  | .kvCtrClear _ _ => true
  | .memCtrClear _ => true
  | .cxlCtrClear _ _ => true
  | .pnCtrClear _ _ => true
  | .fabCtrClear _ => true
  | .ceCtrClear _ _ => true
  | .hpCtrClear _ => true
  | .nxCtrClear _ => true
  | .arbCtrClear _ => true
  | .intCtrClear _ => true
  | .derCtrClear _ => true
  | .pwrCtrClear _ => true
  | .fwlCtrClear _ => true
  | .memCtrlWrite _ => true
  | .memIlvSizeWrite _ => true
  | .memClearDone => true
  | .pnSizeWrite _ _ => true
  | .pnPQuotaWrite _ _ _ => true
  | .fabPortRetrain _ _ => true
  | .fabPortCtrlWrite _ _ => true
  | .pwrCapWrite _ _ => true
  | .pwrHeartbeatWrite _ => true
  | .pwrHbCtrlWrite _ => true
  | .timeSyncSend _ => true
  | .timeSync _ _ _ _ _ _ => true
  | .tbUnlocked _ => true
  | .tbPathFail => true
  | .ptpSync _ => true
  | .ppsOutPulse => true
  | .ppsInEdge => true
  | .tickStart _ => true
  | .voteCast _ => true
  | .waitFrameSend _ => true
  | .vote m => m.wf
  | .wait m => m.wf
  | .pass m => m.wf
  | .retract m => m.wf
  | .retractAck m => m.wf
  | .abort m => m.wf
  | .commit m => m.wf
  | .commitApply _ => true
  | .silentTimeout _ _ => true
  | .rejoinTimeout _ => true
  | .masterFailover _ => true
  | .settings m _ => m.wf
  | .admissionClose _ => true
  | .nop _ _ => true
  | .br _ _ => true
  | .call _ _ => true
  | .ret _ _ => true
  | .loop _ _ => true
  | .loopw _ _ => true
  | .breakLoop _ _ => true
  | .segend _ _ => true
  | .stepend _ _ => true
  | .trap _ _ => true
  | .illegalOpcode _ _ => true
  | .add _ _ => true
  | .sub _ _ => true
  | .mul _ _ => true
  | .mulh _ _ => true
  | .and _ _ => true
  | .or _ _ => true
  | .xor _ _ => true
  | .shl _ _ => true
  | .shr _ _ => true
  | .sra _ _ => true
  | .min _ _ => true
  | .max _ _ => true
  | .clz _ _ => true
  | .addi _ _ => true
  | .li _ _ _ => true
  | .sel _ _ => true
  | .cmp _ _ => true
  | .plog _ _ => true
  | .ld _ _ => true
  | .st _ _ => true
  | .atom _ _ => true
  | .rdsr _ _ => true
  | .waitv _ _ => true
  | .waitvPoll _ => true
  | .tdld _ _ => true
  | .tdst _ _ => true
  | .tdmov _ _ => true
  | .tdset _ _ => true
  | .tdget _ _ => true
  | .tdadd _ _ => true
  | .tdseti _ _ _ => true
  | .qopen _ _ => true
  | .qclose _ _ => true
  | .qsync _ _ => true
  | .qstat _ _ => true
  | .streamStall _ _ => true
  | .waitLimit _ => true
  | .mxld _ _ => true
  | .mxLoadComplete _ _ => true
  | .mxrun _ f => f.err.all ResidueErr.wf
  | .mxout _ _ => true
  | .mxsave _ _ => true
  | .mxrst _ _ => true
  | .mxwalk _ f => f.err.all ResidueErr.wf
  | .vxFp32Op _ _ => true
  | .vxInt32Op _ _ => true
  | .vxTranscendental _ _ => true
  | .vxRowReduction _ _ => true
  | .vxCvt _ _ => true
  | .vxLadd _ _ => true
  | .quant _ _ => true
  | .dequant _ _ => true
  | .convert _ _ => true
  | .transpose _ _ => true
  | .gather _ _ => true
  | .scatter _ _ => true
  | .tld _ _ => true
  | .tst _ _ => true
  | .route _ _ => true
  | .dispatch _ _ => true
  | .waitin _ _ => true
  | .returnRows _ _ => true
  | .combine _ _ => true
  | .exQuery _ _ => true
  | .countRecord _ x => x.wf
  | .dispatchSegment _ x => x.wf
  | .returnSegment _ x => x.wf
  | .shipSegment _ x => x.wf
  | .exCountTimeout _ _ => true
  | .exDataTimeout _ _ => true
  | .alloc _ _ => true
  | .kvPage _ _ => true
  | .draftsync _ _ => true
  | .yield _ _ => true
  | .kvPageCopyDone _ _ entry => decide (entry < 65536)
  | .sample _ _ => true
  | .stopchk _ _ => true
  | .claim _ _ => true
  | .fence _ _ => true
  | .bar _ _ => true
  | .allreduceSum _ _ => true
  | .reduceSum _ _ => true
  | .reduceScatterSum _ _ => true
  | .allreduceMax _ _ => true
  | .allgather _ _ => true
  | .broadcast _ _ => true
  | .barrier _ _ => true
  | .cwait _ _ => true
  | .digest _ _ => true
  | .audb _ _ => true
  | .aude _ _ => true
  | .memScrub _ bad => decide (bad < 69)
  | .frameRetireCopyDone _ frame => decide (frame < 2 ^ 29)
  | .cxlTrained _ dev => dev.wf
  | .cxlLinkDown _ => true
  | .cxlTimeout _ _ => true
  | .pnFillComplete _ => true
  | .tcEpochEnd => true
  | .tcCopyDone frame => decide (frame < 2 ^ 29)
  | .tcHitFallback frame => decide (frame < 2 ^ 29)
  | .modelLoad f => f.wf
  | .manifestReceive m _ _ => m.wf
  | .report m _ shard => m.wf && decide (shard < 65536)
  | .shardFetchStart _ _ shard => decide (shard < 65536)
  | .shardVerify _ _ shard _ => decide (shard < 65536)
  | .shardFetchTimeout _ _ shard => decide (shard < 65536)
  | .shardRetryTimer _ _ shard => decide (shard < 65536)
  | .shardResendRequest _ _ shard _ => decide (shard < 65536)
  | .modelActivate f => f.wf
  | .modelDrop f => f.wf
  | .modelRepair f => f.wf
  | .modelQuery f => f.wf
  | .laneSerWindow _ _ count => decide (count < 2 ^ 32)
  | .laneLockLoss _ _ => true
  | .laneCtl _ _ _ x => x.flit.wf 4 && decide (x.pair < 16)
  | .laneMoveTimeout _ => true
  | .dataFlit _ fl => fl.wf 1
  | .nak _ fl => fl.wf 2
  | .idleFlit _ fl => fl.wf 0
  | .linkNakLimit _ => true
  | .linkRxTimeout _ => true
  | .portTrain _ => true
  | .trainStageComplete _ found => found.wf
  | .trainStageTimeout _ => true
  | .ident _ fl => fl.wf 3
  | .fabricMap f => f.wf
  | .linkState m _ _ => m.wf
  | .linkStateTimer => true
  | .read pk => pk.wf
  | .write pk => pk.wf
  | .atomAdd pk => pk.wf
  | .atomMax pk => pk.wf
  | .atomCas pk => pk.wf
  | .atomSwap pk => pk.wf
  | .atomLadd pk => pk.wf
  | .readResp pk => pk.wf
  | .writeAck pk => pk.wf
  | .atomResp pk => pk.wf
  | .collPart pk => pk.wf
  | .collResult pk => pk.wf
  | .fabDeadTimeout _ => true
  | .fabHeldTimeout _ => true
  | .ceCollTimeout _ _ inst => decide (inst < 2 ^ 32)
  | .hostLaneFail _ => true
  | .arpRequest _ => true
  | .neighborSolicitation _ => true
  | .echoRequest _ _ _ => true
  | .mkaFrame _ => true
  | .openReq _ _ h payload => h.wf 1 payload.length
  | .openOk h payload => h.wf 2 payload.length
  | .close h payload => h.wf 3 payload.length
  | .data h payload => h.wf 4 payload.length
  | .ack h payload => h.wf 5 payload.length
  | .keepalive h payload => h.wf 6 payload.length
  | .eventAck h payload => h.wf 8 payload.length
  | .net h payload => h.wf 9 payload.length
  | .ackTimer session => decide (session < 2 ^ 32)
  | .brosinRto session => decide (session < 2 ^ 32)
  | .keepaliveTimer session => decide (session < 2 ^ 32)
  | .sessionTimeout session => decide (session < 2 ^ 32)
  | .hostNop f => f.wf
  | .unknownCommand _ f => f.wf
  | .submit f => f.wf
  | .cancel f => f.wf
  | .forward m f => m.wf && f.wf
  | .intake m cmds => m.wf && cmds.all HostCmd.wf
  | .resultRead f => f.wf
  | .resultAck f => f.wf
  | .programInstall f => f.wf
  | .programRemove f => f.wf
  | .pnLoad f => f.wf
  | .pnPin f => f.wf
  | .pnUnpin f => f.wf
  | .pnDrop f => f.wf
  | .pnQuery f => f.wf
  | .memRead f => f.wf
  | .memWrite f => f.wf
  | .regRead f => f.wf
  | .regWrite f => f.wf
  | .channelOpen f => f.wf
  | .channelClose f => f.wf
  | .getVersion h msg => h.wf 10 msg.length
  | .getCapabilities h msg => h.wf 10 msg.length
  | .negotiateAlgorithms h msg => h.wf 10 msg.length
  | .getDigests h msg => h.wf 10 msg.length
  | .getCertificate h msg => h.wf 10 msg.length
  | .challenge h msg => h.wf 10 msg.length
  | .getMeasurements h msg => h.wf 10 msg.length
  | .chunkSend h msg => h.wf 10 msg.length
  | .chunkGet h msg => h.wf 10 msg.length
  | .spdmUnsupportedRequest h msg => h.wf 10 msg.length
  | .arbWindowEnd _ _ => true
  | .agentDeadline _ _ => true
  | .partQuery f => f.wf
  | .preempt f => f.wf
  | .preemptHoldEnd _ => true
  | .replayStart _ => true
  | .replayComplete _ _ => true
  | .scanStart _ => true
  | .scanComplete _ _ => true
  | .watchExpire _ => true
  | .spareScanDue _ => true
  | .rotateDue _ => true
  | .pllLockLoss _ => true
  | .intSnapshotRead f => f.wf
  | .intSnapshotClear f => f.wf
  | .derQuery f => f.wf
  | .derQuarantine f => f.wf
  | .derScan f => f.wf
  | .inputRise => true
  | .inputLow => true
  | .inputFail => true
  | .inputHigh => true
  | .pwrEnRise _ => true
  | .pwrEnFall => true
  | .rampDownDone => true
  | .staggerEnd => true
  | .modReset => true
  | .shelfAlert => true
  | .shelfAlertClear => true
  | .powerEstimate e => e.wf
  | .calibration _ meanE vin => decide (meanE < 2 ^ 32) && decide (vin < 65536)
  | .thermalSample _ => true
  | .heartbeatTimeout => true
  | .siteUnparkDone _ => true
  | .pwrCap f => f.wf
  | .pwrHeartbeat f => f.wf
  | .pwrQuery f => f.wf
  | .secEnroll f => f.wf
  | .secChange f => f.wf
  | .secQuery f => f.wf
  | .secKeyLoad f => f.wf
  | .secKeyErase f => f.wf
  | .secRecordRead f => f.wf
  | .secReport f => f.wf
  | .secRecordLoad f => f.wf
  | .rampStageComplete r => r.wf
  | .bringupStageTimeout => true
  | .tbRoleTimeout => true
  | .uartStageLine => true
  | .bootFwWrite f => f.wf
  | .bootFwActivate f => f.wf
  | .bootFwCommit f => f.wf
  | .bootResetCold f => f.wf
  | .bootResetWarm f => f.wf
  | .bootPartReset f => f.wf
  | .bootCoreReset f => f.wf
  | .trialReadyTimeout => true
  | .trialTimeout => true
  | .i3cSetdasa _ => true
  | .i3cEntdaa _ => true
  | .i3cRegisterRead _ => true
  | .i3cRegisterWrite _ _ => true
  | .i3cPrivateRead => true
  | .modResetNRelease => true
  | .hostPortTrained => true
  | .flashRecordWritten => true
  | .gddr7Refresh _ _ => true

end Sys2Proof
end

