-- ==== Sys2Proof/Tests/Slice0.lean ====
section
/-! SUPPORT. The author's tests: terms that the well-formedness checks refuse, worked examples of spec/, and for the statements
witnesses that meet their hypotheses together, at boundary values where a clause has a range. -/

namespace Sys2Proof.Tests

open Sys2Proof.Machine Sys2Proof.Claims

/-! ## Small states and operands -/

/-- Core 0 of die 0. -/
def k0 : CoreId := ⟨0, 0⟩

/-- After reset, with partition 0 on core 0 of die 0. -/
def onePart : State := State.reset.setReg .partCfg 0 0 0x8000000000010001

/-- Core `x` of partition 0 with its domain in a running tick. -/
def live (x : Core) : State := (onePart.setCore k0 x).setDom 0 { Domain.init with state := .running, tick := 5 }

/-- A core that issues. -/
def idle : Core := { Core.init with running := true }

/-- The same with values in registers 1 and 2. -/
def vals (a b : Word) : Core := { idle with s := (idle.s.set 1 a).set 2 b }

/-- The core's own store, byte 64 (R60). -/
def slotAddr : Word := 0x20F0000000040

def r (d a b : BitVec 5) (fn : BitVec 8 := 0) (x : BitVec 24 := 0) : FmtR := ⟨0, d, a, b, 0, fn, x⟩
def imm (d a : BitVec 5) (v : BitVec 42) : FmtI := ⟨0, d, a, v⟩
def jump (off : BitVec 42) : FmtJ := ⟨0, 0, off⟩
def tile (q0 q1 : BitVec 4) : FmtT := ⟨0, q0, q1, 0, 0, 0, 0, 0, 0, 0, 0⟩

/-- A management message of domain 0 from module 0. -/
def msg (seg : Nat) (run : Nat := 0) (code : Code := 0) (tick : Word := 5) : Mgmt := ⟨0, 0, run, seg, code, 0, tick, 0, 0⟩

/-- A request frame on session 1. -/
def frame (body : List Byte) (queue : Code := 0) : Frame := ⟨1, queue, 9, body⟩

/-- The decidable part of `Issues`; without a program every word is code. -/
theorem issues (s : State) (c : CoreId) (g : BitVec 4) (rd : List Dest) (au : Bool)
    (h : ((s.core c).canIssue = true ∧ s.pw.down = none ∧ (s.core c).guardPasses g = true ∧ (au = true ∨ (s.core c).audit = none)
      ∧ ∀ d ∈ rd, (s.core c).isLate d = false) ∧ s.program ((s.partOf c).getD 0) = none) : Issues s c g rd au :=
  ⟨h.1.1, h.1.2.1, (fun p hp => by rw [h.2] at hp; cases hp), h.1.2.2.1, h.1.2.2.2.1, h.1.2.2.2.2⟩

/-- R155, R188, R220: MX.FAULT keeps a code 0x02xx of TX (word: code, segment 0, tick 5), and no other code. -/
theorem test_fault_registers :
    ((live idle).kill k0 0x0204 (some .tx)).raw (rk .mxFault 0) = 0x500000204
      ∧ ((live idle).kill k0 0x0204 (some .tx)).raw (rk .txFault 0) = 0x500000204
      ∧ ((live idle).kill k0 0x0308 (some .mx)).raw (rk .mxFault 0) = 0
      ∧ ((live idle).kill k0 0x0308 (some .mx)).raw (rk .lxFault 0) = 0x500000308 := by decide

/-- A core on its own, quiet. -/
theorem test_bare : Bare (live (vals 3 4)) k0 0 := by unfold Bare QuietStations; decide

/-! ## Ill-formed commands -/

theorem test_wf_frame : Instr.wf (.hostNop ⟨2 ^ 32, 0, 0, []⟩) = false ∧ Instr.wf (.hostNop ⟨1, 0, 0, []⟩) = true := by decide
theorem test_wf_mgmt : Instr.wf (.vote { msg 0 with run := 256 }) = false ∧ Instr.wf (.pass { msg 0 with seg := 256 }) = false
    ∧ Instr.wf (.retract { msg 0 with module := 256 }) = false ∧ Instr.wf (.commit (msg 255)) = true := by decide
def packet (part : Part) (addr : Word) (len : Nat) (payload : List Byte) : Packet :=
  ⟨0, false, false, false, part, false, 0, 0, false, 0, 0, 3, 0, 0, 0, 7, len, 0, addr, 0, payload⟩
theorem test_wf_packet : Instr.wf (.read (packet 0 0 4096 [])) = true ∧ Instr.wf (.read (packet 0 0 4104 [])) = false
    ∧ Instr.wf (.write (packet 0 0 12 [])) = false ∧ Instr.wf (.write { packet 0 0 8 [] with run := 65 }) = false
    ∧ Instr.wf (.write { packet 0 0 8 [] with seg := 64 }) = false := by decide
def segment (tick : Word) (run : Nat) : ExSegment := ⟨true, 0, tick, 0, run, 0, 0, 0, 0, 0, 0, 0, 0, 0, [], [], [], []⟩
theorem test_wf_segment : Instr.wf (.countRecord 0 (segment 5 64)) = true ∧ Instr.wf (.countRecord 0 (segment 5 65)) = false
    ∧ Instr.wf (.shipSegment 0 { segment 5 0 with round := 65536 }) = false
    ∧ Instr.wf (.returnSegment 0 { segment 5 0 with runs := [(65536, 0)] }) = false
    ∧ Instr.wf (.countRecord 0 { segment 5 0 with counts := [2 ^ 32] }) = false := by decide
/-- The header of an unprotected packet of a type without a payload (R434). -/
def hdr (seq : BitVec 32) (session : Nat) (typ : Byte := 4) : BrosinHdr := ⟨0x4252, typ, 0, 0, 0, 0, false, 1024, 0, seq, session⟩
theorem test_wf_header : Instr.wf (.data (hdr 0 1) []) = true ∧ Instr.wf (.data { hdr 0 1 with window := 1025 } []) = false
    ∧ Instr.wf (.ack (hdr 0 (2 ^ 32) 5) []) = false
    ∧ Instr.wf (.ack (hdr 0 1) []) = false ∧ Instr.wf (.data { hdr 0 1 with udp := 1 } []) = false
    ∧ Instr.wf (.data { hdr 0 1 with typ := 11 } []) = true ∧ (hdr 0 1).wellFormed = true ∧ { hdr 0 1 with typ := 11 }.wellFormed = false
    ∧ { hdr 0 1 with magic := 0x5242 }.wellFormed = false ∧ { hdr 0 1 with flags := 4 }.wellFormed = false := by decide

theorem test_wf_body : Instr.wf (.submit ⟨1, 0, 0, List.replicate 16777217 0⟩) = false := by
  simp only [Instr.wf, Frame.wf, List.length_replicate]; decide
theorem test_wf_numbers : Instr.wf (.kvPageCopyDone 0 0 65535) = true ∧ Instr.wf (.kvPageCopyDone 0 0 65536) = false
    ∧ Instr.wf (.frameRetireCopyDone 0 (2 ^ 29)) = false ∧ Instr.wf (.tcCopyDone (2 ^ 29)) = false ∧ Instr.wf (.tcHitFallback (2 ^ 29)) = false
    ∧ Instr.wf (.memScrub 0 68) = true ∧ Instr.wf (.memScrub 0 69) = false
    ∧ Instr.wf (.report (msg 0) 0 65536) = false ∧ Instr.wf (.shardVerify 0 0 65536 []) = false
    ∧ Instr.wf (.laneSerWindow 0 0 (2 ^ 32)) = false ∧ Instr.wf (.laneCtl 0 0 0 ⟨{ flitEmpty with errs := [0], typ := 4 }, 15⟩) = true
    ∧ Instr.wf (.laneCtl 0 0 0 ⟨{ flitEmpty with errs := [0], typ := 4 }, 16⟩) = false ∧ Instr.wf (.nak 0 { flitEmpty with typ := 2, errs := [] }) = false
    ∧ Instr.wf (.nak 0 { flitEmpty with typ := 2, errs := [0, 545] }) = false ∧ Instr.wf (.nak 0 { flitEmpty with errs := [0], typ := 3 }) = false
    ∧ Instr.wf (.nak 0 { flitEmpty with errs := [0], typ := 5 }) = true
    ∧ Instr.wf (.ceCollTimeout 0 0 (2 ^ 32)) = false ∧ Instr.wf (.ackTimer (2 ^ 32)) = false ∧ Instr.wf (.getDigests (hdr 0 (2 ^ 32) 10) []) = false
    ∧ Instr.wf (.calibration none (2 ^ 32) 0) = false ∧ Instr.wf (.calibration none 0 65536) = false
    ∧ Instr.wf (.intake (msg 0) [⟨0, 0, 0, 0, ⟨2 ^ 32, 0, 0, []⟩⟩]) = false
    ∧ Instr.wf (.forward (msg 256) ⟨0, 0, 0, 0, frame []⟩) = false := by decide

/-! ## Worked examples of the spec -/

/-- The contributions of the MXF4 dot product of chapter Numbers, at its anchor −12 and at −23. -/
def edge (anchor : BitVec 16) : Acc :=
  accAdd (accAdd ⟨0, anchor, 0x3F80, 0, 0, false⟩ (some ⟨1920, 0⟩) false) (some ⟨145, -110⟩) false
theorem test_edge : (edge (-12)).sum = 1920 * 2 ^ 108 + 36 ∧ (edge (-12)).flags = 1 ∧ readElem .fp32 (some (edge (-12))) = (0x44F00000, 1) := by
  decide
theorem test_edge_clamped : (edge (-23)).flags.getLsbD 1 = true ∧ (readElem .fp32 (some (edge (-23)))).1 = 0x43800000 := by decide

/-- The readout of the W2S block: R = 27 × 2^113 at anchor −23, row scale 0x3CB0, to BF16. -/
theorem test_w2s : readElem .bf16 (some ⟨27 * 2 ^ 113, -23, 0x3CB0, 1, 0, false⟩) = (0x3C14, 0) := by decide

/-- Module 1 of the all-reduce: 1 + 3 × 2^(−34) at anchor 8 rounds to 2^32 + 1 units. -/
theorem test_l64 : readElem .l64 (some ⟨2 ^ 88 + 3 * 2 ^ 54, 8, 0x3F80, 1, 0, false⟩) = (0x0000000100000001, 0) := by decide

/-- R101: the sum of two L64 words clamps, and a NaN stays NaN. -/
theorem test_l64_add : l64Add 0x0200000000000000 0xFE00000000000000 = (0, 0) ∧ (l64Add 0x7FFFFFFFFFFFFFFF 1).1 = 0x7FFFFFFFFFFFFFFF
    ∧ (l64Add 0x8000000000000000 1).1 = 0x8000000000000000 := by decide

/-- Close-memory addresses of chapter Memory: ECC on, 256 GiB interleaved. -/
def mapped : State := (State.reset.setReg .memCtrl 0 0 1).setReg .memIlvSize 0 0 0x4000000000
theorem test_close_memory : mapped.mdOf 0x1234567890 = (3, 0x48D159890) ∧ mapped.mdOf 0x4D00100000 = (2, 0x1000100000)
    ∧ mapped.closeTop = 0x5A00000000 := by decide

/-- One window of MD0 of chapter Partitions: credit 369, then 10 URGENT, 80 and 53 best-effort grants. -/
theorem test_credit : creditOf 192 1728 512 1800 = 369 := by decide

/-- A cycle of that window: partition 0's credit and BEST_EFFORT grants so far, and the URGENT requests that wait. -/
def window (credit urgent : Nat) (best : List Nat) : Window :=
  { demand := [9, 9, 0, 0, 0, 0, 0, 0, 0, 0, 0, 0, 0, 0, 0, 0], credit := credit :: List.replicate 15 0, guar := List.replicate 16 0,
    best := best ++ List.replicate 14 0, wait := List.replicate 16 0, urgent := urgent, quota := 64, urgentG := 0, back := 5, backG := 0,
    turn := 0, length := 0, idle := 0 }
def weights : List Nat := [192, 128] ++ List.replicate 14 0
theorem test_window : (window 1 10 [0, 0]).grant weights 16 = .part 0 false ∧ (window 0 10 [0, 0]).grant weights 16 = .urgent
    ∧ (window 0 0 [79, 53]).grant weights 16 = .part 0 true ∧ (window 0 0 [79, 52]).grant weights 16 = .part 1 true := by decide

/-! ## Witnesses: the block, registers, the time base -/

def bootReady : State := { State.reset with boot := { State.reset.boot with ready := true } }
theorem test_queue : ∃ t, step { State.reset with pending := [.ppsInEdge, .ppsOutPulse] } = .next t ∧ t.pending = [.ppsOutPulse] :=
  ⟨_, rfl, by decide⟩
theorem test_empty_queue : ({ State.reset with tb := { State.reset.tb with runs := true } } : State).pending = [] := by decide
theorem test_memory_form : State.reset.mem.wf ∧ (State.reset.store 64 [1, 0]).mem.wf := by decide
theorem test_counter_clear : (clears (.vxCtrClear ⟨7, 159⟩ 1)).isSome = true ∧ (1 : Word).getLsbD 0 = true ∧ (2 : Word).getLsbD 0 = false
    ∧ (clears (.svPCtrClear 0 15 1)).isSome = true := by decide
def scratch : RegKey := ⟨.memCeThresh, 0, 0⟩
theorem test_plain_register : regAt scratch.addr = some scratch ∧ plain scratch.reg = true
    ∧ (scratch.reg.locks && State.reset.enabled (Fin.ofNat 16 scratch.j)) = false ∧ State.reset.inLimits scratch 8 = true
    ∧ State.reset.pw.state ≠ .off ∧ bootReady.i3cWrites scratch.addr = true := by decide
theorem test_plain_register_limit : State.reset.inLimits scratch 0 = false ∧ State.reset.inLimits scratch 1 = true ∧ State.reset.inLimits scratch 255 = true
    ∧ State.reset.inLimits scratch 256 = false := by decide
theorem test_register_address : scratch.home = scratch ∧ scratch.j < scratch.reg.info.n1 * scratch.reg.info.n2
    ∧ scratch.reg.info.block.base.isSome = true ∧ scratch.i = 0 := by decide
theorem test_i3c : State.reset.pw.state ≠ .off ∧ bootReady.i3cReads scratch.addr = true ∧ State.reset.i3cReads scratch.addr = false := by decide
theorem test_ecc : State.reset.allDisabled = true ∧ (State.reset.reg .memCtrl).getLsbD 0 ≠ (0 : Word).getLsbD 0
    ∧ (State.reset.setReg .cadDomCtrl 0 0 1).allDisabled = false := by decide
theorem test_interleave : State.reset.allDisabled = true ∧ (0 : Word).toNat % 2 ^ 32 = 0 ∧ (0x5A00000000 : Word).toNat ≤ State.reset.closeTop
    ∧ State.reset.reg .memIlvSize ≠ 0 ∧ mapped.reg .memIlvSize ≠ 0x5A00000000 := by decide
def streamed : State :=
  (onePart.setCore k0 { idle with streams := [(3, ⟨9, 3, 0, 1, 10, 0, [], 0x7F⟩)] })
theorem test_registers_that_act : State.reset.inLimits (rk .mxResidueInject 0) 0x7E01 = true ∧ State.reset.trust.debug = 0
    ∧ streamed.coreOn (siteIx ⟨0, 0⟩) = some k0 ∧ (Assoc.find (BitVec.ofNat 4 3) (streamed.core k0).streams).isSome = true := by decide
def linked (x : FabPort) : State := State.reset.setPort 1 x
def upPort : FabPort := { FabPort.init with state := .up, healthy := 0x3FFFF, lanes := List.range 16 }
theorem test_port_registers : ((linked upPort).port 1).state ≠ .down ∧ ((linked upPort).port 1).state ≠ .disabled := by decide
def item : PnItem := ⟨0x1000, 65536, 0, 0, 0, false, 0, .filling⟩
theorem test_pannier_registers : State.reset.pnDir 0 = [] ∧ (160 : Word).toNat ≤ 160 ∧ (State.reset.setPn 0 [item]).pnDir 0 ≠ []
    ∧ ((List.finRange 16).map (fun k => if k = 1 then 0 else State.reset.regN .pnPQuota 0 k.val)).sum + State.reset.regN .pnSize 0
        ≤ State.reset.regN .pnSize 0 ∧ pnFrames (State.reset.pnDir 0) 1 ≤ 16 * State.reset.regN .pnSize 0 := by decide
def timed (st : TbState) (parent : Option Port) : State :=
  { linked upPort with tb := { State.reset.tb with state := st, parent := parent } }
theorem test_time_base : (timed .locked none).timeLink (timed .locked none).self 1 = true ∧ (timed .locked none).tb.state ≠ .free
    ∧ ((State.reset.setReg .cadPpsCtrl 0 0 1).reg .cadPpsCtrl).getLsbD 0 = true ∧ State.reset.tb.spare = false := by decide
theorem test_time_exchange : (timed .acquiring (some 1)).tb.parent = some 1 ∧ (timed .acquiring (some 1)).tb.state = .acquiring
    ∧ (timed .holdover (some 1)).tb.state = .holdover ∧ (timed .locked none).tb.parent ≠ some 1 := by decide
theorem test_time_role : bootReady.tb.state = .free ∧ bootReady.boot.ready = true ∧ (∀ p, (bootReady.port p).state ≠ .up)
    ∧ bootReady.timeRoot = bootReady.self ∧ (onePart.setReg .cadDomCtrl 0 0 1).enabled 0 = true
    ∧ ((onePart.setReg .cadDomCtrl 0 0 1).dom 0).state ≠ .suspended := by decide

/-! ## Witnesses: the sequencer -/

theorem test_scalar : ∃ w, scalarOf (.add k0 (r 3 1 2)) = some w ∧ Issues (live (vals 3 4)) w.core w.guard w.reads true
    ∧ w.reserved = false ∧ Straight ((live (vals 3 4)).core k0) w.words :=
  ⟨_, rfl, issues _ _ _ _ _ (by decide), by decide, by unfold Straight SeqTo; decide⟩
theorem test_scalar_s0 : ∃ w, scalarOf (.li k0 (imm 0 0 0) 7) = some w ∧ w.dest = 0 ∧ Issues (live (vals 3 4)) w.core w.guard w.reads true :=
  ⟨_, rfl, rfl, issues _ _ _ _ _ (by decide)⟩
theorem test_scalar_reserved : ∃ w, scalarOf (.mul k0 (r 3 1 2 1)) = some w ∧ w.reserved = true
    ∧ Issues (live (vals 3 4)) w.core w.guard w.reads true :=
  ⟨_, rfl, by decide, issues _ _ _ _ _ (by decide)⟩
theorem test_scalar_results : ∃ w, scalarOf (.sra k0 (r 3 1 2)) = some w ∧ w.value (vals 0x8000000000000000 65) = 0xC000000000000000 :=
  ⟨_, rfl, by decide⟩
theorem test_mulh : ∃ w, scalarOf (.mulh k0 (r 3 1 2)) = some w ∧ w.value (vals (-1) 1) = -1 := ⟨_, rfl, by decide⟩
theorem test_predicates : Issues (live (vals 3 4)) k0 0 [.s 1, .s 2] true ∧ Straight ((live (vals 3 4)).core k0) 1
    ∧ ((r 7 1 2 2).fn = 2 ∧ true = decide ((((live (vals 3 4)).core k0).rdS 1).toInt < (((live (vals 3 4)).core k0).rdS 2).toInt)) :=
  ⟨issues _ _ _ _ _ (by decide), by unfold Straight SeqTo; decide, by decide⟩
theorem test_plog : Issues (live idle) k0 0 [] true ∧ (r 0 7 7 3).a.toNat < 8 ∧ (r 0 7 7 3).d.toNat < 8 ∧ (r 0 7 7 3).fn = 3 :=
  ⟨issues _ _ _ _ _ (by decide), by decide⟩
theorem test_descriptor : Issues (live (vals 3 4)) k0 0 [.s 1, .td 2] true ∧ descFieldId 0 = some (0, 56, false) ∧ (r 2 1 0 0).fn ≠ 0x0C :=
  ⟨issues _ _ _ _ _ (by decide), by decide⟩
theorem test_tdmov : Issues (live idle) k0 0 [.td 1] true := issues _ _ _ _ _ (by decide)
theorem test_rdsr : Issues (live idle) k0 0 [] false ∧ (live idle).partOf k0 = some 0 ∧ (imm 1 0 12).imm.toNat < 13 ∧ 13 ≤ (imm 1 0 13).imm.toNat :=
  ⟨issues _ _ _ _ _ (by decide), by decide⟩
def called (n : Nat) : Core := { idle with pc := 4, calls := List.replicate n ⟨2, 0⟩ }
theorem test_control_flow : Issues (live (called 7)) k0 0 [] false ∧ (jump (-4)).rsv = 0 ∧ ((0 : Nat) : Int) = ((live (called 7)).core k0).pc + (jump (-4)).off.toInt
    ∧ ((live (called 7)).core k0).calls.length < 8 ∧ 8 ≤ ((live (called 8)).core k0).calls.length :=
  ⟨issues _ _ _ _ _ (by decide), by decide⟩
theorem test_return : ((live (called 1)).core k0).calls = ⟨2, 0⟩ :: [] ∧ ((live (called 1)).core k0).loops.length ≤ (⟨2, 0⟩ : CallFrame).depth
    ∧ SeqTo { (live (called 1)).core k0 with calls := [] } 2 ∧ ((live (called 0)).core k0).calls = [] := by unfold SeqTo; decide
/-- In the last word of the body of a loop with this count and pass. -/
def looped (count : Option Nat) (pass bound depth : Nat) : Core :=
  { idle with pc := 3, p := idle.p.set 1 true, loops := ⟨2, 3, count, 1, bound, pass, 5⟩ :: List.replicate depth ⟨0, 9, some 2, 0, 2, 0, 6⟩ }
theorem test_loop : Issues (live (vals 3 0)) k0 0 [.s 1] true ∧ ((live (vals 3 0)).core k0).rdS 1 ≠ 0 ∧ ((live (vals 3 0)).core k0).rdS 2 = 0
    ∧ (looped none 0 1 6).loops.length < 8 ∧ 8 ≤ (looped none 0 1 7).loops.length :=
  ⟨issues _ _ _ _ _ (by decide), by decide⟩
theorem test_break : (live (looped (some 2) 0 2 0)).core k0 = looped (some 2) 0 2 0 ∧ (looped (some 2) 0 2 0).openLoops ≠ 0
    ∧ (looped (some 2) 0 2 0).loops.length = 1 ∧ Issues (live (looped (some 2) 0 2 0)) k0 0 [] true ∧ (vals 1 1).loops = [] :=
  ⟨by decide, by decide, by decide, issues _ _ _ _ _ (by decide), by decide⟩
theorem test_loop_pass : (looped (some 2) 0 2 0).pc + 1 = 3 + 1 ∧ 0 + 1 < 2 ∧ (2 : Nat) ≤ 1 + 1 ∧ (looped none 0 2 0).rdP 1 = true
    ∧ SeqTo { looped (some 2) 1 2 0 with loops := [] } 4 ∧ 6 + 1 < 4 * 2 ∧ 4 * 2 ≤ 7 + 1 := by unfold SeqTo; decide
theorem test_faults : RunsIn (live idle) k0 0 ∧ ((live idle).core k0).running = true ∧ ((live idle).core k0).wait = none
    ∧ (live idle).pw.down = none ∧ (live { idle with wait := some (.waitv 0 0 0) }).countsWait k0 = true
    ∧ (imm 0 0 65535).imm.toNat < 65536 ∧ Issues (live idle) k0 0 [] false :=
  ⟨by unfold RunsIn; decide, by decide, by decide, by decide, by decide, by decide, issues _ _ _ _ _ (by decide)⟩
def stalled : Core := { idle with
  vxq := [.vx 0 1 2 0 0 1 3 3 0 0]
  streams := [(1, ⟨6, 9, 0, 1, 10, 0, [], 0⟩), (2, ⟨10, 3, 0, 1, 10, 0, [], 0⟩)] }
theorem test_stream_stall : RunsIn (live stalled) k0 0 ∧ (live stalled).onStream k0 .vx = true := by unfold RunsIn; decide
/-- A partition whose step runs a program of one literal and this number of segments. -/
def coded (x : Core) (segs : Nat := 1) : State :=
  let s := live x
  { s with programs := [((0, 0), ⟨0, segs, [], 0, [0x1E, 0], 0, [], []⟩)]
           sv := { s.sv with parts := [(0, { SvPart.init with running := { Batch.empty with program := some 0 } })] } }
theorem test_bad_pc : ((coded idle).core k0).canIssue = true ∧ (coded idle).pw.down = none
    ∧ (∃ p, (coded { idle with pc := 2 }).program 0 = some p ∧ p.badPc 2 = true) :=
  ⟨by decide, by decide, ⟨0, 1, [], 0, [0x1E, 0], 0, [], []⟩, rfl, by decide⟩
theorem test_issue : (live Core.init |>.core k0).canIssue = false ∧ ((live idle).core k0).guardPasses 8 = false
    ∧ ((live idle).core k0).guardPasses 1 = false ∧ ({ idle with audit := some ⟨0, 0, false, [], [], [], []⟩ } : Core).audit.isSome = true
    ∧ ({ idle with late := [(0, .s 3)] } : Core).isLate (.s 3) = true := by decide

/-! ## Witnesses: stations, waits, collectives -/

/-- A core with streams from LX and VX to every consuming port that the tests use. -/
def ports : Core := { vals slotAddr 4 with
  streams := [(1, ⟨10, 0, 0, 1, 12, 0, [], 0⟩), (2, ⟨10, 3, 0, 0, 12, 1, [], 0⟩), (3, ⟨6, 11, 0, 0, 12, 2, [], 0⟩)] }
theorem test_station_command : ∃ w, stationOf (live ports) (.mxld k0 (tile 0 1)) = some w ∧ Issues (live ports) w.core w.guard w.reads w.inAudit
    ∧ w.plain = true ∧ (∀ k ∈ w.checks, k = none) ∧ w.len ((live ports).core w.core) < 8 :=
  ⟨_, rfl, issues _ _ _ _ _ (by decide), by decide,
    fun k h => by rw [List.eq_of_mem_singleton h]; decide, by show 0 < 8; decide⟩
theorem test_station_queue_full :
    let x : Core := { ports with mxq := List.replicate 8 (.mxld 1) }
    ∃ w, stationOf (live x) (.mxld k0 (tile 0 1)) = some w ∧ Issues (live x) w.core w.guard w.reads w.inAudit
      ∧ (∀ k ∈ w.checks, k = none) ∧ 8 ≤ w.len ((live x).core w.core) :=
  ⟨_, rfl, issues _ _ _ _ _ (by decide), fun k h => by rw [List.eq_of_mem_singleton h]; decide, by show 8 ≤ 8; decide⟩
theorem test_station_check : ∃ w, stationOf (live ports) (.mxrun k0 ⟨tile 0 9, none⟩) = some w ∧ Issues (live ports) w.core w.guard w.reads w.inAudit
    ∧ w.plain = true ∧ w.checks = [] ++ some 0x0309 :: [] :=
  ⟨_, rfl, issues _ _ _ _ _ (by decide), by decide⟩
theorem test_station_reserved : ∃ w, stationOf (live ports) (.tld k0 (tile 1 1)) = some w ∧ Issues (live ports) w.core w.guard w.reads w.inAudit
    ∧ w.plain = false :=
  ⟨_, rfl, issues _ _ _ _ _ (by decide), by decide⟩
theorem test_local_load : QuietStations (live ports) k0 0 ∧ Issues (live ports) k0 0 [.s 1, .s 3] false
    ∧ addrForm (((live ports).core k0).rdS 1 + (imm 3 1 8).imm.signExtend 64) 8 = some (none, 0x20F0000000048)
    ∧ (live ports).place ((live ports).coreAcc k0) 0x20F0000000048 8 false = .ok ⟨.core, siteAddr ⟨0, 0⟩ + 72, 0, none⟩
    ∧ (live ports).place ((live ports).coreAcc k0) 0x20F0000000048 8 true = .ok ⟨.core, siteAddr ⟨0, 0⟩ + 72, 0, none⟩ :=
  ⟨by unfold QuietStations; decide, issues _ _ _ _ _ (by decide), by decide +kernel⟩
theorem test_local_descriptor : Issues (live ports) k0 0 [.s 1, .td 3] false
    ∧ addrForm (((live ports).core k0).rdS 1 + (imm 3 1 32).imm.signExtend 64) 32 = some (none, 0x20F0000000060)
    ∧ (live ports).place ((live ports).coreAcc k0) 0x20F0000000060 32 true = .ok ⟨.core, siteAddr ⟨0, 0⟩ + 96, 0, none⟩ :=
  ⟨issues _ _ _ _ _ (by decide), by decide +kernel⟩
theorem test_local_atomic : Issues (live ports) k0 0 [.s 1, .s 2, .s 0] false ∧ addrForm (((live ports).core k0).rdS (r 3 1 2).a) 8 = some (none, 0x20F0000000040)
    ∧ (live ports).place ((live ports).coreAcc k0) 0x20F0000000040 8 true = .ok ⟨.core, siteAddr ⟨0, 0⟩ + 64, 0, none⟩ :=
  ⟨issues _ _ _ _ _ (by decide), by decide⟩
/-- Partition 0 with a STATE region of 64 KiB at address 0. -/
def journalled : State :=
  ((live (vals 64 4)).setReg .memRegA 0 0 0x8200000000000000).setReg .memRegB 0 0 0x10000
theorem test_journalled_store : Issues journalled k0 0 [.s 1, .s 2] false ∧ addrForm ((journalled.core k0).rdS 1 + (imm 2 1 0).imm.signExtend 64) 8 = some (none, 64)
    ∧ (∃ p, journalled.place (journalled.coreAcc k0) 64 8 true = .ok p ∧ p.cls = 2) ∧ QuietStations journalled k0 0 ∧ (∀ m, (journalled.dom m).journal = []) :=
  ⟨issues _ _ _ _ _ (by decide), by decide, ⟨_, rfl, by decide⟩, by unfold QuietStations; decide, by decide⟩
theorem test_qopen : Issues (live ports) k0 0 [] false ∧ qopenBad ((live ports).core k0) ⟨0, 4, 10, 0, 0, 1, 12, 3, 0⟩ = false
    ∧ qopenBad ((live ports).core k0) ⟨0, 4, 10, 0, 0, 1, 12, 2, 0⟩ = true ∧ qopenBad ((live ports).core k0) ⟨0, 4, 10, 0, 0, 1, 11, 3, 0⟩ = true
    ∧ qopenBad ((live ports).core k0) ⟨0, 4, 10, 0, 0, 1, 19, 385, 0⟩ = true
    ∧ qopenBad ((live ports).core k0) ⟨0, 4, 10, 0, 0, 1, 12, 511, 0⟩ = false ∧ Assoc.find 4 ((live ports).core k0).streams = none :=
  ⟨issues _ _ _ _ _ (by decide), by decide⟩
theorem test_qclose : (Assoc.find 1 ((live ports).core k0).streams).isSome = true ∧ ((live ports).core k0).quiet 1 = true
    ∧ Assoc.find 9 ((live ports).core k0).streams = none ∧ Issues (live ports) k0 0 [] true ∧ (tile 1 0).m.toNat < 2 :=
  ⟨by decide, by decide, by decide, issues _ _ _ _ _ (by decide), by decide⟩
theorem test_fence : Issues (live idle) k0 0 [] false ∧ 1 ≤ (r 0 0 0 3).fn.toNat ∧ (r 0 0 0 3).fn.toNat ≤ 3 ∧ (live idle).fab.reqs = []
    ∧ (live idle).barriers = [] ∧ ((live idle).core k0).mx = Mx.init :=
  ⟨issues _ _ _ _ _ (by decide), by decide⟩
def waited : Core := { vals 3 4 with colls := [(3, ⟨true, []⟩)] }
theorem test_cwait : Issues (live waited) k0 0 [.s 1] false ∧ (Assoc.find (((live waited).core k0).rdS 1).toNat ((live waited).core k0).colls).isSome = true
    ∧ Assoc.find (((live waited).core k0).rdS 2).toNat ((live waited).core k0).colls = none :=
  ⟨issues _ _ _ _ _ (by decide), by decide⟩
def barred (n : Word) : State := { live (vals 3 4) with barriers := [((0, 0, 15), ⟨n, [⟨0, 1⟩], []⟩)] }
theorem test_bar : (r 0 1 0 15).fn.toNat < 16 ∧ (Assoc.find ((0 : Fin 8), (0 : Part), 15) (barred 3).barriers).isSome = true
    ∧ ((live (vals 3 4)).core k0).rdS 1 = 3 ∧ Assoc.find ((0 : Fin 8), (0 : Part), 14) (barred 3).barriers = none := by decide
theorem test_waitv : Issues (live (vals slotAddr 4)) k0 0 [.s 1, .s 2] false ∧ addrForm slotAddr 8 ≠ none ∧ addrForm (slotAddr + 4) 8 = none
    ∧ (live { vals 0 0 with wait := some (.waitv slotAddr 4 1) }).waiters 0 = [k0]
    ∧ wordAt (live idle) (siteAddr ⟨0, 0⟩ + 64) ≠ 4 :=
  ⟨issues _ _ _ _ _ (by decide), by decide⟩
theorem test_segments : (live idle).stepSegs 0 ≤ ((live idle).core k0).seg + 1
    ∧ ((coded idle).stepSegs 0 ≤ 1) ∧ (coded idle 2).stepSegs 0 = 2 := by decide
theorem test_collective : (collOf (.barrier k0 { tile 0 0 with fn := 7, s := 1 })).isSome = true ∧ Issues (live (vals 64 4)) k0 0 [.td 0, .td 0, .s 1] false
    ∧ addrForm (((live (vals 64 4)).core k0).rdS 1) 64 = some (none, 64) ∧ addrForm (((live (vals 65 4)).core k0).rdS 1) 64 = none
    ∧ (live (vals 64 4)).freeHandle k0 = some 0
    ∧ (live { vals 64 4 with colls := (List.range 8).map (fun h => (h, ⟨false, []⟩)) }).freeHandle k0 = none
    ∧ descCheck 0 true = none ∧ descCheck (15 <<< 56) true = some 0x0201 :=
  ⟨by decide, issues _ _ _ _ _ (by decide), by decide⟩
theorem test_die_command : (dieOf (.exQuery k0 (r 3 1 2 6 1))).isSome = true ∧ Issues (live (vals 3 4)) k0 0 [.s 1, .s 2] false
    ∧ (live (vals 3 4)).partOf k0 = some 0 ∧ 2 < (r 3 1 2 6 3).x.toNat :=
  ⟨by decide, issues _ _ _ _ _ (by decide), by decide⟩
def row : BatchRow := ⟨7, .verify, false, 0, 0, 0, 0, 5, 0⟩
def served : State :=
  let s := live (vals 0 0)
  let b := { Batch.empty with rows := [row], yields := [⟨7, [], [], none, some 0, [5], .none, 0⟩], filled := [(0, 5, 0)] }
  { s with sv := { s.sv with parts := [(0, { SvPart.init with running := b })] }, kv := [((0, 0), { KvPool.init with maps := [((0, 0), 3)] })] }
theorem test_die_results : Bare served k0 0 ∧ Issues served k0 0 [.s 1, .s 2] false ∧ (served.pool 0 0).pageOf 0 (0 / served.kvTokens 0) = some 3
    ∧ (served.pool 0 0).pageOf 1 0 = none ∧ ((served.svPart 0).running.yieldOf row.entry).checked = some 0
    ∧ (served.svPart 0).running.rowFilled 0 = true ∧ (served.svPart 0).running.rows.length < 0 + 2 ∧ served.openLayer 0 0 = none :=
  ⟨by unfold Bare QuietStations; decide, issues _ _ _ _ _ (by decide), by decide⟩

/-! ## Witnesses: lists, audit units, the exchange, the memory tiers -/

/-- A list of 2 entries of which `n` are claimed, in core store. -/
def listed (n : Byte) : State := (live (vals slotAddr 4)).store (siteAddr ⟨0, 0⟩ + 72) [2, 0, 0, 0, n, 0, 0, 0]
theorem test_claim : Bare (listed 2) k0 0 ∧ Issues (listed 2) k0 0 [.s 1] false ∧ addrForm (((listed 2).core k0).rdS (r 3 1 0).a) 64 = some (none, 0x20F0000000040)
    ∧ (listed 2).place ((listed 2).coreAcc k0) 0x20F0000000040 64 false = .ok ⟨.core, siteAddr ⟨0, 0⟩ + 64, 0, none⟩
    ∧ (listed 2).loadN (siteAddr ⟨0, 0⟩ + 64 + 8) 4 ≤ (listed 2).loadN (siteAddr ⟨0, 0⟩ + 64 + 12) 4
    ∧ (listed 1).loadN (siteAddr ⟨0, 0⟩ + 64 + 12) 4 < (listed 1).loadN (siteAddr ⟨0, 0⟩ + 64 + 8) 4 :=
  ⟨by unfold Bare QuietStations; decide, issues _ _ _ _ _ (by decide), by decide⟩
def unit : Audit := ⟨0, 3, true, [], [], [], []⟩
theorem test_audit : Bare (live idle) k0 0 ∧ Issues (live idle) k0 0 [] false ∧ (imm 0 0 65535).imm.toNat < 65536 ∧ ((live idle).core k0).audit = none :=
  ⟨by unfold Bare QuietStations; decide, issues _ _ _ _ _ (by decide), by decide⟩
theorem test_audit_end : Bare (live { idle with audit := some unit }) k0 0 ∧ Issues (live { idle with audit := some unit }) k0 0 [] true
    ∧ ((live { idle with audit := some unit }).core k0).audit = some unit ∧ unit.sampled = true ∧ (live idle).siteOf k0 = some ⟨0, 0⟩ :=
  ⟨by unfold Bare QuietStations; decide, issues _ _ _ _ _ (by decide), by decide⟩
theorem test_load_complete : QuietStations (live { idle with mx := { Mx.init with bank1 := some ⟨⟨0, [], false⟩, false, 0⟩ } }) k0 0
    ∧ (live { idle with mx := { Mx.init with bank1 := some ⟨⟨0, [], false⟩, false, 0⟩ } } |>.core k0).mx.bank1.isSome = true := by
  unfold QuietStations; decide
theorem test_stopchk : Issues (live (vals 0 1)) k0 0 [.s 1, .s 2] false ∧ (live (vals 0 1)).partOf k0 = some 0 := ⟨issues _ _ _ _ _ (by decide), by decide⟩
theorem test_exchange_stamps : (∀ c, ((live idle).dom 0).lastTick = some c → c < (segment 6 0).tick.toNat) ∧ ((live idle).dom 0).tick < (segment 6 0).tick.toNat
    ∧ (segment 4 0).tick.toNat < ((live idle).dom 0).tick ∧ (segment 5 0).tick.toNat = ((live idle).dom 0).tick
    ∧ ((live idle).dom 0).state = .running ∧ ((live idle).dom 0).run < (segment 5 1).run
    ∧ (segment 5 0).run < ((live idle).updDom 0 (fun d => { d with run := 1 }) |>.dom 0).run :=
  ⟨fun c h => (by rw [show ((live idle).dom 0).lastTick = none by decide] at h; cases h), by decide⟩
def layer (counted : Bool) : ExLayer :=
  { closed := false, seg := 0, ord := 0, cfg := ⟨1, 1, 1, 1, 8, 0, 0, 0, 0, 0, 1, false, 64, 0, 0, 0, 1, 1, 0⟩, experts := [⟨(9, 0), [], 0, 0, 64, 0⟩],
    threshold := 1, poolBase := 0, poolSize := 0, hash := 0, tokens := 1, gates := [], counts := [(9, [1])], dieCounts := [], counted := counted,
    act := none, sent := false, shipped := [0], landed := [], headers := [], rows := [], waited := 0, returned := 0, retHeaders := [],
    retRows := [], combine := none, cmds := [] }
def exchange (counted : Bool) : State := { live idle with ex := [((0, 0), layer counted)] }
theorem test_exchange_timeouts : (exchange false).openLayer 0 0 = some (layer false) ∧ (layer false).counted = false
    ∧ (∃ m ∈ (layer false).counts, m.1 ≠ (exchange false).self) ∧ (exchange true).openLayer 0 0 = some (layer true)
    ∧ (∃ e ∈ (layer true).landsOn ((exchange true).self, 0), e ∉ (layer true).landed) := by decide
theorem test_query_total : (layer true).counted = true ∧ 0 < (layer true).cfg.experts ∧ ((live (vals 0 0)).core k0).rdS 2 = 0 := by decide
theorem test_page_copies : (live idle).waiters 0 = [] ∧ ((live idle).svPart 0).running.syncs = [] ∧ ((live idle).dom 0).applyWaits = false := by decide
def spared : State := (State.reset.setReg .memCtrl 0 0 1).setReg .memSpareFrames 0 0 1
theorem test_scrub : (1 : BitVec 50).toNat / 64 * 64 = 0 ∧ (64 : BitVec 50).toNat / 64 * 64 ≠ 0 ∧ 64 < spared.closeTop ∧ (spared.reg .memCtrl).getLsbD 0 = true
    ∧ Assoc.getD (spared.frameOf 64) 0 spared.ms.ceCount + 1 < spared.regN .memCeThresh ∧ (spared.freeSpare (spared.frameOf 64).1).isSome = true
    ∧ spared.ms.retired = [] ∧ spared.ms.copying = [] ∧ spared.ms.poisoned = [] ∧ (State.reset.setReg .memCtrl 0 0 0 |>.reg .memCtrl).getLsbD 0 = false := by decide
theorem test_retirement : Assoc.find ((3 : Fin 4), 65535) ({ spared with ms := { spared.ms with copying := [((3, 65535), 4)] } } : State).ms.copying = some 4 := by decide
def cxlOn (st : CxlState) : State := { State.reset.setReg .cxlCtrl 0 2 1 with cxl := [(2, ⟨st, 16, 64, false, 2 ^ 28, []⟩)] }
theorem test_cxl : ((cxlOn .down).reg .cxlCtrl 0 2).getLsbD 0 = true ∧ ((cxlOn .training).cxlPort 2).state = .training
    ∧ ((cxlOn .inService).cxlPort 2).state = .inService ∧ (cxlOn .down).cxlRefuses 2 ⟨true, 2 ^ 28, 8, 32, false, []⟩ = false
    ∧ (cxlOn .down).cxlRefuses 2 ⟨true, 2 ^ 41, 16, 64, false, []⟩ = false ∧ (cxlOn .down).cxlRefuses 2 ⟨true, 2 ^ 41 + 2 ^ 28, 16, 64, false, []⟩ = true
    ∧ (cxlOn .down).cxlRefuses 2 ⟨false, 2 ^ 28, 8, 32, false, []⟩ = true := by decide
theorem test_cxl_timeout : RunsIn (live idle) k0 0 ∧ ((live idle).core k0).running = true := by unfold RunsIn; decide
theorem test_tier_cache : (7, false) ∈ ({ State.reset with ms := { State.reset.ms with tcSlots := [(7, false)] } } : State).ms.tcSlots := by decide
theorem test_pannier_fill : ((State.reset.setPn 3 [item]).pnDir 3).filter (fun j => decide (j.state = .filling)) = [item] := by decide

/-! ## Witnesses: domains and votes -/

def settled : State :=
  let s := onePart.setReg .cadDomEpoch 0 0 2000000
  { s with tb := { s.tb with state := .root, errBound := 99 } }
theorem test_domain_enable : settled.enabled 0 = false ∧ (settled.settingsOk 0 && settled.partValid 0 && !settled.silent 0 && !settled.changePends 0) = true
    ∧ (settled.dom 0).tally.settings = [] ∧ (onePart.settingsOk 0 && onePart.partValid 0 && !onePart.silent 0 && !onePart.changePends 0) = false
    ∧ (settled.setReg .cadDomCtrl 0 0 1).enabled 0 = true := by decide
theorem test_settings_bounds : ({ settled with tb := { settled.tb with errBound := 100 } } : State).settingsOk 0 = false
    ∧ (settled.setReg .cadDomEpoch 0 0 1999000).settingsOk 0 = false := by decide
theorem test_settings : onePart.firstMaster (msg 0).dom = onePart.self ∧ (msg 0).module = (msg 0).src.val ∧ (onePart.dom (msg 0).dom).state = .idle := by decide
def starting : State := (settled.setReg .cadDomCtrl 0 0 1).setDom 0 { Domain.init with
  state := .starting, tally := { Tally.empty with settings := [(0, (settled.setReg .cadDomCtrl 0 0 1).settings 0)] } }
theorem test_tick_start : (starting.dom 0).state = .starting ∧ starting.agreed 0 = true ∧ onePart.agreed 0 = false ∧ starting.fab.held = [] := by decide
/-- Core 0 has ended its one segment; another module is master. -/
def ended (master deputy : ModIx) : State :=
  (live { idle with wait := some .commit, seg := 0 }).updDom 0 (fun d => { d with master := master, deputy := some deputy })
theorem test_member_votes : (ended 5 6).isMaster 0 = false ∧ (ended 5 6).isDeputy 0 = false ∧ ((ended 5 6).dom 0).early = [] ∧ (ended 5 6).mayVote 0 = true
    ∧ ((ended 5 6).dom 0).traps = [] ∧ ((ended 5 6).dom 0).live = true ∧ ((ended 5 6).dom 0).committed = false ∧ (ended 5 6).silent 0 = false
    ∧ ((ended 5 6).dom 0).voted < (ended 5 6).stepSegs 0 := by decide
theorem test_master_votes : (ended 0 6).isMaster 0 = true ∧ ((ended 0 6).dom 0).live = true ∧ (msg 0).tick.toNat = ((ended 0 6).dom 0).tick
    ∧ (msg 0).run = ((ended 0 6).dom 0).run ∧ ((ended 0 6).dom 0).tally.resolved ≤ (msg 0).seg
    ∧ (∀ v ∈ ((ended 0 6).dom 0).tally.votes, ¬(v.1 = (msg 0).seg ∧ v.2.1 = (msg 0).src)) ∧ (ended 0 6).isMaster 1 = true := by decide
def tallied (votes : List (Nat × ModIx × Code)) (run : Nat) : State :=
  (ended 0 6).updDom 0 (fun d => { d with run := run, tally := { d.tally with votes := votes } })
theorem test_master_resolves : (tallied [(0, 0, 0)] 0).complete? 0 0 = true ∧ ((tallied [(0, 0, 0)] 0).dom 0).tally.resolved < (tallied [(0, 0, 0)] 0).stepSegs 0
    ∧ (((tallied [(0, 0, 0)] 0).dom 0).tally.votesFor 0).filter (fun v => decide (v.2 ≠ 0)) = []
    ∧ (((tallied [(0, 0, 0x0311)] 0).dom 0).tally.votesFor 0).filter (fun v => decide (v.2 ≠ 0)) = [(0, 0x0311)]
    ∧ ((tallied [(0, 0, 0x0311)] 0).dom 0).run < (tallied [] 0).regN .cadDomMaxRetracts 0 0
    ∧ (tallied [] 0).regN .cadDomMaxRetracts 0 0 ≤ ((tallied [(0, 0, 0x0311)] 64).dom 0).run ∧ (tallied [] 0).complete? 0 0 = false := by decide
def fromFive (run : Nat) (code : Code) : Mgmt := { msg 0 run code with src := 5, module := 5 }
theorem test_master_results : (ended 5 6).fromMaster (fromFive 0 0) = true ∧ (fromFive 0 0).run = ((ended 5 6).dom 0).run ∧ (fromFive 0 0).seg = ((ended 5 6).dom 0).passed
    ∧ ((ended 5 6).dom 0).run < (fromFive 1 0x0311).run ∧ (fromFive 1 0x0311).code ≠ 0x0104 ∧ (ended 5 6).fromMaster { fromFive 0 0 with tick := 6 } = false
    ∧ (live idle).waiters 0 = [] ∧ ((live idle).svPart 0).running.syncs = [] := by decide
theorem test_silence : 0 ∈ (tallied [] 0).members 0 ∧ ((tallied [] 0).dom 0).tally.resolved < (tallied [] 0).stepSegs 0
    ∧ (((tallied [] 0).dom 0).tally.resolved, (0 : ModIx)) ∉ ((tallied [] 0).dom 0).tally.waits ∧ (ended 5 0).isDeputy 0 = true
    ∧ ((ended 5 0).updTally 0 (fun t => { t with votes := [(0, 0, 0)] })).complete? 0 0 = true
    ∧ ((((ended 0 6).updTally 0 (fun t => { t with silent := some 3 })).dom 0).tally.silent).isSome = true := by decide
def scheduled : State := (live idle).updDom 0 (fun d => { d with applyAt := some 9 })
theorem test_commit : ((live idle).dom 0).applyAt = none ∧ (scheduled.dom 0).applyAt = some 9 ∧ (scheduled.dom 0).state = .running
    ∧ scheduled.promotionRuns 0 (scheduled.dom 0).tick = false
    ∧ ({ scheduled with kv := [((0, 0), { KvPool.init with promote := [(1, [], 5, false)] })] } : State).promotionRuns 0 5 = true := by decide
theorem test_admission : ((live idle).svPart 0).next = none ∧ ((live idle).dom 0).live = true ∧ (starting.dom 0).state = .starting
    ∧ ((live idle).dom 0).holding = false ∧ (((live idle).updDom 0 (fun d => { d with holding := true })).dom 0).holding = true := by decide

/-! ## Witnesses: host commands, weight supply -/

/-- READY, with session 1 of this owner and 2 queues for partition 0. -/
def host (o : SessOwner) : State :=
  ({ onePart with boot := { onePart.boot with ready := true } }.setReg .hpPQueues 0 0 2).setSession 1 (newSession o 77 false 1024 true 1024)
theorem test_accepted_part : ∀ cmd, Accepted (host (.part 0)) cmd (frame [] 1) (.part 0) .part := fun cmd =>
  ⟨by decide, by unfold State.cmdOwner; rw [show (host (.part 0)).sessOwner (frame [] 1).session = some (.part 0) by decide], by decide, by decide, .inl (by decide), by decide⟩
theorem test_accepted_mgmt : ∀ cmd, Accepted (host .mgmt) cmd (frame [0, 0, 0, 0] 255) .mgmt .mgmt := fun cmd =>
  ⟨by decide, by unfold State.cmdOwner; rw [show (host .mgmt).sessOwner (frame [0, 0, 0, 0] 255).session = some .mgmt by decide], by decide, by decide, .inl (by decide), by decide⟩
theorem test_not_accepted : onePart.boot.ready = false ∧ SessOwner.isKind .mgmt .part = false ∧ SessOwner.isKind (.part 0) .mgmt = false
    ∧ (host (.part 0)).queueOk (.part 0) (frame [] 2).queue = false ∧ (host .mgmt).queueOk .mgmt (frame [] 256).queue = false := by decide
theorem test_queue_limit : ∀ q : Queued, (List.replicate 1022 q).length < 1023 ∧ 1023 ≤ (List.replicate 1023 q).length := by
  intro q; simp only [List.length_replicate]; decide
theorem test_host_nop : (host (.part 0)).sessOwner (frame []).session = some (.part 0) ∧ (∀ q ∈ (host (.part 0)).hp.queues, q.1 = (some 0, (frame []).queue.toNat)) := by decide
/-- A read of 8 bytes at the start of a PROGRAM region of partition 0. -/
def mapped0 (cls : Word) : State := ((host (.part 0)).setReg .memRegA 0 0 (0x8000000000000000 + cls <<< 56)).setReg .memRegB 0 0 0x10000
theorem test_mem_read : fieldNat (natBytes 8 64 ++ natBytes 8 8) 0 8 < 2 ^ 50 ∧ (∃ p, (mapped0 0).place (hostAcc 0) 64 8 false = .ok p ∧ p.space = .close)
    ∧ (host (.part 0)).place (hostAcc 0) 64 8 false = .error 0x0601 ∧ (mapped0 0).place (hostAcc 1) 64 8 false = .error 0x0602 :=
  ⟨by decide, ⟨_, rfl, by decide⟩, by decide, by decide⟩
theorem test_mem_read_core : (host (.part 0)).place (hostAcc 0) 0x2200000000000 8 false = .ok ⟨.core, siteAddr ⟨0, 0⟩, 0, none⟩
    ∧ ((host (.part 0)).dom 0).before = [] := by decide
theorem test_mem_write : (∃ p, (mapped0 3).place (hostAcc 0) 64 8 true = .ok p ∧ p.cls ≠ 0) ∧ ((mapped0 3).setReg .cadDomCtrl 0 0 1).enabled 0 = true
    ∧ (∃ p, (host (.part 0)).place (hostAcc 0) 0x2200000000000 8 true = .ok p ∧ p.cls = 0 ∧ p.space = .core) :=
  ⟨⟨_, rfl, by decide⟩, by decide, ⟨_, rfl, by decide⟩⟩
def pnBody : List Byte := natBytes 8 65536 ++ natBytes 4 65536 ++ [1, 1] ++ List.replicate 18 0
def pannier : State :=
  (((host (.part 0)).setReg .memRegA 0 0 0xC000000000000000).setReg .memRegB 0 0 0x20000).setReg .pnPQuota 0 0 1
theorem test_pannier_load : pnBody.length = 32 ∧ pannier.pnRecordBad 0 (pnRecord pnBody) = false ∧ maskDies (pnRecord pnBody).mask = [0] ∧ pannier.pnDir 0 = []
    ∧ (pnRecord pnBody).bytes ≤ pannier.regN .pnPQuota 0 0 * 1048576 := by decide
theorem test_channel : (host (.part 0)).chan 7 = none ∧ ((host (.part 0)).setChan 7 ⟨some 0, 1, 2, 1048576, 1, []⟩ |>.chan 7).isSome = true
    ∧ (∀ e ∈ (host (.part 0)).sv.entries, e.2.state = .free ∨ e.2.channel ≠ 7) := by decide
theorem test_map_bad : mapBad [] = true ∧ mapSelf [] ≠ some onePart.self ∧ (onePart.setReg .cadDomCtrl 0 0 1).allDisabled = false ∧ onePart.allDisabled = true :=
  ⟨by decide, by rw [show mapSelf [] = none by rfl]; decide, by decide, by decide⟩
def fetch (phase : FetchPhase) : Fetch := ⟨phase, 0, 2, 3, false, false, false⟩
def shard (reader : Nat) (digest : List Byte := []) : Shard := ⟨digest, siteAddr ⟨0, 0⟩, 1, 0, 1, reader, 0⟩
def version (state : VerState) (phase : FetchPhase) (reader : Nat) : Version :=
  ⟨2, state, [], [shard reader], [⟨1, 2, false, 3⟩], 2000, [(0, fetch phase)], [], [], false⟩
def supplied (state : VerState) (phase : FetchPhase) (reader : Nat) : State :=
  { host (.part 0) with wt := [((0, 0), version state phase reader)] }
theorem test_model_slot : (supplied .ready .verified 0).slotOf 0 2 = some (0, version .ready .verified 0) ∧ (supplied .ready .verified 0).slotOf 0 3 = none
    ∧ (version .ready .verified 0).shards.length ≤ 1 ∧ 0 < (version .ready .verified 0).shards.length ∧ (supplied .ready .verified 0).otherMembers 0 = []
    ∧ (supplied .ready .verified 0).orders 0 = (supplied .ready .verified 0).self ∧ ((supplied .ready .verified 0).freeSlot 0).isSome = true := by decide
theorem test_manifest_bad : manifestBad 0 [] = true ∧ ¬(60000 < 60000) ∧ (0 < 9 ∧ 9 < 10) := by decide
theorem test_fetch : (supplied .loading .queued 0).fetchOf 0 2 0 = some (version .loading .queued 0, shard 0, fetch .queued) := by decide
theorem test_fetch_start : (∀ y ∈ (version .loading .queued 0).fetches, y.2.phase = .queued → 0 ≤ y.1) ∧ (supplied .loading .queued 0).fetching < 16
    ∧ ((version .loading .queued 0).sources[0]?).any (·.onModule) = false := by decide
theorem test_fetch_reads : (supplied .loading .reading 0).reads (shard 0) (fetch .reading) = true ∧ 3 ≤ (fetch .reading).tries + 1
    ∧ ({ fetch .reading with tries := 1 } : Fetch).tries + 1 < 3 ∧ (supplied .loading .reading 9).reads (shard 9) (fetch .reading) = false
    ∧ (fetch .delay).phase = .delay ∧ (shard 0).reader = (supplied .loading .verified 0).self.val := by decide
theorem test_verify : (supplied .loading .reading 9).reads (shard 9) (fetch .reading) = false ∧ Assoc.find 0 (version .loading .reading 9).repairs = none
    ∧ ([5] : List Byte).length = (shard 9).bytes ∧ 3 ≤ (fetch .reading).resends ∧ ({ fetch .reading with resends := 2 } : Fetch).resends < 3 := by decide
theorem test_verify_digest : let v := { version .loading .reading 9 with shards := [shard 9 (sha384 [5])] }
    ({ supplied .loading .reading 9 with wt := [((0, 0), v)] } : State).fetchOf 0 2 0 = some (v, shard 9 (sha384 [5]), fetch .reading) := rfl
theorem test_report : (supplied .loading .reading 0).orders 0 = (supplied .loading .reading 0).self ∧ ((0, 0) : ModIx × Nat) ∉ (version .loading .reading 0).verified := by decide

/-! ## Witnesses: links and packets -/

theorem test_lane : 3 ∈ upPort.lanes ∧ (List.range 18).find? (fun k => upPort.healthy.getLsbD k && !(upPort.failed ||| BitVec.ofNat 18 (2 ^ 3)).getLsbD k
      && !upPort.lanes.contains k) = some 16 ∧ upPort.lanes[15]? = some 15 ∧ upPort.moving = false
    ∧ ((linked { upPort with moving := true }).port 1).moving = true := by decide
def flit (seq : BitVec 12) : Flit := flitWithCrc .data { flitEmpty with seq := seq, payload := List.replicate 240 0 }
theorem test_flit_crc (k : FlitKind) (f : Flit) (h : flitDecodes f = true) : flitOk k (flitWithCrc k f) = true := by
  unfold flitOk
  rw [Bool.and_eq_true, Bool.and_eq_true]
  exact ⟨⟨h, decide_eq_true rfl⟩, decide_eq_true (by cases k <;> rfl)⟩
theorem test_flit : flitOk .data (flit 0) = true ∧ (flit 0).seq = upPort.rxSeq + 1 ∧ upPort.waiting = []
    ∧ flitDecodes { flit 0 with errs := [15, 0] } = true ∧ flitDecodes { flit 0 with errs := [0, 16] } = false ∧ upPort.naked = false :=
  ⟨test_flit_crc _ _ rfl, by show (0 : BitVec 12) = _; decide, by decide, rfl, rfl, by decide⟩
def ported (st : PortState) (stage : TrainStage) : State := (State.reset.setReg .fabPortCtrl 0 1 1).setPort 1 { upPort with state := st, stage := stage }
theorem test_training : (ported .down .phy).mayTrain 1 = true ∨ (ported .down .phy).flatPort 1 = true := by decide
theorem test_lane_check : lanesOf 0x3FFFF = some (List.range 16) ∧ lanesOf 0xFF = some (List.range 8) ∧ lanesOf 0x7F = none
    ∧ ((ported .training .laneCheck).port 1).stage = .laneCheck ∧ ((ported .training .lock).port 1).state = .training := by decide
def ident : IdentRecord := ⟨0x4B49, 1, 0, 0, 0, 0, 3, 3, 2, 0⟩
theorem test_ident : ident.magic = 0x4B49 ∧ upPort.idents.head? ≠ some ident ∧ ({ upPort with idents := [ident, ident] } : FabPort).idents = [ident, ident]
    ∧ 2 ≤ ident.state.toNat ∧ ident.state.toNat ≤ 5 := by decide
theorem test_link_state : Fin.ofNat 64 ({ msg 0 with module := 5 }).module ≠ State.reset.self ∧ Assoc.find (5 : ModIx) State.reset.fab.lsdb = none
    ∧ Fin.ofNat 64 (msg 0).module = State.reset.self ∧ (∀ p, (State.reset.port p).state ≠ .up) ∧ State.reset.tb.state = .free
    ∧ ((linked upPort).port 1).state = .up := by decide
def pk (addr : Word) (payload : List Byte) : Packet := packet 0 addr 8 payload
theorem test_packet : (packetOf (.write (pk 0 []))).isSome = true ∧ pkBad .write (pk 0x0100000000000000 []) = true ∧ pkBad .read (pk 0 []) = false
    ∧ ({ pk 0 [] with dstModule := 9 } : Packet).dstModule ≠ (live idle).self ∧ (pk 0 []).dstModule = (live idle).self := by decide
theorem test_packet_stamp : (6 : Word).toNat > ((live idle).dom 0).tick ∧ (4 : Word).toNat < ((live idle).dom 0).tick ∧ (5 : Word).toNat = ((live idle).dom 0).tick
    ∧ ((live idle).dom 0).lastTick = none ∧ ((live idle).dom 0).run < 1 := by decide
theorem test_remote : Local (live idle) .write (pk 0x2200000000040 [1, 2, 3, 4, 5, 6, 7, 8])
    ∧ (live idle).place (hostAcc 0) (bits (0x2200000000040 : Word) 49 0) 8 true = .ok ⟨.core, siteAddr ⟨0, 0⟩ + 64, 0, none⟩
    ∧ (live idle).place (hostAcc 0) (bits (64 : Word) 49 0) 8 false = .error 0x0601 := by unfold Local; decide
def asked (kind : ReqKind) (late : List (Nat × Dest)) : State :=
  let s := live { idle with late := late }
  { s with fab := { s.fab with reqs := [⟨7, .core k0, kind, 0, 0, 0, 0, true, 8, 0, false, 0, []⟩] } }
theorem test_response : ((asked (.load 2) [(2, .s 3)]).request 7).isSome = true ∧ Assoc.find 2 ((asked (.load 2) [(2, .s 3)]).core k0).late = some (.s 3)
    ∧ Local (asked (.load 2) [(2, .s 3)]) .readResp (pk 0 []) ∧ QuietStations (asked (.load 2) [(2, .s 3)]) k0 0 ∧ (asked .store []).barriers = []
    ∧ (live idle).request 7 = none := by unfold Local QuietStations; decide
theorem test_held_packet : ∀ s : State, ({ s with fab := { s.fab with held := [(.write, pk 0 [])] } } : State).fab.held = [] ++ (.write, pk 0 []) :: []
    ∧ (pk 0 []).tag = 7 := fun _ => ⟨rfl, rfl⟩
def inst : CollInst := ⟨0, 0, 6, 1, 7, 0, [0], 1, 0, [⟨k0, 0, 0, ⟨0, [], false⟩, 0⟩], [], none, false, 0⟩
theorem test_instance : ∃ x, ((live idle).setInsts [inst]).insts = [x] ∧ x.part = 0 ∧ x.group = (6 : Code).toNat ∧ x.n = 1 ∧ x.fault = 0
    ∧ (∀ c ∈ x.contribs, ((live idle).core c.core).colls = [] ∧ RunsIn (live idle) c.core 0) :=
  ⟨inst, rfl, by unfold RunsIn; decide⟩

/-! ## Witnesses: the host port and its sessions -/

def open' (x : Session) : State := (host (.part 0)).setHp { ((host (.part 0)).setSession 1 x).hp with state := .up, lanes := 4 }
def plainSession : Session := newSession (.part 0) 77 false 1024 true 1024
def netSession : Session := newSession (.net none) 77 false 1024 true 1024
theorem test_heard : (open' plainSession).hp.state = .up ∧ ((open' plainSession).reg .hpCtrl).getLsbD 1 = false ∧ State.reset.hp.state ≠ .up
    ∧ (((open' plainSession).setReg .hpCtrl 0 0 3).reg .hpCtrl).getLsbD 1 = true ∧ (open' plainSession).hp.macsec = false
    ∧ frameOf (.keepalive (hdr 1 1) []) = some false ∧ frameOf (.arpRequest ⟨true, 0⟩) = some true := by decide
theorem test_lanes : (open' plainSession).hp.carries 2 = true ∧ (open' plainSession).hp.carries 4 = false ∧ (open' plainSession).hp.spareFor = none
    ∧ (((open' plainSession).setReg .hpCtrl 0 0 5).reg .hpCtrl).getLsbD 2 = true ∧ (((open' plainSession).setReg .hpCtrl 0 0 1).reg .hpCtrl).getLsbD 2 = false
    ∧ (State.reset.reg .hpCtrl).getLsbD 0 = true ∧ State.reset.boot.readyEvent = false := by decide
theorem test_open : opener (open' plainSession) 77 0 = some (.part 0) ∧ opener (open' plainSession) 77 0xFF = some .mgmt ∧ opener (open' plainSession) 77 0xFE = some (.net none)
    ∧ opener (open' plainSession) 77 16 = none ∧ (hdr 0 1).wellFormed = true ∧ ([0, 0, 0, 4, 0, 0, 0, 0] : List Byte).length = 8
    ∧ fieldNat ([0, 0, 0, 4, 0, 0, 0, 0] : List Byte) 2 2 = 1024 ∧ (open' plainSession).hp.sessions.length < 1024 := by decide
theorem test_prefix : opener ((open' plainSession).setReg .hpPPrefixLen 0 0 128) 77 0 = none := by decide
theorem test_open_ok : (open' { netSession with established := false }).hp.sessions.find? (fun p => !p.2.established) = some (1, { netSession with established := false })
    ∧ (∀ p ∈ (open' netSession).hp.sessions, p.2.established = true) := by decide
theorem test_session_packet : (open' plainSession).session (hdr 1 1).session = some plainSession ∧ (open' plainSession).session 2 = none
    ∧ plainSession.waiting = [] ∧ plainSession.early = [] ∧ (hdr 1 1).seq = plainSession.rxSeq + 1 ∧ (hdr 0 1).seq = plainSession.rxSeq
    ∧ 2 ≤ ((hdr 2 1).seq - plainSession.rxSeq).toNat ∧ ((hdr 1024 1).seq - plainSession.rxSeq).toNat ≤ 1024
    ∧ 1024 < ((hdr 1025 1).seq - plainSession.rxSeq).toNat ∧ 2 ^ 31 ≤ ((hdr (-1) 1).seq - plainSession.rxSeq).toNat := by decide
theorem test_plainly : Plainly plainSession := ⟨fun p h => (by cases h), by decide, by decide⟩
theorem test_frame_end : let all := plainSession.stream ++ (natBytes 2 1 ++ natBytes 2 0 ++ natBytes 4 0 ++ natBytes 8 9)
    16 ≤ all.length ∧ all.length = 16 + fieldNat all 4 4 ∧ (all.take 15).length < 16 ∧ all.length ≤ plainSession.maxLen := by decide
def netMsg (n : Nat) : List Byte := [0, 0, 0, 0] ++ natBytes 4 n ++ List.replicate 24 0
def netted : State := (((open' netSession).setReg .nxPRxBase 0 0 65536).setReg .nxPRxSize 0 0 65536).setReg .nxPRxCtl 0 0 64
theorem test_net : netSession.owner = .net none ∧ netted.netRoom netSession (netMsg 0) = true ∧ (open' netSession).netRoom netSession (netMsg 0) = false ∧ netted.netRoom { netSession with net := [1] } [2] = true
    ∧ 32 + fieldNat (netMsg 0) 4 4 ≤ (netMsg 0).length ∧ (netMsg 1).length < 32 + fieldNat (netMsg 1) 4 4 := by decide
theorem test_timers : (open' { plainSession with unacked := [(1, .data, [])], ackDue := true }).session 1 = some { plainSession with unacked := [(1, .data, [])], ackDue := true }
    ∧ (open' plainSession).session 3 = none ∧ (∀ p, plainSession.owner ≠ .net (some p)) ∧ (newSession (.net (some 2)) 77 false 1024 true 1024).owner = .net (some 2) :=
  ⟨by decide, by decide, fun p h => (by cases h), rfl⟩
theorem test_event_ack : ((open' plainSession).setChan 7 ⟨some 0, 1, 2, 1048576, 1, [(1, [])]⟩).chan (hdr 1 7).session = some ⟨some 0, 1, 2, 1048576, 1, [(1, [])]⟩
    ∧ (open' plainSession).chan 7 = none := by decide

/-! ## Witnesses: serving, the SPDM responder, arbiters -/

theorem test_submit_length : (List.replicate 904 (0 : Byte)).length = 904 + 4 * fieldNat (List.replicate 904 (0 : Byte)) 76 4
    ∧ (List.replicate 908 (0 : Byte)).length ≠ 904 + 4 * fieldNat (List.replicate 908 (0 : Byte)) 76 4 ∧ (List.replicate 903 (0 : Byte)).length < 904 := by
  simp only [fieldNat, List.drop_replicate, List.take_replicate, List.length_replicate]; decide
/-- Entry 0 of partition 0, request 1, in this state. -/
def cmd (c : Code) (body : List Byte) (origin : ModIx := 0) : HostCmd := ⟨c, 0, origin, 0, frame body⟩
def entry (st : ReqState) : Entry := { newEntry (cmd 0x0010 []) 0 0 with state := st, reqId := 1 }
def requested (st : ReqState) : State :=
  let s := host (.part 0)
  { s with sv := { s.sv with entries := [(0, entry st)], results := [(0, ⟨[1, 2], 0, 0⟩)] } }
  |>.setReg .svPQuota 0 0 0x0000000800000000 |>.latchCfg 0
def named : List Byte := natBytes 8 0 ++ natBytes 8 1
theorem test_result : (requested .done).resultEntry 0 named = some (0, entry .done) ∧ (requested .done).resultEntry 0 (natBytes 16 0) = none
    ∧ (entry .decode).state ≠ .done ∧ Assoc.find 0 (requested .done).sv.results = some ⟨[1, 2], 0, 0⟩ := by decide
theorem test_orders : (host (.part 0)).orders 0 = (host (.part 0)).self ∧ ((host (.part 0)).setReg .cadDomCtrl 0 0 1).enabled 0 = true
    ∧ ((ended 5 6).setReg .cadDomCtrl 0 0 1).orders 0 ≠ (ended 5 6).self ∧ versionCmd 0x0011 = false ∧ versionCmd 0x0030 = true := by decide
theorem test_cancel : (requested .decode).sv.entries = [(0, entry .decode)] ∧ (entry .decode).part = (cmd 0x0011 []).part
    ∧ (entry .decode).reqId = bytesWord ((natBytes 8 1).take 8) ∧ (∀ p ∈ (requested .decode).sv.entries, p.2.part = 0 → p.2.reqId ≠ bytesWord ((natBytes 8 2).take 8)) := by decide
theorem test_result_ack : (cmd 0x0013 named 5).origin ≠ (requested .done).self ∧ (entry .done).state = .done := by decide
def prog : Program := ⟨3, 1, [], 0, [0], 0, [], []⟩
theorem test_programs : (host (.part 0)).imageOk 0 [] = none ∧ Assoc.find ((0 : Part), (3 : BitVec 32)) ({ host (.part 0) with programs := [((0, 3), prog)] } : State).programs = some prog
    ∧ ((host (.part 0)).cfg .svPProgram 0 0).setWidth 32 ≠ (3 : BitVec 32) ∧ Assoc.find ((0 : Part), (3 : BitVec 32)) (host (.part 0)).programs = none := by decide
def submitter : State :=
  { (((requested .decode).setReg .svPVocab 0 0 2).setReg .svPProgram 0 0 3).setReg .svPAreaSize 0 0 1048576 |>.latchCfg 0 with programs := [((0, 3), prog)] }
theorem test_submit : submitter.cfg .svPVocab 0 0 ≠ 0 ∧ (submitter.namedProgram 0).isSome = true ∧ submitter.requestBad 0 (List.replicate 904 0) = true
    ∧ submitter.freeEntryIx 0 = some 1 ∧ areaFit (submitter.cfgN .svPAreaSize 0 0) 776 [] = some 0 ∧ areaFit 1048576 8 [(0, 0, 1048576)] = none
    ∧ (host (.part 0)).namedProgram 0 = none := by decide
theorem test_allocation : submitter.freeEntryIx 0 = some 1 ∧ areaFit 1048576 16 [(0, 0, 64)] = some 64 := by decide
theorem test_packet_in (x : Session) (h : BrosinHdr) (m : List Byte) (hx : (open' x).session h.session = some x ∧ Plainly x)
    (hh : (open' x).hp.state = .up ∧ ((open' x).reg .hpCtrl).getLsbD 1 = false) (hw : h.wellFormed = true ∧ m.length ≤ x.maxLen) :
    PacketIn (open' x) x h m :=
  ⟨⟨hh.1, fun p => by rw [hh.2] at p; cases p⟩, hx.1, hx.2, hw⟩
theorem test_spdm_packet : PacketIn (open' plainSession) plainSession (hdr 1 1) [0x10, 0x84, 0, 0] :=
  test_packet_in _ _ _ ⟨by decide, test_plainly⟩ (by decide) (by decide)
theorem test_spdm : spdmRequest (.getVersion (hdr 1 1) [0x10, 0x84, 0, 0]) = some (hdr 1 1, [0x10, 0x84, 0, 0]) ∧ plainSession.established = true
    ∧ (hdr 1 1).seq = plainSession.rxSeq + 1
    ∧ ([0x10, 0x84, 0, 0] : List Byte).head? = some 0x10 ∧ ([0x13, 0x81, 0, 0] : List Byte).head? = some 0x13 ∧ Spdm.init.algs = false
    ∧ ([0x10, 4, 0, 0, 0, 1, 0, 0x13] : List Byte).length ≤ plainSession.maxLen := by decide
theorem test_window16 : Window16 (window 369 10 [0, 0]) ∧ (window 369 10 [0, 0]).credit.sum ≤ 512 := by unfold Window16; decide
theorem test_refresh : ((State.reset.setArb 2 { State.reset.arbiter 2 with refreshes := [7] }).arbiter 2).refreshes = 7 :: [] := by decide
theorem test_part_query : namedPart (frame [0, 0, 0, 0]) = some 0 ∧ namedPart (frame [16, 0, 0, 0]) = none ∧ (host .mgmt).partValid 0 = true ∧ (host .mgmt).partValid 1 = false := by decide
def effort : State := (live idle).setReg .partCfg 0 0 0xC000000000010001
theorem test_preempt : effort.preemptible 0 = true ∧ (live idle).preemptible 0 = false ∧ (effort.dom 0).stopped = false := by decide

/-! ## Witnesses: integrity, power, bring-up, trust -/

def replay (runs : List (Fin 160 × Option (List Byte))) (k : Option (Fin 160)) : Replay := ⟨⟨0, 0⟩, 0, 5, 0, 0, 3, 0, false, unit, runs, k⟩
def replaying (r : Replay) : State := { live idle with integ := { (live idle).integ with queue := [(0, [r])] } }
theorem test_replay : (replaying (replay [] none)).replaySite 0 (replay [] none) = some ⟨0, 144⟩ ∧ Assoc.getD 0 [] (replaying (replay [] none)).integ.queue = [replay [] none]
    ∧ (replay [] (some 144)).running = some 144 ∧ (none : Option (List Byte)) ≠ some (originalDigest unit) ∧ ((replaying (replay [] none)).site ⟨0, 1⟩).state ≠ .spare := by decide
def siteIn (i : SiteId) (st : SiteState) : State := State.reset.setSite i { Site.made i.site with state := st }
theorem test_scan : (siteIn ⟨0, 150⟩ .quarantined).scanNext 0 = some ⟨0, 150⟩ ∧ (siteIn ⟨0, 150⟩ .quarantined).scanning 0 = false
    ∧ (siteIn ⟨0, 150⟩ .scanning).scanning 0 = true ∧ State.reset.scanNext 0 = none
    ∧ (dieSites 0).find? (fun j => decide (((siteIn ⟨0, 150⟩ .scanning).site j).state = .scanning)) = some ⟨0, 150⟩ := by decide
theorem test_scan_home : (Site.made 150).due = false ∧ (Site.made 150).home = none ∧ (live idle).partOf ⟨0, 0⟩ = some 0 ∧ (∀ k, (State.reset.siteOf ⟨0, k⟩).isSome = true) :=
  ⟨by decide, by decide, by decide, fun k => by
    unfold State.siteOf
    rw [if_pos (by show (Site.made ⟨k.val, _⟩).slot = some k; unfold Site.made; simp)]; rfl⟩
theorem test_rotation : (live idle).oldestScan 0 = some ⟨0, 0⟩ ∧ ((live idle).siteHeld ⟨0, 0⟩).isSome = true ∧ ((live idle).setReg .derRotatePeriod 0 0 24).regN .derRotatePeriod ≠ 0
    ∧ (State.reset.site ⟨0, 159⟩).state = .spare := by decide +kernel
theorem test_integrity_commands : bodySite (natBytes 4 7 ++ natBytes 4 159) = some ⟨7, 159⟩ ∧ bodySite (natBytes 4 7 ++ natBytes 4 160) = none
    ∧ (host .mgmt).spareFor 0 = some ⟨0, 144⟩ ∧ (host .mgmt).replaying ⟨0, 144⟩ = false ∧ ((host .mgmt).site ⟨0, 144⟩).scanCmd = none
    ∧ Assoc.find 3 (host .mgmt).integ.snapshots = none ∧ fieldNat (natBytes 4 63) 0 4 ≤ 63 := by decide
theorem test_caps : (1200 : Word).toNat = 1200 ∧ (3600 : Word).toNat = 3600 ∧ (1199 : Word).toNat < 1200 ∧ State.reset.pw.armed = false ∧ State.reset.pw.safeCap = false
    ∧ bits (0x1000003E8 : Word) 31 0 = 1000 ∧ bits (600000 : Word) 31 0 = 600000 := by decide
def powered (f : Power → Power) : State := State.reset.setPw (f State.reset.pw)
theorem test_cap_tracking : (powered (fun p => { p with estimate := 3600 })).effectiveCap.1 < (powered (fun p => { p with estimate := 3600 })).pw.estimate ∨
    State.reset.pw.estimate ≤ State.reset.effectiveCap.1 := by decide
theorem test_estimate : State.reset.pw.state ≠ .on ∧ State.reset.pw.tracking = false ∧ State.reset.ballastOn = false
    ∧ 1000 * State.reset.pw.gain / 4096 ≤ (State.reset.recap).regN .pwrEffectiveCap ∧ (∀ n, (State.reset.dom n).heldStart = false) := by decide
theorem test_calibration : State.reset.pw.missing + 1 < 3 ∧ 2 ≤ (powered (fun p => { p with missing := 2 })).pw.missing ∧ (80 * 100 ≤ 100 * 80 ∧ 100 * 125 ≤ 125 * 100)
    ∧ ¬(80 * 100 ≤ 100 * 79) := by decide
theorem test_thermal : State.reset.pw.state ≠ .off ∧ ceilingStep 1520 1519 16 9 = (16, 0) ∧ ceilingStep 1520 1520 1 3 = (1, 0) ∧ ceilingStep 1520 1487 4 9 = (5, 0)
    ∧ ceilingStep 1520 1488 4 9 = (4, 0) ∧ State.reset.pw.hold = false ∧ State.reset.thermLimit 16 < State.reset.thermLimit 8 := by decide
theorem test_pins : (powered (fun p => { p with state := .off })).pw.state = .off ∧ State.reset.pw.state = .standby ∧ State.reset.pw.shelfLoss = false
    ∧ (powered (fun p => { p with down := some .warm })).pw.down = some .warm ∧ State.reset.boot.flashWrites = 0 ∧ State.reset.boot.failed = none
    ∧ (powered (fun p => { p with pwrEn := true, resetN := true })).pw.resetN = true ∧ State.reset.parks ⟨0, 0⟩ = true ∧ State.reset.parks ⟨0, 144⟩ = false := by decide
theorem test_reset_classes : (∃ r : Reg, r.inFlash = false ∧ r ≠ .derCode) ∧ (∃ r : Reg, r.inFlash = true) ∧ (∃ r : Reg, r.keptWarm = true ∧ r ≠ .pwrEffectiveCap)
    ∧ (∃ r : Reg, r.onRoot = false) :=
  ⟨⟨.memCtrl, by decide⟩, ⟨.derRetirements, by decide⟩, ⟨.memCtrl, by decide⟩, ⟨.mxFault, by decide⟩⟩
def stage (k : Nat) : State := { powered (fun p => { p with state := .ramp }) with boot := { State.reset.boot with stage := k } }
theorem test_stages : (stage 6).boot.failed = none ∧ (stage 6).boot.ready = false ∧ (stage 6).pw.state = .ramp ∧ (stage 6).boot.stage = 6 ∧ (stage 6).onTrial = false := by decide
def trial : State := { stage 6 with boot := { (stage 6).boot with trialRunning := true, running := true, slotB := { (stage 6).boot.slotB with state := .trial } } }
theorem test_trial : trial.onTrial = true ∧ trial.boot.ready = false ∧ trial.pw.state = .ramp ∧ (trial.image true).state = .trial := by decide
theorem test_boot_commands : slotOf (fieldNat (natBytes 4 1 ++ natBytes 4 0) 0 4) = some true ∧ (host .mgmt).boot.current ≠ true ∧ (host .mgmt).boot.trial = none
    ∧ (host .mgmt).resetting = false ∧ ((host .mgmt).site ⟨0, 144⟩).slot = none := by decide
theorem test_part_reset : (∀ p ∈ State.reset.boot.partReset, p.1 ≠ 0) ∧ k0 ∈ onePart.coresOf 0 := by decide
theorem test_trust : (host .mgmt).trust.enrolled = false ∧ zeros (((List.replicate 208 (0 : Byte)).drop 97).take 7) = true ∧ onCurve [] = false
    ∧ (host .mgmt).slotAllowed .mgmt 59 = true ∧ (host .mgmt).slotAllowed .mgmt 58 = false ∧ (host .mgmt).slotBusy 63 = false ∧ (host .mgmt).openKey [] = none := by decide
theorem test_change : (host .mgmt).changeCheck [] = .error 0x0D01 := rfl
theorem test_report_key : ({ State.reset.trust with aliasLms := true, aliasLeft := 1 } : Trust).aliasLeft ≠ 0 ∧ State.reset.trust.aliasLms = false := by decide
theorem test_perm : [((some ⟨1, 0⟩ : Option Dy), false), (none, true)].Perm [(none, true), (some ⟨1, 0⟩, false)] := by decide
theorem test_accumulation : (accAdd ⟨0, 0, 0x3F80, 0, 0, false⟩ (some ⟨1, 0⟩) false).count ≠ 0 ∧ (accAdd ⟨0, 0, 0x3F80, 0, 0, false⟩ none false).nan = true := by decide
theorem test_alert : ∃ c ∈ (powered (fun p => { p with ceilings := 15 :: p.ceilings })).pw.ceilings, c < 16 := ⟨15, by decide⟩


/-! ## Witnesses: statements widened after the review -/

/-- The address of a register names it. -/
def named? (k : RegKey) : Bool := decide (regAt (BitVec.ofNat 64 k.addr).toNat = some k)
theorem test_register_acts : named? (rk .memCtrClear) = true ∧ actsAs ⟨0, 0⟩ (rk .memCtrClear) 1 = some (.memCtrClear 1) ∧ named? (rk .mxFault 0) = true
    ∧ Reg.mxFault.info.acc = .ro ∧ named? (rk .pwrCapPolicy) = true ∧ Reg.pwrCapPolicy.info.acc = .rwProt ∧ regAt 0 = none
    ∧ (Reg.cadDomTick.locks && (settled.setReg .cadDomCtrl 0 0 1).enabled 0) = true := by decide
theorem test_register_stores : named? (rk .svPQuota) = true ∧ Reg.svPQuota.info.acc = .rw ∧ State.reset.inLimits (rk .svPQuota) 0x100000000 = true
    ∧ named? (rk .memTcBase) = true ∧ State.reset.inLimits (rk .memTcBase) 0 = true ∧ named? (rk .pwrSafeCap) = true
    ∧ State.reset.inLimits (rk .pwrSafeCap) 1200 = true ∧ named? (rk .cxlCtrl) = true ∧ named? (rk .hpCtrl) = true
    ∧ (State.reset.cxlPort 0).state = .down ∧ State.reset.hp.state = .down := by decide
theorem test_sited : Sys2Proof.Claims.sited ⟨0, 7⟩ (rk .mxFault 7) := fun _ => rfl
theorem test_clear_done : (State.reset.setReg .memStatus 0 0 2).regN .memStatus = 2 ∧ State.reset.regN .memStatus ≠ 2 := by decide
def clocked (n : Word) (edge : Option Word) : State := { State.reset with tb := { State.reset.tb with tbc := n, edge := edge } }
theorem test_pps : (0 : Word).toNat % 1000000000 = 0 ∧ ((clocked 1000000001 none).tb.tbc + State.reset.reg .cadPtpOffset).toNat % 1000000000 ≠ 0
    ∧ (clocked 500000000 (some 0)).tb.edge = some 0 ∧ 500000000 ≤ ((clocked 500000000 (some 0)).tb.tbc - 0).toNat
    ∧ ((clocked 499999999 (some 0)).tb.tbc - 0).toNat < 500000000 := by decide
/-- The words of the worked examples of chapter Instruction set. -/
theorem test_words : seqInstr k0 0x1D052BFFFFFFFFEE 0 = some (.addi k0 (imm 10 10 (-18))) ∧ seqInstr k0 0xFF00000000000000 0 = none
    ∧ (seqInstr k0 0x04062C0000100008 0).isSome = true ∧ (seqInstr k0 0x5100100180001000 0).isSome = true := by decide
theorem test_barrier_full : (⟨3, [], [[⟨0, 1⟩, ⟨0, 2⟩, ⟨0, 3⟩]]⟩ : Barrier).arrived = [] := rfl
theorem test_clean : Clean (live ports) (siteAddr ⟨0, 0⟩ + 64) 8 ∧ (live ports).poisonedIn 64 8 = false
    ∧ (({ live ports with ms := { State.reset.ms with poisoned := [1] } } : State).poisonedIn 64 8) = true := by unfold Clean; decide
theorem test_ends_here : EndsHere (live idle) 0 (segment 5 0) ∧ ({ segment 5 0 with dstModule := 9 } : ExSegment).dstModule ≠ (live idle).self
    ∧ EndsHere (live idle) 0 { segment 5 0 with mask := 1 } := by unfold EndsHere; decide
theorem test_only_counted (s : State) : OnlyCounted s s := ⟨rfl, fun _ => rfl⟩
theorem test_cxl_station : ((live idle).dom 0).state = .running ∧ ¬ ((4 = 16 ∨ 4 = 8) ∧ (64 = 64 ∨ 64 = 32)) := by decide
theorem test_tier_hits : Assoc.find 2097152 ({ State.reset with ms := { State.reset.ms with tcHits := [(2097152, 64)] } } : State).ms.tcHits = some 64
    ∧ Assoc.find 2097153 State.reset.ms.tcHits = none := by decide
theorem test_fill_range : (∃ p, (mapped0 3).place (hostAcc 0) 0x1000 4096 false = .ok p) ∧ Clean (mapped0 3) 0x1000 4096
    ∧ State.reset.place (hostAcc 0) 0x1000 4096 false = .error 0x0601 :=
  ⟨⟨_, rfl⟩, by unfold Clean; decide, by decide⟩
theorem test_silence_vote : ∃ v ∈ (((tallied [(0, 5, 0)] 0).dom 0)).tally.votes, v.1 = ((tallied [(0, 5, 0)] 0).dom 0).tally.resolved :=
  ⟨(0, 5, 0), by decide⟩
theorem test_multicast : pkBad .write { pk 0 [] with mc := true, mask := 1 } = false ∧ ({ pk 0 [] with mc := true, mask := 1 } : Packet).mc = true := by decide
def found18 : List (Option (Fin 18 × Bool)) := (List.finRange 18).map (fun k => some (k, false))
theorem test_found : lanesOf 0x3FFFF = some (List.range 16) ∧ (found18.getD 17 none).isSome = true ∧ (found18.getD 18 none).isSome = false
    ∧ (∀ k, k < 18 → (0x3FFFF : BitVec 18).getLsbD k = ((found18.getD k none).isSome && decide (0 ≤ State.reset.regN .fabLaneSerLimit))) := by decide
theorem test_ident_record : identOf (identBytes ident) = ident ∧ flitOk .ident (flitWithCrc .ident { flitEmpty with errs := [0], payload := identBytes ident }) = true
    ∧ flitOk .laneCtl (flitWithCrc .laneCtl { flitEmpty with errs := [15] }) = true :=
  ⟨by decide, test_flit_crc _ _ rfl, test_flit_crc _ _ rfl⟩
theorem test_stream : ({ upPort with stream := List.replicate 1024 0 } : FabPort).stream.length = 1024 ∧ upPort.stream.length < 1024 :=
  ⟨by show (List.replicate 1024 (0 : Byte)).length = 1024; rw [List.length_replicate], by decide⟩
/-- The generator of RS(544,514) is zero at the field's 1 and at its primitive element. -/
theorem test_generator : rsGenerator.length = 30 ∧ rsGenerator.foldl (fun a c => a ^^^ c) 1 = 0
    ∧ rsGenerator.foldl (fun a c => symMul 2 a ^^^ c) 1 = 0 := by decide +kernel
theorem test_shard_place : (supplied .loading .reading 9).place (hostAcc 0) (siteAddr ⟨0, 0⟩) 1 true = .error 0x0601 ∨
    (supplied .loading .reading 9).place (hostAcc 0) 0x2200000000000 1 true = .ok ⟨.core, siteAddr ⟨0, 0⟩, 0, none⟩ := by decide
theorem test_channel_bad : submitter.channelBad 0 (List.replicate 904 0) = true
    ∧ (submitter.setChan 0 ⟨some 0, 1, 2, 1048576, 1, []⟩).channelBad 0 (List.replicate 904 0) = false := by decide
def glowing : State := (powered (fun p => { p with levels := List.replicate 8 ⟨16, 16, 3⟩, state := .on })).setSite ⟨0, 0⟩ { Site.made 0 with state := .inService }
theorem test_ballast : glowing.ballasts ⟨0, 0⟩ = true ∧ State.reset.ballasts ⟨0, 0⟩ = false ∧ (glowing.siteHeld ⟨0, 0⟩).isSome = true := by decide
theorem test_gddr_rate : (∃ d, d < 4 ∧ ([36, 40, 40, 40] : List Nat).getD d 40 < 40) ∧ ¬ ∃ d, d < 4 ∧ ([] : List Nat).getD d 40 < 40 :=
  ⟨⟨0, by decide⟩, fun ⟨_, _, h⟩ => by simp at h⟩
theorem test_row_scale : (0x3F80 : BitVec 16).toNat / 128 % 256 ≠ 255 ∧ (0x7F80 : BitVec 16).toNat / 128 % 256 = 255
    ∧ (readElem .l64 (some ⟨2 ^ 60, 0, 0x7F80, 1, 0, false⟩)).1 = 0x8000000000000000 := by decide
end Sys2Proof.Tests
end

section
/-! # Registers: what names them, and what a write leaves

Support for the statements about registers and reset: what a command completes in, what an event leaves, which register an
address names, and what a write does to each kind of register. -/

namespace Sys2Proof.Machine

open Sys2Proof.Claims

/-! ## Commands and keys -/

/-- A command whose effect keeps the queue completes in the state of its effect. -/
theorem exec_next {i : Instr} {f : State → State} {s t : State} (hx : exec i s = lift f s) (h : f s = t)
    (hp : t.pending = s.pending) : exec i s = .next t := by
  rw [hx, lift_eq, h, ← hp]

theorem lift_congr {f g : State → State} {s : State} (h : f s = g s) : lift f s = lift g s := by
  rw [lift_eq, lift_eq, h]

@[simp] theorem rk_reg (r : Reg) (i j : Nat) : (rk r i j).reg = r := by
  unfold rk RegKey.home
  split <;> rfl

/-- A register is not changed by a write of a register of another row. -/
theorem State.reg_setReg_ne (s : State) {r q : Reg} (h : r ≠ q) (i j i' j' : Nat) (v : Word) :
    (s.setReg r i j v).reg q i' j' = s.reg q i' j' :=
  State.raw_setRaw_ne _ (fun e => h (by simpa using congrArg RegKey.reg e)) _

/-! ## Tables -/

theorem Assoc.find_append {α β : Type} [DecidableEq α] (k : α) (l m : List (α × β)) :
    Assoc.find k (l ++ m) = (Assoc.find k l).or (Assoc.find k m) := by
  induction l with
  | nil => rfl
  | cons p l ih =>
    rw [List.cons_append, Assoc.find_cons, Assoc.find_cons, ih]
    split <;> rfl

theorem Assoc.find_map_val {α β γ : Type} [DecidableEq α] (g : β → γ) (k : α) (l : List (α × β)) :
    Assoc.find k (l.map (fun p => (p.1, g p.2))) = (Assoc.find k l).map g := by
  induction l with
  | nil => rfl
  | cons p l ih =>
    rw [List.map_cons, Assoc.find_cons, Assoc.find_cons, ih]
    split <;> rfl

/-- A table made of a list of keys. -/
theorem Assoc.find_map_key {α β : Type} [DecidableEq α] (g : α → β) (k : α) (l : List α) :
    Assoc.find k (l.map (fun a => (a, g a))) = if k ∈ l then some (g k) else none := by
  induction l with
  | nil => rfl
  | cons a l ih =>
    rw [List.map_cons, Assoc.find_cons, ih]
    by_cases h : a = k
    · subst h; simp
    · simp [h, Ne.symm h]

/-- A value found in a table stands in it. -/
theorem Assoc.mem_of_find {α β : Type} [DecidableEq α] {k : α} {v : β} {l : List (α × β)} (h : Assoc.find k l = some v) :
    (k, v) ∈ l := by
  induction l with
  | nil => simp at h
  | cons p l ih =>
    obtain ⟨a, b⟩ := p
    rw [Assoc.find_cons] at h
    split at h
    · next hk =>
      simp only at hk
      cases h
      subst hk
      exact List.mem_cons_self
    · exact List.mem_cons_of_mem _ (ih h)

/-! ## Reset -/

/-- A register that nothing has written holds its reset value. -/
@[simp] theorem State.raw_reset (k : RegKey) : State.reset.raw k = k.reset := rfl

/-- After reset no domain is enabled: CAD.DOM_CTRL resets to 0 (R72). -/
theorem State.enabled_reset (n : Part) : State.reset.enabled n = false := by
  show (0 : Word).getLsbD 0 = false
  decide

/-- Settles O5: the tables of the state after reset are empty, and what is not listed holds its reset value. -/
theorem resetState : Obligations.ResetState :=
  ⟨rfl, rfl, State.wf_reset, rfl, rfl, State.enabled_reset, fun _ => rfl, State.raw_reset⟩

/-! ## Events -/

/-- The registers that the sending of an event changes (R453, R454). -/
def Reg.ofEvents : List Reg := [.hpTxFrames, .hpEvReleased, .hpCode]

/-- What events leave: messages are sent, the host port keeps them, its counters count, and nothing else changes. -/
structure EventOnly (s t : State) : Prop where
  frame : t = { s with tx := t.tx, regs := t.regs, hp := t.hp }
  regs : ∀ k : RegKey, k.reg ∉ Reg.ofEvents → t.raw k = s.raw k

namespace EventOnly

theorem refl (s : State) : EventOnly s s := ⟨rfl, fun _ _ => rfl⟩

theorem trans {s t u : State} (h : EventOnly s t) (h' : EventOnly t u) : EventOnly s u := by
  refine ⟨?_, fun k hk => (h'.regs k hk).trans (h.regs k hk)⟩
  conv_lhs => rw [h'.frame, h.frame]

variable {s t : State} (h : EventOnly s t)
include h

theorem pending : t.pending = s.pending := by rw [h.frame]
theorem mem : t.mem = s.mem := by rw [h.frame]
theorem tb : t.tb = s.tb := by rw [h.frame]
theorem doms : t.doms = s.doms := by rw [h.frame]
theorem cores : t.cores = s.cores := by rw [h.frame]
theorem ms : t.ms = s.ms := by rw [h.frame]
theorem integ : t.integ = s.integ := by rw [h.frame]
theorem pw : t.pw = s.pw := by rw [h.frame]
theorem trust : t.trust = s.trust := by rw [h.frame]
theorem boot : t.boot = s.boot := by rw [h.frame]

theorem reg {r : Reg} (hr : r ∉ Reg.ofEvents) (i j : Nat) : t.reg r i j = s.reg r i j := h.regs _ (by rwa [rk_reg])

end EventOnly

/-- A register of the event counters is changed by an event alone. -/
theorem EventOnly.setReg (s : State) {r : Reg} (hr : r ∈ Reg.ofEvents) (i j : Nat) (v : Word) : EventOnly s (s.setReg r i j v) :=
  ⟨rfl, fun k hk => State.raw_setRaw_ne _ (fun e => hk (by rw [← e, rk_reg]; exact hr)) _⟩

theorem EventOnly.send (s : State) (m : Msg) : EventOnly s (s.send m) := ⟨rfl, fun _ _ => rfl⟩

theorem EventOnly.setChan (s : State) (c : Nat) (x : Channel) : EventOnly s (s.setChan c x) := ⟨rfl, fun _ _ => rfl⟩

theorem pushEvent_eventOnly (s : State) (c : Nat) (kind code : Code) (tick : Word) (body : List Byte) :
    EventOnly s (s.pushEvent c kind code tick body).1 := by
  unfold State.pushEvent
  split
  · exact EventOnly.refl s
  · exact (((EventOnly.setChan s _ _).trans (EventOnly.send _ _)).trans (EventOnly.setReg _ (by decide) _ _ _)).trans
      (EventOnly.setReg _ (by decide) _ _ _)

theorem eventOn_eventOnly (s : State) (c : Nat) (kind code : Code) (tick : Word) (body : List Byte) :
    EventOnly s (s.eventOn c kind code tick body) := by
  unfold State.eventOn
  have h := pushEvent_eventOnly s c kind code tick body
  dsimp only
  split
  · exact h
  · exact (h.trans (EventOnly.setReg _ (by decide) _ _ _)).trans (pushEvent_eventOnly _ _ _ _ _ _)

/-- A report keeps its code in a register and sends an event (R10, R451). -/
theorem mgmtReport_eventOnly (s : State) (r : Reg) (code : Code) (detail : List Byte) :
    EventOnly (s.setReg r 0 0 (codeWord code)) (s.mgmtReport r code detail) := eventOn_eventOnly _ _ _ _ _ _

@[simp] theorem State.domReport_pending (s : State) (n : Part) (code : Code) (detail : List Byte) :
    (s.domReport n code detail).pending = s.pending := (eventOn_eventOnly _ _ _ _ _ _).pending

@[simp] theorem State.mgmtReport_pending (s : State) (r : Reg) (code : Code) (detail : List Byte) :
    (s.mgmtReport r code detail).pending = s.pending := (mgmtReport_eventOnly s r code detail).pending

/-! ## The queue of waiting commands through the fabric and the time base -/

/-- What every step of a fold keeps, the fold keeps. -/
theorem foldl_keeps {α β : Type} {f : State → α → State} (g : State → β) (h : ∀ t x, g (f t x) = g t) (l : List α)
    (s : State) :
    g (l.foldl f s) = g s := by
  induction l generalizing s with
  | nil => rfl
  | cons x l ih => exact (ih _).trans (h s x)

@[simp] theorem State.sendFlit_pending (s : State) (p : Port) (k : FlitKind) (f : Flit) :
    (s.sendFlit p k f).pending = s.pending := by
  unfold State.sendFlit
  dsimp only
  split <;> rfl

@[simp] theorem pumpFlits_pending (p : Port) (k : Nat) (s : State) : (pumpFlits p k s).pending = s.pending := by
  induction k generalizing s with
  | zero => rfl
  | succ k ih =>
    unfold pumpFlits
    dsimp only
    split
    · rfl
    · split
      · rfl
      · split
        · exact State.sendFlit_pending _ _ _ _
        · exact (ih _).trans (State.sendFlit_pending _ _ _ _)

@[simp] theorem State.pushBytes_pending (s : State) (p : Port) (vc : BitVec 4) (bs : List Byte) :
    (s.pushBytes p vc bs).pending = s.pending := pumpFlits_pending _ _ _

@[simp] theorem State.flood_pending (s : State) (m : Mgmt) (data : List Word) (but : Option Port) :
    (s.flood m data but).pending = s.pending := by
  unfold State.flood
  dsimp only
  split
  · rfl
  · exact foldl_keeps State.pending (fun _ _ => State.pushBytes_pending _ _ _ _) _ _

@[simp] theorem State.sendLinkState_pending (s : State) : s.sendLinkState.pending = s.pending := State.flood_pending _ _ _ _

@[simp] theorem State.routesChanged_pending (s : State) : s.routesChanged.pending = s.pending := State.mgmtReport_pending _ _ _ _

@[simp] theorem State.holdover_pending (s : State) : s.holdover.pending = s.pending := by
  unfold State.holdover
  split
  · rfl
  · exact foldl_keeps State.pending (fun _ _ => State.domReport_pending _ _ _ _) _ _

@[simp] theorem State.followRoot_pending (s : State) : s.followRoot.pending = s.pending := by
  unfold State.followRoot
  dsimp only
  split
  · split
    · rfl
    · exact State.holdover_pending _
  · split
    · rfl
    · exact State.holdover_pending _

@[simp] theorem State.parentLost_pending (s : State) (p : Port) : (s.parentLost p).pending = s.pending := by
  unfold State.parentLost
  split
  · rfl
  · rw [State.followRoot_pending, State.holdover_pending]

@[simp] theorem State.takeRole_pending (s : State) : s.takeRole.pending = s.pending := by
  unfold State.takeRole
  dsimp only
  split
  · rfl
  · split <;> rfl

@[simp] theorem State.reviewRole_pending (s : State) : s.reviewRole.pending = s.pending := by
  unfold State.reviewRole
  split
  · rfl
  · exact State.takeRole_pending s
  · dsimp only
    split
    · split
      · exact State.takeRole_pending s
      · split
        · rfl
        · exact State.mgmtReport_pending _ _ _ _
    · split
      · rfl
      · exact State.followRoot_pending s

@[simp] theorem State.movePort_pending (s : State) (p : Port) (x : FabPort) : (s.movePort p x).pending = s.pending := by
  unfold State.movePort State.portMoved
  dsimp only
  split_ifs <;> simp

@[simp] theorem State.portDown_pending (s : State) (p : Port) (event : Bool) : (s.portDown p event).pending = s.pending := by
  unfold State.portDown
  dsimp only
  split
  · rfl
  · split
    · exact (State.mgmtReport_pending _ _ _ _).trans (State.movePort_pending _ _ _)
    · exact State.movePort_pending _ _ _
/-! ## Rows of the register tables -/

/-- How many times a block stands: once a site for a core station, once a die for a die station and for CE, else once (R156,
R157). -/
def Block.copies : Block → Nat
  | .mx | .vx | .tx | .lx => 1280
  | .pn | .kv | .ex | .sv => 8
  | .ce => 6
  | _ => 1

/-- The offset of index `j` of a row. -/
def RegInfo.at (r : RegInfo) (j : Nat) : Nat := r.off + j / r.n2 * r.s1 + j % r.n2 * r.s2

/-- The offset of a row's last register. -/
def RegInfo.last (r : RegInfo) : Nat := r.off + (r.n1 - 1) * r.s1 + (r.n2 - 1) * r.s2

/-- A range of more than one register has a stride, the second range ends within a stride of the first, and every register is
aligned to 8 bytes and lies in a station's 64 KiB. -/
def RegInfo.regular (r : RegInfo) : Prop :=
  0 < r.n2 ∧ (r.s1 = 0 → r.n1 = 1) ∧ (r.s2 = 0 → r.n2 = 1) ∧ (r.s1 ≠ 0 → (r.n2 - 1) * r.s2 < r.s1)
    ∧ r.off % 8 = 0 ∧ r.s1 % 8 = 0 ∧ r.s2 % 8 = 0 ∧ r.last < 0x10000

/-- Two rows have no offset in common: one ends before the other, or both have one stride and different places in it. -/
def RegInfo.apart (r q : RegInfo) : Prop :=
  r.last < q.off ∨ q.last < r.off
    ∨ (r.s1 = q.s1 ∧ r.off % r.s1 + (r.n2 - 1) * r.s2 < r.s1 ∧ q.off % q.s1 + (q.n2 - 1) * q.s2 < q.s1
        ∧ (r.off % r.s1 + (r.n2 - 1) * r.s2 < q.off % q.s1 ∨ q.off % q.s1 + (q.n2 - 1) * q.s2 < r.off % r.s1))

theorem Reg.mem_regs_block : ∀ b : Block, ∀ r ∈ b.regs, r.info.block = b := by
  intro b; cases b <;> decide

theorem Reg.regular_info (r : Reg) : r.info.regular := by
  unfold RegInfo.regular
  cases r <;> decide

theorem Block.regs_apart (b : Block) : b.regs.Pairwise (fun r q => r.info.apart q.info) := by
  unfold RegInfo.apart
  cases b <;> decide

theorem Reg.mem_block_regs (r : Reg) : r ∈ r.info.block.regs := by
  cases r <;> decide


/-! ## Offsets and indices -/

/-- An index of a row lies in both of its ranges. -/
theorem RegInfo.index_ranges {r : RegInfo} (hr : r.regular) {j : Nat} (hj : j < r.n1 * r.n2) :
    j / r.n2 < r.n1 ∧ j % r.n2 < r.n2 :=
  ⟨Nat.div_lt_of_lt_mul (Nat.mul_comm r.n1 r.n2 ▸ hj), Nat.mod_lt _ hr.1⟩

/-- The second index of a row moves the offset by less than a stride of the first. -/
theorem RegInfo.inner_le {r : RegInfo} {b : Nat} (hb : b < r.n2) : b * r.s2 ≤ (r.n2 - 1) * r.s2 :=
  Nat.mul_le_mul_right _ (by omega)

/-- The offset of an index names that index. -/
theorem RegInfo.index_at {r : RegInfo} (hr : r.regular) {j : Nat} (hj : j < r.n1 * r.n2) : r.index (r.at j) = some j := by
  obtain ⟨ha, hb⟩ := RegInfo.index_ranges hr hj
  obtain ⟨hn2, h1, h2, h3, -⟩ := hr
  have hx : r.at j - r.off = j / r.n2 * r.s1 + j % r.n2 * r.s2 := by unfold RegInfo.at; omega
  have hle : ¬ r.at j < r.off := by unfold RegInfo.at; omega
  have hj1 : (if r.s1 = 0 then 0 else (r.at j - r.off) / r.s1) = j / r.n2 := by
    split
    · next h => rw [h1 h] at ha; exact (Nat.lt_one_iff.1 ha).symm
    · next h =>
      have hin : j % r.n2 * r.s2 < r.s1 := Nat.lt_of_le_of_lt (RegInfo.inner_le hb) (h3 h)
      rw [hx, Nat.mul_comm (j / r.n2), Nat.mul_add_div (by omega), Nat.div_eq_of_lt hin, Nat.add_zero]
  have hy : r.at j - r.off - j / r.n2 * r.s1 = j % r.n2 * r.s2 := by omega
  have hj : j / r.n2 * r.n2 + j % r.n2 = j := Nat.div_add_mod' j r.n2
  have hj2 : (if r.s2 = 0 then 0 else j % r.n2 * r.s2 / r.s2) = j % r.n2 := by
    split
    · next h => have := h2 h; omega
    · next h => exact Nat.mul_div_cancel _ (by omega)
  unfold RegInfo.index
  simp only [hle, if_false, hj1, hy, hj2, Nat.sub_self, ha, hb, and_self, if_true, hj]

/-- An offset that names an index is the offset of two numbers in the row's ranges. -/
theorem RegInfo.index_some {r : RegInfo} {off j : Nat} (h : r.index off = some j) :
    ∃ a b, a < r.n1 ∧ b < r.n2 ∧ j = a * r.n2 + b ∧ off = r.off + a * r.s1 + b * r.s2 := by
  unfold RegInfo.index at h
  by_cases ho : off < r.off
  · simp [ho] at h
  · simp only [ho, if_false] at h
    generalize ha : (if r.s1 = 0 then 0 else (off - r.off) / r.s1) = a at h
    generalize hb : (if r.s2 = 0 then 0 else (off - r.off - a * r.s1) / r.s2) = b at h
    split at h
    · next hc =>
      obtain ⟨h1, h2, h3⟩ := hc
      have hale : a * r.s1 ≤ off - r.off := by
        subst ha; split
        · simp
        · exact Nat.div_mul_le_self _ _
      have hble : b * r.s2 ≤ off - r.off - a * r.s1 := by
        subst hb; split
        · simp
        · exact Nat.div_mul_le_self _ _
      exact ⟨a, b, h1, h2, by simpa using h.symm, by omega⟩
    · simp at h

theorem RegInfo.index_lt {r : RegInfo} {off j : Nat} (h : r.index off = some j) : j < r.n1 * r.n2 := by
  obtain ⟨a, b, ha, hb, rfl, -⟩ := RegInfo.index_some h
  calc a * r.n2 + b < a * r.n2 + r.n2 := by omega
    _ = (a + 1) * r.n2 := by rw [Nat.add_mul, Nat.one_mul]
    _ ≤ r.n1 * r.n2 := Nat.mul_le_mul_right _ ha

/-- Every offset that names an index of a row lies from its first to its last. -/
theorem RegInfo.index_bounds {r : RegInfo} {off : Nat} (h : (r.index off).isSome) : r.off ≤ off ∧ off ≤ r.last := by
  obtain ⟨j, hj⟩ := Option.isSome_iff_exists.1 h
  obtain ⟨a, b, ha, hb, -, rfl⟩ := RegInfo.index_some hj
  have h1 : a * r.s1 ≤ (r.n1 - 1) * r.s1 := Nat.mul_le_mul_right _ (by omega)
  have h2 := RegInfo.inner_le hb
  unfold RegInfo.last
  omega

/-- Where an offset that names an index stands within a stride of the row's first range. -/
theorem RegInfo.index_mod {r : RegInfo} {off : Nat} (h : (r.index off).isSome)
    (hs : r.off % r.s1 + (r.n2 - 1) * r.s2 < r.s1) :
    r.off % r.s1 ≤ off % r.s1 ∧ off % r.s1 ≤ r.off % r.s1 + (r.n2 - 1) * r.s2 := by
  obtain ⟨j, hj⟩ := Option.isSome_iff_exists.1 h
  obtain ⟨a, b, ha, hb, -, rfl⟩ := RegInfo.index_some hj
  have h2 := RegInfo.inner_le hb
  have hm : (r.off + a * r.s1 + b * r.s2) % r.s1 = r.off % r.s1 + b * r.s2 := by
    rw [Nat.add_right_comm, Nat.add_mul_mod_self_right, ← Nat.mod_add_mod, Nat.mod_eq_of_lt (by omega)]
  omega

/-- Rows that lie apart share no offset. -/
theorem RegInfo.apart.not_both {r q : RegInfo} (h : r.apart q) (off : Nat) :
    ¬ ((r.index off).isSome ∧ (q.index off).isSome) := by
  rintro ⟨hr, hq⟩
  have h1 := RegInfo.index_bounds hr
  have h2 := RegInfo.index_bounds hq
  rcases h with h | h | ⟨hs, hr', hq', h⟩
  · omega
  · omega
  · have h3 := RegInfo.index_mod hr hr'
    have h4 := RegInfo.index_mod hq hq'
    rw [hs] at h3 h
    omega

/-- The one member of a list that passes a test is found. -/
theorem find?_of_unique {α : Type} {p : α → Bool} {l : List α} {a : α} (ha : a ∈ l) (hp : p a = true)
    (hu : ∀ b ∈ l, p b = true → b = a) : l.find? p = some a := by
  cases h : l.find? p with
  | none => exact absurd hp (List.find?_eq_none.1 h a ha)
  | some b => rw [hu b (List.mem_of_find?_eq_some h) (List.find?_some h)]

/-- Members of a list whose members are pairwise related are equal or related, one way or the other. -/
theorem pairwise_mem {α : Type} {R : α → α → Prop} {l : List α} (h : l.Pairwise R) {a b : α} (ha : a ∈ l) (hb : b ∈ l) :
    a = b ∨ R a b ∨ R b a := by
  have hs : l.Pairwise (fun x y => R x y ∨ R y x) := h.imp Or.inl
  have sym : Std.Symm (fun x y => R x y ∨ R y x) := ⟨fun _ _ => Or.symm⟩
  exact or_iff_not_imp_left.2 (hs.forall ha hb)

/-- The register of a block that an offset names is the only one. -/
theorem Block.find_regs {r : Reg} {off : Nat} (h : (r.info.index off).isSome = true) :
    r.info.block.regs.find? (fun q => (q.info.index off).isSome) = some r := by
  refine find?_of_unique r.mem_block_regs h fun q hq hoff => ?_
  rcases pairwise_mem r.info.block.regs_apart hq r.mem_block_regs with rfl | hap | hap
  · rfl
  · exact absurd ⟨hoff, h⟩ (hap.not_both off)
  · exact absurd ⟨h, hoff⟩ (hap.not_both off)

/-! ## Blocks and addresses -/

/-- The offsets of two blocks that stand once do not meet: their first addresses are 16 MiB apart. -/
theorem Block.single_apart : Block.single.Pairwise (fun b c =>
    b.base.getD 0 + 0x1000000 ≤ c.base.getD 0 ∨ c.base.getD 0 + 0x1000000 ≤ b.base.getD 0) := by
  decide

theorem Block.single_mem : ∀ b : Block, b.base.isSome → b ∈ Block.single := by
  intro b; cases b <;> decide

theorem Block.single_base : ∀ b ∈ Block.single,
    b.base.isSome ∧ b.base.getD 0 % 8 = 0 ∧ b.base.getD 0 + 0x1000000 ≤ stationBase := by
  decide

/-- An address within 16 MiB from the first of a block that stands once lies in that block. -/
theorem blockAt_single {b : Block} {base o : Nat} (hb : b.base = some base) (ho : o < 0x1000000) :
    blockAt (base + o) = some (b, 0, o) := by
  have hmem := b.single_mem (by simp [hb])
  obtain ⟨-, -, hlow⟩ := Block.single_base b hmem
  rw [hb, Option.getD_some] at hlow
  have hlow' : ¬ stationBase ≤ base + o := by omega
  unfold blockAt
  rw [if_neg hlow', find?_of_unique hmem]
  · simp [hb]
  · simp [hb, ho]
  · intro c hc hin
    obtain ⟨x, hx⟩ := Option.isSome_iff_exists.1 (Block.single_base c hc).1
    simp only [hx, Bool.and_eq_true, decide_eq_true_eq] at hin
    rcases pairwise_mem Block.single_apart hc hmem with rfl | hap | hap
    · rfl
    all_goals
      simp only [hx, hb, Option.getD_some] at hap
      omega

/-- An address of station space by die, site, station and offset. -/
theorem blockAt_station {d c n o : Nat} (hc : c < 0x1000) (hn : n < 16) (ho : o < 0x10000) :
    blockAt (stationBase + d * 0x100000000 + c * 0x100000 + n * 0x10000 + o)
      = (stationBlock d c n).map (fun bi => (bi.1, bi.2, o)) := by
  have hx : stationBase + d * 0x100000000 + c * 0x100000 + n * 0x10000 + o - stationBase
      = d * 0x100000000 + c * 0x100000 + n * 0x10000 + o := by omega
  have hle : stationBase ≤ stationBase + d * 0x100000000 + c * 0x100000 + n * 0x10000 + o := by omega
  have h1 : (d * 0x100000000 + c * 0x100000 + n * 0x10000 + o) / 0x100000000 = d := by omega
  have h2 : (d * 0x100000000 + c * 0x100000 + n * 0x10000 + o) / 0x100000 % 0x1000 = c := by omega
  have h3 : (d * 0x100000000 + c * 0x100000 + n * 0x10000 + o) / 0x10000 % 16 = n := by omega
  have h4 : (d * 0x100000000 + c * 0x100000 + n * 0x10000 + o) % 0x10000 = o := by omega
  unfold blockAt
  simp only [hle, if_true, hx, h1, h2, h3, h4]

/-- The offset of an index lies in a station's 64 KiB, aligned to 8 bytes. -/
theorem RegInfo.at_bounds {r : RegInfo} (hr : r.regular) {j : Nat} (hj : j < r.n1 * r.n2) :
    r.at j < 0x10000 ∧ r.at j % 8 = 0 := by
  have hb := RegInfo.index_bounds (Option.isSome_iff_exists.2 ⟨j, RegInfo.index_at hr hj⟩)
  obtain ⟨-, -, -, -, h0, h1, h2, hlast⟩ := hr
  refine ⟨by omega, ?_⟩
  unfold RegInfo.at
  simp [Nat.add_mod, Nat.mul_mod, h0, h1, h2]

/-- The address of a register of a station, by die, site and station. -/
theorem RegKey.addr_station {k : RegKey} {d c n : Nat} (h : stationBlock d c n = some (k.reg.info.block, k.i)) :
    k.addr = stationBase + d * 0x100000000 + c * 0x100000 + n * 0x10000 + k.reg.info.at k.j ∧ c < 0x1000 ∧ n < 16 := by
  unfold RegKey.addr RegInfo.at
  unfold stationBlock at h
  split at h
  · next hdc =>
    obtain ⟨hd, hc⟩ := hdc
    split at h
    any_goals
      obtain ⟨hb, hi⟩ := Prod.mk.inj (Option.some.inj h)
      simp only [← hb]
      omega
    exact absurd h (by simp)
  · split at h
    · next hdc =>
      obtain ⟨hd, rfl⟩ := hdc
      split at h
      any_goals
        obtain ⟨hb, hi⟩ := Prod.mk.inj (Option.some.inj h)
        simp only [← hb]
        omega
      exact absurd h (by simp)
    · split at h
      · next hce =>
        obtain ⟨h12, -, rfl, rfl⟩ := hce
        obtain ⟨hb, hi⟩ := Prod.mk.inj (Option.some.inj h)
        simp only [← hb]
        omega
      · split at h
        · next hnx =>
          obtain ⟨rfl, rfl, rfl⟩ := hnx
          obtain ⟨hb, hi⟩ := Prod.mk.inj (Option.some.inj h)
          simp [← hb]
        · exact absurd h (by simp)

/-- The address of a register of a block that stands once. -/
theorem RegKey.addr_single {k : RegKey} {base : Nat} (h : k.reg.info.block.base = some base) :
    k.addr = base + k.reg.info.at k.j := by
  unfold RegKey.addr RegInfo.at
  cases hb : k.reg.info.block <;> rw [hb] at h <;> simp_all [Block.base]

/-- An aligned address whose offset names a register names that register, at its home. -/
theorem regAt_of_blockAt {a : Nat} {k : RegKey} (ha : a % 8 = 0) (hb : blockAt a = some (k.reg.info.block, k.i, k.reg.info.at k.j))
    (hj : k.j < k.reg.info.n1 * k.reg.info.n2) : regAt a = some k.home := by
  have hix := RegInfo.index_at k.reg.regular_info hj
  have hf := Block.find_regs (Option.isSome_iff_exists.2 ⟨_, hix⟩)
  unfold regAt
  rw [if_neg (by omega), hb]
  simp only
  rw [hf]
  simp only [hix, Option.map_some]

/-- R5, R156: the address of a register names exactly that register. -/
theorem regAt_addr {k : RegKey} (hk : k.home = k) (hj : k.j < k.reg.info.n1 * k.reg.info.n2)
    (hi : (∃ d c n, stationBlock d c n = some (k.reg.info.block, k.i)) ∨ (k.reg.info.block.base.isSome ∧ k.i = 0)) :
    regAt k.addr = some k := by
  obtain ⟨hlt, h8⟩ := RegInfo.at_bounds k.reg.regular_info hj
  conv_rhs => rw [← hk]
  rcases hi with ⟨d, c, n, hst⟩ | ⟨hbase, hi⟩
  · obtain ⟨haddr, hc, hn⟩ := RegKey.addr_station hst
    refine regAt_of_blockAt ?_ ?_ hj
    · rw [haddr]; unfold stationBase; omega
    · rw [haddr, blockAt_station hc hn hlt, hst]; rfl
  · obtain ⟨base, hb⟩ := Option.isSome_iff_exists.1 hbase
    obtain ⟨-, hb8, -⟩ := Block.single_base _ (Block.single_mem _ hbase)
    rw [hb, Option.getD_some] at hb8
    have haddr := RegKey.addr_single hb
    refine regAt_of_blockAt (by omega) ?_ hj
    rw [haddr, blockAt_single hb (by omega), hi]

/-! ## What an address can name -/

/-- The number of a station is one that its block has. -/
theorem stationBlock_lt_copies {d c n i : Nat} {b : Block} (h : stationBlock d c n = some (b, i)) : i < b.copies := by
  revert h
  unfold stationBlock
  repeat' split
  all_goals
    simp only [Option.some.injEq, Prod.mk.injEq, reduceCtorEq, false_imp_iff, and_imp]
  all_goals
    rintro rfl rfl
    simp only [Block.copies]
    omega

/-- The number of the block that an address lies in is one that the block has. -/
theorem blockAt_lt_copies {a off i : Nat} {b : Block} (h : blockAt a = some (b, i, off)) : i < b.copies := by
  unfold blockAt at h
  split at h
  · obtain ⟨⟨b', i'⟩, hst, he⟩ := Option.map_eq_some_iff.1 h
    obtain ⟨rfl, rfl, -⟩ : b' = b ∧ i' = i ∧ _ := by simpa using he
    exact stationBlock_lt_copies hst
  · obtain ⟨c, hc, he⟩ := Option.bind_eq_some_iff.1 h
    obtain ⟨base, -, he⟩ := Option.map_eq_some_iff.1 he
    obtain ⟨-, rfl, -⟩ : c = b ∧ 0 = i ∧ _ := by simpa using he
    cases b <;> decide

/-- An address names a number of its block and an index that the register has. -/
theorem regAt_bounds {a : Nat} {k : RegKey} (h : regAt a = some k) :
    k.i < k.reg.info.block.copies ∧ k.j < k.reg.info.n1 * k.reg.info.n2 := by
  unfold regAt at h
  split at h
  · simp at h
  · split at h
    · simp at h
    · next b i off hb =>
      split at h
      · simp at h
      · next r hr =>
        obtain ⟨j, hj, rfl⟩ := Option.map_eq_some_iff.1 h
        have hblock := Reg.mem_regs_block b r (List.mem_of_find?_eq_some hr)
        have hi := hblock ▸ blockAt_lt_copies hb
        have hjlt := RegInfo.index_lt hj
        unfold RegKey.home
        split
        · exact ⟨Nat.zero_lt_of_lt hi, hjlt⟩
        · exact ⟨hi, hjlt⟩

/-! ## Writes -/

theorem exec_registerWrite (addr v : Word) (s : State) :
    exec (.registerWrite addr v) s = lift (fun t => t.writeAddr false addr.toNat v) s := rfl

theorem State.writeAddr_some {a : Nat} {k : RegKey} (h : regAt a = some k) (s : State) (i3c : Bool) (v : Word) :
    s.writeAddr i3c a v = s.writeKey i3c k v := by
  unfold State.writeAddr
  rw [h]

theorem State.writeAddr_none {a : Nat} (h : regAt a = none) (s : State) (i3c : Bool) (v : Word) : s.writeAddr i3c a v = s := by
  unfold State.writeAddr
  rw [h]

/-- A write at the address of a register acts on that register. -/
theorem exec_registerWrite_at {addr : Word} {k : RegKey} (h : regAt addr.toNat = some k) (s : State) (v : Word) :
    exec (.registerWrite addr v) s = lift (fun t => t.writeKey false k v) s := by
  rw [exec_registerWrite]
  unfold lift
  simp only [State.writeAddr_some h]

/-- What a write at the address of a register leaves, where it keeps the queue. -/
theorem exec_registerWrite_next {addr : Word} {k : RegKey} {s t : State} {v : Word} (hat : regAt addr.toNat = some k)
    (h : s.writeKey false k v = t) (hp : t.pending = s.pending) : exec (.registerWrite addr v) s = .next t :=
  exec_next (exec_registerWrite_at hat s v) h hp

/-- A write over I3C that is served acts as a write of the register and leaves status 0 (R606). -/
theorem exec_i3cRegisterWrite_served {addr v : Word} {s t : State} (hoff : s.pw.state ≠ .off)
    (hserved : s.i3cWrites addr.toNat = true) (h : s.writeAddr true addr.toNat v = t) (hp : t.pending = s.pending) :
    exec (.i3cRegisterWrite ⟨2, addr⟩ v) s = .next (t.setBoot { t.boot with i3cValue := 0, i3cStatus := 0 }) := by
  refine exec_next (f := fun _ => _) rfl ?_ hp
  subst h
  simp [hoff, hserved]

/-- A register that has a command of its own is written as that command acts. -/
theorem exec_actsAs {i : SiteId} {k : RegKey} {v : Word} {c : Instr} (hi : k.i < k.reg.info.block.copies)
    (hj : k.j < k.reg.info.n1 * k.reg.info.n2) (hs : sited i k) (h : actsAs i k v = some c) (s : State) :
    exec c s = lift (fun t => t.writeKey false k v) s := by
  obtain ⟨r, a, j⟩ := k
  simp only at hi hj
  have site : r.info.block = .mx ∨ r.info.block = .vx ∨ r.info.block = .tx ∨ r.info.block = .lx → a = siteIx i := hs
  have copy (m : Nat) (hm : r.info.block.copies = m) : a % m = a := Nat.mod_eq_of_lt (hm ▸ hi)
  have index (m : Nat) (hm : r.info.n1 * r.info.n2 = m) : j % m = j := Nat.mod_eq_of_lt (hm ▸ hj)
  unfold actsAs at h
  simp only at h
  split at h
  -- no command of its own
  case h_33 => exact absurd h (by simp)
  all_goals obtain rfl := Option.some.inj h
  -- CAD.DOM_CTRL
  case h_1 =>
    by_cases hv : v.getLsbD 0 = true
    · rw [if_pos hv]
      exact lift_congr (f := fun t => t.enable _) (if_pos hv).symm
    · rw [if_neg hv]
      exact lift_congr (f := fun t => t.disable _) (if_neg hv).symm
  -- MX.RESIDUE_INJECT and the clears of the core stations: the site is the register's
  case h_2 | h_4 | h_5 | h_6 | h_7 =>
    obtain rfl := site (by decide)
    rfl
  -- LX.QSTATn
  case h_3 =>
    obtain rfl := site (by decide)
    exact lift_congr (f := fun t => t.writeQstat _ _ v) (congrArg (fun q => s.writeQstat (siteIx i) q v) (index 16 rfl))
  -- clears by die, partition or port: the operand is the register's number or index
  case h_8 => exact lift_congr (congrArg (fun d => s.clearEx d v) (copy 8 rfl))
  case h_9 => exact lift_congr (congrArg (fun d => s.clearSv d v) (copy 8 rfl))
  case h_10 => exact lift_congr (congrArg (fun n => s.clearSvPart n v) (index 16 rfl))
  case h_11 => exact lift_congr (congrArg (fun d => s.clearKv d v) (copy 8 rfl))
  case h_13 => exact lift_congr (congrArg (fun p => s.clearCxl p v) (index 4 rfl))
  case h_14 => exact lift_congr (congrArg (fun d => s.clearPn d v) (copy 8 rfl))
  case h_16 => exact lift_congr (congrArg (fun p => s.clearCe p v) (copy 6 rfl))
  -- every other command has no operand but the value, or the same operand as the write
  all_goals rfl

/-- The registers whose write has an effect of its own. -/
def Reg.acting : List Reg :=
  [.cadDomCtrl, .mxResidueInject, .lxQstat, .mxCtrClear, .vxCtrClear, .txCtrClear, .lxCtrClear, .exCtrClear, .svCtrClear,
   .svPCtrClear, .kvCtrClear, .memCtrClear, .cxlCtrClear, .pnCtrClear, .fabCtrClear, .ceCtrClear, .hpCtrClear, .nxCtrClear,
   .arbCtrClear, .intCtrClear, .derCtrClear, .pwrCtrClear, .fwlCtrClear, .memCtrl, .memIlvSize, .pnSize, .pnPQuota,
   .fabPortRetrain, .fabPortCtrl, .cxlCtrl, .hpCtrl, .pwrCap, .pwrHeartbeat, .pwrHbCtrl]

/-- What a write does to a register without an effect of its own, by its access type (R6). -/
def State.writeByAccess (s : State) (k : RegKey) (v : Word) : State :=
  match k.reg.info.acc with
  | .rw => s.writeRw k v
  | .rwProt => s.discard k
  | .ro | .wo | .w1c => s

theorem State.writeKey_by_access {k : RegKey} (h : k.reg ∉ Reg.acting) (s : State) (i3c : Bool) (v : Word) :
    s.writeKey i3c k v = s.writeByAccess k v := by
  unfold State.writeKey
  split
  case h_35 => rfl
  all_goals
    next hr => exact absurd (hr ▸ by decide) h

theorem State.writeKey_ro {k : RegKey} (h : k.reg.info.acc = .ro) (s : State) (i3c : Bool) (v : Word) : s.writeKey i3c k v = s := by
  have hall : ∀ r ∈ Reg.acting, r.info.acc ≠ .ro := by decide
  rw [State.writeKey_by_access (fun hm => hall _ hm h)]
  unfold State.writeByAccess
  rw [h]

theorem State.writeKey_rwProt {k : RegKey} (h : k.reg.info.acc = .rwProt) (s : State) (i3c : Bool) (v : Word) :
    s.writeKey i3c k v = s.discard k := by
  have hall : ∀ r ∈ Reg.acting, r.info.acc ≠ .rwProt := by decide
  rw [State.writeKey_by_access (fun hm => hall _ hm h)]
  unfold State.writeByAccess
  rw [h]

theorem State.writeKey_rw {k : RegKey} (h : k.reg.info.acc = .rw) (hn : k.reg ∉ Reg.acting) (s : State) (i3c : Bool) (v : Word) :
    s.writeKey i3c k v = s.writeRw k v := by
  rw [State.writeKey_by_access hn]
  unfold State.writeByAccess
  rw [h]

/-- A locked register is left, with 0x0107 (R39). -/
theorem State.writeRw_locked {s : State} {k : RegKey} (h : (k.reg.locks && s.enabled (Fin.ofNat 16 k.j)) = true) (v : Word) :
    s.writeRw k v = s.domReport (Fin.ofNat 16 k.j) 0x0107 := by
  unfold State.writeRw
  simp only [h, if_true]

/-- A value outside the register's limits is discarded (R617). -/
theorem State.writeRw_outside {s : State} {k : RegKey} {v : Word} (hl : (k.reg.locks && s.enabled (Fin.ofNat 16 k.j)) = false)
    (h : s.inLimits k (v &&& k.reg.info.mask) = false) : s.writeRw k v = s.discard k := by
  unfold State.writeRw
  simp only [hl, h, Bool.not_false, if_true, Bool.false_eq_true, if_false]

/-- A value within the register's limits is stored without its reserved bits (R6, R8). -/
theorem State.writeRw_inside {s : State} {k : RegKey} {v : Word} (hl : (k.reg.locks && s.enabled (Fin.ofNat 16 k.j)) = false)
    (h : s.inLimits k (v &&& k.reg.info.mask) = true) : s.writeRw k v = s.storeReg k (v &&& k.reg.info.mask) := by
  unfold State.writeRw
  simp only [hl, h, Bool.not_true, Bool.false_eq_true, if_false]

/-- What is discarded changes a code register at most. -/
theorem State.discard_pending (s : State) (k : RegKey) : (s.discard k).pending = s.pending := by
  unfold State.discard
  split <;> rfl

theorem plain_acc {r : Reg} (h : plain r = true) : r.info.acc = .rw := by
  unfold plain at h
  simp only [Bool.and_eq_true, decide_eq_true_eq] at h
  obtain ⟨⟨⟨hacc, -⟩, -⟩, -⟩ := h
  exact hacc

theorem plain_not_acting {r : Reg} (h : plain r = true) : r ∉ Reg.acting := by
  have hall : ∀ q ∈ Reg.acting, plain q = false := by decide
  intro hm
  rw [hall r hm] at h
  exact absurd h (by decide)

theorem plain_not_serving {r : Reg} (h : plain r = true) : ¬ (r.info.block = .sv ∨ r.info.block = .kv) := by
  unfold plain at h
  simp only [Bool.and_eq_true, decide_eq_true_eq] at h
  obtain ⟨⟨⟨-, hsv⟩, hkv⟩, -⟩ := h
  exact fun hb => hb.elim hsv hkv

/-- A plain register keeps what is stored in it, and nothing else changes. -/
theorem State.storeReg_plain {k : RegKey} (h : plain k.reg = true) (s : State) (w : Word) : s.storeReg k w = s.setRaw k w := by
  unfold State.storeReg
  split
  case h_5 => rw [if_neg (plain_not_serving h)]
  all_goals
    next hr =>
      rw [hr] at h
      exact absurd h (by decide)

/-- A configuration register of SV or KV is stored as R304 and R305 say. -/
theorem State.storeReg_serving {k : RegKey} (h : k.reg.info.block = .sv ∨ k.reg.info.block = .kv) (s : State) (w : Word) :
    s.storeReg k w = s.writeServing k w := by
  unfold State.storeReg
  split
  case h_5 => rw [if_pos h]
  all_goals
    next hr =>
      rw [hr] at h
      exact absurd h (by decide)

/-- With every domain disabled no domain is enabled. -/
theorem State.enabled_of_allDisabled {s : State} (h : s.allDisabled = true) (n : Part) : s.enabled n = false := by
  have := List.all_eq_true.1 h n (List.mem_finRange n)
  simpa using this

/-- The value in effect of a configuration register of SV or KV that is written (R304, R305): it stays while its domain is
enabled. -/
theorem State.writeServing_old (s : State) (k : RegKey) (w : Word) :
    (s.allDisabled = true → (s.writeServing k w).sv.old = s.sv.old)
    ∧ (s.enabled (Fin.ofNat 16 k.j) = true → k.reg ≠ .svTableBase → k.reg ≠ .svIntakeGuard → Assoc.find k s.sv.old = none →
        Assoc.find k (s.writeServing k w).sv.old = some (s.raw k)) := by
  unfold State.writeServing
  generalize Fin.ofNat 16 k.j = n
  constructor
  · intro h
    simp [h, State.enabled_of_allDisabled h]
  · intro he ht hg hf
    simp [he, ht, hg, hf]

/-- A write of a configuration register of SV or KV changes that register and the values in effect, and nothing else. -/
theorem State.writeServing_eq (s : State) (k : RegKey) (w : Word) :
    ∃ old, s.writeServing k w = State.setRaw { s with sv := { s.sv with old := old } } k w := by
  unfold State.writeServing
  dsimp only
  split <;> split <;> exact ⟨_, rfl⟩

@[simp] theorem State.cxlPort_setCxl_self (s : State) (p : Fin 4) (x : CxlPort) : (s.setCxl p x).cxlPort p = x :=
  Assoc.getD_put_self _ _ _ _

/-- Of the registers a new state of a CXL port changes the admission rate alone (R345). -/
theorem State.reg_setCxl (s : State) (p : Fin 4) (x : CxlPort) {q : Reg} (h : .cadAdmCxlBw ≠ q) (i j : Nat) :
    (s.setCxl p x).reg q i j = s.reg q i j := State.reg_setReg_ne _ h _ _ _ _ _

@[simp] theorem State.hp_setHp (s : State) (h : HostPort) : (s.setHp h).hp = h := rfl

/-- CXL.CTRL holds its port DOWN or lets it train (R321, R350, log 62). -/
theorem State.writeCxlCtrl_effect (s : State) (p : Fin 4) (w : Word) :
    (s.writeCxlCtrl p w).pending = s.pending ∧ (s.writeCxlCtrl p w).reg .cxlCtrl 0 p.val = w
    ∧ (w.getLsbD 0 = false → (s.writeCxlCtrl p w).cxlPort p = CxlPort.init)
    ∧ (w.getLsbD 0 = true → (s.cxlPort p).state = .down → s.boot.ready = true → ((s.writeCxlCtrl p w).cxlPort p).state = .training)
    ∧ (w.getLsbD 0 = true → (s.cxlPort p).state ≠ .down → (s.writeCxlCtrl p w).cxl = s.cxl) := by
  unfold State.writeCxlCtrl
  have hreg (x : CxlPort) : ((s.setReg .cxlCtrl 0 p.val w).setCxl p x).reg .cxlCtrl 0 p.val = w := by
    rw [State.reg_setCxl _ _ _ (by decide), State.reg_setReg_self]
  cases hw : w.getLsbD 0 with
  | false => simp only [Bool.not_false, if_true]; exact ⟨rfl, hreg _, by simp⟩
  | true =>
    simp only [Bool.not_true, Bool.false_eq_true, if_false]
    split
    · next h => exact ⟨rfl, hreg _, by simp [h.1]⟩
    · next h => exact ⟨rfl, State.reg_setReg_self _ _ _ _ _, by simp, fun _ hd hr => absurd ⟨hd, hr⟩ h, fun _ _ => rfl⟩

/-- HP.CTRL takes the host port DOWN or lets it train (R460, log 62). -/
theorem State.writeHpCtrl_effect (s : State) (w : Word) :
    (s.writeHpCtrl w).pending = s.pending ∧ (s.writeHpCtrl w).reg .hpCtrl = w
    ∧ (w.getLsbD 0 = false → (s.writeHpCtrl w).hp.state = .down ∧ (s.writeHpCtrl w).hp.macsec = false)
    ∧ (w.getLsbD 0 = true → s.hp.state = .down → s.boot.ready = true → (s.writeHpCtrl w).hp.state = .training)
    ∧ (w.getLsbD 0 = true → s.hp.state ≠ .down → (s.writeHpCtrl w).hp = s.hp) := by
  unfold State.writeHpCtrl
  have hreg (h : HostPort) : ((s.setReg .hpCtrl 0 0 w).setHp h).reg .hpCtrl = w := State.reg_setReg_self _ _ _ _ _
  cases hw : w.getLsbD 0 with
  | false => simp only [Bool.not_false, if_true]; exact ⟨rfl, hreg _, by simp⟩
  | true =>
    simp only [Bool.not_true, Bool.false_eq_true, if_false]
    split
    · next h => exact ⟨rfl, hreg _, by simp, fun _ _ _ => rfl, fun _ hn => absurd h.1 hn⟩
    · next h => exact ⟨rfl, State.reg_setReg_self _ _ _ _ _, by simp, fun _ hd hr => absurd ⟨hd, hr⟩ h, fun _ _ => rfl⟩

/-- Whether a register is locked is a matter of the cadence block alone (R39). -/
theorem Reg.locks_plain : ∀ {r : Reg}, r.locks = true → r.info.acc = .rw ∧ r ∉ Reg.acting := by
  intro r
  cases r <;> decide

/-- No register of SV or KV, and none of those whose write evaluates something again, is locked. -/
theorem Reg.not_locks {r : Reg} (h : r.info.block ≠ .cad) : r.locks = false := by
  revert h
  cases r <;> decide

/-- R5, R6, R8, R39, R617: what a write of a plain RW register leaves. -/
theorem plainRegisterWrites : PlainRegisterWrites := by
  intro s addr v k hat hp hl
  have hw (i3c : Bool) : s.writeKey i3c k v = s.writeRw k v := State.writeKey_rw (plain_acc hp) (plain_not_acting hp) s i3c v
  constructor
  · intro hin
    have hs : s.writeRw k v = s.setRaw k (v &&& k.reg.info.mask) :=
      (State.writeRw_inside hl hin).trans (State.storeReg_plain hp _ _)
    refine ⟨exec_registerWrite_next hat ((hw false).trans hs) rfl, State.raw_setRaw_self _ _ _, fun hoff hserved => ?_⟩
    exact exec_i3cRegisterWrite_served hoff hserved ((State.writeAddr_some hat s true v).trans ((hw true).trans hs)) rfl
  · intro hout
    exact exec_registerWrite_next hat ((hw false).trans (State.writeRw_outside hl hout)) (State.discard_pending s k)

/-- A configuration register of SV or KV is stored; the value in effect stays while its domain is enabled (R304, R305). -/
theorem State.writeKey_serving {s : State} {k : RegKey} {v : Word} (hacc : k.reg.info.acc = .rw)
    (hb : k.reg.info.block = .sv ∨ k.reg.info.block = .kv) (hin : s.inLimits k (v &&& k.reg.info.mask) = true) (i3c : Bool) :
    s.writeKey i3c k v = s.writeServing k (v &&& k.reg.info.mask) := by
  have hall : ∀ r ∈ Reg.acting, r.info.acc = .rw → ¬ (r.info.block = .sv ∨ r.info.block = .kv) := by decide
  have hlocks : k.reg.locks = false := Reg.not_locks (by rcases hb with h | h <;> simp [h])
  rw [State.writeKey_rw hacc (fun hm => hall _ hm hacc hb), State.writeRw_inside (by simp [hlocks]) hin,
    State.storeReg_serving hb]

/-- A write of the tier cache's range within its limits makes the cache forget its copies (R338, log 87). -/
theorem State.writeKey_tierCache {s : State} {k : RegKey} {v : Word} (hr : k.reg = .memTcBase ∨ k.reg = .memTcSize)
    (hin : s.inLimits k (v &&& k.reg.info.mask) = true) (i3c : Bool) :
    s.writeKey i3c k v =
      { s.setRaw k (v &&& k.reg.info.mask) with ms := { s.ms with tcSlots := [], tcBytes := [], tcHits := [] } } := by
  have hn : k.reg ∉ Reg.acting := by rcases hr with h | h <;> rw [h] <;> decide
  obtain ⟨r, a, j⟩ := k
  rcases hr with rfl | rfl <;> exact (State.writeKey_rw rfl hn s i3c v).trans (State.writeRw_inside rfl hin)

/-- A write of a shelf's or a safe cap within its limits has the caps evaluated again (R534). -/
theorem State.writeKey_caps {s : State} {k : RegKey} {v : Word} (hr : k.reg = .pwrShelfCap ∨ k.reg = .pwrSafeCap)
    (hin : s.inLimits k (v &&& k.reg.info.mask) = true) (i3c : Bool) :
    s.writeKey i3c k v = (s.setRaw k (v &&& k.reg.info.mask)).newCaps := by
  have hn : k.reg ∉ Reg.acting := by rcases hr with h | h <;> rw [h] <;> decide
  obtain ⟨r, a, j⟩ := k
  rcases hr with rfl | rfl <;> exact (State.writeKey_rw rfl hn s i3c v).trans (State.writeRw_inside rfl hin)

/-- R5, R6, R8, R39, R304, R305, R321, R338, R430, R534, R617: every other write of a register. -/
theorem otherRegisterWrites : OtherRegisterWrites := by
  intro s addr v i
  refine ⟨fun hnone => ?_, fun k hat hsite => ?_⟩
  · exact exec_next (exec_registerWrite addr v s) (State.writeAddr_none hnone s false v) rfl
  obtain ⟨hi, hj⟩ := regAt_bounds hat
  refine ⟨fun c hc => ?_, fun hro => ?_, fun hprot => ?_, fun hlocked => ?_, fun hacc hblock hin => ?_, fun hr hin => ?_,
    fun hr hin => ?_, fun hr => ?_, fun hr => ?_⟩
  · exact (exec_registerWrite_at hat s v).trans (exec_actsAs hi hj hsite hc s).symm
  · exact exec_registerWrite_next hat (State.writeKey_ro hro s false v) rfl
  · exact exec_registerWrite_next hat (State.writeKey_rwProt hprot s false v) (State.discard_pending s k)
  · obtain ⟨hacc, hn⟩ := Reg.locks_plain (Bool.and_eq_true_iff.1 hlocked).1
    rw [exec_registerWrite_at hat]
    exact lift_congr (g := fun t => t.domReport _ 0x0107)
      ((State.writeKey_rw hacc hn s false v).trans (State.writeRw_locked hlocked v))
  · obtain ⟨old, heq⟩ := State.writeServing_eq s k (v &&& k.reg.info.mask)
    obtain ⟨hdis, hen⟩ := State.writeServing_old s k (v &&& k.reg.info.mask)
    refine ⟨_, exec_registerWrite_next hat (State.writeKey_serving hacc hblock hin false) ?_, ?_, ?_, ?_, hdis, hen⟩
    · rw [heq]; rfl
    · rw [heq, State.raw_setRaw_self]
    · intro q hq
      rw [heq, State.raw_setRaw_ne _ hq.symm]
      rfl
    · rw [heq]; rfl
  · exact exec_registerWrite_next hat (State.writeKey_tierCache hr hin false) rfl
  · rw [exec_registerWrite_at hat]
    exact lift_congr (g := fun t => (t.setRaw k (v &&& k.reg.info.mask)).newCaps) (State.writeKey_caps hr hin false)
  · obtain ⟨r, a, j⟩ := k
    subst hr
    obtain ⟨hpend, hreg, hdown, htrain, hkeep⟩ := State.writeCxlCtrl_effect s (Fin.ofNat 4 j) (v &&& 3)
    have hbit : (v &&& 3).getLsbD 0 = v.getLsbD 0 := by simp
    rw [hbit] at hdown htrain hkeep
    exact ⟨_, exec_registerWrite_next hat rfl hpend, hreg, hdown, htrain, hkeep⟩
  · obtain ⟨r, a, j⟩ := k
    subst hr
    obtain ⟨hpend, hreg, hdown, htrain, hkeep⟩ := State.writeHpCtrl_effect s (v &&& 0x17)
    have hbit : (v &&& 0x17).getLsbD 0 = v.getLsbD 0 := by simp
    rw [hbit] at hdown htrain hkeep
    exact ⟨_, exec_registerWrite_next hat rfl hpend, hreg, hdown, htrain, hkeep⟩

theorem registerAddressesNameTheirRegister : RegisterAddressesNameTheirRegister :=
  fun _ hk hj hi => regAt_addr hk hj hi

/-- Settles O7: a plain register by its access and limits, every other by the effect of its row, and the address by the rows of a
block lying apart. -/
theorem registerWrites : Obligations.RegisterWrites :=
  ⟨plainRegisterWrites, otherRegisterWrites, registerAddressesNameTheirRegister⟩

/-! ## Registers over I3C, and registers that act -/

/-- An I3C read with another OP, or of a register that the table does not name, is refused (R606, R607). -/
theorem exec_i3cRegisterRead_refused {h : I3cHead} {s : State} (hoff : s.pw.state ≠ .off)
    (hno : h.op ≠ 1 ∨ s.i3cReads h.addr.toNat = false) :
    exec (.i3cRegisterRead h) s = .next (s.setBoot { s.boot with i3cValue := 0, i3cStatus := 0x0907 }) := by
  have hand : (decide (h.op = 1) && s.i3cReads h.addr.toNat) = false := by
    rcases hno with hop | hr
    · rw [decide_eq_false hop, Bool.false_and]
    · rw [hr, Bool.and_false]
  refine exec_next (f := fun t => _) rfl ?_ rfl
  simp only [hoff, if_false, hand, Bool.false_eq_true]

/-- An I3C write with another OP, or of a register that the table does not name, is refused (R606, R607). -/
theorem exec_i3cRegisterWrite_refused {h : I3cHead} {v : Word} {s : State} (hoff : s.pw.state ≠ .off)
    (hno : h.op ≠ 2 ∨ s.i3cWrites h.addr.toNat = false) :
    exec (.i3cRegisterWrite h v) s = .next (s.setBoot { s.boot with i3cValue := 0, i3cStatus := 0x0907 }) := by
  have hand : (decide (h.op = 2) && s.i3cWrites h.addr.toNat) = false := by
    rcases hno with hop | hr
    · rw [decide_eq_false hop, Bool.false_and]
    · rw [hr, Bool.and_false]
  refine exec_next (f := fun t => _) rfl ?_ rfl
  simp only [hoff, if_false, hand, Bool.false_eq_true]

/-- R448, R606, R607: the reads and writes over I3C. -/
theorem i3cReadsARegister : I3cReadsARegister := by
  intro s addr hoff
  refine ⟨fun hr => exec_next (f := fun t => _) rfl ?_ rfl, fun op h => exec_i3cRegisterRead_refused hoff h,
    fun op v h => exec_i3cRegisterWrite_refused hoff h, exec_next (f := fun t => _) rfl ?_ rfl⟩
  · simp only [hoff, if_false, hr, decide_true, Bool.and_self, if_true]
    rfl
  · simp only [hoff, if_false]
    rfl

theorem i3cAddressAssignment : I3cAddressAssignment := by
  intro s a hoff
  have hset : lift (fun t : State => if t.pw.state = .off then t else t.setBoot { t.boot with i3cAddr := some a }) s
      = .next (s.setBoot { s.boot with i3cAddr := some a }) := by
    rw [lift_eq, if_neg hoff]
    rfl
  exact ⟨_, hset, hset, rfl, rfl⟩

theorem State.writeInject_stored {s : State} {i : Nat} {v : Word} (hl : s.inLimits (rk .mxResidueInject i) v = true)
    (h : v.getLsbD 0 = false ∨ s.trust.debug ≠ 0) : s.writeInject i v = s.setReg .mxResidueInject i 0 (v &&& 0xFF01) := by
  have hno : (v.getLsbD 0 && decide (s.trust.debug = 0)) = false := by
    rcases h with h | h
    · rw [h, Bool.false_and]
    · rw [decide_eq_false h, Bool.and_false]
  unfold State.writeInject
  dsimp only
  rw [hl, hno]
  rfl

theorem State.writeInject_ignored {s : State} {i : Nat} {v : Word} (hv : v.getLsbD 0 = true) (hd : s.trust.debug = 0) :
    s.writeInject i v = s := by
  unfold State.writeInject
  dsimp only
  rw [hv, decide_eq_true hd, Bool.and_self, Bool.or_true, if_pos rfl]

theorem State.writeQstat_stream {s : State} {i q : Nat} {c : CoreId} {x : Stream} (v : Word) (hc : s.coreOn i = some c)
    (hx : Assoc.find (BitVec.ofNat 4 q) (s.core c).streams = some x) :
    s.writeQstat i q v = s.setCore c { s.core c with
      streams := Assoc.put (BitVec.ofNat 4 q) { x with sticky := x.sticky &&& ~~~(v.setWidth 7) } (s.core c).streams } := by
  unfold State.writeQstat
  rw [hc]
  dsimp only
  rw [hx]
  rfl

theorem registersThatAct : RegistersThatAct := by
  refine ⟨fun s i v hl => ⟨fun h => ?_, fun hv hd => ?_⟩, fun s i q v c x hc hx => ?_, fun s p v hv hdown hdis => ?_,
    fun s p v hv hdis => ?_⟩
  · exact exec_next (f := fun t => t.writeInject _ v) rfl (State.writeInject_stored hl h) rfl
  · exact exec_next (f := fun t => t.writeInject _ v) rfl (State.writeInject_ignored hv hd) rfl
  · refine ⟨_, exec_next (f := fun t => t.writeQstat _ _ v) rfl (State.writeQstat_stream v hc hx) rfl, ?_⟩
    simp only [State.core_setCore_self, Assoc.find_put_self, true_and]
    exact fun r hr => Assoc.find_put_ne hr.symm _ _
  · refine exec_next (f := fun t => t.writeRetrain p v) rfl ?_ (State.portDown_pending s p true)
    unfold State.writeRetrain State.when
    rw [hv, if_pos rfl]
  · refine exec_next (f := fun t => t.writePortCtrl p v) rfl ?_ rfl
    unfold State.writePortCtrl
    dsimp only
    rw [hv, if_pos rfl, if_neg (fun h => hdis h.1)]

theorem pannierRegisterWrites : PannierRegisterWrites := by
  intro s d n v
  refine ⟨fun hdir hv => ?_, fun h => ?_, ?_⟩
  · refine exec_next (f := fun t => t.writePnSize d v) rfl ?_ rfl
    unfold State.writePnSize
    rw [hdir]
    simp [hv]
  · refine exec_next (f := fun t => t.writePnSize d v) rfl ?_ rfl
    unfold State.writePnSize State.pnRefused
    rcases h with h | h <;> simp [h]
  · intro others
    refine ⟨fun hsum hheld => exec_next (f := fun t => t.writePnQuota d n v) rfl (if_neg ?_) rfl,
      fun h => exec_next (f := fun t => t.writePnQuota d n v) rfl (if_pos ?_) rfl⟩
    · omega
    · omega

/-- Settles O8: each register and I3C command by its own effect, the queue kept by what a port that goes DOWN sends. -/
theorem registerEffects : Obligations.RegisterEffects :=
  ⟨i3cReadsARegister, i3cAddressAssignment, registersThatAct, pannierRegisterWrites⟩

end Sys2Proof.Machine
end

section
/-! # Bring-up

Support for the statements about bring-up, its commands and the resets of partitions and cores (R581 to R594): how an accepted
host command starts, what a stage leaves, and what a trial image's failure leaves. -/

namespace Sys2Proof.Machine

open Sys2Proof.Claims

/-! ## Accepted host commands -/

/-- An accepted command runs from the state in which it has started (R443 to R446). -/
theorem State.startCmd_accepted {s : State} {cmd : Code} {f : Frame} {o : SessOwner} {kind : SessKind}
    (h : Accepted s cmd f o kind) (run : State → SessOwner → State) :
    s.startCmd cmd f kind run = run (started s cmd f o) o := by
  obtain ⟨hready, howner, hkind, hqueue, hfirst, hlen⟩ := h
  have hfirst' : ((s.queue (o.queueKey, f.queue.toNat)).isEmpty
      || (s.queue (o.queueKey, f.queue.toNat)).head?.any (fun x => x.is cmd f && !x.started)) = true := by
    rcases hfirst with he | ⟨q, l, he, hc, hf, hs⟩
    · rw [he]; rfl
    · rw [he]; simp [Queued.is, hc, hf, hs]
  have hqueue' : (started s cmd f o).queueOk o f.queue = true := hqueue
  have hlen' : ¬ 16777216 < f.body.length := by omega
  unfold State.startCmd
  rw [hready, howner]
  cases o with
  | net n => exact absurd hkind (by simp [SessOwner.isKind])
  | _ =>
    simp only [hfirst', Bool.not_true, Bool.false_eq_true, if_false, hkind, hlen']
    exact if_neg (ne_true_of_eq_false (congrArg not hqueue'))

/-- What an accepted management command does. -/
theorem effect_of_mgmtCmd {i : Instr} {cmd : Code} {f : Frame} {s : State} {g run : State → State}
    (hx : exec i s = lift (fun t => t.mgmtCmd cmd f g) s) (h : g (started s cmd f .mgmt) = run (started s cmd f .mgmt)) :
    Effect i cmd f .mgmt .mgmt s run := by
  intro hacc
  rw [hx, lift_eq]
  unfold State.mgmtCmd
  rw [State.startCmd_accepted hacc, h]
  rfl

/-! ## The commands of bring-up -/

theorem slotOf_eq_none {k : Nat} : slotOf k = none ↔ 2 ≤ k := by
  unfold slotOf
  split_ifs <;> simp <;> omega

/-- An image slot keeps what is written in it when the other slot is written. -/
theorem State.image_setImage_not (s : State) (b : Bool) (x y : Image) : ((s.setImage b x).setImage (!b) y).image b = x := by
  cases b <;> rfl

/-- R592, R593: what BOOT_FW_WRITE refuses, and what it writes. -/
theorem bootFwWrite_effect (f : Frame) (s : State) :
    ((2 ≤ fieldNat f.body 0 4 ∨ f.body.length < 8 ∨ 1048576 < (f.body.drop 8).length
        ∨ imageMax < fieldNat f.body 4 4 + (f.body.drop 8).length) → Answers (.bootFwWrite f) 0x00D0 f .mgmt .mgmt s 0x0901)
    ∧ ∀ b, slotOf (fieldNat f.body 0 4) = some b → 8 ≤ f.body.length → (f.body.drop 8).length ≤ 1048576 →
      fieldNat f.body 4 4 + (f.body.drop 8).length ≤ imageMax →
      (s.boot.current = b ∨ s.boot.trial.isSome = true → Answers (.bootFwWrite f) 0x00D0 f .mgmt .mgmt s 0x0903)
      ∧ (s.boot.current ≠ b → s.boot.trial = none →
        Answers (.bootFwWrite f) 0x00D0 f .mgmt .mgmt s 0 [] (fun t => t.setImage b
          { s.image b with state := .empty, version := 0, svn := 0,
                           writes := (s.image b).writes ++ [(fieldNat f.body 4 4, f.body.drop 8)] })) := by
  refine ⟨fun h => effect_of_mgmtCmd rfl ?_, fun b hb h8 hmib hmax => ?_⟩
  · cases hs : slotOf (fieldNat f.body 0 4) with
    | none => rfl
    | some b =>
      have h2 : ¬ 2 ≤ fieldNat f.body 0 4 := fun h2 => by simp [slotOf_eq_none.2 h2] at hs
      exact if_pos (h.resolve_left h2)
  · have hok : ¬ (f.body.length < 8 ∨ mib < (f.body.drop 8).length
        ∨ imageMax < fieldNat f.body 4 4 + (f.body.drop 8).length) := by
      unfold mib
      omega
    refine ⟨fun h => effect_of_mgmtCmd rfl ?_, fun hcur htrial => effect_of_mgmtCmd rfl ?_⟩
    · simp only [hb]
      exact (if_neg hok).trans (if_pos h)
    · simp only [hb]
      exact (if_neg hok).trans (if_neg (by simp [started, hcur, htrial]))

/-- R592, R593: what BOOT_FW_ACTIVATE refuses, and the TRIAL image that it leaves. -/
theorem bootFwActivate_effect (f : Frame) (s : State) :
    ((2 ≤ fieldNat f.body 0 4 ∨ f.body.length ≠ 4) → Answers (.bootFwActivate f) 0x00D1 f .mgmt .mgmt s 0x0901)
    ∧ ∀ b, slotOf (fieldNat f.body 0 4) = some b → f.body.length = 4 →
      (s.boot.current = b → Answers (.bootFwActivate f) 0x00D1 f .mgmt .mgmt s 0x0903)
      ∧ (s.boot.current ≠ b → s.imageCheck (s.imageBytes b) = none →
          Answers (.bootFwActivate f) 0x00D1 f .mgmt .mgmt s 0x0E04 [] (fun t => t.bootCode 0x0E04))
      ∧ (∀ v svn, s.boot.current ≠ b → s.imageCheck (s.imageBytes b) = some (v, svn) →
          Answers (.bootFwActivate f) 0x00D1 f .mgmt .mgmt s 0 [] (fun t =>
            (t.setImage b { s.image b with state := .trial, version := v, svn := svn }).flashWrite)) := by
  have hcheck (b : Bool) : (started s 0x00D1 f .mgmt).imageCheck ((started s 0x00D1 f .mgmt).imageBytes b)
      = s.imageCheck (s.imageBytes b) := rfl
  refine ⟨fun h => effect_of_mgmtCmd rfl ?_, fun b hb h4 => ⟨fun hcur => effect_of_mgmtCmd rfl ?_,
    fun hcur hno => effect_of_mgmtCmd rfl ?_, fun v svn hcur hok => effect_of_mgmtCmd rfl ?_⟩⟩
  · cases hs : slotOf (fieldNat f.body 0 4) with
    | none => rfl
    | some b =>
      have h2 : ¬ 2 ≤ fieldNat f.body 0 4 := fun h2 => by simp [slotOf_eq_none.2 h2] at hs
      exact if_pos (h.resolve_left h2)
  · simp only [hb]
    exact (if_neg (not_not.2 h4)).trans (if_pos hcur)
  · simp only [hb]
    refine (if_neg (not_not.2 h4)).trans ((if_neg hcur).trans ?_)
    rw [hcheck, hno]
  · simp only [hb]
    refine (if_neg (not_not.2 h4)).trans ((if_neg hcur).trans ?_)
    rw [hcheck, hok]
    rfl

/-- R592, R593: what BOOT_FW_COMMIT refuses, and the images that it leaves. -/
theorem bootFwCommit_effect (f : Frame) (s : State) :
    (f.body.length ≠ 4 → Answers (.bootFwCommit f) 0x00D2 f .mgmt .mgmt s 0x0901)
    ∧ (let b := s.boot.running
       f.body.length = 4 →
        ((s.image b).state ≠ .trial → Answers (.bootFwCommit f) 0x00D2 f .mgmt .mgmt s 0x0903)
        ∧ ((s.image b).state = .trial → Answers (.bootFwCommit f) 0x00D2 f .mgmt .mgmt s 0 [] (fun t =>
            let u := (t.setImage b { s.image b with state := .valid }).setImage (!b) { s.image (!b) with state := .valid }
            let low : Nat := if fieldNat f.body 0 4 % 2 = 1 then max s.trust.fusedSvn (s.image b).svn else s.trust.fusedSvn
            State.flashWrite { u with
              boot := { u.boot with current := b, trialRunning := false }
              trust := { u.trust with fusedSvn := low } }))) := by
  refine ⟨fun h => effect_of_mgmtCmd rfl (if_pos h), fun h4 => ⟨fun hst => effect_of_mgmtCmd rfl ?_,
    fun hst => effect_of_mgmtCmd rfl ?_⟩⟩
  · exact (if_neg (not_not.2 h4)).trans (if_pos hst)
  · refine (if_neg (not_not.2 h4)).trans ((if_neg (not_not.2 hst)).trans ?_)
    dsimp only
    rw [State.image_setImage_not]
    rfl

/-- R587: BOOT_RESET completes before its reset starts. -/
theorem bootReset_effect (f : Frame) (s : State) (i : Instr) (hi : i = .bootResetCold f ∨ i = .bootResetWarm f) :
    let kind := fieldNat f.body 0 4
    ((f.body.length ≠ 4 ∨ 1 < kind) → Answers i 0x00D3 f .mgmt .mgmt s 0x0901)
    ∧ (f.body.length = 4 → kind ≤ 1 →
      (s.resetting = true → Answers i 0x00D3 f .mgmt .mgmt s 0x0903)
      ∧ (s.resetting = false → Effect i 0x00D3 f .mgmt .mgmt s (fun t =>
          (t.complete 0x00D3 f 0).startReset (decide (kind = 0)) (3 + kind)))) := by
  have hx : exec i s = lift (fun t => t.resetCmd f) s := by rcases hi with rfl | rfl <;> rfl
  refine ⟨fun h => effect_of_mgmtCmd hx (if_pos h), fun h4 hk => ?_⟩
  have hok : ¬ (f.body.length ≠ 4 ∨ 1 < fieldNat f.body 0 4) := by omega
  exact ⟨fun hr => effect_of_mgmtCmd hx ((if_neg hok).trans (if_pos hr)),
    fun hr => effect_of_mgmtCmd hx ((if_neg hok).trans (if_neg (ne_true_of_eq_false hr)))⟩

/-- R589: BOOT_PART_RESET of a partition that is not there, and of one whose domain is disabled, runs, or is stopped. -/
theorem bootPartReset_effect (f : Frame) (s : State) :
    (f.body.length ≠ 4 → Answers (.bootPartReset f) 0x00D4 f .mgmt .mgmt s 0x0901)
    ∧ (f.body.length = 4 → (namedPart f = none ∨ ∃ n, namedPart f = some n ∧ s.partValid n = false) →
        Answers (.bootPartReset f) 0x00D4 f .mgmt .mgmt s 0x0A03)
    ∧ (∀ n, f.body.length = 4 → namedPart f = some n → s.partValid n = true →
      Effect (.bootPartReset f) 0x00D4 f .mgmt .mgmt s (fun t =>
        let u := { t with boot := { t.boot with partReset := t.boot.partReset ++ [(n, f)] } }
        if s.enabled n = false then u.partReset n
        else if (s.dom n).state = .running ∨ (s.dom n).state = .rewinding then u.updDom n (fun x => { x with resetAfter := true })
        else u.disable n)) := by
  have hvalid (n : Part) : (started s 0x00D4 f .mgmt).partValid n = s.partValid n := rfl
  refine ⟨fun h => effect_of_mgmtCmd rfl (if_pos h), fun h4 h => effect_of_mgmtCmd rfl ((if_neg (not_not.2 h4)).trans ?_),
    fun n h4 hn hv => effect_of_mgmtCmd rfl ((if_neg (not_not.2 h4)).trans ?_)⟩
  · rcases h with hn | ⟨n, hn, hv⟩
    · rw [hn]
      rfl
    · rw [hn]
      exact if_pos (by rw [hvalid, hv]; rfl)
  · rw [hn]
    refine (if_neg (by rw [hvalid, hv]; decide)).trans ?_
    cases he : s.enabled n with
    | false => exact (if_pos (congrArg not he)).trans (if_pos rfl).symm
    | true => exact (if_neg (ne_true_of_eq_false (congrArg not he))).trans (if_neg (by decide)).symm

/-- R590: BOOT_CORE_RESET of a site that serves a slot, replays or is scanned is refused; any other site is reset. -/
theorem bootCoreReset_effect (f : Frame) (s : State) :
    (bodySite f.body = none → Answers (.bootCoreReset f) 0x00D5 f .mgmt .mgmt s 0x0901)
    ∧ (∀ i, bodySite f.body = some i →
        ((s.site i).slot.isSome = true ∨ s.replaying i = true ∨ (s.site i).state = .scanning →
          Answers (.bootCoreReset f) 0x00D5 f .mgmt .mgmt s 0x0903)
        ∧ ((s.site i).slot = none → s.replaying i = false → (s.site i).state ≠ .scanning →
          Answers (.bootCoreReset f) 0x00D5 f .mgmt .mgmt s 0 [] (fun t => t.coreReset i))) := by
  refine ⟨fun h => effect_of_mgmtCmd rfl ?_, fun i hi => ⟨fun h => effect_of_mgmtCmd rfl ?_,
    fun hslot hrep hscan => effect_of_mgmtCmd rfl ?_⟩⟩
  · rw [h]
    rfl
  · rw [hi]
    exact if_pos h
  · have hok : ¬ ((s.site i).slot.isSome = true ∨ s.replaying i = true ∨ (s.site i).state = .scanning) := by
      simp [hslot, hrep, hscan]
    rw [hi]
    exact if_neg hok

/-- R581, R587, R589, R590, R592 to R594: the commands of bring-up. -/
theorem bootCommands : BootCommands := by
  intro f s
  obtain ⟨hlen, hcommit⟩ := bootFwCommit_effect f s
  obtain ⟨hact, hactOk⟩ := bootFwActivate_effect f s
  obtain ⟨hpart, hnamed, hpartOk⟩ := bootPartReset_effect f s
  obtain ⟨hsite, hcore⟩ := bootCoreReset_effect f s
  exact ⟨bootFwWrite_effect f s, hact, hactOk, hlen, hcommit, bootReset_effect f s, hpart, hnamed, hpartOk, hsite, hcore⟩

/-! ## Images on trial -/

/-- Bring-up state alone tells whether the TRIAL image runs. -/
theorem State.onTrial_of_boot {s t : State} (h : t.boot = s.boot) : t.onTrial = s.onTrial := by
  unfold State.onTrial State.image
  rw [h]

@[simp] theorem State.image_setImage_self (s : State) (b : Bool) (x : Image) : (s.setImage b x).image b = x := by
  cases b <;> rfl

@[simp] theorem State.setImage_ready (s : State) (b : Bool) (x : Image) : (s.setImage b x).boot.ready = s.boot.ready := by
  cases b <;> rfl

/-- The record of a TRIAL image that has failed, before its event is sent (R592). -/
def State.trialFailed (s : State) : State :=
  let t := s.setImage s.boot.running { s.image s.boot.running with state := .bad }
  (State.flashWrite { t with boot := { t.boot with trialRunning := false } }).setReg .bootCode 0 0 (codeWord 0x0E06)

theorem State.markBad_eventOnly (s : State) (reason : Nat) : EventOnly s.trialFailed (s.markBad reason) :=
  mgmtReport_eventOnly _ _ _ _

/-- A TRIAL image that fails is BAD and no longer on trial; memory, cores and power stay (R592). -/
theorem State.markBad_effect (s : State) (reason : Nat) : let t := s.markBad reason
    (t.image s.boot.running).state = .bad ∧ t.boot.trialRunning = false ∧ t.boot.ready = s.boot.ready
    ∧ t.reg .bootCode = 0x0E06 ∧ t.mem = s.mem ∧ t.cores = s.cores ∧ t.pw = s.pw ∧ t.pending = s.pending := by
  have hev := s.markBad_eventOnly reason
  refine ⟨?_, by rw [hev.boot]; rfl, ?_, (hev.reg (by decide) 0 0).trans (State.reg_setReg_self _ _ _ _ _), hev.mem, hev.cores,
    hev.pw, hev.pending⟩
  · unfold State.image
    rw [hev.boot]
    exact congrArg Image.state (State.image_setImage_self s s.boot.running _)
  · rw [hev.boot]
    exact State.setImage_ready s _ _

/-- A warm reset keeps the image slots and starts at stage 1 with the image of the next boot (R582, R587). -/
theorem State.warmReset_boot (s : State) (cause : Nat) : let t := s.warmReset cause
    (∀ b, t.image b = s.image b) ∧ t.boot.cause = cause ∧ t.boot.stage = 1 ∧ t.boot.trialRunning = t.boot.trial.isSome :=
  ⟨fun _ => rfl, rfl, rfl, rfl⟩

/-- In RAMP a rollback is a warm reset with the TRIAL image BAD (R592, log 59). -/
theorem State.rollback_ramp {s : State} (h : s.pw.state = .ramp) : s.rollback = (s.markBad 0).warmReset 5 := by
  have hpw : (s.markBad 0).pw = s.pw := (s.markBad_eventOnly 0).pw
  unfold State.rollback
  dsimp only
  rw [hpw, if_pos h]

/-! ## Failed stages -/

/-- The code of a failed stage goes into a register, with an event at most (R555, R578, R595). -/
theorem State.stageCode_frame (s : State) (code : Code) (stage : Nat) : let t := s.stageCode code stage
    t.boot = s.boot ∧ t.pw = s.pw ∧ t.mem = s.mem := by
  unfold State.stageCode
  dsimp only
  split_ifs
  · exact ⟨rfl, rfl, rfl⟩
  · have hev := mgmtReport_eventOnly s .derCode code []
    exact ⟨hev.boot, hev.pw, hev.mem⟩
  · exact ⟨rfl, rfl, rfl⟩

/-- A stage that fails while no TRIAL image boots stops bring-up (R583, R349). -/
theorem State.failStage_stops (s : State) (code : Code) (stage : Nat) (h : s.onTrial = false) :
    let t := s.failStage code stage
    t.boot.failed = some code ∧ t.pw = s.pw ∧ t.mem = s.mem
    ∧ (s.pw.state = .ramp → s.boot.stage = 5 → t.reg .memStatus = 3) := by
  obtain ⟨hboot, hpw, hmem⟩ := s.stageCode_frame code stage
  have htrial (t : State) (ht : t.boot = s.boot) : ¬ t.onTrial = true := by
    rw [State.onTrial_of_boot ht, h]
    decide
  unfold State.failStage
  dsimp only
  by_cases h5 : s.pw.state = .ramp ∧ s.boot.stage = 5
  · rw [if_pos h5, if_neg (htrial ((s.stageCode code stage).setReg .memStatus 0 0 3) hboot)]
    exact ⟨rfl, hpw, hmem, fun _ _ => State.reg_setReg_self _ _ _ _ _⟩
  · rw [if_neg h5, if_neg (htrial _ hboot)]
    exact ⟨rfl, hpw, hmem, fun hr hs => absurd ⟨hr, hs⟩ h5⟩

/-- R555, R592, R604: the console's line, and the timeouts of a TRIAL image. -/
theorem trialTimeouts (s : State) :
    (s.boot.failed = none → exec .uartStageLine s = .next s)
    ∧ (∀ c, s.boot.failed = some c → exec .uartStageLine s = .next (s.send (.uart (uartLine s.boot.stage c))))
    ∧ (s.onTrial = true → s.boot.ready = false → s.pw.state = .ramp → ∃ t, exec .trialReadyTimeout s = .next t
        ∧ (t.image s.boot.running).state = .bad ∧ t.boot.cause = 5 ∧ t.boot.stage = 1 ∧ t.boot.trialRunning = t.boot.trial.isSome)
    ∧ ((s.onTrial = false ∨ s.boot.ready = true ∨ s.pw.state ≠ .ramp) → exec .trialReadyTimeout s = .next s)
    ∧ ((s.onTrial = false ∨ s.boot.ready = false) → exec .trialTimeout s = .next s)
    ∧ (s.onTrial = true → s.boot.ready = true → ∃ t, exec .trialTimeout s = .next t ∧ (t.image s.boot.running).state = .bad
        ∧ t.boot.trialRunning = false ∧ t.boot.ready = true ∧ t.reg .bootCode = 0x0E06 ∧ t.mem = s.mem ∧ t.cores = s.cores) := by
  refine ⟨fun h => exec_next (f := fun _ => _) rfl ?_ rfl, fun c h => exec_next (f := fun _ => _) rfl ?_ rfl,
    fun htrial hready hramp => ?_,
    fun h => exec_next (f := fun _ => _) rfl (if_neg ?_) rfl, fun h => exec_next (f := fun _ => _) rfl (if_neg ?_) rfl,
    fun htrial hready => ?_⟩
  · rw [h]
  · rw [h]
  · obtain ⟨hbad, -, -, -, -, -, -, hpend⟩ := s.markBad_effect 0
    obtain ⟨himage, hcause, hstage, hrun⟩ := (s.markBad 0).warmReset_boot 5
    refine ⟨_, exec_next (f := fun _ => _) rfl
      ((if_pos (by simp [htrial, hready, hramp])).trans (State.rollback_ramp hramp)) hpend, ?_, hcause, hstage, hrun⟩
    rw [himage, hbad]
  · rcases h with h | h | h <;> simp [h]
  · rcases h with h | h <;> simp [h]
  · obtain ⟨hbad, htr, hr, hcode, hmem, hcores, -, hpend⟩ := s.markBad_effect 1
    exact ⟨_, exec_next (f := fun _ => _) rfl (if_pos (by simp [htrial, hready])) hpend,
      hbad, htr, hr.trans hready, hcode, hmem, hcores⟩

/-! ## Training -/

/-- What neither training nor a report touches. -/
def State.untrained (s : State) : List Instr × Memory × List (CoreId × Core) × Boot × Power :=
  (s.pending, s.mem, s.cores, s.boot, s.pw)

theorem State.untrained_eq_iff {s t : State} : t.untrained = s.untrained ↔
    t.pending = s.pending ∧ t.mem = s.mem ∧ t.cores = s.cores ∧ t.boot = s.boot ∧ t.pw = s.pw := by
  unfold State.untrained
  simp only [Prod.mk.injEq]

theorem EventOnly.untrained {s t : State} (h : EventOnly s t) : t.untrained = s.untrained :=
  State.untrained_eq_iff.2 ⟨h.pending, h.mem, h.cores, h.boot, h.pw⟩

theorem State.untrained_mgmtReport (s : State) (r : Reg) (code : Code) (detail : List Byte) :
    (s.mgmtReport r code detail).untrained = s.untrained := (mgmtReport_eventOnly s r code detail).untrained

/-! ## Memory comes up -/

/-- What the training of one memory-port die leaves: its rate, and event 0x060C where it is reduced (R313, R345). -/
def State.dieTrained (rates : List Nat) (t : State) (d : Nat) : State :=
  let u := t.setReg .memMdRate 0 d (BitVec.ofNat 64 (rates.getD d 40))
  if rates.getD d 40 < 40 then u.mgmtReport .memCode 0x060C (natBytes 1 d) else u

/-- The state with every memory-port die trained (R313, R583). -/
def State.diesTrained (s : State) (rates : List Nat) : State := (List.range 4).foldl (State.dieTrained rates) s

theorem State.untrained_dieTrained (rates : List Nat) (t : State) (d : Nat) : (t.dieTrained rates d).untrained = t.untrained := by
  unfold State.dieTrained
  dsimp only
  split
  · exact State.untrained_mgmtReport _ _ _ _
  · rfl

/-- Of the registers the training of a die changes its rate, and MEM.CODE and the counters of events by a report. -/
theorem State.dieTrained_reg {q : Reg} (hq : q ∉ Reg.ofEvents) (hr : .memMdRate ≠ q) (hc : .memCode ≠ q)
    (rates : List Nat) (t : State) (d : Nat) : (t.dieTrained rates d).reg q = t.reg q := by
  unfold State.dieTrained
  dsimp only
  split
  · rw [(mgmtReport_eventOnly _ _ _ _).reg hq, State.reg_setReg_ne _ hc, State.reg_setReg_ne _ hr]
  · exact State.reg_setReg_ne _ hr _ _ _ _ _

theorem State.dieTrained_rate (rates : List Nat) (t : State) (d e : Nat) :
    (t.dieTrained rates d).reg .memMdRate 0 e = if d = e then BitVec.ofNat 64 (rates.getD d 40) else t.reg .memMdRate 0 e := by
  have hkey : rk .memMdRate 0 d = rk .memMdRate 0 e ↔ d = e := by simp [rk, RegKey.home, Reg.shared]
  have hset : (t.setReg .memMdRate 0 d (BitVec.ofNat 64 (rates.getD d 40))).reg .memMdRate 0 e
      = if d = e then BitVec.ofNat 64 (rates.getD d 40) else t.reg .memMdRate 0 e := by
    unfold State.reg
    rw [State.raw_setReg]
    simp only [hkey]
  unfold State.dieTrained
  dsimp only
  split
  · rw [(mgmtReport_eventOnly _ _ _ _).reg (by decide), State.reg_setReg_ne _ (by decide), hset]
  · exact hset

theorem State.dieTrained_code (rates : List Nat) (t : State) (d : Nat) :
    (t.dieTrained rates d).reg .memCode = if rates.getD d 40 < 40 then 0x060C else t.reg .memCode := by
  unfold State.dieTrained
  dsimp only
  split
  · exact ((mgmtReport_eventOnly _ _ _ _).reg (by decide) 0 0).trans (State.reg_setReg_self _ _ _ _ _)
  · exact State.reg_setReg_ne _ (by decide) _ _ _ _ _

theorem State.foldl_dieTrained_rate (rates : List Nat) (e : Nat) (l : List Nat) (s : State) :
    (l.foldl (State.dieTrained rates) s).reg .memMdRate 0 e
      = if e ∈ l then BitVec.ofNat 64 (rates.getD e 40) else s.reg .memMdRate 0 e := by
  induction l generalizing s with
  | nil => rfl
  | cons d l ih =>
    rw [List.foldl_cons, ih, State.dieTrained_rate]
    by_cases he : d = e
    · subst he; simp
    · simp [he, Ne.symm he]

theorem State.foldl_dieTrained_code (rates : List Nat) (l : List Nat) (s : State)
    (h : s.reg .memCode = 0x060C ∨ ∃ d ∈ l, rates.getD d 40 < 40) :
    (l.foldl (State.dieTrained rates) s).reg .memCode = 0x060C := by
  induction l generalizing s with
  | nil => simpa using h
  | cons d l ih =>
    refine ih _ ?_
    rw [State.dieTrained_code]
    rcases h with h | ⟨e, he, hlow⟩
    · exact .inl (by rw [h, ite_self])
    · rcases List.mem_cons.1 he with rfl | he
      · exact .inl (if_pos hlow)
      · exact .inr ⟨e, he, hlow⟩

theorem State.closeTop_of_reg {s t : State} (h : t.reg .memCtrl = s.reg .memCtrl) : t.closeTop = s.closeTop := by
  unfold State.closeTop State.dieBytes
  rw [h]

/-- Memory after training: the rates, event 0x060C for a reduced one, MEM.STATUS, and close memory, which only a warm reset keeps
(R313, R583, R587). -/
theorem State.memoryUp_effect (s : State) (rates : List Nat) : let t := s.memoryUp rates
    t.pending = s.pending ∧ t.boot = s.boot ∧ t.reg .memStatus = 1
    ∧ (∀ d, d < 4 → t.reg .memMdRate 0 d = BitVec.ofNat 64 (rates.getD d 40))
    ∧ ((∃ d, d < 4 ∧ rates.getD d 40 < 40) → t.reg .memCode = 0x060C)
    ∧ (s.boot.warm = true → t.mem = s.mem) ∧ (s.boot.warm = false → t.mem = s.mem.blur 0 s.closeTop .zero) := by
  obtain ⟨hpend, hmem, -, hboot, -⟩ := State.untrained_eq_iff.1
    (foldl_keeps State.untrained (State.untrained_dieTrained rates) (List.range 4) s)
  let t := ((s.diesTrained rates).setReg .cadAdmCloseBw 0 0 (BitVec.ofNat 64 (172800 * (s.diesTrained rates).mdRate))).setReg
    .memStatus 0 0 1
  have hrate (d : Nat) (hd : d < 4) : t.reg .memMdRate 0 d = BitVec.ofNat 64 (rates.getD d 40) := by
    rw [State.reg_setReg_ne _ (by decide), State.reg_setReg_ne _ (by decide)]
    exact (State.foldl_dieTrained_rate rates d _ s).trans (if_pos (List.mem_range.2 hd))
  have hcode (h : ∃ d, d < 4 ∧ rates.getD d 40 < 40) : t.reg .memCode = 0x060C := by
    rw [State.reg_setReg_ne _ (by decide), State.reg_setReg_ne _ (by decide)]
    obtain ⟨d, hd, hlow⟩ := h
    exact State.foldl_dieTrained_code rates _ s (.inr ⟨d, List.mem_range.2 hd, hlow⟩)
  have htop : t.closeTop = s.closeTop := State.closeTop_of_reg (by
    rw [State.reg_setReg_ne _ (by decide), State.reg_setReg_ne _ (by decide)]
    exact foldl_keeps (fun t => t.reg .memCtrl) (State.dieTrained_reg (by decide) (by decide) (by decide) rates) _ s)
  have heq : s.memoryUp rates =
      if s.boot.warm then t else State.packageRepair { t with mem := t.mem.blur 0 t.closeTop .zero } := rfl
  rw [heq]
  cases hw : s.boot.warm with
  | true => exact ⟨hpend, hboot, State.reg_setReg_self _ _ _ _ _, hrate, hcode, fun _ => hmem, fun h => absurd h (by decide)⟩
  | false =>
    refine ⟨hpend, hboot, State.reg_setReg_self _ _ _ _ _, hrate, hcode, fun h => absurd h (by decide), fun _ => ?_⟩
    exact (congrArg (fun m : Memory => m.blur 0 t.closeTop .zero) hmem).trans (by rw [htop])

/-! ## The stages -/

/-- The signature of boot stage 6 leaves memory alone (R551). -/
theorem State.signAlias_frame (s : State) : s.signAlias.pending = s.pending ∧ s.signAlias.mem = s.mem := by
  have hlow (u : State) : (if u.trust.devLeft < 1024 then (u.secCode 0x0D0D).mgmtEvent 0x0D0D else u).untrained = u.untrained := by
    split
    · exact (eventOn_eventOnly (u.secCode 0x0D0D) _ _ _ _ _).untrained
    · rfl
  have h : s.signAlias.untrained.1 = s.pending ∧ s.signAlias.untrained.2.1 = s.mem := by
    unfold State.signAlias
    dsimp only
    split
    · exact ⟨rfl, rfl⟩
    · rw [hlow]
      split <;> exact ⟨rfl, rfl⟩
  exact h

theorem State.untrained_trainPorts (s : State) : s.trainPorts.untrained = s.untrained := by
  unfold State.trainPorts
  refine (foldl_keeps State.untrained (fun t p => ?_) _ _).trans ((foldl_keeps State.untrained (fun t p => ?_) _ _).trans ?_)
  all_goals split <;> rfl

/-- The module enters ON and is READY (R543, R584). -/
theorem State.enterOn_effect (s : State) (timeUs : Nat) : let t := s.enterOn timeUs
    t.pending = s.pending ∧ t.mem = s.mem ∧ t.cores = s.cores
    ∧ t.boot = { s.boot with ready := true, timeUs := timeUs, readyEvent := true, warm := false }
    ∧ t.pw = { s.pw with state := .on, stored := [] } :=
  State.untrained_eq_iff.1 ((foldl_keeps State.untrained (fun t c => t.untrained_mgmtReport .pwrCode c []) _ _).trans
    (State.untrained_trainPorts _))

/-- The end of a stage of RAMP before the last leads to the next (R583). -/
theorem State.nextStage_effect (r : StageResult) (s : State) : let t := s.nextStage r
    (s.boot.stage = 1 ∨ s.boot.stage = 2 → t.boot.stage = s.boot.stage + 1 ∧ t = { s with boot := t.boot, pw := t.pw })
    ∧ (s.boot.stage = 3 → t.pending = s.pending ∧ t.boot.stage = 4 ∧ t.tb.tbc = 0 ∧ t.tb.runs = true ∧ t.mem = s.mem)
    ∧ (s.boot.stage = 4 →
        t = { s with boot := { s.boot with stage := 5 }, pw := { s.pw with vfPoint := List.replicate 20 15 } })
    ∧ (s.boot.stage = 5 → t.pending = s.pending ∧ t.boot.stage = 6 ∧ t.reg .memStatus = 1
        ∧ (∀ d, d < 4 → t.reg .memMdRate 0 d = BitVec.ofNat 64 (r.mdRates.getD d 40))
        ∧ ((∃ d, d < 4 ∧ r.mdRates.getD d 40 < 40) → t.reg .memCode = 0x060C)
        ∧ (s.boot.warm = true → t.mem = s.mem)
        ∧ (s.boot.warm = false →
          (∀ a, a < s.closeTop → t.mem.read a = 0) ∧ ∀ a, s.closeTop ≤ a → t.mem.read a = s.mem.read a))
    ∧ (s.boot.stage = 6 → t = s.enterOn r.timeUs) := by
  unfold State.nextStage
  refine ⟨fun h => ?_, fun h => ?_, fun h => ?_, fun h => ?_, fun h => ?_⟩
  · rcases h with h | h <;> rw [h] <;> exact ⟨rfl, rfl⟩
  · obtain ⟨hpend, hmem⟩ := s.signAlias_frame
    rw [h]
    exact ⟨hpend, rfl, rfl, rfl, hmem⟩
  · rw [h]
    rfl
  · obtain ⟨hpend, -, hstatus, hrate, hcode, hwarm, hcold⟩ := s.memoryUp_effect r.mdRates
    rw [h]
    refine ⟨hpend, rfl, hstatus, hrate, hcode, hwarm, fun hw => ⟨fun a ha => ?_, fun a ha => ?_⟩⟩
    · exact (congrArg (fun m => m.read a) (hcold hw)).trans (Memory.read_blur_zero _ _ _ _ (Nat.zero_le a) ha)
    · exact (congrArg (fun m => m.read a) (hcold hw)).trans (Memory.read_blur_out _ _ _ _ _ (.inr ha))
  · rw [h]
    rfl

/-- The end of a stage of RAMP with code 0 (R583). -/
theorem exec_rampStageComplete_ramp {r : StageResult} {s : State} (hlive : s.boot.failed = none ∧ s.boot.ready = false)
    (hst : s.pw.state = .ramp) (hc : r.code = 0) (hp : (s.nextStage r).pending = s.pending) :
    exec (.rampStageComplete r) s = .next (s.nextStage r) := by
  refine exec_next (f := fun _ => _) rfl ?_ hp
  simp [hlive, hst, hc]

/-- R583: what the end of a stage and too long a stage do in every power state. -/
theorem stageEnds (r : StageResult) (s : State) :
    ((s.boot.failed.isSome = true ∨ s.boot.ready = true) →
      exec (.rampStageComplete r) s = .next s ∧ exec .bringupStageTimeout s = .next s)
    ∧ (s.boot.failed = none → s.boot.ready = false →
      (s.pw.state = .off ∨ s.pw.state = .on ∨ s.pw.state = .tripped → exec (.rampStageComplete r) s = .next s)
      ∧ (s.pw.state = .standby ∨ s.pw.state = .stagger → r.code = 0 → exec (.rampStageComplete r) s = .next s)
      ∧ (s.pw.state = .ramp ∨ s.pw.state = .standby ∨ s.pw.state = .stagger → r.code ≠ 0 →
          exec (.rampStageComplete r) s = .next (after (fun t => t.failStage r.code r.boot) s))
      ∧ (s.pw.state = .ramp ∨ s.pw.state = .standby →
          exec .bringupStageTimeout s = .next (after (fun t => t.failStage 0x0E01 0) s))) := by
  refine ⟨fun h => ?_, fun hf hr => ⟨fun hst => ?_, fun hst hc => ?_, fun hst hc => ?_, fun hst => ?_⟩⟩
  · have hdone : (s.boot.failed.isSome || s.boot.ready) = true := by simpa using h
    exact ⟨exec_next (f := fun _ => _) rfl (if_pos hdone) rfl, exec_next (f := fun _ => _) rfl (if_pos hdone) rfl⟩
  · refine exec_next (f := fun _ => _) rfl ?_ rfl
    rcases hst with hst | hst | hst <;> simp [hf, hr, hst]
  · refine exec_next (f := fun _ => _) rfl ?_ rfl
    rcases hst with hst | hst <;> simp [hf, hr, hst, hc]
  · refine lift_congr (f := fun _ => _) (g := fun t => t.failStage r.code r.boot) ?_
    rcases hst with hst | hst | hst <;>
      simp only [hf, hr, hst, Option.isSome_none, Bool.or_self, Bool.false_eq_true, if_false, if_neg hc]
  · refine lift_congr (f := fun _ => _) (g := fun t => t.failStage 0x0E01 0) ?_
    rcases hst with hst | hst <;> simp [hf, hr, hst]

/-- R313, R319, R349, R543, R551, R555, R581 to R585, R592, R604: the stages of bring-up. -/
theorem bringUpStages : BringUpStages := by
  refine ⟨fun r s => ?_, fun s code stage h => s.failStage_stops code stage h, trialTimeouts⟩
  obtain ⟨hdone, hlive⟩ := stageEnds r s
  refine ⟨hdone, fun hf hr => ?_⟩
  obtain ⟨hother, hstandby, hfail, htimeout⟩ := hlive hf hr
  refine ⟨hother, hstandby, hfail, htimeout, fun hst hc => ?_⟩
  obtain ⟨h12, h3, h4, h5, h6⟩ := s.nextStage_effect r
  have hx := exec_rampStageComplete_ramp ⟨hf, hr⟩ hst hc
  refine ⟨fun h => ?_, fun h => ?_, fun h => ?_, fun h => ?_, fun h => ?_⟩
  · obtain ⟨hstage, heq⟩ := h12 h
    exact ⟨_, hx (by rw [heq]), hstage, heq⟩
  · obtain ⟨hpend, hrest⟩ := h3 h
    exact ⟨_, hx hpend, hrest⟩
  · rw [hx (by rw [h4 h]), h4 h]
  · obtain ⟨hpend, hrest⟩ := h5 h
    exact ⟨_, hx hpend, hrest⟩
  · obtain ⟨hpend, hmem, hcores, hboot, hpw⟩ := s.enterOn_effect r.timeUs
    rw [← h6 h] at hpend hmem hcores hboot hpw
    refine ⟨_, hx hpend, ?_, ?_, ?_, ?_, hmem, hcores⟩
    · rw [hboot]
    · rw [hpw]
    · rw [hpw]
    · rw [hboot]

/-! ## Resets of partitions and cores -/

/-- The cores of a partition are as the function makes them, every other core is as before. -/
theorem State.core_mapCores (s : State) (n : Part) (f : CoreId → Core → Core) (c : CoreId) :
    (s.mapCores n f).core c = if c ∈ s.coresOf n then f c (s.core c) else s.core c := by
  unfold State.core State.mapCores Assoc.getD
  dsimp only
  rw [Assoc.find_append, Assoc.find_map_key (fun c => f c (s.core c)),
    Assoc.find_filter (fun c => !(s.coresOf n).contains c)]
  by_cases h : c ∈ s.coresOf n
  · simp [h, State.core, Assoc.getD]
  · simp [h]

/-- A fill that starts changes an item's state alone (R333). -/
theorem pnStart_part {l : List PnItem} {i : PnItem} (h : i ∈ pnStart l) : ∃ j ∈ l, j.part = i.part := by
  unfold pnStart at h
  split at h
  · exact ⟨i, h, rfl⟩
  · split at h
    · exact ⟨i, h, rfl⟩
    · obtain ⟨j, hj, rfl⟩ := List.mem_map.1 h
      refine ⟨j, hj, ?_⟩
      split <;> rfl

/-- What the reset of a partition leaves of each table, where no command waits for it (R589). -/
theorem State.partReset_tables (s : State) (n : Part) (h : ∀ p ∈ s.boot.partReset, p.1 ≠ n) : let t := s.partReset n
    t.sv.entries = s.sv.entries.filter (fun p => !((s.entriesOf n).map (·.1)).contains p.1)
    ∧ t.wt = s.wt.filter (fun p => decide (p.1.1 ≠ n))
    ∧ t.pn = s.pn.map (fun p => (p.1, pnStart (p.2.filter (fun i => decide (i.part ≠ n)))))
    ∧ t.hp.queues = s.hp.queues.filter (fun q => decide (q.1.1 ≠ some n))
    ∧ t.hp.channels = s.hp.channels.filter (fun c => decide (c.2.owner ≠ some n))
    ∧ t.cores = (s.mapCores n (fun _ _ => Core.init)).cores ∧ t.mem = s.mem ∧ t.regs = s.regs ∧ t.doms = s.doms := by
  have hdue : s.boot.partReset.filter (fun p => decide (p.1 = n)) = [] :=
    List.filter_eq_nil_iff.2 fun p hp => by simp [h p hp]
  have hfold (f : State → Part × Frame → State) (u : State) :
      (s.boot.partReset.filter (fun p => decide (p.1 = n))).foldl f u = u := by
    rw [hdue, List.foldl_nil]
  rw [show s.partReset n = _ from hfold _ _]
  exact ⟨rfl, rfl, rfl, rfl, rfl, rfl, rfl, rfl, rfl⟩

/-- R589: the reset of a partition frees what is its own and keeps what is another's. -/
theorem partReset_effect (s : State) (n : Part) (h : ∀ p ∈ s.boot.partReset, p.1 ≠ n) : let t := s.partReset n
    (∀ p ∈ t.sv.entries, p.2.part ≠ n)
    ∧ (∀ p, p.2.part ≠ n → p ∈ s.sv.entries → (∀ q ∈ s.sv.entries, q.1 = p.1 → q = p) → p ∈ t.sv.entries)
    ∧ (∀ k v, Assoc.find (n, k) t.wt ≠ some v) ∧ (∀ d, ∀ i ∈ t.pnDir d, i.part ≠ n)
    ∧ (∀ q, t.queue (some n, q) = []) ∧ (∀ c x, t.chan c = some x → x.owner ≠ some n)
    ∧ (∀ c, c ∈ s.coresOf n → t.core c = Core.init)
    ∧ (∀ c, c ∉ s.coresOf n → t.core c = s.core c) ∧ t.mem = s.mem ∧ t.regs = s.regs ∧ t.doms = s.doms := by
  obtain ⟨hentries, hwt, hpn, hqueues, hchannels, hcores, hmem, hregs, hdoms⟩ := s.partReset_tables n h
  have hcore (c : CoreId) : (s.partReset n).core c = if c ∈ s.coresOf n then Core.init else s.core c := by
    unfold State.core
    rw [hcores]
    exact s.core_mapCores n _ c
  refine ⟨fun p hp => ?_, fun p hpart hp huniq => ?_, fun k v hf => ?_, fun d i hi => ?_, fun q => ?_, fun c x hc => ?_,
    fun c hc => (hcore c).trans (if_pos hc), fun c hc => (hcore c).trans (if_neg hc), hmem, hregs, hdoms⟩
  · rw [hentries] at hp
    obtain ⟨hp, hmine⟩ := List.mem_filter.1 hp
    intro hpart
    have hof : p ∈ s.entriesOf n := List.mem_filter.2 ⟨hp, by simpa using hpart⟩
    simp [List.mem_map_of_mem (f := (·.1)) hof] at hmine
  · rw [hentries]
    refine List.mem_filter.2 ⟨hp, ?_⟩
    simp only [List.contains_eq_mem, Bool.not_eq_true', decide_eq_false_iff_not]
    intro hmine
    obtain ⟨q, hq, hqp⟩ := List.mem_map.1 hmine
    obtain ⟨hq, hqpart⟩ := List.mem_filter.1 hq
    rw [huniq q hq hqp] at hqpart
    exact hpart (by simpa using hqpart)
  · rw [hwt, Assoc.find_filter (fun k : Part × Fin 8 => decide (k.1 ≠ n))] at hf
    simp at hf
  · unfold State.pnDir at hi
    rw [hpn] at hi
    unfold Assoc.getD at hi
    rw [Assoc.find_map_val (fun l : List PnItem => pnStart (l.filter (fun i => decide (i.part ≠ n))))] at hi
    cases hd : Assoc.find d s.pn with
    | none => simp [hd] at hi
    | some l =>
      rw [hd] at hi
      obtain ⟨j, hj, hji⟩ := pnStart_part hi
      rw [← hji]
      simpa using (List.mem_filter.1 hj).2
  · unfold State.queue
    rw [hqueues, Assoc.find_filter (fun k : Option Part × Nat => decide (k.1 ≠ some n))]
    simp
  · unfold State.chan at hc
    rw [hchannels] at hc
    simpa using (List.mem_filter.1 (Assoc.mem_of_find hc)).2

/-- Whether a block is one of a core's stations. -/
def Block.ofCore (b : Block) : Bool := decide (b = .mx ∨ b = .vx ∨ b = .tx ∨ b = .lx)

/-- No register of a core's station is Shared. -/
theorem Reg.not_shared_of_core {r : Reg} (h : r.info.block.ofCore = true) : r.shared = false := by
  revert h
  cases r <;> decide

/-- A register of a core's station lives at its site. -/
theorem rk_of_core {r : Reg} (h : r.info.block.ofCore = true) (i j : Nat) : rk r i j = ⟨r, i, j⟩ := by
  unfold rk RegKey.home
  rw [if_neg (by simp [Reg.not_shared_of_core h])]

/-- Whether a register is one of a site's stations. -/
def RegKey.ofSite (i : SiteId) (k : RegKey) : Bool := k.reg.info.block.ofCore && decide (k.i = siteIx i)

/-- What a core reset leaves in a register (R590). -/
theorem State.coreReset_raw (s : State) (i : SiteId) (k : RegKey) :
    (s.coreReset i).raw k = if k.ofSite i = true then k.reset else s.raw k := by
  have hregs : (s.coreReset i).regs = (s.clearRegs (RegKey.ofSite i)).regs := by
    refine List.filter_congr fun p _ => congrArg not ?_
    unfold RegKey.ofSite Block.ofCore
    dsimp only
    cases p.1.reg.info.block <;> simp
  exact (congrArg (Assoc.getD k k.reset) hregs).trans (s.raw_clearRegs _ k)

/-- R590: a core reset clears the site's core store and the registers of its stations, and nothing else. -/
theorem coreReset_effect (s : State) (i : SiteId) : let t := s.coreReset i
    (∀ a, siteAddr i ≤ a → a < siteAddr i + coreStoreBytes → t.mem.read a = 0)
    ∧ (∀ a, a < siteAddr i ∨ siteAddr i + coreStoreBytes ≤ a → t.mem.read a = s.mem.read a)
    ∧ (∀ r j, (r.info.block = .mx ∨ r.info.block = .vx ∨ r.info.block = .tx ∨ r.info.block = .lx) →
        t.reg r (siteIx i) j = State.reset.reg r (siteIx i) j)
    ∧ (∀ r k j, k ≠ siteIx i → t.reg r k j = s.reg r k j) ∧ t.cores = s.cores ∧ t.integ = s.integ := by
  refine ⟨fun a h1 h2 => Memory.read_blur_zero _ _ _ _ h1 h2, fun a h => Memory.read_blur_out _ _ _ _ _ h, fun r j hb => ?_,
    fun r k j hk => ?_, rfl, rfl⟩
  · have hcore : r.info.block.ofCore = true := decide_eq_true hb
    refine (s.coreReset_raw i _).trans (if_pos ?_)
    rw [rk_of_core hcore]
    simp [RegKey.ofSite, hcore]
  · refine (s.coreReset_raw i _).trans (if_neg ?_)
    unfold RegKey.ofSite
    rw [rk_reg, Bool.and_eq_true]
    rintro ⟨hcore, hi⟩
    rw [rk_of_core hcore] at hi
    exact hk (of_decide_eq_true hi)

/-- R589, R590: the resets of partitions and cores. -/
theorem partitionAndCoreResets : PartitionAndCoreResets := ⟨partReset_effect, coreReset_effect⟩

/-- Settles O53: the stages by what neither training nor a report touches, the commands by how an accepted one starts, and the
resets table by table. -/
theorem bringUp : Obligations.BringUp := ⟨bringUpStages, bootCommands, partitionAndCoreResets⟩

end Sys2Proof.Machine
end

section
/-! # Commands that leave the state, or do as another operation; one table's update read back

Support for the statements about the cadence: how a command's step follows from its operation. -/

namespace Sys2Proof.Machine

open Sys2Proof.Claims

/-- A command that leaves the state leaves it. -/
theorem exec_stays {i : Instr} {f : State → State} {s : State} (hx : exec i s = lift f s) (h : f s = s) :
    exec i s = .next s :=
  exec_next hx h rfl

/-- A command that does as another operation in this state. -/
theorem exec_after {i : Instr} {f g : State → State} {s : State} (hx : exec i s = lift f s) (h : f s = g s) :
    exec i s = .next (after g s) := by
  rw [hx, lift_eq, h, after]

theorem State.dom_updDom_self (s : State) (n : Part) (f : Domain → Domain) : (s.updDom n f).dom n = f (s.dom n) :=
  State.dom_setDom_self _ _ _

/-- What a change of a domain leaves, told by the domain it leaves. -/
theorem State.setDom_dom (s : State) (n : Part) (d : Domain) : s.setDom n d = s.setDom n ((s.setDom n d).dom n) := by
  rw [State.dom_setDom_self]

theorem State.svPart_setSvPart_self (s : State) (n : Part) (x : SvPart) : (s.setSvPart n x).svPart n = x :=
  Assoc.getD_put_self _ _ _ _

@[simp] theorem rk_index (r : Reg) (i j : Nat) : (rk r i j).j = j := by
  unfold rk RegKey.home
  split <;> rfl

/-- A register of a row is not changed by a write of another of its indices. -/
theorem State.reg_setReg_index_ne (s : State) (r : Reg) {j j' : Nat} (h : j' ≠ j) (i i' : Nat) (v : Word) :
    (s.setReg r i' j' v).reg r i j = s.reg r i j :=
  State.raw_setRaw_ne _ (fun e => h (by simpa using congrArg RegKey.j e)) _

/-- The slots of the partitions rest on their registers alone (R463, R465). -/
theorem State.partOf_congr {s t : State} (h : ∀ n, t.partCfg n = s.partCfg n) (c : CoreId) : t.partOf c = s.partOf c := by
  unfold State.partOf State.holds State.partValid State.coreBase State.corePer
  simp only [h]

/-- A register that is none of a partition's moves no core between partitions. -/
theorem State.partOf_setReg (s : State) {r : Reg} (h : r ≠ .partCfg) (i j : Nat) (v : Word) (c : CoreId) :
    (s.setReg r i j v).partOf c = s.partOf c :=
  State.partOf_congr (fun n => State.reg_setReg_ne s h i j 0 n.val v) c

/-! ## Issue -/

/-- An instruction that issues with no reserved bit set has its own effect. -/
theorem issue1_runs {s : State} {c : CoreId} {g : BitVec 4} {reads : List Dest} {au : Bool}
    (h : Issues s c g reads au) {reserved : Bool} (hr : reserved = false) (b : State → State) :
    issue1 c g reserved au reads b s = b s := by
  obtain ⟨hcan, hdown, hpc, hguard, haudit, hlate⟩ := h
  exact issue_runs c _ 1 b s ⟨hcan, hdown, hpc⟩ hr hguard haudit hlate

end Sys2Proof.Machine
end

section
/-! # What sending over the fabric leaves

Support for the statements about the time base, packets and domains: a flit that leaves a port changes the port, the count of
flits sent and what was sent, and nothing else (R386, R387). -/

namespace Sys2Proof.Machine

open Sys2Proof.Claims

/-- Flits leave the ports: they are sent and counted, and nothing else changes. -/
structure LinkOnly (s t : State) : Prop where
  frame : t = { s with tx := t.tx, regs := t.regs, fab := { s.fab with ports := t.fab.ports } }
  regs : ∀ k : RegKey, k.reg ≠ .fabTxFlits → Assoc.find k t.regs = Assoc.find k s.regs
  sent : ∀ m ∈ s.tx, m ∈ t.tx

namespace LinkOnly

theorem refl (s : State) : LinkOnly s s := ⟨rfl, fun _ _ => rfl, fun _ h => h⟩

theorem trans {s t u : State} (h : LinkOnly s t) (h' : LinkOnly t u) : LinkOnly s u := by
  refine ⟨?_, fun k hk => (h'.regs k hk).trans (h.regs k hk), fun m hm => h'.sent m (h.sent m hm)⟩
  conv_lhs => rw [h'.frame, h.frame]

variable {s t : State} (h : LinkOnly s t)
include h

theorem pending : t.pending = s.pending := by rw [h.frame]
theorem mem : t.mem = s.mem := by rw [h.frame]
theorem tb : t.tb = s.tb := by rw [h.frame]
theorem doms : t.doms = s.doms := by rw [h.frame]
theorem cores : t.cores = s.cores := by rw [h.frame]
theorem ex : t.ex = s.ex := by rw [h.frame]
theorem sv : t.sv = s.sv := by rw [h.frame]
theorem integ : t.integ = s.integ := by rw [h.frame]
theorem reg {r : Reg} (hr : r ≠ .fabTxFlits) (i j : Nat) : t.reg r i j = s.reg r i j := by
  unfold State.reg State.raw Assoc.getD
  rw [h.regs _ (by rwa [rk_reg])]

end LinkOnly

theorem LinkOnly.send (s : State) (m : Msg) : LinkOnly s (s.send m) :=
  ⟨rfl, fun _ _ => rfl, fun _ h => List.mem_cons_of_mem _ h⟩

theorem LinkOnly.setPort (s : State) (p : Port) (x : FabPort) : LinkOnly s (s.setPort p x) :=
  ⟨rfl, fun _ _ => rfl, fun _ h => h⟩

theorem LinkOnly.bump (s : State) (i j n : Nat) : LinkOnly s (s.bump .fabTxFlits i j n) :=
  ⟨rfl, fun k hk => Assoc.find_put_ne (fun e => hk (by rw [← e, rk_reg])) _ _, fun _ h => h⟩

theorem sendFlit_linkOnly (s : State) (p : Port) (k : FlitKind) (f : Flit) : LinkOnly s (s.sendFlit p k f) := by
  unfold State.sendFlit
  dsimp only
  split
  · exact (LinkOnly.send _ _).trans (LinkOnly.setPort _ _ _)
  · exact ((LinkOnly.send _ _).trans (LinkOnly.setPort _ _ _)).trans (LinkOnly.send _ _)

theorem pumpFlits_linkOnly (p : Port) (k : Nat) (s : State) : LinkOnly s (pumpFlits p k s) := by
  induction k generalizing s with
  | zero => exact LinkOnly.refl s
  | succ k ih =>
    unfold pumpFlits
    dsimp only
    split
    · exact LinkOnly.refl s
    · split
      · exact LinkOnly.refl s
      · split
        · exact sendFlit_linkOnly _ _ _ _
        · exact (((LinkOnly.setPort _ _ _).trans (LinkOnly.bump _ _ _ _)).trans (sendFlit_linkOnly _ _ _ _)).trans (ih _)

theorem pushBytes_linkOnly (s : State) (p : Port) (vc : BitVec 4) (bs : List Byte) : LinkOnly s (s.pushBytes p vc bs) :=
  (LinkOnly.setPort _ _ _).trans (pumpFlits_linkOnly _ _ _)

/-- What every step of a fold leaves, the fold leaves. -/
theorem foldl_linkOnly {α : Type} {f : State → α → State} (h : ∀ t x, LinkOnly t (f t x)) (l : List α) (s : State) :
    LinkOnly s (l.foldl f s) := by
  induction l generalizing s with
  | nil => exact LinkOnly.refl s
  | cons x l ih => exact (h s x).trans (ih _)

end Sys2Proof.Machine
end

section
/-! # Accesses to memory (R58, R60, R308, R315, R334, R335)

Support for the statements about local memory and the host's: what bytes written at a place leave, and that an access to the
core store counts nothing. -/

namespace Sys2Proof.Machine

open Sys2Proof.Claims

/-! ## Bytes written at a place (R315, R335, R340) -/

/-- An invalidation changes directories and counts (R335): what does not turn on them stays. -/
theorem State.pnInvalidate_keeps {β : Type} (g : State → β)
    (h : ∀ (t : State) d l k, g ((t.setPn d l).bump .pnInvalidations d.val 0 k) = g t) (s : State) (a len : Nat) :
    g (s.pnInvalidate a len) = g s := by
  have hdie (t : State) (d : Fin 8) : g (t.pnInvalidateDie a len d) = g t := by
    unfold State.pnInvalidateDie
    dsimp only
    split
    · rfl
    · exact h _ _ _ _
  unfold State.pnInvalidate
  split
  · rfl
  · exact foldl_keeps g hdie _ _

@[simp] theorem State.pnInvalidate_mem (s : State) (a len : Nat) : (s.pnInvalidate a len).mem = s.mem :=
  State.pnInvalidate_keeps State.mem (fun _ _ _ _ => rfl) s a len

/-- Bytes written at a place are written to memory there. -/
theorem State.putBytes_mem (s : State) (p : Place) (bs : List Byte) : (s.putBytes p bs).mem = s.mem.writeBytes p.phys bs :=
  congrArg (fun m => Memory.writeBytes m p.phys bs) (State.pnInvalidate_mem s p.phys bs.length)

/-- Bytes written at a place are read back there. -/
theorem State.putBytes_load (s : State) (p : Place) (bs : List Byte) : (s.putBytes p bs).load p.phys bs.length = bs := by
  unfold State.load
  rw [State.putBytes_mem, Memory.readBytes_writeBytes]

/-- Bytes written at a place leave every other byte. -/
theorem State.putBytes_read_ne (s : State) (p : Place) (bs : List Byte) {b : Nat} (h : b < p.phys ∨ p.phys + bs.length ≤ b) :
    (s.putBytes p bs).mem.read b = s.mem.read b := by
  rw [State.putBytes_mem, Memory.read_writeBytes, if_neg (by omega)]

/-- Where no unit of a range is poisoned, a write of the range covers no part of one. -/
theorem narrowPoison_of_clean {s : State} {a len : Nat} (h : Clean s a len) : s.narrowPoison a len = false := by
  unfold State.narrowPoison
  rw [List.any_eq_false]
  intro u hu hover
  have hnot := List.any_eq_false.1 h.1 u hu
  simp only [overlaps, Bool.and_eq_true, decide_eq_true_eq] at hover hnot
  omega

/-! ## Accesses to the core store -/

section
variable {s : State} {acc : Accessor} {a len : Nat} {p : Place} (hs : p.space = .core)
include hs

theorem State.measure_core : s.measure acc p len = s := by
  unfold State.measure
  rw [hs]
  split <;> first | rfl | contradiction

theorem State.countWrite_core : s.countWrite acc p len = s := by
  unfold State.countWrite
  rw [hs, State.measure_core hs]

theorem State.countRead_core (hr : p.region = none) : s.countRead acc p len = s := by
  unfold State.countRead
  rw [hr, State.measure_core hs]

theorem State.bytesAt_core : s.bytesAt acc p len = s.load p.phys len := by
  unfold State.bytesAt
  rw [hs]

/-- A read of a clean range of the core store passes its checks and counts nothing. -/
theorem State.startRead_core (hp : s.place acc a len false = .ok p) (hc : Clean s p.phys len) (hr : p.region = none) :
    s.startRead acc a len = (s, .ok p) := by
  unfold State.startRead
  rw [hp]
  simp only [hc.1, hc.2, State.countRead_core hs hr, Bool.false_eq_true, if_false]

/-- A read of a clean range of the core store is its bytes, and nothing else happens. -/
theorem State.readMem_core (hlen : 0 < len) (hp : s.place acc a len false = .ok p) (hc : Clean s p.phys len)
    (hr : p.region = none) : s.readMem acc a len = (s, .ok (s.load p.phys len)) := by
  unfold State.readMem
  rw [if_neg (by omega), State.startRead_core hs hp hc hr]
  simp only [Except.map, State.bytesAt_core hs]

end

/-! ## Scalar addresses (R197) -/

/-- An aligned address is one for any smaller access. -/
theorem addrForm_one {w : Word} {align : Nat} {p : Option ModIx × Nat} (h : addrForm w align = some p) :
    addrForm w 1 = some p := by
  unfold addrForm at h ⊢
  split at h
  · cases h
  · split at h
    · cases h
    · next htop _ => rw [if_neg htop, if_neg (by simp [Nat.mod_one]), h]

/-- A local address is on this module. -/
theorem State.scalarAt_local {w : Word} {align a : Nat} (h : addrForm w align = some (none, a)) (s : State) :
    s.scalarAt w = (none, a) := by
  unfold State.scalarAt
  rw [addrForm_one h]
  dsimp only
  rw [State.elsewhere, ite_self]

/-! ## A core's reads -/

/-- A core's read of a clean range of the core store is its bytes, and counts. -/
theorem State.coreRead_core {s : State} {c : CoreId} {a len phys : Nat} (hlen : 0 < len)
    (hp : s.place (s.coreAcc c) a len false = .ok ⟨.core, phys, 0, none⟩) (hc : Clean s phys len) :
    s.coreRead c a len = (s.bump .lxBytesLoaded (s.coreIx c) 0 len, .ok (s.load phys len)) := by
  unfold State.coreRead
  rw [State.readMem_core rfl hlen hp hc rfl]

end Sys2Proof.Machine
end

section
/-! # Stations at rest, and what follows a command there (R161, R214, R216 to R219)

Support for the statements about waits and local accesses: with its queues empty a core's stations do nothing, and with no core
of its partition waiting no wait ends. -/

namespace Sys2Proof.Machine

open Sys2Proof.Claims

/-! ## A core at rest -/

/-- Nothing of a core's stations is under way. -/
structure Core.AtRest (x : Core) : Prop where
  mxq : x.mxq = []
  vxq : x.vxq = []
  txq : x.txq = []
  lxq : x.lxq = []
  svq : x.svq = []
  lxRuns : x.lxRuns = []
  collRuns : x.collRuns = []

theorem Core.AtRest.queued {x : Core} (h : x.AtRest) : x.queued = [] := by
  unfold Core.queued
  rw [h.mxq, h.vxq, h.txq, h.lxq, h.svq, h.lxRuns]
  rfl

/-- With its queues empty a core's stations do nothing. -/
theorem State.settleOnce_rest {s : State} {c : CoreId} (h : (s.core c).AtRest) : s.settleOnce c = none := by
  unfold State.settleOnce State.carryOn State.carryColl
  simp only [h.mxq, h.vxq, h.txq, h.lxq, h.svq, h.lxRuns, h.collRuns, firstRun, List.findSome?_nil, ite_self]

theorem State.drain_rest {s : State} {c : CoreId} (h : (s.core c).AtRest) (k : Nat) : State.drain c k s = s := by
  cases k with
  | zero => rfl
  | succ k => simp only [State.drain, State.settleOnce_rest h]

/-! ## The cores that wait -/

/-- What a test picks out of a table that has nothing of it but an entry that is now put in. -/
theorem filter_put {α β : Type} [DecidableEq α] {P : α × β → Bool} {k : α} (v : β) {l : List (α × β)}
    (h : l.filter P = []) : (Assoc.put k v l).filter P = if P (k, v) then [(k, v)] else [] := by
  induction l with
  | nil => simp [Assoc.put, List.filter_cons]
  | cons p l ih =>
    obtain ⟨a, b⟩ := p
    rw [List.filter_eq_nil_iff] at h
    have hp : ¬ P (a, b) = true := h _ List.mem_cons_self
    have hl : l.filter P = [] := List.filter_eq_nil_iff.2 (fun x hx => h x (List.mem_cons_of_mem _ hx))
    unfold Assoc.put
    split
    · rw [List.filter_cons, hl]
    · rw [List.filter_cons, if_neg hp, ih hl]

/-- What a test picks out of a table once the one entry it picked is replaced by one it does not. -/
theorem filter_put_last {α β : Type} [DecidableEq α] {P : α × β → Bool} {k : α} {v w : β} {l : List (α × β)}
    (h : (l.filter P).map (·.1) = [k]) (hf : Assoc.find k l = some w) (hw : P (k, w) = true) (hv : P (k, v) = false) :
    (Assoc.put k v l).filter P = [] := by
  induction l with
  | nil => simp at hf
  | cons p l ih =>
    obtain ⟨a, b⟩ := p
    rw [Assoc.find_cons] at hf
    unfold Assoc.put
    by_cases ha : a = k
    · subst ha
      simp only [if_true, Option.some.injEq] at hf
      subst hf
      rw [List.filter_cons, if_pos hw, List.map_cons, List.cons.injEq] at h
      rw [if_pos rfl, List.filter_cons, hv]
      exact List.map_eq_nil_iff.1 h.2
    · rw [if_neg ha] at hf
      have hp : ¬ P (a, b) = true := by
        intro hp
        rw [List.filter_cons, if_pos hp, List.map_cons, List.cons.injEq] at h
        exact ha h.1
      rw [List.filter_cons, if_neg hp] at h
      rw [if_neg ha, List.filter_cons, if_neg hp]
      exact ih h hf

/-! ## What an access leaves of the cores -/

/-- What an access of the stations leaves of the cores, the serving state, the partitions' slots and the queue. -/
structure Aside (s t : State) : Prop where
  cores : t.cores = s.cores
  sv : t.sv = s.sv
  pending : t.pending = s.pending
  part : ∀ n, t.partCfg n = s.partCfg n

namespace Aside

theorem refl (s : State) : Aside s s := ⟨rfl, rfl, rfl, fun _ => rfl⟩

theorem trans {s t u : State} (h : Aside s t) (h' : Aside t u) : Aside s u :=
  ⟨h'.cores.trans h.cores, h'.sv.trans h.sv, h'.pending.trans h.pending, fun n => (h'.part n).trans (h.part n)⟩

theorem setReg (s : State) {r : Reg} (hr : r ≠ .partCfg) (i j : Nat) (v : Word) : Aside s (s.setReg r i j v) :=
  ⟨rfl, rfl, rfl, fun n => State.reg_setReg_ne s hr i j 0 n.val v⟩

theorem bump (s : State) {r : Reg} (hr : r ≠ .partCfg) (i j k : Nat) : Aside s (s.bump r i j k) := setReg s hr i j _

theorem setDom (s : State) (n : Part) (d : Domain) : Aside s (s.setDom n d) := ⟨rfl, rfl, rfl, fun _ => rfl⟩

section
variable {s t : State} (h : Aside s t)
include h

theorem core (c : CoreId) : t.core c = s.core c := by
  unfold State.core
  rw [h.cores]

theorem partOf (c : CoreId) : t.partOf c = s.partOf c := State.partOf_congr h.part c

theorem svPart (n : Part) : t.svPart n = s.svPart n := by
  unfold State.svPart
  rw [h.sv]

/-- The waiting cores of a partition, once a core is changed. -/
theorem waiters_setCore (n : Part) (c : CoreId) (x : Core) :
    (t.setCore c x).waiters n = ((Assoc.put c x s.cores).filter
      (fun p => p.2.wait.isSome && decide (s.partOf p.1 = some n))).map (·.1) := by
  unfold State.waiters
  show ((Assoc.put c x t.cores).filter (fun p => p.2.wait.isSome && decide ((t.setCore c x).partOf p.1 = some n))).map (·.1) = _
  rw [h.cores]
  congr 2
  funext p
  rw [show (t.setCore c x).partOf p.1 = t.partOf p.1 from rfl, h.partOf]

/-- With no other core waiting, the core that now waits is the one that does. -/
theorem waiters_alone {n : Part} {c : CoreId} {x : Core} (hw : s.waiters n = []) (hp : s.partOf c = some n)
    (hx : x.wait.isSome = true) : (t.setCore c x).waiters n = [c] := by
  rw [h.waiters_setCore, filter_put x (List.map_eq_nil_iff.1 hw), if_pos (by simp [hx, hp])]
  rfl

/-- With no core waiting, a core that does not wait adds none. -/
theorem waiters_none {n : Part} {c : CoreId} {x : Core} (hw : s.waiters n = []) (hx : x.wait = none) :
    (t.setCore c x).waiters n = [] := by
  rw [h.waiters_setCore, filter_put x (List.map_eq_nil_iff.1 hw), if_neg (by simp [hx])]
  rfl

/-- Once the one waiting core goes on, none waits. -/
theorem waiters_over {n : Part} {c : CoreId} {x : Core} (hw : s.waiters n = [c]) (hp : s.partOf c = some n)
    (hs : (s.core c).wait.isSome = true) (hx : x.wait = none) : (t.setCore c x).waiters n = [] := by
  have hfind : Assoc.find c s.cores = some (s.core c) := by
    unfold State.core Assoc.getD at hs ⊢
    cases hc : Assoc.find c s.cores with
    | none => rw [hc] at hs; exact absurd hs (by decide)
    | some y => rfl
  rw [h.waiters_setCore, filter_put_last hw hfind (by simp [hs, hp]) (by simp [hx])]
  rfl

end

/-- What an access leaves after a core was changed, it leaves of the state before that change, the cores apart. -/
theorem uncore {s t : State} {c : CoreId} {x : Core} (h : Aside (s.setCore c x) t) : Aside s { t with cores := s.cores } :=
  ⟨rfl, h.sv, h.pending, h.part⟩

/-- A change of the core after an access takes the place of the change before it. -/
theorem setCore_setCore {s t : State} {c : CoreId} {x : Core} (h : Aside (s.setCore c x) t) (y : Core) :
    t.setCore c y = State.setCore { t with cores := s.cores } c y := by
  unfold State.setCore
  rw [h.cores]
  exact congrArg (fun l => { t with cores := l }) (Assoc.put_put _ _ _ _)

end Aside

/-! ## The ends of waits -/

/-- Where no DRAFTSYNC waits, none gets its result. -/
theorem State.wakeSyncs_none {s : State} {n : Part} (hs : (s.svPart n).running.syncs = []) : s.wakeSyncs n = s := by
  unfold State.wakeSyncs
  dsimp only
  rw [hs]
  rfl

/-- Where no DRAFTSYNC waits, the waits of a partition that can end are its cores'. -/
theorem State.wakeAll_cores {s : State} {n : Part} (hs : (s.svPart n).running.syncs = []) :
    s.wakeAll n = (s.waiters n).foldl (fun t c => (State.wake c t).releaseBars c) s := by
  unfold State.wakeAll
  rw [State.wakeSyncs_none hs]

/-- Where no barrier is in use, none is released. -/
theorem State.releaseBars_none {s : State} (h : s.barriers = []) (c : CoreId) : s.releaseBars c = s := by
  unfold State.releaseBars
  rw [h]
  rfl

/-- A core in no loop moves on in sequence. -/
theorem State.advance_free {s : State} {c : CoreId} (h : (s.core c).loops = []) (k : Nat) :
    s.advance c k = s.setCore c { s.core c with pc := (s.core c).pc + k } :=
  State.advance_seq s c k (by simp [h])

/-- A core in no loop goes on after its wait. -/
theorem State.resume_free {s : State} {c : CoreId} (h : (s.core c).loops = []) :
    s.resume c = s.setCore c { s.core c with wait := none, pc := (s.core c).pc + 1 } := by
  unfold State.resume
  rw [State.advance_free (by rw [State.updCore_eq, State.core_setCore_self]; exact h), State.updCore_eq,
    State.core_setCore_self, State.setCore_setCore]

/-- Stations at rest, with no core waiting, leave the state. -/
theorem State.settle_rest {s : State} {c : CoreId} {n : Part} (h : (s.core c).AtRest) (hp : s.partOf c = some n)
    (hs : (s.svPart n).running.syncs = []) (hw : s.waiters n = []) : State.settle c s = s := by
  unfold State.settle
  rw [State.drain_rest h, hp, Option.getD_some, State.wakeAll_cores hs, hw]
  rfl

end Sys2Proof.Machine
end

section
/-! # What stops a segment

Support for the statements about faults of a segment: what a fault of a running segment leaves (R44, R220). -/

namespace Sys2Proof.Machine

open Sys2Proof.Claims

/-! ## Faults of a segment -/

/-- A code that a fault keeps in no register but its stations': its block has no code register (R44, R73). -/
def Unreported (n : Part) (code : Code) : Prop := ∀ t : State, t.faultReport n code = t

/-- The FAULT register of VX or TX, where the fault is that station's own (R187, R188). -/
def State.keepStall (s : State) (st : Option Station) (i : Nat) (w : Word) : State :=
  match st with
  | some .vx => s.setReg .vxFault i 0 w
  | some .tx => s.setReg .txFault i 0 w
  | _ => s

/-- Beside the FAULT registers of VX and TX, a station's own fault changes nothing. -/
theorem State.keepStall_frame (s : State) (st : Option Station) (i : Nat) (w : Word) :
    s.keepStall st i w = { s with regs := (s.keepStall st i w).regs } := by
  unfold State.keepStall
  split <;> rfl

theorem State.keepStall_reg_ne (s : State) (st : Option Station) (i : Nat) (w : Word) {q : Reg} (hv : q ≠ .vxFault)
    (ht : q ≠ .txFault) (i' j' : Nat) : (s.keepStall st i w).reg q i' j' = s.reg q i' j' := by
  unfold State.keepStall
  split
  · exact State.reg_setReg_ne _ hv.symm _ _ _ _ _
  · exact State.reg_setReg_ne _ ht.symm _ _ _ _ _
  · rfl

/-- A core whose segment was stopped (R44, R220). -/
def Core.stopped (x : Core) (code : Code) : Core :=
  { x with killed := some code, wait := none, late := [], mxq := [], vxq := [], txq := [], lxq := [], svq := [],
           lxRuns := [], collRuns := [] }

/-- What a fault of a running segment does, for a code that neither MX nor a code register keeps. -/
theorem State.kill_eq {s : State} {c : CoreId} {n : Part} {code : Code} (h : RunsIn s c n) (hu : Unreported n code)
    (hmx : code.toNat / 256 ≠ 2) (st : Option Station) :
    s.kill c code st =
      (((s.keepStall st (s.coreIx c) (faultWord code (s.core c).seg (s.dom n).tick)).setCore c ((s.core c).stopped code)).setReg
        .lxFault (s.coreIx c) 0 (faultWord code (s.core c).seg (s.dom n).tick)).segError n (s.core c).seg code none := by
  obtain ⟨hpart, hrun⟩ := h
  unfold State.kill
  rw [hpart]
  simp only [hrun, if_neg hmx, hu _, Option.isSome_none, Bool.false_eq_true, if_false]
  rcases st with _ | _ | _ | _ | _ <;> rfl

/-- The core of a segment that a fault stopped. -/
theorem State.kill_core {s : State} {c : CoreId} {n : Part} {code : Code} (h : RunsIn s c n) (hu : Unreported n code)
    (hmx : code.toNat / 256 ≠ 2) (st : Option Station) : (s.kill c code st).core c = (s.core c).stopped code := by
  rw [State.kill_eq h hu hmx]
  exact State.core_setCore_self _ _ _

/-- A fault of a running segment changes its core, registers and the domain's errors alone. -/
theorem State.kill_frame {s : State} {c : CoreId} {n : Part} {code : Code} (h : RunsIn s c n) (hu : Unreported n code)
    (hmx : code.toNat / 256 ≠ 2) (st : Option Station) :
    s.kill c code st =
      { s.setCore c ((s.kill c code st).core c) with
        regs := (s.kill c code st).regs, doms := (s.kill c code st).doms } := by
  rw [State.kill_core h hu hmx, State.kill_eq h hu hmx, State.keepStall_frame]
  rfl

/-- A fault that is no station's own stops the segment and leaves the rest. -/
theorem State.kill_stopped {s : State} {c : CoreId} {n : Part} {code : Code} (h : RunsIn s c n) (hu : Unreported n code)
    (hmx : code.toNat / 256 ≠ 2) : Stopped s c n code (s.kill c code) := by
  refine ⟨State.kill_core h hu hmx _, ?_, ?_, fun k hk => ?_, State.kill_frame h hu hmx _⟩
  all_goals rw [State.kill_eq h hu hmx]
  · exact State.reg_setReg_self _ _ _ _ _
  · exact congrArg Domain.errs (State.dom_setDom_self _ _ _)
  · exact State.raw_setRaw_ne _ hk.symm _

@[simp] theorem State.lastCode_pending (s : State) (code : Code) : (s.lastCode code).pending = s.pending := by
  unfold State.lastCode
  split <;> rfl

@[simp] theorem State.faultReport_pending (s : State) (n : Part) (code : Code) :
    (s.faultReport n code).pending = s.pending := by
  unfold State.faultReport
  split
  · exact State.domReport_pending _ _ _ _
  · exact State.lastCode_pending _ _

/-- A fault of a segment keeps the queue of waiting commands. -/
@[simp] theorem State.kill_pending (s : State) (c : CoreId) (code : Code) (st : Option Station) :
    (s.kill c code st).pending = s.pending := by
  have hown : ∀ (i : Nat) (w : Word), (if code.toNat / 256 = 0x02 then (s.keepStall st i w).setReg .mxFault i 0 w
      else s.keepStall st i w).pending = s.pending := by
    intro i w
    rw [State.keepStall_frame]
    split <;> rfl
  unfold State.kill
  cases s.partOf c with
  | none => rfl
  | some n =>
    dsimp only
    split
    · exact hown _ _
    · exact (State.faultReport_pending _ _ _).trans (hown _ _)

/-- An unassigned opcode, a wait's limit and TRAP stop the segment; their codes have no code register (R44, R198). -/
theorem segmentFaults : SegmentFaults := by
  intro c n s hr hrunning
  have hstop (code : Code) (hu : Unreported n code) (hmx : code.toNat / 256 ≠ 2) :
      Stopped s c n code (s.kill c code) := State.kill_stopped hr hu hmx
  have hpending (code : Code) : (s.kill c code).pending = s.pending := State.kill_pending s c code none
  refine ⟨fun w hwait hdown => ⟨fun hnone => ?_, fun hsome => ?_⟩, fun hcounts => ?_, fun f hi hd ha himm => ?_⟩
  · refine ⟨s.kill c 0x0301, exec_next (f := fun _ => _) rfl (if_pos ?_) (hpending _),
      hstop _ (fun _ => rfl) (by decide)⟩
    have hnone' : seqInstr c w 0#64 = none := hnone
    simp [hnone', Core.canIssue, hrunning, hwait, hr.2, hdown]
  · refine exec_next (f := fun _ => _) rfl (if_neg ?_) rfl
    have hsome' : seqInstr c w 0#64 ≠ none := hsome
    simp [Option.isNone_iff_eq_none, hsome']
  · refine ⟨s.kill c 0x030C, exec_next (f := fun _ => _) rfl (if_pos ?_) (hpending _),
      hstop _ (fun _ => rfl) (by decide)⟩
    simp [hrunning, hr.2, hcounts]
  · let s1 := s.updDom n (fun d =>
      { d with traps := d.traps ++ [((s.core c).seg, d.run, f.imm.setWidth 16, s.lcore n c)] })
    have hr1 : RunsIn s1 c n := hr
    refine ⟨s1.kill c 0x0311, exec_next (f := fun _ => _) rfl ((issue1_runs hi ?_ _).trans ?_)
      (State.kill_pending s1 c _ none), State.kill_stopped hr1 (fun _ => rfl) (by decide)⟩
    · simp [hd, ha]; omega
    · simp only [hr.1, Option.getD_some]; rfl

/-- The stall of a station is a fault of its core's segment, kept by that station too. -/
theorem streamStall : StreamStall := by
  intro c n st s hr hon
  have hu : Unreported n 0x0308 := fun _ => rfl
  have hmx : (0x0308 : Code).toNat / 256 ≠ 2 := by decide
  have hcore := State.kill_core hr hu hmx (some st)
  refine ⟨s.kill c 0x0308 (some st), exec_next (f := fun _ => _) rfl (if_pos (by simp [hon, hr.2]))
    (State.kill_pending _ _ _ _), ?_, ?_, ?_, ?_, ?_, ?_, ?_, ?_, State.kill_frame hr hu hmx _⟩
  iterate 7 rw [hcore]; rfl
  have hreg {q : Reg} (hq : q ≠ .lxFault) : (s.kill c 0x0308 (some st)).reg q (s.coreIx c) =
      (s.keepStall (some st) (s.coreIx c) (faultWord 0x0308 (s.core c).seg (s.dom n).tick)).reg q (s.coreIx c) := by
    rw [State.kill_eq hr hu hmx]
    exact State.reg_setReg_ne _ hq.symm _ _ _ _ _
  refine ⟨?_, ?_, ?_, ?_⟩
  · rw [State.kill_eq hr hu hmx]; exact State.reg_setReg_self _ _ _ _ _
  · rw [hreg (by decide)]; exact State.keepStall_reg_ne _ _ _ _ (by decide) (by decide) _ _
  · rintro rfl; rw [hreg (by decide)]; exact State.reg_setReg_self _ _ _ _ _
  · rintro rfl; rw [hreg (by decide)]; exact State.reg_setReg_self _ _ _ _ _

/-- Settles O14: each stop is a fault of the segment with its own code. -/
theorem segmentFaultsAndStalls : Obligations.SegmentFaultsAndStalls := ⟨segmentFaults, streamStall⟩

end Sys2Proof.Machine
end

section
/-! # How the master resolves a segment (R45 to R55)

Support for the statement about the master's decisions: which vote a retraction names, when the resolution goes on, and the
limits of silence. -/

namespace Sys2Proof.Machine

open Sys2Proof.Claims

/-! ## The vote that a retraction names (R480) -/

/-- A search that keeps the vote of the lowest index finds a vote whose index no other has and none is below. -/
theorem foldl_lowest {v : ModIx × Code} {f : Option (ModIx × Code) → ModIx × Code → Option (ModIx × Code)}
    (hnone : ∀ w, f none w = some w) (hsome : ∀ b w, f (some b) w = if w.1 < b.1 then some w else some b)
    (l : List (ModIx × Code)) (hle : ∀ w ∈ l, v.1 ≤ w.1) (huniq : ∀ w ∈ l, w.1 = v.1 → w = v)
    (b : Option (ModIx × Code)) (hb : ∀ w ∈ b, w = v ∨ v.1 < w.1) (hv : v ∈ l ∨ b = some v) : l.foldl f b = some v := by
  induction l generalizing b with
  | nil => simpa using hv
  | cons a l ih =>
    have ha : a = v ∨ v.1 < a.1 := (eq_or_lt_of_le (hle a List.mem_cons_self)).imp_left
      (fun h => huniq a List.mem_cons_self h.symm)
    refine ih (fun w hw => hle w (List.mem_cons_of_mem _ hw)) (fun w hw => huniq w (List.mem_cons_of_mem _ hw)) _ ?_ ?_
    · cases b with
      | none =>
        intro w hw
        rw [hnone] at hw
        cases hw
        exact ha
      | some b =>
        intro w hw
        rw [hsome] at hw
        split at hw
        · cases hw; exact ha
        · cases hw; exact hb b rfl
    · cases b with
      | none =>
        rw [hnone]
        simpa [eq_comm, or_comm] using hv
      | some b =>
        have hb := hb b rfl
        rw [hsome]
        rcases hv with hv | hv
        · rcases List.mem_cons.1 hv with rfl | hv
          · rcases hb with rfl | hb
            · simp
            · exact .inr (if_pos hb)
          · exact .inl hv
        · cases hv
          exact .inr (if_neg (not_lt.2 (hle a List.mem_cons_self)))

/-- A retraction names the lowest-index module whose code is not a pre-emption's (R480). -/
theorem dirtyOf_fault {votes : List (ModIx × Code)} {v : ModIx × Code} {l : List (ModIx × Code)}
    (hl : (votes.filter (fun v => decide (v.2 ≠ 0))).filter (fun v => decide (v.2 ≠ 0x0A04)) = l)
    (hv : v ∈ l) (hle : ∀ w ∈ l, v.1 ≤ w.1) (huniq : ∀ w ∈ l, w.1 = v.1 → w = v) : dirtyOf votes = some v := by
  unfold dirtyOf
  dsimp only
  rw [hl, foldl_lowest ?_ ?_ l hle huniq none (by simp) (.inl hv)]
  · exact fun _ => rfl
  · exact fun _ _ => rfl

/-- Where every vote is clean no retraction is due. -/
theorem dirtyOf_clean {votes : List (ModIx × Code)} (h : votes.filter (fun v => decide (v.2 ≠ 0)) = []) :
    dirtyOf votes = none := by
  unfold dirtyOf
  rw [h]
  rfl

/-! ## Resolution -/

section
variable {s : State} {n : Part} {j : Nat}

/-- A master with every vote on a segment resolves it. -/
theorem State.resolve_complete (hm : s.isMaster n = true) (hrun : (s.dom n).state = .running) (hc : (s.dom n).committed = false)
    (hj : (s.dom n).tally.resolved < s.stepSegs n) (hv : s.complete? n (s.dom n).tally.resolved = true) (k : Nat) :
    (∀ v, dirtyOf ((s.dom n).tally.votesFor (s.dom n).tally.resolved) = some v →
      State.resolve n (k + 1) s = s.retractAll n (s.dom n).tally.resolved v.2 v.1)
    ∧ (dirtyOf ((s.dom n).tally.votesFor (s.dom n).tally.resolved) = none →
      let u := (s.broadcast n .pass (s.segMsg n (s.dom n).tally.resolved 0 0)).doPass n (s.dom n).tally.resolved
      State.resolve n (k + 1) s =
        if u.stepSegs n ≤ (s.dom n).tally.resolved + 1 then u.commitAll n else State.resolve n k u) := by
  have hgo : (!s.isMaster n || decide ((s.dom n).state ≠ .running) || (s.dom n).committed
      || decide (s.stepSegs n ≤ (s.dom n).tally.resolved) || !s.complete? n (s.dom n).tally.resolved) = false := by
    simp [hm, hrun, hc, hv, hj]
  constructor
  · intro v hd
    rw [State.resolve]
    simp only [hgo, hd]
    rfl
  · intro hd
    rw [State.resolve]
    simp only [hgo, hd]
    rfl

/-- While a vote is missing the master waits. -/
theorem State.resolve_incomplete (hv : s.complete? n (s.dom n).tally.resolved = false) (k : Nat) :
    State.resolve n (k + 1) s = s := by
  rw [State.resolve]
  exact if_pos (by simp [hv])

/-- A retraction that the tick's limit allows is broadcast and taken (R46). -/
theorem State.retractAll_allowed {code : Code} {m : ModIx} (h : (s.dom n).run < s.regN .cadDomMaxRetracts 0 n.val) :
    s.retractAll n j code m = (s.broadcast n .retract { s.segMsg n j code m.val with run := (s.dom n).run + 1 }).doRetract n j
      ((s.dom n).run + 1) code m.val := if_neg (by omega)

/-- Once the retractions of the tick are used up it is aborted (R50). -/
theorem State.retractAll_exhausted {code : Code} {m : ModIx} (h : s.regN .cadDomMaxRetracts 0 n.val ≤ (s.dom n).run) :
    s.retractAll n j code m = s.abortAll n := if_pos (by omega)

end

/-- With no vote waiting, nothing is looked at again. -/
theorem State.takeEarly_nil {s : State} {n : Part} {d : Domain} (h : d.early = []) :
    (s.setDom n d).takeEarly n = s.setDom n d := by
  unfold State.takeEarly
  rw [State.dom_setDom_self, h, List.foldl_nil, State.updDom_eq, State.dom_setDom_self, State.setDom_setDom, ← h]

/-- The votes on a segment with another module's added. -/
def Domain.addVote (d : Domain) (m : Mgmt) : Domain :=
  { d with tally := { d.tally with votes := d.tally.votes ++ [(m.seg, m.src, m.code)] } }

/-- A first vote of the running tick on a segment that is open is added, and the segment resolved (R46). -/
theorem State.takeVote_open {s : State} {m : Mgmt} (hm : s.isMaster m.dom = true ∨ s.isDeputy m.dom = true)
    (hl : (s.dom m.dom).live = true) (ht : m.tick.toNat = (s.dom m.dom).tick) (hr : m.run = (s.dom m.dom).run)
    (hj : (s.dom m.dom).tally.resolved ≤ m.seg)
    (hv : ∀ v ∈ (s.dom m.dom).tally.votes, ¬(v.1 = m.seg ∧ v.2.1 = m.src)) :
    s.takeVote m = State.resolve m.dom 65 (s.setDom m.dom ((s.dom m.dom).addVote m)) := by
  have hteller : ¬(!(s.isMaster m.dom || s.isDeputy m.dom)) = true := by rcases hm with h | h <;> simp [h]
  have hfirst : ¬(m.seg < (s.dom m.dom).tally.resolved
      ∨ (s.dom m.dom).tally.votes.any (fun v => decide (v.1 = m.seg ∧ v.2.1 = m.src)) = true) := by
    rw [not_or, List.any_eq_true]
    exact ⟨Nat.not_lt.2 hj, fun ⟨v, hmem, h⟩ => hv v hmem (of_decide_eq_true h)⟩
  unfold State.takeVote
  exact (if_neg hteller).trans ((if_pos ⟨ht, hr, hl⟩).trans (if_neg hfirst))

theorem masterResolves : MasterResolves := by
  constructor
  · intro s m hm hl ht hr
    constructor
    · refine ⟨s.updTally m.dom (fun t => { t with waits := t.waits ++ [(m.seg, m.src)] }),
        exec_next (f := fun t => t.takeWait m) rfl (if_pos ?_) rfl, ?_, State.setDom_dom _ _ _⟩
      · rcases hm with h | h <;> simp [h, hl, ht, hr]
      · exact congrArg (fun d => d.tally.waits) (State.dom_updDom_self _ _ _)
    · intro hj hv he u
      have htake : s.takeVote m = State.resolve m.dom 65 u := State.takeVote_open hm hl ht hr hj hv
      refine ⟨exec_after (f := fun t => (t.takeVote m).takeEarly m.dom) rfl (congrArg (fun t => State.takeEarly t m.dom) htake),
        fun hc => exec_next (f := fun t => (t.takeVote m).takeEarly m.dom) rfl ?_ rfl⟩
      have hu : u.dom m.dom = (s.dom m.dom).addVote m := State.dom_setDom_self _ _ _
      have hwait : State.resolve m.dom 65 u = u := State.resolve_incomplete (by rw [hu]; exact hc) 64
      exact (congrArg (fun t => State.takeEarly t m.dom) (htake.trans hwait)).trans (State.takeEarly_nil he)
  intro s n k hm hrun hcom j hj hv dirty faults
  constructor
  · intro hclean
    exact ⟨_, rfl, (State.resolve_complete hm hrun hcom hj hv k).2 (dirtyOf_clean hclean)⟩
  · intro v hmem hle huniq
    have hres := (State.resolve_complete hm hrun hcom hj hv k).1 v (dirtyOf_fault rfl hmem hle huniq)
    exact ⟨fun h => hres.trans (State.retractAll_allowed h), fun h => hres.trans (State.retractAll_exhausted h)⟩

/-- The votes held for a segment and a module's WAIT tell that it was heard. -/
theorem Tally.not_heard {t : Tally} {j : Nat} {m : ModIx} (hv : ∀ v ∈ t.votes, ¬(v.1 = j ∧ v.2.1 = m)) (hw : (j, m) ∉ t.waits) :
    (((t.votesFor j).map (·.1)).contains m || t.waits.any (fun w => decide (w = (j, m)))) = false := by
  simp only [Tally.votesFor, Bool.or_eq_false_iff, List.any_eq_false, List.contains_eq_mem, decide_eq_false_iff_not,
    List.map_map, List.mem_map, List.mem_filter, decide_eq_true_eq]
  exact ⟨fun ⟨v, ⟨hmem, hj⟩, h⟩ => hv v hmem ⟨hj, h⟩, fun w hmem h => hw (h ▸ hmem)⟩

theorem Tally.votesFor_isEmpty {t : Tally} {j : Nat} : (t.votesFor j).isEmpty = true ↔ ∀ v ∈ t.votes, v.1 ≠ j := by
  simp [Tally.votesFor]

theorem silentModules : SilentModules := by
  intro s n
  dsimp only
  refine ⟨fun m hm hrun hcom hmem hj hnv hnw hfirst => exec_after (show execSilentTimeout n m s = lift _ s from rfl) ?_,
    fun m hnone => exec_stays (show execSilentTimeout n m s = lift _ s from rfl) (if_pos ?_),
    fun hm hl hs => exec_after (show execRejoinTimeout n s = lift _ s from rfl) (if_pos ?_), fun hd hrun hcom hj hv => ?_⟩
  · have hheard := Tally.not_heard hnv hnw
    have hvotes : ((s.dom n).tally.votesFor (s.dom n).tally.resolved).isEmpty = false := by
      rw [← Bool.not_eq_true, Tally.votesFor_isEmpty]
      exact fun h => hfirst.elim (fun v hv => h v hv.1 hv.2)
    refine (if_neg ?_).trans (if_congr (by simp) rfl rfl)
    simp only [hm, hrun, hcom, hheard, hvotes]
    simp [hmem, hj]
  · have hvotes : ((s.dom n).tally.votesFor (s.dom n).tally.resolved).isEmpty = true := Tally.votesFor_isEmpty.2 hnone
    simp [hvotes]
  · simp [hm, hl, hs]
  · refine ⟨s.updDom n (fun x => { x with master := s.self, deputy := s.nextDeputy n s.self }), State.dom_updDom_self _ _ _,
      State.setDom_dom _ _ _, exec_after (show execMasterFailover n s = lift _ s from rfl) (if_neg ?_)⟩
    simp [hd, hrun, hcom, hj, hv]

/-- Settles O28: the master's resolution of a segment, and what silence leads to. -/
theorem masterDecisions : Obligations.MasterDecisions := ⟨masterResolves, silentModules⟩

end Sys2Proof.Machine
end

section
/-! # Commit apply, admission close and the end of a pre-emption's hold -/

namespace Sys2Proof.Machine

open Sys2Proof.Claims

/-! ## Commit apply -/

/-- The commit of a tick ends with the apply's own notes: the next tick, which has no commit yet, and the apply time (R56, R57,
R73). -/
theorem State.commitWork_ends (s : State) (n : Part) (time : Word) : ∃ u : State, ∃ late bound : Bool,
    s.commitWork n time = (u.setReg .cadDomLastCommit 0 n.val time).updDom n (fun x =>
      { x with lastTick := some (s.dom n).tick, lastLate := late, lastBound := bound, tick := (s.dom n).tick + 1,
               applyAt := none, committed := false, applyWaits := false }) :=
  ⟨_, _, _, rfl⟩

theorem State.apply_none {s : State} {n : Part} (h : (s.dom n).applyAt = none) : s.apply n = s := by
  unfold State.apply
  simp only [h]

/-- An apply waits for a promotion's copy of the tick (R344). -/
theorem State.apply_waits {s : State} {n : Part} {time : Word} (h : (s.dom n).applyAt = some time)
    (hrun : (s.dom n).state = .running) (hp : s.promotionRuns n (s.dom n).tick = true) :
    s.apply n = s.updDom n (fun x => { x with applyWaits := true }) := by
  unfold State.apply
  simp only [h]
  exact (if_neg (fun h => h hrun)).trans (if_pos hp)

/-- An apply that nothing holds commits the tick's work. -/
theorem State.apply_commits {s : State} {n : Part} {time : Word} (h : (s.dom n).applyAt = some time)
    (hrun : (s.dom n).state = .running) (hp : s.promotionRuns n (s.dom n).tick = false) (hw : (s.dom n).applyWaits = false) :
    s.apply n = (s.commitWork n time).afterApply n := by
  unfold State.apply
  simp only [h, hrun, hp, hw, ne_eq, not_true_eq_false, if_false, Bool.false_eq_true]

theorem commitApplies : CommitApplies := by
  intro s n
  refine ⟨fun h => exec_stays (f := fun t => t.apply n) rfl (State.apply_none h),
    fun time h hrun => ⟨fun hp => ?_, fun hp hw => ?_⟩⟩
  · exact ⟨_, exec_next (f := fun t => t.apply n) rfl (State.apply_waits h hrun hp) rfl, rfl⟩
  · refine ⟨_, rfl, exec_after (f := fun t => t.apply n) rfl (State.apply_commits h hrun hp hw), ?_⟩
    obtain ⟨u, late, bound, he⟩ := s.commitWork_ends n time
    rw [he, State.dom_updDom_self]
    exact ⟨rfl, rfl, rfl, rfl, State.reg_setReg_self _ _ _ _ _⟩

/-! ## Admission close, and the end of a hold -/

/-- The tick whose batch an admission close builds. -/
def Domain.batchTick (d : Domain) : Nat := if d.state = .starting then d.tick else d.tick + 1

/-- The state an admission close builds its batch on: the configuration latched, the issue level evaluated, the intake applied
(R64). -/
def State.admitted (s : State) (n : Part) : State :=
  ((s.latchCfg n).evalIssueLevel n).applyIntake n (s.dom n).batchTick

/-- A batch without work, where the module's configuration does not match its domain's (R278). -/
def State.closeMismatched (s : State) (n : Part) (k : Nat) : State :=
  s.setSvPart n { s.svPart n with next := some { Batch.empty with tick := k, mismatch := true } }

/-- What an admission close does. -/
def State.closeAdmission (n : Part) (s : State) : State :=
  if !((s.dom n).live || decide ((s.dom n).state = .starting)) || (s.svPart n).next.isSome then s
  else if ((s.admitted n).svPart n).mismatch then (s.admitted n).closeMismatched n (s.dom n).batchTick
  else (s.admitted n).buildBatch n (s.dom n).batchTick

theorem exec_admissionClose (n : Part) (s : State) : exec (.admissionClose n) s = lift (State.closeAdmission n) s := rfl

/-- A domain that runs or starts and has no batch yet is open for admission. -/
theorem State.closeAdmission_open {s : State} {n : Part} (hnext : (s.svPart n).next = none)
    (h : (s.dom n).live = true ∨ (s.dom n).state = .starting) :
    s.closeAdmission n = if ((s.admitted n).svPart n).mismatch then (s.admitted n).closeMismatched n (s.dom n).batchTick
      else (s.admitted n).buildBatch n (s.dom n).batchTick := by
  unfold State.closeAdmission
  refine if_neg ?_
  rcases h with h | h <;> simp [hnext, h]

/-- A domain that neither runs nor starts, or has its batch, is closed for admission. -/
theorem State.closeAdmission_closed {s : State} {n : Part}
    (h : (s.svPart n).next.isSome = true ∨ (s.dom n).state = .idle ∨ (s.dom n).state = .suspended) :
    s.closeAdmission n = s := by
  unfold State.closeAdmission
  refine if_pos ?_
  rcases h with h | h | h
  · simp [h]
  · simp [Domain.live, h]
  · simp [Domain.live, h]

theorem admissionAndHold : AdmissionAndHold := by
  intro s n d
  refine ⟨fun h => exec_stays (exec_admissionClose n s) (State.closeAdmission_closed h), fun hnext hlive =>
    ⟨s.admitted n, rfl, fun hm => ?_, fun hm => ?_⟩, fun h => exec_stays rfl (if_neg ?_), fun h => ?_⟩
  · refine exec_after (exec_admissionClose n s) ((State.closeAdmission_open hnext hlive).trans (if_neg ?_))
    simpa using hm
  · refine ⟨after (fun t => (t.admitted n).closeMismatched n (t.dom n).batchTick) s,
      exec_after (exec_admissionClose n s) ((State.closeAdmission_open hnext hlive).trans (if_pos hm)),
      ⟨{ Batch.empty with tick := (s.dom n).batchTick, mismatch := true }, ?_, rfl, rfl, rfl⟩, rfl⟩
    exact congrArg SvPart.next (State.svPart_setSvPart_self _ _ _)
  · simp [show (s.dom n).holding = false from h]
  · exact exec_after rfl (if_pos h)

/-- Settles O29: the apply commits the tick's work, and the close of admission builds the next batch. -/
theorem commitAndAdmission : Obligations.CommitAndAdmission := ⟨commitApplies, admissionAndHold⟩

end Sys2Proof.Machine
end

section
/-! # The time base (R28 to R34) -/

namespace Sys2Proof.Machine

open Sys2Proof.Claims

/-! ## The block idles -/

/-- The IDENT flits that fall due leave the ports (R394 to R396). -/
theorem identTick_linkOnly (s : State) : LinkOnly s s.identTick := by
  unfold State.identTick
  refine foldl_linkOnly (fun t p => ?_) _ _
  have hsend (b : Bool) : LinkOnly t (t.when b (fun u => u.sendIdent p)) := by
    unfold State.when
    split
    · exact sendFlit_linkOnly _ _ _ _
    · exact LinkOnly.refl t
  split
  · exact hsend _
  · exact hsend _
  · exact hsend _
  · exact LinkOnly.refl t

/-- With no port in IDENT, MISWIRED or VERSION_HOLD no flit falls due. -/
theorem identTick_quiet {s : State}
    (h : ∀ p, (s.port p).state ≠ .ident ∧ (s.port p).state ≠ .miswired ∧ (s.port p).state ≠ .versionHold) :
    s.identTick = s := by
  unfold State.identTick
  refine List.foldl_fixed' (fun p => ?_) _
  obtain ⟨hident, hmiswired, hhold⟩ := h p
  split
  · contradiction
  · contradiction
  · contradiction
  · rfl

/-- What a nanosecond changes of the time base. -/
theorem TimeBase.count_eq (t : TimeBase) : t.count = { t with tbc := t.count.tbc, offset := t.count.offset } := by
  unfold TimeBase.count
  split
  · rfl
  · split <;> rfl

theorem step_empty {s : State} (h : s.pending = []) : step s = .next (idle s) := by
  unfold step
  rw [h]

/-- Settles O2: an idle nanosecond counts the time base by the sign of its offset, and sends IDENT flits at most. -/
theorem emptyQueueCountsTheTimeBase : Obligations.EmptyQueueCountsTheTimeBase := by
  intro s hp
  rw [step_empty hp]
  constructor
  · intro h
    exact congrArg _ (if_neg (by simp [h]))
  · intro h
    have hidle : idle s = State.identTick { s with tb := s.tb.count } := if_pos h
    have hl := identTick_linkOnly { s with tb := s.tb.count }
    refine ⟨idle s, rfl, ?_⟩
    rw [hidle]
    refine ⟨hl.pending.trans hp, hl.mem, hl.cores, hl.doms, ?_, ?_, ?_, ?_, fun hq => ?_⟩
    · rw [hl.tb]; exact TimeBase.count_eq _
    · intro h0
      rw [hl.tb]
      simp [TimeBase.count, h0]
    · intro h0
      rw [hl.tb]
      simp [TimeBase.count, h0]
    · intro h0
      rw [hl.tb]
      simp [TimeBase.count, h0, Int.not_lt.2 (Int.le_of_lt h0)]
    · have hquiet : State.identTick { s with tb := s.tb.count } = { s with tb := s.tb.count } := identTick_quiet hq
      rw [hquiet]

/-! ## Inputs and pins (R29, R32 to R34, R610) -/

theorem State.wholeSecond_iff (s : State) : s.wholeSecond = true ↔
    if (s.reg .cadPpsCtrl).getLsbD 1 = true then (s.tb.tbc + s.reg .cadPtpOffset).toNat % 1000000000 = 0
    else s.tb.tbc.toNat % 1000000000 = 0 := by
  unfold State.wholeSecond State.now
  split <;> simp [*]

theorem timeBaseInputs : TimeBaseInputs := by
  refine ⟨fun s p hl hf => exec_next (show execTimeSyncSend p s = lift _ s from rfl) (if_pos ?_) ?_,
    fun s h => exec_next (show execPtpSync h s = lift _ s from rfl) rfl rfl,
    fun s => ⟨fun ho hs => ?_, fun h => ?_⟩, fun s => ⟨fun h => ?_, fun t ht h => ?_⟩,
    fun s h => exec_next (show execTbPathFail s = lift _ s from rfl) (if_neg (by simp [h])) (State.mgmtReport_pending _ _ _ _)⟩
  · simp [hl, hf]
  · exact ((LinkOnly.send _ _).trans (pushBytes_linkOnly _ _ _ _)).pending
  · refine exec_next (show execPpsOutPulse s = lift _ s from rfl) (if_pos ?_) rfl
    rw [ho, s.wholeSecond_iff.2 hs]
    rfl
  · refine exec_stays (show execPpsOutPulse s = lift _ s from rfl) (if_neg ?_)
    rw [Bool.and_eq_true, s.wholeSecond_iff]
    rintro ⟨ho, hs⟩
    rcases h with h | h
    · exact Bool.noConfusion (h.symm.trans ho)
    · exact h hs
  · have hfirst : ¬ s.tb.edge.any (fun t => decide ((s.now - t).toNat < 500000000)) = true := by
      rw [Option.any_eq_true]
      rintro ⟨t, ht, hlt⟩
      exact absurd (of_decide_eq_true hlt) (Nat.not_lt.2 (h t ht))
    refine ⟨_, exec_next (show execPpsInEdge s = lift _ s from rfl) (if_neg hfirst) rfl, State.reg_setReg_self _ _ _ _ _, rfl,
      fun k hk => State.raw_setRaw_ne _ hk.symm _, rfl⟩
  · refine exec_stays (show execPpsInEdge s = lift _ s from rfl) (if_pos ?_)
    rw [ht]
    exact decide_eq_true h

/-! ## Exchanges (R29, R30, R73, R585) -/

/-- The operating time of a module goes on where TBC takes its parent's time. -/
theorem State.timeFrom_opTime (s : State) (time t1 t2 t3 b : Word) : (s.timeFrom time t1 t2 t3 b).opTime = s.opTime := by
  unfold State.timeFrom State.opTime
  dsimp only
  rw [Int.sub_add_cancel]

/-- TBC with what it lacks of the parent's time is the parent's time. -/
theorem State.timeFrom_offset (s : State) (time t1 t2 t3 b : Word) :
    let t := s.timeFrom time t1 t2 t3 b
    t.tb.tbc + BitVec.ofInt 64 t.tb.offset
      = time + BitVec.ofNat 64 ((t.tb.trips.map (·.toNat)).sum / t.tb.trips.length / 2) := by
  unfold State.timeFrom
  dsimp only
  rw [BitVec.ofInt_toInt, BitVec.add_comm, BitVec.sub_add_cancel]

/-- An enabled domain that is not suspended already commits its tick and is then suspended (R73). -/
def State.suspendLater (t : State) (n : Part) : State :=
  if (t.dom n).state = .suspended then t
  else (t.updDom n (fun d => { d with suspendAfter := some 0x0102 })).domReport n 0x0102

/-- What a fold leaves of one entry of a table, where its steps of other entries leave it and its own step does not add up. -/
theorem foldl_entry {α β : Type} [DecidableEq α] {f : State → α → State} {g : State → β} {upd : β → β} {n : α}
    (hne : ∀ t m, m ≠ n → g (f t m) = g t) (heq : ∀ t, g (f t n) = upd (g t)) (hid : ∀ b, upd (upd b) = upd b) (l : List α)
    (s : State) : g (l.foldl f s) = if n ∈ l then upd (g s) else g s := by
  induction l generalizing s with
  | nil => rfl
  | cons m l ih =>
    rw [List.foldl_cons, ih]
    by_cases hm : m = n
    · subst hm
      simp [heq, hid]
    · simp [hne s m hm, Ne.symm hm]

/-- What the suspension of a domain leaves: its own domain and code register, and what events leave. -/
theorem State.suspendLater_eq (t : State) (n : Part) : t.suspendLater n = t ∨
    EventOnly ((t.updDom n (fun d => { d with suspendAfter := some 0x0102 })).setReg .cadDomCode 0 n.val (codeWord 0x0102))
      (t.suspendLater n) := by
  unfold State.suspendLater
  split
  · exact .inl rfl
  · exact .inr (eventOn_eventOnly _ _ _ _ _ _)

/-- A domain and its code register. -/
def State.domCode (n : Part) (t : State) : Domain × Word := (t.dom n, t.reg .cadDomCode 0 n.val)

/-- What R73 makes of a domain and its code register. -/
def suspendedLater (x : Domain × Word) : Domain × Word :=
  if x.1.state = .suspended then x else ({ x.1 with suspendAfter := some 0x0102 }, 0x0102)

theorem suspendedLater_idem (x : Domain × Word) : suspendedLater (suspendedLater x) = suspendedLater x := by
  unfold suspendedLater
  by_cases h : x.1.state = .suspended <;> simp [h]

theorem State.domCode_suspendLater_ne (t : State) {n m : Part} (h : m ≠ n) :
    State.domCode n (t.suspendLater m) = State.domCode n t := by
  rcases t.suspendLater_eq m with he | he
  · rw [he]
  · refine Prod.ext ?_ ?_
    · show (t.suspendLater m).dom n = t.dom n
      unfold State.dom
      rw [he.doms]
      exact State.dom_setDom_ne t h _
    · refine (he.reg (by decide) _ _).trans ?_
      exact State.reg_setReg_index_ne _ _ (Fin.val_ne_of_ne h) _ _ _

theorem State.domCode_suspendLater (t : State) (n : Part) :
    State.domCode n (t.suspendLater n) = suspendedLater (State.domCode n t) := by
  by_cases h : (t.dom n).state = .suspended
  · rw [show t.suspendLater n = t from if_pos h]
    exact (if_pos h).symm
  · have hs : suspendedLater (State.domCode n t) = ({ t.dom n with suspendAfter := some 0x0102 }, 0x0102) := if_neg h
    have he : EventOnly ((t.updDom n (fun d => { d with suspendAfter := some 0x0102 })).setReg .cadDomCode 0 n.val
        (codeWord 0x0102)) (t.suspendLater n) := by
      rw [show t.suspendLater n = _ from if_neg h]
      exact eventOn_eventOnly _ _ _ _ _ _
    rw [hs]
    refine Prod.ext ?_ ?_
    · show (t.suspendLater n).dom n = _
      unfold State.dom
      rw [he.doms]
      exact State.dom_setDom_self t n _
    · exact (he.reg (by decide) _ _).trans (State.reg_setReg_self _ _ _ _ _)

theorem State.domCode_eachEnabled (s : State) (n : Part) :
    State.domCode n (s.eachEnabled State.suspendLater) =
      if s.enabled n = true then suspendedLater (State.domCode n s) else State.domCode n s := by
  unfold State.eachEnabled
  rw [foldl_entry (fun t m h => t.domCode_suspendLater_ne h) (fun t => t.domCode_suspendLater n) suspendedLater_idem]
  simp

/-- A bound above 1,000 ns suspends an enabled domain after its tick. -/
theorem State.eachEnabled_suspends {s : State} {n : Part} (he : s.enabled n = true) (hs : (s.dom n).state ≠ .suspended) :
    (s.eachEnabled State.suspendLater).dom n = { s.dom n with suspendAfter := some 0x0102 }
      ∧ (s.eachEnabled State.suspendLater).reg .cadDomCode 0 n.val = 0x0102 := by
  have h := (s.domCode_eachEnabled n).trans ((if_pos he).trans (if_neg hs))
  exact Prod.ext_iff.1 h

/-- A domain that is disabled or suspended stays as it is. -/
theorem State.eachEnabled_spares {s : State} {n : Part} (h : s.enabled n = false ∨ (s.dom n).state = .suspended) :
    (s.eachEnabled State.suspendLater).dom n = s.dom n := by
  have hsame : State.domCode n (s.eachEnabled State.suspendLater) = State.domCode n s := by
    refine (s.domCode_eachEnabled n).trans ?_
    rcases h with h | h
    · exact if_neg (by simp [h])
    · rw [suspendedLater, if_pos (show (State.domCode n s).1.state = .suspended from h), ite_self]
  exact congrArg Prod.fst hsame

/-- What the suspension of a domain leaves of everything but domains, registers and events. -/
theorem State.suspendLater_keeps {β : Type} {g : State → β} (hdom : ∀ t n d, g (State.setDom t n d) = g t)
    (hreg : ∀ t r i j v, g (State.setReg t r i j v) = g t) (hev : ∀ t u, EventOnly t u → g u = g t) (t : State) (n : Part) :
    g (t.suspendLater n) = g t := by
  rcases t.suspendLater_eq n with he | he
  · rw [he]
  · exact (hev _ _ he).trans ((hreg _ _ _ _ _).trans (hdom _ _ _))

theorem State.eachEnabled_suspendLater (s : State) :
    (s.eachEnabled State.suspendLater).tb = s.tb ∧ (s.eachEnabled State.suspendLater).mem = s.mem
      ∧ (s.eachEnabled State.suspendLater).cores = s.cores ∧ (s.eachEnabled State.suspendLater).pending = s.pending :=
  ⟨foldl_keeps State.tb (State.suspendLater_keeps (fun _ _ _ => rfl) (fun _ _ _ _ _ => rfl) (fun _ _ h => h.tb)) _ _,
    foldl_keeps State.mem (State.suspendLater_keeps (fun _ _ _ => rfl) (fun _ _ _ _ _ => rfl) (fun _ _ h => h.mem)) _ _,
    foldl_keeps State.cores (State.suspendLater_keeps (fun _ _ _ => rfl) (fun _ _ _ _ _ => rfl) (fun _ _ h => h.cores)) _ _,
    foldl_keeps State.pending (State.suspendLater_keeps (fun _ _ _ => rfl) (fun _ _ _ _ _ => rfl) (fun _ _ h => h.pending)) _ _⟩

theorem timeExchanges : TimeExchanges := by
  refine ⟨fun s p time t1 t2 t3 b hp => ⟨s.timeFrom time t1 t2 t3 b,
      exec_next (show execTimeSync p time t1 t2 t3 b s = lift _ s from rfl) (if_pos hp) rfl, rfl, rfl, fun h => ?_, fun h => ?_,
      fun h => ?_, s.timeFrom_offset _ _ _ _ _, rfl, s.timeFrom_opTime _ _ _ _ _⟩,
    fun s p time t1 t2 t3 b hp hl hf => exec_after (show execTimeSync p time t1 t2 t3 b s = lift _ s from rfl)
      ((if_neg hp).trans (if_pos ?_)), fun s b => ?_, fun s hf hr hu => ?_⟩
  · simp [State.timeFrom, h]
  · simp [State.timeFrom, h]
  · simp [State.timeFrom, h]
  · simp [hl, hf]
  · by_cases hb : b.toNat ≤ 1000
    · exact ⟨s.setBound b, exec_next (show execTbUnlocked b s = lift _ s from rfl) (if_pos hb) rfl, rfl, fun _ => rfl,
        fun h => absurd hb (Nat.not_le.2 h), fun _ _ => rfl, rfl, rfl⟩
    · obtain ⟨htb, hmem, hcores, hpending⟩ := (s.setBound b).eachEnabled_suspendLater
      exact ⟨(s.setBound b).eachEnabled State.suspendLater,
        exec_next (show execTbUnlocked b s = lift _ s from rfl) (if_neg hb) hpending, htb, fun h => absurd h hb,
        fun _ n he hs => State.eachEnabled_suspends (s := s.setBound b) he hs,
        fun n h => State.eachEnabled_spares (s := s.setBound b) h, hmem, hcores⟩
  · have hrole : exec .tbRoleTimeout s = .next (after State.takeRole s) := by
      refine exec_after (show execTbRoleTimeout s = lift _ s from rfl) (if_pos ?_)
      simp [hf, hr, hu]
    refine ⟨hrole, fun hroot => ⟨_, hrole, ?_⟩⟩
    have htake : s.takeRole = s.becomeRoot := if_pos hroot
    rw [after, htake]
    exact ⟨rfl, rfl, rfl, rfl⟩

/-- Settles O9: the inputs of the time base, and its exchanges. -/
theorem timeBaseCommands : Obligations.TimeBaseCommands := ⟨timeBaseInputs, timeExchanges⟩

end Sys2Proof.Machine
end

section
/-! # Packets and exchange segments that come in (R401 to R414)

Support for the statements about stamps: what the count of the bytes that come in leaves, what a stamp decides, and what passing
on leaves. -/

namespace Sys2Proof.Machine

open Sys2Proof.Claims

/-! ## The bytes that come in (R65, R69) -/

theorem onlyCounted_refl (s : State) : OnlyCounted s s := ⟨rfl, fun _ => rfl⟩

theorem onlyCounted_trans {s t u : State} (h : OnlyCounted s t) (h' : OnlyCounted t u) : OnlyCounted s u := by
  obtain ⟨hframe, hdom⟩ := h
  obtain ⟨hframe', hdom'⟩ := h'
  refine ⟨?_, fun m => ?_⟩
  · conv_lhs => rw [hframe', hframe]
  · rw [hdom' m, hdom m]

theorem countPort_onlyCounted (s : State) (pk : Packet) (p : Port) (inward : Bool) (k : Nat) :
    OnlyCounted s (s.countPort pk p inward k) := by
  unfold State.countPort
  dsimp only
  split
  · refine ⟨rfl, fun m => ?_⟩
    by_cases h : pk.part = m
    · subst h
      rw [State.dom_updDom_self]
    · rw [State.updDom_eq, State.dom_setDom_ne _ h]
  · exact onlyCounted_refl s

theorem countArrival_onlyCounted (s : State) (op : Nat) (pk : Packet) : OnlyCounted s (s.countArrival op pk) := by
  unfold State.countArrival
  split
  · exact countPort_onlyCounted _ _ _ _ _
  · exact onlyCounted_refl s

/-- The bytes of an exchange segment that comes in are counted packet by packet. -/
def State.countSegment (s : State) (n : Part) (kind : ExKind) (g : ExSegment) : State :=
  (s.exchangePackets n kind g).foldl (fun t pk => t.countArrival 0x10 pk) s

theorem countSegment_onlyCounted (s : State) (n : Part) (kind : ExKind) (g : ExSegment) :
    OnlyCounted s (s.countSegment n kind g) := by
  unfold State.countSegment
  generalize s.exchangePackets n kind g = l
  induction l generalizing s with
  | nil => exact onlyCounted_refl s
  | cons pk l ih => exact onlyCounted_trans (countArrival_onlyCounted s _ pk) (ih _)

section
variable {s u : State} (h : OnlyCounted s u)
include h

theorem onlyCounted_pending : u.pending = s.pending := by rw [h.1]

theorem onlyCounted_fab : u.fab = s.fab := by rw [h.1]

theorem onlyCounted_self : u.self = s.self := by rw [h.1]; rfl

theorem onlyCounted_treePorts (n : Part) (src : ModIx) (l : List ModIx) (cls : Nat) :
    u.treePorts n src l cls = s.treePorts n src l cls := by rw [h.1]; rfl

/-- What a stamp decides does not rest on the bytes that came in. -/
theorem onlyCounted_stamped (n : Part) (tick run : Nat) : u.stamped n tick run = s.stamped n tick run := by
  unfold State.stamped
  rw [h.2 n]

end

/-! ## What a stamp decides (R407) -/

section
variable {s : State} {n : Part} {tick : Nat} (hlast : ∀ c, (s.dom n).lastTick = some c → c < tick)
include hlast

theorem State.stamped_open (ht : (s.dom n).tick ≤ tick) :
    ¬((s.dom n).lastTick.any (fun c => decide (tick ≤ c)) || decide (tick < (s.dom n).tick)) = true := by
  rw [Bool.or_eq_true, decide_eq_true_eq, Option.any_eq_true, not_or]
  exact ⟨fun ⟨c, hc, h⟩ => absurd (hlast c hc) (Nat.not_lt.2 (of_decide_eq_true h)), Nat.not_lt.2 ht⟩

/-- A stamp whose tick is over, or the tick of a suspended domain, discards. -/
theorem State.stamped_discard {run : Nat} (h : tick < (s.dom n).tick ∨ (tick = (s.dom n).tick ∧ (s.dom n).state = .suspended)) :
    s.stamped n tick run = .discard := by
  unfold State.stamped
  rcases h with h | ⟨rfl, h⟩
  · exact if_pos (by simp [h])
  · refine (if_neg (State.stamped_open hlast (Nat.le_refl _))).trans ((if_neg (Nat.lt_irrefl _)).trans ?_)
    rw [h]

/-- A stamp whose tick or run is to come, or of a domain that does not run yet, holds. -/
theorem State.stamped_hold {run : Nat} (h : (s.dom n).tick < tick ∨ (tick = (s.dom n).tick ∧ ((s.dom n).state = .idle
      ∨ (s.dom n).state = .starting ∨ (((s.dom n).state = .running ∨ (s.dom n).state = .rewinding) ∧ (s.dom n).run < run)))) :
    s.stamped n tick run = .hold := by
  unfold State.stamped
  rcases h with h | ⟨rfl, h⟩
  · exact (if_neg (State.stamped_open hlast h.le)).trans (if_pos h)
  · refine (if_neg (State.stamped_open hlast (Nat.le_refl _))).trans ((if_neg (Nat.lt_irrefl _)).trans ?_)
    rcases h with h | h | ⟨h | h, hrun⟩
    · rw [h]
    · rw [h]
    · rw [h]
      exact (if_neg (by omega)).trans (if_neg (by omega))
    · rw [h]
      exact (if_neg (by omega)).trans (if_neg (by omega))

/-- A stamp of the running tick decides by its run. -/
theorem State.stamped_now {run : Nat} (ht : tick = (s.dom n).tick)
    (h : (s.dom n).state = .running ∨ (s.dom n).state = .rewinding) :
    (run < (s.dom n).run → s.stamped n tick run = .stale) ∧ (run = (s.dom n).run → s.stamped n tick run = .take) := by
  have heq : s.stamped n tick run = if run < (s.dom n).run then .stale else if run = (s.dom n).run then .take else .hold := by
    unfold State.stamped
    refine (if_neg (State.stamped_open hlast ht.ge)).trans ((if_neg (by omega)).trans ?_)
    rcases h with h | h <;> rw [h]
  rw [heq]
  exact ⟨fun h => if_pos h, fun h => (if_neg (by omega)).trans (if_pos h)⟩

end

/-- A command whose operation is another one on the state with the arrival counted. -/
theorem exec_after_counted {i : Instr} {f g : State → State} {s u : State} (hx : exec i s = lift f s) (hu : OnlyCounted s u)
    (h : f s = g u) : exec i s = .next (after g u) := by
  rw [hx, lift_eq, h, after, onlyCounted_pending hu]

/-! ## Packets (R401, R405, R406, R407, R414) -/

/-- A packet command is a packet that comes in. -/
theorem exec_packet {i : Instr} {op : PacketOp} {pk : Packet} (hi : packetOf i = some (op, pk)) (s : State) :
    exec i s = lift (fun t => t.packetIn op pk) s := by
  cases i <;> cases hi <;> rfl

theorem State.badPacket_counts (s : State) : s.badPacket.reg .fabBadPackets = s.reg .fabBadPackets + 1
    ∧ s.badPacket.reg .fabCode = 0x0808 ∧ s.badPacket.mem = s.mem ∧ s.badPacket.cores = s.cores ∧ s.badPacket.doms = s.doms
    ∧ s.badPacket.pending = s.pending := by
  have h := mgmtReport_eventOnly (s.bump .fabBadPackets 0 0 1) .fabCode 0x0808 []
  refine ⟨?_, ?_, h.mem, h.cores, h.doms, h.pending⟩
  · refine (h.reg (by decide) _ _).trans ((State.reg_setReg_ne _ (by decide) _ _ _ _ _).trans ?_)
    exact State.reg_setReg_self _ _ _ _ _
  · exact (h.reg (by decide) _ _).trans (State.reg_setReg_self _ _ _ _ _)

/-- The bytes of a packet without a stamp are no segment's. -/
theorem State.countArrival_unstamped (s : State) (op : Nat) {pk : Packet} (h : pk.stamped = false) :
    s.countArrival op pk = s := by
  unfold State.countArrival State.countPort
  split
  · exact if_neg (by simp [h])
  · rfl

section
variable {s : State} {op : PacketOp} {pk : Packet} (hgood : pkBad op pk = false)
include hgood

/-- A packet for another module goes on (R401). -/
theorem State.packetIn_other (hmc : pk.mc = false) (hdst : pk.dstModule ≠ s.self) :
    s.packetIn op pk = (s.countArrival op.code pk).sendPacket op pk := by
  refine (if_neg (by simp [hgood])).trans ((if_neg (by simp [hmc])).trans (if_pos ?_))
  rwa [onlyCounted_self (countArrival_onlyCounted s op.code pk)]

/-- A packet for this module is handled under its stamp (R407). -/
theorem State.packetIn_here (hmc : pk.mc = false) (hdst : pk.dstModule = s.self) :
    s.packetIn op pk = (s.countArrival op.code pk).underStamp op pk := by
  refine (if_neg (by simp [hgood])).trans ((if_neg (by simp [hmc])).trans (if_neg ?_))
  rwa [onlyCounted_self (countArrival_onlyCounted s op.code pk), not_not]

/-- A multicast packet goes on along its tree, and is handled here where its mask names this module (R414). -/
theorem State.packetIn_multicast (hmc : pk.mc = true) :
    let u := s.countArrival op.code pk
    let v := if s.treePorts pk.part pk.srcModule (maskMods pk.mask) (packetClass op true) = [] then u else u.sendPacket op pk
    s.packetIn op pk = if pk.mask.getLsbD s.self.val then v.underStamp op pk else v := by
  have hu := countArrival_onlyCounted s op.code pk
  refine (if_neg (by simp [hgood])).trans ((if_pos hmc).trans ?_)
  dsimp only
  rw [onlyCounted_self hu, onlyCounted_treePorts hu]
  split <;> simp [*]

end

theorem State.underStamp_unstamped {s : State} {op : PacketOp} {pk : Packet} (h : pk.stamped = false) :
    s.underStamp op pk = s.effect op pk := if_pos (by simp [h])

/-- What a decision of a stamp does with a packet (R407). -/
def State.onStamp (s : State) (op : PacketOp) (pk : Packet) : Stamped → State
  | .discard => s
  | .stale => s.bump .fabDiscards 0 0 1
  | .take => s.effect op pk
  | .hold => { s with fab := { s.fab with held := s.fab.held ++ [(op, pk)] } }

theorem State.underStamp_stamped {s : State} {op : PacketOp} {pk : Packet} {d : Stamped} (h : pk.stamped = true)
    (hd : s.stamped pk.part pk.tick.toNat pk.run = d) : s.underStamp op pk = s.onStamp op pk d := by
  subst hd
  refine (if_neg (by simp [h])).trans ?_
  generalize s.stamped pk.part pk.tick.toNat pk.run = d
  cases d <;> rfl

/-- Settles O35: a packet is judged by its reserved fields, its addressees and its stamp, in this order. -/
theorem packetRules : Obligations.PacketRules := by
  intro i op pk s hi
  have hx := exec_packet hi s
  have hu := countArrival_onlyCounted s op.code pk
  have hpending := onlyCounted_pending hu
  refine ⟨fun hbad => ?_, fun hgood hmc => ⟨fun hdst => ?_, fun hdst => ⟨fun hst => ?_, fun hst hlast => ?_⟩⟩,
    fun hgood hmc => ?_⟩
  · obtain ⟨hcount, hcode, hmem, hcores, hdoms, hbad'⟩ := s.badPacket_counts
    exact ⟨s.badPacket, exec_next hx (if_pos hbad) hbad', hcount, hcode, hmem, hcores, hdoms⟩
  · exact ⟨_, hu, exec_after_counted hx hu (State.packetIn_other hgood hmc hdst)⟩
  · refine exec_after hx ((State.packetIn_here hgood hmc hdst).trans ?_)
    rw [State.countArrival_unstamped s _ hst, State.underStamp_unstamped hst]
  · have hin {d : Stamped} (h : s.stamped pk.part pk.tick.toNat pk.run = d) :
        s.packetIn op pk = (s.countArrival op.code pk).onStamp op pk d :=
      (State.packetIn_here hgood hmc hdst).trans (State.underStamp_stamped hst ((onlyCounted_stamped hu _ _ _).trans h))
    refine ⟨fun h => ⟨_, hu, exec_next hx (hin (State.stamped_discard hlast h)) hpending⟩, fun h => ⟨_, hu, ?_⟩, fun ht hrun =>
      ⟨fun h => ⟨_, (s.countArrival op.code pk).bump .fabDiscards 0 0 1, hu, ?_, ?_, rfl⟩, fun h => ⟨_, hu, ?_⟩⟩⟩
    · rw [← onlyCounted_fab hu]
      exact exec_next hx (hin (State.stamped_hold hlast h)) hpending
    · exact exec_next hx (hin ((State.stamped_now hlast ht hrun).1 h)) hpending
    · refine (State.reg_setReg_self _ _ _ _ _).trans ?_
      rw [hu.1]
      rfl
    · exact exec_after_counted hx hu (hin ((State.stamped_now hlast ht hrun).2 h))
  · exact ⟨_, hu, exec_after hx (State.packetIn_multicast hgood hmc)⟩

/-! ## Passing on (R266, R401, R414) -/

/-- What leaves over the fabric leaves: the ports, what was sent, the bytes counted to the segments, the count of flits. -/
structure WireOnly (s t : State) : Prop where
  frame : t = { s with tx := t.tx, regs := t.regs, doms := t.doms, fab := { s.fab with ports := t.fab.ports } }
  regs : ∀ k : RegKey, k.reg ≠ .fabTxFlits → Assoc.find k t.regs = Assoc.find k s.regs
  sent : ∀ m ∈ s.tx, m ∈ t.tx
  dom : ∀ m, t.dom m = { s.dom m with fabBy := (t.dom m).fabBy }

namespace WireOnly

theorem ofLink {s t : State} (h : LinkOnly s t) : WireOnly s t := by
  refine ⟨?_, h.regs, h.sent, fun m => ?_⟩
  · conv_lhs => rw [h.frame]
    rw [h.doms]
  · unfold State.dom
    rw [h.doms]

theorem ofCounted {s t : State} (h : OnlyCounted s t) : WireOnly s t := by
  refine ⟨?_, fun k _ => ?_, fun m hm => ?_, h.2⟩ <;> rw [h.1]
  exact hm

theorem refl (s : State) : WireOnly s s := ofLink (LinkOnly.refl s)

theorem trans {s t u : State} (h : WireOnly s t) (h' : WireOnly t u) : WireOnly s u := by
  refine ⟨?_, fun k hk => (h'.regs k hk).trans (h.regs k hk), fun m hm => h'.sent m (h.sent m hm), fun m => ?_⟩
  · conv_lhs => rw [h'.frame, h.frame]
  · rw [h'.dom m, h.dom m]

variable {s t : State} (h : WireOnly s t)
include h

theorem pending : t.pending = s.pending := by rw [h.frame]
theorem mem : t.mem = s.mem := by rw [h.frame]
theorem cores : t.cores = s.cores := by rw [h.frame]
theorem ex : t.ex = s.ex := by rw [h.frame]
theorem heldX : t.fab.heldX = s.fab.heldX := by rw [h.frame]
theorem reg {r : Reg} (hr : r ≠ .fabTxFlits) (i j : Nat) : t.reg r i j = s.reg r i j := by
  unfold State.reg State.raw Assoc.getD
  rw [h.regs _ (by rwa [rk_reg])]

end WireOnly

theorem foldl_wireOnly {α : Type} {f : State → α → State} (h : ∀ t x, WireOnly t (f t x)) (l : List α) (s : State) :
    WireOnly s (l.foldl f s) := by
  induction l generalizing s with
  | nil => exact WireOnly.refl s
  | cons x l ih => exact (h s x).trans (ih _)

/-- What leaves by one port is counted to its segment, and sent. -/
theorem pushCounted_wireOnly (s : State) (pk : Packet) (p : Port) (vc : BitVec 4) (bs : List Byte) :
    WireOnly s ((s.countPort pk p false bs.length).pushBytes p vc bs) :=
  (WireOnly.ofCounted (countPort_onlyCounted _ _ _ _ _)).trans (WireOnly.ofLink (pushBytes_linkOnly _ _ _ _))

theorem onWire_wireOnly (s : State) (op cls : Nat) (pk : Packet) : WireOnly s (s.onWire op cls pk) := by
  unfold State.onWire
  dsimp only
  split
  · exact foldl_wireOnly (fun t (h : Port × BitVec 4) => pushCounted_wireOnly t pk h.1 h.2 _) _ _
  · split
    · exact pushCounted_wireOnly _ _ _ _ _
    · exact WireOnly.refl s

/-- An exchange segment that goes on is sent. -/
theorem sendExchange_wireOnly (s : State) (n : Part) (kind : ExKind) (g : ExSegment) :
    WireOnly (s.send (.exchange kind g)) (s.sendExchange n kind g) :=
  foldl_wireOnly (fun t pk => onWire_wireOnly t _ _ pk) _ _

/-! ## Exchange segments (R251, R254, R255, R262, R407, R414) -/

/-- An exchange segment that comes in arrives under its stamp. -/
theorem exec_exchange {i : Instr} {n : Part} {kind : ExKind} {g : ExSegment} (hi : exchangeOf i = some (n, kind, g))
    (s : State) :
    exec i s = lift (fun t => t.exArrive n kind g) s := by
  cases i <;> cases hi <;> rfl

/-- What a decision of a stamp does with an exchange segment (R407). -/
def State.onStampX (s : State) (n : Part) (kind : ExKind) (g : ExSegment) (here : ModIx) : Stamped → State
  | .discard => s
  | .stale => s.bump .fabDiscards 0 0 1
  | .hold => { s with fab := { s.fab with heldX := s.fab.heldX ++ [(n, kind, g)] } }
  | .take => (State.exSend n 4 s kind { g with dstModule := here }).exRun n

/-- Whether a segment goes on to other modules, and whether it is for this one (R266, R414). -/
def State.goesOn (s : State) (n : Part) (g : ExSegment) : Bool :=
  if g.mask = 0 then decide (g.dstModule ≠ s.self) else !(s.treePorts n g.srcModule (maskMods g.mask) 3).isEmpty

@[inherit_doc State.goesOn]
def State.endsHere (s : State) (g : ExSegment) : Bool :=
  if g.mask = 0 then decide (g.dstModule = s.self) else g.mask.getLsbD s.self.val

/-- What a segment does that comes in, once its bytes are counted. -/
def State.segmentIn (s u : State) (n : Part) (kind : ExKind) (g : ExSegment) : State :=
  let v := if s.goesOn n g then u.sendExchange n kind g else u
  if !s.endsHere g then v else v.onStampX n kind g s.self (s.stamped n g.tick.toNat g.run)

theorem State.exArrive_eq (s : State) (n : Part) (kind : ExKind) (g : ExSegment) :
    s.exArrive n kind g = s.segmentIn (s.countSegment n kind g) n kind g := by
  show (if !s.endsHere g then _ else _) = (if !s.endsHere g then _ else _)
  dsimp only
  split
  · rfl
  · generalize s.stamped n g.tick.toNat g.run = d
    cases d <;> rfl

section
variable {s u : State} {n : Part} {kind : ExKind} {g : ExSegment}

/-- A segment that ends here does what its stamp decides. -/
theorem State.segmentIn_here {d : Stamped} (h : EndsHere s n g) (hd : s.stamped n g.tick.toNat g.run = d) :
    s.segmentIn u n kind g = u.onStampX n kind g s.self d := by
  have hboth : s.goesOn n g = false ∧ s.endsHere g = true := by
    rcases h with ⟨hm, hdst⟩ | ⟨hm, hmask, htree⟩
    · exact ⟨(if_pos hm).trans (by simp [hdst]), (if_pos hm).trans (by simp [hdst])⟩
    · exact ⟨(if_neg hm).trans (by simp [htree]), (if_neg hm).trans hmask⟩
  unfold State.segmentIn
  rw [hboth.1, hboth.2, hd]
  rfl

/-- A segment that is for other modules only is passed on. -/
theorem State.segmentIn_on (h : (g.mask = 0 ∧ g.dstModule ≠ s.self)
      ∨ (g.mask.getLsbD s.self.val = false ∧ s.treePorts n g.srcModule (maskMods g.mask) 3 ≠ [] ∧ g.mask ≠ 0)) :
    s.segmentIn u n kind g = u.sendExchange n kind g := by
  have hboth : s.goesOn n g = true ∧ s.endsHere g = false := by
    rcases h with ⟨hm, hdst⟩ | ⟨hmask, htree, hm⟩
    · exact ⟨(if_pos hm).trans (by simp [hdst]), (if_pos hm).trans (by simp [hdst])⟩
    · exact ⟨(if_neg hm).trans (by simp [htree]), (if_neg hm).trans hmask⟩
  unfold State.segmentIn
  rw [hboth.1, hboth.2]
  rfl

end

/-- A segment comes in: its bytes are counted, and it is taken or passed on. -/
theorem exec_exchange_counted {i : Instr} {n : Part} {kind : ExKind} {g : ExSegment} (hi : exchangeOf i = some (n, kind, g))
    (s : State) : ∃ u, OnlyCounted s u ∧ exec i s = lift (fun _ => s.segmentIn u n kind g) s := by
  refine ⟨_, countSegment_onlyCounted s n kind g, (exec_exchange hi s).trans (lift_congr ?_)⟩
  exact State.exArrive_eq s n kind g

theorem exchangeStamps : ExchangeStamps := by
  intro i n kind g s hi
  obtain ⟨u, hu, hx⟩ := exec_exchange_counted hi s
  have hpending := onlyCounted_pending hu
  constructor
  · intro hend hlast
    have hin {d : Stamped} (h : s.stamped n g.tick.toNat g.run = d) :
        s.segmentIn u n kind g = u.onStampX n kind g s.self d := State.segmentIn_here hend h
    refine ⟨fun h => ⟨u, hu, ?_⟩, fun h => ⟨u, hu, ?_⟩, fun ht hrun => ⟨fun h =>
      ⟨u, u.bump .fabDiscards 0 0 1, hu, ?_, ?_, rfl⟩, fun h => ⟨u, hu, ?_⟩⟩⟩
    · rw [← onlyCounted_fab hu]
      exact exec_next hx (hin (State.stamped_hold hlast h)) hpending
    · exact exec_next hx (hin (State.stamped_discard hlast h)) hpending
    · exact exec_next hx (hin ((State.stamped_now hlast ht hrun).1 h)) hpending
    · refine (State.reg_setReg_self _ _ _ _ _).trans ?_
      rw [hu.1]
      rfl
    · exact exec_after_counted hx hu (hin ((State.stamped_now hlast ht hrun).2 h))
  · intro h
    have hsend := sendExchange_wireOnly u n kind g
    have hw := ((WireOnly.ofCounted hu).trans (WireOnly.ofLink (LinkOnly.send _ _))).trans hsend
    exact ⟨_, exec_next hx (State.segmentIn_on h) hw.pending, hsend.sent _ List.mem_cons_self, hw.heldX, hw.ex,
      hw.mem, hw.cores⟩

/-! ## The limits of the exchange (R239, R246, R247, R267, R270) -/

/-- A core of a running segment stands in the table of cores. -/
theorem State.mem_cores_of_running {s : State} {c : CoreId} (h : (s.core c).running = true) : (c, s.core c) ∈ s.cores := by
  unfold State.core Assoc.getD at h ⊢
  cases hc : Assoc.find c s.cores with
  | none => rw [hc] at h; exact absurd h (by decide)
  | some x => exact Assoc.mem_of_find hc

section
variable {code : Code} (hmx : code.toNat / 256 ≠ 2)
include hmx

/-- A fault of a core outside the partitions, or of a segment that was killed, changes nothing more. -/
theorem State.kill_cases (s : State) (c : CoreId) :
    (s.kill c code = s ∧ ((s.partOf c).isSome = true → (s.core c).killed.isSome = true)) ∨ ∃ n, RunsIn s c n := by
  cases hp : s.partOf c with
  | none => exact .inl ⟨by unfold State.kill; rw [hp], fun h => absurd h (by decide)⟩
  | some n =>
    cases hk : (s.core c).killed with
    | none => exact .inr ⟨n, hp, hk⟩
    | some e =>
      refine .inl ⟨?_, fun _ => rfl⟩
      unfold State.kill
      rw [hp]
      simp only [hk, if_neg hmx, Option.isSome_some, if_true]

variable (hu : ∀ n, Unreported n code)
include hu

/-- What a fault leaves of all but cores, domains and LX.FAULT. -/
theorem State.kill_keeps {β : Type} {g : State → β} (c : CoreId) (hcore : ∀ t x, g (State.setCore t c x) = g t)
    (hreg : ∀ t i v, g (State.setReg t .lxFault i 0 v) = g t) (hdom : ∀ t n d, g (State.setDom t n d) = g t) (s : State) :
    g (s.kill c code) = g s := by
  rcases State.kill_cases hmx s c with ⟨h, _⟩ | ⟨n, h⟩
  · rw [h]
  · rw [State.kill_eq h (hu n) hmx]
    exact (hdom _ _ _).trans ((hreg _ _ _).trans (hcore _ _))

/-- A fault moves no core between partitions. -/
theorem State.kill_partOf (s : State) (c d : CoreId) : (s.kill c code).partOf d = s.partOf d :=
  State.kill_keeps hmx hu (g := fun t => t.partOf d) c (fun _ _ => rfl) (fun _ _ _ => State.partOf_setReg _ (by decide) _ _ _ _)
    (fun _ _ _ => rfl) s

/-- A fault of a core of a partition leaves its segment killed. -/
theorem State.kill_kills {s : State} {c : CoreId} (hc : (s.partOf c).isSome = true) :
    ((s.kill c code).core c).killed.isSome = true := by
  rcases State.kill_cases hmx s c with ⟨h, hk⟩ | ⟨n, h⟩
  · rw [h]
    exact hk hc
  · rw [State.kill_core h (hu n) hmx]
    rfl

/-- A fault leaves the other cores. -/
theorem State.kill_core_ne (s : State) {c d : CoreId} (hne : c ≠ d) : (s.kill c code).core d = s.core d := by
  rcases State.kill_cases hmx s c with ⟨h, _⟩ | ⟨n, h⟩
  · rw [h]
  · rw [State.kill_eq h (hu n) hmx]
    exact State.core_setCore_ne s hne _

/-- The faults of several cores leave each of them killed. -/
theorem State.foldl_kill_kills {s : State} {l : List CoreId} {c : CoreId} (hc : (s.partOf c).isSome = true)
    (h : c ∈ l ∨ (s.core c).killed.isSome = true) : ((l.foldl (fun t d => t.kill d code) s).core c).killed.isSome = true := by
  induction l generalizing s with
  | nil => simpa using h
  | cons d l ih =>
    refine ih (by rwa [State.kill_partOf hmx hu]) ?_
    by_cases hd : d = c
    · subst hd
      exact .inr (State.kill_kills hmx hu hc)
    · rw [State.kill_core_ne hmx hu s hd]
      exact h.imp_left (fun h => (List.mem_cons.1 h).resolve_left (Ne.symm hd))

end

/-- A fault of a die's EX keeps its code with segment and tick, and stops the cores of the partition on the die. -/
theorem State.exFault_stops {s : State} {die : Fin 8} {n : Part} {seg : Nat} {code : Code} (hex : code.toNat / 256 = 4)
    (hu : ∀ n, Unreported n code) :
    (s.exFault die n seg code).reg .exFault die.val = faultWord code seg (s.dom n).tick
      ∧ (s.exFault die n seg code).mem = s.mem ∧ (s.exFault die n seg code).ex = s.ex
      ∧ (s.exFault die n seg code).pending = s.pending
      ∧ ∀ c, c.die = die → (s.core c).running = true → s.partOf c = some n →
          ((s.exFault die n seg code).core c).killed.isSome = true := by
  have hmx : code.toNat / 256 ≠ 2 := by omega
  let s1 := s.setReg .exFault die.val 0 (faultWord code seg (s.dom n).tick)
  let mine := (s1.cores.filter (fun p => decide (p.1.die = die) && p.2.running && decide (s1.partOf p.1 = some n))).map (·.1)
  have hfault : s.exFault die n seg code = if mine.isEmpty then s1.segError n seg code none
      else mine.foldl (fun t c => t.kill c code) s1 := by
    unfold State.exFault State.exCode
    rw [if_pos hex]
  have hmem {c : CoreId} (hdie : c.die = die) (hrun : (s.core c).running = true) (hpart : s.partOf c = some n) : c ∈ mine := by
    refine List.mem_map.2 ⟨(c, s.core c), List.mem_filter.2 ⟨State.mem_cores_of_running hrun, ?_⟩, rfl⟩
    have hpart1 : s1.partOf c = some n := (State.partOf_setReg s (by decide) _ _ _ c).trans hpart
    simp [hdie, hrun, hpart1]
  have hreg : s1.reg .exFault die.val = faultWord code seg (s.dom n).tick := State.reg_setReg_self _ _ _ _ _
  rw [hfault]
  split
  next h =>
    refine ⟨hreg, rfl, rfl, rfl, fun c hdie hrun hpart => ?_⟩
    have := hmem hdie hrun hpart
    rw [List.isEmpty_iff.1 h] at this
    cases this
  next =>
    have hkeep {β : Type} (g : State → β) (hcore : ∀ t c x, g (State.setCore t c x) = g t)
        (hlx : ∀ t i v, g (State.setReg t .lxFault i 0 v) = g t) (hdom : ∀ t n d, g (State.setDom t n d) = g t) :
        g (mine.foldl (fun t c => t.kill c code) s1) = g s1 :=
      foldl_keeps g (fun t c => State.kill_keeps hmx hu c (fun t x => hcore t c x) hlx hdom t) _ _
    refine ⟨(hkeep (fun t => t.reg .exFault die.val) (fun _ _ _ => rfl)
        (fun _ _ _ => State.reg_setReg_ne _ (by decide) _ _ _ _ _) (fun _ _ _ => rfl)).trans hreg,
      hkeep State.mem (fun _ _ _ => rfl) (fun _ _ _ => rfl) (fun _ _ _ => rfl),
      hkeep State.ex (fun _ _ _ => rfl) (fun _ _ _ => rfl) (fun _ _ _ => rfl),
      hkeep State.pending (fun _ _ _ => rfl) (fun _ _ _ => rfl) (fun _ _ _ => rfl), fun c hdie hrun hpart => ?_⟩
    refine State.foldl_kill_kills hmx hu ?_ (.inl (hmem hdie hrun hpart))
    rw [show s1.partOf c = s.partOf c from State.partOf_setReg s (by decide) _ _ _ c, hpart]
    rfl

/-- A layer that waits for counts or for data to the limit is a fault of the die's EX (R267). -/
theorem exchangeTimeouts : ExchangeTimeouts := by
  intro die n s x hopen
  constructor
  · rintro hcounted ⟨m, hm, hother⟩
    obtain ⟨hreg, hmem, hex, hpending, hkill⟩ := State.exFault_stops (s := s) (die := die) (n := n) (seg := x.seg)
      (code := 0x0404) (by decide) (fun _ _ => rfl)
    refine ⟨s.exFault die n x.seg 0x0404, exec_next (show execExCountTimeout die n s = lift _ s from rfl) ?_ hpending,
      hreg, hmem, hex, hkill⟩
    dsimp only
    rw [hopen]
    refine if_pos ?_
    have hothers : x.counts.any (fun p => decide (p.1 ≠ s.self)) = true := List.any_eq_true.2 ⟨m, hm, decide_eq_true hother⟩
    rw [hcounted, hothers]
    rfl
  · rintro hcounted ⟨e, he, hland⟩
    obtain ⟨hreg, hmem, hex, hpending, hkill⟩ := State.exFault_stops (s := s) (die := die) (n := n) (seg := x.seg)
      (code := 0x0405) (by decide) (fun _ _ => rfl)
    refine ⟨s.exFault die n x.seg 0x0405, exec_next (show execExDataTimeout die n s = lift _ s from rfl) ?_ hpending,
      hreg, hmem, hex, hkill⟩
    dsimp only
    rw [hopen]
    refine if_pos ?_
    have hships : (x.landsOn (s.self, die)).any (fun e => !x.landed.contains e) = true :=
      List.any_eq_true.2 ⟨e, he, by simpa using hland⟩
    simp only [hcounted, hships, Bool.or_true, Bool.true_or, Bool.and_true]

/-- Settles O23: exchange segments under their stamps, and the limits of the exchange. -/
theorem exchanges : Obligations.Exchanges := ⟨exchangeStamps, exchangeTimeouts⟩

end Sys2Proof.Machine
end

section
/-! # What host commands do with memory, registers, the Pannier, channels and the map (R331, R390, R447, R448, R452)

Support: an accepted command does what its own rule says; what a read and a write at the core store count and change. -/

namespace Sys2Proof.Machine

open Sys2Proof.Claims

/-! ## Accepted commands -/

/-- What an accepted command does, by the kind of its session. -/
theorem effect_of_startCmd {i : Instr} {cmd : Code} {f : Frame} {o : SessOwner} {kind : SessKind} {s : State}
    {g : State → SessOwner → State} {run : State → State} (hx : exec i s = lift (fun t => t.startCmd cmd f kind g) s)
    (h : g (started s cmd f o) o = run (started s cmd f o)) : Effect i cmd f o kind s run := by
  intro hacc
  rw [hx, lift_eq, State.startCmd_accepted hacc, h]
  rfl

/-- What an accepted partition command does. -/
theorem effect_of_partCmd {i : Instr} {cmd : Code} {f : Frame} {n : Part} {s : State} {g : State → Part → State}
    {run : State → State} (hx : exec i s = lift (fun t => t.partCmd cmd f g) s)
    (h : g (started s cmd f (.part n)) n = run (started s cmd f (.part n))) : Effect i cmd f (.part n) .part s run :=
  effect_of_startCmd (g := fun t o => match o with
    | .part n => g t n
    | _ => t) hx h

/-! ## Host accesses (R58, R447) -/

theorem State.readMem_zero (s : State) (acc : Accessor) (a : Nat) : s.readMem acc a 0 = (s, .ok []) := if_pos rfl

/-- A read whose place the checks refuse answers their code. -/
theorem State.readMem_refused {s : State} {acc : Accessor} {a len : Nat} {e : Code} (hlen : 0 < len)
    (hp : s.place acc a len false = .error e) : s.readMem acc a len = (s.accessFails a e, .error e) := by
  unfold State.readMem State.startRead
  rw [if_neg (by omega), hp]
  rfl

/-- A read of a poisoned unit answers 0x0603 (R315). -/
theorem State.readMem_poisoned {s : State} {acc : Accessor} {a len : Nat} {p : Place} (hlen : 0 < len)
    (hp : s.place acc a len false = .ok p) (h : s.poisonedIn p.phys len = true) :
    s.readMem acc a len = (s, .error 0x0603) := by
  unfold State.readMem State.startRead
  rw [if_neg (by omega), hp]
  simp only [h, if_true]
  rfl

/-- Where the tick changed nothing, what memory holds is committed. -/
theorem State.committedBytes_same {s : State} {n : Part} (h : (s.dom n).before = []) (p : Place) (bs : List Byte) :
    s.committedBytes n p bs = bs := by
  unfold State.committedBytes
  rw [h]
  rfl

theorem State.committedBytes_nil (s : State) (n : Part) (p : Place) : s.committedBytes n p [] = [] := by
  unfold State.committedBytes
  split <;> rfl

/-- A write that passes its checks to a clean range of the core store, by what is no work of a tick. -/
theorem State.writeMem_host {s : State} {n : Part} {a : Nat} {bs : List Byte} {p : Place} (hbs : bs ≠ [])
    (hp : s.place (hostAcc n) a bs.length true = .ok p) (hs : p.space = .core) (hc : Clean s p.phys bs.length) :
    s.writeMem (hostAcc n) none a bs = (s.putBytes p bs, .ok ()) := by
  unfold State.writeMem
  rw [if_neg (by simpa using hbs), hp]
  simp only [narrowPoison_of_clean hc, State.countWrite_core hs, Bool.false_eq_true, if_false]

section
variable {f : Frame} {n : Part} {s : State} {run : State → State}

/-- What MEM_READ does with a body that is well formed, by what the read of its range gives (R447). -/
theorem effect_memRead (hb : f.body.length = 16) (hlen : fieldNat f.body 8 8 ≤ 1048576) (ha : fieldNat f.body 0 8 < 2 ^ 50)
    (h : let t := started s 0x0050 f (.part n)
      let r := t.readMem (hostAcc n) (fieldNat f.body 0 8) (fieldNat f.body 8 8)
      (∃ e, r.2 = .error e ∧ r.1.complete 0x0050 f e = run t)
        ∨ (∃ bs p, r.2 = .ok bs ∧ t.place (hostAcc n) (fieldNat f.body 0 8) (fieldNat f.body 8 8) false = .ok p
            ∧ r.1.complete 0x0050 f 0 (t.committedBytes n p bs) = run t)
        ∨ (∃ bs e, r.2 = .ok bs ∧ t.place (hostAcc n) (fieldNat f.body 0 8) (fieldNat f.body 8 8) false = .error e
            ∧ r.1.complete 0x0050 f 0 bs = run t)) :
    Effect (.memRead f) 0x0050 f (.part n) .part s run := by
  refine effect_of_partCmd (show execMemRead f s = lift (fun t => t.partCmd 0x0050 f _) s from rfl)
    ((if_neg (by omega)).trans ((if_neg (by omega)).trans ?_))
  dsimp only at h ⊢
  rcases h with ⟨e, h1, h2⟩ | ⟨bs, p, h1, hp, h2⟩ | ⟨bs, e, h1, hp, h2⟩
  · rw [h1]; exact h2
  · rw [h1, hp]; exact h2
  · rw [h1, hp]; exact h2

end

/-- MEM_READ (R58, R447). -/
theorem memRead_answers (f : Frame) (n : Part) (s : State) :
    let a := fieldNat f.body 0 8
    let len := fieldNat f.body 8 8
    (f.body.length ≠ 16 ∨ 1048576 < len → Answers (.memRead f) 0x0050 f (.part n) .part s 0x0901)
     ∧ (f.body.length = 16 → len ≤ 1048576 →
        (2 ^ 50 ≤ a → Answers (.memRead f) 0x0050 f (.part n) .part s 0x0601)
        ∧ (a < 2 ^ 50 →
          (len = 0 → Answers (.memRead f) 0x0050 f (.part n) .part s 0)
          ∧ ∀ e, 0 < len → s.place (hostAcc n) a len false = .error e →
              Answers (.memRead f) 0x0050 f (.part n) .part s e [] (fun t => t.accessFails a e))
        ∧ ∀ p, a < 2 ^ 50 → 0 < len → s.place (hostAcc n) a len false = .ok p →
            (s.poisonedIn p.phys len = true → Answers (.memRead f) 0x0050 f (.part n) .part s 0x0603)
            ∧ (Clean s p.phys len → p.space = .core → p.region = none →
                (s.dom n).before = [] → Answers (.memRead f) 0x0050 f (.part n) .part s 0 (s.load p.phys len))) := by
  dsimp only
  have hx : exec (.memRead f) s = lift (fun t => t.partCmd 0x0050 f _) s := rfl
  refine ⟨fun h => effect_of_partCmd hx (if_pos h), fun hb hlen => ⟨fun ha => effect_of_partCmd hx
    ((if_neg (by omega)).trans (if_pos ha)), fun ha => ⟨fun h0 => ?_, fun e h0 hp => ?_⟩, fun p ha h0 hp => ⟨fun hpois => ?_,
    fun hc hs hr hbef => ?_⟩⟩⟩
  · refine effect_memRead hb hlen ha (.inr ?_)
    rw [h0, State.readMem_zero]
    cases hp : (started s 0x0050 f (.part n)).place (hostAcc n) (fieldNat f.body 0 8) 0 false with
    | ok p => exact .inl ⟨[], p, rfl, rfl, by rw [State.committedBytes_nil]; rfl⟩
    | error e => exact .inr ⟨[], e, rfl, rfl, rfl⟩
  · refine effect_memRead hb hlen ha (.inl ⟨e, ?_⟩)
    rw [State.readMem_refused (s := started s 0x0050 f (.part n)) h0 hp]
    exact ⟨rfl, rfl⟩
  · refine effect_memRead hb hlen ha (.inl ⟨0x0603, ?_⟩)
    rw [State.readMem_poisoned (s := started s 0x0050 f (.part n)) h0 hp hpois]
    exact ⟨rfl, rfl⟩
  · refine effect_memRead hb hlen ha (.inr (.inl ⟨s.load p.phys (fieldNat f.body 8 8), p, ?_⟩))
    rw [State.readMem_core (s := started s 0x0050 f (.part n)) hs h0 hp hc hr,
      State.committedBytes_same (s := started s 0x0050 f (.part n)) hbef]
    exact ⟨rfl, hp, rfl⟩

/-- What MEM_WRITE does with a body that is well formed, by the place of its range (R447). -/
def State.memWriteAt (f : Frame) (n : Part) (t : State) : Except Code Place → State
  | .error e => (t.accessFails (fieldNat f.body 0 8) e).complete 0x0051 f e
  | .ok p =>
    if p.cls ≠ 0 ∧ t.enabled n then t.complete 0x0051 f 0x0903
    else
      let r := t.writeMem (hostAcc n) none (fieldNat f.body 0 8) (f.body.drop 8)
      match r.2 with
      | .error e => r.1.complete 0x0051 f e
      | .ok () => r.1.complete 0x0051 f 0

/-- MEM_WRITE (R447). -/
theorem memWrite_answers (f : Frame) (n : Part) (s : State) :
    let a := fieldNat f.body 0 8
    let bs := f.body.drop 8
    (f.body.length < 8 ∨ 1048576 < bs.length → Answers (.memWrite f) 0x0051 f (.part n) .part s 0x0901)
     ∧ (8 < f.body.length → bs.length ≤ 1048576 →
        (2 ^ 50 ≤ a → Answers (.memWrite f) 0x0051 f (.part n) .part s 0x0601)
        ∧ (∀ e, a < 2 ^ 50 → s.place (hostAcc n) a bs.length true = .error e →
            Answers (.memWrite f) 0x0051 f (.part n) .part s e [] (fun t => t.accessFails a e))
        ∧ ∀ p, a < 2 ^ 50 → s.place (hostAcc n) a bs.length true = .ok p →
            (p.cls ≠ 0 → s.enabled n = true → Answers (.memWrite f) 0x0051 f (.part n) .part s 0x0903)
            ∧ (p.cls = 0 ∨ s.enabled n = false → p.space = .core → Clean s p.phys bs.length →
                Answers (.memWrite f) 0x0051 f (.part n) .part s 0 [] (fun t => t.putBytes p bs))) := by
  dsimp only
  have hx : exec (.memWrite f) s = lift (fun t => t.partCmd 0x0051 f _) s := rfl
  refine ⟨fun h => effect_of_partCmd hx (if_pos h), fun hb hlen => ?_⟩
  have hbody : ¬(f.body.length < 8 ∨ 1048576 < (f.body.drop 8).length) := by omega
  have hbs : f.body.drop 8 ≠ [] := by
    intro h
    rw [List.drop_eq_nil_iff] at h
    omega
  have hne : ¬ (f.body.drop 8).isEmpty = true := by simpa using hbs
  have hgo {run : State → State} (ha : fieldNat f.body 0 8 < 2 ^ 50) {x : Except Code Place}
      (hp : s.place (hostAcc n) (fieldNat f.body 0 8) (f.body.drop 8).length true = x)
      (h : State.memWriteAt f n (started s 0x0051 f (.part n)) x = run (started s 0x0051 f (.part n))) :
      Effect (.memWrite f) 0x0051 f (.part n) .part s run := by
    refine effect_of_partCmd hx ((if_neg hbody).trans ((if_neg (Nat.not_le.2 ha)).trans ((if_neg hne).trans ?_)))
    rw [show (started s 0x0051 f (.part n)).place (hostAcc n) (fieldNat f.body 0 8) (f.body.drop 8).length true = x from hp,
      ← h]
    cases x <;> rfl
  refine ⟨fun ha => effect_of_partCmd hx ((if_neg hbody).trans (if_pos ha)), fun e ha hp => hgo ha hp rfl,
    fun p ha hp => ⟨fun hcls hen => hgo ha hp (if_pos ⟨hcls, hen⟩), fun hcls hs hc => hgo ha hp ((if_neg ?_).trans ?_)⟩⟩
  · rintro ⟨hcls', hen⟩
    rcases hcls with h | h
    · exact hcls' h
    · exact Bool.noConfusion (h.symm.trans hen)
  · rw [State.writeMem_host (s := started s 0x0051 f (.part n)) hbs hp hs hc]

/-- The commands on memory and registers. -/
theorem hostMemoryAndRegisters : HostMemoryAndRegisters := by
  intro f n s
  obtain ⟨hbad, hok⟩ := memWrite_answers f n s
  refine ⟨memRead_answers f n s, ⟨hbad, fun hb hlen => ?_⟩, fun h => effect_of_mgmtCmd rfl (if_neg (not_not.2 h)),
    fun h => effect_of_mgmtCmd rfl (if_pos h), fun h => effect_of_mgmtCmd rfl (if_neg (not_not.2 h)),
    fun h => effect_of_mgmtCmd rfl (if_pos h)⟩
  obtain ⟨hout, hrefused, hplace⟩ := hok hb hlen
  refine ⟨hout, hrefused, fun p ha hp => ?_⟩
  obtain ⟨hlocked, hwritten⟩ := hplace p ha hp
  exact ⟨hlocked, fun hcls hs hc => ⟨hwritten hcls hs hc, fun b hb => State.putBytes_read_ne s p _ hb,
    State.putBytes_load s p _⟩⟩

/-! ## The Pannier, channels and the map (R331, R390, R452) -/

theorem SessOwner.chanOwner_eq (o : SessOwner) : o.chanOwner = o.queueKey := by cases o <;> rfl

/-- An item that enters an empty directory with room for it starts to fill (R331 to R333). -/
theorem State.pnEnter_first {s : State} {n : Part} {r : PnRecord} {d : Fin 8} (hempty : s.pnDir d = [])
    (hroom : r.bytes / 65536 ≤ s.regN .pnPQuota d.val n.val * 16) :
    s.pnEnter n r d =
      ((s.setPn d [⟨r.src, r.bytes, n, r.prio, r.version, r.pin, 0, .filling⟩]).bump .pnEvictions d.val 0 0, true) := by
  have hfree : pnVictims [] n r.prio (r.bytes / 65536) (s.regN .pnPQuota d.val n.val * 16 - pnFrames [] n) = some [] :=
    if_pos (by simpa [pnFrames] using hroom)
  unfold State.pnEnter
  simp only [hempty, hfree]
  simp [pnStart, pnNext]

/-- A list of one record for one die is that record's entry there (R331). -/
theorem State.pnLoadAll_single {s t : State} {n : Part} {r : PnRecord} {d : Fin 8} (hbad : s.pnRecordBad n r = false)
    (hd : maskDies r.mask = [d]) (h : s.pnEnter n r d = (t, true)) : s.pnLoadAll n [r] = (t, 0) := by
  unfold State.pnLoadAll
  simp [hbad, hd, h]

theorem pannierChannelAndMapCommands : PannierChannelAndMapCommands := by
  intro f n o s
  dsimp only
  have hload : exec (.pnLoad f) s = lift (fun t => t.partCmd 0x0040 f _) s := rfl
  have hdrop : exec (.pnDrop f) s = lift (fun t => t.partCmd 0x0043 f _) s := rfl
  have hquery : exec (.pnQuery f) s = lift (fun t => t.partCmd 0x0044 f _) s := rfl
  have hopen : exec (.channelOpen f) s = lift (fun t => t.startCmd 0x0060 f .any _) s := rfl
  have hclose : exec (.channelClose f) s = lift (fun t => t.startCmd 0x0061 f .any _) s := rfl
  have hmap : exec (.fabricMap f) s = lift (fun t => t.mgmtCmd 0x0070 f _) s := rfl
  refine ⟨⟨fun hb h0 hk => effect_of_partCmd hload (if_neg ?_), fun h => effect_of_partCmd hload (if_pos ?_),
      fun r d hb hr hbad hd hempty hroom => ?_⟩,
    fun hb => ⟨fun h => ⟨effect_of_partCmd rfl (if_neg ?_), effect_of_partCmd rfl (if_neg ?_)⟩,
      fun h => effect_of_partCmd hdrop ?_, fun h => effect_of_partCmd hdrop ?_⟩,
    fun d hb hd => effect_of_partCmd hquery ?_, fun hb => effect_of_partCmd hquery (dif_neg ?_),
    fun hb hc h6 h12 h1 h256 => ⟨fun h => effect_of_startCmd hopen ?_, fun h => effect_of_startCmd hopen ?_⟩,
    fun hb x hx => ⟨fun ho hfree => effect_of_startCmd hclose ?_, fun ho => effect_of_startCmd hclose ?_⟩,
    fun h => effect_of_mgmtCmd hmap (if_pos h),
    fun h => ⟨fun hself => effect_of_mgmtCmd hmap ((if_neg (by simp [h])).trans (if_neg ?_)),
      fun hself hen => effect_of_mgmtCmd hmap ((if_neg (by simp [h])).trans (if_pos ?_))⟩⟩
  · omega
  · omega
  · refine ⟨_, State.pnLoadAll_single hbad hd (State.pnEnter_first hempty ?_), Assoc.getD_put_self _ _ _ _, rfl⟩
    omega
  · simp [pnRangeBad, hb, h]
  · simp [pnRangeBad, hb, h]
  · exact (if_neg (by omega)).trans (by rw [if_pos h])
  · exact (if_neg (by omega)).trans (by rw [if_neg (by omega)])
  · have hd' : f.body.length = 4 ∧ fieldNat f.body 0 4 < 8 := ⟨hb, by omega⟩
    refine (dif_pos hd').trans ?_
    rw [show (⟨fieldNat f.body 0 4, hd'.2⟩ : Fin 8) = d from Fin.ext hd]
    rfl
  · exact fun h => hb h.1
  · refine (if_neg (by omega)).trans ((if_neg ?_).trans ?_)
    · rw [show (started s 0x0060 f o).chan (fieldNat f.body 0 4) = none from h]
      decide
    · rw [SessOwner.chanOwner_eq]
  · exact (if_neg (by omega)).trans (if_pos h)
  · refine (if_neg (not_not.2 hb)).trans (if_neg ?_)
    rw [show (started s 0x0061 f o).chan (fieldNat f.body 0 4) = some x from hx, Bool.or_eq_true, List.any_eq_true, not_or]
    refine ⟨by simp [SessOwner.chanOwner_eq, ho], fun ⟨e, he, hopen⟩ => ?_⟩
    simp only [Bool.and_eq_true, decide_eq_true_eq] at hopen
    exact (hfree e he).elim hopen.1 (fun h => h hopen.2)
  · refine (if_neg (not_not.2 hb)).trans (if_pos ?_)
    rw [show (started s 0x0061 f o).chan (fieldNat f.body 0 4) = some x from hx]
    simp [SessOwner.chanOwner_eq, ho]
  · rintro ⟨hother, hon⟩
    rcases hself with hself | hself
    · exact hother hself
    · rw [show (started s 0x0070 f .mgmt).allDisabled = true from hself] at hon
      exact absurd hon (by decide)
  · exact ⟨hself, by rw [show (started s 0x0070 f .mgmt).allDisabled = false from hen]; rfl⟩

/-- Settles O31: each host command by how an accepted one starts. -/
theorem hostAccesses : Obligations.HostAccesses := ⟨hostMemoryAndRegisters, pannierChannelAndMapCommands⟩

end Sys2Proof.Machine
end

section
/-! # FENCE, CWAIT, SEGEND, STEPEND, BAR and WAITV (R41, R166, R216 to R218, R226 to R228, R420, R423) -/

namespace Sys2Proof.Machine

open Sys2Proof.Claims

/-- A check that passes lets an aligned address through. -/
theorem addrCheck_eq_none {a : Word} {align : Nat} : addrCheck a align = none ↔ addrForm a align ≠ none := by
  unfold addrCheck codeIf
  cases addrForm a align <;> simp

theorem addrCheck_eq_some {a : Word} {align : Nat} (h : addrForm a align = none) : addrCheck a align = some 0x030B := by
  unfold addrCheck codeIf
  rw [h]
  rfl

/-- Quiet stations are stations at rest. -/
theorem atRest_of_quiet {s : State} {c : CoreId} {n : Part} (h : QuietStations s c n) : (s.core c).AtRest := by
  obtain ⟨_, hmxq, hvxq, htxq, hlxq, hsvq, hruns, hcolls, _, _⟩ := h
  exact ⟨hmxq, hvxq, htxq, hlxq, hsvq, hruns, hcolls⟩

/-! ## Fences (R216) -/

/-- A core that issues neither waits nor was its segment killed. -/
theorem idle_of_issues {s : State} {c : CoreId} {g : BitVec 4} {reads : List Dest} {au : Bool} (h : Issues s c g reads au) :
    (s.core c).wait = none ∧ (s.core c).killed = none := by
  have hcan := h.1
  unfold Core.canIssue at hcan
  simp only [Bool.and_eq_true, Option.isNone_iff_eq_none] at hcan
  tauto

/-- A fence with nothing outstanding is complete. -/
theorem State.fenceDone_quiet {s : State} {c : CoreId} (h : (s.core c).AtRest) (hr : s.fab.reqs = []) (k : BitVec 8) :
    s.fenceDone c k = true := by
  unfold State.fenceDone State.writesDone State.readsDone State.sentWrites State.sentReads
  rw [h.queued, hr]
  simp

/-- A fence with nothing outstanding ends at once. -/
theorem startWait_fence {s : State} {c : CoreId} {n : Part} {k : BitVec 8} (hq : QuietStations s c n)
    (hkilled : (s.core c).killed = none) (hr : s.fab.reqs = []) (hl : (s.core c).loops = []) (hb : s.barriers = []) :
    startWait c (.fence k) s = s.setCore c { s.core c with wait := none, pc := (s.core c).pc + 1 } := by
  have hrest := atRest_of_quiet hq
  obtain ⟨hpart, _, _, _, _, _, _, _, hwaiters, hsyncs⟩ := hq
  let x1 : Core := { s.core c with wait := some (.fence k) }
  have hcore : (s.setCore c x1).core c = x1 := State.core_setCore_self _ _ _
  have hrest1 : ((s.setCore c x1).core c).AtRest := by
    rw [hcore]
    exact ⟨hrest.mxq, hrest.vxq, hrest.txq, hrest.lxq, hrest.svq, hrest.lxRuns, hrest.collRuns⟩
  have hwake : State.wake c (s.setCore c x1) = s.setCore c { s.core c with wait := none, pc := (s.core c).pc + 1 } := by
    unfold State.wake
    rw [hcore]
    simp only [show x1.killed = none from hkilled, show x1.wait = some (.fence k) from rfl, State.fenceDone_quiet hrest1 hr,
      Option.isSome_none, Bool.false_eq_true, if_false, if_true]
    rw [State.resume_free (by rw [hcore]; exact hl), hcore, State.setCore_setCore]
  show State.settle c (s.setCore c x1) = _
  unfold State.settle
  rw [State.drain_rest hrest1, show (s.setCore c x1).partOf c = some n from hpart, Option.getD_some,
    State.wakeAll_cores (s := s.setCore c x1) hsyncs, (Aside.refl s).waiters_alone hwaiters hpart rfl]
  show (State.wake c (s.setCore c x1)).releaseBars c = _
  rw [hwake]
  exact State.releaseBars_none (s := s.setCore c _) hb c

/-! ## Barriers (R217) -/

/-- What an arrival makes of a barrier, by the cores that have arrived and the groups that are complete. -/
theorem Barrier.arrive_eq {b : Barrier} {count : Word} (h : b.arrived = [] ∨ b.count = count) (c : CoreId) :
    b.arrive c count = if count.toNat ≤ b.arrived.length + 1 then ⟨count, [], b.full ++ [b.arrived ++ [c]]⟩
      else ⟨count, b.arrived ++ [c], b.full⟩ := by
  have hcount : (if b.arrived.isEmpty then count else b.count) = count := by
    rcases h with h | h
    · rw [h]; rfl
    · rw [h, ite_self]
  unfold Barrier.arrive
  rw [hcount]
  simp only [List.length_append, List.length_cons, List.length_nil]

/-! ## Polls (R218) -/

/-- The function codes 0 to 3 name a condition. -/
theorem waitCond_isSome {fn : BitVec 8} (h : fn.toNat < 4) (w b : Word) : (waitCond fn w b).isSome = true := by
  unfold waitCond
  obtain h | h | h | h : fn.toNat = 0 ∨ fn.toNat = 1 ∨ fn.toNat = 2 ∨ fn.toNat = 3 := by omega
  all_goals rw [h]; rfl

/-- Each function code's condition, in the terms of R218. -/
theorem waitCond_eq {fn : BitVec 8} {w b : Word} {hit : Bool}
    (h : (fn = 0 ∧ hit = decide (w = b)) ∨ (fn = 1 ∧ hit = decide (w ≠ b)) ∨ (fn = 2 ∧ hit = decide (b.toInt ≤ w.toInt))
      ∨ (fn = 3 ∧ hit = decide (b.toNat ≤ w.toNat))) : waitCond fn w b = some hit := by
  rcases h with ⟨rfl, rfl⟩ | ⟨rfl, rfl⟩ | ⟨rfl, rfl⟩ | ⟨rfl, rfl⟩
  · rfl
  · rfl
  · show some (!BitVec.slt w b) = _
    simp [BitVec.slt, ← decide_not]
  · show some (!BitVec.ult w b) = _
    simp [BitVec.ult, ← decide_not]

/-- A poll of a local word reads it, and ends the wait where its condition holds. -/
theorem State.pollWait_local {s : State} {c : CoreId} {addr b : Word} {fn : BitVec 8} {a phys : Nat} {hit : Bool}
    (hwait : (s.core c).wait = some (.waitv addr b fn)) (haddr : addrForm addr 8 = some (none, a))
    (hp : s.place (s.coreAcc c) a 8 false = .ok ⟨.core, phys, 0, none⟩) (hc : Clean s phys 8)
    (hhit : waitCond fn (wordAt s phys) b = some hit) :
    s.pollWait c = if hit then State.settle c ((s.bump .lxBytesLoaded (s.coreIx c) 0 8).resume c)
      else s.bump .lxBytesLoaded (s.coreIx c) 0 8 := by
  unfold State.pollWait
  rw [hwait]
  dsimp only
  rw [State.scalarAt_local haddr]
  dsimp only
  rw [State.coreRead_core (by decide) hp hc]
  unfold orKill
  dsimp only
  rw [show bytesWord (s.load phys 8) = wordAt s phys from rfl, hhit]
  cases hit <;> rfl

theorem waitPolls : WaitPolls := by
  intro c n s addr b fn a phys hit hpart hwait hkilled haddr hp hc hcond
  have hpoll := State.pollWait_local hwait haddr hp hc (waitCond_eq hcond)
  have haside : Aside s (s.bump .lxBytesLoaded (s.coreIx c) 0 8) := Aside.bump s (by decide) _ _ _
  have hx : exec (.waitvPoll c) s = lift (fun t => t.pollWait c) s := rfl
  refine ⟨?_, ?_⟩
  · rintro rfl
    exact ⟨_, exec_next hx hpoll rfl, rfl, rfl⟩
  · rintro rfl hloops hmxq hvxq htxq hlxq hsvq hruns hcolls hwaiters _ hsyncs
    let u := (s.bump .lxBytesLoaded (s.coreIx c) 0 8).setCore c { s.core c with wait := none, pc := (s.core c).pc + 1 }
    have hresume : (s.bump .lxBytesLoaded (s.coreIx c) 0 8).resume c = u := State.resume_free hloops
    have hsettle : State.settle c u = u := by
      refine State.settle_rest (n := n) ?_ ((haside.partOf c).trans hpart) hsyncs
        (haside.waiters_over hwaiters hpart (by rw [hwait]; rfl) rfl)
      rw [State.core_setCore_self]
      exact ⟨hmxq, hvxq, htxq, hlxq, hsvq, hruns, hcolls⟩
    exact ⟨u, exec_next hx (hpoll.trans ((congrArg (State.settle c) hresume).trans hsettle)) rfl,
      State.core_setCore_self _ _ _, rfl⟩

/-! ## The waits -/

theorem waits : Waits := by
  intro c n s x hx hpart
  subst hx
  have hn : (s.partOf c).getD 0 = n := by rw [hpart]; rfl
  refine ⟨fun f hi hd ha hb hc hx h1 h3 => ?_, fun f hi hd hb hc hx => ⟨fun hfn => ?_, fun hfn => ?_⟩,
    fun f hi hd hc hx hfn => ?_, fun f hi hrsv hoff => ?_⟩
  · have hfence : exec (.fence c f) s = .next (after (startWait c (.fence f.fn)) s) := by
      refine exec_after (show execFence c f s = lift _ s from rfl) (issue1_runs hi ?_ _)
      have h0 : f.fn ≠ 0 := by
        rintro h
        rw [h] at h1
        exact absurd h1 (by decide)
      simp only [hd, ha, hb, hc, hx, h0, Bool.or_eq_false_iff, decide_eq_false_iff_not]
      simp [Nat.not_lt.2 h3]
    refine ⟨hfence, fun hq _ hr hl hbar _ => ?_⟩
    obtain ⟨hwait, hkilled⟩ := idle_of_issues hi
    rw [hfence, after, startWait_fence hq hkilled hr hl hbar, ← hwait]
    rfl
  · have hrsv : (f.d != 0 || f.b != 0 || f.c != 0 || f.fn != 0 || f.x != 0) = false := by simp [hd, hb, hc, hfn, hx]
    constructor
    · intro h
      exact exec_next (show execCwait c f s = lift _ s from rfl) ((issue1_runs hi hrsv _).trans (if_pos (by rw [h]; rfl)))
        (State.kill_pending _ _ _ _)
    · intro h
      refine exec_after (show execCwait c f s = lift _ s from rfl) ((issue1_runs hi hrsv _).trans (if_neg ?_))
      rw [Option.isNone_iff_eq_none]
      exact Option.isSome_iff_ne_none.1 h
  · dsimp only
    have hrsv : (f.d != 0 || f.b != 0 || f.c != 0 || f.x != 0 || decide (15 < f.fn.toNat)) = false := by
      have : ¬ 15 < f.fn.toNat := by omega
      simp [hd, hb, hc, hx, this]
    have hbar {b : Barrier}
        (hfind : Assoc.getD (c.die, n, f.fn.toNat) ⟨(s.core c).rdS f.a, [], []⟩ s.barriers = b) {t : State}
        (ht : (if b.arrived ≠ [] ∧ b.count ≠ (s.core c).rdS f.a then s.kill c 0x0313
          else startWait c (.bar f.fn.toNat)
            { s with barriers := Assoc.put (c.die, n, f.fn.toNat) (b.arrive c ((s.core c).rdS f.a)) s.barriers }) = t) :
        exec (.bar c f) s = .next { t with pending := s.pending } := by
      rw [show exec (.bar c f) s = lift _ s from show execBar c f s = lift _ s from rfl, lift_eq, issue1_runs hi hrsv]
      dsimp only
      rw [hn, hfind, ht]
    refine ⟨fun b hfind hne hcount => ?_, fun b hfind h => ?_, fun hfind => ?_⟩
    · rw [hbar (show (Assoc.find _ _).getD _ = b by rw [hfind]; rfl) (if_pos ⟨hne, hcount⟩),
        ← State.kill_pending s c 0x0313 none]
    · refine (hbar (show (Assoc.find _ _).getD _ = b by rw [hfind]; rfl) (if_neg ?_)).trans ?_
      · rintro ⟨hne, hcount⟩
        exact h.elim hne hcount
      · rw [Barrier.arrive_eq h]
        rfl
    · refine (hbar (b := ⟨(s.core c).rdS f.a, [], []⟩) (show (Assoc.find _ _).getD _ = _ by rw [hfind]; rfl)
        (if_neg (fun h => h.1 rfl))).trans ?_
      rw [Barrier.arrive_eq (.inl rfl)]
      rfl
  · have hrsv : (f.d != 0 || f.c != 0 || f.x != 0 || (waitCond f.fn 0 0).isNone) = false := by
      rw [hd, hc, hx, Option.isNone_eq_false_iff.2 (waitCond_isSome hfn 0 0)]
      rfl
    constructor
    · intro h
      refine exec_next (show execWaitv c f s = lift _ s from rfl) ((issue1_runs hi hrsv _).trans ?_)
        (State.kill_pending s c 0x030B none)
      dsimp only
      rw [addrCheck_eq_some h]
    · intro h
      refine ⟨?_, rfl⟩
      rw [show exec (.waitv c f) s = lift _ s from show execWaitv c f s = lift _ s from rfl, lift_eq, issue1_runs hi hrsv]
      dsimp only
      rw [addrCheck_eq_none.2 h]
      rfl
  · have hrsv : (f.rsv != 0 || f.off != 0) = false := by simp [hrsv, hoff]
    refine ⟨fun h => ?_, fun h => ?_, ?_⟩
    · refine exec_next (show execSegend c f s = lift _ s from rfl) ((issue1_runs hi hrsv _).trans (if_pos ?_))
        (State.kill_pending _ _ _ _)
      rwa [hn]
    · refine exec_after (show execSegend c f s = lift _ s from rfl) ((issue1_runs hi hrsv _).trans (if_neg ?_))
      rw [hn]
      omega
    · exact exec_after (show execStepend c f s = lift _ s from rfl) (issue1_runs hi hrsv _)

/-- Settles O19: how each wait starts, and how the polls of WAITV end. -/
theorem coreWaits : Obligations.CoreWaits := ⟨waits, waitPolls⟩

end Sys2Proof.Machine
end

section
/-! # LD, TDLD, ST, TDST and ATOM on local memory (R60, R62, R198, R199, R215) -/

namespace Sys2Proof.Machine

open Sys2Proof.Claims

/-! ## Numbers as bytes (R3) -/

@[simp] theorem natBytes_length (n v : Nat) : (natBytes n v).length = n := by
  induction n generalizing v with
  | zero => rfl
  | succ n ih => rw [natBytes, List.length_cons, ih]

/-- The bytes of a number spell it, as far as they go. -/
theorem bytesNat_natBytes (n v : Nat) : bytesNat (natBytes n v) = v % 256 ^ n := by
  induction n generalizing v with
  | zero => simp [natBytes, bytesNat, Nat.mod_one]
  | succ n ih =>
    rw [natBytes, bytesNat, ih, BitVec.toNat_ofNat, pow_succ' 256 n, Nat.mod_mul]

@[simp] theorem wordBytes_length (w : Word) : (wordBytes w).length = 8 := natBytes_length 8 _

@[simp] theorem bytesWord_wordBytes (w : Word) : bytesWord (wordBytes w) = w := by
  unfold bytesWord wordBytes
  rw [bytesNat_natBytes, Nat.mod_eq_of_lt (show w.toNat < 256 ^ 8 from w.isLt), BitVec.ofNat_toNat, BitVec.setWidth_eq]

/-! ## Late results (R212) -/

/-- What a late result leaves of a core. -/
theorem Core.deliver_frame (x : Core) (tag : Nat) (bs : List Byte) :
    x.deliver tag bs = { x with s := (x.deliver tag bs).s, td := (x.deliver tag bs).td, late := (x.deliver tag bs).late } := by
  unfold Core.deliver
  dsimp only
  split <;> rfl

section
variable {x : Core} {tag : Nat} {bs : List Byte}

theorem Core.deliver_scalar {r : BitVec 5} (h : x.late = [(tag, .s r)]) : x.deliver tag bs =
    { x with s := x.s.set (ix5 r).val (bytesWord bs) (ix5 r).isLt, late := [] } := by
  unfold Core.deliver
  simp [h, Assoc.find_cons]

theorem Core.deliver_desc {r : BitVec 5} (h : x.late = [(tag, .td r)]) : x.deliver tag bs =
    { x with td := x.td.set (ix5 r).val (BitVec.ofNat 256 (bytesNat bs)) (ix5 r).isLt, late := [] } := by
  unfold Core.deliver
  simp [h, Assoc.find_cons]

theorem Core.deliver_dropped (h : x.late = [(tag, .none)]) : x.deliver tag bs = { x with late := [] } := by
  unfold Core.deliver
  simp [h, Assoc.find_cons]

end

/-! ## A core with one command (R214, R215) -/

/-- A core in no loop with nothing under way but one command of LX. -/
structure Core.HasOnly (x : Core) (k : StCmd) : Prop where
  lxq : x.lxq = [k]
  rest : Core.AtRest { x with lxq := [] }
  wait : x.wait = none
  killed : x.killed = none
  loops : x.loops = []

/-- A command of LX that runs leaves its queue. -/
theorem State.settleOnce_lx {u v : State} {c : CoreId} {k : StCmd} (h : (u.core c).HasOnly k)
    (hk : ∀ td a t, k ≠ .walk td a t) (hrun : u.runLx c k = .done v) (hv : (v.core c).killed = none) :
    u.settleOnce c = some (v.setCore c { v.core c with lxq := [] }) := by
  obtain ⟨hlxq, hrest, _, hkilled, _⟩ := h
  have hmxq : (u.core c).mxq = [] := hrest.mxq
  have hvxq : (u.core c).vxq = [] := hrest.vxq
  have htxq : (u.core c).txq = [] := hrest.txq
  have hruns : (u.core c).lxRuns = [] := hrest.lxRuns
  have hcmd : u.lxCmd c k = .done v := by
    unfold State.lxCmd
    dsimp only
    split
    · next td a t => exact absurd rfl (hk td a t)
    · rw [hruns]
      exact hrun
  unfold State.settleOnce State.carryOn
  simp only [hkilled, hmxq, hvxq, htxq, hruns, hlxq, firstRun, List.findSome?_nil, List.any_nil, hcmd, Option.isSome_none,
    Bool.false_eq_true, if_false, List.nil_append, putQueue, State.updCore_eq, hv]

/-- A command of LX runs to its end: it leaves its queue, and the next instruction follows (R214, R220). -/
theorem State.thenNext_lx {s v w : State} {c : CoreId} {n : Part} {put : Core → Core} {k : StCmd} {y : Core}
    (hpart : s.partOf c = some n) (hwaiters : s.waiters n = []) (hsyncs : (s.svPart n).running.syncs = [])
    (hput : (put (s.core c)).HasOnly k) (hk : ∀ td a t, k ≠ .walk td a t)
    (hrun : (s.setCore c (put (s.core c))).runLx c k = .done v) (hv : v.core c = y) (hy : y.HasOnly k)
    (hw : Aside (s.setCore c (put (s.core c))) w) (hvw : ∀ z, v.setCore c z = w.setCore c z) :
    State.thenNext c (fun t => t.updCore c put) s = w.setCore c { y with lxq := [], pc := y.pc + 1 } := by
  let u := s.setCore c (put (s.core c))
  let t := w.setCore c { y with lxq := [] }
  have hucore : u.core c = put (s.core c) := State.core_setCore_self _ _ _
  have htcore : t.core c = { y with lxq := [] } := State.core_setCore_self _ _ _
  have hstep : u.settleOnce c = some t := by
    rw [State.settleOnce_lx (by rw [hucore]; exact hput) hk hrun (by rw [hv]; exact hy.killed), hv, hvw]
  have hrest : (t.core c).AtRest := by
    rw [htcore]
    exact hy.rest
  have hwake : t.wakeAll n = t := by
    have hnone : t.waiters n = [] := by
      rw [show t = _ from hw.setCore_setCore _]
      exact hw.uncore.waiters_none hwaiters hy.wait
    rw [State.wakeAll_cores (by rw [show t.svPart n = s.svPart n from hw.svPart n]; exact hsyncs), hnone]
    rfl
  have hsettle : State.settle c u = t := by
    unfold State.settle
    rw [show u.partOf c = some n from hpart, State.drain, hstep]
    dsimp only
    rw [State.drain_rest hrest]
    exact hwake
  show (let t' := State.settle c u; if (t'.core c).killed.isSome then t' else t'.advance c 1) = _
  dsimp only
  rw [hsettle, if_neg (by rw [htcore]; simp [hy.killed]), State.advance_free (by rw [htcore]; exact hy.loops), htcore]
  exact State.setCore_setCore _ _ _ _

/-! ## The commands that enter LX -/

/-- A command whose checks pass enters a queue with room (R213, R214). -/
theorem enqueue_ready {c : CoreId} {len : Core → Nat} {put : Core → Core} {checks : List (Option Code)} {s : State}
    (hc : firstCode checks = none) (hlen : len (s.core c) < 8) :
    enqueue c len put checks s = State.thenNext c (fun t => t.updCore c put) s := by
  unfold enqueue
  rw [hc]
  exact if_neg (Nat.not_le.2 hlen)

/-- The check of an aligned address passes. -/
theorem firstCode_addrCheck {a : Word} {align : Nat} {p : Option ModIx × Nat} (h : addrForm a align = some p) :
    firstCode [addrCheck a align] = none := by
  rw [addrCheck_eq_none.2 (by rw [h]; exact Option.some_ne_none _)]
  rfl

theorem issues_mono {s : State} {c : CoreId} {g : BitVec 4} {l l' : List Dest} {au : Bool} (h : Issues s c g l au)
    (hl : ∀ d ∈ l', d ∈ l) : Issues s c g l' au := by
  obtain ⟨hcan, hdown, hpc, hguard, haudit, hlate⟩ := h
  exact ⟨hcan, hdown, hpc, hguard, haudit, fun d hd => hlate d (hl d hd)⟩

/-- A core whose LX is given a command. -/
def Core.given (x : Core) (k : StCmd) : Core := { x with lxq := x.lxq ++ [k] }

/-- A core in no loop that issues, with nothing under way, has only the command it is given. -/
theorem Core.given_hasOnly {x : Core} (h : x.AtRest) (hw : x.wait = none) (hk : x.killed = none) (hl : x.loops = [])
    (k : StCmd) :
    (x.given k).HasOnly k :=
  ⟨by rw [Core.given, h.lxq]; rfl, ⟨h.mxq, h.vxq, h.txq, rfl, h.svq, h.lxRuns, h.collRuns⟩, hw, hk, hl⟩

theorem Core.addLate_atRest {x : Core} (h : x.AtRest) (d : Dest) : (x.addLate d).AtRest :=
  ⟨h.mxq, h.vxq, h.txq, h.lxq, h.svq, h.lxRuns, h.collRuns⟩

/-- A late result leaves what is under way. -/
theorem Core.HasOnly.deliver {x : Core} {k : StCmd} (h : x.HasOnly k) (tag : Nat) (bs : List Byte) :
    (x.deliver tag bs).HasOnly k := by
  obtain ⟨hlxq, hrest, hw, hk, hl⟩ := h
  rw [Core.deliver_frame]
  exact ⟨hlxq, ⟨hrest.mxq, hrest.vxq, hrest.txq, rfl, hrest.svq, hrest.lxRuns, hrest.collRuns⟩, hw, hk, hl⟩

/-! ## What a late result leaves of the registers (R190, R212) -/

section
variable {x : Core} (hl : x.late = [])
include hl

/-- The one late register of a core. -/
theorem Core.addLate_late (d : Dest) : (x.addLate d).late = [(x.nextTag, if d = .s 0 then .none else d)] := by
  unfold Core.addLate
  rw [hl]
  rfl

/-- A late scalar reads as its result, s0 as zero, and the other registers stay. -/
theorem Core.rdS_loaded (k : StCmd) (r : BitVec 5) (bs : List Byte) :
    let y := ((x.addLate (.s r)).given k).deliver x.nextTag bs
    y.rdS r = (if r = 0 then 0 else bytesWord bs) ∧ (∀ q, q ≠ r → y.rdS q = x.rdS q) ∧ y.p = x.p ∧ y.td = x.td ∧ y.late = []
      ∧ y.pc = x.pc := by
  have hlate := Core.addLate_late hl (.s r)
  by_cases hr : r = 0
  · subst hr
    rw [if_pos rfl] at hlate
    rw [Core.deliver_dropped (x := (x.addLate (.s 0)).given k) hlate]
    exact ⟨rfl, fun q _ => rfl, rfl, rfl, rfl, rfl⟩
  · rw [if_neg (by simpa using hr)] at hlate
    rw [Core.deliver_scalar (x := (x.addLate (.s r)).given k) hlate]
    have hset (q : BitVec 5) : Core.rdS { (x.addLate (.s r)).given k with
        s := x.s.set (ix5 r).val (bytesWord bs) (ix5 r).isLt, late := [] } q = (x.wrS r (bytesWord bs)).rdS q := by
      unfold Core.wrS
      rw [if_neg hr]
      rfl
    refine ⟨(hset r).trans ?_, fun q hq => (hset q).trans ?_, rfl, rfl, rfl, rfl⟩
    · rw [Core.rdS_wrS, if_pos rfl]
    · rw [Core.rdS_wrS, if_neg hq]
      split
      · next h => rw [h]; rfl
      · rfl

/-- A late tile descriptor register reads as its result, and the other registers stay. -/
theorem Core.rdTd_loaded (k : StCmd) (r : BitVec 5) (bs : List Byte) :
    let y := ((x.addLate (.td r)).given k).deliver x.nextTag bs
    y.rdTd r = BitVec.ofNat 256 (bytesNat bs) ∧ (∀ q, q ≠ r → y.rdTd q = x.rdTd q) ∧ y.s = x.s ∧ y.pc = x.pc := by
  have hlate : (x.addLate (.td r)).late = [(x.nextTag, .td r)] := Core.addLate_late hl (.td r)
  rw [Core.deliver_desc (x := (x.addLate (.td r)).given k) hlate]
  exact ⟨(Core.rdTd_wrTd x r r _).trans (if_pos rfl), fun q hq => (Core.rdTd_wrTd x r q _).trans (if_neg hq), rfl, rfl⟩

end

/-! ## What a write leaves, and what it counts (R60, R62, R315, R335, R340) -/

/-- Bytes written leave the cores and what they wait for. -/
theorem State.putBytes_aside (s : State) (p : Place) (bs : List Byte) : Aside s (s.putBytes p bs) := by
  have hcfg (n : Part) := State.pnInvalidate_keeps (fun t => State.partCfg t n)
    (fun t d l k => State.reg_setReg_ne (t.setPn d l) (r := .pnInvalidations) (by decide) _ _ _ _ _) s p.phys bs.length
  exact ⟨State.pnInvalidate_keeps State.cores (fun _ _ _ _ => rfl) s _ _,
    State.pnInvalidate_keeps State.sv (fun _ _ _ _ => rfl) s _ _,
    State.pnInvalidate_keeps State.pending (fun _ _ _ _ => rfl) s _ _, hcfg⟩

/-- Only APPEND memory keeps what it held (R58). -/
theorem State.keepBefore_core {s : State} {n : Part} {p : Place} {len : Nat} (h : p.cls = 0) : s.keepBefore n p len = s := by
  unfold State.keepBefore
  rw [if_neg (by rw [h]; decide)]

/-- What a write counts leaves memory, the cores and the journals. -/
theorem State.measure_leaves (s : State) (acc : Accessor) (p : Place) (len : Nat) :
    Aside s (s.measure acc p len) ∧ (s.measure acc p len).mem = s.mem
      ∧ ∀ m, ((s.measure acc p len).dom m).journal = (s.dom m).journal := by
  have hdom (n : Part) (f : Domain → Domain) (hf : ∀ d, (f d).journal = d.journal) (m : Part) :
      ((s.updDom n f).dom m).journal = (s.dom m).journal := by
    by_cases h : n = m
    · subst h
      rw [State.dom_updDom_self, hf]
    · rw [State.updDom_eq, State.dom_setDom_ne _ h]
  unfold State.measure
  split
  · exact ⟨Aside.setDom _ _ _, rfl, hdom _ _ (fun _ => rfl)⟩
  · exact ⟨Aside.setDom _ _ _, rfl, hdom _ _ (fun _ => rfl)⟩
  · exact ⟨Aside.refl s, rfl, fun _ => rfl⟩

theorem State.countWrite_leaves (s : State) (acc : Accessor) (p : Place) (len : Nat) :
    Aside s (s.countWrite acc p len) ∧ (s.countWrite acc p len).mem = s.mem
      ∧ ∀ m, ((s.countWrite acc p len).dom m).journal = (s.dom m).journal := by
  obtain ⟨haside, hmem, hjournal⟩ := State.measure_leaves s acc p len
  unfold State.countWrite
  dsimp only
  split
  · exact ⟨haside.trans (Aside.bump _ (by decide) _ _ _), hmem, hjournal⟩
  · exact ⟨haside, hmem, hjournal⟩

/-- The first entry of the journals finds a page (R62, R63). -/
theorem State.journal_first {s : State} {n : Part} {e : JEntry} (hj : ∀ m, (s.dom m).journal = []) (he : e.len ≤ 4096) :
    s.journal n e = (s.updDom n (fun d => { d with journal := d.journal ++ [e] }), .ok ()) := by
  have hpages (m : Part) : ((s.updDom n (fun d => { d with journal := d.journal ++ [e] })).dom m).pages e.die ≤ 1 := by
    unfold Domain.pages
    by_cases h : n = m
    · subst h
      rw [State.dom_updDom_self]
      simp only [hj, List.nil_append, List.filter_cons, decide_true, if_true, List.filter_nil, List.map_cons, List.map_nil,
        List.sum_cons, List.sum_nil]
      omega
    · rw [State.updDom_eq, State.dom_setDom_ne _ h, hj]
      simp
  have hsum : (s.updDom n (fun d => { d with journal := d.journal ++ [e] })).journalPages e.die ≤ 16 := by
    unfold State.journalPages
    exact (List.sum_le_card_nsmul _ 1 (by simpa using hpages)).trans (by simp)
  unfold State.journal
  dsimp only
  rw [if_neg (by unfold journalLimit; omega)]

/-- The checks of the core store are those of a read and of a write alike (R308). -/
theorem State.place_core_read {s : State} {acc : Accessor} {a n phys : Nat}
    (h : s.place acc a n true = .ok ⟨.core, phys, 0, none⟩) :
    s.place acc a n false = .ok ⟨.core, phys, 0, none⟩ := by
  have hdie (d : Fin 8) (off : Nat) : s.placeDie acc d off n true ≠ .ok ⟨.core, phys, 0, none⟩ := by
    unfold State.placeDie
    dsimp only
    repeat' split
    all_goals simp
  unfold State.place at h ⊢
  by_cases h1 : a < s.closeTop
  · rw [if_pos h1] at h
    split at h <;> simp at h
  rw [if_neg h1] at h ⊢
  by_cases h2 : cxlBase ≤ a ∧ a < cxlBase + 0x80000000000
  · rw [if_pos h2] at h
    dsimp only at h
    repeat' split at h
    all_goals simp at h
  rw [if_neg h2] at h ⊢
  by_cases h3 : dieBase ≤ a ∧ a < dieBase + 0x80000000
  · rw [if_pos h3] at h
    exact absurd h (hdie _ _)
  rw [if_neg h3] at h ⊢
  by_cases h4 : 0x20E0000000000 ≤ a ∧ a < 0x20E0000000000 + 192 * mib
  · rw [if_pos h4] at h
    split at h
    · simp at h
    · exact absurd h (hdie _ _)
  rwa [if_neg h4] at h ⊢

/-! ## The accesses (R60, R62, R198, R199) -/

section
variable {s : State} {c : CoreId} {addr : Word} {a phys : Nat}

/-- LD's access. -/
theorem State.runLx_ld (tag : Nat) (haddr : addrForm addr 8 = some (none, a))
    (hp : s.place (s.coreAcc c) a 8 false = .ok ⟨.core, phys, 0, none⟩) (hc : Clean s phys 8) :
    s.runLx c (.ld tag addr) = .done ((s.bump .lxBytesLoaded (s.coreIx c) 0 8).deliver c tag (s.load phys 8)) := by
  unfold State.runLx
  dsimp only
  rw [State.scalarAt_local haddr]
  dsimp only
  rw [State.coreRead_core (by decide) hp hc]
  rfl

/-- TDLD's access. -/
theorem State.runLx_tdld (tag : Nat) (haddr : addrForm addr 32 = some (none, a))
    (hp : s.place (s.coreAcc c) a 32 false = .ok ⟨.core, phys, 0, none⟩) (hc : Clean s phys 32) :
    s.runLx c (.tdld tag addr) = .done ((s.bump .lxBytesLoaded (s.coreIx c) 0 32).deliver c tag (s.load phys 32)) := by
  unfold State.runLx
  dsimp only
  rw [State.scalarAt_local haddr]
  dsimp only
  rw [State.coreRead_core (by decide) hp hc]
  rfl

/-- ST's access. -/
theorem State.runLx_st {w : State} (tag : Nat) (val : Word) (haddr : addrForm addr 8 = some (none, a))
    (h : s.coreWrite c a (wordBytes val) = (w, .ok ())) : s.runLx c (.st tag addr val) = .done w := by
  unfold State.runLx
  dsimp only
  rw [State.scalarAt_local haddr]
  dsimp only
  rw [h]
  rfl

/-- TDST's access. -/
theorem State.runLx_tdst {w : State} (tag : Nat) (td : Desc) (haddr : addrForm addr 32 = some (none, a))
    (h : s.coreWrite c a (natBytes 32 td.toNat) = (w, .ok ())) : s.runLx c (.tdst tag addr td) = .done w := by
  unfold State.runLx
  dsimp only
  rw [State.scalarAt_local haddr]
  dsimp only
  rw [h]
  rfl

/-- ATOM's access. -/
theorem State.runLx_atom {w : State} {old : Word} (tag : Nat) (op : AtomOp) (val cmp : Word) (nr : Bool)
    (haddr : addrForm addr 8 = some (none, a))
    (h : s.atomMem (s.coreAcc c) (some (.core c, (s.core c).seg)) op nr a val cmp = (w, .ok old)) :
    s.runLx c (.atom tag op addr val cmp nr) = .done (w.deliver c tag (wordBytes old)) := by
  unfold State.runLx
  dsimp only
  rw [State.scalarAt_local haddr]
  dsimp only
  rw [h]
  rfl

/-- A core's write of bytes to a clean range of the core store is done at once, and counts. -/
theorem State.coreWrite_core {bs : List Byte} (hbs : bs ≠ [])
    (hp : s.place (s.coreAcc c) a bs.length true = .ok ⟨.core, phys, 0, none⟩) (hc : Clean s phys bs.length) :
    s.coreWrite c a bs
      = ((s.putBytes ⟨.core, phys, 0, none⟩ bs).bump .lxBytesStored (s.coreIx c) 0 bs.length, .ok ()) := by
  unfold State.coreWrite State.writeMem
  rw [if_neg (by simpa using hbs), hp]
  simp only [narrowPoison_of_clean hc, Bool.false_eq_true, if_false, show ¬ (0 : Nat) = 2 by decide]
  rw [State.keepBefore_core rfl, State.countWrite_core rfl]

/-- A core's write to a clean range of STATE memory enters its domain's journal, where a page is left, and counts. -/
theorem State.coreWrite_state {bs : List Byte} {p : Place} (hbs : bs ≠ []) (hp : s.place (s.coreAcc c) a bs.length true = .ok p)
    (hcls : p.cls = 2) (hc : Clean s p.phys bs.length) (hj : ∀ m, (s.dom m).journal = []) (hlen : bs.length ≤ 4096) :
    s.coreWrite c a bs
      = (((s.countWrite (s.coreAcc c) p bs.length).updDom ((s.partOf c).getD 0) (fun d => { d with
          journal := d.journal ++ [⟨p.phys, .store bs, 0, .core c, (s.core c).seg, c.die⟩] })).bump
          .lxBytesStored (s.coreIx c) 0 bs.length, .ok ()) := by
  unfold State.coreWrite State.writeMem
  rw [if_neg (by simpa using hbs), hp]
  simp only [narrowPoison_of_clean hc, Bool.false_eq_true, if_false, hcls, if_true]
  rw [State.journal_first (fun m => ((State.countWrite_leaves s _ p _).2.2 m).trans (hj m)) (by exact hlen)]
  rfl

/-- An atomic on a clean word of the core store answers the old word and stores the new one. -/
theorem State.atomMem_core {src : Source × Nat} {acc : Accessor} (op : AtomOp) (val cmp : Word)
    (hp : s.place acc a 8 true = .ok ⟨.core, phys, 0, none⟩) (hc : Clean s phys 8) :
    s.atomMem acc (some src) op false a val cmp
      = (s.putBytes ⟨.core, phys, 0, none⟩ (wordBytes (atomNew op (wordAt s phys) val cmp)), .ok (wordAt s phys)) := by
  have hread := State.startRead_core rfl (State.place_core_read hp) hc rfl
  unfold State.atomMem
  rw [hp]
  simp only [show ¬ (0 : Nat) = 2 by decide, decide_false, hread, Option.isSome_some, if_true]
  rw [State.keepBefore_core rfl, State.countWrite_core rfl]
  rfl

end

/-! ## An access in the step of its issue (R214, R220) -/

/-- What a core accesses as does not turn on what is under way there. -/
theorem State.coreAcc_setCore {s : State} {c : CoreId} {x : Core} (h : x.seg = (s.core c).seg) :
    (s.setCore c x).coreAcc c = s.coreAcc c := by
  unfold State.coreAcc
  rw [State.core_setCore_self, h]
  rfl

section
variable {s : State} {c : CoreId} {n : Part} {g : BitVec 4} {reads : List Dest} {addr : Word} {align : Nat}
  {p : Option ModIx × Nat} (hq : QuietStations s c n) (hloops : (s.core c).loops = []) (hi : Issues s c g reads false)
  (ha : addrForm addr align = some p)
include hq hloops hi ha

/-- A command of LX without a result is done in the step of its issue. -/
theorem State.toLx_done {k : StCmd} {w : State} (hk : ∀ td a t, k ≠ .walk td a t)
    (hrun : (s.setCore c ((s.core c).given k)).runLx c k = .done w) (hw : Aside (s.setCore c ((s.core c).given k)) w) :
    toLx c k [addrCheck addr align] s = w.setCore c { s.core c with lxq := [], pc := (s.core c).pc + 1 } := by
  have hrest := atRest_of_quiet hq
  obtain ⟨hwait, hkilled⟩ := idle_of_issues hi
  have honly := Core.given_hasOnly hrest hwait hkilled hloops k
  have hlen : Core.lxLength (s.core c) < 8 := by
    rw [Core.lxLength, hrest.lxq]
    decide
  obtain ⟨hpart, _, _, _, _, _, _, _, hwaiters, hsyncs⟩ := hq
  refine (enqueue_ready (firstCode_addrCheck ha) hlen).trans ?_
  exact State.thenNext_lx (put := fun x => x.given k) hpart hwaiters hsyncs honly hk hrun
    (y := (s.core c).given k) ((hw.core c).trans (State.core_setCore_self _ _ _)) honly hw (fun _ => rfl)

/-- A command of LX with a late result is done, and its result there, in the step of its issue (R212). -/
theorem State.toLxLate_done {d : Dest} {k : Nat → StCmd} {w : State} {bs : List Byte} (hk : ∀ tag td a t, k tag ≠ .walk td a t)
    (hrun : (s.setCore c (((s.core c).addLate d).given (k (s.core c).nextTag))).runLx c (k (s.core c).nextTag)
      = .done (w.deliver c (s.core c).nextTag bs))
    (hw : Aside (s.setCore c (((s.core c).addLate d).given (k (s.core c).nextTag))) w) :
    let y := (((s.core c).addLate d).given (k (s.core c).nextTag)).deliver (s.core c).nextTag bs
    toLxLate c d k [addrCheck addr align] s = w.setCore c { y with lxq := [], pc := y.pc + 1 } := by
  intro y
  have hrest := atRest_of_quiet hq
  obtain ⟨hwait, hkilled⟩ := idle_of_issues hi
  have hlen : Core.lxLength (s.core c) < 8 := by
    rw [Core.lxLength, hrest.lxq]
    decide
  have hcore := (hw.core c).trans (State.core_setCore_self s c _)
  have hgiven := Core.given_hasOnly (Core.addLate_atRest hrest d) hwait hkilled hloops (k (s.core c).nextTag)
  obtain ⟨hpart, _, _, _, _, _, _, _, hwaiters, hsyncs⟩ := hq
  refine (enqueue_ready (firstCode_addrCheck ha) hlen).trans ?_
  have hcore' : (w.deliver c (s.core c).nextTag bs).core c = y := by
    rw [show y = (w.core c).deliver (s.core c).nextTag bs by rw [hcore]]
    exact State.core_setCore_self _ _ _
  exact State.thenNext_lx (put := fun x => { (x.addLate d) with lxq := x.lxq ++ [k (s.core c).nextTag] }) hpart hwaiters hsyncs
    hgiven (hk _) hrun hcore' (hgiven.deliver _ _) hw (fun _ => State.setCore_setCore _ _ _ _)

end

/-! ## LD, TDLD, ST, TDST and ATOM -/

section
variable {s : State} {c : CoreId} {n : Part} {phys a : Nat} (hq : QuietStations s c n) (hloops : (s.core c).loops = [])
include hq hloops

/-- LD reads the word at its address. -/
theorem exec_ld {f : FmtI} (hlate : (s.core c).late = []) (hi : Issues s c f.guard [.s f.a] false)
    (ha : addrForm ((s.core c).rdS f.a + f.imm.signExtend 64) 8 = some (none, a))
    (hp : s.place (s.coreAcc c) a 8 false = .ok ⟨.core, phys, 0, none⟩) (hc : Clean s phys 8) :
    ∃ t, exec (.ld c f) s = .next t ∧ (t.core c).rdS f.d = (if f.d = 0 then 0 else wordAt s phys)
      ∧ (∀ r, r ≠ f.d → (t.core c).rdS r = (s.core c).rdS r) ∧ (t.core c).p = (s.core c).p ∧ (t.core c).td = (s.core c).td
      ∧ (t.core c).late = [] ∧ (t.core c).pc = (s.core c).pc + 1 ∧ t.mem = s.mem ∧ t.doms = s.doms := by
  let tag := (s.core c).nextTag
  let k (tag : Nat) : StCmd := .ld tag ((s.core c).rdS f.a + f.imm.signExtend 64)
  let u := s.setCore c (((s.core c).addLate (.s f.d)).given (k tag))
  have hacc : u.coreAcc c = s.coreAcc c := State.coreAcc_setCore rfl
  have hrun := State.runLx_ld (s := u) tag ha (by rw [hacc]; exact hp) hc
  obtain ⟨hd, hr, hpred, htd, hlate', hpc⟩ := Core.rdS_loaded hlate (k tag) f.d (s.load phys 8)
  refine ⟨_, exec_next (show execLd c f s = lift _ s from rfl)
    ((issue1_runs hi rfl _).trans (State.toLxLate_done (k := k) hq hloops hi ha (fun _ _ _ _ => nofun) hrun
      (Aside.bump u (by decide) _ _ _))) rfl, ?_⟩
  rw [State.core_setCore_self]
  exact ⟨hd, hr, hpred, htd, hlate', congrArg (· + 1) hpc, rfl, rfl⟩

/-- TDLD reads the descriptor at its address. -/
theorem exec_tdld {f : FmtI} (hlate : (s.core c).late = []) (hi : Issues s c f.guard [.s f.a] false)
    (ha : addrForm ((s.core c).rdS f.a + f.imm.signExtend 64) 32 = some (none, a))
    (hp : s.place (s.coreAcc c) a 32 false = .ok ⟨.core, phys, 0, none⟩) (hc : Clean s phys 32) :
    ∃ t, exec (.tdld c f) s = .next t ∧ (t.core c).rdTd f.d = BitVec.ofNat 256 (s.loadN phys 32)
      ∧ (∀ r, r ≠ f.d → (t.core c).rdTd r = (s.core c).rdTd r) ∧ (t.core c).s = (s.core c).s ∧ t.mem = s.mem
      ∧ (t.core c).pc = (s.core c).pc + 1 := by
  let k (tag : Nat) : StCmd := .tdld tag ((s.core c).rdS f.a + f.imm.signExtend 64)
  let u := s.setCore c (((s.core c).addLate (.td f.d)).given (k (s.core c).nextTag))
  have hacc : u.coreAcc c = s.coreAcc c := State.coreAcc_setCore rfl
  have hrun := State.runLx_tdld (s := u) (s.core c).nextTag ha (by rw [hacc]; exact hp) hc
  obtain ⟨hd, hr, hs, hpc⟩ := Core.rdTd_loaded hlate (k (s.core c).nextTag) f.d (s.load phys 32)
  refine ⟨_, exec_next (show execTdld c f s = lift _ s from rfl)
    ((issue1_runs hi rfl _).trans (State.toLxLate_done (k := k) hq hloops hi ha (fun _ _ _ _ => nofun) hrun
      (Aside.bump u (by decide) _ _ _))) rfl, ?_⟩
  rw [State.core_setCore_self]
  exact ⟨hd, hr, hs, rfl, congrArg (· + 1) hpc⟩

/-- ST does its write in the step of its issue. -/
theorem exec_st {f : FmtI} {w : State} (hi : Issues s c f.guard [.s f.a, .s f.d] false)
    (ha : addrForm ((s.core c).rdS f.a + f.imm.signExtend 64) 8 = some (none, a))
    (hwrite : let u := s.setCore c ((s.core c).given (.st 0 ((s.core c).rdS f.a + f.imm.signExtend 64) ((s.core c).rdS f.d)))
      u.coreWrite c a (wordBytes ((s.core c).rdS f.d)) = (w, .ok ()) ∧ Aside u w) :
    exec (.st c f) s = .next (w.setCore c { s.core c with lxq := [], pc := (s.core c).pc + 1 }) := by
  obtain ⟨hw, haside⟩ := hwrite
  exact exec_next (show execSt c f s = lift _ s from rfl)
    ((issue1_runs hi rfl _).trans (State.toLx_done hq hloops hi ha (fun _ _ _ => nofun) (State.runLx_st 0 _ ha hw) haside))
    haside.pending

/-- TDST does its write in the step of its issue. -/
theorem exec_tdst {f : FmtI} {w : State} (hi : Issues s c f.guard [.s f.a, .td f.d] false)
    (ha : addrForm ((s.core c).rdS f.a + f.imm.signExtend 64) 32 = some (none, a))
    (hwrite : let u := s.setCore c ((s.core c).given (.tdst 0 ((s.core c).rdS f.a + f.imm.signExtend 64) ((s.core c).rdTd f.d)))
      u.coreWrite c a (natBytes 32 ((s.core c).rdTd f.d).toNat) = (w, .ok ()) ∧ Aside u w) :
    exec (.tdst c f) s = .next (w.setCore c { s.core c with lxq := [], pc := (s.core c).pc + 1 }) := by
  obtain ⟨hw, haside⟩ := hwrite
  exact exec_next (show execTdst c f s = lift _ s from rfl)
    ((issue1_runs hi rfl _).trans (State.toLx_done hq hloops hi ha (fun _ _ _ => nofun) (State.runLx_tdst 0 _ ha hw) haside))
    haside.pending

end

section
variable {s : State} {c : CoreId} {a : Nat} {bs : List Byte} (k : StCmd) (hbs : bs ≠ [])
include hbs

/-- A write to the core store by a command that its core was given. -/
theorem State.given_coreWrite_core {phys : Nat} (hp : s.place (s.coreAcc c) a bs.length true = .ok ⟨.core, phys, 0, none⟩)
    (hc : Clean s phys bs.length) :
    let u := s.setCore c ((s.core c).given k)
    ∃ w, u.coreWrite c a bs = (w, .ok ()) ∧ Aside u w ∧ w.mem = s.mem.writeBytes phys bs := by
  intro u
  have hacc : u.coreAcc c = s.coreAcc c := State.coreAcc_setCore rfl
  exact ⟨_, State.coreWrite_core hbs (by rw [hacc]; exact hp) hc,
    (State.putBytes_aside u _ bs).trans (Aside.bump _ (by decide) _ _ _), State.putBytes_mem u _ bs⟩

/-- A write to STATE memory by a command that its core was given. -/
theorem State.given_coreWrite_state {p : Place} {n : Part} (hn : s.partOf c = some n)
    (hp : s.place (s.coreAcc c) a bs.length true = .ok p) (hcls : p.cls = 2)
    (hc : Clean s p.phys bs.length) (hj : ∀ m, (s.dom m).journal = []) (hlen : bs.length ≤ 4096) :
    let u := s.setCore c ((s.core c).given k)
    ∃ w, u.coreWrite c a bs = (w, .ok ()) ∧ Aside u w ∧ w.mem = s.mem
      ∧ (w.dom n).journal = (s.dom n).journal ++ [⟨p.phys, .store bs, 0, .core c, (s.core c).seg, c.die⟩] := by
  intro u
  have hacc : u.coreAcc c = s.coreAcc c := State.coreAcc_setCore rfl
  have hseg : (u.core c).seg = (s.core c).seg := by
    rw [show u.core c = (s.core c).given k from State.core_setCore_self _ _ _]
    rfl
  have hpart : (u.partOf c).getD 0 = n := by
    rw [show u.partOf c = some n from hn]
    rfl
  obtain ⟨haside, hmem, hjournal⟩ := State.countWrite_leaves u (u.coreAcc c) p bs.length
  have hwrite := State.coreWrite_state hbs (s := u) (by rw [hacc]; exact hp) hcls hc hj hlen
  rw [hseg, hpart] at hwrite
  refine ⟨_, hwrite, (haside.trans (Aside.setDom _ _ _)).trans (Aside.bump _ (by decide) _ _ _), hmem, ?_⟩
  rw [show ∀ x : State, (x.bump .lxBytesStored (u.coreIx c) 0 bs.length).dom n = x.dom n from fun _ => rfl,
    State.dom_updDom_self, hjournal n]
  rfl

end

/-- Memory after a write reads as what was written. -/
theorem wordAt_of_write {s t : State} {phys : Nat} {v : Word} (h : t.mem = s.mem.writeBytes phys (wordBytes v)) :
    wordAt t phys = v := by
  unfold wordAt State.load
  rw [h, show 8 = (wordBytes v).length from rfl, Memory.readBytes_writeBytes, bytesWord_wordBytes]

/-- Memory after a write is the same elsewhere. -/
theorem sameBut_of_write {s t : State} {phys : Nat} {bs : List Byte} (h : t.mem = s.mem.writeBytes phys bs) :
    sameBut s t phys bs.length := by
  intro b hb
  rw [h, Memory.read_writeBytes, if_neg (by omega)]

/-- ATOM answers the word at its address and stores the new one there. -/
theorem exec_atom {s : State} {c : CoreId} {n : Part} {phys a : Nat} {f : FmtR} {op : AtomOp} (hq : QuietStations s c n)
    (hloops : (s.core c).loops = []) (hlate : (s.core c).late = []) (hi : Issues s c f.guard [.s f.a, .s f.b, .s f.c] false)
    (hop : atomOf f.fn = some op) (hx : f.x = 0) (ha : addrForm ((s.core c).rdS f.a) 8 = some (none, a))
    (hp : s.place (s.coreAcc c) a 8 true = .ok ⟨.core, phys, 0, none⟩) (hc : Clean s phys 8) :
    ∃ t, exec (.atom c f) s = .next t ∧ (t.core c).rdS f.d = (if f.d = 0 then 0 else wordAt s phys)
      ∧ (∀ r, r ≠ f.d → (t.core c).rdS r = (s.core c).rdS r)
      ∧ t.mem = s.mem.writeBytes phys (wordBytes (atomNew op (wordAt s phys) ((s.core c).rdS f.b) ((s.core c).rdS f.c)))
      ∧ (t.core c).pc = (s.core c).pc + 1 := by
  let k (tag : Nat) : StCmd := .atom tag op ((s.core c).rdS f.a) ((s.core c).rdS f.b) ((s.core c).rdS f.c) false
  let u := s.setCore c (((s.core c).addLate (.s f.d)).given (k (s.core c).nextTag))
  have hacc : u.coreAcc c = s.coreAcc c := State.coreAcc_setCore rfl
  have hrun := State.runLx_atom (s := u) (s.core c).nextTag op ((s.core c).rdS f.b) ((s.core c).rdS f.c) false ha
    (State.atomMem_core op _ _ (by rw [hacc]; exact hp) hc)
  have haside := State.putBytes_aside u ⟨.core, phys, 0, none⟩
    (wordBytes (atomNew op (wordAt u phys) ((s.core c).rdS f.b) ((s.core c).rdS f.c)))
  obtain ⟨hd, hr, _, _, _, hpc⟩ := Core.rdS_loaded hlate (k (s.core c).nextTag) f.d (wordBytes (wordAt s phys))
  have hissue : execAtom c f s
      = lift (fun t => toLxLate c (.s f.d) k [addrCheck ((s.core c).rdS f.a) 8] t) s := by
    refine lift_congr ((issue1_runs hi (by rw [hop, hx]; rfl) _).trans ?_)
    dsimp only
    rw [hop, hx]
    rfl
  refine ⟨_, exec_next (show exec (.atom c f) s = lift _ s from hissue)
    (State.toLxLate_done (k := k) hq hloops hi ha (fun _ _ _ _ => nofun) hrun haside) haside.pending, ?_⟩
  rw [State.core_setCore_self]
  rw [bytesWord_wordBytes] at hd
  exact ⟨hd, hr, State.putBytes_mem u _ _, congrArg (· + 1) hpc⟩

/-- Settles O17: each access, in the step of its issue. -/
theorem localAccesses : Obligations.LocalAccesses := by
  intro c n s phys hq _ hloops hlate
  have hn : s.partOf c = some n := hq.1
  refine ⟨fun f hi a ha => ⟨fun hp hc => ?_, fun hp hc => ?_, fun p hp hcls hc hj => ?_⟩,
    fun f hi a ha => ⟨fun hp hc => ?_, fun hp hc => ?_⟩, fun f hi hx a ha hp hc new hnew => ?_⟩
  · exact exec_ld hq hloops hlate (issues_mono hi (by simp)) ha hp hc
  · obtain ⟨w, hw, haside, hmem⟩ := State.given_coreWrite_core (s := s) (c := c) (bs := wordBytes ((s.core c).rdS f.d)) _
      (List.ne_nil_of_length_eq_add_one rfl) hp hc
    refine ⟨_, exec_st hq hloops hi ha ⟨hw, haside⟩, wordAt_of_write hmem, sameBut_of_write hmem, ?_⟩
    rw [State.core_setCore_self]
    exact ⟨rfl, rfl, rfl, rfl⟩
  · obtain ⟨w, hw, haside, hmem, hjournal⟩ := State.given_coreWrite_state (bs := wordBytes ((s.core c).rdS f.d)) _
      (List.ne_nil_of_length_eq_add_one rfl) hn hp hcls hc hj (by simp)
    refine ⟨_, exec_st hq hloops hi ha ⟨hw, haside⟩, hmem, ?_⟩
    rw [State.core_setCore_self]
    exact ⟨rfl, hjournal, rfl⟩
  · exact exec_tdld hq hloops hlate (issues_mono hi (by simp)) ha hp hc
  · obtain ⟨w, hw, haside, hmem⟩ := State.given_coreWrite_core (s := s) (c := c)
      (bs := natBytes 32 ((s.core c).rdTd f.d).toNat) _ (List.ne_nil_of_length_eq_add_one rfl) hp hc
    refine ⟨_, exec_tdst hq hloops hi ha ⟨hw, haside⟩, ?_, sameBut_of_write hmem, ?_⟩
    · show bytesNat (w.mem.readBytes phys 32) = _
      have hread := Memory.readBytes_writeBytes s.mem phys (natBytes 32 ((s.core c).rdTd f.d).toNat)
      rw [natBytes_length] at hread
      rw [hmem, hread, bytesNat_natBytes]
      exact Nat.mod_eq_of_lt ((s.core c).rdTd f.d).isLt
    · rw [State.core_setCore_self]
      exact ⟨rfl, rfl, rfl⟩
  · have hop : ∃ op, atomOf f.fn = some op
        ∧ new = atomNew op (wordAt s phys) ((s.core c).rdS f.b) ((s.core c).rdS f.c) := by
      obtain ⟨hfn, h⟩ | ⟨hfn, h⟩ | ⟨hfn, h⟩ | ⟨hfn, h⟩ := hnew
      · exact ⟨.add, by rw [hfn]; rfl, h⟩
      · refine ⟨.max, by rw [hfn]; rfl, h.trans ?_⟩
        simp only [atomNew, BitVec.slt_iff_toInt_lt]
      · exact ⟨.cas, by rw [hfn]; rfl, h⟩
      · exact ⟨.swap, by rw [hfn]; rfl, h⟩
    obtain ⟨op, hop, rfl⟩ := hop
    obtain ⟨t, ht, hd, hr, hmem, hpc⟩ := exec_atom hq hloops hlate hi hop hx ha hp hc
    exact ⟨t, ht, hd, hr, wordAt_of_write hmem, sameBut_of_write hmem, hpc⟩

end Sys2Proof.Machine
end

section
/-! # Whether domains are enabled, and their states

Support for the statements about enabling and disabling: what the changes, the slot moves and the commands that a disabling sets
off leave of the domains (R39, R354, R499, R570, R586, R589). -/

namespace Sys2Proof.Machine

open Sys2Proof.Claims

/-- No domain is enabled or disabled, and none changes its state. -/
structure DomsStay (s t : State) : Prop where
  ctrl : ∀ m, t.reg .cadDomCtrl 0 m = s.reg .cadDomCtrl 0 m
  state : ∀ m, (t.dom m).state = (s.dom m).state

namespace DomsStay

/-- What leaves the registers and the domains leaves their states. -/
theorem of {s t : State} (hr : t.regs = s.regs) (hd : t.doms = s.doms) : DomsStay s t := by
  refine ⟨fun m => ?_, fun m => ?_⟩
  · unfold State.reg State.raw
    rw [hr]
  · unfold State.dom
    rw [hd]

theorem refl (s : State) : DomsStay s s := of rfl rfl

theorem trans {s t u : State} (h : DomsStay s t) (h' : DomsStay t u) : DomsStay s u :=
  ⟨fun m => (h'.ctrl m).trans (h.ctrl m), fun m => (h'.state m).trans (h.state m)⟩

/-- A change that leaves the registers and the domains may come first. -/
theorem onto {s t u : State} (h : DomsStay t u) (hr : t.regs = s.regs := by rfl) (hd : t.doms = s.doms := by rfl) :
    DomsStay s u := (of hr hd).trans h

theorem setReg (s : State) (r : Reg) (i j : Nat) (v : Word) (hr : r ≠ .cadDomCtrl := by decide) :
    DomsStay s (s.setReg r i j v) :=
  ⟨fun m => State.reg_setReg_ne s hr i j 0 m v, fun _ => rfl⟩

theorem bump (s : State) (r : Reg) (i j k : Nat) (hr : r ≠ .cadDomCtrl := by decide) : DomsStay s (s.bump r i j k) :=
  setReg s r i j _ hr

theorem ofEvent {s t : State} (h : EventOnly s t) : DomsStay s t :=
  ⟨fun m => h.reg (by decide) 0 m, fun m => by unfold State.dom; rw [h.doms]⟩

theorem ofWire {s t : State} (h : WireOnly s t) : DomsStay s t :=
  ⟨fun m => h.reg (by decide) 0 m, fun m => by rw [h.dom m]⟩

theorem foldl {α : Type} {f : State → α → State} (h : ∀ t x, DomsStay t (f t x)) (l : List α) (s : State) :
    DomsStay s (l.foldl f s) := by
  induction l generalizing s with
  | nil => exact refl s
  | cons x l ih => exact (h s x).trans (ih _)

theorem enabled {s t : State} (h : DomsStay s t) (n : Part) : t.enabled n = s.enabled n := by
  unfold State.enabled
  rw [h.ctrl]

end DomsStay

/-! ## Events and completions (R442, R451) -/

theorem partEvent_domsStay (s : State) (n : Part) (code : Code) (d : List Byte) : DomsStay s (s.partEvent n code d) :=
  .ofEvent (eventOn_eventOnly _ _ _ _ _ _)

theorem domReport_domsStay (s : State) (n : Part) (code : Code) (d : List Byte) : DomsStay s (s.domReport n code d) :=
  (DomsStay.setReg s _ _ _ _).trans (partEvent_domsStay _ _ _ _)

theorem mgmtReport_domsStay (s : State) (r : Reg) (code : Code) (d : List Byte) (hr : r ≠ .cadDomCtrl := by decide) :
    DomsStay s (s.mgmtReport r code d) :=
  (DomsStay.setReg s r _ _ _ hr).trans (.ofEvent (mgmtReport_eventOnly _ _ _ _))

/-- The code registers of the ranges are none of a domain's. -/
theorem codeReg_ne_ctrl {c : Code} {r : Reg} (h : codeReg c = some r) : r ≠ .cadDomCtrl := by
  rintro rfl
  unfold codeReg at h
  split at h <;> cases h

theorem lastCode_domsStay (s : State) (c : Code) : DomsStay s (s.lastCode c) := by
  unfold State.lastCode
  split
  · exact .refl s
  · next r hr => exact .setReg s r _ _ _ (codeReg_ne_ctrl hr)

theorem pumpSession_domsStay (n k : Nat) (s : State) : DomsStay s (pumpSession n k s) := by
  induction k generalizing s with
  | zero => exact .refl s
  | succ k ih =>
    unfold pumpSession
    split
    · exact .refl s
    · split
      · exact .refl s
      · dsimp only
        split
        · exact .refl s
        · exact .trans (.onto (.bump (State.send (s.setSession n _) _) .hpTxFrames 0 0 1)) (ih _)

theorem sessionSend_domsStay (s : State) (n : Nat) (ps : List (BrosinType × List Byte)) : DomsStay s (s.sessionSend n ps) := by
  unfold State.sessionSend
  split
  · exact .refl s
  · exact .onto (pumpSession_domsStay _ _ _)

theorem complete_domsStay (s : State) (cmd : Code) (f : Frame) (status : Code) (body : List Byte) :
    DomsStay s (s.complete cmd f status body) := by
  have hpop : DomsStay s (s.popCmd cmd f) := by
    unfold State.popCmd
    split
    · exact .refl s
    · exact .of rfl rfl
  have hcode := hpop.trans (lastCode_domsStay (s.popCmd cmd f) status)
  unfold State.complete State.answerCmd
  dsimp only
  split
  · exact hcode
  · have hsent (bs : List (BrosinType × List Byte)) := hcode.trans (.onto
      (sessionSend_domsStay (((s.popCmd cmd f).lastCode status).send (.completion f.session cmd f.cmdId status body))
        f.session bs))
    split
    · exact (hsent _).trans (.bump _ _ _ _ _)
    · exact hsent _

theorem completeFwd_domsStay (s : State) (h : HostCmd) (status : Code) (body : List Byte) :
    DomsStay s (s.completeFwd h status body) := by
  unfold State.completeFwd
  split
  · exact complete_domsStay _ _ _ _ _
  · exact .refl s

/-! ## Changes to the slot table (R354, R357, R367, R373) -/

theorem setVer_domsStay (s : State) (n : Part) (i : Fin 8) (v : Version) : DomsStay s (s.setVer n i v) := .of rfl rfl

theorem freeVer_domsStay (s : State) (n : Part) (i : Fin 8) (number : Code) : DomsStay s (s.freeVer n i number) :=
  .onto (DomsStay.foldl (fun t d => DomsStay.of (t := t.setPn d _) rfl rfl) _ _)

theorem putBytes_domsStay (s : State) (p : Place) (bs : List Byte) : DomsStay s (s.putBytes p bs) := by
  have hctrl (m : Nat) := State.pnInvalidate_keeps (fun t => State.reg t .cadDomCtrl 0 m)
    (fun t d l k => State.reg_setReg_ne (t.setPn d l) (r := .pnInvalidations) (by decide) _ _ _ _ _) s p.phys bs.length
  exact ⟨hctrl, fun m => congrArg Domain.state (State.pnInvalidate_keeps (fun t => State.dom t m) (fun _ _ _ _ => rfl) s _ _)⟩

theorem cutEntries_domsStay (s : State) (n : Part) (number : Code) : DomsStay s (s.cutEntries n number) := by
  have hcut (t : State) (e : Nat) (d : Fin 8) : DomsStay t (State.cutDie n e t d) := by
    unfold State.cutDie
    dsimp only
    split
    · exact .refl t
    · exact .of rfl rfl
  have hput (t : State) (e : Nat) (x : Entry) : DomsStay t (t.putEntry e x) := by
    have hset : DomsStay t (t.setEntry e x) := .of rfl rfl
    unfold State.putEntry State.tableWrite
    extract_lets a
    refine hset.trans ?_
    generalize x.bytes = bs
    split
    · exact lastCode_domsStay _ _
    · exact putBytes_domsStay _ _ _
  unfold State.cutEntries
  extract_lets hit
  refine DomsStay.foldl (fun t p => ?_) _ _
  exact (hput t _ _).trans (DomsStay.foldl (fun u d => hcut u p.1 d) _ _)

theorem applyLoad_domsStay (s : State) (h : HostCmd) (number : Code) : DomsStay s (s.applyLoad h number) := by
  unfold State.applyLoad
  extract_lets n s1
  have h1 : DomsStay s s1 := .of rfl rfl
  split
  · exact .refl s
  · extract_lets v fs
    split
    · exact h1.trans (completeFwd_domsStay _ _ _ _)
    · split
      · exact h1.trans (completeFwd_domsStay _ _ _ _)
      · exact (h1.trans (setVer_domsStay _ _ _ _)).trans (completeFwd_domsStay _ _ _ _)

theorem applyActivate_domsStay (s : State) (h : HostCmd) (number : Code) (policy : Nat) :
    DomsStay s (s.applyActivate h number policy) := by
  unfold State.applyActivate
  dsimp only
  split
  · exact completeFwd_domsStay _ _ _ _
  · next i v hslot =>
    split
    · exact completeFwd_domsStay _ _ _ _
    · exact completeFwd_domsStay _ _ _ _
    · exact completeFwd_domsStay _ _ _ _
    · refine .trans ?_ (completeFwd_domsStay _ _ _ _)
      have hcut {t : State} (ht : DomsStay s t) : DomsStay s (if policy = 1 then t.cutEntries h.part number else t) := by
        split
        · exact ht.trans (cutEntries_domsStay _ _ _)
        · exact ht
      have hold {t : State} (ht : DomsStay s t) : DomsStay s (t.setVer h.part i { v with state := .active }) :=
        ht.trans (setVer_domsStay _ _ _ _)
      split
      · refine .trans (hcut (hold ?_)) (.of rfl rfl)
        split
        · exact .refl s
        · exact setVer_domsStay _ _ _ _
      · refine .trans (hcut (hold ?_)) (partEvent_domsStay _ _ _ _)
        split
        · exact .refl s
        · exact setVer_domsStay _ _ _ _

theorem applyDrop_domsStay (s : State) (h : HostCmd) (number : Code) : DomsStay s (s.applyDrop h number) := by
  unfold State.applyDrop
  split
  · exact completeFwd_domsStay _ _ _ _
  · split
    · exact completeFwd_domsStay _ _ _ _
    · exact completeFwd_domsStay _ _ _ _
    · refine .trans ?_ (completeFwd_domsStay _ _ _ _)
      split
      · exact freeVer_domsStay _ _ _ _
      · exact setVer_domsStay _ _ _ _

theorem applyVersion_domsStay (s : State) (h : HostCmd) : DomsStay s (s.applyVersion h) := by
  have hready (n : Part) (number : Code) : DomsStay s (s.applyReady n number) := by
    unfold State.applyReady
    split
    · split
      · exact (setVer_domsStay _ _ _ _).trans (partEvent_domsStay _ _ _ _)
      · exact .refl s
    · exact .refl s
  have hfailed (n : Part) (number : Code) (shard : Nat) : DomsStay s (s.applyFailed n number shard) := by
    unfold State.applyFailed
    split
    · split
      · exact (setVer_domsStay _ _ _ _).trans (partEvent_domsStay _ _ _ _)
      · exact .refl s
    · exact .refl s
  unfold State.applyVersion
  dsimp only
  split_ifs
  · exact applyLoad_domsStay _ _ _
  · exact applyActivate_domsStay _ _ _ _
  · exact applyDrop_domsStay _ _ _
  · exact hready _ _
  · exact hfailed _ _ _

theorem onMgmt_wireOnly (s : State) (n : Part) (dsts : List ModIx) (bs : List Byte) : WireOnly s (s.onMgmt n dsts bs) := by
  unfold State.onMgmt
  dsimp only
  split
  · exact .refl s
  · exact onWire_wireOnly _ _ _ _

/-- What a management message leaves (R415). -/
theorem sendMgmt_wireOnly (s : State) (t : MgmtType) (dsts : List ModIx) (m : Mgmt) (data : List Word) :
    WireOnly s (s.sendMgmt t dsts m data) := by
  unfold State.sendMgmt
  split
  · exact .refl s
  · exact (WireOnly.ofLink (LinkOnly.send _ _)).trans (onMgmt_wireOnly _ _ _ _)

theorem sendIntake_wireOnly (s : State) (n : Part) (m : Mgmt) (cmds : List HostCmd) : WireOnly s (s.sendIntake n m cmds) := by
  unfold State.sendIntake
  dsimp only
  split
  · exact .refl s
  · exact (WireOnly.ofLink (LinkOnly.send _ _)).trans (onMgmt_wireOnly _ _ _ _)

/-- The changes to the slot table that waited are applied. -/
theorem flushVersions_domsStay (s : State) (n : Part) : DomsStay s (s.flushVersions n) := by
  unfold State.flushVersions
  dsimp only
  refine .trans ?_ (DomsStay.foldl applyVersion_domsStay _ _)
  split
  · exact .of rfl rfl
  · exact .onto (.ofWire (sendIntake_wireOnly _ _ _ _))

/-! ## Slot moves (R499 to R507) -/

theorem serve_domsStay (s : State) (i : SiteId) (k : Fin 144) (old : Option SiteId) : DomsStay s (s.serve i k old) := by
  unfold State.serve
  extract_lets x st s1 s2 s3
  have h2 : DomsStay s s2 := by
    unfold s2
    split
    · exact .onto (complete_domsStay _ _ _ _ _)
    · exact .of rfl rfl
  have h3 : DomsStay s s3 := h2.trans (.of rfl rfl)
  split
  · exact h3
  · exact h3.trans (.of rfl rfl)

theorem moveSlot_domsStay (s : State) (i : SiteId) : DomsStay s (s.moveSlot i) := by
  unfold State.moveSlot
  split
  · exact .refl s
  · dsimp only
    split
    · exact .onto (serve_domsStay _ _ _ _)
    · exact .onto (mgmtReport_domsStay _ _ _ _)

theorem quarantine_domsStay (s : State) (i : SiteId) : DomsStay s (s.quarantine i) := by
  unfold State.quarantine
  extract_lets x k s0 s1 retire y home s2 waits _ s3 slotByte s4 s5
  have h3 : DomsStay s s3 := .trans (.onto (moveSlot_domsStay s0 i)) (.of rfl rfl)
  have h4 : DomsStay s3 s4 := by
    unfold s4
    split
    · exact (DomsStay.bump s3 _ _ _ _).trans (mgmtReport_domsStay _ _ _ _)
    · exact (DomsStay.bump s3 _ _ _ _).trans (mgmtReport_domsStay _ _ _ _)
  have h5 : DomsStay s4 s5 := by
    unfold s5
    split
    · exact .of rfl rfl
    · exact .refl s4
  refine ((h3.trans h4).trans h5).trans (.foldl (fun t p => ?_) _ _)
  split
  · exact complete_domsStay _ _ _ _ _
  · exact .refl t

/-- A core reset changes registers of the site's stations alone. -/
theorem coreReset_domsStay (s : State) (i : SiteId) : DomsStay s (s.coreReset i) := by
  refine ⟨fun m => (State.coreReset_raw s i _).trans (if_neg ?_), fun _ => rfl⟩
  unfold RegKey.ofSite
  rw [rk_reg]
  exact Bool.false_ne_true

theorem returnSlot_domsStay (s : State) (i : SiteId) : DomsStay s (s.returnSlot i) := by
  unfold State.returnSlot
  dsimp only
  split
  · exact .of rfl rfl
  · split
    · exact .of rfl rfl
    · split
      · exact .of rfl rfl
      · exact .onto (coreReset_domsStay _ _)

theorem rotate_domsStay (s : State) (i : SiteId) : DomsStay s (s.rotate i) := by
  unfold State.rotate
  dsimp only
  split
  · exact .refl s
  · split
    · exact .of rfl rfl
    · refine .trans ?_ (.bump _ _ _ _ _)
      exact (DomsStay.onto (moveSlot_domsStay _ i)).trans (.of rfl rfl)

theorem derMoves_domsStay (s : State) (mine back : State → SiteId → Bool) : DomsStay s (s.derMoves mine back) := by
  unfold State.derMoves
  dsimp only
  refine .trans (.trans (DomsStay.foldl (fun t p => ?_) _ _) (DomsStay.foldl returnSlot_domsStay _ _))
    (DomsStay.foldl rotate_domsStay _ _)
  split
  · exact quarantine_domsStay _ _
  · exact .refl t

/-! ## Protection changes (R570 to R572) -/

theorem putItem_domsStay (s : State) (i : ChangeItem) : DomsStay s (s.putItem i) := by
  unfold State.putItem
  dsimp only
  split
  · exact .setReg s _ _ _ _
  · exact (DomsStay.setReg s _ _ _ _).trans (.setReg _ _ _ _ _)
  · exact .of rfl rfl
  · exact .of rfl rfl
  · exact .setReg s _ _ _ _
  · exact .of rfl rfl
  · split
    · exact .of rfl rfl
    · exact .of rfl rfl

theorem rekey_domsStay (s old : State) : DomsStay s (s.rekey old) := by
  refine DomsStay.foldl (fun t e => ?_) _ _
  unfold State.recodeRange
  split
  · exact .refl t
  · exact .of rfl rfl

theorem track_domsStay (s : State) (old : Nat) : DomsStay s (s.track old) := by
  unfold State.track
  dsimp only
  split
  · split
    · exact .onto (mgmtReport_domsStay _ _ _ _)
    · exact .refl s
  · split
    · exact .onto (mgmtReport_domsStay _ _ _ _)
    · exact .refl s

theorem recap_domsStay (s : State) : DomsStay s s.recap := by
  unfold State.recap
  extract_lets old c s1 emergency _ s2
  have h2 : DomsStay s1 s2 := by
    unfold s2
    split
    · exact .refl s1
    · exact .onto (mgmtReport_domsStay _ _ _ _)
  exact ((DomsStay.setReg s _ _ _ _).trans h2).trans (track_domsStay _ _)

theorem storeCap_domsStay (s : State) (w : Nat) : DomsStay s (s.storeCap w) := by
  unfold State.storeCap
  dsimp only
  split
  · exact (DomsStay.setReg s _ _ _ _).trans (mgmtReport_domsStay _ _ _ _)
  · exact .setReg s _ _ _ _

theorem secReport_domsStay (s : State) (code : Code) (d : List Byte) : DomsStay s ((s.secCode code).mgmtEvent code d) :=
  mgmtReport_domsStay s .secCode code d

theorem applyItems_domsStay (s : State) (l : List ChangeItem) (f : Frame) : DomsStay s (s.applyItems l f) := by
  have hput : DomsStay s (s.putItems l).derFree := (DomsStay.foldl putItem_domsStay l s).trans (derMoves_domsStay _ _ _)
  unfold State.applyItems
  extract_lets s1 u full _ t1 t2 s2 s3 s4 s5
  have h2 : DomsStay s1 s2 := .onto (rekey_domsStay _ _)
  have h3 : DomsStay s2 s3 := by
    unfold s3
    split
    · exact .refl s2
    · exact secReport_domsStay _ _ _
  have h4 : DomsStay s3 s4 := by
    unfold s4
    split
    · exact .refl s3
    · exact (storeCap_domsStay _ _).trans (recap_domsStay _)
  have h5 : DomsStay s4 s5 := secReport_domsStay _ _ _
  exact (((hput.trans h2).trans h3).trans h4).trans (h5.trans (.onto (complete_domsStay _ _ _ _ _)))

theorem applyChange_domsStay (s : State) (n : Part) : DomsStay s (s.applyChange n) := by
  unfold State.applyChange
  split
  · exact .refl s
  · split
    · exact applyItems_domsStay _ _ _
    · exact .refl s

/-! ## The time base (R28, R31, R586) -/

theorem holdover_domsStay (s : State) : DomsStay s s.holdover := by
  unfold State.holdover
  split
  · exact .refl s
  · exact .onto (DomsStay.foldl (fun t n => domReport_domsStay t n _ _) _ _)

theorem takeRole_domsStay (s : State) : DomsStay s s.takeRole := by
  unfold State.takeRole
  dsimp only
  split
  · exact .of rfl rfl
  · split
    · exact .refl s
    · exact .of rfl rfl

theorem followRoot_domsStay (s : State) : DomsStay s s.followRoot := by
  unfold State.followRoot
  dsimp only
  split
  · split
    · exact .of rfl rfl
    · exact .onto (holdover_domsStay _)
  · split
    · exact .of rfl rfl
    · exact .onto (holdover_domsStay _)

theorem reviewRole_domsStay (s : State) : DomsStay s s.reviewRole := by
  unfold State.reviewRole
  split
  · exact .refl s
  · exact takeRole_domsStay s
  · dsimp only
    split
    · split
      · exact takeRole_domsStay s
      · split
        · exact .refl s
        · exact .onto (mgmtReport_domsStay _ _ _ _)
    · split
      · exact .refl s
      · exact followRoot_domsStay s

theorem reviewAfterDisable_domsStay (s : State) : DomsStay s s.reviewAfterDisable := by
  unfold State.reviewAfterDisable
  split
  · exact (DomsStay.foldl (fun t p => DomsStay.of (t := t.setPort p _) rfl rfl) _ _).trans (reviewRole_domsStay _)
  · exact .refl s

/-! ## A partition's reset (R589) -/

theorem partReset_domsStay (s : State) (n : Part) : DomsStay s (s.partReset n) := by
  unfold State.partReset
  dsimp only
  exact .onto (DomsStay.foldl (fun t p => complete_domsStay _ _ _ _ _) _ _)

end Sys2Proof.Machine
end

section
/-! # Enabling, disabling and starting a domain (R37, R38, R39, R278, R467) -/

namespace Sys2Proof.Machine

open Sys2Proof.Claims

/-- What does not turn on the queue holds after a command where it holds after its operation. -/
theorem exec_keeps {i : Instr} {f : State → State} {s : State} {P : State → Prop} (hx : exec i s = lift f s)
    (hP : ∀ (t : State) (p : List Instr), P t → P { t with pending := p }) (h : P (f s)) : ∃ t, exec i s = .next t ∧ P t :=
  ⟨_, exec_after hx rfl, hP _ _ h⟩

/-! ## Disabling (R39) -/

/-- A domain that is disabled is idle, without its settings' lock. -/
theorem State.disable_idle {s : State} {n : Part} (h : s.enabled n = true) :
    (s.disable n).enabled n = false ∧ ((s.disable n).dom n).state = .idle := by
  unfold State.disable
  rw [if_neg (by simp [h])]
  extract_lets d s1 s2 _ s3 s4 x s5 s6
  have h3 : s3.enabled n = false ∧ (s3.dom n).state = .idle := by
    constructor
    · show (s2.reg .cadDomCtrl 0 n.val).getLsbD 0 = false
      rw [State.reg_setReg_self]
      decide
    · rw [State.dom_updDom_self]
      rfl
  have h5 : DomsStay s3 s5 := .onto (flushVersions_domsStay _ n)
  have h6 : DomsStay s5 s6 := by
    refine .trans (.trans (applyChange_domsStay s5 n) ?_) (reviewAfterDisable_domsStay _)
    exact .onto (.setReg { s5.applyChange n with sv := _ } .svCfgHash 0 0 _)
  have hall {t : State} (ht : DomsStay s6 t) : t.enabled n = false ∧ (t.dom n).state = .idle := by
    have h := (h5.trans h6).trans ht
    exact ⟨(h.enabled n).trans h3.1, (h.state n).trans h3.2⟩
  split
  · exact hall (partReset_domsStay _ _)
  · exact hall (.refl s6)

/-! ## Enabling (R38, R467) -/

namespace WireOnly

variable {s t : State} (h : WireOnly s t)
include h

theorem self : t.self = s.self := by rw [h.frame]; rfl

theorem sliceReg (n : Part) : t.sliceReg n = s.sliceReg n := by
  unfold State.sliceReg
  rw [h.regs _ (by rw [rk_reg]; decide), h.self]

theorem settings (n : Part) : t.settings n = s.settings n := by
  unfold State.settings State.spokes State.margin
  rw [h.sliceReg, h.reg (by decide), h.reg (by decide), h.reg (by decide), h.reg (by decide)]

end WireOnly

/-- The slice of a domain rests on its register. -/
theorem State.sliceReg_setReg (s : State) {r : Reg} (hr : r ≠ .cadDomSlice) (i j : Nat) (v : Word) (n : Part) :
    (s.setReg r i j v).sliceReg n = s.sliceReg n := by
  unfold State.sliceReg
  rw [show Assoc.find (rk .cadDomSlice 0 n.val) (s.setReg r i j v).regs = Assoc.find (rk .cadDomSlice 0 n.val) s.regs from
    Assoc.find_put_ne (fun e => hr (by simpa using congrArg RegKey.reg e)) _ _]
  rfl

/-- When enabling is refused. -/
theorem refusesEnable_eq (a b c d : Bool) : (!a || !b || c || d) = !(a && b && !c && !d) := by
  revert a b c d
  decide

/-- A domain whose only SETTINGS are this module's own finds no difference: what it does is send (R38). -/
theorem State.compareSettings_own {s : State} {n : Part} (h : (s.dom n).tally.settings = [(s.self, s.settings n)]) :
    WireOnly s (s.compareSettings n) := by
  unfold State.compareSettings
  extract_lets d l s1
  have h1 : WireOnly s s1 := by
    unfold s1
    split
    · exact foldl_wireOnly (fun t m => sendMgmt_wireOnly _ _ _ _ _) _ _
    · exact .refl s
  split
  · exact .refl s
  · next hall =>
    rw [if_pos]
    · exact h1
    · simp only [Bool.or_eq_true, Bool.not_eq_true', not_or, Bool.not_eq_false] at hall
      obtain ⟨-, hall⟩ := hall
      rw [List.all_eq_true] at hall ⊢
      intro m hm
      have hfound := hall m hm
      rw [show l = [(s.self, s.settings n)] from h, Assoc.find_cons] at hfound ⊢
      split at hfound
      · next hself => rw [if_pos hself]; simp
      · simp at hfound

/-- A domain that starts: it is at K0, its counts at zero, and nothing else of it has begun. -/
theorem State.enable_starts {s : State} {n : Part} (he : s.enabled n = false)
    (hok : (s.settingsOk n && s.partValid n && !s.silent n && !s.changePends n) = true) (hl : (s.dom n).tally.settings = []) :
    (s.enable n).enabled n = true ∧ ((s.enable n).dom n).state = .starting
      ∧ ((s.enable n).dom n).tick = s.regN .cadDomTick 0 n.val ∧ ((s.enable n).dom n).run = 0
      ∧ ((s.enable n).dom n).master = (s.members n).headD s.self
      ∧ (s.enable n).reg .cadDomRetracts 0 n.val = 0 ∧ (s.enable n).reg .cadDomShift 0 n.val = 0
      ∧ (s.enable n).mem = s.mem := by
  unfold State.enable
  rw [if_neg (by simp [he]), if_neg (by rw [refusesEnable_eq, hok]; decide)]
  extract_lets k0 zero s1 master _ _ s2 _ s3
  have hmaster : master = (s.members n).headD s.self := by
    show (sliceMods (s1.sliceReg n)).headD s.self = _
    simp (disch := decide) only [s1, zero, List.foldl_cons, List.foldl_nil, State.sliceReg_setReg]
    rfl
  have hctrl : s2.enabled n = true := by
    show (s1.reg .cadDomCtrl 0 n.val).getLsbD 0 = true
    simp (disch := decide) only [s1, zero, List.foldl_cons, List.foldl_nil, State.reg_setReg_ne, State.reg_setReg_self]
    decide
  have hretracts : s2.reg .cadDomRetracts 0 n.val = 0 := by
    show s1.reg .cadDomRetracts 0 n.val = 0
    simp (disch := decide) only [s1, zero, List.foldl_cons, List.foldl_nil, State.reg_setReg_ne, State.reg_setReg_self]
  have hshift : s2.reg .cadDomShift 0 n.val = 0 := by
    show s1.reg .cadDomShift 0 n.val = 0
    simp (disch := decide) only [s1, zero, List.foldl_cons, List.foldl_nil, State.reg_setReg_ne, State.reg_setReg_self]
  have hown : (s2.dom n).tally.settings = [(s2.self, s2.settings n)] := by
    rw [State.dom_updDom_self]
    show Assoc.put s1.self (s1.settings n) (s.dom n).tally.settings = _
    rw [hl]
    rfl
  have h : WireOnly s2 (s3.compareSettings n) := by
    have h3 : WireOnly s2 s3 := by
      unfold s3
      split
      · exact .refl s2
      · exact sendMgmt_wireOnly _ _ _ _ _
    refine h3.trans (State.compareSettings_own ?_)
    rw [h3.dom n, h3.self, h3.settings]
    exact hown
  refine ⟨((DomsStay.ofWire h).enabled n).trans hctrl, ?_, ?_, ?_, ?_, (h.reg (by decide) _ _).trans hretracts,
    (h.reg (by decide) _ _).trans hshift, h.mem⟩
  all_goals rw [h.dom n, State.dom_updDom_self]
  · rfl
  · exact hmaster

theorem domainEnable : DomainEnable := by
  intro s n
  refine ⟨fun he => ?_, fun he hbad => ?_, fun he hok hl => ?_, fun he => ?_, fun he => ?_⟩
  · exact exec_stays (show execDomEnable n s = lift _ s from rfl) (if_pos he)
  · refine exec_after (show execDomEnable n s = lift _ s from rfl) ((if_neg (by simp [he])).trans (if_pos ?_))
    rw [refusesEnable_eq, hbad]
    rfl
  · exact exec_keeps (show execDomEnable n s = lift _ s from rfl) (fun _ _ h => h) (State.enable_starts he hok hl)
  · exact exec_stays (show execDomDisable n s = lift _ s from rfl) (if_pos (by simp [he]))
  · exact exec_keeps (show execDomDisable n s = lift _ s from rfl) (fun _ _ h => h) (State.disable_idle he)

/-! ## The first tick (R37, R278) -/

/-- Where a domain is at the start of a tick: it runs, and nothing of the tick has happened. -/
structure Domain.Fresh (d : Domain) : Prop where
  state : d.state = .running
  run : d.run = 0
  voted : d.voted = 0
  passed : d.passed = 0
  journal : d.journal = []
  committed : d.committed = false

/-- What does not turn on the registers, the writes of a fold leave. -/
theorem foldl_setReg_keeps {α β : Type} (g : State → β) (hg : ∀ (t : State) r i j v, g (t.setReg r i j v) = g t) (r : Reg)
    (i j : State → α → Nat) (v : State → α → Word) (l : List α) (s : State) :
    g (l.foldl (fun t a => t.setReg r (i t a) (j t a) (v t a)) s) = g s :=
  foldl_keeps g (fun _ _ => hg _ _ _ _ _) l s

theorem State.mismatched_fresh {s : State} {n : Part} (h : (s.dom n).Fresh) : ((s.mismatched n).dom n).Fresh := by
  have hdies : (((s.partDies n).foldl (fun t d =>
      t.setReg .svFault d.val 0 (faultWord 0x0509 0 (t.dom n).tick)) s).dom n).Fresh := by
    rw [foldl_setReg_keeps (fun t => State.dom t n) (fun _ _ _ _ _ => rfl)]
    exact h
  unfold State.mismatched
  split
  · unfold State.segError
    rw [State.dom_updDom_self]
    exact ⟨hdies.state, hdies.run, hdies.voted, hdies.passed, hdies.journal, hdies.committed⟩
  · exact h

/-- The work of a die at the start of a tick leaves the packets held. -/
theorem State.mismatched_fab (s : State) (n : Part) : (s.mismatched n).fab = s.fab := by
  unfold State.mismatched
  split
  · exact foldl_setReg_keeps State.fab (fun _ _ _ _ _ => rfl) _ _ _ _ _ _
  · rfl

/-- With no packet held there is none to look at. -/
theorem State.releaseHeld_none {s : State} (h : s.fab.held = []) (n : Part) : (s.releaseHeld n).doms = s.doms := by
  unfold State.releaseHeld
  rw [h]
  rfl

/-- With no packet held a tick starts fresh. -/
theorem State.beginTick_fresh {s : State} {n : Part} (h : s.fab.held = []) : ((s.beginTick n).dom n).Fresh := by
  unfold State.beginTick
  extract_lets s1 s1' s2 prog s3
  have hs1 : (s1.dom n).Fresh := by
    rw [State.dom_updDom_self]
    exact ⟨rfl, rfl, rfl, rfl, rfl, rfl⟩
  have hs3 : (s3.dom n).Fresh := by
    have hkept : s1'.dom n = s1.dom n := foldl_setReg_keeps (fun t => State.dom t n) (fun _ _ _ _ _ => rfl) _ _ _ _ _ _
    show (s1'.dom n).Fresh
    rw [hkept]
    exact hs1
  have hheld : s3.fab.held = [] := by
    have hkept : s1'.fab = (s1.dropRun n).fab := foldl_setReg_keeps State.fab (fun _ _ _ _ _ => rfl) _ _ _ _ _ _
    show s1'.fab.held = []
    rw [hkept]
    exact h
  have hm := State.mismatched_fresh hs3
  rwa [← show ((s3.mismatched n).releaseHeld n).dom n = (s3.mismatched n).dom n by
    unfold State.dom
    rw [State.releaseHeld_none (by rw [State.mismatched_fab]; exact hheld)]] at hm

theorem State.startTick_fresh {s : State} {n : Part} (h : s.fab.held = []) : ((s.startTick n).dom n).Fresh := by
  have hb := State.beginTick_fresh (n := n) h
  unfold State.startTick
  extract_lets s1
  split
  · rw [State.dom_updDom_self]
    exact ⟨hb.state, hb.run, hb.voted, hb.passed, hb.journal, hb.committed⟩
  · exact hb

/-- Bytes written leave the fabric. -/
theorem State.putBytes_fab (s : State) (p : Place) (bs : List Byte) : (s.putBytes p bs).fab = s.fab :=
  State.pnInvalidate_keeps State.fab (fun _ _ _ _ => rfl) s _ _

theorem State.putEntry_fab (s : State) (e : Nat) (x : Entry) : (s.putEntry e x).fab = s.fab := by
  unfold State.putEntry State.tableWrite
  extract_lets a
  split
  · unfold State.lastCode
    split <;> rfl
  · exact State.putBytes_fab _ _ _

theorem finaliseSeq_fab (active : Code) (acc : State × List BatchRow) (q : PlanSeq) :
    (finaliseSeq active acc q).1.fab = acc.1.fab := by
  unfold finaliseSeq
  split
  · rfl
  · split
    · rfl
    · dsimp only
      split
      · exact State.putEntry_fab _ _ _
      · rfl

/-- The batch of a tick is made without the fabric. -/
theorem State.finalise_fab (s : State) (n : Part) : (s.finalise n).fab = s.fab := by
  have hseqs (active : Code) (l : List PlanSeq) (acc : State × List BatchRow) :
      (l.foldl (finaliseSeq active) acc).1.fab = acc.1.fab := by
    induction l generalizing acc with
    | nil => rfl
    | cons q l ih => exact (ih _).trans (finaliseSeq_fab _ _ _)
  unfold State.finalise
  split
  · rfl
  · exact hseqs _ _ _

/-- SETTINGS of a member, while the domain is idle, are kept (R38). -/
theorem State.settings_idle {s : State} {m : Mgmt} {d : Settings} (hfirst : s.firstMaster m.dom = s.self)
    (hmod : m.module = m.src.val) (hidle : (s.dom m.dom).state = .idle) :
    ∃ t, exec (.settings m d) s = .next t
      ∧ (t.dom m.dom) = { s.dom m.dom with tally :=
          { (s.dom m.dom).tally with settings := Assoc.put m.src d (s.dom m.dom).tally.settings } }
      ∧ t = s.setDom m.dom (t.dom m.dom) := by
  let u := s.updTally m.dom (fun t => { t with settings := Assoc.put m.src d t.settings })
  have hsrc : (Fin.ofNat 64 m.module : ModIx) = m.src := by
    rw [hmod]
    exact Fin.ext (Nat.mod_eq_of_lt m.src.isLt)
  have hdom : u.dom m.dom = { s.dom m.dom with tally :=
      { (s.dom m.dom).tally with settings := Assoc.put m.src d (s.dom m.dom).tally.settings } } := State.dom_updDom_self _ _ _
  have hcompare : u.compareSettings m.dom = u := by
    unfold State.compareSettings
    exact if_pos (by rw [hdom]; simp [hidle])
  refine ⟨u, exec_next (show execSettings m d s = lift _ s from rfl) (t := u) ?_ rfl, hdom, State.setDom_dom _ _ _⟩
  dsimp only
  rw [if_pos hfirst, if_neg (by simp [hmod, hidle]), hsrc]
  exact hcompare

theorem domainStart : DomainStart := by
  refine ⟨fun s m d hfirst hmod hidle => ?_, fun s n hst hag => ⟨?_, fun hheld => ?_⟩, fun s n h => ?_⟩
  · exact State.settings_idle hfirst hmod hidle
  · exact exec_after (show execTickStart n s = lift _ s from rfl) (if_pos (by simp [hst, hag]))
  · obtain ⟨h1, h2, h3, h4, h5, h6⟩ := State.startTick_fresh (s := s.finalise n) (n := n)
      (by rw [State.finalise_fab]; exact hheld)
    exact ⟨h1, h2, h3, h4, h5, h6⟩
  · refine exec_stays (show execTickStart n s = lift _ s from rfl) (if_neg ?_)
    rcases h with h | h <;> simp [h]

/-- Settles O26: how a domain is enabled, disabled and started. -/
theorem domainEntry : Obligations.DomainEntry := ⟨domainEnable, domainStart⟩

end Sys2Proof.Machine
end

section
/-! # The long register: contributions, their order, readout (R102 to R112) -/

namespace Sys2Proof.Machine

open Sys2Proof.Claims

/-! ## Exact binary fractions -/

/-- The significand of a dyadic at a smaller exponent stands for the same number. -/
theorem Dy.at_mul_zpow {d : Dy} {k : Int} (h : k ≤ d.e) : (d.at k : ℚ) * 2 ^ k = valueOf d := by
  have he : d.e = ((d.e - k).toNat : Int) + k := by omega
  unfold Dy.at valueOf
  conv_rhs => rw [he, zpow_add₀ two_ne_zero, zpow_natCast]
  push_cast
  ring

/-- The order of dyadics is the order of their numbers. -/
theorem Dy.le_iff (x y : Dy) : x.le y = true ↔ valueOf x ≤ valueOf y := by
  have hpos : (0 : ℚ) < 2 ^ (min x.e y.e) := zpow_pos two_pos _
  rw [← Dy.at_mul_zpow (min_le_left x.e y.e), ← Dy.at_mul_zpow (min_le_right x.e y.e), mul_le_mul_iff_left₀ hpos, Int.cast_le]
  exact decide_eq_true_iff

/-- `floorAt` is the floor of the exact quotient. -/
theorem Dy.floorAt_eq_floor (d : Dy) (k : Int) : d.floorAt k = ⌊valueOf d / 2 ^ k⌋ := by
  unfold Dy.floorAt
  split
  next h => rw [← Dy.at_mul_zpow h, mul_div_cancel_right₀ _ (zpow_ne_zero k two_ne_zero), Int.floor_intCast]
  next h =>
    have hk : k = d.e + ((k - d.e).toNat : Int) := by omega
    have hq : valueOf d / 2 ^ k = (d.m : ℚ) / ((2 ^ (k - d.e).toNat : Nat) : ℚ) := by
      conv_lhs => rw [hk, zpow_add₀ two_ne_zero, zpow_natCast]
      rw [valueOf, mul_comm (2 ^ d.e : ℚ), mul_div_mul_right _ _ (zpow_ne_zero _ two_ne_zero)]
      push_cast
      rfl
    rw [hq, Rat.floor_intCast_div_natCast]

/-- `floorAt` truncates toward minus infinity: the multiple of `2 ^ k` at or below, less than one unit away. -/
theorem Dy.floorAt_bounds (d : Dy) (k : Int) :
    (d.floorAt k : ℚ) * 2 ^ k ≤ valueOf d ∧ valueOf d < ((d.floorAt k : ℚ) + 1) * 2 ^ k := by
  have hpos : (0 : ℚ) < 2 ^ k := zpow_pos two_pos k
  rw [Dy.floorAt_eq_floor, ← le_div_iff₀ hpos, ← div_lt_iff₀ hpos]
  exact ⟨Int.floor_le _, Int.lt_floor_add_one _⟩

/-- The test of `accAdd` for a truncation that changes nothing. -/
theorem Dy.floorAt_exact (d : Dy) (k : Int) :
    (decide (k ≤ d.e) || decide ((⟨d.floorAt k, k⟩ : Dy).le d = true ∧ d.le ⟨d.floorAt k, k⟩ = true))
      = decide ((d.floorAt k : ℚ) * 2 ^ k = valueOf d) := by
  rw [Bool.eq_iff_iff, Bool.or_eq_true, decide_eq_true_iff, decide_eq_true_iff, decide_eq_true_iff, Dy.le_iff, Dy.le_iff,
    ← le_antisymm_iff]
  constructor
  · rintro (h | h)
    · rw [Dy.floorAt, if_pos h, Dy.at_mul_zpow h]
    · exact h
  · exact Or.inr

/-! ## Flags and clamps -/

@[simp] theorem getElem_flagIf (c : Bool) (f : BitVec 7) (k : Nat) (h : k < 7) : (flagIf c f)[k] = (c && f[k]) := by
  cases c <;> simp [flagIf]

theorem clampInt_eq_max_min {lo hi : Int} (h : lo ≤ hi) (v : Int) : clampInt lo hi v = max lo (min hi v) := by
  unfold clampInt
  split_ifs <;> omega

theorem clampInt_window (v : Int) : clampInt longMin longMax v = inWindow v := clampInt_eq_max_min (by decide) v

/-! ## Contributions (R103 to R105) -/

/-- What a contribution adds to the register: its truncation, clamped to the register's range. -/
def addend (anchor : BitVec 16) : Option Dy → Int
  | some d => inWindow (d.floorAt (anchor.toInt - 96))
  | none => 0

/-- The flags a contribution sets: ILO where truncation changes it, IHI where the clamp does. -/
def flagsAdded (anchor : BitVec 16) (c : Option Dy) (spilled : Bool) : BitVec 7 :=
  match c with
  | some d =>
    let lsb := anchor.toInt - 96
    flagIf spilled flagSPILL ||| flagIf (decide ((d.floorAt lsb : ℚ) * 2 ^ lsb ≠ valueOf d)) flagILO
      ||| flagIf (decide (inWindow (d.floorAt lsb) ≠ d.floorAt lsb)) flagIHI
  | none => flagIf spilled flagSPILL

/-- What one contribution does: each field grows by a part that only the anchor and the contribution give. -/
theorem accAdd_eq (a : Acc) (c : Option Dy) (spilled : Bool) :
    accAdd a c spilled = { a with
      sum := a.sum + addend a.anchor c, count := a.count + 1, nan := a.nan || c.isNone
      flags := a.flags ||| flagsAdded a.anchor c spilled } := by
  cases c with
  | none => simp [accAdd, addend, flagsAdded]
  | some d =>
    unfold accAdd
    simp only [Dy.floorAt_exact, clampInt_window]
    simp [addend, flagsAdded, BitVec.or_assoc]

/-! ## Order of contributions (R106) -/

/-- Adds a list of contributions, each with whether a spilled outlier acts in it. -/
abbrev accAddAll (a : Acc) (l : List (Option Dy × Bool)) : Acc := l.foldl (fun x c => accAdd x c.1 c.2) a

theorem accAdd_right_comm (a : Acc) (c d : Option Dy) (p q : Bool) :
    accAdd (accAdd a c p) d q = accAdd (accAdd a d q) c p := by
  simp [accAdd_eq, add_right_comm, Bool.or_right_comm, BitVec.or_assoc, BitVec.or_comm (flagsAdded a.anchor c p)]

theorem accAddAll_perm {l m : List (Option Dy × Bool)} (h : l.Perm m) (a : Acc) : accAddAll a l = accAddAll a m :=
  have : RightCommutative (fun (x : Acc) (c : Option Dy × Bool) => accAdd x c.1 c.2) :=
    ⟨fun x c d => accAdd_right_comm x c.1 d.1 c.2 d.2⟩
  h.foldl_eq a

theorem accAddAll_sum (l : List (Option Dy × Bool)) (a : Acc) :
    (accAddAll a l).sum = a.sum + (l.map (fun c => addend a.anchor c.1)).sum := by
  induction l generalizing a with
  | nil => simp
  | cons c l ih =>
    rw [accAddAll, List.foldl_cons, ih]
    simp [accAdd_eq, add_assoc]

theorem accAddAll_nan (l : List (Option Dy × Bool)) (a : Acc) :
    (accAddAll a l).nan = true ↔ a.nan = true ∨ ∃ c ∈ l, c.1 = none := by
  induction l generalizing a with
  | nil => simp
  | cons c l ih =>
    rw [accAddAll, List.foldl_cons, ih]
    simp [accAdd_eq, or_assoc]

/-! ## Readout (R108, R109, R112) -/

/-- The NaN code of a readout target (R108). -/
def Fmt.nanReadout : Fmt → Nat
  | .l64 => l64Nan.toNat
  | .int32 => 0x80000000
  | f => f.fp.nanCode

/-- A BF16 row scale is a NaN or an infinity exactly where its exponent is all ones. -/
theorem rowScale_bad_iff (r : BitVec 16) :
    ((fpBrain.decode r.toNat).isNan || (fpBrain.decode r.toNat).isInf) = true ↔ r.toNat / 128 % 256 = 255 := by
  unfold FpFmt.decode fpBrain
  dsimp only
  split_ifs with hmax <;> simpa [Fv.isNan, Fv.isInf] using hmax

/-- A NaN sum, and a row scale that is not finite, read out as the target's NaN. -/
theorem readElem_nan {a : Acc} (hcount : a.count ≠ 0) (h : a.nan = true ∨ a.rscale.toNat / 128 % 256 = 255) (f : Fmt) :
    (readElem f (some a)).1 = f.nanReadout := by
  have hbad : (a.nan || ((fpBrain.decode a.rscale.toNat).isNan || (fpBrain.decode a.rscale.toNat).isInf)) = true := by
    rwa [Bool.or_eq_true, rowScale_bad_iff]
  cases f <;> simp only [readElem, if_neg hcount, if_pos hbad, Fmt.nanReadout]

/-- A number reads out to L64 as its quotient by `2 ^ 56`, rounded and clamped, whatever its row scale. -/
theorem readElem_l64 {a : Acc} (hcount : a.count ≠ 0) (hnan : a.nan = false) (h : a.rscale.toNat / 128 % 256 ≠ 255) :
    readElem .l64 (some a) =
      let c := l64Clamp ((⟨inWindow a.sum, -56⟩ : Dy).rneAt 0)
      (c.1.toNat, a.flags ||| flagIf (decide (inWindow a.sum ≠ a.sum)) flagIHI ||| flagIf c.2 flagRSAT) := by
  have hgood : ¬(a.nan || ((fpBrain.decode a.rscale.toNat).isNan || (fpBrain.decode a.rscale.toNat).isInf)) = true := by
    rwa [Bool.or_eq_true, rowScale_bad_iff, hnan, Bool.false_eq_true, false_or]
  simp only [readElem, if_neg hcount, if_neg hgood, clampInt_window]

/-! ## Rounding to nearest, ties to even -/

/-- `x` is `m / n` rounded to the nearest integer, ties to even. -/
def IsNearestEven (n : Nat) (m x : Int) : Prop :=
  2 * ((n : Int) * x - m).natAbs ≤ n ∧ (2 * ((n : Int) * x - m).natAbs = n → x % 2 = 0)

theorem IsNearestEven.neg {n : Nat} {m x : Int} (h : IsNearestEven n m x) : IsNearestEven n (-m) (-x) := by
  have habs : ((n : Int) * -x - -m).natAbs = ((n : Int) * x - m).natAbs := by
    rw [mul_neg, ← Int.natAbs_neg]
    congr 1
    ring
  obtain ⟨hnear, htie⟩ := h
  unfold IsNearestEven
  rw [habs]
  exact ⟨hnear, fun ht => by have := htie ht; omega⟩

/-- `rneShift` rounds `m / 2 ^ k` to nearest, ties to even; the shortcut for small `m` gives the same 0. -/
theorem rneShift_isNearestEven (m : Nat) {k : Nat} (hk : 0 < k) : IsNearestEven (2 ^ k) m (rneShift m k) := by
  have hpow : 2 ^ k = 2 * 2 ^ (k - 1) := by rw [← pow_succ', Nat.sub_add_cancel hk]
  unfold rneShift
  rw [if_neg hk.ne']
  split
  next hsmall =>
    have hm : m < 2 ^ (k - 1) := Nat.lt_log2_self.trans_le (Nat.pow_le_pow_right two_pos (by omega))
    constructor <;> omega
  next =>
    have hdiv : (m : Int) = (2 ^ k : Nat) * (m / 2 ^ k : Nat) + (m % 2 ^ k : Nat) := by exact_mod_cast (Nat.div_add_mod m (2 ^ k)).symm
    have hmod : m % 2 ^ k < 2 ^ k := Nat.mod_lt _ (by positivity)
    simp only
    split
    next hup =>
      have hdist : ((2 ^ k : Nat) : Int) * ((m / 2 ^ k + 1 : Nat) : Int) - m = (2 ^ k : Nat) - (m % 2 ^ k : Nat) := by
        push_cast at hdiv ⊢
        linarith
      unfold IsNearestEven
      rw [hdist]
      constructor <;> omega
    next hdown =>
      have hdist : ((2 ^ k : Nat) : Int) * ((m / 2 ^ k : Nat) : Int) - m = -(m % 2 ^ k : Nat) := by linarith
      unfold IsNearestEven
      rw [hdist]
      constructor <;> omega

theorem Dy.rneAt_isNearestEven {d : Dy} {k : Int} (h : d.e < k) : IsNearestEven (2 ^ (k - d.e).toNat) d.m (d.rneAt k) := by
  have hround := rneShift_isNearestEven d.m.natAbs (k := (k - d.e).toNat) (by omega)
  unfold Dy.rneAt
  rw [if_neg (by omega)]
  dsimp only
  split
  next hneg =>
    have hm : -(d.m.natAbs : Int) = d.m := by omega
    simpa only [hm] using hround.neg
  next hpos => rwa [Int.natAbs_of_nonneg (by omega)] at hround

/-! ## The statements -/

/-- Settles O56: a contribution adds its truncation, clamped, and NaN reads out in every target. -/
theorem contributionsTruncate : Obligations.ContributionsTruncate := by
  intro a spilled
  refine ⟨fun d => ?_, ?_, fun hnan hcount => ?_⟩
  · obtain ⟨hle, hlt⟩ := d.floorAt_bounds (a.anchor.toInt - 96)
    rw [accAdd_eq]
    refine ⟨d.floorAt (a.anchor.toInt - 96), hle, hlt, rfl, ?_, ?_, Bool.or_false _, rfl, rfl, rfl⟩
    · simp [flagsAdded, flagILO, flagIHI, flagSPILL]
    · simp [flagsAdded, flagILO, flagIHI, flagSPILL]
  · rw [accAdd_eq]
    exact ⟨Bool.or_true _, add_zero _, rfl, rfl, rfl⟩
  · have hread := readElem_nan hcount (.inl hnan)
    exact ⟨hread .fp32, hread .bf16, hread .fp16, hread .int32, hread .l64⟩

/-- Settles O57: contributions commute, so the accumulation is one of their multiset. -/
theorem accumulationOrder : Obligations.AccumulationOrder := by
  intro a l m h
  refine ⟨accAddAll_perm h a, fun f => congrArg (readElem f ∘ some) (accAddAll_perm h a), ?_, accAddAll_nan l a, fun l1 l2 h12 => ?_⟩
  · exact accAddAll_sum l a
  · rw [← List.foldl_append]
    exact accAddAll_perm h12 a

/-- Settles O58: readout to L64 rounds and clamps the register, and takes no more of the row scale than whether it is finite. -/
theorem longReadout : Obligations.LongReadout := by
  refine ⟨fun f a => ⟨rfl, fun hcount _ => by simp [readElem, hcount]⟩, fun a hcount => ⟨fun hbad => ?_, fun hnan hfin => ?_⟩⟩
  · exact readElem_nan hcount (hbad.imp_right not_not.1) .l64
  · obtain ⟨hnear, htie⟩ := Dy.rneAt_isNearestEven (d := ⟨inWindow a.sum, -56⟩) (k := 0) (by simp)
    refine ⟨_, hnear, htie, ?_, fun r hr => ?_⟩
    · rw [readElem_l64 hcount hnan hfin, l64Clamp, clampInt_eq_max_min (by decide)]
      exact ⟨rfl, by simp [flagIHI, flagRSAT]⟩
    · rw [readElem_l64 hcount hnan hfin, readElem_l64 (a := { a with rscale := r }) hcount hnan hr]

end Sys2Proof.Machine
end

section
/-! # Clears of counters

Support for the statement about the CLEAR registers: which rows a clear covers, told by the block's table, and that all of them
reset to zero (R154 and the other register tables). -/

namespace Sys2Proof.Machine

open Sys2Proof.Claims

/-! ## Rows that a test picks -/

/-- A register that resets to 0 wherever it stands. -/
def Reg.zeroed (r : Reg) : Bool := decide (r.info.reset = 0) && decide (r ≠ .svPQuota) && decide (r ≠ .partCfg)

theorem RegKey.reset_zeroed {k : RegKey} (h : k.reg.zeroed = true) : k.reset = 0 := by
  simp only [Reg.zeroed, Bool.and_eq_true, decide_eq_true_eq] at h
  obtain ⟨⟨hreset, hquota⟩, hcfg⟩ := h
  unfold RegKey.reset
  split
  · next he => exact absurd he hquota
  · next he => exact absurd he hcfg
  · exact hreset

/-- A test that only registers of one block pass is told by that block's table. -/
theorem Block.filter_regs_contains {b : Block} {p : Reg → Bool} {l : List Reg} (hp : ∀ r, p r = true → r.info.block = b)
    (hl : b.regs.filter p = l) (r : Reg) : p r = l.contains r := by
  subst hl
  rw [Bool.eq_iff_iff, List.contains_iff_mem, List.mem_filter]
  exact ⟨fun h => ⟨hp r h ▸ Reg.mem_block_regs r, h⟩, And.right⟩

theorem Reg.between_block {r : Reg} {b : Block} {lo hi : Nat} (h : r.between b lo hi = true) : r.info.block = b :=
  of_decide_eq_true (Bool.and_eq_true_iff.1 h).1

/-- The rows of a block between two offsets. -/
theorem Reg.between_contains {b : Block} {lo hi : Nat} {l : List Reg} (hl : b.regs.filter (·.between b lo hi) = l) (r : Reg) :
    r.between b lo hi = l.contains r :=
  Block.filter_regs_contains (fun _ => Reg.between_block) hl r

/-! ## Clear commands -/

/-- A command that clears the named counters where bit 0 of its value is 1, and sets the sums that two of them are drawn from
by `sums`. -/
structure IsClear (i : Instr) (v : Word) (named : RegKey → Bool) (sums : Power → Power) : Prop where
  zeroed : ∀ k, named k = true → k.reset = 0
  frame : ∀ p : Power, sums p = { p with emergUs := (sums p).emergUs, ballastUj := (sums p).ballastUj }
  exec : ∀ s, exec i s = lift (fun t => t.when (v.getLsbD 0) (fun u => (u.clearRegs named).setPw (sums u.pw))) s

section
variable {i : Instr} {v : Word} {p : Reg → Bool} {l : List Reg} (hp : ∀ r, p r = l.contains r)
  (hz : ∀ r ∈ l, r.zeroed = true)
include hp hz

/-- A clear of a block's counters. -/
theorem isClear_atAll {sums : Power → Power}
    (hframe : ∀ q : Power, sums q = { q with emergUs := (sums q).emergUs, ballastUj := (sums q).ballastUj })
    (hx : ∀ s, exec i s = lift (fun t => t.when (v.getLsbD 0)
      (fun u => (u.clearRegs (fun k => p k.reg)).setPw (sums u.pw))) s) : IsClear i v (atAll l) sums := by
  refine ⟨fun k hk => RegKey.reset_zeroed (hz _ (List.contains_iff_mem.1 hk)), hframe, fun s => ?_⟩
  rw [hx, funext fun k : RegKey => hp k.reg]
  rfl

/-- A clear of the counters of one of a block's copies. -/
theorem isClear_at1 {n : Nat}
    (hx : ∀ s, exec i s = lift (fun t => t.clearIf v (fun k => p k.reg && decide (k.i = n))) s) : IsClear i v (at1 l n) id := by
  refine ⟨fun k hk => RegKey.reset_zeroed (hz _ (List.contains_iff_mem.1 (Bool.and_eq_true_iff.1 hk).1)), fun _ => rfl,
    fun s => ?_⟩
  simp only [hx, hp]
  rfl

/-- A clear of the counters of one index of their ranges. -/
theorem isClear_at2 {n : Nat}
    (hx : ∀ s, exec i s = lift (fun t => t.clearIf v (fun k => p k.reg && decide (k.j = n))) s) : IsClear i v (at2 l n) id := by
  refine ⟨fun k hk => RegKey.reset_zeroed (hz _ (List.contains_iff_mem.1 (Bool.and_eq_true_iff.1 hk).1)), fun _ => rfl,
    fun s => ?_⟩
  simp only [hx, hp]
  rfl

end

/-- What a clear command does to the sums of the power manager: PWR's clears the time in EMERGENCY, FWL's the ballast energy
(R547, R548). -/
def clearedSums : Instr → Power → Power
  | .pwrCtrClear _, p => { p with emergUs := 0 }
  | .fwlCtrClear _, p => { p with ballastUj := 0 }
  | _, p => p

/-! ## The counters of the tables -/

/-- MX counts at three places of its table (R154). -/
theorem Reg.mxCounters (r : Reg) :
    (r.between .mx 0x10 0x50 || r.between .mx 0x60 0x60 || r.between .mx 0x78 0x78)
      = [Reg.mxCyclesIssued, .mxCyclesSkipped, .mxCyclesStalled, .mxOutlierSpill, .mxIloReadouts, .mxIhiReadouts, .mxSatReadouts,
          .mxNanReadouts, .mxResidueErrs, .mxBallastCycles, .mxListClaims].contains r := by
  refine Block.filter_regs_contains (b := .mx)
    (p := fun r => r.between .mx 0x10 0x50 || r.between .mx 0x60 0x60 || r.between .mx 0x78 0x78) (fun r h => ?_) (by decide) r
  rcases Bool.or_eq_true_iff.1 h with h | h
  · exact (Bool.or_eq_true_iff.1 h).elim Reg.between_block Reg.between_block
  · exact Reg.between_block h

/-- MEM counts at two places of its table (R349). -/
theorem Reg.memCounters (r : Reg) :
    (r.between .mem 0x60 0x68 || r.between .mem 0x80 0x88)
      = [Reg.memCeCount, .memUeCount, .memTcHitBytes, .memTcCopies].contains r :=
  Block.filter_regs_contains (b := .mem) (p := fun r => r.between .mem 0x60 0x68 || r.between .mem 0x80 0x88)
    (fun _ h => (Bool.or_eq_true_iff.1 h).elim Reg.between_block Reg.between_block) (by decide) r

/-- The fabric's counters, and those of its ports (R426). -/
theorem Reg.fabCounters (r : Reg) :
    (r.between .fab 0x28 0x50
        || [Reg.fabFecCorrected, .fabFecUncorrected, .fabNaks, .fabTxFlits, .fabRxFlits, .fabLinkDowns].contains r)
      = [Reg.fabDeadCount, .fabLateResp, .fabDiscards, .fabRouteEpoch, .fabDetours, .fabBadPackets, .fabFecCorrected,
          .fabFecUncorrected, .fabNaks, .fabTxFlits, .fabRxFlits, .fabLinkDowns].contains r := by
  rw [Reg.between_contains (b := .fab)
    (l := [.fabDeadCount, .fabLateResp, .fabDiscards, .fabRouteEpoch, .fabDetours, .fabBadPackets]) (by decide) r]
  simp only [List.contains_cons, List.contains_nil, Bool.or_assoc, Bool.or_false]

/-- Every command that clears counters clears those that its row names. -/
theorem isClear_of_clears {i : Instr} {v : Word} {named : RegKey → Bool} (h : clears i = some (v, named)) :
    IsClear i v named (clearedSums i) := by
  unfold clears at h
  split at h
  case h_21 => exact absurd h (by simp)
  all_goals
    obtain ⟨rfl, rfl⟩ := Prod.mk.inj (Option.some.inj h)
  case h_1 => exact isClear_at1 Reg.mxCounters (by decide) (fun _ => rfl)
  case h_2 | h_3 | h_4 | h_5 | h_6 | h_11 | h_13 =>
    exact isClear_at1 (Reg.between_contains (by decide)) (by decide) (fun _ => rfl)
  case h_7 | h_10 => exact isClear_at2 (Reg.between_contains (by decide)) (by decide) (fun _ => rfl)
  case h_8 => exact isClear_at1 (p := fun r => decide (r = .kvPAllocs)) (fun r => by simp) (by decide) (fun _ => rfl)
  case h_9 => exact isClear_atAll Reg.memCounters (by decide) (fun _ => rfl) (fun _ => rfl)
  case h_12 => exact isClear_atAll Reg.fabCounters (by decide) (fun _ => rfl) (fun _ => rfl)
  case h_16 => exact isClear_atAll (fun _ => rfl) (by decide) (fun _ => rfl) (fun _ => rfl)
  case h_14 | h_15 | h_17 | h_18 | h_19 | h_20 =>
    exact isClear_atAll (Reg.between_contains (by decide)) (by decide) (fun _ => rfl) (fun _ => rfl)

/-! ## The sums, and the statement -/

/-- PWR.EMERG_TIME reads 0 where no time in EMERGENCY is counted (R547). -/
theorem State.readKey_pwrEmergTime {s : State} (h : s.pw.emergUs = 0) : s.readKey (rk .pwrEmergTime) = 0 := by
  show BitVec.ofNat 64 (s.pw.emergUs / 1000) = 0
  rw [h]
  rfl

/-- FWL.BALLAST_MJ reads 0 where no ballast energy is counted (R548). -/
theorem State.readKey_fwlBallastMj {s : State} (h : s.pw.ballastUj = 0) : s.readKey (rk .fwlBallastMj) = 0 := by
  show BitVec.ofNat 64 (s.pw.ballastUj / 1000) = 0
  rw [h]
  rfl

/-- Settles O6: each clear command resets the counters of its row, whose reset value is 0, and the sum that its read is drawn
from. -/
theorem counterClears : Obligations.CounterClears := by
  intro i v named s h
  obtain ⟨hzero, hframe, hx⟩ := isClear_of_clears h
  by_cases hv : v.getLsbD 0 = true
  · refine ⟨(s.clearRegs named).setPw (clearedSums i s.pw), exec_next (hx s) (if_pos hv) rfl, fun _ k => ?_,
      fun h0 => absurd (hv.symm.trans h0) (by decide), ?_, ?_, ?_⟩
    · show (s.clearRegs named).raw k = _
      rw [State.raw_clearRegs]
      split
      · next hk => exact hzero k hk
      · rfl
    · show (s.clearRegs named).setPw (clearedSums i s.pw) = _
      conv_lhs => rw [hframe]
      rfl
    · rintro x rfl _
      exact State.readKey_pwrEmergTime rfl
    · rintro x rfl _
      exact State.readKey_fwlBallastMj rfl
  · refine ⟨s, exec_stays (hx s) (if_neg hv), fun h1 => absurd h1 hv, fun _ => rfl, rfl, ?_, ?_⟩
    all_goals
      rintro x rfl h1
      obtain ⟨rfl, -⟩ := Prod.mk.inj (Option.some.inj h)
      exact absurd h1 hv

end Sys2Proof.Machine
end

section
/-! # The estimate, ballast events and the levels

Support for the statement about the power manager's microsecond: what a failed residue check on ballast leaves of the counters,
the domains and the cores, and the bounds that the controller's levels keep (R153, R478, R500, R511, R523 to R527). -/

namespace Sys2Proof.Machine

open Sys2Proof.Claims

/-! ## Counts -/

/-- What was added to a counter register is read back. -/
theorem State.reg_bump_self (s : State) (r : Reg) (i j n : Nat) :
    (s.bump r i j n).reg r i j = s.reg r i j + BitVec.ofNat 64 n := State.reg_setReg_self _ _ _ _ _

theorem State.reg_bump_ne (s : State) {r q : Reg} (h : r ≠ q) (i j n i' j' : Nat) :
    (s.bump r i j n).reg q i' j' = s.reg q i' j' := State.reg_setReg_ne s h _ _ _ _ _

/-! ## Reports, completions and slot moves (R442, R451, R499) -/

/-- The registers that reports, completions and slot moves change: what HP counts of frames and completions, the codes of the
blocks, and what DER counts of sites. -/
def Reg.ofReports : List Reg :=
  [.hpTxFrames, .hpEvReleased, .hpPCmds, .hpCode, .memCode, .fabCode, .partCode, .pwrCode, .secCode, .bootCode, .derCode,
   .intCode, .derRetirements, .derQuarantines]

/-- The domains stay, and every register but those of reports. -/
structure ReportsOnly (s t : State) : Prop where
  doms : t.doms = s.doms
  regs : ∀ k : RegKey, k.reg ∉ Reg.ofReports → t.raw k = s.raw k

theorem Reg.ofEvents_reports : ∀ r ∈ Reg.ofEvents, r ∈ Reg.ofReports := by decide

namespace ReportsOnly

theorem of {s t : State} (hr : t.regs = s.regs) (hd : t.doms = s.doms) : ReportsOnly s t :=
  ⟨hd, fun k _ => by unfold State.raw; rw [hr]⟩

theorem refl (s : State) : ReportsOnly s s := of rfl rfl

theorem trans {s t u : State} (h : ReportsOnly s t) (h' : ReportsOnly t u) : ReportsOnly s u :=
  ⟨h'.doms.trans h.doms, fun k hk => (h'.regs k hk).trans (h.regs k hk)⟩

/-- A change that leaves the registers and the domains may come first. -/
theorem onto {s t u : State} (h : ReportsOnly t u) (hr : t.regs = s.regs := by rfl) (hd : t.doms = s.doms := by rfl) :
    ReportsOnly s u := (of hr hd).trans h

theorem setReg (s : State) (r : Reg) (i j : Nat) (v : Word) (hr : r ∈ Reg.ofReports := by decide) :
    ReportsOnly s (s.setReg r i j v) :=
  ⟨rfl, fun k hk => State.raw_setRaw_ne _ (fun e => hk (by rw [← e, rk_reg]; exact hr)) _⟩

theorem bump (s : State) (r : Reg) (i j k : Nat) (hr : r ∈ Reg.ofReports := by decide) : ReportsOnly s (s.bump r i j k) :=
  setReg s r i j _ hr

theorem ofEvent {s t : State} (h : EventOnly s t) : ReportsOnly s t :=
  ⟨h.doms, fun k hk => h.regs k (fun he => hk (Reg.ofEvents_reports _ he))⟩

theorem foldl {α : Type} {f : State → α → State} (h : ∀ t x, ReportsOnly t (f t x)) (l : List α) (s : State) :
    ReportsOnly s (l.foldl f s) := by
  induction l generalizing s with
  | nil => exact refl s
  | cons x l ih => exact (h s x).trans (ih _)

theorem reg {s t : State} (h : ReportsOnly s t) {r : Reg} (hr : r ∉ Reg.ofReports) (i j : Nat) : t.reg r i j = s.reg r i j :=
  h.regs _ (by rwa [rk_reg])

end ReportsOnly

theorem mgmtReport_reportsOnly (s : State) (r : Reg) (code : Code) (d : List Byte) (hr : r ∈ Reg.ofReports := by decide) :
    ReportsOnly s (s.mgmtReport r code d) :=
  (ReportsOnly.setReg s r _ _ _ hr).trans (.ofEvent (mgmtReport_eventOnly _ _ _ _))

theorem codeReg_reports {c : Code} {r : Reg} (h : codeReg c = some r) : r ∈ Reg.ofReports := by
  unfold codeReg at h
  split at h <;> cases h <;> decide

theorem lastCode_reportsOnly (s : State) (c : Code) : ReportsOnly s (s.lastCode c) := by
  unfold State.lastCode
  split
  · exact .refl s
  · next r hr => exact .setReg s r _ _ _ (codeReg_reports hr)

theorem pumpSession_reportsOnly (n k : Nat) (s : State) : ReportsOnly s (pumpSession n k s) := by
  induction k generalizing s with
  | zero => exact .refl s
  | succ k ih =>
    unfold pumpSession
    split
    · exact .refl s
    · split
      · exact .refl s
      · dsimp only
        split
        · exact .refl s
        · exact .trans (.onto (.bump (State.send (s.setSession n _) _) .hpTxFrames 0 0 1)) (ih _)

theorem sessionSend_reportsOnly (s : State) (n : Nat) (ps : List (BrosinType × List Byte)) :
    ReportsOnly s (s.sessionSend n ps) := by
  unfold State.sessionSend
  split
  · exact .refl s
  · exact .onto (pumpSession_reportsOnly _ _ _)

theorem complete_reportsOnly (s : State) (cmd : Code) (f : Frame) (status : Code) (body : List Byte) :
    ReportsOnly s (s.complete cmd f status body) := by
  have hpop : ReportsOnly s (s.popCmd cmd f) := by
    unfold State.popCmd
    split
    · exact .refl s
    · exact .of rfl rfl
  have hcode := hpop.trans (lastCode_reportsOnly (s.popCmd cmd f) status)
  unfold State.complete State.answerCmd
  dsimp only
  split
  · exact hcode
  · have hsent (bs : List (BrosinType × List Byte)) := hcode.trans (.onto
      (sessionSend_reportsOnly (((s.popCmd cmd f).lastCode status).send (.completion f.session cmd f.cmdId status body))
        f.session bs))
    split
    · exact (hsent _).trans (.bump _ _ _ _ _)
    · exact hsent _

theorem serve_reportsOnly (s : State) (i : SiteId) (k : Fin 144) (old : Option SiteId) : ReportsOnly s (s.serve i k old) := by
  unfold State.serve
  extract_lets x st s1 s2 s3
  have h2 : ReportsOnly s s2 := by
    unfold s2
    split
    · exact .onto (complete_reportsOnly _ _ _ _ _)
    · exact .of rfl rfl
  have h3 : ReportsOnly s s3 := h2.trans (.of rfl rfl)
  split
  · exact h3
  · exact h3.trans (.of rfl rfl)

theorem moveSlot_reportsOnly (s : State) (i : SiteId) : ReportsOnly s (s.moveSlot i) := by
  unfold State.moveSlot
  split
  · exact .refl s
  · dsimp only
    split
    · exact .onto (serve_reportsOnly _ _ _ _)
    · exact .onto (mgmtReport_reportsOnly _ _ _ _)

theorem quarantine_reportsOnly (s : State) (i : SiteId) : ReportsOnly s (s.quarantine i) := by
  unfold State.quarantine
  extract_lets x k s0 s1 retire y home s2 waits _ s3 slotByte s4 s5
  have h3 : ReportsOnly s s3 := .trans (.onto (moveSlot_reportsOnly s0 i)) (.of rfl rfl)
  have h4 : ReportsOnly s3 s4 := by
    unfold s4
    split
    · exact (ReportsOnly.bump s3 _ _ _ _).trans (mgmtReport_reportsOnly _ _ _ _)
    · exact (ReportsOnly.bump s3 _ _ _ _).trans (mgmtReport_reportsOnly _ _ _ _)
  have h5 : ReportsOnly s4 s5 := by
    unfold s5
    split
    · exact .of rfl rfl
    · exact .refl s4
  refine ((h3.trans h4).trans h5).trans (.foldl (fun t p => ?_) _ _)
  split
  · exact complete_reportsOnly _ _ _ _ _
  · exact .refl t

theorem quarantineLater_reportsOnly (s : State) (i : SiteId) (f : Option Frame) : ReportsOnly s (s.quarantineLater i f) := by
  unfold State.quarantineLater
  dsimp only
  split
  · exact .onto (quarantine_reportsOnly _ _)
  · exact .of rfl rfl

/-! ## A failed residue check on ballast (R153, R500, R511) -/

/-- What is recorded and reported leaves: snapshots, their flash writes, events, free values, and registers. -/
structure RecordOnly (s t : State) : Prop where
  mem : t.mem = s.mem
  cores : t.cores = s.cores
  sites : t.integ.sites = s.integ.sites
  atCommit : t.integ.atCommit = s.integ.atCommit
  part : ∀ n, t.partCfg n = s.partCfg n

namespace RecordOnly

theorem trans {s t u : State} (h : RecordOnly s t) (h' : RecordOnly t u) : RecordOnly s u :=
  ⟨h'.mem.trans h.mem, h'.cores.trans h.cores, h'.sites.trans h.sites, h'.atCommit.trans h.atCommit,
    fun n => (h'.part n).trans (h.part n)⟩

theorem setReg (s : State) {r : Reg} (hr : r ≠ .partCfg) (i j : Nat) (v : Word) : RecordOnly s (s.setReg r i j v) :=
  ⟨rfl, rfl, rfl, rfl, fun n => State.reg_setReg_ne s hr i j 0 n.val v⟩

theorem ofEvent {s t : State} (h : EventOnly s t) : RecordOnly s t :=
  ⟨h.mem, h.cores, by rw [h.integ], by rw [h.integ], fun n => h.reg (by decide) 0 n.val⟩

theorem mgmtReport (s : State) {r : Reg} (hr : r ≠ .partCfg) (code : Code) (d : List Byte) :
    RecordOnly s (s.mgmtReport r code d) := (setReg s hr _ _ _).trans (ofEvent (mgmtReport_eventOnly _ _ _ _))

/-- The partition that holds a site's slot is told by the sites and the partitions' registers. -/
theorem siteHeld {s t : State} (h : RecordOnly s t) (i : SiteId) : t.siteHeld i = s.siteHeld i := by
  unfold State.siteHeld State.site
  rw [h.sites]
  split
  · rfl
  · exact State.partOf_congr h.part _

end RecordOnly

theorem snapshot_recordOnly (s : State) (h : SnapHead) (area : List Byte) : RecordOnly s (s.snapshot h area) := by
  unfold State.snapshot
  extract_lets q rec_ full _ _ s1 s2
  have h2 : RecordOnly s s2 :=
    .trans (t := s1) ⟨rfl, rfl, rfl, rfl, fun _ => rfl⟩ (.setReg s1 (by decide) _ _ _)
  split
  · exact h2.trans (.mgmtReport s2 (by decide) _ _)
  · exact h2

/-- A snapshot counts itself, and no other event (R511, R515). -/
theorem snapshot_reportsOnly (s : State) (h : SnapHead) (area : List Byte) :
    ReportsOnly (s.bump .intSnapshots 0 0 1) (s.snapshot h area) := by
  unfold State.snapshot
  extract_lets q rec_ full _ _ s1 s2
  have h2 : ReportsOnly (s.bump .intSnapshots 0 0 1) s2 := .of rfl rfl
  split
  · exact h2.trans (mgmtReport_reportsOnly s2 _ _ _)
  · exact h2

/-- A residue check that fails on ballast: what it counts, what is recorded and reported, and then the quarantine. -/
theorem State.ballastMismatch_eq (s : State) (e : BallastErr) :
    ∃ t, s.ballastMismatch e = t.quarantineLater e.site none ∧ RecordOnly s t ∧ t.reg .intCode = 0x0B08
      ∧ ReportsOnly (((s.bump .mxResidueErrs (siteIx e.site) 0 1).bump .intBallastEvents 0 0 1).bump .intSnapshots 0 0 1)
          t := by
  unfold State.ballastMismatch
  extract_lets i mode s1 s2
  refine ⟨_, rfl, ?_, ?_, ?_⟩
  · have h1 : RecordOnly s s1 := (RecordOnly.setReg s (by decide) _ _ _).trans (.setReg _ (by decide) _ _ _)
    have h2 : RecordOnly s1 { s2 with freeCtr := s2.freeCtr + 1 } :=
      (snapshot_recordOnly s1 _ _).trans ⟨rfl, rfl, rfl, rfl, fun _ => rfl⟩
    exact (h1.trans h2).trans (.mgmtReport _ (by decide) _ _)
  · rw [(mgmtReport_eventOnly _ _ _ _).reg (by decide), State.reg_setReg_self]
    rfl
  · exact (snapshot_reportsOnly s1 _ _).trans (.onto (mgmtReport_reportsOnly _ _ _ _))

/-- Each of the three counters counts the event once. -/
theorem State.ballastMismatch_counts (s : State) (e : BallastErr) : let t := s.ballastMismatch e
    t.doms = s.doms ∧ t.reg .mxResidueErrs (siteIx e.site) = s.reg .mxResidueErrs (siteIx e.site) + 1
      ∧ t.reg .intBallastEvents = s.reg .intBallastEvents + 1 ∧ t.reg .intSnapshots = s.reg .intSnapshots + 1 := by
  obtain ⟨t, ht, -, -, hcounts⟩ := s.ballastMismatch_eq e
  have h := hcounts.trans (quarantineLater_reportsOnly t e.site none)
  rw [← ht] at h
  refine ⟨h.doms, ?_, ?_, ?_⟩
  · rw [h.reg (by decide), State.reg_bump_ne _ (by decide), State.reg_bump_ne _ (by decide), State.reg_bump_self]
    rfl
  · rw [h.reg (by decide), State.reg_bump_ne _ (by decide), State.reg_bump_self, State.reg_bump_ne _ (by decide)]
    rfl
  · rw [h.reg (by decide), State.reg_bump_self, State.reg_bump_ne _ (by decide), State.reg_bump_ne _ (by decide)]
    rfl

/-- Where a partition holds the site's slot, the quarantine waits for a commit (R500). -/
theorem State.ballastMismatch_held {s : State} {e : BallastErr} (hh : (s.siteHeld e.site).isSome = true) :
    let t := s.ballastMismatch e
    t.reg .intCode = 0x0B08 ∧ t.mem = s.mem ∧ t.cores = s.cores
      ∧ t.integ.atCommit = s.integ.atCommit ++ [(e.site, none)] ∧ t.integ.sites = s.integ.sites := by
  obtain ⟨t, ht, hrec, hcode, -⟩ := s.ballastMismatch_eq e
  obtain ⟨n, hn⟩ := Option.isSome_iff_exists.1 hh
  have hlater : t.quarantineLater e.site none =
      { t with integ := { t.integ with atCommit := t.integ.atCommit ++ [(e.site, none)] } } := by
    unfold State.quarantineLater
    rw [hrec.siteHeld, hn]
  rw [ht, hlater]
  exact ⟨hcode, hrec.mem, hrec.cores, congrArg (· ++ _) hrec.atCommit, hrec.sites⟩

/-! ## Ballast cycles (R153, R532) -/

theorem State.ballasts_iff (s : State) (i : SiteId) :
    s.ballasts i = true ↔ ((s.site i).state = .inService ∨ (s.site i).state = .watch)
      ∧ 0 < (s.pw.levels.getD i.die.val ⟨16, 16, 0⟩).ballast := by
  unfold State.ballasts
  rw [Bool.and_eq_true, decide_eq_true_eq, decide_eq_true_eq]

/-- Where no die issues ballast, no site does. -/
theorem State.ballasts_false {s : State} (h : s.ballastOn = false) (i : SiteId) : s.ballasts i = false := by
  rw [Bool.eq_false_iff]
  intro hi
  obtain ⟨-, hlevel⟩ := (s.ballasts_iff i).1 hi
  unfold State.ballastOn at h
  rw [List.any_eq_false] at h
  rw [List.getD_eq_getElem?_getD] at hlevel
  cases hx : s.pw.levels[i.die.val]? with
  | none => rw [hx] at hlevel; exact absurd hlevel (by decide)
  | some x =>
    rw [hx] at hlevel
    exact h x (List.mem_of_getElem? hx) (decide_eq_true (Nat.pos_iff_ne_zero.1 hlevel))

/-- Where no die issues ballast, the ballast cycles that an input brings are none. -/
theorem State.ballastCycles_off {s : State} (h : s.ballastOn = false) {e : EstimateInput} (he : e.errs = []) :
    s.ballastCycles e = s := by
  have hfold (l : List (SiteId × Nat)) :
      l.foldl (fun t p => t.when (s.ballasts p.1) (fun u => u.bump .mxBallastCycles (siteIx p.1) 0 p.2)) s = s := by
    induction l with
    | nil => rfl
    | cons p l ih => rw [List.foldl_cons, s.ballasts_false h]; exact ih
  unfold State.ballastCycles
  rw [he]
  exact hfold _

/-! ## The controller's levels (R478, R526, R527, R540, R543) -/

/-- The three levels of a die at most a bound. -/
def DieLevels.atMost (x : DieLevels) (b : Nat) : DieLevels := ⟨min x.g b, min x.b b, min x.ballast b⟩

/-- Whether a die with GUARANTEED cores issues them below 16 (R478). -/
def State.guaranteedHeld (s : State) (l : List DieLevels) : Bool :=
  (List.range 8).any (fun d => s.guaranteedOn d && decide ((l.getD d ⟨16, 16, 0⟩).g < 16))

theorem State.fitLevels_eq (s : State) (l : List DieLevels) : let l1 := l.mapIdx (fun d x => x.atMost (s.pw.bound d))
    s.fitLevels l = if s.guaranteedHeld l1 then l1.map (fun x => { x with b := min x.b 1 }) else l1 := rfl

/-- What a die's levels become: at most its bound each, the BEST_EFFORT level lowered once more where one is held. -/
theorem State.fitLevels_getElem? {s : State} {l : List DieLevels} {d : Nat} {x : DieLevels} (h : (s.fitLevels l)[d]? = some x) :
    ∃ y, l[d]? = some y ∧ x.g = min y.g (s.pw.bound d) ∧ x.b ≤ min y.b (s.pw.bound d)
      ∧ x.ballast = min y.ballast (s.pw.bound d) := by
  rw [s.fitLevels_eq] at h
  split at h
  · simp only [List.getElem?_map, List.getElem?_mapIdx, Option.map_map, Option.map_eq_some_iff] at h
    obtain ⟨y, hy, rfl⟩ := h
    exact ⟨y, hy, rfl, Nat.min_le_left _ _, rfl⟩
  · simp only [List.getElem?_mapIdx, Option.map_eq_some_iff] at h
    obtain ⟨y, hy, rfl⟩ := h
    exact ⟨y, hy, rfl, le_rfl, rfl⟩

theorem State.fitLevels_bound {s : State} {l : List DieLevels} {d : Nat} {x : DieLevels} (h : (s.fitLevels l)[d]? = some x) :
    x.g ≤ s.pw.bound d ∧ x.b ≤ s.pw.bound d ∧ x.ballast ≤ s.pw.bound d := by
  obtain ⟨y, -, hg, hb, hballast⟩ := State.fitLevels_getElem? h
  omega

/-- A die that holds GUARANTEED cores below 16 holds every BEST_EFFORT core at 1. -/
theorem State.fitLevels_best {s : State} {l : List DieLevels} {d : Nat} {x y : DieLevels} (hd : d < 8)
    (hon : s.guaranteedOn d = true) (hx : (s.fitLevels l)[d]? = some x) (hlow : x.g < 16) (hy : y ∈ s.fitLevels l) :
    y.b ≤ 1 := by
  obtain ⟨z, hz, hg, -, -⟩ := State.fitLevels_getElem? hx
  have hheld : s.guaranteedHeld (l.mapIdx (fun d x => x.atMost (s.pw.bound d))) = true := by
    refine List.any_eq_true.2 ⟨d, List.mem_range.2 hd, ?_⟩
    rw [hon, Bool.true_and, decide_eq_true_eq, List.getD_eq_getElem?_getD, List.getElem?_mapIdx, hz]
    exact lt_of_eq_of_lt hg.symm hlow
  rw [s.fitLevels_eq, if_pos hheld] at hy
  obtain ⟨w, -, rfl⟩ := List.mem_map.1 hy
  exact Nat.min_le_right _ _

theorem State.fitLevels_length (s : State) (l : List DieLevels) : (s.fitLevels l).length = l.length := by
  rw [s.fitLevels_eq]
  split <;> simp

theorem lowerOne_length (get : DieLevels → Nat) (put : DieLevels → Nat → DieLevels) (l : List DieLevels) :
    (lowerOne get put l).length = l.length := List.length_modify _ _ _

theorem raiseOne_length (get : DieLevels → Nat) (put : DieLevels → Nat → DieLevels) (l : List DieLevels) :
    (raiseOne get put l).length = l.length := List.length_modify _ _ _

theorem stepDown_length (emergency : Bool) (l : List DieLevels) : (stepDown emergency l).length = l.length := by
  unfold stepDown
  split_ifs <;> simp only [lowerOne_length]

theorem stepBallast_length (l : List DieLevels) : (stepBallast l).length = l.length := raiseOne_length _ _ _

theorem stepUp_length (l : List DieLevels) : (stepUp l).length = l.length := by
  unfold stepUp
  split_ifs <;> simp only [raiseOne_length]

theorem repeatStep_length {f : List DieLevels → List DieLevels} (h : ∀ l, (f l).length = l.length) (n : Nat)
    (l : List DieLevels) : (repeatStep f n l).length = l.length := by
  induction n generalizing l with
  | zero => rfl
  | succ n ih => exact (ih _).trans (h l)

/-- The controller fits levels of the same dies within their bounds, whatever the free value moves. -/
theorem State.control_levels {s : State} (hon : s.pw.state = .on) :
    ∃ l, l.length = s.pw.levels.length ∧ s.control.pw.levels = s.fitLevels l := by
  unfold State.control
  rw [if_neg (not_not.2 hon)]
  extract_lets r n e l up l1 t
  have hup : up.length = l.length := repeatStep_length stepUp_length _ _
  refine ⟨l1, ?_, rfl⟩
  unfold l1
  split_ifs
  · exact repeatStep_length (stepDown_length _) _ _
  · exact (repeatStep_length stepBallast_length _ _).trans hup
  · refine (repeatStep_length (fun l => ?_) _ _).trans hup
    split
    · exact stepDown_length _ _
    · rfl

/-! ## The microsecond's accounts (R523, R547) -/

/-- A microsecond at `e` watts, without ballast and without CAP_TRACKING: its energy, and its time in EMERGENCY. -/
def State.counted (s : State) (e : Nat) : State :=
  (s.setPw { s.pw with
    estimate := e, energyUj := s.pw.energyUj + e, emergUs := s.pw.emergUs + bitN s.pw.emergency }).bump .pwrExcess 0 0 0

theorem State.account_counted {s : State} (hballast : s.ballastOn = false) (htrack : s.pw.tracking = false) (e : Nat) :
    s.account e = s.counted e := by
  unfold State.account
  extract_lets cap r ballast t above pw
  have hb : ballast = 0 := if_neg (ne_true_of_eq_false hballast)
  have ht : t = s := if_neg (ne_true_of_eq_false hballast)
  have ha : above = 0 := if_neg (ne_true_of_eq_false htrack)
  have hpw : pw = s.pw := congrArg State.pw ht
  rw [hb, ha, hpw, ht]
  rfl

theorem State.counted_cap (s : State) (e : Nat) : (s.counted e).regN .pwrEffectiveCap = s.regN .pwrEffectiveCap :=
  congrArg BitVec.toNat (State.reg_bump_ne _ (by decide) _ _ _ _ _)

/-- Where no segment 0 waits for the end of a thermal hold, none starts (R542). -/
theorem State.endHeld_none {s : State} (h : ∀ n, (s.dom n).heldStart = false) : s.endHeld = s := by
  have hrelease (n : Part) : s.releaseStart n = s := by
    unfold State.releaseStart
    rw [h n]
    rfl
  have hfold (l : List Part) : l.foldl State.releaseStart s = s := by
    induction l with
    | nil => rfl
    | cons n l ih => rw [List.foldl_cons, hrelease]; exact ih
  unfold State.endHeld
  split
  · rfl
  · exact hfold _

/-- The power manager's microsecond with an estimate's input (R526 to R529, R532, R536). -/
def State.microsecond (e : EstimateInput) (s : State) : State :=
  let a := (s.ballastCycles e).account (e.sum * s.pw.gain / 4096)
  let b := if a.pw.tracking = true ∧ a.pw.estimate ≤ a.regN .pwrEffectiveCap then a.endTracking else a
  let c := if e.unheld = true then b.slopeUnheld else b
  ((c.control.excessPreempt e.aboveUs).unreachable).endHeld

theorem exec_powerEstimate (e : EstimateInput) (s : State) : exec (.powerEstimate e) s = lift (State.microsecond e) s := rfl

/-- Where the module is not ON, and nothing is tracked, held or above the cap, a microsecond is counted, and the excess is
over. -/
theorem State.microsecond_counted {e : EstimateInput} {s : State} {w : Nat} (hw : e.sum * s.pw.gain / 4096 = w)
    (hstate : s.pw.state ≠ .on) (htrack : s.pw.tracking = false) (hunheld : e.unheld = false) (hballast : s.ballastOn = false)
    (herrs : e.errs = []) (hcap : w ≤ s.regN .pwrEffectiveCap) (hheld : ∀ n, (s.dom n).heldStart = false) :
    s.microsecond e = (s.counted w).setPw { (s.counted w).pw with preempted := false, unreach := false } := by
  have hwithin : (s.counted w).pw.estimate ≤ (s.counted w).regN .pwrEffectiveCap := (s.counted_cap w).symm ▸ hcap
  have hopen : ¬((s.counted w).pw.tracking = true ∧ (s.counted w).pw.estimate ≤ (s.counted w).regN .pwrEffectiveCap) :=
    fun h => absurd (htrack.symm.trans h.1) (by decide)
  have hcontrol : (s.counted w).control = s.counted w := if_pos hstate
  have hpreempt : (s.counted w).excessPreempt e.aboveUs = (s.counted w).setPw { (s.counted w).pw with preempted := false } :=
    if_pos hwithin
  unfold State.microsecond
  rw [State.ballastCycles_off hballast herrs, hw, State.account_counted hballast htrack]
  simp only [if_neg hopen, hunheld, Bool.false_eq_true, if_false, hcontrol, hpreempt]
  have hreach : ((s.counted w).setPw { (s.counted w).pw with preempted := false }).unreachable
      = (s.counted w).setPw { (s.counted w).pw with preempted := false, unreach := false } := if_pos hwithin
  rw [hreach]
  exact State.endHeld_none hheld

/-- R153, R478, R492, R500, R511, R523, R526, R540, R543: a microsecond of the power manager. -/
theorem estimateAndLevels : EstimateAndLevels := by
  refine ⟨fun e s hstate htrack hunheld hballast herrs hcap hheld => ?_, fun e s => rfl, fun e s i k hb herrs => ?_,
    fun e s x hb herrs => ?_, fun s hon => ?_⟩
  · refine ⟨_, exec_next (exec_powerEstimate e s)
      (State.microsecond_counted rfl hstate htrack hunheld hballast herrs hcap hheld) rfl, ?_⟩
    exact ⟨rfl, rfl, rfl, rfl, rfl, rfl, rfl⟩
  · unfold State.ballastCycles
    rw [hb, herrs]
    refine ⟨s.ballasts_iff i, fun h => ?_, fun h => ?_⟩
    · simp only [List.foldl_cons, List.foldl_nil, h, State.when, if_true]
    · simp only [List.foldl_cons, List.foldl_nil, h, State.when, Bool.false_eq_true, if_false]
  · have hu : s.ballastCycles e = s.when (s.ballasts x.site) (fun u => u.ballastMismatch x) := by
      unfold State.ballastCycles
      rw [hb, herrs]
      rfl
    refine ⟨fun h => ?_, fun h => ?_⟩
    · rw [hu, h]
      rfl
    · rw [hu, h]
      obtain ⟨hdoms, hres, hev, hsnap⟩ := s.ballastMismatch_counts x
      exact ⟨hres, hev, hsnap, hdoms, State.ballastMismatch_held⟩
  · obtain ⟨l, hlen, hl⟩ := State.control_levels hon
    dsimp only
    rw [hl]
    exact ⟨fun d x => State.fitLevels_bound, fun d x y hd hg hx hlow hy => State.fitLevels_best hd hg hx hlow hy,
      (s.fitLevels_length l).trans hlen⟩

end Sys2Proof.Machine
end

section
/-! # Calibration

Support for the statement about calibration: how far the gain moves, and what a fault of the estimate leaves (R524). -/

namespace Sys2Proof.Machine

open Sys2Proof.Claims

/-! ## The gain -/

/-- The gain that a wanted one becomes: moved by at most 5 %, and kept from 0.80 to 1.25. -/
def movedGain (g wanted : Nat) : Nat := max 3277 (min 5120 (max (g * 95 / 100) (min (g * 105 / 100) wanted)))

theorem movedGain_bounds (g wanted : Nat) : 3277 ≤ movedGain g wanted ∧ movedGain g wanted ≤ 5120
    ∧ movedGain g wanted ≤ max 3277 (g * 105 / 100) ∧ min 5120 (g * 95 / 100) ≤ movedGain g wanted := by
  unfold movedGain
  omega

/-- Another gain. -/
def Power.withGain (p : Power) (g : Nat) : Power := { p with gain := g }

/-- What a gain may become in a period: with no mean to divide by it stays, and otherwise it moves towards a wanted one. -/
def GainStep (mean g g' : Nat) : Prop := (mean = 0 → g' = g) ∧ (mean ≠ 0 → ∃ wanted, g' = movedGain g wanted)

/-- An adjustment changes the gain, and takes a free value. -/
theorem State.adjustGain_leaves (s : State) (measured mean : Nat) : let t := s.adjustGain measured mean
    t.mem = s.mem ∧ t.cores = s.cores ∧ t.pending = s.pending ∧ (∀ r, t.reg r = s.reg r)
      ∧ ∃ g, t.pw = s.pw.withGain g ∧ GainStep mean s.pw.gain g := by
  by_cases h : mean = 0
  · rw [show s.adjustGain measured mean = s from if_pos h]
    exact ⟨rfl, rfl, rfl, fun _ => rfl, s.pw.gain, rfl, fun _ => rfl, fun hne => absurd h hne⟩
  · unfold State.adjustGain
    rw [if_neg h]
    exact ⟨rfl, rfl, rfl, fun _ => rfl, _, rfl, fun h0 => absurd h0 h, fun _ => ⟨_, rfl⟩⟩

/-! ## A fault of the estimate -/

/-- The power manager with EST_FAULT set and G at 1.25. -/
def Power.faulted (p : Power) : Power := { p with estFault := true, gain := 5120, goodPeriods := 0 }

/-- What a fault of the estimate leaves: EST_FAULT, G at 1.25, and, where it is new, the code 0x0C09. -/
theorem State.estFails_leaves (s : State) : let t := s.estFails
    t.pw = s.pw.faulted ∧ t.mem = s.mem ∧ t.cores = s.cores ∧ t.pending = s.pending
      ∧ (∀ r, r ∉ Reg.ofEvents → r ≠ .pwrCode → t.reg r = s.reg r)
      ∧ (s.pw.estFault = false → t.reg .pwrCode = 0x0C09) := by
  cases hf : s.pw.estFault
  · have he : s.estFails = (s.setPw s.pw.faulted).pwrReport 0x0C09 := if_neg (ne_true_of_eq_false hf)
    have h := mgmtReport_eventOnly (s.setPw s.pw.faulted) .pwrCode 0x0C09 []
    rw [he]
    refine ⟨h.pw, h.mem, h.cores, h.pending, fun r hr hne => ?_, fun _ => ?_⟩
    · exact (h.reg hr 0 0).trans (State.reg_setReg_ne _ hne.symm _ _ _ _ _)
    · exact (h.reg (by decide) 0 0).trans (State.reg_setReg_self _ _ _ _ _)
  · have he : s.estFails = s.setPw s.pw.faulted := if_pos hf
    rw [he]
    exact ⟨rfl, rfl, rfl, rfl, fun _ _ _ => rfl, fun h => absurd h (by decide)⟩

/-! ## Periods of 10 ms -/

/-- A period without a measured power. -/
def State.missedPeriod (s : State) : State :=
  let t := s.setPw { s.pw with missing := s.pw.missing + 1, goodPeriods := 0 }
  if 3 ≤ t.pw.missing then t.estFails else t

theorem exec_calibration_none (mean vin : Nat) (s : State) :
    exec (.calibration none mean vin) s = lift State.missedPeriod s := rfl

/-- The counts after a period whose measured power is within 0.80 to 1.25 of the mean estimate, and after another. -/
def Power.goodPeriod (p : Power) : Power :=
  { p with missing := 0, badPeriods := 0, goodPeriods := p.goodPeriods + 1,
           estFault := p.estFault && decide (p.goodPeriods + 1 < 10) }

def Power.badPeriod (p : Power) : Power := { p with missing := 0, badPeriods := p.badPeriods + 1, goodPeriods := 0 }

/-- The power manager after a period with a measured power: the third in a row outside is a fault. -/
def Power.period (p : Power) (inside : Bool) : Power :=
  if inside then p.goodPeriod else if 3 ≤ p.badPeriods + 1 then p.badPeriod.faulted else p.badPeriod

/-- A measured power is kept with the voltage, and the gain adjusted to it. -/
def State.takeMeasure (s : State) (m mean vin : Nat) : State :=
  (s.setReg .pwrMeasured 0 0 (fields [(m % 2 ^ 32, 0), (vin % 2 ^ 16, 32)])).adjustGain m mean

/-- A period with a measured power is counted, by whether the ratio is inside. -/
def State.countPeriod (s : State) (inside : Bool) : State :=
  if inside then s.setPw s.pw.goodPeriod
  else if 3 ≤ s.pw.badPeriods + 1 then (s.setPw s.pw.badPeriod).estFails else s.setPw s.pw.badPeriod

theorem exec_calibration_some (m mean vin : Nat) (s : State) :
    exec (.calibration (some m) mean vin) s = lift (fun t =>
      (t.takeMeasure m mean vin).countPeriod (decide (80 * mean ≤ 100 * m) && decide (100 * m ≤ 125 * mean))) s := rfl

/-- A word of two fields, the first at bit 0. -/
theorem fields_two (a b k : Nat) : fields [(a, 0), (b, k)] = BitVec.ofNat 64 (a + b * 2 ^ k) := by
  simp [fields]

/-- What a measured power leaves: its register, and the gain. -/
theorem State.takeMeasure_leaves (s : State) (m mean vin : Nat) : let u := s.takeMeasure m mean vin
    u.mem = s.mem ∧ u.cores = s.cores ∧ u.pending = s.pending
      ∧ u.reg .pwrMeasured = BitVec.ofNat 64 (m % 2 ^ 32 + vin % 2 ^ 16 * 2 ^ 32)
      ∧ ∃ g, u.pw = s.pw.withGain g ∧ GainStep mean s.pw.gain g := by
  unfold State.takeMeasure
  rw [fields_two]
  generalize BitVec.ofNat 64 (m % 2 ^ 32 + vin % 2 ^ 16 * 2 ^ 32) = w
  obtain ⟨hmem, hcores, hpend, hreg, hpw⟩ := (s.setReg .pwrMeasured 0 0 w).adjustGain_leaves m mean
  exact ⟨hmem, hcores, hpend, (hreg _).trans (State.reg_setReg_self _ _ _ _ _), hpw⟩

/-- What the count of a period leaves: the power manager's counts, and the code where a fault is new. -/
theorem State.countPeriod_leaves (s : State) (inside : Bool) : let t := s.countPeriod inside
    t.mem = s.mem ∧ t.cores = s.cores ∧ t.pending = s.pending ∧ t.reg .pwrMeasured = s.reg .pwrMeasured
      ∧ t.pw = s.pw.period inside := by
  unfold State.countPeriod Power.period
  dsimp only
  split
  · exact ⟨rfl, rfl, rfl, rfl, rfl⟩
  · split
    · obtain ⟨hpw, hmem, hcores, hpend, hreg, -⟩ := (s.setPw s.pw.badPeriod).estFails_leaves
      exact ⟨hmem, hcores, hpend, hreg _ (by decide) (by decide), hpw⟩
    · exact ⟨rfl, rfl, rfl, rfl, rfl⟩

/-- R524: calibration. -/
theorem calibration : Calibration := by
  intro mean vin s
  refine ⟨fun hm => ?_, fun hm => ?_, fun m => ?_⟩
  · exact exec_next (exec_calibration_none mean vin s) (if_neg (Nat.not_le.2 hm)) rfl
  · obtain ⟨hpw, hmem, -, hpend, -, hcode⟩ :=
      (s.setPw { s.pw with missing := s.pw.missing + 1, goodPeriods := 0 }).estFails_leaves
    refine ⟨_, exec_next (exec_calibration_none mean vin s) (if_pos (Nat.succ_le_succ hm)) hpend, ?_⟩
    rw [hpw]
    exact ⟨rfl, rfl, rfl, hcode, hmem⟩
  · obtain ⟨hmem, hcores, hpend, hreg, g, hpw, hzero, hmoved⟩ := s.takeMeasure_leaves m mean vin
    have hgain (hne : mean ≠ 0) : 3277 ≤ g ∧ g ≤ 5120 ∧ g ≤ max 3277 (s.pw.gain * 105 / 100)
        ∧ min 5120 (s.pw.gain * 95 / 100) ≤ g := by
      obtain ⟨wanted, rfl⟩ := hmoved hne
      exact movedGain_bounds _ _
    obtain ⟨hmem', hcores', hpend', hreg', hpw'⟩ := (s.takeMeasure m mean vin).countPeriod_leaves
      (decide (80 * mean ≤ 100 * m) && decide (100 * m ≤ 125 * mean))
    intro inside
    refine ⟨_, exec_next (exec_calibration_some m mean vin s) rfl (hpend'.trans hpend), ?_⟩
    rw [hpw', hpw, hreg', hreg, hmem', hmem, hcores', hcores, ← Bool.decide_and]
    by_cases hin : inside
    · rw [decide_eq_true hin]
      refine ⟨rfl, rfl, rfl, rfl, fun hne _ => hgain hne, fun h0 _ => hzero h0, fun _ => ⟨rfl, rfl, ?_⟩,
        fun hout => absurd hin hout⟩
      exact Bool.and_eq_true_iff.trans (and_congr_right fun _ => decide_eq_true_iff)
    · rw [decide_eq_false hin]
      by_cases hthird : 2 ≤ s.pw.badPeriods
      · rw [show (s.pw.withGain g).period false = (s.pw.withGain g).badPeriod.faulted from if_pos (Nat.succ_le_succ hthird)]
        exact ⟨rfl, rfl, rfl, rfl, fun _ h => absurd h hin, fun _ h => absurd h hin, fun h => absurd h hin,
          fun _ => ⟨rfl, rfl, fun _ => ⟨rfl, rfl⟩, fun h => absurd hthird (Nat.not_le.2 h)⟩⟩
      · rw [show (s.pw.withGain g).period false = (s.pw.withGain g).badPeriod from
          if_neg (fun h => hthird (Nat.le_of_succ_le_succ h))]
        exact ⟨rfl, rfl, rfl, rfl, fun _ h => absurd h hin, fun _ h => absurd h hin, fun h => absurd h hin,
          fun _ => ⟨rfl, rfl, fun h => absurd h hthird, fun _ => rfl⟩⟩

/-- Settles O48: the microsecond's estimate and levels, and the periods of calibration, each by what its step leaves. -/
theorem estimateAndCalibration : Obligations.EstimateAndCalibration := ⟨estimateAndLevels, calibration⟩

end Sys2Proof.Machine
end

section
/-! # QOPEN, QCLOSE, QSYNC and QSTAT (R159, R165, R189, R203) -/

namespace Sys2Proof.Machine

open Sys2Proof.Claims

/-! ## Going on where no loop ends (R221) -/

/-- A core that reaches no loop's end goes on after its wait. -/
theorem State.resume_straight {s : State} {c : CoreId} (h : Straight (s.core c) 1) :
    s.resume c = s.setCore c { s.core c with wait := none, pc := (s.core c).pc + 1 } := by
  unfold State.resume
  rw [State.updCore_eq, State.advance_seq (h := by rw [State.core_setCore_self]; exact h), State.core_setCore_self,
    State.setCore_setCore]

/-- A change of a core whose stations are at rest, where no core of its partition waits, and then the next instruction. -/
theorem State.thenNext_rest {s : State} {c : CoreId} {n : Part} {f : State → State} {y : Core} (hf : f s = s.setCore c y)
    (hq : QuietStations s c n) (hrest : y.AtRest) (hwait : y.wait = none) (hkilled : y.killed = none) (hs : Straight y 1) :
    State.thenNext c f s = s.setCore c { y with pc := y.pc + 1 } := by
  obtain ⟨hpart, _, _, _, _, _, _, _, hwaiters, hsyncs⟩ := hq
  have hcore : (s.setCore c y).core c = y := State.core_setCore_self _ _ _
  have hsettle : State.settle c (f s) = s.setCore c y := by
    rw [hf]
    exact State.settle_rest (by rw [hcore]; exact hrest) hpart hsyncs ((Aside.refl s).waiters_none hwaiters hwait)
  unfold State.thenNext
  rw [hsettle]
  dsimp only
  rw [if_neg (by rw [hcore, hkilled]; decide), State.advance_seq (h := by rw [hcore]; exact hs), hcore, State.setCore_setCore]

/-! ## Waits for a stream (R166, R203) -/

section
variable {s : State} {c : CoreId} {q : BitVec 4} (hkilled : (s.core c).killed = none) (hquiet : (s.core c).quiet q = true)
  (hs : Straight (s.core c) 1)
include hkilled hquiet hs

/-- QSYNC passes a quiet stream. -/
theorem State.wake_qsync (hw : (s.core c).wait = some (.qsync q)) :
    State.wake c s = s.setCore c { s.core c with wait := none, pc := (s.core c).pc + 1 } := by
  have hwake : State.wake c s = s.resume c := by
    unfold State.wake
    simp only [hkilled, hw, hquiet, Option.isSome_none, Bool.false_eq_true, if_false, if_true]
  rw [hwake, State.resume_straight hs]

/-- QCLOSE frees a quiet stream. -/
theorem State.wake_qclose (hw : (s.core c).wait = some (.qclose q)) :
    State.wake c s = s.setCore c
      { s.core c with streams := Assoc.del q (s.core c).streams, wait := none, pc := (s.core c).pc + 1 } := by
  have hwake : State.wake c s
      = (s.setCore c { s.core c with streams := Assoc.del q (s.core c).streams }).resume c := by
    unfold State.wake
    simp only [hkilled, hw, hquiet, Option.isSome_none, Bool.false_eq_true, if_false, if_true]
  rw [hwake, State.resume_straight (by rw [State.core_setCore_self]; exact hs), State.core_setCore_self, State.setCore_setCore]

end

/-! ## QOPEN (R159, R203) -/

/-- A core with a stream opened. -/
def Core.opened (x : Core) (f : FmtQ) : Core := { x with streams := Assoc.put f.qn (streamOf f) x.streams }

section
variable {c : CoreId} {s : State} {f : FmtQ} (hi : Issues s c f.guard [] false) (hrsv : f.rsv = 0)
include hi hrsv

/-- QOPEN whose fields are wrong is 0x0309. -/
theorem exec_qopen_bad (hbad : qopenBad (s.core c) f = true) : exec (.qopen c f) s = .next (s.kill c 0x0309) :=
  exec_next (show execQopen c f s = lift _ s from rfl) ((issue1_runs hi (by simp [hrsv]) _).trans (if_pos hbad))
    (State.kill_pending _ _ _ _)

/-- QOPEN opens a handle that is not open. -/
theorem exec_qopen_closed (hok : qopenBad (s.core c) f = false) (hnone : Assoc.find f.qn (s.core c).streams = none) :
    exec (.qopen c f) s = .next (after (State.thenNext c (fun t => t.setCore c ((t.core c).opened f))) s) := by
  refine exec_after (show execQopen c f s = lift _ s from rfl) ((issue1_runs hi (by simp [hrsv]) _).trans ?_)
  dsimp only
  rw [hok, show (s.core c).stream f.qn = none from hnone]
  rfl

end

/-- With its stations quiet, a core that opens a handle only goes on. -/
theorem thenNext_opened {s : State} {c : CoreId} {n : Part} {f : FmtQ} (hi : Issues s c f.guard [] false)
    (hq : QuietStations s c n) (hs : Straight (s.core c) 1) {g : State → State} (hg : g s = s.setCore c ((s.core c).opened f)) :
    State.thenNext c g s = s.setCore c { (s.core c).opened f with pc := (s.core c).pc + 1 } := by
  obtain ⟨hwait, hkilled⟩ := idle_of_issues hi
  obtain ⟨hmxq, hvxq, htxq, hlxq, hsvq, hruns, hcolls⟩ := atRest_of_quiet hq
  exact State.thenNext_rest hg hq ⟨hmxq, hvxq, htxq, hlxq, hsvq, hruns, hcolls⟩ hwait hkilled hs

/-! ## QCLOSE and QSYNC (R166, R203) -/

/-- What may stand in an audit unit issues wherever what may not does (R230). -/
theorem issues_audit {s : State} {c : CoreId} {g : BitVec 4} {l : List Dest} (h : Issues s c g l false) : Issues s c g l true := by
  obtain ⟨hcan, hdown, hpc, hguard, -, hlate⟩ := h
  exact ⟨hcan, hdown, hpc, hguard, .inl rfl, hlate⟩

section
variable {c : CoreId} {s : State} {f : FmtT} (hi : Issues s c f.guard [] false) (hrsv : tBad f { q0 := true } = false)
include hi hrsv

/-- QCLOSE and QSYNC of a handle that is not open are 0x0309. -/
theorem exec_qclose_qsync_closed (hnone : Assoc.find f.q0 (s.core c).streams = none) :
    exec (.qclose c f) s = .next (s.kill c 0x0309) ∧ exec (.qsync c f) s = .next (s.kill c 0x0309) := by
  have hst : ((s.core c).stream f.q0).isNone = true := Option.isNone_iff_eq_none.2 hnone
  exact ⟨exec_next (show execQclose c f s = lift _ s from rfl) ((issue1_runs hi hrsv _).trans (if_pos hst))
      (State.kill_pending _ _ _ _),
    exec_next (show execQsync c f s = lift _ s from rfl) ((issue1_runs (issues_audit hi) hrsv _).trans (if_pos hst))
      (State.kill_pending _ _ _ _)⟩

/-- QCLOSE and QSYNC of an open handle start to wait. -/
theorem exec_qclose_qsync_open (hsome : (Assoc.find f.q0 (s.core c).streams).isSome = true) :
    exec (.qclose c f) s = .next (after (startWait c (.qclose f.q0)) s)
      ∧ exec (.qsync c f) s = .next (after (startWait c (.qsync f.q0)) s) := by
  have hst : ¬ ((s.core c).stream f.q0).isNone = true := by
    rw [Option.isNone_iff_eq_none]
    exact Option.isSome_iff_ne_none.1 hsome
  exact ⟨exec_after (show execQclose c f s = lift _ s from rfl) ((issue1_runs hi hrsv _).trans (if_neg hst)),
    exec_after (show execQsync c f s = lift _ s from rfl) ((issue1_runs (issues_audit hi) hrsv _).trans (if_neg hst))⟩

end

/-- The waits of QCLOSE and QSYNC for a quiet stream end: the one frees it, the other leaves it. -/
theorem wake_stream_quiet {s : State} {c : CoreId} {x : Core} {q : BitVec 4} (hwait : x.wait = none) (hkilled : x.killed = none)
    (hquiet : x.quiet q = true) (hs : Straight x 1) :
    State.wake c (s.setCore c { x with wait := some (.qclose q) })
        = s.setCore c { x with streams := Assoc.del q x.streams, pc := x.pc + 1 }
      ∧ State.wake c (s.setCore c { x with wait := some (.qsync q) }) = s.setCore c { x with pc := x.pc + 1 } := by
  have hcore (w : Wait) : (s.setCore c { x with wait := some w }).core c = { x with wait := some w } :=
    State.core_setCore_self _ _ _
  constructor
  · rw [State.wake_qclose (q := q) (by rw [hcore]; exact hkilled) (by rw [hcore]; exact hquiet) (by rw [hcore]; exact hs)
      (by rw [hcore]), hcore, State.setCore_setCore, ← hwait]
  · rw [State.wake_qsync (q := q) (by rw [hcore]; exact hkilled) (by rw [hcore]; exact hquiet) (by rw [hcore]; exact hs)
      (by rw [hcore]), hcore, State.setCore_setCore, ← hwait]

/-! ## QSTAT (R165, R189, R203) -/

/-- A write of a scalar register touches the scalar registers and the late results. -/
theorem Core.wrS_frame (x : Core) (r : BitVec 5) (v : Word) :
    x.wrS r v = { x with s := (x.wrS r v).s, late := (x.wrS r v).late } := by
  unfold Core.wrS
  split <;> rfl

/-- A write of a scalar register does not turn on the streams. -/
theorem Core.wrS_streams (x : Core) (l : List (BitVec 4 × Stream)) (r : BitVec 5) (v : Word) :
    Core.wrS { x with streams := l } r v = { x.wrS r v with streams := l } := by
  unfold Core.wrS
  split <;> rfl

/-- A clear of sticky flags touches the streams alone. -/
theorem Core.clearSticky_frame (x : Core) (q : BitVec 4) (flags : BitVec 7) :
    x.clearSticky q flags = { x with streams := (x.clearSticky q flags).streams } := by
  unfold Core.clearSticky
  split <;> rfl

/-- A clear of every sticky flag of a stream leaves the stream otherwise, and every other stream. -/
theorem Core.find_clearSticky (x : Core) (q r : BitVec 4) :
    Assoc.find r (x.clearSticky q 0x7F).streams
      = (Assoc.find r x.streams).map (fun y => if r = q then { y with sticky := 0 } else y) := by
  unfold Core.clearSticky Core.stream
  by_cases hr : r = q
  · subst hr
    cases hfind : Assoc.find r x.streams with
    | none => simp [hfind]
    | some st => simp
  · cases Assoc.find q x.streams with
    | none => simp [hr]
    | some st => simp [hr, Assoc.find_put_ne (Ne.symm hr)]

/-- What CLR of QSTAT does to a core's streams. -/
def Core.qstatCleared (x : Core) (f : FmtT) : Core := if f.m.getLsbD 0 then x.clearSticky f.q0 0x7F else x

theorem Core.qstatCleared_frame (x : Core) (f : FmtT) : x.qstatCleared f = { x with streams := (x.qstatCleared f).streams } := by
  unfold Core.qstatCleared
  split
  · exact Core.clearSticky_frame _ _ _
  · rfl

theorem Core.find_qstatCleared (x : Core) {f : FmtT} (hm : f.m = 0 ∨ f.m = 1) (q : BitVec 4) :
    Assoc.find q (x.qstatCleared f).streams
      = (Assoc.find q x.streams).map (fun y => if q = f.q0 ∧ f.m = 1 then { y with sticky := 0 } else y) := by
  unfold Core.qstatCleared
  rcases hm with hm | hm <;> rw [hm]
  · simp
  · simpa using Core.find_clearSticky x f.q0 q

/-- What QSTAT makes of its core before the next instruction. -/
def Core.qstatRead (x : Core) (f : FmtT) : Core := (x.qstatCleared f).wrS f.s2 (qstatWord (x.stream f.q0))

theorem Core.qstatRead_frame (x : Core) (f : FmtT) :
    x.qstatRead f = { x with
      s := (x.wrS f.s2 (qstatWord (x.stream f.q0))).s
      late := (x.wrS f.s2 (qstatWord (x.stream f.q0))).late
      streams := (x.qstatCleared f).streams } :=
  calc x.qstatRead f
    _ = Core.wrS { x with streams := (x.qstatCleared f).streams } f.s2 (qstatWord (x.stream f.q0)) :=
        congrArg (fun y => Core.wrS y f.s2 (qstatWord (x.stream f.q0))) (Core.qstatCleared_frame x f)
    _ = { x.wrS f.s2 (qstatWord (x.stream f.q0)) with streams := (x.qstatCleared f).streams } := Core.wrS_streams _ _ _ _
    _ = _ := congrArg (fun y : Core => { y with streams := (x.qstatCleared f).streams }) (Core.wrS_frame _ _ _)

/-- QSTAT changes its core as it reads, and goes on. -/
theorem exec_qstat {c : CoreId} {s : State} {f : FmtT} (hi : Issues s c f.guard [] true)
    (hrsv : tBad f { q0 := true, m := 1, s2 := true } = false) (hs : Straight (s.core c) 1) :
    exec (.qstat c f) s = .next (s.setCore c { (s.core c).qstatRead f with pc := (s.core c).pc + 1 }) := by
  have hframe := Core.qstatRead_frame (s.core c) f
  refine exec_next (show execQstat c f s = lift _ s from rfl) ((issue1_runs hi hrsv _).trans ?_) rfl
  exact onCore_seq c 1 (fun x => x.qstatRead f) s (by rw [hframe]) (by rw [hframe]) (by rw [hframe]) hs

/-! ## The statement -/

/-- Settles O18: QOPEN by its checks, QCLOSE and QSYNC by the waits that they start, QSTAT by what it makes of its core. -/
theorem streamCommands : Obligations.StreamCommands := by
  intro c n s x hx
  subst hx
  refine ⟨fun f hi hrsv => ⟨exec_qopen_bad hi hrsv, exec_qopen_closed hi hrsv, fun hok hq hs hnone => ?_⟩,
    fun f hq1 hq2 hq3 ht0 ht1 hfn hs => ⟨fun hi hm hs2 => ?_, fun hi hm hstraight => ?_⟩⟩
  · rw [exec_qopen_closed hi hrsv hok hnone, after, thenNext_opened hi hq hs rfl]
    rfl
  · have hrsv : tBad f { q0 := true } = false := by simp [tBad, hq1, hq2, hq3, ht0, ht1, hfn, hs, hm, hs2]
    obtain ⟨hwait, hkilled⟩ := idle_of_issues hi
    refine ⟨exec_qclose_qsync_closed hi hrsv, fun hopen => ?_⟩
    obtain ⟨hclose, hsync⟩ := exec_qclose_qsync_open hi hrsv hopen
    exact ⟨hclose, hsync, wake_stream_quiet hwait hkilled⟩
  · have hm01 : f.m = 0 ∨ f.m = 1 := by bv_omega
    have hrsv : tBad f { q0 := true, m := 1, s2 := true } = false := by
      rcases hm01 with h | h <;> simp [tBad, hq1, hq2, hq3, ht0, ht1, hfn, hs, h]
    have hread (r : BitVec 5) := Core.rdS_wrS (s.core c) f.s2 r (qstatWord ((s.core c).stream f.q0))
    have hframe := Core.qstatRead_frame (s.core c) f
    refine ⟨_, exec_qstat hi hrsv hstraight, ?_⟩
    rw [State.core_setCore_self, hframe]
    refine ⟨?_, fun r hr => ?_, Core.find_qstatCleared _ hm01, rfl⟩
    · exact (hread f.s2).trans (by rw [if_pos rfl]; rfl)
    · refine (hread r).trans ?_
      rw [if_neg hr]
      exact ite_eq_right_iff.2 (fun h0 => (if_pos h0).symm)

end Sys2Proof.Machine
end

section
/-! # Scalar instructions (R190, R193, R195 to R198, R200) -/

namespace Sys2Proof.Machine

open Sys2Proof.Claims

/-! ## Issue and the next instruction -/

theorem onCode_of_issues {s : State} {c : CoreId} {g : BitVec 4} {reads : List Dest} {au : Bool} (h : Issues s c g reads au) :
    s.onCode c := by
  obtain ⟨hcan, hdown, hpc, -, -, -⟩ := h
  exact ⟨hcan, hdown, hpc⟩

section
variable {s : State} {c : CoreId} {i : IssueForm} {reads : List Dest} {au : Bool}

/-- An instruction of any length that issues with no reserved bit set has its own effect. -/
theorem issue_of_issues (h : Issues s c i.guard i.reads i.inAudit) (hr : i.reserved = false) (k : Nat) (b : State → State) :
    issue c i k b s = b s := by
  have hcode := onCode_of_issues h
  obtain ⟨-, -, -, hguard, haudit, hlate⟩ := h
  exact issue_runs c i k b s hcode hr hguard haudit hlate

/-- An instruction with a reserved bit or code set is 0x0302, whatever it reads (R195, R196). -/
theorem exec_reserved {j : Instr} {g : BitVec 4} {k : Nat} {b : State → State} (h : Issues s c g reads au)
    (hr : i.reserved = true) (hx : exec j s = lift (issue c i k b) s) : exec j s = .next (s.kill c 0x0302) :=
  exec_next hx (issue_reserved c i k b s (onCode_of_issues h) hr) (State.kill_pending _ _ _ _)

end

/-- A change of a core that keeps its program counter and stacks, and then the next instruction. -/
theorem onCore_straight {s : State} {c : CoreId} {k : Nat} {f : Core → Core} (hs : Straight (s.core c) k)
    (hpc : (f (s.core c)).pc = (s.core c).pc) (hl : (f (s.core c)).loops = (s.core c).loops)
    (hc : (f (s.core c)).calls = (s.core c).calls) :
    onCore c k f s = s.setCore c { f (s.core c) with pc := (s.core c).pc + k } :=
  onCore_seq c k f s hpc hl hc hs

/-- A write of a scalar register, and then the next instruction. -/
theorem onCore_wrS {s : State} {c : CoreId} {k : Nat} (hs : Straight (s.core c) k) (d : BitVec 5) (v : Core → Word) :
    onCore c k (fun x => x.wrS d (v x)) s
      = s.setCore c { (s.core c).wrS d (v (s.core c)) with pc := (s.core c).pc + k } := by
  have hframe := Core.wrS_frame (s.core c) d (v (s.core c))
  exact onCore_straight hs (by rw [hframe]) (by rw [hframe]) (by rw [hframe])

/-! ## The scalar instructions as one -/

/-- What a scalar instruction gives to issue. -/
def scalarIssue (w : ScalarForm) : IssueForm := ⟨w.guard, w.words, w.reserved, true, w.reads⟩

/-- A scalar instruction issues, writes its result to its destination, and goes on. -/
def scalarEffect (w : ScalarForm) : State → State :=
  issue w.core (scalarIssue w) w.words (onCore w.core w.words (fun x => x.wrS w.dest (w.value x)))

/-- The six bits of a shift's amount (R198). -/
theorem toNat_mod_64 (b : Word) : b.toNat % 64 = (b.extractLsb' 0 6).toNat := by
  rw [BitVec.extractLsb'_toNat, Nat.shiftRight_zero]

/-- The choice of MIN and MAX by signed comparison (R198). -/
theorem ite_slt (a b x y : Word) : (if BitVec.slt a b then x else y) = if b.toInt ≤ a.toInt then y else x := by
  by_cases h : a.toInt < b.toInt
  · rw [if_pos (BitVec.slt_iff_toInt_lt.2 h), if_neg (by omega)]
  · rw [if_neg (mt BitVec.slt_iff_toInt_lt.1 h), if_pos (by omega)]

/-- An instruction on two scalars is the one of the table with the same operation. -/
theorem exec_twoOperands {i : Instr} {c : CoreId} {f : FmtR} {op op' : Word → Word → Word} {w : ScalarForm} {s : State}
    (h : twoOperands c f op = some w) (hop : ∀ a b, op' a b = op a b) (hx : exec i s = lift (scalarRR c f op') s) :
    exec i s = lift (scalarEffect w) s := by
  obtain rfl : op' = op := funext fun a => funext (hop a)
  cases h
  exact hx

/-- TDGET reads a field of a descriptor register; an unassigned field, which is a reserved code, reads as nothing. -/
theorem exec_tdget (c : CoreId) (f : FmtR) (s : State) : exec (.tdget c f) s = lift (scalarEffect
    ⟨c, f.guard, 1, f.b != 0 || f.c != 0 || f.x != 0 || (descFieldId f.fn.toNat).isNone, [.td f.a], f.d,
      fun x => match descFieldId f.fn.toNat with
        | some (lo, n, sgn) => BitVec.ofInt 64 (fieldValue (x.rdTd f.a) lo n sgn)
        | none => 0⟩) s := by
  refine (show exec (.tdget c f) s = lift (issue c _ 1 (onCore c 1 fun x => x.wrS f.d _)) s from rfl).trans ?_
  unfold scalarEffect scalarIssue
  cases descFieldId f.fn.toNat with
  | some fld => rfl
  | none =>
    have hnothing (x : Core) : BitVec.ofInt 64 (fieldValue (x.rdTd f.a) 0 0 false) = 0 := by
      simp [fieldValue, descField, Nat.mod_one]
    simp only [Option.getD_none, hnothing]

/-- Each scalar instruction does as its row of R197 and R198 says. -/
theorem exec_scalar {i : Instr} {w : ScalarForm} (h : scalarOf i = some w) (s : State) : exec i s = lift (scalarEffect w) s := by
  unfold scalarOf at h
  split at h
  case h_1 | h_2 | h_3 | h_4 | h_5 | h_6 | h_7 => exact exec_twoOperands h (fun _ _ => rfl) rfl
  case h_8 => exact exec_twoOperands h (fun a b => by rw [toNat_mod_64]) rfl
  case h_9 => exact exec_twoOperands h (fun a b => by rw [toNat_mod_64]) rfl
  case h_10 => exact exec_twoOperands h (fun a b => by rw [toNat_mod_64]) rfl
  case h_11 => exact exec_twoOperands h (fun a b => ite_slt b a b a) rfl
  case h_12 => exact exec_twoOperands h (fun a b => ite_slt a b b a) rfl
  case h_13 | h_14 | h_15 | h_16 => cases h; rfl
  case h_17 c f =>
    cases h
    exact exec_tdget c f s
  case h_18 => cases h

/-- Settles O10: a scalar instruction writes one register of its core, and goes on. -/
theorem scalarResults : Obligations.ScalarResults := by
  intro i w s h hi
  have hx := exec_scalar h s
  refine ⟨fun hrsv hs => ?_, fun hrsv => exec_reserved hi hrsv hx⟩
  let y : Core := (s.core w.core).wrS w.dest (w.value (s.core w.core))
  have hread (r : BitVec 5) : Core.rdS { y with pc := (s.core w.core).pc + w.words } r = _ :=
    Core.rdS_wrS (s.core w.core) w.dest r (w.value (s.core w.core))
  refine ⟨s.setCore w.core { y with pc := (s.core w.core).pc + w.words },
    exec_next hx ((issue_of_issues (i := scalarIssue w) hi hrsv _ _).trans (onCore_wrS hs _ _)) rfl, ?_⟩
  rw [State.core_setCore_self]
  refine ⟨rfl, ?_, fun r hr => ?_, rfl, ?_⟩
  · rw [hread, if_pos rfl]
  · rw [hread, if_neg hr]
    exact ite_eq_right_iff.2 (fun h0 => (if_pos h0).symm)
  · rw [show y = _ from Core.wrS_frame _ _ _]

end Sys2Proof.Machine
end

section
/-! # CMP, PLOG and RDSR (R190, R195, R198, R201) -/

namespace Sys2Proof.Machine

open Sys2Proof.Claims

/-! ## Predicates -/

/-- A write of a predicate touches the predicates alone. -/
theorem Core.wrP_frame (x : Core) (r : BitVec 3) (v : Bool) : x.wrP r v = { x with p := (x.wrP r v).p } := by
  unfold Core.wrP
  split <;> rfl

/-- An instruction that issues, writes a predicate and goes on. -/
theorem exec_wrP {i : Instr} {s : State} {c : CoreId} {g : BitVec 4} {reads : List Dest} {reserved : Bool} {d : BitVec 3}
    {w : Core → Bool} (hi : Issues s c g reads true) (hs : Straight (s.core c) 1) (hr : reserved = false)
    (hx : exec i s = lift (issue1 c g reserved true reads (onCore c 1 (fun x => x.wrP d (w x)))) s) :
    ∃ t, exec i s = .next t ∧ t = s.setCore c { s.core c with p := (t.core c).p, pc := (s.core c).pc + 1 }
      ∧ ∀ r, (t.core c).rdP r = if r = 0 then true else if r = d then w (s.core c) else (s.core c).rdP r := by
  have hframe := Core.wrP_frame (s.core c) d (w (s.core c))
  refine ⟨_, exec_next hx ((issue1_runs hi hr _).trans
    (onCore_straight hs (by rw [hframe]) (by rw [hframe]) (by rw [hframe]))) rfl, ?_, fun r => ?_⟩
  · rw [State.core_setCore_self, hframe]
  · rw [State.core_setCore_self]
    exact Core.rdP_wrP (s.core c) d r (w (s.core c))

/-- The conditions of CMP by their function codes (R198). -/
theorem cmpCond_eq {fn : BitVec 8} {a b : Word} {v : Bool}
    (h : (fn = 0 ∧ v = decide (a = b)) ∨ (fn = 1 ∧ v = decide (a ≠ b)) ∨ (fn = 2 ∧ v = decide (a.toInt < b.toInt))
      ∨ (fn = 3 ∧ v = decide (b.toInt ≤ a.toInt)) ∨ (fn = 4 ∧ v = decide (a.toNat < b.toNat))
      ∨ (fn = 5 ∧ v = decide (b.toNat ≤ a.toNat))) : cmpCond fn a b = some v := by
  obtain ⟨rfl, rfl⟩ | ⟨rfl, rfl⟩ | ⟨rfl, rfl⟩ | ⟨rfl, rfl⟩ | ⟨rfl, rfl⟩ | ⟨rfl, rfl⟩ := h
  · rfl
  · rfl
  · rfl
  · exact congrArg some (by rw [BitVec.slt, ← decide_not, decide_eq_decide, not_lt])
  · rfl
  · exact congrArg some (by rw [BitVec.ult, ← decide_not, decide_eq_decide, not_lt])

/-- The operations of PLOG by their function codes (R198). -/
theorem plogOp_eq {fn : BitVec 8} {a b v : Bool}
    (h : (fn = 0 ∧ v = (a && b)) ∨ (fn = 1 ∧ v = (a || b)) ∨ (fn = 2 ∧ v = (a != b)) ∨ (fn = 3 ∧ v = (a && !b))) :
    plogOp fn a b = some v := by
  obtain ⟨rfl, rfl⟩ | ⟨rfl, rfl⟩ | ⟨rfl, rfl⟩ | ⟨rfl, rfl⟩ := h
  · rfl
  · rfl
  · exact congrArg some (by cases a <;> cases b <;> rfl)
  · rfl

/-- Whether a function code of CMP is assigned does not turn on the operands. -/
theorem cmpCond_isNone (fn : BitVec 8) (a b a' b' : Word) : (cmpCond fn a b).isNone = (cmpCond fn a' b').isNone := by
  unfold cmpCond
  split <;> simp only [Option.isNone_some, Option.isNone_none]

/-- Whether a function code of PLOG is assigned does not turn on the operands. -/
theorem plogOp_isNone (fn : BitVec 8) (a b a' b' : Bool) : (plogOp fn a b).isNone = (plogOp fn a' b').isNone := by
  unfold plogOp
  split <;> simp only [Option.isNone_some, Option.isNone_none]

theorem pnBad_eq_false {r : BitVec 5} (h : r.toNat < 8) : pnBad r = false := by
  simp [pnBad, h]

theorem predicateResults : PredicateResults := by
  intro c f s hs hc hx hd
  refine ⟨fun hi v hv => ?_, fun hi ha hb v hv => ?_⟩
  · have hcond := cmpCond_eq hv
    have hrsv : (pnBad f.d || f.c != 0 || f.x != 0 || (cmpCond f.fn 0 0).isNone) = false := by
      rw [cmpCond_isNone f.fn 0 0, hcond, pnBad_eq_false hd, hc, hx]
      rfl
    obtain ⟨t, ht, hframe, hread⟩ := exec_wrP hi hs hrsv (show exec (.cmp c f) s = lift _ s from rfl)
    refine ⟨t, ht, hframe, fun r => (hread r).trans ?_⟩
    rw [hcond]
    rfl
  · have hop := plogOp_eq hv
    have hrsv : (pnBad f.d || pnBad f.a || pnBad f.b || f.c != 0 || f.x != 0 || (plogOp f.fn true true).isNone) = false := by
      rw [plogOp_isNone f.fn true true, hop, pnBad_eq_false hd, pnBad_eq_false ha, pnBad_eq_false hb, hc, hx]
      rfl
    obtain ⟨t, ht, hframe, hread⟩ := exec_wrP hi hs hrsv (show exec (.plog c f) s = lift _ s from rfl)
    refine ⟨t, ht, hframe, fun r => (hread r).trans ?_⟩
    rw [show pn f.a = f.a.setWidth 3 from rfl, show pn f.b = f.b.setWidth 3 from rfl, hop]
    rfl

/-! ## Special registers (R201) -/

/-- Every number below 13 names a special register. -/
theorem specialReg_isSome (s : State) (c : CoreId) : ∀ {k : Nat}, k < 13 → (specialReg s c k).isSome = true
  | 0, _ | 1, _ | 2, _ | 3, _ | 4, _ | 5, _ | 6, _ | 7, _ | 8, _ | 9, _ | 10, _ | 11, _ | 12, _ => rfl
  | k + 13, h => absurd h (by omega)

theorem specialRegisters : SpecialRegisters := by
  intro c f s n hi hs ha hn
  have hx : exec (.rdsr c f) s = lift (issue1 c f.guard (f.a != 0 || decide (12 < f.imm.toNat)) false []
    (fun s => onCore c 1 (fun x => x.wrS f.d ((specialReg s c f.imm.toNat).getD 0)) s)) s := rfl
  refine ⟨fun hlt => ?_, fun hge => exec_reserved hi (by simp; omega) hx⟩
  obtain ⟨v, hv⟩ := Option.isSome_iff_exists.1 (specialReg_isSome s c hlt)
  refine ⟨_, v, exec_next hx ((issue1_runs hi (by simp [ha]; omega) _).trans (onCore_wrS hs f.d _)) rfl, hv, by rw [hv]; rfl, ?_⟩
  have hread {k : BitVec 42} {w : Word} (hk : f.imm = k) (hw : specialReg s c k.toNat = some w) : v = w := by
    rw [hk, hw] at hv
    exact (Option.some.inj hv).symm
  have hpart : (s.partOf c).getD 0 = n := by rw [hn]; rfl
  subst hpart
  have hnat {k : BitVec 42} {m : Nat} (hk : f.imm = k) (hw : specialReg s c k.toNat = some (BitVec.ofNat 64 m)) :
      v.toNat = m % 2 ^ 64 := by
    rw [hread hk hw, BitVec.toNat_ofNat]
  have hsmall {k : BitVec 42} {m : Nat} (hk : f.imm = k) (hw : specialReg s c k.toNat = some (BitVec.ofNat 64 m))
      (hm : m < 64) : v.toNat = m := (hnat hk hw).trans (Nat.mod_eq_of_lt (by omega))
  refine ⟨fun h => hread h rfl, fun h => hnat h rfl, fun h => hnat h rfl, fun h => hread h rfl, fun h => hread h rfl,
    fun h => hsmall h rfl (by omega), fun h => hsmall h rfl (by omega), fun h => hsmall h rfl (by omega),
    fun h => hread h rfl, fun h => hread h rfl⟩

/-- Settles O11: a predicate or a scalar register is written, and the next instruction follows. -/
theorem predicatesAndSpecialRegisters : Obligations.PredicatesAndSpecialRegisters := ⟨predicateResults, specialRegisters⟩

end Sys2Proof.Machine
end

section
/-! # TDMOV, TDSET, TDADD and TDSETI (R167, R198, R200) -/

namespace Sys2Proof.Machine

open Sys2Proof.Claims

/-! ## Fields of a descriptor (R167, R200) -/

/-- The bits of a descriptor once a field is replaced: the value's in the field, the descriptor's outside. -/
theorem getLsbD_descSet {d : Desc} {lo n : Nat} (h : lo + n ≤ 256) (v b : Nat) :
    (descSet d lo n v).getLsbD b = if b < lo then d.getLsbD b else if b < lo + n then v.testBit (b - lo) else d.getLsbD b := by
  have hsum : descSet d lo n v
      = BitVec.ofNat 256 (2 ^ lo * (2 ^ n * (d.toNat / 2 ^ (lo + n)) + v % 2 ^ n) + d.toNat % 2 ^ lo) := by
    exact congrArg (BitVec.ofNat 256) (by rw [pow_add]; ring)
  rw [hsum, BitVec.getLsbD_ofNat, Nat.testBit_two_pow_mul_add _ (Nat.mod_lt _ (by positivity)),
    Nat.testBit_two_pow_mul_add _ (Nat.mod_lt _ (by positivity)), Nat.testBit_mod_two_pow, Nat.testBit_mod_two_pow,
    Nat.testBit_div_two_pow, BitVec.testBit_toNat, BitVec.testBit_toNat]
  by_cases hlo : b < lo
  · simp [hlo, show b < 256 by omega]
  · by_cases hn : b < lo + n
    · simp [hlo, hn, show b < 256 by omega, show b - lo < n by omega]
    · rw [if_neg hlo, if_neg (by omega), if_neg hlo, if_neg hn, show b - lo - n + (lo + n) = b by omega]
      by_cases hb : b < 256
      · simp [hb]
      · simp [hb, BitVec.getLsbD_of_ge _ _ (Nat.not_lt.1 hb)]

/-- A field that is replaced holds the value's low bits. -/
theorem extract_descSet {d : Desc} {lo n : Nat} (h : lo + n ≤ 256) (v : Nat) :
    (descSet d lo n v).extractLsb' lo n = BitVec.ofNat n v := by
  apply BitVec.eq_of_getLsbD_eq
  intro b hb
  rw [BitVec.getLsbD_extractLsb', getLsbD_descSet h, if_neg (by omega), if_pos (by omega), BitVec.getLsbD_ofNat,
    Nat.add_sub_cancel_left]

/-- A number of a width read as two's complement (R200). -/
theorem signed_toNat {n : Nat} (x : BitVec n) : signed n x.toNat = x.toInt := by
  unfold signed
  rw [Nat.mod_eq_of_lt x.isLt, BitVec.toInt_eq_toNat_cond]
  have hhalf : x.toNat < 2 ^ (n - 1) ↔ 2 * x.toNat < 2 ^ n := by
    cases n with
    | zero => simp
    | succ n => rw [Nat.add_sub_cancel, pow_succ']; omega
  simp only [hhalf]

/-- A value fits a field: its range (R200). -/
theorem fieldFits_iff {n : Nat} {sgn : Bool} {v : Int} : fieldFits n sgn v = true ↔
    (if sgn then -(2 ^ (n - 1)) ≤ v ∧ v < 2 ^ (n - 1) else 0 ≤ v ∧ v < 2 ^ n) := by
  unfold fieldFits
  cases sgn <;> simp

/-- A value that fits a field reads back from it. -/
theorem fieldValue_fieldPut {d : Desc} {lo n : Nat} {sgn : Bool} {v : Int} (hn : 0 < n) (h : lo + n ≤ 256)
    (hv : fieldFits n sgn v = true) : fieldValue (fieldPut d lo n v) lo n sgn = v := by
  have hfield : descField (fieldPut d lo n v) lo n = (BitVec.ofInt n v).toNat := by
    unfold descField fieldPut
    rw [extract_descSet h, show wrap n v = (BitVec.ofInt n v).toNat from (BitVec.toNat_ofInt v).symm, BitVec.ofNat_toNat,
      BitVec.setWidth_eq]
  rw [fieldFits_iff] at hv
  unfold fieldValue
  rw [hfield, signed_toNat]
  cases sgn with
  | true =>
    obtain ⟨hlo, hhi⟩ := hv
    exact BitVec.toInt_ofInt_eq_self hn hlo hhi
  | false =>
    obtain ⟨hlo, hhi⟩ := hv
    show ((BitVec.ofInt n v).toNat : Int) = v
    rw [BitVec.toNat_ofInt, Int.toNat_of_nonneg (Int.emod_nonneg _ (by positivity)), Int.emod_eq_of_lt hlo (by exact_mod_cast hhi)]

/-- Every field of a descriptor lies within its 256 bits. -/
theorem descFieldId_within {k lo n : Nat} {sgn : Bool} (h : descFieldId k = some (lo, n, sgn)) : 0 < n ∧ lo + n ≤ 256 := by
  unfold descFieldId at h
  split at h <;> cases h <;> decide

/-- The fields that may be written are all but STATUS (R200). -/
theorem writeField_eq {fn : BitVec 8} (h : fn ≠ 0x0C) : writeField fn = descFieldId fn.toNat := if_neg h

/-! ## The instructions -/

/-- A write of a tile descriptor register, and then the next instruction. -/
theorem onCore_wrTd {s : State} {c : CoreId} {k : Nat} (hs : Straight (s.core c) k) (d : BitVec 5) (v : Core → Desc) :
    onCore c k (fun x => x.wrTd d (v x)) s
      = s.setCore c { (s.core c).wrTd d (v (s.core c)) with pc := (s.core c).pc + k } :=
  onCore_straight hs rfl rfl rfl

section
variable {i : Instr} {s : State} {c : CoreId} {form : IssueForm} {b : State → State} {d : BitVec 5} {lo n words : Nat}
  {sgn : Bool} {v : Int} (hi : Issues s c form.guard form.reads form.inAudit) (hrsv : form.reserved = false)
  (hx : exec i s = lift (issue c form words b) s) (hb : b s = putField c d (lo, n, sgn) words v s)
include hi hrsv hx hb

/-- A value that does not fit its field is 0x030A (R200). -/
theorem exec_putField_unfit (hv : fieldFits n sgn v = false) : exec i s = .next (s.kill c 0x030A) := by
  refine exec_next hx ((issue_of_issues hi hrsv _ _).trans (hb.trans (if_neg ?_))) (State.kill_pending _ _ _ _)
  rw [hv]
  decide

/-- A value that fits is in its field, and every other bit is as it was (R200). -/
theorem exec_putField (hn : 0 < n) (hlo : lo + n ≤ 256) (hv : fieldFits n sgn v = true) (hs : Straight (s.core c) words) :
    ∃ t, exec i s = .next t
      ∧ t = s.setCore c { s.core c with td := (t.core c).td, late := (t.core c).late, pc := (s.core c).pc + words }
      ∧ fieldValue ((t.core c).rdTd d) lo n sgn = v
      ∧ (∀ b, b < lo ∨ lo + n ≤ b → ((t.core c).rdTd d).getLsbD b = ((s.core c).rdTd d).getLsbD b)
      ∧ ∀ r, r ≠ d → (t.core c).rdTd r = (s.core c).rdTd r := by
  let put := fieldPut ((s.core c).rdTd d) lo n v
  have hread (r : BitVec 5) := Core.rdTd_wrTd (s.core c) d r put
  refine ⟨_, exec_next hx ((issue_of_issues hi hrsv _ _).trans (hb.trans ((if_pos hv).trans (onCore_wrTd hs d _)))) rfl, ?_⟩
  rw [State.core_setCore_self]
  refine ⟨rfl, ?_, fun b hb => ?_, fun r hr => (hread r).trans (if_neg hr)⟩
  · exact (congrArg (fieldValue · lo n sgn) ((hread d).trans (if_pos rfl))).trans (fieldValue_fieldPut hn hlo hv)
  · refine (congrArg (BitVec.getLsbD · b) ((hread d).trans (if_pos rfl))).trans ((getLsbD_descSet hlo _ _).trans ?_)
    split
    · rfl
    · rw [if_neg (by omega)]

end

/-- Settles O12: TDMOV copies a register, and the others write a field of one where the value fits. -/
theorem descriptorResults : Obligations.DescriptorResults := by
  refine ⟨fun c f s hi hs hb hc hfn hx => ?_, fun c f l s lo n sgn hb hc hx hfld hfn => ?_⟩
  · refine ⟨_, exec_next (show exec (.tdmov c f) s = lift _ s from rfl)
      ((issue1_runs hi (by simp [hb, hc, hfn, hx]) _).trans (onCore_wrTd hs f.d _)) rfl, ?_⟩
    rw [State.core_setCore_self]
    exact ⟨rfl, fun r => Core.rdTd_wrTd (s.core c) f.d r _⟩
  · intro old operand fits i words reads v hcase hi
    have hwrite : writeField f.fn = some (lo, n, sgn) := (writeField_eq hfn).trans hfld
    obtain ⟨hn, hlo⟩ := descFieldId_within hfld
    have hfits : fieldFits n sgn v = true ↔ fits v := fieldFits_iff
    have hform : ∃ form b, form.guard = f.guard ∧ form.reads = reads ∧ form.inAudit = true ∧ form.reserved = false
        ∧ exec i s = lift (issue c form words b) s ∧ b s = putField c f.d (lo, n, sgn) words v s := by
      obtain ⟨rfl, rfl, rfl, rfl⟩ | ⟨rfl, rfl, rfl, rfl⟩ | ⟨rfl, ha, rfl, rfl, rfl⟩ := hcase
      · refine ⟨_, _, rfl, rfl, rfl, ?_, show execTdset c f s = lift (issue c _ _ _) s from rfl, ?_⟩
        · simp [hb, hc, hx, hwrite]
        · simp only [hwrite, Option.getD_some]; rfl
      · refine ⟨_, _, rfl, rfl, rfl, ?_, show execTdadd c f s = lift (issue c _ _ _) s from rfl, ?_⟩
        · simp [hb, hc, hx, hwrite]
        · simp only [hwrite, Option.getD_some]; rfl
      · refine ⟨_, _, rfl, rfl, rfl, ?_, show execTdseti c f l s = lift (issue c _ _ _) s from rfl, ?_⟩
        · simp [ha, hb, hc, hx, hwrite]
        · simp only [hwrite, Option.getD_some]; rfl
    obtain ⟨form, b, hguard, hreads, haudit, hrsv, hexec, hput⟩ := hform
    have hissue : Issues s c form.guard form.reads form.inAudit := by rw [hguard, hreads, haudit]; exact hi
    refine ⟨fun hv hs => exec_putField hissue hrsv hexec hput hn hlo (hfits.2 hv) hs, fun hv => ?_⟩
    exact exec_putField_unfit hissue hrsv hexec hput (Bool.eq_false_iff.2 (mt hfits.1 hv))

end Sys2Proof.Machine
end

section
/-! # NOP, BR, CALL, RET, LOOP, LOOPW and BREAK, and the passes of loops (R198, R221, R223 to R225) -/

namespace Sys2Proof.Machine

open Sys2Proof.Claims

/-! ## Jumps and the return stack -/

/-- A jump to a word of the program reaches it. -/
theorem target_eq {pc k : Nat} {off : BitVec 42} (h : (k : Int) = pc + off.toInt) : target pc off = k := by
  unfold target
  rw [← h]
  simp

theorem jBad_eq_false {f : FmtJ} (hr : f.rsv = 0) (ho : f.off = 0) : jBad f = false := by
  simp [jBad, hr, ho]

/-- A word that ends no loop's body is reached as it is. -/
theorem Core.flow_seqTo {x : Core} {nxt : Nat} (h : SeqTo x nxt) (k : Nat) : x.flow k nxt = some { x with pc := nxt } :=
  Core.flow_seq k x nxt h

/-- A core that runs stands in the table of cores. -/
theorem State.setCore_core {s : State} {c : CoreId} (h : (s.core c).running = true) : s.setCore c (s.core c) = s := by
  have hput {l : List (CoreId × Core)} (hl : (Assoc.getD c Core.init l).running = true) :
      Assoc.put c (Assoc.getD c Core.init l) l = l := by
    induction l with
    | nil => exact absurd hl Bool.false_ne_true
    | cons p l ih =>
      unfold Assoc.getD at hl ih ⊢
      rw [Assoc.find_cons] at hl ⊢
      unfold Assoc.put
      by_cases hp : p.1 = c
      · subst hp
        simp
      · rw [if_neg hp] at hl
        simp only [if_neg hp, ih hl]
  exact congrArg (fun l => { s with cores := l }) (hput h)

theorem running_of_issues {s : State} {c : CoreId} {g : BitVec 4} {reads : List Dest} {au : Bool} (h : Issues s c g reads au) :
    (s.core c).running = true := by
  have hcan := h.1
  unfold Core.canIssue at hcan
  simp only [Bool.and_eq_true] at hcan
  tauto

section
variable {c : CoreId} {s : State} {f : FmtJ}

/-- NOP only moves on. -/
theorem exec_nop (hi : Issues s c f.guard [] true) (hr : f.rsv = 0) (ho : f.off = 0) :
    exec (.nop c f) s = lift (fun s => s.advance c 1) s :=
  lift_congr ((issue1_runs hi (jBad_eq_false hr ho) _).trans
    (congrArg (fun t => State.advance t c 1) (State.setCore_core (running_of_issues hi))))

/-- BR sets the program counter (R198). -/
theorem exec_br {k : Nat} (hi : Issues s c f.guard [] false) (hr : f.rsv = 0) (hk : (k : Int) = (s.core c).pc + f.off.toInt) :
    exec (.br c f) s = .next (s.setCore c { s.core c with pc := k }) := by
  refine exec_next (show exec (.br c f) s = lift _ s from rfl) ((issue1_runs hi (by simp [hr]) _).trans ?_) rfl
  rw [target_eq hk]
  rfl

/-- CALL pushes the return stack of 8 (R225). -/
theorem exec_call {k : Nat} (hi : Issues s c f.guard [] false) (hr : f.rsv = 0) (hk : (k : Int) = (s.core c).pc + f.off.toInt)
    (hlen : (s.core c).calls.length < 8) : exec (.call c f) s = .next (s.setCore c
      { s.core c with calls := ⟨(s.core c).pc + 1, (s.core c).loops.length⟩ :: (s.core c).calls, pc := k }) := by
  refine exec_next (show exec (.call c f) s = lift _ s from rfl)
    ((issue1_runs hi (by simp [hr]) _).trans ((if_neg (by omega)).trans ?_)) rfl
  rw [target_eq hk]

/-- CALL on a full return stack is 0x0304 (R225). -/
theorem exec_call_full (hi : Issues s c f.guard [] false) (hr : f.rsv = 0) (hlen : 8 ≤ (s.core c).calls.length) :
    exec (.call c f) s = .next (s.kill c 0x0304) :=
  exec_next (show exec (.call c f) s = lift _ s from rfl) ((issue1_runs hi (by simp [hr]) _).trans (if_pos hlen))
    (State.kill_pending _ _ _ _)

section
variable (hi : Issues s c f.guard [] false) (hr : f.rsv = 0) (ho : f.off = 0)
include hi hr ho

/-- RET on an empty return stack is 0x0304 (R225). -/
theorem exec_ret_empty (h : (s.core c).calls = []) : exec (.ret c f) s = .next (s.kill c 0x0304) := by
  refine exec_next (show exec (.ret c f) s = lift _ s from rfl) ((issue1_runs hi (jBad_eq_false hr ho) _).trans ?_)
    (State.kill_pending _ _ _ _)
  dsimp only
  rw [h]

/-- RET with a loop of the routine open is 0x0304 (R225). -/
theorem exec_ret_open {r : CallFrame} {rest : List CallFrame} (h : (s.core c).calls = r :: rest)
    (hd : r.depth < (s.core c).loops.length) : exec (.ret c f) s = .next (s.kill c 0x0304) := by
  refine exec_next (show exec (.ret c f) s = lift _ s from rfl) ((issue1_runs hi (jBad_eq_false hr ho) _).trans ?_)
    (State.kill_pending _ _ _ _)
  dsimp only
  rw [h]
  exact if_pos hd

/-- RET pops the return stack and goes on after the call (R225). -/
theorem exec_ret {r : CallFrame} {rest : List CallFrame} (h : (s.core c).calls = r :: rest)
    (hd : (s.core c).loops.length ≤ r.depth) (hs : SeqTo { s.core c with calls := rest } r.ret) :
    exec (.ret c f) s = .next (s.setCore c { s.core c with calls := rest, pc := r.ret }) := by
  refine exec_next (show exec (.ret c f) s = lift _ s from rfl) ((issue1_runs hi (jBad_eq_false hr ho) _).trans ?_) rfl
  dsimp only
  rw [h]
  dsimp only
  rw [if_neg (Nat.not_lt.2 hd), Core.flow_seqTo hs]

end

end

/-! ## Loops -/

/-- A core that opens a loop (R221, R223): the body starts with the next word, pass 0 in the index register. -/
def Core.enter (x : Core) (f : FmtL) (count : Option Nat) (pred : BitVec 3) : Core :=
  { x with loops := ⟨x.pc + 1, x.pc + f.len.toNat, count, pred, f.bound.toNat, 0, f.d⟩ :: x.loops, pc := x.pc + 1 }.wrS f.d 0

section
variable {c : CoreId} {s : State} {f : FmtL}

/-- LOOP opens a loop, or raises 0x0305 with eight open (R221, R224). -/
theorem exec_loop (hi : Issues s c f.guard [.s f.a] true) (ha : (s.core c).rdS f.a ≠ 0) :
    exec (.loop c f) s = lift (fun s => if 8 ≤ (s.core c).loops.length then s.kill c 0x0305
      else s.setCore c ((s.core c).enter f (some ((s.core c).rdS f.a).toNat) 0)) s :=
  lift_congr ((issue_of_issues (i := ⟨f.guard, 1, false, true, [.s f.a]⟩) hi rfl _ _).trans
    (if_neg (mt BitVec.eq_of_toNat_eq ha)))

/-- LOOP with a count of zero passes its body over (R221). -/
theorem exec_loop_zero (hi : Issues s c f.guard [.s f.a] true) (ha : (s.core c).rdS f.a = 0)
    (hs : SeqTo (s.core c) ((s.core c).pc + (1 + f.len.toNat))) : exec (.loop c f) s
      = .next (s.setCore c { (s.core c).wrS f.d 0 with pc := (s.core c).pc + (1 + f.len.toNat) }) :=
  exec_next (show exec (.loop c f) s = lift _ s from rfl)
    ((issue_of_issues (i := ⟨f.guard, 1, false, true, [.s f.a]⟩) hi rfl _ _).trans
      ((if_pos (by rw [ha]; rfl)).trans (onCore_wrS hs f.d (fun _ => 0)))) rfl

/-- LOOPW opens a loop, or raises 0x0305 with eight open (R223, R224). -/
theorem exec_loopw (hi : Issues s c f.guard [] true) (ha : f.a.toNat < 8) :
    exec (.loopw c f) s = lift (fun s => if 8 ≤ (s.core c).loops.length then s.kill c 0x0305
      else s.setCore c ((s.core c).enter f none (f.a.setWidth 3))) s :=
  lift_congr (issue_of_issues (i := ⟨f.guard, 1, pnBad f.a, true, []⟩) hi (pnBad_eq_false ha) _ _)

end

section
variable {i : Instr} {c : CoreId} {s : State} {y : Core}
  (hx : exec i s = lift (fun s => if 8 ≤ (s.core c).loops.length then s.kill c 0x0305 else s.setCore c y) s)
include hx

/-- A loop stack with room takes the loop; a full one is 0x0305 (R224). -/
theorem exec_enter : ((s.core c).loops.length < 8 → exec i s = .next (s.setCore c y))
    ∧ (8 ≤ (s.core c).loops.length → exec i s = .next (s.kill c 0x0305)) :=
  ⟨fun h => exec_next hx (if_neg (Nat.not_le.2 h)) rfl, fun h => exec_next hx (if_pos h) (State.kill_pending _ _ _ _)⟩

end

section
variable {c : CoreId} {s : State} {f : FmtJ} (hi : Issues s c f.guard [] true) (hr : f.rsv = 0) (ho : f.off = 0)
include hi hr ho

/-- BREAK without an open loop is 0x0305 (R224). -/
theorem exec_break_none (h : (s.core c).loops = []) : exec (.breakLoop c f) s = .next (s.kill c 0x0305) := by
  refine exec_next (show exec (.breakLoop c f) s = lift _ s from rfl) ((issue1_runs hi (jBad_eq_false hr ho) _).trans ?_)
    (State.kill_pending _ _ _ _)
  dsimp only
  rw [h]

/-- BREAK leaves the innermost loop (R224). -/
theorem exec_break {l : LoopFrame} {rest : List LoopFrame} (h : (s.core c).loops = l :: rest)
    (hs : SeqTo { s.core c with loops := rest } (l.last + 1)) :
    exec (.breakLoop c f) s = .next (s.setCore c { s.core c with loops := rest, pc := l.last + 1 }) := by
  refine exec_next (show exec (.breakLoop c f) s = lift _ s from rfl) ((issue1_runs hi (jBad_eq_false hr ho) _).trans ?_) rfl
  dsimp only
  rw [h]
  dsimp only
  rw [Core.flow_seqTo hs]

end

theorem controlFlow : ControlFlow := by
  intro c s x hx
  subst hx
  refine ⟨fun f hi hr ho hs => ?_, fun f k hi hr hk => ⟨exec_br hi hr hk, exec_call hi hr hk, exec_call_full hi hr⟩,
    fun f hi hr ho => ⟨exec_ret_empty hi hr ho, fun r rest h => ⟨exec_ret_open hi hr ho h, exec_ret hi hr ho h⟩⟩,
    fun f hi => ?_, fun f hi ha => exec_enter (exec_loopw hi ha),
    fun f hi hr ho => ⟨exec_break_none hi hr ho, fun l rest => exec_break hi hr ho⟩⟩
  · exact exec_next (exec_nop hi hr ho) (State.advance_seq s c 1 hs) rfl
  · exact ⟨fun ha => (exec_enter (exec_loop hi ha)).1, fun ha => (exec_enter (exec_loop hi ha)).2, exec_loop_zero hi⟩

/-! ## Passes of loops (R221, R223) -/

/-- Whether a loop has another pass: passes left, or its predicate set. -/
def Core.passesAgain (x : Core) (l : LoopFrame) : Bool :=
  match l.count with
  | some n => decide (l.pass + 1 < n)
  | none => x.rdP l.pred

section
variable {s : State} {c : CoreId} {l : LoopFrame} {rest : List LoopFrame} (hl : (s.core c).loops = l :: rest)
  (ho : (s.core c).openLoops ≠ 0) (hend : (s.core c).pc + 1 = l.last + 1)
include hl ho hend

/-- The next pass starts. -/
theorem State.advance_again (hagain : (s.core c).passesAgain l = true)
    (hb : (l.count.isNone && decide (4 * l.bound ≤ l.pass + 1)) = false) :
    s.advance c 1 = s.setCore c (Core.wrS { s.core c with loops := { l with pass := l.pass + 1 } :: rest, pc := l.first } l.index
      (BitVec.ofNat 64 (l.pass + 1))) := by
  unfold State.advance
  dsimp only
  rw [hend, Core.flow_again 8 (s.core c) l rest hl ho hagain hb]

/-- The loop is left. -/
theorem State.advance_leave (hagain : (s.core c).passesAgain l = false)
    (hs : SeqTo { s.core c with loops := rest } ((s.core c).pc + 1)) :
    s.advance c 1 = s.setCore c { s.core c with loops := rest, pc := (s.core c).pc + 1 } := by
  unfold State.advance
  dsimp only
  rw [hend] at hs ⊢
  rw [Core.flow_leave 8 (s.core c) l rest hl ho hagain, Core.flow_seqTo hs]

/-- A LOOPW at four times its bound with its predicate set is 0x0306 (R223). -/
theorem State.advance_bound (hc : l.count = none) (hp : (s.core c).rdP l.pred = true) (hb : 4 * l.bound ≤ l.pass + 1) :
    s.advance c 1 = s.kill c 0x0306 := by
  have hflow : (s.core c).flow 9 (l.last + 1) = none := by
    unfold Core.flow
    rw [hl]
    simp [ho, hc, hp, hb]
  unfold State.advance
  dsimp only
  rw [hend, hflow]

end

theorem loopPasses : LoopPasses := by
  intro c f s x l rest hx hi hr ho hl hopen hend again
  subst hx
  have hnop {t : State} (h : s.advance c 1 = t) (hp : t.pending = s.pending) : exec (.nop c f) s = .next t :=
    exec_next (exec_nop hi hr ho) h hp
  have hagain : (s.core c).passesAgain l = match l.count with
      | some n => decide (l.pass + 1 < n)
      | none => (s.core c).rdP l.pred := rfl
  refine ⟨fun n hn => ⟨fun hlt => ?_, fun hge hs => ?_⟩, fun hn => ⟨fun hp hlt => ?_, fun hp hge => ?_, fun hp hs => ?_⟩⟩
  all_goals rw [hn] at hagain
  · exact hnop (State.advance_again hl hopen hend (hagain.trans (decide_eq_true hlt)) (by rw [hn]; rfl)) rfl
  · exact hnop (State.advance_leave hl hopen hend (hagain.trans (decide_eq_false (Nat.not_lt.2 hge))) hs) rfl
  · exact hnop (State.advance_again hl hopen hend (hagain.trans hp) (by rw [hn, decide_eq_false (Nat.not_le.2 hlt)]; rfl)) rfl
  · exact hnop (State.advance_bound hl hopen hend hn hp hge) (State.kill_pending _ _ _ _)
  · exact hnop (State.advance_leave hl hopen hend (hagain.trans hp) hs) rfl

/-- Settles O13: each instruction of control flow by what it leaves of its core, and a loop's end by the passes it has left. -/
theorem controlAndLoops : Obligations.ControlAndLoops := ⟨controlFlow, loopPasses⟩

end Sys2Proof.Machine
end

section
/-! # When a sequencer issues, passes over or waits (R193, R195, R196, R212, R225, R230) -/

namespace Sys2Proof.Machine

open Sys2Proof.Claims

section
variable {i : Instr} {s : State} {c : CoreId} {form : IssueForm} {k : Nat} {b : State → State}
  (hx : exec i s = lift (issue c form k b) s)
include hx

/-- A sequencer that waits or is stopped issues nothing (R193). -/
theorem exec_idle (h : (s.core c).canIssue = false ∨ s.pw.down.isSome = true) : exec i s = .next s :=
  exec_stays hx (issue_idle c form k b s h)

/-- Control outside the code or on a literal is 0x0303 (R225). -/
theorem exec_badPc {p : Program} (hcan : (s.core c).canIssue = true) (hdown : s.pw.down = none)
    (hp : s.program ((s.partOf c).getD 0) = some p) (hpc : p.badPc (s.core c).pc = true) :
    exec i s = .next (s.kill c 0x0303) :=
  exec_next hx (issue_badPc c form k b s p hcan hdown hp hpc) (State.kill_pending _ _ _ _)

section
variable (h : s.onCode c) (hr : form.reserved = false)
include h hr

/-- A failed guard passes the instruction over (R193). -/
theorem exec_guardFails (hg : (s.core c).guardPasses form.guard = false) (hs : SeqTo (s.core c) ((s.core c).pc + k)) :
    exec i s = .next (s.setCore c { s.core c with pc := (s.core c).pc + k }) :=
  exec_next hx ((issue_guard c form k b s h hr hg).trans (State.advance_seq s c k hs)) rfl

/-- An instruction that must not stand in an audit unit is 0x030E in one (R230). -/
theorem exec_inUnit (hg : (s.core c).guardPasses form.guard = true) (hu : (s.core c).audit.isSome = true)
    (hi : form.inAudit = false) : exec i s = .next (s.kill c 0x030E) :=
  exec_next hx (issue_audit c form k b s h hr hg hu hi) (State.kill_pending _ _ _ _)

/-- An instruction that reads a late register waits (R212). -/
theorem exec_readsLate (hg : (s.core c).guardPasses form.guard = true) (hi : form.inAudit = true) {d : Dest}
    (hd : d ∈ form.reads) (hl : (s.core c).isLate d = true) : exec i s = .next s :=
  exec_stays hx (issue_late c form k b s h hr hg (.inl hi) d hd hl)

end

end

/-- Settles O15: each outcome of issue before an instruction's own effect. -/
theorem issueRules : Obligations.IssueRules := by
  intro c s x hx
  subst hx
  refine ⟨fun f g h hidle => ?_, fun f g h p hcan hdown hp hpc => ?_, fun hcan hdown hpc => ?_⟩
  · exact ⟨exec_idle (show exec (.add c f) s = lift (issue c _ 1 _) s from rfl) hidle,
      exec_idle (show exec (.st c g) s = lift (issue c _ 1 _) s from rfl) hidle,
      exec_idle (show exec (.br c h) s = lift (issue c _ 1 _) s from rfl) hidle,
      exec_idle (show exec (.stepend c h) s = lift (issue c _ 1 _) s from rfl) hidle⟩
  · exact ⟨exec_badPc (show exec (.add c f) s = lift (issue c _ 1 _) s from rfl) hcan hdown hp hpc,
      exec_badPc (show exec (.st c g) s = lift (issue c _ 1 _) s from rfl) hcan hdown hp hpc,
      exec_badPc (show exec (.br c h) s = lift (issue c _ 1 _) s from rfl) hcan hdown hp hpc,
      exec_badPc (show exec (.stepend c h) s = lift (issue c _ 1 _) s from rfl) hcan hdown hp hpc⟩
  · have hcode : s.onCode c := ⟨hcan, hdown, hpc⟩
    refine ⟨fun g hg => ⟨fun hs => ⟨?_, ?_⟩, fun l hs ha himm => ?_⟩, fun l hg hs => ?_, fun g h hu hg hh => ⟨?_, fun hr => ?_⟩,
      fun g hg hl => ?_⟩
    · exact exec_guardFails (show exec (.addi c g) s = lift (issue c _ 1 _) s from rfl) hcode rfl hg hs
    · exact exec_guardFails (show exec (.st c g) s = lift (issue c _ 1 _) s from rfl) hcode rfl hg hs
    · exact exec_guardFails (show exec (.li c g l) s = lift (issue c _ 2 _) s from rfl) hcode (by simp [ha, himm]) hg hs
    · exact exec_guardFails (show exec (.loop c l) s = lift (issue c _ _ _) s from rfl) hcode rfl hg hs
    · exact exec_inUnit (show exec (.st c g) s = lift (issue c _ 1 _) s from rfl) hcode rfl hg hu rfl
    · exact exec_inUnit (show exec (.br c h) s = lift (issue c _ 1 _) s from rfl) hcode (by simp [hr]) hh hu rfl
    · exact exec_readsLate (show exec (.addi c g) s = lift (issue c _ 1 _) s from rfl) hcode rfl hg rfl
        List.mem_cons_self hl

end Sys2Proof.Machine
end

section
/-! # Station commands (R195, R198 to R210, R213 to R215, R220) -/

namespace Sys2Proof.Machine

open Sys2Proof.Claims

/-! ## Checks at issue (R213) -/

theorem firstCode_nones {l : List (Option Code)} (h : ∀ k ∈ l, k = none) : firstCode l = none := by
  induction l with
  | nil => rfl
  | cons k l ih =>
    rw [h k List.mem_cons_self]
    exact ih (fun q hq => h q (List.mem_cons_of_mem _ hq))

/-- The first check that fails decides, whatever follows it. -/
theorem firstCode_append {k l : List (Option Code)} {e : Code} (h : ∀ q ∈ k, q = none) :
    firstCode (k ++ some e :: l) = some e := by
  induction k with
  | nil => rfl
  | cons q k ih =>
    rw [h q List.mem_cons_self]
    exact ih (fun q hq => h q (List.mem_cons_of_mem _ hq))

theorem firstCode_cons {l l' : List (Option Code)} (h : firstCode l = firstCode l') (k : Option Code) :
    firstCode (k :: l) = firstCode (k :: l') := by
  cases k with
  | none => exact h
  | some e => rfl

/-- A condition that follows from a check's condition fails with the check. -/
theorem codeIf_of_some {a b : Bool} {k e : Code} (h : codeIf a k = some e) (hab : a = true → b = true) :
    codeIf b k = some e := by
  cases a with
  | false => cases h
  | true => rw [hab rfl]; exact h

/-- A check that failed without a format fails the same with one. -/
theorem consumes_of_some {x : Core} {q port : BitVec 4} {dstn : BitVec 2} {e : Code} (h : consumes x q port none dstn = some e)
    (fmt : Option Nat) : consumes x q port fmt dstn = some e := by
  unfold consumes at h ⊢
  cases hst : x.stream q with
  | none => rwa [hst] at h
  | some st =>
    rw [hst] at h
    refine codeIf_of_some h (fun hbad => ?_)
    rw [Option.any_none, Bool.or_false] at hbad
    rw [hbad, Bool.true_or]

/-- A check of the port, and one of port and format after it, are one check of both. -/
theorem firstCode_consumes (x : Core) (q port : BitVec 4) (dstn : BitVec 2) (fmt : Option Nat) (l : List (Option Code)) :
    firstCode (consumes x q port none dstn :: consumes x q port fmt dstn :: l) = firstCode (consumes x q port fmt dstn :: l) := by
  cases h : consumes x q port none dstn with
  | none => rfl
  | some e => rw [consumes_of_some h]; rfl

/-- A command enters its queue by the first check that fails alone. -/
theorem enqueue_congr {checks checks' : List (Option Code)} (h : firstCode checks = firstCode checks') (c : CoreId)
    (len : Core → Nat) (put : Core → Core) (s : State) : enqueue c len put checks s = enqueue c len put checks' s := by
  unfold enqueue
  rw [h]

/-- A command waits to issue while its station's queue is full (R214). -/
theorem enqueue_full {c : CoreId} {len : Core → Nat} {put : Core → Core} {checks : List (Option Code)} {s : State}
    (hc : firstCode checks = none) (hlen : 8 ≤ len (s.core c)) : enqueue c len put checks s = s := by
  unfold enqueue
  rw [hc]
  exact if_pos hlen

/-- A failed check stops the segment with its code (R213). -/
theorem enqueue_refused {c : CoreId} {len : Core → Nat} {put : Core → Core} {checks : List (Option Code)} {s : State} {e : Code}
    (hc : firstCode checks = some e) : enqueue c len put checks s = s.kill c e := by
  unfold enqueue
  rw [hc]

/-! ## The commands as one -/

/-- A command issues as its form says, and enters the queue by the form's checks. -/
def Enters (s : State) (i : Instr) (w : StationForm) (reserved : Bool) : Prop :=
  ∃ b, exec i s = lift (issue1 w.core w.guard reserved w.inAudit w.reads b) s ∧ b s = enqueue w.core w.len w.put w.checks s

theorem enters_of {s : State} {i : Instr} {w : StationForm} {reserved reserved' : Bool} {b : State → State}
    (hx : exec i s = lift (issue1 w.core w.guard reserved w.inAudit w.reads b) s) (hr : reserved = reserved')
    (hb : b s = enqueue w.core w.len w.put w.checks s) : Enters s i w reserved' :=
  hr ▸ ⟨b, hx, hb⟩

theorem onlyT_eq (f : FmtT) (u : UseT) : tBad f u = !onlyT f u := (Bool.not_not _).symm

/-- The fields of a VXOP's mode (R207). -/
theorem vx_modes (f : FmtT) : rfmt f = BitVec.ofNat 4 (f.m.toNat / 2 ^ 4 % 2 ^ 4)
    ∧ bmode f = BitVec.ofNat 2 (f.m.toNat / 2 ^ 2 % 2 ^ 2) ∧ cmode f = BitVec.ofNat 2 (f.m.toNat / 2 ^ 0 % 2 ^ 2) := by
  refine ⟨?_, ?_, ?_⟩
  all_goals apply BitVec.eq_of_toNat_eq
  · simp [rfmt, BitVec.extractLsb'_toNat, Nat.shiftRight_eq_div_pow]
  · simp [bmode, BitVec.extractLsb'_toNat, Nat.shiftRight_eq_div_pow]
  · simp [cmode, BitVec.extractLsb'_toNat]

/-- A mode that is not 3, by its bits (R207). -/
theorem mode_ne_three {m : BitVec 2} {v : Nat} (hm : m = BitVec.ofNat 2 v) (hv : v < 4) : (m != 3) = decide (v ≠ 3) := by
  subst hm
  interval_cases v <;> rfl

/-- The checks of a VXOP at issue are those of its form. -/
theorem enters_vx {s : State} {c : CoreId} {f : FmtT} {i : Instr} {w : StationForm} (h : vxForm s c f = some w)
    (hx : exec i s = lift (vxop c f) s) : Enters s i w (!w.plain) := by
  cases h
  obtain ⟨hr, hb, hc⟩ := vx_modes f
  have hrfmt : (rfmt f).toNat = f.m.toNat / 2 ^ 4 % 2 ^ 4 := by
    rw [hr, BitVec.toNat_ofNat, Nat.mod_mod]
  have hpair : codeIf (!vxPair f) 0x030A = if vxPair f then none else some 0x030A := by cases vxPair f <;> rfl
  refine enters_of hx (Bool.not_not _).symm ?_
  dsimp only
  rw [← hr, ← hb, ← hc]
  refine enqueue_congr ?_ _ _ _ _
  rw [hpair, hrfmt, mode_ne_three hb (Nat.mod_lt _ (by decide)), mode_ne_three hc (Nat.mod_lt _ (by decide))]
  simp only [Bool.and_eq_true, decide_eq_true_eq]
  refine firstCode_cons (firstCode_cons ?_ _) _
  by_cases hladd : vxClass f.fn = some .ladd
  · simp only [if_pos hladd]
    exact firstCode_consumes _ _ _ _ _ _
  · simp only [if_neg hladd]
    refine firstCode_cons ?_ _
    rfl

/-- A TXOP whose reserved bits are zero enters the queue of TX. -/
theorem enters_tx {s : State} {c : CoreId} {f : FmtT} {k : Nat} {i : Instr} {w : StationForm} (h : txForm s c f k = some w)
    (hk : k < 6) (hx : exec i s = lift (txop c f) s) (hp : w.plain = true) : Enters s i w false := by
  cases h
  obtain ⟨⟨hfn, hq3, ht1, hm, hs2⟩, hq2⟩ : (f.fn.toNat = k ∧ f.q3 = 0 ∧ f.t1 = 0 ∧ f.m = 0 ∧ f.s2 = 0) ∧ ((k = 4 ∨ k = 5) ∨ f.q2 = 0) := by
    simpa using hp
  have hix : (decide (f.fn = 4) || decide (f.fn = 5)) = decide (k = 4 ∨ k = 5) := by
    rw [← hfn, Bool.decide_or]
    congr 1 <;> rw [decide_eq_decide] <;> bv_omega
  have hrsv : (tBad f { q0 := true, q1 := true, q2 := decide (f.fn = 4) || decide (f.fn = 5), t0 := true, fn := 0xFF, s := true }
      || decide (5 < f.fn.toNat)) = false := by
    have hfn5 : ¬ 5 < f.fn.toNat := by omega
    rw [hix]
    simp [tBad, hq3, ht1, hm, hs2, hfn5]
    tauto
  refine enters_of hx hrsv (enqueue_congr (firstCode_cons (firstCode_cons ?_ _) _) _ _ _ _)
  rw [hix]
  simp only [decide_eq_true_eq]

/-- A TXOP. -/
def isTx (i : Instr) : Prop :=
  ∃ c f, i = .quant c f ∨ i = .dequant c f ∨ i = .convert c f ∨ i = .transpose c f ∨ i = .gather c f ∨ i = .scatter c f

/-- The reserved codes and bits of ATOM (R198). -/
theorem atom_reserved (f : FmtR) : ((atomOf f.fn).isNone || decide (1 < f.x.toNat)) = !decide (f.fn.toNat ≤ 4 ∧ f.x.toNat ≤ 1) := by
  have hop : (atomOf f.fn).isNone = !decide (f.fn.toNat ≤ 4) := by
    unfold atomOf
    generalize f.fn.toNat = k
    match k with
    | 0 | 1 | 2 | 3 | 4 => rfl
    | k + 5 => simp
  rw [hop, Bool.decide_and, Bool.not_and, ← decide_not (p := f.x.toNat ≤ 1)]
  simp only [Nat.not_le]

/-- The reserved bits of DIGEST (R231). -/
theorem digest_reserved (f : FmtR) :
    (f.d != 0 || f.c != 0 || f.fn != 0 || f.x != 0) = !decide (f.d = 0 ∧ f.c = 0 ∧ f.fn = 0 ∧ f.x = 0) := by
  simp only [bne, beq_eq_decide, Bool.decide_and, Bool.not_and, Bool.or_assoc]

/-- The reserved codes and bits of SAMPLE (R210). -/
theorem sample_reserved (f : FmtT) :
    (tBad f { q0 := true, q1 := true, fn := 7, m := 1, s := true, s2 := true } || decide (f.fn.extractLsb' 0 2 = 3))
      = !(onlyT f { q0 := true, q1 := true, fn := 7, m := 1, s := true, s2 := true } && decide (f.fn.toNat % 4 ≠ 3)) := by
  have hcode : decide (f.fn.extractLsb' 0 2 = 3) = !decide (f.fn.toNat % 4 ≠ 3) := by
    rw [← decide_not, decide_eq_decide, ← BitVec.toNat_inj, BitVec.extractLsb'_toNat, Nat.shiftRight_zero, ne_eq, not_not]
    rfl
  rw [onlyT_eq, hcode, Bool.not_and]

/-- Each station command issues by its form, and one whose reserved bits are set is told apart but for TX's. -/
theorem enters_station {s : State} {i : Instr} {w : StationForm} (h : stationOf s i = some w) :
    (w.plain = true → Enters s i w false) ∧ (¬ isTx i → w.plain = false → Enters s i w true) := by
  have hplain (he : Enters s i w (!w.plain)) :
      (w.plain = true → Enters s i w false) ∧ (¬ isTx i → w.plain = false → Enters s i w true) :=
    ⟨fun hp => by rw [hp] at he; exact he, fun _ hp => by rw [hp] at he; exact he⟩
  unfold stationOf at h
  split at h
  case h_1 | h_2 | h_3 | h_4 | h_5 | h_6 =>
    cases h
    exact hplain (enters_of rfl (onlyT_eq _ _) rfl)
  case h_7 | h_8 | h_9 | h_10 | h_11 | h_12 => exact hplain (enters_vx h rfl)
  case h_13 | h_14 | h_15 | h_16 | h_17 | h_18 =>
    exact ⟨enters_tx h (by decide) rfl, fun hntx => absurd ⟨_, _, by tauto⟩ hntx⟩
  case h_19 | h_20 =>
    cases h
    exact hplain (enters_of rfl (onlyT_eq _ _) rfl)
  case h_21 | h_22 | h_23 | h_24 =>
    cases h
    exact hplain (enters_of rfl rfl rfl)
  case h_25 c f =>
    cases h
    exact hplain (enters_of rfl (atom_reserved f) rfl)
  case h_26 c f =>
    cases h
    exact hplain (enters_of rfl (digest_reserved f) rfl)
  case h_27 c f =>
    cases h
    exact hplain (enters_of rfl (sample_reserved f) rfl)
  case h_28 => cases h

/-- Settles O16: a station command by its form, which says what it checks and where it goes. -/
theorem stationCommands : Obligations.StationCommands := by
  intro i w s h hi
  obtain ⟨henters, hbad⟩ := enters_station h
  refine ⟨fun hp hc hlen => ?_, fun hp hc hlen => ?_, fun k e l hp hc hk => ?_, fun hntx hp => ?_⟩
  · obtain ⟨b, hx, hb⟩ := henters hp
    exact exec_after hx ((issue1_runs hi rfl b).trans (hb.trans (enqueue_ready (firstCode_nones hc) hlen)))
  · obtain ⟨b, hx, hb⟩ := henters hp
    exact exec_stays hx ((issue1_runs hi rfl b).trans (hb.trans (enqueue_full (firstCode_nones hc) hlen)))
  · obtain ⟨b, hx, hb⟩ := henters hp
    exact exec_next hx ((issue1_runs hi rfl b).trans (hb.trans (enqueue_refused (by rw [hc, firstCode_append hk]))))
      (State.kill_pending _ _ _ _)
  · obtain ⟨b, hx, -⟩ := hbad (by rintro ⟨c, f, h⟩; have := hntx c f; tauto) hp
    exact exec_reserved hi rfl hx

end Sys2Proof.Machine
end

section
/-! # Issue of a COLL (R195, R211, R418, R420, R424) -/

namespace Sys2Proof.Machine

open Sys2Proof.Claims

/-- The module and place of a scalar address of any alignment (R197). -/
theorem State.scalarAt_of_addrForm {w : Word} {align : Nat} {a : Option ModIx × Nat} (h : addrForm w align = some a) (s : State) :
    s.scalarAt w = (s.elsewhere a.1, a.2) := by
  unfold State.scalarAt
  rw [addrForm_one h]

/-- The handles are 0 to 7 (R424). -/
theorem State.freeHandle_lt {s : State} {c : CoreId} {h : Nat} (hf : s.freeHandle c = some h) : h < 8 :=
  List.mem_range.1 (List.mem_of_find?_eq_some hf)

/-- Each collective is a COLL of its kind (R418). -/
theorem exec_collOf {i : Instr} {c : CoreId} {f : FmtT} {k : Nat} (h : collOf i = some (c, f, k)) (s : State) :
    exec i s = lift (collIssue c f) s ∧ 1 ≤ k ∧ k ≤ 7 := by
  unfold collOf at h
  split at h <;> cases h <;> exact ⟨rfl, by decide, by decide⟩

/-- A COLL of a kind, with the other fields zero, has no reserved bit or code set (R195, R418). -/
theorem coll_reserved {f : FmtT} (h : tBad f { t0 := true, t1 := true, fn := 0xFF, s := true, s2 := true } = false)
    (hlo : 1 ≤ f.fn.toNat) (hhi : f.fn.toNat ≤ 7) :
    (tBad f { t0 := true, t1 := true, fn := 0xFF, s := true, s2 := true } || decide (f.fn.toNat = 0)
      || decide (7 < f.fn.toNat)) = false := by
  rw [h, decide_eq_false (by omega), decide_eq_false (by omega)]
  rfl

/-- A COLL that its checks let through reads its group descriptor and, but for a BARRIER, its source tile. -/
def collRunOf (s : State) (c : CoreId) (f : FmtT) (k h : Nat) (a : Option ModIx × Nat) : CollRun :=
  { kind := k, src := (s.core c).rdTd f.t0, dst := (s.core c).rdTd f.t1, handle := h, entries := false,
    pieces := [⟨s.elsewhere a.1, a.2, 64, none, none⟩] ++ (if k = 7 then [] else s.tilePieces ((s.core c).rdTd f.t0)) }

section
variable {i : Instr} {s : State} {c : CoreId} {f : FmtT} {k : Nat} (hc : collOf i = some (c, f, k))
  (hi : Issues s c f.guard [.td f.t0, .td f.t1, .s f.s] false) (hk : f.fn.toNat = k)
  (hrsv : tBad f { t0 := true, t1 := true, fn := 0xFF, s := true, s2 := true } = false)
include hc hi hk hrsv

/-- A check that fails stops the segment with its code (R211, R213). -/
theorem exec_coll_refused {e : Code} (he : firstCode [addrCheck ((s.core c).rdS f.s) 64,
      if k = 7 then none else descCheck ((s.core c).rdTd f.t0) false] = some e) : exec i s = .next (s.kill c e) := by
  subst hk
  obtain ⟨hx, hlo, hhi⟩ := exec_collOf hc s
  refine exec_next hx ((issue1_runs hi (coll_reserved hrsv hlo hhi) _).trans ?_) (State.kill_pending _ _ _ _)
  dsimp only
  rw [he]

section
variable (hok : firstCode [addrCheck ((s.core c).rdS f.s) 64,
  if k = 7 then none else descCheck ((s.core c).rdTd f.t0) false] = none)
include hok

/-- With all eight handles in use a COLL waits (R424). -/
theorem exec_coll_waits (hn : s.freeHandle c = none) : exec i s = .next s := by
  subst hk
  obtain ⟨hx, hlo, hhi⟩ := exec_collOf hc s
  refine exec_stays hx ((issue1_runs hi (coll_reserved hrsv hlo hhi) _).trans ?_)
  dsimp only
  rw [hok, hn]

/-- A COLL takes a free handle, writes its number and starts to read (R211, R420, R424). -/
theorem exec_coll_starts {h : Nat} {a : Option ModIx × Nat} (ha : addrForm ((s.core c).rdS f.s) 64 = some a)
    (hh : s.freeHandle c = some h) : exec i s = .next (after (State.thenNext c (fun t =>
      let y := (t.core c).wrS f.s2 (BitVec.ofNat 64 h)
      t.setCore c { y with colls := Assoc.put h ⟨false, []⟩ y.colls, collRuns := y.collRuns ++ [collRunOf s c f k h a] })) s) := by
  subst hk
  obtain ⟨hx, hlo, hhi⟩ := exec_collOf hc s
  refine exec_after hx ((issue1_runs hi (coll_reserved hrsv hlo hhi) _).trans ?_)
  dsimp only
  rw [hok, hh]
  dsimp only
  rw [State.scalarAt_of_addrForm ha]
  rfl

end

end

/-- Settles O20: a COLL by its checks, and by the handle that is free. -/
theorem collectiveIssue : Obligations.CollectiveIssue := by
  intro i c f k s hc hi hk hq0 hq1 hq2 hq3 hm
  have hrsv : tBad f { t0 := true, t1 := true, fn := 0xFF, s := true, s2 := true } = false := by
    simp [tBad, hq0, hq1, hq2, hq3, hm]
  refine ⟨fun ha => exec_coll_refused hc hi hk hrsv (by rw [addrCheck_eq_some ha]; rfl), fun a ha => ?_⟩
  have haddr : addrCheck ((s.core c).rdS f.s) 64 = none := addrCheck_eq_none.2 (by rw [ha]; exact Option.some_ne_none _)
  refine ⟨fun e hk7 he => exec_coll_refused hc hi hk hrsv (by rw [haddr, if_neg hk7, he]; rfl), fun hok => ?_⟩
  have hchecks : firstCode [addrCheck ((s.core c).rdS f.s) 64,
      if k = 7 then none else descCheck ((s.core c).rdTd f.t0) false] = none := by
    rw [haddr, show (if k = 7 then none else descCheck ((s.core c).rdTd f.t0) false) = none from ite_eq_left_iff.2 hok.resolve_left]
    rfl
  exact ⟨exec_coll_waits hc hi hk hrsv hchecks,
    fun h hh => ⟨State.freeHandle_lt hh, exec_coll_starts hc hi hk hrsv hchecks ha hh⟩⟩

end Sys2Proof.Machine
end

section
/-! # Audit units (R229, R230, R493) -/

namespace Sys2Proof.Machine

open Sys2Proof.Claims

/-- The draw of a unit takes a free value at most, and counts a unit that it samples (R493). -/
theorem State.drawSample_leaves (s : State) (c : CoreId) :
    (s.drawSample c).1 = { s with regs := (s.drawSample c).1.regs, freeCtr := (s.drawSample c).1.freeCtr }
      ∧ (s.drawSample c).1.reg .intSampled = s.reg .intSampled + (if (s.drawSample c).2 then 1 else 0) := by
  unfold State.drawSample
  extract_lets watch r shift f
  have hfresh : f.2.reg .intSampled = s.reg .intSampled := rfl
  by_cases hoff : (!watch && shift == 31) = true
  · rw [if_pos hoff]
    exact ⟨rfl, (BitVec.add_zero _).symm⟩
  rw [if_neg hoff]
  by_cases hdraw : f.1.toNat % 2 ^ shift ≠ 0
  · rw [if_pos hdraw]
    exact ⟨rfl, (BitVec.add_zero _).symm⟩
  rw [if_neg hdraw]
  by_cases hroom : s.queueTaken c.die < (if watch = true then 16 else 12)
  · rw [if_pos hroom]
    exact ⟨rfl, (State.reg_bump_self f.2 _ _ _ _).trans (by rw [hfresh]; rfl)⟩
  · rw [if_neg hroom]
    exact ⟨rfl, ((State.reg_bump_ne f.2 (by decide) _ _ _ _ _).trans hfresh).trans (BitVec.add_zero _).symm⟩

/-- AUDB opens a unit with the registers at its start, once the core has moved on (R229). -/
theorem State.openUnit_leaves {s : State} {c : CoreId} {x : Core} (unit : BitVec 16) : let t := (s.setCore c x).openUnit c unit
    ∃ b, t.core c = { x with
        audit := some ⟨x.nextTag, unit, b, x.s.toList, x.p.toList, x.td.toList, []⟩, nextTag := x.nextTag + 1 }
      ∧ t.reg .intSampled = s.reg .intSampled + (if b then 1 else 0)
      ∧ t = { s.setCore c (t.core c) with regs := t.regs, freeCtr := t.freeCtr } := by
  obtain ⟨hframe, hcount⟩ := (s.setCore c x).drawSample_leaves c
  unfold State.openUnit
  dsimp only
  rw [State.core_setCore_self s c x]
  refine ⟨((s.setCore c x).drawSample c).2, State.core_setCore_self _ _ _, hcount, ?_⟩
  rw [State.core_setCore_self]
  generalize ((s.setCore c x).drawSample c).1 = u at hframe ⊢
  rw [hframe]
  exact congrArg (fun l => { s with cores := l, regs := u.regs, freeCtr := u.freeCtr }) (Assoc.put_put _ _ _ _)

/-- The replay that a sampled unit asks for (R493). -/
def replayOf (s : State) (c : CoreId) (i : SiteId) (n : Part) (u : Audit) : Replay :=
  { site := i, part := n, tick := (s.dom n).tick, seg := (s.core c).seg, run := (s.dom n).run, unit := u.unit, slot := c.slot,
    watch := decide ((s.site i).state = .watch), audit := u, runs := [], running := none }

section
variable {s : State} {c : CoreId} {u : Audit} (h : (s.core c).audit = some u)
include h

/-- AUDE of a unit that was not sampled closes it and counts it (R229). -/
theorem State.closeUnit_unsampled (hu : u.sampled = false) :
    s.closeUnit c = (s.setCore c { s.core c with audit := none }).bump .intUnits 0 0 1 := by
  unfold State.closeUnit
  dsimp only
  rw [h]
  dsimp only
  rw [hu]

/-- AUDE of a sampled unit also queues its replay (R229, R493). -/
theorem State.closeUnit_sampled {i : SiteId} {n : Part} (hu : u.sampled = true) (hi : s.siteOf c = some i)
    (hn : s.partOf c = some n) : s.closeUnit c = ((s.setCore c { s.core c with audit := none }).bump .intUnits 0 0 1).setReplays
      c.die (Assoc.getD c.die [] s.integ.queue ++ [replayOf s c i n u]) := by
  unfold State.closeUnit
  dsimp only
  rw [h]
  dsimp only
  rw [hu, hi, hn]
  rfl

/-- AUDE closes the unit of its core, counts it, and leaves memory (R229). -/
theorem State.closeUnit_leaves : (s.closeUnit c).core c = { s.core c with audit := none }
    ∧ (s.closeUnit c).reg .intUnits = s.reg .intUnits + 1 ∧ (s.closeUnit c).mem = s.mem
    ∧ (s.closeUnit c).pending = s.pending := by
  have hclose : (s.setCore c { s.core c with audit := none }).core c = { s.core c with audit := none } :=
    State.core_setCore_self _ _ _
  have hcount : ((s.setCore c { s.core c with audit := none }).bump .intUnits 0 0 1).reg .intUnits = s.reg .intUnits + 1 :=
    State.reg_bump_self _ _ _ _ _
  unfold State.closeUnit
  dsimp only
  rw [h]
  dsimp only
  split <;> exact ⟨hclose, hcount, rfl, rfl⟩

end

theorem auditUnits : AuditUnits := by
  intro c n s hbare
  obtain ⟨hq, -, hloops, -⟩ := hbare
  have hpart : s.partOf c = some n := hq.1
  refine ⟨fun f hi hd ha himm => ?_, fun f hi hr ho => ⟨fun hnone => ?_, fun u hu => ?_⟩⟩
  · have hrsv : (f.d != 0 || f.a != 0 || decide (65536 ≤ f.imm.toNat)) = false := by
      rw [hd, ha, decide_eq_false (Nat.not_le.2 himm)]
      rfl
    obtain ⟨b, hcore, hcount, hframe⟩ :=
      State.openUnit_leaves (s := s) (c := c) (x := { s.core c with pc := (s.core c).pc + 1 }) (f.imm.setWidth 16)
    refine ⟨_, b, exec_next (show exec (.audb c f) s = lift _ s from rfl) ((issue1_runs hi hrsv _).trans
      (congrArg (State.openUnit · c (f.imm.setWidth 16)) (State.advance_free hloops 1))) ?_, hcore, hcount, hframe⟩
    rw [hframe]
    rfl
  · exact exec_next (show exec (.aude c f) s = lift _ s from rfl)
      ((issue1_runs hi (jBad_eq_false hr ho) _).trans (if_pos (by rw [hnone]; rfl))) (State.kill_pending _ _ _ _)
  · let s1 := s.setCore c { s.core c with pc := (s.core c).pc + 1 }
    have hcore : s1.core c = { s.core c with pc := (s.core c).pc + 1 } := State.core_setCore_self _ _ _
    have hu1 : (s1.core c).audit = some u := by rw [hcore]; exact hu
    obtain ⟨hclosed, hcount, hmem, hpending⟩ := State.closeUnit_leaves hu1
    refine ⟨s1.closeUnit c, exec_next (show exec (.aude c f) s = lift _ s from rfl) ((issue1_runs hi (jBad_eq_false hr ho) _).trans
      ((if_neg (by rw [hu]; exact Bool.false_ne_true)).trans (congrArg (State.closeUnit · c) (State.advance_free hloops 1)))) hpending,
      by rw [hclosed, hcore], hcount, hmem, fun hs => ?_, fun hs i hsite => ?_⟩
    · rw [State.closeUnit_unsampled hu1 hs]
      rfl
    · refine ⟨replayOf s1 c i n u, ?_, rfl, rfl, ?_, rfl, rfl⟩
      · rw [State.closeUnit_sampled hu1 hs (i := i) (n := n) hsite hpart]
        exact Assoc.getD_put_self _ _ _ _
      · show (s1.core c).seg = (s.core c).seg
        rw [hcore]

end Sys2Proof.Machine
end

section
/-! # Replays and what they decide (R494 to R497)

A decision takes a snapshot and then judges a site. The relation `CodeKept` says what the quarantine of a site leaves of what
the decision wrote: the last code of INT and the suspects. -/

namespace Sys2Proof.Machine

open Sys2Proof.Claims

/-! ## What a quarantine leaves -/

/-- The list of suspects and the last code of INT stay. -/
structure CodeKept (s t : State) : Prop where
  suspects : t.integ.suspects = s.integ.suspects
  code : t.reg .intCode = s.reg .intCode

namespace CodeKept

theorem refl (s : State) : CodeKept s s := ⟨rfl, rfl⟩

theorem trans {s t u : State} (h : CodeKept s t) (h' : CodeKept t u) : CodeKept s u :=
  ⟨h'.suspects.trans h.suspects, h'.code.trans h.code⟩

/-- A change that leaves the registers and the suspects. -/
theorem of {s t : State} (hr : t.regs = s.regs := by rfl) (hs : t.integ.suspects = s.integ.suspects := by rfl) :
    CodeKept s t := ⟨hs, by unfold State.reg State.raw; rw [hr]⟩

/-- A change that leaves the registers and the suspects may come first. -/
theorem onto {s t u : State} (h : CodeKept t u) (hr : t.regs = s.regs := by rfl)
    (hs : t.integ.suspects = s.integ.suspects := by rfl) : CodeKept s u := (of hr hs).trans h

theorem setReg (s : State) {r : Reg} (hr : r ≠ .intCode) (i j : Nat) (v : Word) : CodeKept s (s.setReg r i j v) :=
  ⟨rfl, State.reg_setReg_ne s hr i j 0 0 v⟩

theorem bump (s : State) {r : Reg} (hr : r ≠ .intCode) (i j n : Nat) : CodeKept s (s.bump r i j n) := setReg s hr _ _ _

theorem ofEvent {s t : State} (h : EventOnly s t) : CodeKept s t :=
  ⟨by rw [h.integ], h.reg (by decide) 0 0⟩

theorem derReport (s : State) (code : Code) (bs : List Byte) : CodeKept s (s.derReport code bs) :=
  (setReg s (by decide) _ _ _).trans (ofEvent (mgmtReport_eventOnly _ _ _ _))

theorem foldl {α : Type} {f : State → α → State} (h : ∀ t x, CodeKept t (f t x)) (l : List α) (s : State) :
    CodeKept s (l.foldl f s) := by
  induction l generalizing s with
  | nil => exact refl s
  | cons x l ih => exact (h s x).trans (ih _)

end CodeKept

/-- No code of a completion is kept in INT.CODE. -/
theorem codeReg_ne_intCode {c : Code} {r : Reg} (h : codeReg c = some r) : r ≠ .intCode := by
  unfold codeReg at h
  split at h <;> cases h <;> decide

theorem lastCode_codeKept (s : State) (c : Code) : CodeKept s (s.lastCode c) := by
  unfold State.lastCode
  split
  · exact .refl s
  · next r hr => exact .setReg s (codeReg_ne_intCode hr) _ _ _

theorem pumpSession_codeKept (n k : Nat) (s : State) : CodeKept s (pumpSession n k s) := by
  induction k generalizing s with
  | zero => exact .refl s
  | succ k ih =>
    unfold pumpSession
    split
    · exact .refl s
    · split
      · exact .refl s
      · dsimp only
        split
        · exact .refl s
        · exact .trans (.onto (.bump (State.send (s.setSession n _) _) (r := .hpTxFrames) (by decide) 0 0 1)) (ih _)

theorem sessionSend_codeKept (s : State) (n : Nat) (ps : List (BrosinType × List Byte)) : CodeKept s (s.sessionSend n ps) := by
  unfold State.sessionSend
  split
  · exact .refl s
  · exact .onto (pumpSession_codeKept _ _ _)

theorem complete_codeKept (s : State) (cmd : Code) (f : Frame) (status : Code) (body : List Byte) :
    CodeKept s (s.complete cmd f status body) := by
  have hpop : CodeKept s (s.popCmd cmd f) := by
    unfold State.popCmd
    split
    · exact .refl s
    · exact .of
  have hcode := hpop.trans (lastCode_codeKept (s.popCmd cmd f) status)
  unfold State.complete State.answerCmd
  dsimp only
  split
  · exact hcode
  · have hsent (bs : List (BrosinType × List Byte)) := hcode.trans (.onto
      (sessionSend_codeKept (((s.popCmd cmd f).lastCode status).send (.completion f.session cmd f.cmdId status body)) f.session bs))
    split
    · exact (hsent _).trans (.bump _ (by decide) _ _ _)
    · exact hsent _

theorem serve_codeKept (s : State) (i : SiteId) (k : Fin 144) (old : Option SiteId) : CodeKept s (s.serve i k old) := by
  unfold State.serve
  extract_lets x st s1 s2 s3
  have h2 : CodeKept s s2 := by
    unfold s2
    split
    · exact .onto (complete_codeKept _ _ _ _ _)
    · exact .of
  have h3 : CodeKept s s3 := h2.trans .of
  split
  · exact h3
  · exact h3.trans .of

theorem moveSlot_codeKept (s : State) (i : SiteId) : CodeKept s (s.moveSlot i) := by
  unfold State.moveSlot
  split
  · exact .refl s
  · dsimp only
    split
    · exact .onto (serve_codeKept _ _ _ _)
    · exact .onto (.derReport _ _ _)

theorem quarantine_codeKept (s : State) (i : SiteId) : CodeKept s (s.quarantine i) := by
  unfold State.quarantine
  extract_lets x k s0 s1 retire y home s2 waits _ s3 slotByte s4 s5
  have h3 : CodeKept s s3 := .trans (.onto (moveSlot_codeKept s0 i)) .of
  have h4 : CodeKept s3 s4 := by
    unfold s4
    split
    · exact (CodeKept.bump s3 (by decide) _ _ _).trans (.derReport _ _ _)
    · exact (CodeKept.bump s3 (by decide) _ _ _).trans (.derReport _ _ _)
  have h5 : CodeKept s4 s5 := by
    unfold s5
    split
    · exact .of
    · exact .refl s4
  refine ((h3.trans h4).trans h5).trans (.foldl (fun t p => ?_) _ _)
  split
  · exact complete_codeKept _ _ _ _ _
  · exact .refl t

theorem quarantineLater_codeKept (s : State) (i : SiteId) (f : Option Frame) : CodeKept s (s.quarantineLater i f) := by
  unfold State.quarantineLater
  dsimp only
  split
  · exact .onto (quarantine_codeKept _ _)
  · exact .of

theorem snapshot_suspects (s : State) (h : SnapHead) (area : List Byte) :
    (s.snapshot h area).integ.suspects = s.integ.suspects := by
  unfold State.snapshot
  extract_lets q rec_ full _ _ s1 s2
  split
  · rw [(mgmtReport_eventOnly _ _ _ _).integ]
    rfl
  · rfl

end Sys2Proof.Machine
end

section
/-! # The statement about audits -/

namespace Sys2Proof.Machine

open Sys2Proof.Claims

theorem exec_replayStart (d : Fin 8) (s : State) : exec (.replayStart d) s = lift (fun s => s.startReplay d) s := rfl

theorem exec_replayComplete (d : Fin 8) (g : Option (List Byte)) (s : State) :
    exec (.replayComplete d g) s = lift (fun s => s.endReplay d g) s := rfl

/-! ## Replays start and end (R494 to R496) -/

section
variable {s : State} {d : Fin 8} {r : Replay} {l : List Replay}

/-- The first replay of the queue starts where it waits and has a site (R494). -/
theorem State.startReplay_first {i : SiteId} (hq : Assoc.getD d [] s.integ.queue = r :: l) (hr : r.running = none)
    (hi : s.replaySite d r = some i) :
    s.startReplay d = (s.setReplays d ({ r with running := some i.site } :: l)).bump .intReplays 0 0 1 := by
  unfold State.startReplay State.startFirst
  rw [hq]
  dsimp only
  rw [hr, hi]

/-- The only replay of a queue stays where no site is available (R494). -/
theorem State.startReplay_noSite (hq : Assoc.getD d [] s.integ.queue = [r]) (hi : s.replaySite d r = none) :
    s.startReplay d = s := by
  unfold State.startReplay
  rw [hq]
  unfold State.startFirst
  rw [hi]
  cases r.running with
  | none => rfl
  | some k => rfl

theorem State.startReplay_empty (hq : Assoc.getD d [] s.integ.queue = []) : s.startReplay d = s := by
  unfold State.startReplay
  rw [hq]
  rfl

theorem State.endReplay_empty (hq : Assoc.getD d [] s.integ.queue = []) (g : Option (List Byte)) : s.endReplay d g = s := by
  unfold State.endReplay
  rw [hq]
  rfl

/-- A replay with a run more. -/
def Replay.ran (r : Replay) (k : Fin 160) (g : Option (List Byte)) : Replay :=
  { r with runs := r.runs ++ [(k, g)], running := none }

/-- The state in which a digest is judged: a first digest that differs is counted (R495, R515). -/
def State.countMismatch (s : State) (r : Replay) (g : Option (List Byte)) : State :=
  if decide (r.runs = []) && decide (g ≠ some (originalDigest r.audit)) then s.bump .intAuditMismatches 0 0 1 else s

variable {k : Fin 160} (hq : Assoc.getD d [] s.integ.queue = [r]) (hr : r.running = some k)
include hq hr

theorem State.endReplay_decided {g : Option (List Byte)} {t : State} (h : (s.countMismatch r g).judge d (r.ran k g) = some t) :
    s.endReplay d g = t.setReplays d [] := by
  unfold State.countMismatch Replay.ran at h
  have hrun : [r].find? (fun r => r.running.isSome) = some r := List.find?_cons_of_pos (by rw [hr]; rfl)
  have hgone : [r].filter (fun x => decide (x ≠ r)) = [] := List.filter_cons_of_neg (by simp)
  unfold State.endReplay
  dsimp only
  rw [hq, hrun]
  dsimp only
  rw [hr]
  dsimp only
  rw [h, hgone]

theorem State.endReplay_open {g : Option (List Byte)} (h : (s.countMismatch r g).judge d (r.ran k g) = none) :
    s.endReplay d g = (s.countMismatch r g).setReplays d [r.ran k g] := by
  have hrun : [r].find? (fun r => r.running.isSome) = some r := List.find?_cons_of_pos (by rw [hr]; rfl)
  have hran : [r].map (fun x => if x = r then r.ran k g else x) = [r.ran k g] := by simp
  unfold State.countMismatch Replay.ran at h
  unfold State.endReplay
  dsimp only
  rw [hq, hrun]
  dsimp only
  rw [hr]
  dsimp only
  rw [h]
  exact congrArg (State.setReplays (s.countMismatch r g) d) hran

end

/-! ## What the digests decide (R496) -/

section
variable {s : State} {d : Fin 8} {r : Replay}

theorem State.judge_first_same {k : Fin 160} {g : Option (List Byte)} (hruns : r.runs = [(k, g)])
    (hg : g = some (originalDigest r.audit)) : s.judge d r = some s := by
  unfold State.judge
  rw [hruns]
  exact if_pos hg

theorem State.judge_first_other {k : Fin 160} {g : Option (List Byte)} (hruns : r.runs = [(k, g)])
    (hg : g ≠ some (originalDigest r.audit)) : s.judge d r = none := by
  unfold State.judge
  rw [hruns]
  exact if_neg hg

variable {k k' : Fin 160} {first third : Option (List Byte)} (hruns : r.runs = [(k, first), (k', third)])
include hruns

/-- The third digest is the original's: the replaying site is at fault. -/
theorem State.judge_replayer (h : third = some (originalDigest r.audit)) : ∃ head area, s.judge d r =
    some (((s.snapshot head area).mgmtReport .intCode 0x0B09 []).quarantineLater ⟨d, k⟩ none) := by
  unfold State.judge
  rw [hruns]
  exact ⟨_, _, if_pos h⟩

/-- The third digest is the first one: the original is at fault. -/
theorem State.judge_original (h : third ≠ some (originalDigest r.audit)) (hsome : third.isSome = true) (hsame : third = first) :
    ∃ head area, s.judge d r = some ((s.snapshot head area).originalAtFault r r.site) := by
  unfold State.judge
  rw [hruns]
  exact ⟨_, _, (if_neg h).trans (if_pos ⟨hsome, hsame⟩)⟩

/-- All three digests differ: the original and a replaying site in use are at fault. -/
theorem State.judge_both (h : third ≠ some (originalDigest r.audit)) (hdiff : ¬ (third.isSome = true ∧ third = first))
    (hsite : (s.site ⟨d, k⟩).state ≠ .spare) : ∃ head area, let t := (s.snapshot head area).originalAtFault r r.site
    s.judge d r = some { t with integ := { t.integ with suspects := t.integ.suspects ++ [(⟨d, k⟩, r.part, r.seg, 0x0B02)] } } := by
  unfold State.judge
  rw [hruns]
  refine ⟨auditHead d r 0x0B02 r.site.site.val k.val r.slot.val, auditArea r.audit (first.getD []) (third.getD []),
    (if_neg h).trans ((if_neg hdiff).trans (congrArg some ?_))⟩
  split
  · next hs => exact absurd hs hsite
  · rfl

end

/-- A replaying site at fault is reported with 0x0B09; no segment's vote changes (R496). -/
theorem State.replayerAtFault_leaves (s : State) (head : SnapHead) (area : List Byte) (i : SiteId) :
    let t := ((s.snapshot head area).mgmtReport .intCode 0x0B09 []).quarantineLater i none
    t.reg .intCode = 0x0B09 ∧ t.reg .intSnapshots = s.reg .intSnapshots + 1 ∧ t.integ.suspects = s.integ.suspects
      ∧ t.doms = s.doms := by
  dsimp only
  have hevent := mgmtReport_eventOnly (s.snapshot head area) .intCode 0x0B09 []
  have hcode := quarantineLater_codeKept ((s.snapshot head area).mgmtReport .intCode 0x0B09 []) i none
  have hcounts := ((snapshot_reportsOnly s head area).trans (mgmtReport_reportsOnly _ .intCode 0x0B09 [])).trans
    (quarantineLater_reportsOnly _ i none)
  refine ⟨?_, ?_, ?_, hcounts.doms⟩
  · rw [hcode.code, hevent.reg (by decide), State.reg_setReg_self]
    rfl
  · rw [hcounts.reg (by decide), State.reg_bump_self]
    rfl
  · rw [hcode.suspects, hevent.integ]
    exact snapshot_suspects s head area

/-- An original at fault has 0x0B02 in its segment's vote, and its site is suspect (R496, R499). -/
theorem State.originalAtFault_leaves (s : State) (head : SnapHead) (area : List Byte) (r : Replay) (i : SiteId) :
    let t := (s.snapshot head area).originalAtFault r i
    t.reg .intCode = 0x0B02 ∧ t.reg .intSnapshots = s.reg .intSnapshots + 1
      ∧ t.integ.suspects = s.integ.suspects ++ [(i, r.part, r.seg, 0x0B02)]
      ∧ (t.dom r.part).errs = (s.dom r.part).errs ++ [(r.seg, 0x0B02, some i)] ∧ t.mem = s.mem ∧ t.cores = s.cores := by
  have hkept := snapshot_recordOnly s head area
  have hcounts := snapshot_reportsOnly s head area
  have hdom : (s.snapshot head area).dom r.part = s.dom r.part := by
    unfold State.dom
    rw [hcounts.doms]
    rfl
  refine ⟨State.reg_setReg_self _ _ _ _ _, ?_, congrArg (· ++ _) (snapshot_suspects s head area), ?_, hkept.mem, hkept.cores⟩
  · calc ((s.snapshot head area).originalAtFault r i).reg .intSnapshots
        = (s.snapshot head area).reg .intSnapshots := State.reg_setReg_ne _ (by decide) _ _ _ _ _
      _ = s.reg .intSnapshots + 1 := (hcounts.reg (by decide) 0 0).trans (State.reg_bump_self _ _ _ _ _)
  · calc (((s.snapshot head area).originalAtFault r i).dom r.part).errs
        = ((s.snapshot head area).dom r.part).errs ++ [(r.seg, 0x0B02, some i)] :=
          congrArg Domain.errs (State.dom_updDom_self (s.snapshot head area) r.part
            (fun x => { x with errs := x.errs ++ [(r.seg, 0x0B02, some i)] }))
      _ = _ := by rw [hdom]

theorem replayRuns : ReplayRuns := by
  intro d s
  dsimp only
  refine ⟨fun hq => ⟨exec_stays (exec_replayStart d s) (State.startReplay_empty hq), fun g =>
    exec_stays (exec_replayComplete d g s) (State.endReplay_empty hq g)⟩, fun r l hq hr => ⟨fun i hi => ?_, ?_⟩,
    fun r k hq hr => ⟨fun hruns => ?_, fun g hruns hg => ?_, fun k1 first hruns => ?_⟩⟩
  · exact exec_next (exec_replayStart d s) (State.startReplay_first hq hr hi) rfl
  · rintro hi rfl
    exact exec_stays (exec_replayStart d s) (State.startReplay_noSite hq hi)
  · have hran : (r.ran k (some (originalDigest r.audit))).runs = [(k, some (originalDigest r.audit))] := by
      unfold Replay.ran
      rw [hruns]
      rfl
    have hcount : s.countMismatch r (some (originalDigest r.audit)) = s := if_neg (by simp)
    exact exec_next (exec_replayComplete d _ s)
      (State.endReplay_decided hq hr (by rw [hcount]; exact State.judge_first_same hran rfl)) rfl
  · have hran : (r.ran k g).runs = [(k, g)] := by
      unfold Replay.ran
      rw [hruns]
      rfl
    have hcount : s.countMismatch r g = s.bump .intAuditMismatches 0 0 1 := if_pos (by simp [hruns, hg])
    refine exec_next (exec_replayComplete d g s)
      ((State.endReplay_open hq hr (State.judge_first_other hran hg)).trans ?_) rfl
    rw [hcount]
    unfold Replay.ran
    rw [hruns]
    rfl
  · have hran (g : Option (List Byte)) : (r.ran k g).runs = [(k1, first), (k, g)] := by
      unfold Replay.ran
      rw [hruns]
      rfl
    have hcount (g : Option (List Byte)) : s.countMismatch r g = s := if_neg (by simp [hruns])
    have hend {g : Option (List Byte)} {t : State} (h : s.judge d (r.ran k g) = some t) :
        exec (.replayComplete d g) s = .next (after (fun _ => t.setReplays d []) s) :=
      exec_after (exec_replayComplete d g s) (State.endReplay_decided hq hr (by rw [hcount]; exact h))
    refine ⟨?_, fun hfirst hne => ?_, fun g hg hdiff hsite => ?_⟩
    · obtain ⟨head, area, hj⟩ := State.judge_replayer (s := s) (d := d) (hran (some (originalDigest r.audit))) rfl
      obtain ⟨hcode, hsnap, hsus, hdoms⟩ := s.replayerAtFault_leaves head area ⟨d, k1⟩
      exact ⟨_, hend hj, Assoc.getD_put_self _ _ _ _, hcode, hsnap, hsus, hdoms⟩
    · obtain ⟨head, area, hj⟩ := State.judge_original (s := s) (d := d) (hran first) hne hfirst rfl
      obtain ⟨hcode, hsnap, hsus, herrs, hmem, hcores⟩ := s.originalAtFault_leaves head area r r.site
      exact ⟨_, hend hj, Assoc.getD_put_self _ _ _ _, hcode, hsnap, hsus, herrs, hmem, hcores⟩
    · have hall : ¬ (g.isSome = true ∧ g = first) := by
        rintro ⟨hs, rfl⟩
        rcases hdiff with rfl | h
        · exact Bool.false_ne_true hs
        · exact h rfl
      obtain ⟨head, area, hj⟩ := State.judge_both (s := s) (d := d) (hran g) hg hall hsite
      obtain ⟨hcode, hsnap, hsus, herrs, hmem, hcores⟩ := s.originalAtFault_leaves head area r r.site
      refine ⟨_, hend hj, Assoc.getD_put_self _ _ _ _, hcode, hsnap, ?_, herrs, hmem, hcores⟩
      exact (congrArg (· ++ [_]) hsus).trans (List.append_assoc _ _ _)

/-- Settles O22: AUDB and AUDE by what they leave of the core and the queue of replays; a replay by what its digests decide. -/
theorem auditsAndReplays : Obligations.AuditsAndReplays := ⟨auditUnits, replayRuns⟩

end Sys2Proof.Machine
end

section
/-! # The part of the area that a SUBMIT takes (R279) -/

namespace Sys2Proof.Machine

open Sys2Proof.Claims

/-- Refutes O42: an empty part in use overlaps nothing, so that a new part may be laid over it. With an empty part in use at
offset 2 of an area of 10 bytes, a part of 4 bytes is put at offset 0: it ends past the offset of the empty part, which itself
ends past 0. A SUBMIT of the right length takes at least 776 bytes and lists no such part; the statement speaks of every list
of parts. -/
theorem not_servingIntake : ¬ Obligations.ServingIntake := by
  rintro ⟨-, -, hfit⟩
  have hplaced : areaFit 10 4 [(0, 2, 0)] = some 0 := by decide
  obtain ⟨-, hclear⟩ := hfit 10 4 0 [(0, 2, 0)] hplaced
  exact absurd (hclear (0, 2, 0) List.mem_cons_self) (by decide)

end Sys2Proof.Machine
end

section
/-! # The commands that change requests and programs, on their way to the intake (R277, R278, R280, R443, R449, R450)

Support: a command leaves its queue and nothing else changes; the master takes it, any other module sends it on. -/

namespace Sys2Proof.Machine

open Sys2Proof.Claims

/-! ## Leaving the queue, and the way to the master (R277, R443) -/

/-- What does not read the queues is as it was once a command has left its queue. -/
theorem State.popCmd_reads {α : Type} {s : State} {g : State → α}
    (hg : ∀ q, g { s with hp := { s.hp with queues := q } } = g s) (cmd : Code) (f : Frame) : g (s.popCmd cmd f) = g s := by
  unfold State.popCmd
  split
  · rfl
  · exact hg _

section
variable (s : State) (cmd : Code) (f : Frame) (n : Part)

@[simp] theorem State.popCmd_self : (s.popCmd cmd f).self = s.self := State.popCmd_reads (fun _ => rfl) cmd f

@[simp] theorem State.popCmd_orders : (s.popCmd cmd f).orders n = s.orders n :=
  State.popCmd_reads (g := (·.orders n)) (fun _ => rfl) cmd f

@[simp] theorem State.popCmd_enabled : (s.popCmd cmd f).enabled n = s.enabled n :=
  State.popCmd_reads (g := (·.enabled n)) (fun _ => rfl) cmd f

@[simp] theorem State.popCmd_svPart : (s.popCmd cmd f).svPart n = s.svPart n :=
  State.popCmd_reads (g := (·.svPart n)) (fun _ => rfl) cmd f

@[simp] theorem State.popCmd_intakeTick : (s.popCmd cmd f).intakeTick n = s.intakeTick n :=
  State.popCmd_reads (g := (·.intakeTick n)) (fun _ => rfl) cmd f

end

theorem State.forwardTo_self {s : State} {h : HostCmd} (hm : s.orders h.part = s.self) (take : State → State) :
    s.forwardTo h take = take s := if_pos hm

/-- A module that does not order the partition's changes sends the command to the one that does, under the time at which it
arrived, and keeps nothing of it. -/
theorem State.forwardTo_other {s : State} {h : HostCmd} (hm : s.orders h.part ≠ s.self) (take : State → State) :
    ∃ g : Mgmt, g.dom = h.part ∧ g.time = h.arrival ∧ WireOnly (s.send (.forward (s.orders h.part) g h)) (s.forwardTo h take) := by
  refine ⟨{ s.mgmt h.part with module := s.self.val, time := h.arrival }, rfl, rfl, ?_⟩
  unfold State.forwardTo
  rw [if_neg hm]
  exact onMgmt_wireOnly _ _ _ _

theorem WireOnly.svPart {s t : State} (h : WireOnly s t) (n : Part) : t.svPart n = s.svPart n := by
  rw [h.frame]
  rfl

/-- The master of an enabled domain gathers a command for the admission that is still open (R277). -/
theorem State.masterTake_enabled {s : State} {h : HostCmd} (hen : s.enabled h.part = true) :
    s.masterTake h = s.setSvPart h.part
      { s.svPart h.part with gathered := (s.svPart h.part).gathered ++ [(s.intakeTick h.part, h)] } := if_pos hen

/-- While the domain is disabled, a command that is no change of the slot table waits for its first intake (log 70). -/
theorem State.masterTake_disabled {s : State} {h : HostCmd} (hen : s.enabled h.part = false) (hv : versionCmd h.cmd = false) :
    s.masterTake h = s.setSvPart h.part { s.svPart h.part with gathered := (s.svPart h.part).gathered ++ [(0, h)] } :=
  (if_neg (by simp [hen])).trans (if_neg (by simp [hv]))

/-- Where a command that leaves its queue goes: to the master, by the fabric or at once (R277). -/
theorem State.forwardCmd_goes (cmd : Code) (f : Frame) (n : Part) (u : State) :
    let h : HostCmd := ⟨cmd, n, u.self, u.arrivedAt cmd f, f⟩
    let v := u.popCmd cmd f
    let x := u.svPart n
    (u.orders n ≠ u.self → ∃ g, Msg.forward (u.orders n) g h ∈ (u.forwardCmd cmd f n).tx ∧ g.dom = n ∧ g.time = u.arrivedAt cmd f
      ∧ (u.forwardCmd cmd f n).svPart n = x)
    ∧ (u.orders n = u.self → u.enabled n = true →
        u.forwardCmd cmd f n = v.setSvPart n { x with gathered := x.gathered ++ [(u.intakeTick n, h)] })
    ∧ (u.orders n = u.self → u.enabled n = false → versionCmd cmd = false →
        u.forwardCmd cmd f n = v.setSvPart n { x with gathered := x.gathered ++ [(0, h)] }) := by
  intro h v x
  unfold State.forwardCmd
  refine ⟨fun hm => ?_, fun hm hen => ?_, fun hm hen hv => ?_⟩
  · obtain ⟨g, hdom, htime, hw⟩ := State.forwardTo_other (s := v) (h := h) (by simpa [v] using hm) (fun t => t.masterTake h)
    rw [State.popCmd_orders] at hw
    exact ⟨g, hw.sent _ List.mem_cons_self, hdom, htime, (hw.svPart n).trans (u.popCmd_svPart cmd f n)⟩
  · rw [State.forwardTo_self (by simpa using hm), State.masterTake_enabled (by simpa using hen)]
    simp [v, x, h]
  · rw [State.forwardTo_self (by simpa using hm), State.masterTake_disabled (by simpa using hen) hv]
    simp [v, x, h]

/-! ## The commands where they arrive (R280, R445, R449, R450) -/

theorem State.notServing_iff (s : State) (n : Part) :
    s.notServing n = true ↔ s.cfg .svPVocab 0 n.val = 0 ∨ s.namedProgram n = none := by
  simp [State.notServing]

theorem resultBad_iff (b : List Byte) : resultBad b = true ↔ b.length ≠ 16 ∨ fieldNat b 4 4 ≠ 0 := by
  simp [resultBad]

/-- SUBMIT: its length, and the channel it names, judged at its home module (R279, R445, log 100). -/
theorem submit_arrives (f : Frame) (n : Part) (s : State) :
    ((f.body.length < 904 ∨ f.body.length ≠ 904 + 4 * fieldNat f.body 76 4) → Answers (.submit f) 0x0010 f (.part n) .part s 0x0901)
    ∧ (904 ≤ f.body.length → f.body.length = 904 + 4 * fieldNat f.body 76 4 →
        (s.channelBad n f.body = true → Answers (.submit f) 0x0010 f (.part n) .part s
          (if s.cfg .svPVocab 0 n.val = 0 ∨ s.namedProgram n = none then 0x0903 else 0x0501))
        ∧ (s.channelBad n f.body = false →
            Effect (.submit f) 0x0010 f (.part n) .part s (fun t => t.forwardCmd 0x0010 f n))) := by
  have hx : exec (.submit f) s = lift (fun t => t.partCmd 0x0010 f _) s := rfl
  refine ⟨fun h => effect_of_partCmd hx (if_pos h), fun hmin hlen => ?_⟩
  have hbody : ¬(f.body.length < 904 ∨ f.body.length ≠ 904 + 4 * fieldNat f.body 76 4) := by omega
  refine ⟨fun hc => effect_of_partCmd hx ((if_neg hbody).trans ((if_pos hc).trans ?_)),
    fun hc => effect_of_partCmd hx ((if_neg hbody).trans (if_neg ?_))⟩
  · exact congrArg (State.complete _ 0x0010 f · []) (if_congr (s.notServing_iff n) rfl rfl)
  · rw [show (started s 0x0010 f (.part n)).channelBad n f.body = false from hc]
    exact Bool.false_ne_true

/-- RESULT_READ: its layout, the entry it names, and the record of one that is DONE with its count of reads (R449). -/
theorem resultRead_answers (f : Frame) (n : Part) (s : State) :
    ((f.body.length ≠ 16 ∨ fieldNat f.body 4 4 ≠ 0) → Answers (.resultRead f) 0x0012 f (.part n) .part s 0x0901)
    ∧ (f.body.length = 16 → fieldNat f.body 4 4 = 0 →
        (s.resultEntry n f.body = none → Answers (.resultRead f) 0x0012 f (.part n) .part s 0x0502)
        ∧ ∀ e x, s.resultEntry n f.body = some (e, x) →
            (x.state ≠ .done → Answers (.resultRead f) 0x0012 f (.part n) .part s 0x0905)
            ∧ ∀ r, x.state = .done → Assoc.find e s.sv.results = some r →
                Answers (.resultRead f) 0x0012 f (.part n) .part s 0 (r.bytes ++ natBytes 8 (r.reads + 1))
                  (fun t => { t with sv := { t.sv with results := Assoc.put e { r with reads := r.reads + 1 } t.sv.results } })) := by
  have hx : exec (.resultRead f) s = lift (fun t => t.partCmd 0x0012 f _) s := rfl
  refine ⟨fun h => effect_of_partCmd hx (if_pos ((resultBad_iff _).2 h)), fun hlen hrsv => ?_⟩
  have hbody : ¬ resultBad f.body = true := by simp [resultBad_iff, hlen, hrsv]
  refine ⟨fun hnone => effect_of_partCmd hx ((if_neg hbody).trans ?_), fun e x hfound => ⟨fun hstate =>
    effect_of_partCmd hx ((if_neg hbody).trans ?_), fun r hstate hr => effect_of_partCmd hx ((if_neg hbody).trans ?_)⟩⟩
  · rw [show (started s 0x0012 f (.part n)).resultEntry n f.body = none from hnone]
    rfl
  · rw [show (started s 0x0012 f (.part n)).resultEntry n f.body = some (e, x) from hfound]
    exact if_pos hstate
  · rw [show (started s 0x0012 f (.part n)).resultEntry n f.body = some (e, x) from hfound]
    have hrec : Assoc.getD e ⟨List.replicate 64 0, 0, 0⟩ (started s 0x0012 f (.part n)).sv.results = r :=
      congrArg (Option.getD · _) hr
    refine (if_neg (not_not.2 hstate)).trans ?_
    dsimp only
    rw [hrec]

/-! ## The commands and the intake where they are received (R277, R278, R354) -/

/-- FORWARD: every module starts a repair; the rest is the master's (R277, R366). -/
theorem forward_received (m : Mgmt) (h : HostCmd) (s : State) :
    (h.cmd = 0x0033 → exec (.forward m h) s = .next (after (fun t => t.startRepair m.dom (BitVec.ofNat 16 (fieldNat h.frame.body 0 4))
      (fieldNat h.frame.body 4 4)) s))
    ∧ (h.cmd ≠ 0x0033 → s.orders m.dom ≠ s.self → exec (.forward m h) s = .next s)
    ∧ (h.cmd = 0x0030 → s.orders m.dom = s.self → exec (.forward m h) s = .next (after (fun t => t.masterLoad h) s))
    ∧ (h.cmd ≠ 0x0033 → h.cmd ≠ 0x0030 → s.orders m.dom = s.self → s.enabled h.part = true → let x := s.svPart h.part
        exec (.forward m h) s = .next (s.setSvPart h.part { x with gathered := x.gathered ++ [(s.intakeTick h.part, h)] })) := by
  have hx : exec (.forward m h) s = lift _ s := show execForward m h s = _ from rfl
  refine ⟨fun hrepair => exec_after hx (if_pos hrepair), fun hother hm => exec_stays hx ((if_neg hother).trans (if_pos hm)),
    fun hload hm => exec_after hx ((if_neg (by rw [hload]; decide)).trans ((if_neg (not_not.2 hm)).trans (if_pos hload))),
    fun hother hload hm hen => exec_next hx ((if_neg hother).trans ((if_neg (not_not.2 hm)).trans ((if_neg hload).trans
      (State.masterTake_enabled hen)))) rfl⟩

/-- INTAKE: kept until admission closes, or applied where the domain is disabled (R278, R354). -/
theorem intake_received (m : Mgmt) (cmds : List HostCmd) (s : State) : let x := s.svPart m.dom
    (s.enabled m.dom = true → exec (.intake m cmds) s =
      .next (s.setSvPart m.dom { x with intakes := x.intakes ++ [(m.tick.toNat, m.hash, cmds)] }))
    ∧ (s.enabled m.dom = false → exec (.intake m cmds) s = .next (after (fun t => cmds.foldl State.applyVersion t) s)) := by
  have hx : exec (.intake m cmds) s = lift _ s := show execIntake m cmds s = _ from rfl
  exact ⟨fun hen => exec_next hx (if_pos hen) rfl, fun hen => exec_after hx (if_neg (by simp [hen]))⟩

/-- Settles O41: each command where it arrives, its way to the master, and what the master and the other modules keep. -/
theorem servingCommands : Obligations.ServingCommands := by
  refine ⟨fun f n s => ?_, State.forwardCmd_goes, forward_received, intake_received⟩
  obtain ⟨hsubmitBad, hsubmit⟩ := submit_arrives f n s
  obtain ⟨hreadBad, hread⟩ := resultRead_answers f n s
  have hack : exec (.resultAck f) s = lift (fun t => t.partCmd 0x0013 f _) s := rfl
  refine ⟨hsubmitBad, hsubmit, fun h => effect_of_partCmd rfl (if_pos h), fun h => effect_of_partCmd rfl (if_neg (not_not.2 h)),
    fun h => ⟨effect_of_partCmd hack (if_pos ((resultBad_iff _).2 h)), hreadBad h⟩,
    fun hlen hrsv => ⟨effect_of_partCmd hack (if_neg ?_), hread hlen hrsv⟩, effect_of_partCmd rfl rfl,
    fun h => effect_of_partCmd rfl (if_pos h), fun h => effect_of_partCmd rfl (if_neg (not_not.2 h))⟩
  simp [resultBad_iff, hlen, hrsv]

end Sys2Proof.Machine
end

section
/-! # What a window grants within credit (R346, R473, R474)

Support: a cycle granted within credit uses up a unit of its partition's credit; no other cycle touches the credits. -/

namespace Sys2Proof.Machine

/-! ## One entry of a list -/

theorem modNth_eq_modify {α : Type} (f : α → α) (n : Nat) (l : List α) : modNth f n l = l.modify n f := by
  induction l generalizing n with
  | nil => cases n <;> rfl
  | cons x l ih => cases n with
    | zero => rfl
    | succ n => simp [modNth, ih]

theorem modNth_length {α : Type} (f : α → α) (n : Nat) (l : List α) : (modNth f n l).length = l.length := by
  rw [modNth_eq_modify, List.length_modify]

theorem modNth_getD_self {α : Type} (f : α → α) {n : Nat} {l : List α} (h : n < l.length) (d : α) :
    (modNth f n l).getD n d = f (l.getD n d) := by
  simp [modNth_eq_modify, List.getD_eq_getElem?_getD, h]

theorem modNth_getD_ne {α : Type} (f : α → α) {n m : Nat} (h : n ≠ m) (l : List α) (d : α) :
    (modNth f n l).getD m d = l.getD m d := by
  simp [modNth_eq_modify, List.getD_eq_getElem?_getD, h]

/-- A number of a list that is taken down by one takes the sum down by one. -/
theorem modNth_pred_sum {n : Nat} {l : List Nat} (h : 0 < l.getD n 0) : (modNth (· - 1) n l).sum + 1 = l.sum := by
  induction l generalizing n with
  | nil => simp at h
  | cons x l ih => cases n with
    | zero =>
      simp only [List.getD_cons_zero] at h
      simp only [modNth, List.sum_cons]
      omega
    | succ n =>
      have := ih (n := n) (by simpa using h)
      simp only [modNth, List.sum_cons]
      omega

theorem modNth_pred_getD_le (n m : Nat) (l : List Nat) : (modNth (· - 1) n l).getD m 0 ≤ l.getD m 0 := by
  simp only [modNth_eq_modify, List.getD_eq_getElem?_getD, List.getElem?_modify]
  cases l[m]? with
  | none => simp
  | some x => by_cases hn : n = m <;> simp [hn]

/-! ## One cycle (R471, R474) -/

/-- Partition `n` has requests that its credit covers. -/
def Window.covered (w : Window) (n : Nat) : Prop := 0 < w.demand.getD n 0 ∧ 0 < w.credit.getD n 0

/-- The turn within credit goes to a partition whose requests its credit covers (R474). -/
theorem Window.covered_of_guarTurn {w : Window} {burst n : Nat} (h : w.guarTurn burst = some n) : w.covered n := by
  simp only [Window.guarTurn] at h
  split at h
  · next hturn =>
    obtain rfl := Option.some.inj h
    simp only [Bool.and_eq_true, decide_eq_true_eq] at hturn
    exact hturn.1
  · split at h
    · next m hfind =>
      obtain rfl := Option.some.inj h
      have := List.mem_of_find?_eq_some hfind
      simp at this
      exact this.2.1
    · have := List.mem_of_head? h
      simp at this
      exact this.2.1

/-- Where nobody has the turn within credit, nobody's requests are covered. -/
theorem Window.not_covered_of_guarTurn_none {w : Window} {burst : Nat} (h : w.guarTurn burst = none) {n : Nat} (hn : n < 16) :
    ¬ w.covered n := by
  rintro ⟨hd, hc⟩
  simp only [Window.guarTurn] at h
  split at h
  · cases h
  · next hturn =>
    split at h
    · cases h
    · have hempty := List.head?_eq_none_iff.1 h
      by_cases hne : n = w.turn
      · subst hne
        exact hturn (by simp only [hempty, hd, hc, decide_true, List.isEmpty_nil, Bool.true_or, Bool.and_self])
      · have := List.filter_eq_nil_iff.1 hempty n (List.mem_range.2 hn)
        simp only [hd, hc, hne, decide_true, Bool.and_self, decide_not, decide_false, Bool.not_false, not_true_eq_false] at this

/-- A cycle granted within credit takes one request and one unit of credit of its partition. -/
theorem Window.cycle_of_guarTurn (shares : List Nat) {burst n : Nat} {w : Window} (h : w.guarTurn burst = some n) :
    (w.cycle shares burst).demand = modNth (· - 1) n w.demand ∧ (w.cycle shares burst).credit = modNth (· - 1) n w.credit
    ∧ (w.cycle shares burst).guar = modNth (· + 1) n w.guar := by
  simp [Window.cycle, Window.grant, h]

/-- Any other cycle leaves credits and the grants within them, and takes no more than a request of one partition. -/
theorem Window.cycle_of_guarTurn_none (shares : List Nat) {burst : Nat} {w : Window} (h : w.guarTurn burst = none) :
    (w.cycle shares burst).credit = w.credit ∧ (w.cycle shares burst).guar = w.guar
    ∧ ∃ n, (w.cycle shares burst).demand = w.demand ∨ (w.cycle shares burst).demand = modNth (· - 1) n w.demand := by
  have hg : ∀ n, w.grant shares burst ≠ .part n false := by
    intro n
    simp only [Window.grant, h]
    split
    · simp
    · split
      · simp
      · split <;> simp
  simp only [Window.cycle]
  split
  · next n b heq =>
    cases b with
    | false => exact absurd heq (hg n)
    | true => exact ⟨rfl, rfl, n, .inr rfl⟩
  all_goals exact ⟨rfl, rfl, 0, .inl rfl⟩

/-- What a cycle leaves of the window's form and of each partition's credit. -/
structure Window.Step (w v : Window) : Prop where
  creditLength : v.credit.length = w.credit.length
  guarLength : v.guar.length = w.guar.length
  demand_le (n : Nat) : v.demand.getD n 0 ≤ w.demand.getD n 0
  credit_le (n : Nat) : v.credit.getD n 0 ≤ w.credit.getD n 0
  total (n : Nat) : w.credit.length = w.guar.length → v.guar.getD n 0 + v.credit.getD n 0 = w.guar.getD n 0 + w.credit.getD n 0

theorem Window.step_cycle (shares : List Nat) (burst : Nat) (w : Window) : w.Step (w.cycle shares burst) := by
  cases h : w.guarTurn burst with
  | none =>
    obtain ⟨hc, hg, n, hd⟩ := Window.cycle_of_guarTurn_none shares h
    refine ⟨by rw [hc], by rw [hg], fun m => ?_, fun m => by rw [hc], fun m _ => by rw [hc, hg]⟩
    rcases hd with hd | hd
    · rw [hd]
    · rw [hd]; exact modNth_pred_getD_le n m _
  | some n =>
    obtain ⟨hd, hc, hg⟩ := Window.cycle_of_guarTurn shares h
    refine ⟨by rw [hc, modNth_length], by rw [hg, modNth_length], fun m => by rw [hd]; exact modNth_pred_getD_le n m _,
      fun m => by rw [hc]; exact modNth_pred_getD_le n m _, fun m hlen => ?_⟩
    rw [hc, hg]
    by_cases hm : n = m
    · subst hm
      have hpos := (Window.covered_of_guarTurn h).2
      have hn : n < w.credit.length := by
        by_contra hge
        rw [List.getD_eq_default _ _ (not_lt.1 hge)] at hpos
        exact lt_irrefl 0 hpos
      rw [modNth_getD_self _ hn, modNth_getD_self _ (hlen ▸ hn)]
      omega
    · rw [modNth_getD_ne _ hm, modNth_getD_ne _ hm]

/-! ## A window -/

/-- Every cycle of a window keeps what a grant within credit and the credit left come to. -/
theorem runWindow_total (shares : List Nat) (burst k n : Nat) {w : Window} (hlen : w.credit.length = w.guar.length) :
    (runWindow shares burst k w).guar.getD n 0 + (runWindow shares burst k w).credit.getD n 0
      = w.guar.getD n 0 + w.credit.getD n 0 := by
  induction k generalizing w with
  | zero => rfl
  | succ k ih =>
    have step := w.step_cycle shares burst
    exact (ih (by rw [step.creditLength, step.guarLength, hlen])).trans (step.total n hlen)

/-- A window with as many cycles as its credits add up to, or with no request that is covered, ends with none covered: a cycle
uses up a unit of credit as long as one is (R346, R473). -/
theorem runWindow_not_covered (shares : List Nat) (burst k : Nat) {w : Window}
    (h : w.credit.sum ≤ k ∨ ∀ n < 16, ¬ w.covered n) {n : Nat} (hn : n < 16) : ¬ (runWindow shares burst k w).covered n := by
  induction k generalizing w with
  | zero =>
    rcases h with h | h
    · rintro ⟨-, hc⟩
      have : _ = w.credit.sum := modNth_pred_sum hc
      omega
    · exact h n hn
  | succ k ih =>
    apply ih
    cases hturn : w.guarTurn burst with
    | none =>
      refine .inr fun m hm hcov => Window.not_covered_of_guarTurn_none hturn hm ?_
      have step := w.step_cycle shares burst
      exact ⟨hcov.1.trans_le (step.demand_le m), hcov.2.trans_le (step.credit_le m)⟩
    | some m =>
      have hcov := Window.covered_of_guarTurn hturn
      rcases h with h | h
      · left
        have := modNth_pred_sum hcov.2
        rw [(Window.cycle_of_guarTurn shares hturn).2.1]
        omega
      · have step := w.step_cycle shares burst
        refine .inr fun i hi hi' => h i hi ⟨hi'.1.trans_le (step.demand_le i), hi'.2.trans_le (step.credit_le i)⟩

/-- Settles O60: a partition with requests left at the end has no credit left, and credit goes only by grants within it. -/
theorem guaranteedCredit : Obligations.GuaranteedCredit := by
  rintro shares burst k n w ⟨-, hcredit, hguar, -, -⟩ hn hsum
  have hcov := runWindow_not_covered shares burst k (.inl hsum) hn
  have htotal := runWindow_total shares burst k n (hcredit.trans hguar.symm)
  simp only [Window.covered, not_and_or, not_lt, Nat.le_zero] at hcov
  exact hcov.imp id fun hc => by omega

end Sys2Proof.Machine
end

section
/-! # READ, WRITE and atomics at their target (R309, R404, R408, R410)

Support: a packet without a stamp acts at once, as the host's access; its answer leaves memory and the cores. -/

namespace Sys2Proof.Machine

open Sys2Proof.Claims

/-! ## Answers (R408) -/

/-- What a packet leaves that is sent. -/
theorem sendPacket_wireOnly (s : State) (op : PacketOp) (pk : Packet) : WireOnly (s.send (.packet op pk)) (s.sendPacket op pk) :=
  onWire_wireOnly _ _ _ _

@[simp] theorem State.respond_mem (s : State) (op : PacketOp) (pk : Packet) (status : Code) (poison : Bool) (bs : List Byte) :
    (s.respond op pk status poison bs).mem = s.mem := (sendPacket_wireOnly s _ _).mem

@[simp] theorem State.respond_cores (s : State) (op : PacketOp) (pk : Packet) (status : Code) (poison : Bool) (bs : List Byte) :
    (s.respond op pk status poison bs).cores = s.cores := (sendPacket_wireOnly s _ _).cores

/-- The answer is among the messages sent. -/
theorem State.respond_replied (s : State) (op : PacketOp) (pk : Packet) (status : Code) (poison : Bool) (bs : List Byte) :
    Replied (s.respond op pk status poison bs) op pk status bs :=
  ⟨_, (sendPacket_wireOnly s op _).sent _ List.mem_cons_self, rfl, rfl, rfl, rfl, rfl, rfl⟩

/-- A refused access keeps its code and leaves memory and the cores. -/
theorem State.accessFails_leaves (s : State) (a : Nat) (e : Code) :
    (s.accessFails a e).mem = s.mem ∧ (s.accessFails a e).cores = s.cores := by
  unfold State.accessFails
  split <;> exact ⟨rfl, rfl⟩

theorem State.lastCode_leaves (s : State) (e : Code) : (s.lastCode e).mem = s.mem ∧ (s.lastCode e).cores = s.cores := by
  unfold State.lastCode
  split <;> exact ⟨rfl, rfl⟩

/-- A refused access keeps its code, answers it, and leaves memory and the cores. -/
theorem State.refusal_replied (s : State) (op : PacketOp) (pk : Packet) (a : Nat) (e : Code) :
    let t := ((s.accessFails a e).lastCode e).respond op pk e false []
    Replied t op pk e [] ∧ t.mem = s.mem ∧ t.cores = s.cores := by
  obtain ⟨hmem, hcores⟩ := State.accessFails_leaves s a e
  obtain ⟨hmem', hcores'⟩ := State.lastCode_leaves (s.accessFails a e) e
  refine ⟨State.respond_replied _ _ _ _ _ _, ?_, ?_⟩
  · rw [State.respond_mem, hmem', hmem]
  · rw [State.respond_cores, hcores', hcores]

/-! ## Accesses for packets without a stamp -/

section
variable {s : State} {pk : Packet}

/-- An access without a stamp is the host's (R325, R406). -/
theorem pkAcc_unstamped (h : pk.stamped = false) : pkAcc pk = hostAcc pk.part := by
  unfold pkAcc
  rw [h]
  rfl

theorem pkStamp_unstamped (h : pk.stamped = false) : pkStamp pk = none := by
  unfold pkStamp
  rw [h]
  rfl

/-- A packet that is handled now has its own effect at once. -/
theorem exec_local {i : Instr} {op : PacketOp} (hi : packetOf i = some (op, pk)) (h : Local s op pk) :
    exec i s = .next (after (fun t => t.effect op pk) s) := by
  obtain ⟨hgood, hmc, hdst, hst⟩ := h
  refine exec_after (exec_packet hi s) ((State.packetIn_here hgood hmc hdst).trans ?_)
  rw [State.countArrival_unstamped s _ hst, State.underStamp_unstamped hst]

/-- A write whose place the checks refuse answers their code. -/
theorem State.writeMem_refused {acc : Accessor} {stamp : Stamp} {a : Nat} {bs : List Byte} {e : Code} (hbs : bs ≠ [])
    (hp : s.place acc a bs.length true = .error e) : s.writeMem acc stamp a bs = (s.accessFails a e, .error e) := by
  unfold State.writeMem
  rw [if_neg (by simpa using hbs), hp]

/-- An atomic on a clean word of the core store, by what is no work of a tick, answers the old word and stores the new one. -/
theorem State.atomMem_host {n : Part} {a phys : Nat} (op : AtomOp) (nr : Bool) (val cmp : Word)
    (hp : s.place (hostAcc n) a 8 true = .ok ⟨.core, phys, 0, none⟩) (hc : Clean s phys 8) :
    s.atomMem (hostAcc n) none op nr a val cmp
      = (s.putBytes ⟨.core, phys, 0, none⟩ (wordBytes (atomNew op (wordAt s phys) val cmp)), .ok (wordAt s phys)) := by
  have hread := State.startRead_core rfl (State.place_core_read hp) hc rfl
  unfold State.atomMem
  rw [hp]
  simp only [hread, Option.isSome_none, Bool.false_eq_true, if_false]
  rw [State.countWrite_core rfl]
  rfl

theorem wordAt_congr {t u : State} (h : t.mem = u.mem) {a : Nat} : wordAt t a = wordAt u a := by
  unfold wordAt State.load
  rw [h]

/-- A word written at a place is read back there. -/
theorem State.wordAt_putBytes (p : Place) (w : Word) : wordAt (s.putBytes p (wordBytes w)) p.phys = w := by
  have h := State.putBytes_load s p (wordBytes w)
  rw [wordBytes_length] at h
  rw [wordAt, h, bytesWord_wordBytes]

/-- Bytes written at a place leave the rest of memory, and the cores. -/
theorem State.putBytes_sameBut (p : Place) (bs : List Byte) :
    sameBut s (s.putBytes p bs) p.phys bs.length ∧ (s.putBytes p bs).cores = s.cores :=
  ⟨fun _ hb => State.putBytes_read_ne s p bs hb, (State.putBytes_aside s p bs).cores⟩

end

/-! ## READ, WRITE and the atomics (R404, R408, R410) -/

section
variable {s : State} {pk : Packet} {phys : Nat}

/-- READ of a range that reads, and of one that the checks refuse. -/
theorem exec_read_local (h : Local s .read pk) (hlen : 0 < pk.len) :
    (s.place (hostAcc pk.part) (pkLocal pk) pk.len false = .ok ⟨.core, phys, 0, none⟩ → Clean s phys pk.len →
      ∃ t, exec (.read pk) s = .next t ∧ Replied t .readResp pk 0 (s.load phys pk.len) ∧ t.mem = s.mem ∧ t.cores = s.cores)
    ∧ ∀ e, s.place (hostAcc pk.part) (pkLocal pk) pk.len false = .error e →
      ∃ t, exec (.read pk) s = .next t ∧ Replied t .readResp pk e [] ∧ t.mem = s.mem ∧ t.cores = s.cores := by
  have hx := exec_local (i := .read pk) rfl h
  have hacc := pkAcc_unstamped h.2.2.2
  refine ⟨fun hp hc => ?_, fun e hp => ?_⟩
  · have hgo : s.effect .read pk = s.respond .readResp pk 0 false (s.load phys pk.len) := by
      simp only [State.effect, State.serveRead, hacc, State.readMem_core rfl hlen hp hc rfl]
    refine ⟨_, hx, ?_⟩
    rw [after, hgo]
    exact ⟨State.respond_replied _ _ _ _ _ _, State.respond_mem _ _ _ _ _ _, State.respond_cores _ _ _ _ _ _⟩
  · have hgo : s.effect .read pk = ((s.accessFails (pkLocal pk) e).lastCode e).respond .readResp pk e false [] := by
      simp only [State.effect, State.serveRead, hacc, State.readMem_refused hlen hp]
    refine ⟨_, hx, ?_⟩
    rw [after, hgo]
    exact State.refusal_replied s _ _ _ _

/-- A WRITE that no serving station and no repair takes is an access to memory. -/
theorem State.serveWrite_local (h : Local s .write pk) (hpoison : pk.poison = false) :
    s.serveWrite pk = match s.writeMem (hostAcc pk.part) none (pkLocal pk) pk.payload with
      | (t, .ok ()) => t.respond .writeAck pk 0 false []
      | (t, .error e) => (t.lastCode e).respond .writeAck pk e false [] := by
  obtain ⟨-, hmc, -, hst⟩ := h
  have hserving : s.forServing pk = false := by
    unfold State.forServing
    simp only [hst, Bool.false_and, dite_eq_ite, ite_self]
  simp only [State.serveWrite, hserving, hmc, Bool.false_and, Bool.false_eq_true, if_false, pkAcc_unstamped hst,
    pkStamp_unstamped hst, hpoison]
  rcases s.writeMem (hostAcc pk.part) none (pkLocal pk) pk.payload with ⟨t, e | _⟩ <;> rfl

/-- WRITE of a range that can be written, and of one that the checks refuse. -/
theorem exec_write_local (h : Local s .write pk) (hbs : pk.payload ≠ []) (hpoison : pk.poison = false) :
    (s.place (hostAcc pk.part) (pkLocal pk) pk.payload.length true = .ok ⟨.core, phys, 0, none⟩ → Clean s phys pk.payload.length →
      ∃ t, exec (.write pk) s = .next t ∧ Replied t .writeAck pk 0 [] ∧ t.load phys pk.payload.length = pk.payload
        ∧ sameBut s t phys pk.payload.length ∧ t.cores = s.cores)
    ∧ ∀ e, s.place (hostAcc pk.part) (pkLocal pk) pk.payload.length true = .error e →
      ∃ t, exec (.write pk) s = .next t ∧ Replied t .writeAck pk e [] ∧ t.mem = s.mem ∧ t.cores = s.cores := by
  have hx := exec_local (i := .write pk) rfl h
  have heffect := State.serveWrite_local h hpoison
  refine ⟨fun hp hc => ?_, fun e hp => ?_⟩
  · rw [State.writeMem_host hbs hp rfl hc] at heffect
    obtain ⟨hsame, hcores⟩ := State.putBytes_sameBut (s := s) ⟨.core, phys, 0, none⟩ pk.payload
    refine ⟨_, hx, ?_⟩
    rw [after, State.effect, heffect]
    refine ⟨State.respond_replied _ _ _ _ _ _, ?_, fun b hb => ?_, ?_⟩
    · exact (congrArg (·.readBytes phys pk.payload.length) (State.respond_mem _ _ _ _ _ _)).trans
        (State.putBytes_load s ⟨.core, phys, 0, none⟩ pk.payload)
    · exact (congrArg (·.read b) (State.respond_mem _ _ _ _ _ _)).trans (hsame b hb)
    · exact (State.respond_cores _ _ _ _ _ _).trans hcores
  · rw [State.writeMem_refused hbs hp] at heffect
    refine ⟨_, hx, ?_⟩
    rw [after, State.effect, heffect]
    exact State.refusal_replied s _ _ _ _

/-- An atomic on a word of the core store. -/
theorem exec_atom_local {i : Instr} {op : PacketOp} (k : AtomOp) (hi : packetOf i = some (op, pk))
    (heffect : s.effect op pk = s.serveAtom k pk) (h : Local s op pk)
    (hp : s.place (hostAcc pk.part) (pkLocal pk) 8 true = .ok ⟨.core, phys, 0, none⟩) (hc : Clean s phys 8) :
    ∃ t, exec i s = .next t ∧ Replied t .atomResp pk 0 (if pk.nr then [] else wordBytes (wordAt s phys))
      ∧ wordAt t phys = atomNew k (wordAt s phys) (bytesWord (pk.payload.take 8)) (bytesWord ((pk.payload.drop 8).take 8))
      ∧ sameBut s t phys 8 ∧ t.cores = s.cores := by
  have hx := exec_local hi h
  have hst := h.2.2.2
  generalize hnew : atomNew k (wordAt s phys) (bytesWord (pk.payload.take 8)) (bytesWord ((pk.payload.drop 8).take 8)) = new
  have hgo : s.effect op pk = (s.putBytes ⟨.core, phys, 0, none⟩ (wordBytes new)).respond .atomResp pk 0 false
      (if pk.nr then [] else wordBytes (wordAt s phys)) := by
    rw [heffect]
    simp only [State.serveAtom, pkAcc_unstamped hst, pkStamp_unstamped hst, Nat.mul_zero, List.drop_zero, Nat.mul_one,
      State.atomMem_host k pk.nr _ _ hp hc, hnew]
  obtain ⟨hsame, hcores⟩ := State.putBytes_sameBut (s := s) ⟨.core, phys, 0, none⟩ (wordBytes new)
  rw [wordBytes_length] at hsame
  refine ⟨_, hx, ?_⟩
  rw [after, hgo]
  refine ⟨State.respond_replied _ _ _ _ _ _, ?_, fun b hb => ?_, ?_⟩
  · exact (wordAt_congr (State.respond_mem _ _ _ _ _ _)).trans (State.wordAt_putBytes ⟨.core, phys, 0, none⟩ new)
  · exact (congrArg (·.read b) (State.respond_mem _ _ _ _ _ _)).trans (hsame b hb)
  · exact (State.respond_cores _ _ _ _ _ _).trans hcores

end

/-- Settles O36: a packet without a stamp is an access of the host's, and its answer leaves memory. -/
theorem remoteAccesses : Obligations.RemoteAccesses := by
  refine fun s pk phys => ⟨fun h hlen => exec_read_local h hlen, fun h hbs hpoison => exec_write_local h hbs hpoison,
    fun i op new hop h hp hc => ?_⟩
  dsimp only at hop
  rcases hop with ⟨hi, hop, hnew⟩ | ⟨hi, hop, hnew⟩ | ⟨hi, hop, hnew⟩ | ⟨hi, hop, hnew⟩ | ⟨hi, hop, hnew⟩ <;> subst hi hop <;> rw [hnew]
  · exact exec_atom_local .add rfl rfl h hp hc
  · simpa only [atomNew, BitVec.slt_iff_toInt_lt] using exec_atom_local .max rfl rfl h hp hc
  · exact exec_atom_local .cas rfl rfl h hp hc
  · exact exec_atom_local .swap rfl rfl h hp hc
  · exact exec_atom_local .ladd rfl rfl h hp hc

end Sys2Proof.Machine
end

section
/-! # Changes of ECC and of the interleaved zone, scrubs, retired frames (R313 to R318, R335, R349)

Support: what an invalidation leaves of a directory, and what an error of a memory unit counts and starts. -/

namespace Sys2Proof.Machine

open Sys2Proof.Claims

/-! ## MEM.CTRL (R313) -/

theorem dieClose_le (ecc : Bool) : dieClose ecc ≤ dieClose false := by cases ecc <;> decide

/-- What close memory holds fits a register. -/
theorem State.closeTop_lt (s : State) : s.closeTop < 2 ^ 64 := by
  have h : s.dieBytes ≤ dieClose false := dieClose_le _
  have htop : dieClose false = 0x1800000000 := rfl
  unfold State.closeTop
  omega

/-- The size of close memory turns on MEM.CTRL alone. -/
theorem State.closeTop_congr {s t : State} (h : t.reg .memCtrl = s.reg .memCtrl) : t.closeTop = s.closeTop := by
  unfold State.closeTop State.dieBytes
  rw [h]

/-- A fill that starts makes no item VALID. -/
theorem mem_pnStart_valid {l : List PnItem} {i : PnItem} (h : i ∈ pnStart l) (hv : i.state = .valid) : i ∈ l := by
  unfold pnStart at h
  split at h
  · exact h
  · split at h
    · exact h
    · next j hj =>
      obtain ⟨k, hk, rfl⟩ := List.mem_map.1 h
      split at hv
      · cases hv
      · next hne => rwa [if_neg hne]

/-- Invalidation on a die leaves none of its items VALID that the range touches. -/
theorem State.pnInvalidateDie_valid (s : State) (a len : Nat) (d : Fin 8) {i : PnItem} (h : i ∈ (s.pnInvalidateDie a len d).pnDir d)
    (hv : i.state = .valid) : i ∈ s.pnDir d ∧ overlaps a len i.src i.bytes = false := by
  unfold State.pnInvalidateDie at h
  dsimp only at h
  split at h
  · next hnone =>
    have := List.filter_eq_nil_iff.1 (List.length_eq_zero_iff.1 hnone) i h
    exact ⟨h, by simpa [hv] using this⟩
  · have h' := mem_pnStart_valid (show i ∈ pnStart _ by
      simpa only [State.pnDir, State.bump_pn, State.setPn, Assoc.getD_put_self] using h) hv
    obtain ⟨k, hk, hki⟩ := List.mem_map.1 h'
    split at hki
    · rw [← hki] at hv
      cases hv
    · next hnot =>
      subst hki
      exact ⟨hk, by simpa [hv] using hnot⟩

theorem State.pnInvalidateDie_other (s : State) (a len : Nat) {d e : Fin 8} (h : e ≠ d) :
    (s.pnInvalidateDie a len e).pnDir d = s.pnDir d := by
  unfold State.pnInvalidateDie
  dsimp only
  split
  · rfl
  · simp only [State.pnDir, State.bump_pn, State.setPn, Assoc.getD_put_ne h]

/-- Invalidation leaves no item VALID that the range touches (R335). -/
theorem State.pnInvalidate_valid (s : State) (a len : Nat) (d : Fin 8) {i : PnItem} (h : i ∈ (s.pnInvalidate a len).pnDir d)
    (hv : i.state = .valid) : overlaps a len i.src i.bytes = false := by
  have hfold (l : List (Fin 8)) (t : State) (hd : d ∈ l ∨ ∀ i ∈ t.pnDir d, i.state = .valid → overlaps a len i.src i.bytes = false) :
      ∀ i ∈ (l.foldl (State.pnInvalidateDie a len) t).pnDir d, i.state = .valid → overlaps a len i.src i.bytes = false := by
    induction l generalizing t with
    | nil => exact hd.resolve_left (by simp)
    | cons e l ih =>
      apply ih
      by_cases he : e = d
      · subst he
        exact .inr fun i hi hv => (State.pnInvalidateDie_valid t a len _ hi hv).2
      · rw [State.pnInvalidateDie_other t a len he]
        exact hd.imp_left fun h => (List.mem_cons.1 h).resolve_left (Ne.symm he)
  unfold State.pnInvalidate at h
  split at h
  · next hempty =>
    rw [State.pnDir, List.isEmpty_iff.1 hempty] at h
    simp [Assoc.getD] at h
  · exact hfold _ s (.inl (List.mem_finRange d)) i h hv

/-- Invalidation changes directories and their count alone. -/
theorem State.pnInvalidate_frame (s : State) (a len : Nat) :
    s.pnInvalidate a len = { s with regs := (s.pnInvalidate a len).regs, pn := (s.pnInvalidate a len).pn }
    ∧ ∀ k : RegKey, k.reg ≠ .pnInvalidations → (s.pnInvalidate a len).raw k = s.raw k := by
  refine ⟨?_, fun k hk => ?_⟩
  · exact congrArg (fun t => { t with regs := (s.pnInvalidate a len).regs, pn := (s.pnInvalidate a len).pn })
      (State.pnInvalidate_keeps (fun t => ({ t with regs := [], pn := [] } : State)) (fun _ _ _ _ => rfl) s a len)
  · exact State.pnInvalidate_keeps (fun t => t.raw k)
      (fun t d l n => State.raw_setRaw_ne _ (fun e => hk (by rw [← e, rk_reg])) _) s a len

/-- What a change of MEM.CTRL.ECC leaves in the registers. -/
def State.eccRegs (s : State) (v : Word) : State :=
  let t := s.setReg .memCtrl 0 0 (v &&& 1)
  (t.setReg .memIlvSize 0 0 (BitVec.ofNat 64 t.closeTop)).setReg .memStatus 0 0 2

theorem State.eccRegs_reg (s : State) (v : Word) :
    (s.eccRegs v).reg .memCtrl = v &&& 1 ∧ (s.eccRegs v).regN .memIlvSize = (s.eccRegs v).closeTop
    ∧ (s.eccRegs v).reg .memStatus = 2
    ∧ ∀ k, k ≠ rk .memCtrl → k ≠ rk .memIlvSize → k ≠ rk .memStatus → (s.eccRegs v).raw k = s.raw k := by
  have hctrl : (s.eccRegs v).reg .memCtrl = v &&& 1 := by
    unfold State.eccRegs
    rw [State.reg_setReg_ne _ (by decide), State.reg_setReg_ne _ (by decide), State.reg_setReg_self]
  refine ⟨hctrl, ?_, State.reg_setReg_self _ _ _ _ _, fun k h1 h2 h3 => ?_⟩
  · have htop : (s.eccRegs v).closeTop = (s.setReg .memCtrl 0 0 (v &&& 1)).closeTop :=
      State.closeTop_congr (hctrl.trans (State.reg_setReg_self _ _ _ _ _).symm)
    rw [htop]
    unfold State.eccRegs State.regN
    rw [State.reg_setReg_ne _ (by decide), State.reg_setReg_self, BitVec.toNat_ofNat, Nat.mod_eq_of_lt (State.closeTop_lt _)]
  · exact (State.raw_setRaw_ne _ h3.symm _).trans ((State.raw_setRaw_ne _ h2.symm _).trans (State.raw_setRaw_ne _ h1.symm _))

/-- A change of MEM.CTRL.ECC. -/
theorem State.writeMemCtrl_changes {s : State} {v : Word} (hdis : s.allDisabled = true)
    (hne : (s.reg .memCtrl).getLsbD 0 ≠ v.getLsbD 0) :
    let u := (s.eccRegs v).pnInvalidate 0 (4 * dieClose false)
    s.writeMemCtrl v = { u with mem := s.mem.blur 0 (4 * dieClose false) .zero, ms := { s.ms with poisoned := [], tcSlots := [] } } := by
  intro u
  have hu := (State.pnInvalidate_frame (s.eccRegs v) 0 (4 * dieClose false)).1
  have hmem : u.mem = s.mem := by show ((s.eccRegs v).pnInvalidate _ _).mem = _; rw [hu]; rfl
  have hms : u.ms = s.ms := by show ((s.eccRegs v).pnInvalidate _ _).ms = _; rw [hu]; rfl
  rw [← hmem, ← hms]
  exact (if_neg (by simp [hdis])).trans (if_neg hne)

/-- MEM.STATUS leaves CLEARING (R313). -/
theorem exec_memClearDone (s : State) :
    (s.regN .memStatus = 2 → exec .memClearDone s = .next (s.setReg .memStatus 0 0 1))
    ∧ (s.regN .memStatus ≠ 2 → exec .memClearDone s = .next s) :=
  ⟨fun h => exec_next (f := fun t => t.when (decide (t.regN .memStatus = 2)) (fun t => t.setReg .memStatus 0 0 1)) rfl
      (if_pos (by simp [h])) rfl,
    fun h => exec_next (f := fun t => t.when (decide (t.regN .memStatus = 2)) (fun t => t.setReg .memStatus 0 0 1)) rfl
      (if_neg (by simp [h])) rfl⟩

/-- A change of ECC: what the registers, close memory, the directories and the marks then hold (R313, R335). -/
theorem eccChangeClearsCloseMemory : EccChangeClearsCloseMemory := by
  intro s v
  have hx : exec (.memCtrlWrite v) s = lift (fun t => t.writeMemCtrl v) s := rfl
  refine ⟨fun hdis hne => ?_, fun hdis heq => exec_next hx ((if_neg (by simp [hdis])).trans (if_pos heq)) rfl,
    fun hen => exec_next hx (if_pos (by simp [hen])) rfl, exec_memClearDone s⟩
  have hgo := State.writeMemCtrl_changes hdis hne
  obtain ⟨hctrl, hilv, hstatus, hraw⟩ := s.eccRegs_reg v
  obtain ⟨hframe, hinv⟩ := State.pnInvalidate_frame (s.eccRegs v) 0 (4 * dieClose false)
  have hvalid := State.pnInvalidate_valid (s.eccRegs v) 0 (4 * dieClose false)
  dsimp only at hgo
  generalize (s.eccRegs v).pnInvalidate 0 (4 * dieClose false) = u at hgo hframe hinv hvalid
  have hreg (r : Reg) (hr : r ≠ .pnInvalidations) : u.reg r = (s.eccRegs v).reg r := hinv _ (by rwa [rk_reg])
  have hstatus' : u.regN .memStatus = 2 := congrArg BitVec.toNat ((hreg _ (by decide)).trans hstatus)
  refine ⟨_, exec_next hx hgo (by rw [hframe]; rfl), (hreg _ (by decide)).trans hctrl, ?_, hstatus',
    fun a ha => Memory.read_blur_zero _ _ _ _ (Nat.zero_le a) ha, fun a ha => Memory.read_blur_out _ _ _ _ _ (.inr ha), rfl,
    fun d i hi hv => ?_, fun k h1 h2 h3 h4 => (hinv k h4).trans (hraw k h1 h2 h3), ?_,
    _, (exec_memClearDone _).1 hstatus', rfl, ?_⟩
  · exact (congrArg BitVec.toNat (hreg .memIlvSize (by decide))).trans
      (hilv.trans (State.closeTop_congr (s := u) (hreg .memCtrl (by decide)).symm))
  · have := hvalid d hi hv
    simp only [overlaps, Bool.and_eq_false_iff, decide_eq_false_iff_not] at this
    have htop : 0 < 4 * dieClose false := by decide
    omega
  · rw [hframe]
    rfl
  · exact congrArg BitVec.toNat (State.reg_setReg_self _ _ _ _ _)

/-! ## MEM.ILV_SIZE (R313) -/

/-- A change of the interleaved zone leaves all but close memory (R313). -/
theorem interleaveChange : InterleaveChange := by
  intro s v ok
  have hx : exec (.memIlvSizeWrite v) s = lift (fun t => t.writeIlvSize v) s := rfl
  have hok (h : ok) : ¬(!s.allDisabled || decide (v.toNat % 2 ^ 32 ≠ 0) || decide (s.closeTop < v.toNat)) = true := by
    obtain ⟨hdis, hmod, hle⟩ := h
    simpa [hdis, hle] using hmod
  refine ⟨fun h hne => ?_, fun h heq => exec_next hx ((if_neg (hok h)).trans (if_pos heq)) rfl, fun h => exec_next hx (if_pos ?_) rfl⟩
  · have htop : (s.setReg .memIlvSize 0 0 v).closeTop = s.closeTop :=
      State.closeTop_congr (State.reg_setReg_ne _ (by decide) _ _ _ _ _)
    refine ⟨_, exec_next hx ((if_neg (hok h)).trans (if_neg hne)) rfl, State.reg_setReg_self _ _ _ _ _, fun a ha => ?_,
      fun k hk => State.raw_setRaw_ne _ hk.symm _, rfl⟩
    exact Memory.read_blur_out _ _ _ _ _ (.inr (htop ▸ ha))
  · by_contra hnot
    simp only [Bool.or_eq_true, Bool.not_eq_true', decide_eq_true_eq, not_or, Bool.not_eq_false, not_not, not_lt] at hnot
    exact h ⟨hnot.1.1, hnot.1.2, hnot.2⟩

/-! ## Scrubs (R314 to R318, R349) -/

/-- What a frame that qualifies for retirement leaves: a copy that starts, or what an event leaves. -/
theorem State.retireFrame_leaves (s : State) (a : Nat) :
    (s.retireFrame a).mem = s.mem ∧ (s.retireFrame a).pending = s.pending
    ∧ ∀ r, r ∉ Reg.ofEvents → r ≠ .memCode → (s.retireFrame a).reg r = s.reg r := by
  have hevent (f : FrameId) : (s.frameEvent 0x0606 f).mem = s.mem ∧ (s.frameEvent 0x0606 f).pending = s.pending
      ∧ ∀ r, r ∉ Reg.ofEvents → r ≠ .memCode → (s.frameEvent 0x0606 f).reg r = s.reg r := by
    have h := mgmtReport_eventOnly s .memCode 0x0606 (natBytes 8 (s.closeAddr f.1.val (f.2 * 4096)))
    exact ⟨h.mem, h.pending, fun r hr hcode => (h.reg hr _ _).trans (State.reg_setReg_ne _ hcode.symm _ _ _ _ _)⟩
  unfold State.retireFrame
  dsimp only
  split
  · exact ⟨rfl, rfl, fun _ _ _ => rfl⟩
  · split
    · split
      · exact ⟨rfl, rfl, fun _ _ _ => rfl⟩
      · exact hevent _
    · exact hevent _

theorem errLog_corrected (a : Nat) : errLog false a = BitVec.ofNat 64 (a % 2 ^ 50) :=
  congrArg (BitVec.ofNat 64) (Nat.add_zero _)

/-- A corrected error counts. -/
theorem State.corrected_leaves (s : State) (a : Nat) :
    (s.corrected a).mem = s.mem ∧ (s.corrected a).pending = s.pending
    ∧ (s.corrected a).reg .memCeCount = s.reg .memCeCount + 1 := by
  have hcount : ((s.bump .memCeCount 0 0 1).setReg .memErrLog 0 0 (errLog false a)).reg .memCeCount = s.reg .memCeCount + 1 :=
    (State.reg_setReg_ne _ (by decide) _ _ _ _ _).trans (State.reg_bump_self _ _ _ _ _)
  unfold State.corrected
  dsimp only
  split
  · obtain ⟨hmem, hpending, hreg⟩ := State.retireFrame_leaves { (s.bump .memCeCount 0 0 1).setReg .memErrLog 0 0 (errLog false a) with
      ms := { s.ms with ceCount := Assoc.put (s.frameOf a) (Assoc.getD (s.frameOf a) 0 s.ms.ceCount + 1) s.ms.ceCount } } a
    exact ⟨hmem, hpending, (hreg .memCeCount (by decide) (by decide)).trans hcount⟩
  · exact ⟨rfl, rfl, hcount⟩

/-- The state in which an uncorrectable error's frame is retired: counted, logged, poisoned (R315). -/
def State.ueFound (s : State) (u : Nat) (log : Word) : State :=
  { (s.bump .memUeCount 0 0 1).setReg .memErrLog 0 0 log with
    ms := { s.ms with poisoned := if s.ms.poisoned.contains u then s.ms.poisoned else s.ms.poisoned ++ [u] } }

theorem State.uncorrectable_eq (s : State) (a : Nat) :
    s.uncorrectable a = (s.ueFound (a / 64) (errLog true a)).retireFrame a := rfl

theorem State.ueFound_reg (s : State) (u : Nat) (log : Word) :
    (s.ueFound u log).reg .memUeCount = s.reg .memUeCount + 1 ∧ (s.ueFound u log).reg .memErrLog = log
    ∧ ∀ r, r ≠ .memUeCount → r ≠ .memErrLog → (s.ueFound u log).reg r = s.reg r :=
  ⟨(State.reg_setReg_ne _ (by decide) _ _ _ _ _).trans (State.reg_bump_self _ _ _ _ _), State.reg_setReg_self _ _ _ _ _,
    fun _ h1 h2 => (State.reg_setReg_ne _ h2.symm _ _ _ _ _).trans (State.reg_bump_ne _ h1.symm _ _ _ _ _)⟩

theorem errLog_uncorrectable (a : Nat) : errLog true a = BitVec.ofNat 64 (2 ^ 63 + a % 2 ^ 50) :=
  congrArg (BitVec.ofNat 64) (Nat.add_comm _ _)

/-- An uncorrectable error counts. -/
theorem State.uncorrectable_leaves (s : State) (a : Nat) :
    (s.uncorrectable a).mem = s.mem ∧ (s.uncorrectable a).pending = s.pending
    ∧ (s.uncorrectable a).reg .memUeCount = s.reg .memUeCount + 1 := by
  obtain ⟨hmem, hpending, hreg⟩ := State.retireFrame_leaves (s.ueFound (a / 64) (errLog true a)) a
  exact ⟨hmem, hpending, (hreg .memUeCount (by decide) (by decide)).trans (s.ueFound_reg _ _).1⟩

/-- The frame of an address turns on MEM.ILV_SIZE and MEM.CTRL alone. -/
theorem State.mdOf_congr {s t : State} (hilv : t.reg .memIlvSize = s.reg .memIlvSize) (hctrl : t.reg .memCtrl = s.reg .memCtrl)
    (a : Nat) : t.mdOf a = s.mdOf a := by
  unfold State.mdOf State.dieBytes State.regN
  rw [hilv, hctrl]

/-- An uncorrectable error with a spare free and nothing else retired starts the copy of its frame (R317). -/
theorem State.uncorrectable_copies {s : State} {a k : Nat} (hk : s.freeSpare (s.frameOf a).1 = some k) (hret : s.ms.retired = [])
    (hcop : s.ms.copying = []) : s.uncorrectable a =
      let t := s.ueFound (a / 64) (errLog true a)
      { t with ms := { t.ms with copying := [(s.frameOf a, k, (s.mdOf a).2)] } } := by
  rw [State.uncorrectable_eq]
  generalize errLog true a = log
  obtain ⟨-, -, hreg⟩ := s.ueFound_reg (a / 64) log
  have hmd : (s.ueFound (a / 64) log).mdOf a = s.mdOf a := State.mdOf_congr (hreg _ (by decide) (by decide)) (hreg _ (by decide) (by decide)) a
  have hframe : (s.ueFound (a / 64) log).frameOf a = s.frameOf a := by
    unfold State.frameOf
    rw [hmd]
  have hret' : (s.ueFound (a / 64) log).ms.retired = [] := hret
  have hcop' : (s.ueFound (a / 64) log).ms.copying = [] := hcop
  have hspare : (s.ueFound (a / 64) log).freeSpare (s.frameOf a).1 = some k := by
    rw [← hk]
    unfold State.freeSpare State.regN
    rw [hreg .memSpareBase (by decide) (by decide), hreg .memSpareFrames (by decide) (by decide), hret', hcop', hret, hcop]
  unfold State.retireFrame
  simp only [hframe, hmd, hret', hcop', hspare, List.append_nil, List.nil_append, List.any_nil, List.filter_nil, List.length_nil,
    Bool.false_eq_true, if_false, show 0 < 1024 by decide, if_true]

theorem State.reg_withMs (t : State) (m : MemSys) (r : Reg) : State.reg { t with ms := m } r = t.reg r := rfl

/-- What such an error leaves, where no unit was poisoned: its unit is, and its log is kept. -/
theorem State.uncorrectable_first {s : State} {a k : Nat} (hk : s.freeSpare (s.frameOf a).1 = some k) (hret : s.ms.retired = [])
    (hcop : s.ms.copying = []) (hpois : s.ms.poisoned = []) :
    (s.uncorrectable a).reg .memErrLog = BitVec.ofNat 64 (2 ^ 63 + a % 2 ^ 50)
    ∧ s.uncorrectable a = { s with
        regs := (s.uncorrectable a).regs
        ms := { s.ms with poisoned := [a / 64], copying := [(s.frameOf a, k, (s.mdOf a).2)] } } := by
  rw [State.uncorrectable_copies hk hret hcop, ← errLog_uncorrectable]
  generalize errLog true a = log
  refine ⟨(State.reg_withMs _ _ _).trans (s.ueFound_reg (a / 64) log).2.1, ?_⟩
  simp only [State.ueFound, hpois, List.contains_nil, Bool.false_eq_true, if_false, List.nil_append]
  rfl

/-- What a scrub of a unit above address 0 does, with ECC on (R316). -/
def State.scrubbed (s : State) (a : Nat) : Nat → State
  | 0 => s
  | 1 => s.corrected a
  | 2 => s.uncorrectable a
  | _ =>
    let r := s.fresh
    if r.1.getLsbD 0 then r.2.uncorrectable a
    else State.corrected { r.2 with mem := r.2.mem.blur a (a + 64) (.loose r.2.freeCtr), freeCtr := r.2.freeCtr + 1 } a

/-- A scrub of a unit above address 0: nothing outside close memory or with ECC off. -/
theorem exec_memScrub {s : State} {u : BitVec 50} (ha : u.toNat / 64 * 64 ≠ 0) (bad : Nat) {t : State}
    (ht : (if s.closeTop ≤ u.toNat / 64 * 64 ∨ (s.reg .memCtrl).getLsbD 0 = false then s
      else s.scrubbed (u.toNat / 64 * 64) bad) = t) (hp : t.pending = s.pending) : exec (.memScrub u bad) s = .next t := by
  refine exec_next (show execMemScrub u bad s = lift _ s from rfl) (Eq.trans ?_ ht) hp
  dsimp only
  rw [if_neg ha]
  simp only [Bool.not_eq_true']
  split
  · rfl
  · match bad with
    | 0 | 1 | 2 => rfl
    | _ + 3 => rfl

/-- A scrub, by the symbols in error (R314 to R317). -/
theorem memoryScrub : MemoryScrub := by
  intro s u a
  refine ⟨fun ha => ?_, fun ha => ⟨fun bad h => exec_memScrub ha bad (if_pos h) rfl, fun hlt hecc => ?_⟩⟩
  · refine exec_next (show execMemScrub u 0 s = lift _ s from rfl) ?_ rfl
    dsimp only
    rw [if_pos ha]
    split <;> rfl
  have hgo (bad : Nat) (hp : (s.scrubbed a bad).pending = s.pending) : exec (.memScrub u bad) s = .next (s.scrubbed a bad) :=
    exec_memScrub ha bad (if_neg (by simp [hecc]; exact hlt)) hp
  refine ⟨hgo 0 rfl, fun hthresh => ?_, fun k hk hret hcop hpois => ?_, fun bad hbad => ?_⟩
  · have hbelow : s.scrubbed a 1 = { (s.bump .memCeCount 0 0 1).setReg .memErrLog 0 0 (errLog false a) with
        ms := { s.ms with ceCount := Assoc.put (s.frameOf a) (Assoc.getD (s.frameOf a) 0 s.ms.ceCount + 1) s.ms.ceCount } } := by
      refine if_neg ?_
      have : ((s.bump .memCeCount 0 0 1).setReg .memErrLog 0 0 (errLog false a)).regN .memCeThresh = s.regN .memCeThresh :=
        congrArg BitVec.toNat ((State.reg_setReg_ne _ (by decide) _ _ _ _ _).trans (State.reg_bump_ne _ (by decide) _ _ _ _ _))
      exact Nat.not_le.2 (lt_of_lt_of_eq hthresh this.symm)
    refine ⟨_, hgo 1 (State.corrected_leaves s a).2.1, (State.corrected_leaves s a).2.2, ?_⟩
    rw [hbelow]
    exact ⟨(State.reg_setReg_self (s.bump .memCeCount 0 0 1) _ _ _ _).trans (errLog_corrected a), Assoc.find_put_self _ _ _, rfl⟩
  · exact ⟨_, hgo 2 (State.uncorrectable_leaves s a).2.1, (State.uncorrectable_leaves s a).2.2,
      State.uncorrectable_first hk hret hcop hpois⟩
  · obtain ⟨m, rfl⟩ := Nat.exists_eq_add_of_le' hbad
    by_cases hfree : s.fresh.1.getLsbD 0 = true
    · have hs : s.scrubbed a (m + 3) = s.fresh.2.uncorrectable a := if_pos hfree
      obtain ⟨hmem, hpending, hcount⟩ := State.uncorrectable_leaves s.fresh.2 a
      refine ⟨_, hgo (m + 3) (by rw [hs]; exact hpending), ?_⟩
      rw [hs, hmem]
      exact ⟨.inl hcount, fun _ _ => rfl⟩
    · have hs : s.scrubbed a (m + 3) = State.corrected { s.fresh.2 with mem := s.fresh.2.mem.blur a (a + 64) (.loose s.fresh.2.freeCtr)
                                                                        freeCtr := s.fresh.2.freeCtr + 1 } a := if_neg hfree
      obtain ⟨hmem, hpending, hcount⟩ := State.corrected_leaves { s.fresh.2 with
        mem := s.fresh.2.mem.blur a (a + 64) (.loose s.fresh.2.freeCtr), freeCtr := s.fresh.2.freeCtr + 1 } a
      refine ⟨_, hgo (m + 3) (by rw [hs]; exact hpending), ?_⟩
      rw [hs, hmem]
      exact ⟨.inr hcount, fun b hb => Memory.read_blur_out _ _ _ _ _ hb⟩

/-! ## Retired frames (R317) -/

/-- The end of a copy: the frame moves to the retired ones, and is reported (R317). -/
theorem frameRetirement : FrameRetirement := by
  intro s md frame k hk
  let u := { s with ms := { s.ms with copying := Assoc.del (md, frame) s.ms.copying, retired := s.ms.retired ++ [((md, frame), k)] } }
  let v := (u.bump .memRetired 0 0 1).writeRepair
  have hgo := show execFrameRetireCopyDone md frame s = lift _ s from rfl
  have h := mgmtReport_eventOnly v .memCode 0x0605 (natBytes 8 (v.closeAddr md.val (frame * 4096)))
  refine ⟨v.frameEvent 0x0605 (md, frame), exec_next hgo (by dsimp only; rw [hk]) h.pending, ?_, ?_, ?_, ?_, ?_, h.mem, h.cores, h.doms⟩
  · exact congrArg MemSys.retired h.ms
  · exact congrArg MemSys.copying h.ms
  · exact (h.reg (by decide) _ _).trans ((State.reg_setReg_ne _ (by decide) _ _ _ _ _).trans (State.reg_setReg_self _ _ _ _ _))
  · exact (h.reg (by decide) _ _).trans (State.reg_setReg_self _ _ _ _ _)
  · exact congrArg Trust.repairs h.trust

/-- Settles O25: changes of ECC and of the interleaved zone, scrubs, and the end of a frame's copy. -/
theorem memoryGeometryAndRepair : Obligations.MemoryGeometryAndRepair :=
  ⟨eccChangeClearsCloseMemory, interleaveChange, memoryScrub, frameRetirement⟩

end Sys2Proof.Machine
end

section
/-! # Page copies, the tier cache, Pannier fills and CXL ports (R320 to R322, R333, R339, R340, R343 to R345, R350 to R352)

Support: what a read counts, what a fault with a code of memory leaves, and that results delivered wake no core. -/

namespace Sys2Proof.Machine

open Sys2Proof.Claims

/-! ## Page copies (R343, R344) -/

/-- A core that waits stands in the table of cores. -/
theorem State.mem_cores_of_waits {s : State} {c : CoreId} (h : (s.core c).wait.isSome = true) : (c, s.core c) ∈ s.cores := by
  unfold State.core Assoc.getD at h ⊢
  cases hc : Assoc.find c s.cores with
  | none => rw [hc] at h; exact absurd h (by decide)
  | some x => exact Assoc.mem_of_find hc

/-- A result delivered makes no core of a partition wait. -/
theorem State.waiters_deliver {s : State} {n : Part} (hw : s.waiters n = []) (c : CoreId) (tag : Nat) (bs : List Byte) :
    (s.deliver c tag bs).waiters n = [] := by
  have hnone := List.map_eq_nil_iff.1 hw
  refine ((Aside.refl s).waiters_setCore n c _).trans ?_
  rw [filter_put _ hnone, if_neg]
  · rfl
  · dsimp only
    rw [Core.deliver_frame]
    intro hwaits
    have hmem := State.mem_cores_of_waits (Bool.and_eq_true_iff.1 hwaits).1
    exact List.filter_eq_nil_iff.1 hnone _ hmem hwaits

/-- Results delivered change the cores, and make none of a partition wait. -/
theorem State.foldl_deliver {n : Part} (l : List (CoreId × Nat × List Nat × Word)) {s : State} (hw : s.waiters n = []) :
    let t := l.foldl (fun t w => t.deliver w.1 w.2.1 (wordBytes w.2.2.2)) s
    t = { s with cores := t.cores } ∧ t.waiters n = [] := by
  induction l generalizing s with
  | nil => exact ⟨rfl, hw⟩
  | cons w l ih => exact ih (State.waiters_deliver hw w.1 w.2.1 (wordBytes w.2.2.2))

/-- A pool once the copy of an entry's pages has ended. -/
def KvPool.copied (p : KvPool) (e : Nat) (waiting : List (CoreId × Nat × List Nat × Word)) : KvPool :=
  { p with
    demoting := p.demoting.filter (fun x => decide (x.1 ≠ e))
    promote := p.promote.map (fun x => if x.1 = e then (x.1, x.2.1, x.2.2.1, true) else x)
    waiting := waiting }

/-- The end of a copy changes the pool and the cores that get their results, and makes no core of a partition wait. -/
theorem State.pageCopyDone_leaves {s : State} {n : Part} (hw : s.waiters n = []) (die : Fin 8) (e : Nat) :
    let t := s.pageCopyDone die n e
    (∃ l, t = { s.setPool die n ((s.pool die n).copied e l) with cores := t.cores }) ∧ t.waiters n = [] := by
  have h (p : KvPool) (l : List _) := State.foldl_deliver (n := n) (s := s.setPool die n p) l hw
  exact ⟨⟨_, (h _ _).1⟩, (h _ _).2⟩

theorem State.pool_setPool (s : State) (d : Fin 8) (n : Part) (x : KvPool) (q : Fin 8 × Part) :
    (s.setPool d n x).pool q.1 q.2 = if (d, n) = q then x else s.pool q.1 q.2 := by
  unfold State.pool State.setPool Assoc.getD
  rw [Assoc.find_put]
  split <;> rfl

/-- The end of a copy: no domain's apply waits for it, and no core but those that get their results changes (R343, R344). -/
theorem pageCopies : PageCopies := by
  intro die n e s hw hsyncs happly
  obtain ⟨⟨l, hframe⟩, hwaits⟩ := State.pageCopyDone_leaves hw die e
  dsimp only at hframe hwaits
  have hpool (q : Fin 8 × Part) : (s.pageCopyDone die n e).pool q.1 q.2
      = if (die, n) = q then (s.pool die n).copied e l else s.pool q.1 q.2 := by
    rw [hframe]
    exact s.pool_setPool die n _ q
  have hself : (s.pageCopyDone die n e).pool die n = (s.pool die n).copied e l := (hpool (die, n)).trans (if_pos rfl)
  have hwake : (s.pageCopyDone die n e).wakeAll n = s.pageCopyDone die n e := by
    rw [State.wakeAll_cores (by rw [hframe]; exact hsyncs), hwaits]
    rfl
  refine ⟨s.pageCopyDone die n e, ?_, by rw [hself, KvPool.copied], by rw [hself, KvPool.copied], by rw [hself, KvPool.copied],
    by rw [hframe]; rfl, fun _ => by rw [hframe]; rfl, fun q hq => (hpool q).trans (if_neg hq.symm)⟩
  refine exec_next (show execKvPageCopyDone die n e s = lift _ s from rfl) ?_ (by rw [hframe]; rfl)
  dsimp only
  rw [hwake, if_neg]
  rw [hframe]
  exact ne_true_of_eq_false happly

/-! ## The tier cache (R339, R340) -/

theorem mem_tcInsert {x y : Nat × Nat} {l : List (Nat × Nat)} : y ∈ tcInsert x l ↔ y = x ∨ y ∈ l := by
  induction l with
  | nil => simp [tcInsert]
  | cons z l ih =>
    unfold tcInsert
    split
    · simp
    · simp only [List.mem_cons, ih]
      tauto

/-- The ranking of frames holds those ranked. -/
theorem mem_foldl_tcInsert {y : Nat × Nat} (l r : List (Nat × Nat)) :
    y ∈ l.foldl (fun l x => tcInsert x l) r ↔ y ∈ l ∨ y ∈ r := by
  induction l generalizing r with
  | nil => simp
  | cons x l ih =>
    simp only [List.foldl_cons, ih, mem_tcInsert, List.mem_cons]
    tauto

/-- An epoch's end keeps frames that a slot held, and candidates that were read enough. -/
theorem exec_tcEpochEnd (s : State) :
    ∃ t, exec .tcEpochEnd s = .next t ∧ t.ms.tcSlots.length ≤ s.regN .memTcSize / 2097152 ∧ t.ms.tcBytes = []
      ∧ (∀ f, (f, true) ∈ t.ms.tcSlots → (f, true) ∈ s.ms.tcSlots)
      ∧ (∀ f b, (f, b) ∈ t.ms.tcSlots → (∃ b', (f, b') ∈ s.ms.tcSlots)
          ∨ (s.tcCandidate f = true ∧ ∃ k, (f, k) ∈ s.ms.tcBytes ∧ s.regN .memTcThresh * 2097152 ≤ k))
      ∧ t = { s with ms := { s.ms with tcSlots := t.ms.tcSlots, tcBytes := [] } } := by
  refine ⟨_, exec_next (show execTcEpochEnd s = lift _ s from rfl) rfl rfl, ?_, rfl, fun f hf => ?_, fun f b hf => ?_, rfl⟩
  · simp only [List.length_map, List.length_take]
    exact min_le_left _ _
  · obtain ⟨p, -, hp⟩ := List.mem_map.1 hf
    rw [Prod.mk.injEq] at hp
    obtain ⟨q, hq, hqf⟩ := List.any_eq_true.1 hp.2
    simp only [Bool.and_eq_true, decide_eq_true_eq] at hqf
    rwa [← hp.1, ← hqf.1, ← hqf.2]
  · obtain ⟨p, hp, hpf⟩ := List.mem_map.1 hf
    rw [Prod.mk.injEq] at hpf
    obtain ⟨rfl, -⟩ := hpf
    have hranked := (mem_foldl_tcInsert _ _).1 (List.mem_of_mem_take hp)
    rcases List.mem_append.1 (hranked.resolve_right List.not_mem_nil) with hcount | hquiet
    · obtain ⟨hmem, htest⟩ := List.mem_filter.1 hcount
      rcases Bool.or_eq_true_iff.1 htest with hread | hheld
      · simp only [Bool.and_eq_true, decide_eq_true_eq] at hread
        exact .inr ⟨hread.2, p.2, hmem, hread.1⟩
      · obtain ⟨q, hq, hqp⟩ := List.any_eq_true.1 hheld
        exact .inl ⟨q.2, by rw [← of_decide_eq_true hqp]; exact hq⟩
    · obtain ⟨q, hq, rfl⟩ := List.mem_map.1 hquiet
      exact .inl ⟨q.2, (List.mem_filter.1 hq).1⟩

/-- A copy that ends serves its frame, and is counted. -/
theorem exec_tcCopyDone {s : State} {f : Nat} (h : (f, false) ∈ s.ms.tcSlots) :
    ∃ t, exec (.tcCopyDone f) s = .next t ∧ (f, true) ∈ t.ms.tcSlots ∧ t.reg .memTcCopies = s.reg .memTcCopies + 1
      ∧ t.mem = s.mem ∧ t = { s with regs := t.regs, ms := { s.ms with tcSlots := t.ms.tcSlots } } :=
  ⟨_, exec_next (show execTcCopyDone f s = lift _ s from rfl) (if_pos (List.any_eq_true.2 ⟨_, h, by simp⟩)) rfl,
    List.mem_map.2 ⟨_, h, if_pos rfl⟩, State.reg_setReg_self _ _ _ _ _, rfl, rfl⟩

/-- What the device's answer for `k` bytes of a hit leaves (R340). -/
def State.hitFallback (s : State) (f k : Nat) : State :=
  let t := { s with ms := { s.ms with tcHits := Assoc.del f s.ms.tcHits } }
  (t.setReg .memTcHitBytes 0 0 (BitVec.ofNat 64 (t.regN .memTcHitBytes - k))).bump
    .cxlRdBytes 0 ((f * 2097152 - cxlBase) / 0x20000000000) k

/-- Bytes of a hit that the device serves count as its port's, and no more as the cache's. -/
theorem exec_tcHitFallback (s : State) (f : Nat) :
    (Assoc.find f s.ms.tcHits = none → exec (.tcHitFallback f) s = .next s)
    ∧ ∀ k, Assoc.find f s.ms.tcHits = some k → ∃ t, exec (.tcHitFallback f) s = .next t
        ∧ t.regN .memTcHitBytes = s.regN .memTcHitBytes - k
        ∧ (let p := (f * 2097152 - cxlBase) / 0x20000000000
           t.reg .cxlRdBytes 0 p = s.reg .cxlRdBytes 0 p + BitVec.ofNat 64 k)
        ∧ t = { s with regs := t.regs, ms := { s.ms with tcHits := Assoc.del f s.ms.tcHits } } := by
  have hx := show execTcHitFallback f s = lift _ s from rfl
  refine ⟨fun h => exec_next hx (by dsimp only; rw [h]) rfl, fun k h => ?_⟩
  refine ⟨s.hitFallback f k, exec_next hx (by dsimp only; rw [h, State.hitFallback]) rfl, ?_, ?_, rfl⟩
  · refine (congrArg BitVec.toNat ((State.reg_bump_ne _ (by decide) _ _ _ _ _).trans (State.reg_setReg_self _ _ _ _ _))).trans ?_
    rw [BitVec.toNat_ofNat]
    exact Nat.mod_eq_of_lt (lt_of_le_of_lt (Nat.sub_le _ _) (BitVec.isLt (s.reg .memTcHitBytes)))
  · refine (State.reg_bump_self _ _ _ _ _).trans ?_
    rw [State.reg_setReg_ne _ (by decide)]
    rfl

/-- An epoch, a copy, and a hit that the device serves (R339, R340). -/
theorem tierCache : TierCache := fun s => ⟨exec_tcEpochEnd s, fun _ h => exec_tcCopyDone h, exec_tcHitFallback s⟩

/-! ## What a read beside the tick counts (R339, R340, R350) -/

/-- What the counting of a read of the second tier leaves: the bytes of the epoch, the hits, and two counters. -/
structure FarOnly (s t : State) : Prop where
  frame : t = { s with regs := t.regs, ms := { s.ms with tcBytes := t.ms.tcBytes, tcHits := t.ms.tcHits } }
  reg : ∀ r, r ≠ .memTcHitBytes → r ≠ .cxlRdBytes → ∀ i j, t.reg r i j = s.reg r i j

namespace FarOnly

theorem refl (s : State) : FarOnly s s := ⟨rfl, fun _ _ _ _ _ => rfl⟩

theorem trans {s t u : State} (h : FarOnly s t) (h' : FarOnly t u) : FarOnly s u := by
  refine ⟨?_, fun r h1 h2 i j => (h'.reg r h1 h2 i j).trans (h.reg r h1 h2 i j)⟩
  conv_lhs => rw [h'.frame, h.frame]

/-- With a directory and registers changed after it, too. -/
theorem withPn {s t : State} (h : FarOnly s t) (r : List (RegKey × Word)) (p : List (Fin 8 × List PnItem)) :
    { t with regs := r, pn := p } =
      { s with regs := r, pn := p, ms := { s.ms with tcBytes := t.ms.tcBytes, tcHits := t.ms.tcHits } } := by
  conv_lhs => rw [h.frame]

theorem pending {s t : State} (h : FarOnly s t) : t.pending = s.pending := by rw [h.frame]

theorem pnDir {s t : State} (h : FarOnly s t) (d : Fin 8) : t.pnDir d = s.pnDir d := by
  unfold State.pnDir
  rw [h.frame]

/-- Only the bytes of the epoch and the hits differ. -/
theorem ofEpoch {s t : State} (h : t = { s with ms := { s.ms with tcBytes := t.ms.tcBytes, tcHits := t.ms.tcHits } }) :
    FarOnly s t := by
  refine ⟨?_, fun r _ _ i j => ?_⟩
  · conv_lhs => rw [h]
    rw [h]
  · rw [h]
    rfl

theorem bumpHits (s : State) (n : Nat) : FarOnly s (s.bump .memTcHitBytes 0 0 n) :=
  ⟨rfl, fun _ h _ _ _ => State.reg_bump_ne _ h.symm _ _ _ _ _⟩

theorem bumpPort (s : State) (q n : Nat) : FarOnly s (s.bump .cxlRdBytes 0 q n) :=
  ⟨rfl, fun _ _ h _ _ => State.reg_bump_ne _ h.symm _ _ _ _ _⟩

theorem farRead (s : State) (q : Fin 4) (cacheable : Bool) (u : Nat × Nat) : FarOnly s (s.farRead q cacheable u) := by
  unfold State.farRead
  dsimp only
  split
  · split
    · exact trans (ofEpoch rfl) (bumpHits _ _)
    · exact trans (ofEpoch rfl) (bumpPort _ _ _)
  · exact bumpPort _ _ _

theorem foldl {α : Type} {f : State → α → State} (h : ∀ t x, FarOnly t (f t x)) (l : List α) (s : State) :
    FarOnly s (l.foldl f s) := by
  induction l generalizing s with
  | nil => exact refl s
  | cons x l ih => exact (h s x).trans (ih _)

end FarOnly

/-- What is no work of a tick moves no bytes of one. -/
theorem State.measure_host (s : State) (n : Part) (p : Place) (len : Nat) : s.measure (hostAcc n) p len = s := rfl

/-- A read of the host's, or of an agent outside the dies, counts at the second tier alone. -/
theorem State.countRead_host (s : State) (n : Part) (p : Place) (len : Nat) : FarOnly s (s.countRead (hostAcc n) p len) := by
  unfold State.countRead
  rw [State.measure_host]
  dsimp only [hostAcc]
  split
  · exact FarOnly.refl s
  · split
    · refine FarOnly.trans ?_ (FarOnly.foldl (fun t u => FarOnly.farRead t _ _ u) _ _)
      split
      · exact FarOnly.ofEpoch rfl
      · exact FarOnly.refl s
    · exact FarOnly.refl s

/-! ## Pannier fills (R333, R351) -/

/-- A fold that takes an element or keeps what it has ends with an element, or with what it began with. -/
theorem foldl_choice {α : Type} {f : Option α → α → Option α} (h : ∀ b i, f b i = some i ∨ f b i = b) {l : List α} {b : Option α}
    {j : α} (hj : l.foldl f b = some j) : j ∈ l ∨ b = some j := by
  induction l generalizing b with
  | nil => exact .inr hj
  | cons k l ih =>
    rcases ih hj with hl | hf
    · exact .inl (List.mem_cons_of_mem _ hl)
    · rcases h b k with hk | hk
      · rw [hk] at hf
        exact .inl (Option.some.inj hf ▸ List.mem_cons_self)
      · exact .inr (hk ▸ hf)

/-- The item that fills next is QUEUED (R333). -/
theorem queued_of_pnNext {l : List PnItem} {j : PnItem} (h : pnNext l = some j) : j.state = .queued := by
  refine (foldl_choice (fun b i => ?_) h).elim (fun hj => of_decide_eq_true (List.mem_filter.1 hj).2) (fun hj => nomatch hj)
  cases b with
  | none => exact .inl rfl
  | some j =>
    dsimp only
    split
    · exact .inl rfl
    · exact .inr rfl

/-- A fill that starts keeps every item that is not QUEUED. -/
theorem mem_pnStart_of_mem {l : List PnItem} {i : PnItem} (h : i ∈ l) (hq : i.state ≠ .queued) : i ∈ pnStart l := by
  unfold pnStart
  split
  · exact h
  · split
    · exact h
    · next j hj =>
      refine List.mem_map.2 ⟨i, h, if_neg ?_⟩
      rintro rfl
      exact hq (queued_of_pnNext hj)

theorem pnStart_length (l : List PnItem) : (pnStart l).length = l.length := by
  unfold pnStart
  split
  · rfl
  · split
    · rfl
    · exact List.length_map _

theorem State.pnDir_setPn (s : State) (d e : Fin 8) (l : List PnItem) :
    (s.setPn d l).pnDir e = if d = e then l else s.pnDir e := by
  unfold State.pnDir State.setPn Assoc.getD
  rw [Assoc.find_put]
  split <;> rfl

/-- A die's directory once the fill of an item has ended (R333). -/
def pnFilled (l : List PnItem) (i : PnItem) (x : PnState) : List PnItem :=
  pnStart (l.map (fun j => if j = i then { j with state := x } else j))

theorem pnFilled_length (l : List PnItem) (i : PnItem) (x : PnState) : (pnFilled l i x).length = l.length :=
  (pnStart_length _).trans (List.length_map _)

/-- What the end of a fill leaves, by what the read gives (log 105). -/
def State.fillEnds (u : State) (d : Fin 8) (i : PnItem) : Except Code Place → State
  | .ok _ => (u.setPn d (pnFilled (u.pnDir d) i .valid)).bump .pnFillBytes d.val 0 i.bytes
  | .error e => (u.setPn d (pnFilled (u.pnDir d) i .queued)).setReg .pnCode d.val 0 (codeWord e)

/-- PN_FILL_COMPLETE, by what the read of the item's range gives. -/
theorem exec_pnFillComplete {s u : State} {d : Fin 8} {i : PnItem} {r : Except Code Place}
    (hi : (s.pnDir d).filter (fun j => decide (j.state = .filling)) = [i])
    (hr : s.startRead (hostAcc i.part) i.src i.bytes = (u, r)) (hp : u.pending = s.pending) :
    exec (.pnFillComplete d) s = .next (u.fillEnds d i r) := by
  have hfind : (s.pnDir d).find? (fun j => decide (j.state = .filling)) = some i := by
    rw [← List.head?_filter, hi]
    rfl
  refine exec_next (show execPnFillComplete d s = lift _ s from rfl) ?_ (by cases r <;> exact hp)
  dsimp only
  rw [hfind]
  dsimp only
  rw [hr]
  cases r <;> rfl

/-- The end of a fill, by what the read of the item's range gives (log 105). -/
theorem pannierFills : PannierFills := by
  intro s d i hi
  have hmem : i ∈ s.pnDir d ∧ i.state = .filling := by
    have := List.mem_filter.1 (hi ▸ List.mem_singleton_self i)
    exact ⟨this.1, of_decide_eq_true this.2⟩
  refine ⟨fun p hp hc => ?_, fun e hp => ?_⟩
  · have hread : s.startRead (hostAcc i.part) i.src i.bytes = (s.countRead (hostAcc i.part) p i.bytes, .ok p) := by
      unfold State.startRead
      rw [hp]
      simp only [hc.1, hc.2, Bool.false_eq_true, if_false]
    have hfar := s.countRead_host i.part p i.bytes
    generalize s.countRead (hostAcc i.part) p i.bytes = u at hread hfar
    have hdir (e : Fin 8) : (u.setPn d (pnFilled (u.pnDir d) i .valid)).pnDir e
        = if d = e then pnFilled (s.pnDir d) i .valid else s.pnDir e := by
      rw [State.pnDir_setPn, hfar.pnDir, hfar.pnDir]
    refine ⟨_, exec_pnFillComplete hi hread hfar.pending, ?_, ?_, ?_, ?_, fun e he => (hdir e).trans (if_neg he.symm)⟩
    · exact ((hdir d).trans (if_pos rfl)).symm ▸ mem_pnStart_of_mem (List.mem_map.2 ⟨i, hmem.1, if_pos rfl⟩) PnState.noConfusion
    · exact (State.reg_bump_self _ _ _ _ _).trans
        (congrArg (· + BitVec.ofNat 64 i.bytes) (hfar.reg .pnFillBytes (by decide) (by decide) _ _))
    · exact (congrArg List.length ((hdir d).trans (if_pos rfl))).trans (pnFilled_length _ _ _)
    · exact hfar.withPn _ _
  · have hread : s.startRead (hostAcc i.part) i.src i.bytes = (s.accessFails i.src e, .error e) := by
      unfold State.startRead
      rw [hp]
    have hfails : s.accessFails i.src e = { s with regs := (s.accessFails i.src e).regs } := by
      unfold State.accessFails
      split <;> rfl
    generalize s.accessFails i.src e = u at hread hfails
    have hdir (k : Fin 8) : (u.setPn d (pnFilled (u.pnDir d) i .queued)).pnDir k
        = if d = k then pnFilled (s.pnDir d) i .queued else s.pnDir k := by
      rw [State.pnDir_setPn, hfails]
      rfl
    refine ⟨_, exec_pnFillComplete hi hread (by rw [hfails]), State.reg_setReg_self _ _ _ _ _, fun j hj hv => ?_, ?_, ?_,
      fun k hk => (hdir k).trans (if_neg hk.symm)⟩
    · have hj' := mem_pnStart_valid (((hdir d).trans (if_pos rfl)) ▸ hj) hv
      obtain ⟨k, hk, rfl⟩ := List.mem_map.1 hj'
      split at hv
      · cases hv
      · next hne => rwa [if_neg hne]
    · exact (congrArg List.length ((hdir d).trans (if_pos rfl))).trans (pnFilled_length _ _ _)
    · exact congrArg (fun v : State => { v with
        regs := (u.fillEnds d i (.error e)).regs, pn := (u.fillEnds d i (.error e)).pn }) hfails

/-! ## CXL ports (R320 to R322, R345, R350, R352) -/

theorem cxlTrains_iff (dev : CxlDevice) :
    cxlTrains dev = true ↔ (dev.width = 16 ∨ dev.width = 8) ∧ (dev.rate = 64 ∨ dev.rate = 32) := by
  simp [cxlTrains]

theorem State.cxlPort_setCxl_ne (s : State) {p q : Fin 4} (h : q ≠ p) (x : CxlPort) : (s.setCxl p x).cxlPort q = s.cxlPort q :=
  Assoc.getD_put_ne h.symm _ _ _

/-- A report of a CXL port keeps its code and sends an event (R352). -/
theorem cxlReport_eventOnly (s : State) (p : Fin 4) (code : Code) :
    EventOnly (s.setReg .cxlCode 0 p.val (codeWord code)) (s.cxlReport p code) := eventOn_eventOnly _ _ _ _ _ _

theorem State.cxlReport_leaves (s : State) (p : Fin 4) (code : Code) :
    (s.cxlReport p code).pending = s.pending ∧ (s.cxlReport p code).mem = s.mem ∧ (s.cxlReport p code).cxl = s.cxl
    ∧ (s.cxlReport p code).reg .cxlCode 0 p.val = codeWord code
    ∧ (s.cxlReport p code).reg .cadAdmCxlBw = s.reg .cadAdmCxlBw := by
  have h := cxlReport_eventOnly s p code
  refine ⟨h.pending, h.mem, by rw [h.frame]; rfl, ?_, ?_⟩
  · exact (h.reg (by decide) _ _).trans (State.reg_setReg_self _ _ _ _ _)
  · exact (h.reg (by decide) _ _).trans (State.reg_setReg_ne _ (by decide) _ _ _ _ _)

/-- Ports that are the same have the same states and rates. -/
theorem State.cxlPort_congr {s t : State} (h : t.cxl = s.cxl) (p : Fin 4) : t.cxlPort p = s.cxlPort p ∧ t.cxlRate p = s.cxlRate p := by
  unfold State.cxlRate State.cxlPort
  rw [h]
  exact ⟨rfl, rfl⟩

/-- The admission rate is the sum over the ports (R345). -/
theorem State.regN_setCxl_rate (s : State) (p : Fin 4) (x : CxlPort) :
    (s.setCxl p x).regN .cadAdmCxlBw = ((List.finRange 4).map (s.setCxl p x).cxlRate).sum % 2 ^ 64 :=
  (congrArg BitVec.toNat (State.reg_setReg_self _ _ _ _ _)).trans (BitVec.toNat_ofNat _ _)

/-- The state of a port that takes a device into service, before a report (R320, R321). -/
def State.cxlServes (s : State) (p : Fin 4) (dev : CxlDevice) : State :=
  s.setCxl p ⟨.inService, dev.width, dev.rate, (s.reg .cxlCtrl 0 p.val).getLsbD 1, dev.capacity, dev.poison⟩

section
variable {s : State} {p : Fin 4} {dev : CxlDevice} (hen : (s.reg .cxlCtrl 0 p.val).getLsbD 0 = true)
  (hst : (s.cxlPort p).state = .down ∨ (s.cxlPort p).state = .training) (htrains : cxlTrains dev = true)
include hen hst htrains

theorem cxlTrained_goes :
    ¬(!((s.reg .cxlCtrl 0 p.val).getLsbD 0) || !(decide ((s.cxlPort p).state = .down ∨ (s.cxlPort p).state = .training))
      || !cxlTrains dev) = true := by
  simp only [hen, decide_eq_true hst, htrains, Bool.not_true, Bool.or_self, Bool.false_eq_true, not_false_iff]

/-- A device outside the limits is refused. -/
theorem exec_cxlTrained_refused (href : s.cxlRefuses p dev = true) : ∃ t, exec (.cxlTrained p dev) s = .next t
    ∧ (t.cxlPort p).state = .refused ∧ t.reg .cxlCode 0 p.val = 0x060B ∧ t.mem = s.mem ∧ ∀ q, q ≠ p → t.cxlPort q = s.cxlPort q := by
  obtain ⟨hpending, hmem, hcxl, hcode, -⟩ := (s.setCxl p { CxlPort.init with state := .refused }).cxlReport_leaves p 0x060B
  have hport (q : Fin 4) := (State.cxlPort_congr hcxl q).1
  refine ⟨_, exec_next (show execCxlTrained p dev s = lift _ s from rfl) ((if_neg (cxlTrained_goes hen hst htrains)).trans (if_pos href))
    hpending, ?_, hcode, hmem, fun q hq => (hport q).trans (State.cxlPort_setCxl_ne _ hq _)⟩
  rw [hport p, State.cxlPort_setCxl_self]

/-- A device within the limits is taken into service. -/
theorem exec_cxlTrained_served (href : s.cxlRefuses p dev = false) : ∃ t, exec (.cxlTrained p dev) s = .next t
    ∧ t.cxlPort p = ⟨.inService, dev.width, dev.rate, (s.reg .cxlCtrl 0 p.val).getLsbD 1, dev.capacity, dev.poison⟩
    ∧ t.regN .cadAdmCxlBw = ((List.finRange 4).map t.cxlRate).sum % 2 ^ 64
    ∧ (dev.width < 16 ∨ dev.rate < 64 → t.reg .cxlCode 0 p.val = 0x060C)
    ∧ (16 ≤ dev.width → 64 ≤ dev.rate → t = { s with cxl := t.cxl, regs := t.regs })
    ∧ t.mem = s.mem ∧ ∀ q, q ≠ p → t.cxlPort q = s.cxlPort q := by
  have hgo : (if dev.width < 16 ∨ dev.rate < 64 then (s.cxlServes p dev).cxlReport p 0x060C else s.cxlServes p dev).pending
      = s.pending → exec (.cxlTrained p dev) s
        = .next (if dev.width < 16 ∨ dev.rate < 64 then (s.cxlServes p dev).cxlReport p 0x060C else s.cxlServes p dev) :=
    exec_next (show execCxlTrained p dev s = lift _ s from rfl)
      ((if_neg (cxlTrained_goes hen hst htrains)).trans (if_neg (by simp [href])))
  have hself : (s.cxlServes p dev).cxlPort p = _ := State.cxlPort_setCxl_self _ _ _
  by_cases hfull : dev.width < 16 ∨ dev.rate < 64
  · rw [if_pos hfull] at hgo
    obtain ⟨hpending, hmem, hcxl, hcode, hrate⟩ := (s.cxlServes p dev).cxlReport_leaves p 0x060C
    have hport (q : Fin 4) := (State.cxlPort_congr hcxl q).1
    have hrates : ((s.cxlServes p dev).cxlReport p 0x060C).cxlRate = (s.cxlServes p dev).cxlRate :=
      funext fun q => (State.cxlPort_congr hcxl q).2
    refine ⟨_, hgo hpending, (hport p).trans hself, ?_, fun _ => hcode, fun hw hr => by omega, hmem,
      fun q hq => (hport q).trans (State.cxlPort_setCxl_ne _ hq _)⟩
    rw [hrates]
    exact (congrArg BitVec.toNat hrate).trans (State.regN_setCxl_rate _ _ _)
  · rw [if_neg hfull] at hgo
    exact ⟨_, hgo rfl, hself, State.regN_setCxl_rate _ _ _, fun h => absurd h hfull, fun _ _ => rfl, rfl,
      fun q hq => State.cxlPort_setCxl_ne _ hq _⟩

end

/-- A link that goes down trains again. -/
theorem exec_cxlLinkDown {s : State} {p : Fin 4} (h : (s.cxlPort p).state = .inService) :
    ∃ t, exec (.cxlLinkDown p) s = .next t ∧ (t.cxlPort p).state = .training
      ∧ t.reg .cxlLinkDowns 0 p.val = s.reg .cxlLinkDowns 0 p.val + 1
      ∧ t = { s with cxl := t.cxl, regs := t.regs } ∧ ∀ q, q ≠ p → t.cxlPort q = s.cxlPort q := by
  refine ⟨_, exec_next (show execCxlLinkDown p s = lift _ s from rfl) (if_pos (decide_eq_true h)) rfl,
    congrArg CxlPort.state (State.cxlPort_setCxl_self _ _ _), ?_, rfl, fun q hq => State.cxlPort_setCxl_ne _ hq _⟩
  exact (State.reg_bump_self _ _ _ _ _).trans (congrArg (· + 1) (State.reg_setCxl _ _ _ (by decide) _ _))

/-- The segment in progress does not turn on a register that is none of a partition's. -/
theorem State.segNow_setReg (s : State) {r : Reg} (h : r ≠ .partCfg) (i j : Nat) (v : Word) (n : Part) :
    (s.setReg r i j v).segNow n = s.segNow n := by
  have hcfg : (s.setReg r i j v).partCfg n = s.partCfg n := State.reg_setReg_ne s h i j 0 n.val v
  unfold State.segNow State.endedSegs State.coresOf State.partValid State.partDies State.coreBase State.corePer
  rw [hcfg]
  rfl

/-- An access without a response keeps 0x0604 in CXL.CODE and MEM.CODE. -/
def State.cxlSilent (s : State) (p : Fin 4) : State := (s.setReg .cxlCode 0 p.val 0x0604).setReg .memCode 0 0 0x0604

theorem State.cxlSilent_codes (s : State) (p : Fin 4) :
    (s.cxlSilent p).reg .cxlCode 0 p.val = 0x0604 ∧ (s.cxlSilent p).reg .memCode = 0x0604 :=
  ⟨(State.reg_setReg_ne _ (by decide) _ _ _ _ _).trans (State.reg_setReg_self _ _ _ _ _), State.reg_setReg_self _ _ _ _ _⟩

/-- A fault of LX with a code that MEM.CODE keeps. -/
theorem State.kill_far {s : State} {c : CoreId} {n : Part} (h : RunsIn s c n) :
    let w := faultWord 0x0604 (s.core c).seg (s.dom n).tick
    s.kill c 0x0604 (some .lx) = (((s.setCore c ((s.core c).stopped 0x0604)).setReg .lxFault (s.coreIx c) 0 w).segError n
      (s.core c).seg 0x0604 none).setReg .memCode 0 0 0x0604 := by
  obtain ⟨hpart, hrun⟩ := h
  unfold State.kill
  rw [hpart]
  simp only [hrun, Option.isSome_none, Bool.false_eq_true, if_false]
  rfl

/-- A port trains, is refused, serves, goes down, or has no response (R320 to R322). -/
theorem cxlPorts : CxlPorts := by
  intro s p
  have hx (user : CxlUser) := show execCxlTimeout p user s = lift _ s from rfl
  obtain ⟨hcxl, hmem⟩ := s.cxlSilent_codes p
  refine ⟨fun dev hbad => ?_, fun dev hen hst hw hr => ?_, exec_cxlLinkDown, fun c n hrun hrunning => ?_, fun d n hrunning => ?_,
    s.cxlSilent p, exec_next (hx .agent) rfl rfl, hcxl, hmem, rfl⟩
  · refine exec_next (show execCxlTrained p dev s = lift _ s from rfl) (if_pos ?_) rfl
    rw [(Bool.not_eq_true _).mp (mt (cxlTrains_iff dev).1 hbad), Bool.not_false, Bool.or_true]
  · have htrains := (cxlTrains_iff dev).2 ⟨hw, hr⟩
    exact ⟨exec_cxlTrained_refused hen hst htrains, exec_cxlTrained_served hen hst htrains⟩
  · have hrun' : RunsIn (s.cxlSilent p) c n :=
      ⟨(State.partOf_setReg _ (by decide) _ _ _ _).trans ((State.partOf_setReg _ (by decide) _ _ _ _).trans hrun.1), hrun.2⟩
    have hkill := State.kill_far hrun'
    refine ⟨(s.cxlSilent p).kill c 0x0604 (some .lx), exec_next (hx (.core c)) (if_pos hrunning) (State.kill_pending _ _ _ _), ?_⟩
    rw [hkill]
    have hcore := State.core_setCore_self (s.cxlSilent p) c (((s.cxlSilent p).core c).stopped 0x0604)
    refine ⟨congrArg Core.killed hcore, ?_, State.reg_setReg_self _ _ _ _ _, (congrArg Core.s hcore).trans rfl, rfl⟩
    exact (State.reg_setReg_ne _ (by decide) _ _ _ _ _).trans ((State.reg_setReg_ne _ (by decide) _ _ _ _ _).trans hcxl)
  · have hseg : (s.cxlSilent p).segNow n = s.segNow n :=
      (State.segNow_setReg _ (by decide) _ _ _ n).trans (State.segNow_setReg _ (by decide) _ _ _ n)
    refine ⟨(s.cxlSilent p).segError n ((s.cxlSilent p).segNow n) 0x0604 none,
      exec_next (hx (.station d n)) (if_pos (decide_eq_true hrunning)) rfl, ?_, hcxl, hmem, rfl⟩
    rw [hseg]
    exact (congrArg Domain.errs (State.dom_updDom_self _ _ _)).trans rfl

/-- Settles O24: the ends of page copies, the tier cache, the ends of Pannier fills, and the CXL ports. -/
theorem memoryTiers : Obligations.MemoryTiers := ⟨pageCopies, tierCache, pannierFills, cxlPorts⟩

end Sys2Proof.Machine
end

section
/-! # Memory keeps its canonical form (R308, R309)

Every function that makes a state from a state keeps the form, and so does every command: one lemma each, named after the
function, in the order of the model's files. A function that writes memory writes it by one of the operations that
`Laws/Memory` treats; every other one only carries the form on from the functions it is made of. -/

namespace Sys2Proof.Machine

/-- Memory has its canonical form. -/
structure State.MemForm (s : State) : Prop where
  wf : s.mem.wf

/-- Where the station has done its instruction, memory has its canonical form. -/
def Ran.MemForm : Ran → Prop
  | .done s => s.MemForm
  | .waits _ => True
  | .held => True

/-- The state that a command leads to, if any, has memory in its canonical form. -/
def NextForm (o : Out) : Prop := ∀ t, o = .next t → t.MemForm

theorem State.MemForm.same {s t : State} (h : s.MemForm) (e : t.mem = s.mem) : t.MemForm := ⟨e ▸ h.wf⟩

/-- An update of other fields leaves memory as it is. -/
theorem State.MemForm.update {s : State} {pending tx regs freeCtr tb doms cores ms cxl pn claims barriers programs ex sv kv
    wt loads fab hp arb integ pw trust boot} (h : s.MemForm) :
    (State.mk pending tx regs s.mem freeCtr tb doms cores ms cxl pn claims barriers programs ex sv kv wt loads fab hp arb
      integ pw trust boot).MemForm := ⟨h.wf⟩

theorem State.MemForm.fst {α : Type _} {s : State} {x : α} (h : s.MemForm) : (s, x).1.MemForm := h

theorem State.MemForm.snd {α : Type _} {s : State} {x : α} (h : s.MemForm) : (x, s).2.MemForm := h

theorem State.MemForm.stored {s t : State} {a : Nat} {l : List Byte} (h : s.MemForm) (e : t.mem = s.mem.writeBytes a l) :
    t.MemForm := ⟨e ▸ s.mem.wf_writeBytes a l h.wf⟩

theorem State.MemForm.blurred {s t : State} {lo hi : Nat} {k : Blur} (h : s.MemForm) (e : t.mem = s.mem.blur lo hi k) :
    t.MemForm := ⟨e ▸ s.mem.wf_blur lo hi k h.wf⟩

theorem State.MemForm.recoded {s t : State} {lo hi : Nat} {r : Recode} (h : s.MemForm)
    (e : t.mem = s.mem.recode lo hi r) : t.MemForm := ⟨e ▸ s.mem.wf_recode lo hi r h.wf⟩

theorem State.MemForm.copied {s : State} {src dst n seed k : Nat} (h : s.MemForm) :
    ({ s with mem := s.mem.copyRange src dst n seed, freeCtr := k } : State).MemForm :=
  ⟨s.mem.wf_copyRange src dst n seed h.wf⟩

theorem State.MemForm.ite {p : Prop} {d : Decidable p} {s t : State} (h : s.MemForm) (h' : t.MemForm) :
    (if p then s else t).MemForm := by
  split
  · exact h
  · exact h'

theorem Ran.MemForm.ite {p : Prop} {d : Decidable p} {r q : Ran} (h : r.MemForm) (h' : q.MemForm) :
    (if p then r else q).MemForm := by
  split
  · exact h
  · exact h'

theorem Ran.MemForm.of_done {r : Ran} {s : State} (h : r.MemForm) (e : r = .done s) : s.MemForm := by
  subst e
  exact h

theorem Ran.MemForm.done {s : State} (h : s.MemForm) : (Ran.done s).MemForm := h

theorem NextForm.lift {f : State → State} {s : State} (h : (f s).MemForm) : NextForm (lift f s) := by
  rintro t ⟨⟩
  exact h.same rfl

theorem NextForm.refused {r : Refusal} : NextForm (.refused r) := by
  rintro t ⟨⟩

theorem State.MemForm.foldl {α : Type _} {f : State → α → State} {l : List α} {s : State} (h : s.MemForm)
    (hf : ∀ t x, t.MemForm → (f t x).MemForm) : (l.foldl f s).MemForm :=
  List.foldlRecOn (motive := State.MemForm) l f h fun t ht x _ => hf t x ht

theorem State.MemForm.foldl_fst {α β : Type _} {f : State × β → α → State × β} {l : List α} {p : State × β}
    (h : p.1.MemForm) (hf : ∀ q x, q.1.MemForm → (f q x).1.MemForm) : (l.foldl f p).1.MemForm :=
  List.foldlRecOn (motive := fun q => q.1.MemForm) l f h fun q hq x _ => hf q x hq

theorem State.MemForm.foldl_snd {α β : Type _} {f : β × State → α → β × State} {l : List α} {p : β × State}
    (h : p.2.MemForm) (hf : ∀ q x, q.2.MemForm → (f q x).2.MemForm) : (l.foldl f p).2.MemForm :=
  List.foldlRecOn (motive := fun q => q.2.MemForm) l f h fun q hq x _ => hf q x hq

variable {s t : State} {c : CoreId} {f : Frame} {k j a tick seg len e tag peer session shard cause : Nat}
    {v : Version} {r : Reg} {i : SiteId} {n : Part} {bs body detail payload msg : List Byte} {d die : Fin 8}
    {x : Fetch} {m : Mgmt} {kind : ExKind} {code cmd status version number : Code} {q q0 q1 q2 : BitVec 4}
    {acc : Accessor} {p : Port} {op : PacketOp} {pk : Packet} {g : ExSegment} {b value w addr : Word}
    {fl : Flit} {set i3c : Bool} {err : Option ResidueErr} {td : Desc}

/-! ## Machine.Ops -/

theorem State.MemForm.when {c : Bool} {f : State → State} (h : s.MemForm) (hf : ∀ t, t.MemForm → (f t).MemForm) :
    (s.when c f).MemForm :=
  .ite (hf _ h) h

theorem State.MemForm.setRaw {k : RegKey} {v : Word} (h : s.MemForm) : (s.setRaw k v).MemForm := h.same rfl

theorem State.MemForm.setReg {i : Nat} {v : Word} (h : s.MemForm) : (s.setReg r i j v).MemForm := h.setRaw

theorem State.MemForm.bump {i n : Nat} (h : s.MemForm) : (s.bump r i j n).MemForm := h.setReg

theorem State.MemForm.store (h : s.MemForm) : (s.store a bs).MemForm := .stored h rfl

theorem State.MemForm.fresh (h : s.MemForm) : s.fresh.2.MemForm := h.same rfl

theorem State.MemForm.setDom {d : Domain} (h : s.MemForm) : (s.setDom n d).MemForm := h.same rfl

theorem State.MemForm.updDom {f : Domain → Domain} (h : s.MemForm) : (s.updDom n f).MemForm := h.setDom

theorem State.MemForm.setCore {x : Core} (h : s.MemForm) : (s.setCore c x).MemForm := h.same rfl

theorem State.MemForm.updCore {f : Core → Core} (h : s.MemForm) : (s.updCore c f).MemForm := h.setCore

theorem State.MemForm.setSite {x : Site} (h : s.MemForm) : (s.setSite i x).MemForm := h.same rfl

theorem State.MemForm.send {m : Msg} (h : s.MemForm) : (s.send m).MemForm := h.same rfl

theorem State.MemForm.flashWrite (h : s.MemForm) : s.flashWrite.MemForm := h.same rfl

theorem State.MemForm.writeRepair (h : s.MemForm) : s.writeRepair.MemForm := .flashWrite (h.same rfl)

theorem State.MemForm.setChan {c : Nat} {x : Channel} (h : s.MemForm) : (s.setChan c x).MemForm := h.same rfl

theorem State.MemForm.pushEvent {c : Nat} {kind : Code} {tick : Word} (h : s.MemForm) :
    (s.pushEvent c kind code tick body).1.MemForm := by
  unfold State.pushEvent
  dsimp only
  split
  · exact h
  · exact .fst h.setChan.send.bump.bump

theorem State.MemForm.rawMgmtEvent (h : s.MemForm) : (s.rawMgmtEvent code detail).MemForm := h.pushEvent

theorem State.MemForm.eventOn {c : Nat} {kind : Code} {tick : Word} (h : s.MemForm) :
    (s.eventOn c kind code tick body).MemForm :=
  .ite h.pushEvent h.pushEvent.setReg.rawMgmtEvent

theorem State.MemForm.mgmtEvent (h : s.MemForm) : (s.mgmtEvent code detail).MemForm := h.eventOn

theorem State.MemForm.partEventAt {tick : Word} (h : s.MemForm) : (s.partEventAt n code tick detail).MemForm :=
  h.eventOn

theorem State.MemForm.partEvent (h : s.MemForm) : (s.partEvent n code detail).MemForm := h.partEventAt

theorem State.MemForm.lastCode {c : Code} (h : s.MemForm) : (s.lastCode c).MemForm := by
  unfold State.lastCode
  split
  · exact h
  · exact h.setReg

theorem State.MemForm.domReport (h : s.MemForm) : (s.domReport n code detail).MemForm := h.setReg.partEvent

theorem State.MemForm.mgmtReport (h : s.MemForm) : (s.mgmtReport r code detail).MemForm := h.setReg.mgmtEvent

theorem State.MemForm.partReport (h : s.MemForm) : (s.partReport r n code detail).MemForm :=
  h.setReg.partEvent

theorem State.MemForm.setSession {n : Nat} {x : Session} (h : s.MemForm) : (s.setSession n x).MemForm :=
  h.same rfl

theorem State.MemForm.sendBrosin {n : Nat} {x : Session} {typ : BrosinType} {flags : Code} {seq : BitVec 32}
    (h : s.MemForm) : (s.sendBrosin n x typ flags seq payload).MemForm :=
  h.send.bump

theorem State.MemForm.pumpSession {n k : Nat} (h : s.MemForm) : (pumpSession n k s).MemForm := by
  induction k generalizing s with
  | zero => exact h
  | succ k ih =>
    unfold Machine.pumpSession
    split
    · exact h
    · split
      · exact h
      · exact .ite h (ih h.setSession.sendBrosin)

theorem State.MemForm.sessionSend {n : Nat} {ps : List (BrosinType × List Byte)} (h : s.MemForm) :
    (s.sessionSend n ps).MemForm := by
  unfold State.sessionSend
  split
  · exact h
  · exact h.setSession.pumpSession

theorem State.MemForm.setQueue {k : Option Part × Nat} {q : List Queued} (h : s.MemForm) :
    (s.setQueue k q).MemForm :=
  h.same rfl

theorem State.MemForm.popCmd (h : s.MemForm) : (s.popCmd cmd f).MemForm := by
  unfold State.popCmd
  split
  · exact h
  · exact h.setQueue

theorem State.MemForm.answerCmd (h : s.MemForm) : (s.answerCmd cmd f status body).MemForm := by
  unfold State.answerCmd
  dsimp only
  split
  · exact h.lastCode
  · split
    · exact h.lastCode.send.sessionSend.bump
    · exact h.lastCode.send.sessionSend

theorem State.MemForm.complete (h : s.MemForm) : (s.complete cmd f status body).MemForm := h.popCmd.answerCmd

theorem State.MemForm.completeFwd {k : HostCmd} (h : s.MemForm) : (s.completeFwd k status body).MemForm :=
  .ite h.complete h

/-! ## Machine.Mem -/

theorem State.MemForm.segError {site : Option SiteId} (h : s.MemForm) : (s.segError n seg code site).MemForm :=
  h.updDom

theorem State.MemForm.faultReport (h : s.MemForm) : (s.faultReport n code).MemForm :=
  .ite h.domReport h.lastCode

theorem State.MemForm.kill {st : Option Station} (h : s.MemForm) : (s.kill c code st).MemForm := by
  unfold State.kill
  dsimp only
  split
  · exact h
  · refine .ite (.ite (.setReg ?_) ?_) (.faultReport (.segError (.setReg (.setCore (.ite (.setReg ?_) ?_)))))
    all_goals
      split
      · exact h.setReg
      · exact h.setReg
      · exact h

theorem State.MemForm.setSvPart {x : SvPart} (h : s.MemForm) : (s.setSvPart n x).MemForm := h.same rfl

theorem State.MemForm.setPn {l : List PnItem} (h : s.MemForm) : (s.setPn d l).MemForm := h.same rfl

theorem State.MemForm.pnRead {units : List (Nat × Nat)} (h : s.MemForm) : (s.pnRead d n units).MemForm :=
  h.setPn.bump.bump

theorem State.MemForm.pnInvalidateDie (h : s.MemForm) : (State.pnInvalidateDie a len s d).MemForm :=
  .ite h h.setPn.bump

theorem State.MemForm.pnInvalidate (h : s.MemForm) : (s.pnInvalidate a len).MemForm :=
  .ite h (h.foldl (fun _ _ ht => ht.pnInvalidateDie))

theorem State.MemForm.farRead {q : Fin 4} {cacheable : Bool} {u : Nat × Nat} (h : s.MemForm) :
    (s.farRead q cacheable u).MemForm :=
  .ite (.ite (.bump (.update (h.same rfl))) (.bump (h.same rfl))) h.bump

theorem State.MemForm.tcWrite (h : s.MemForm) : (s.tcWrite a len).MemForm := h.same rfl

theorem State.MemForm.health {n : Nat} (h : s.MemForm) : (s.health c k n).MemForm := by
  refine .ite h ?_
  split
  · exact h.bump
  · exact h.bump.updDom

theorem State.MemForm.measure {p : Place} (h : s.MemForm) : (s.measure acc p len).MemForm := by
  unfold State.measure
  split
  · exact h.updDom
  · exact h.updDom
  · exact h

theorem State.MemForm.countRead {p : Place} (h : s.MemForm) : (s.countRead acc p len).MemForm := by
  unfold State.countRead
  dsimp only
  split
  · exact h.measure
  · split
    · refine .foldl (.ite (.update ?_) ?_) (fun _ _ ht => ht.farRead)
      all_goals
        split
        · exact .ite h.measure.pnRead h.measure
        · exact h.measure
    · split
      · exact .ite h.measure.pnRead h.measure
      · exact h.measure

theorem State.MemForm.accessFails {e : Code} (h : s.MemForm) : (s.accessFails a e).MemForm := .ite h.setReg h

theorem State.MemForm.startRead (h : s.MemForm) : (s.startRead acc a len).1.MemForm := by
  unfold State.startRead
  split
  · exact .fst h.accessFails
  · split
    · exact h
    · split
      · exact .fst h.bump.setReg
      · exact .fst h.countRead

theorem State.MemForm.readMem (h : s.MemForm) : (s.readMem acc a len).1.MemForm := by
  unfold State.readMem
  dsimp only
  split
  · exact h
  · exact .fst h.startRead

theorem State.MemForm.clearPoison (h : s.MemForm) : (s.clearPoison a len).MemForm := h.same rfl

theorem State.MemForm.putBytes {p : Place} (h : s.MemForm) : (s.putBytes p bs).MemForm :=
  h.pnInvalidate.tcWrite.clearPoison.store

theorem State.MemForm.countWrite {p : Place} (h : s.MemForm) : (s.countWrite acc p len).MemForm := by
  unfold State.countWrite
  dsimp only
  split
  · exact h.measure.bump
  · exact h.measure

theorem State.MemForm.journal {e : JEntry} (h : s.MemForm) : (s.journal n e).1.MemForm := by
  unfold State.journal
  dsimp only
  split
  · exact h
  · exact .fst h.updDom

theorem State.MemForm.keepBefore {p : Place} (h : s.MemForm) : (s.keepBefore n p len).MemForm :=
  .ite h.updDom h

theorem State.MemForm.writeMem {stamp : Stamp} (h : s.MemForm) : (s.writeMem acc stamp a bs).1.MemForm := by
  unfold State.writeMem
  split
  · exact h
  · split
    · exact .fst h.accessFails
    · split
      · exact h
      · split
        · split
          · exact h.countWrite.journal
          · exact .fst h.keepBefore.countWrite.putBytes
        · exact .fst h.countWrite.putBytes

theorem State.MemForm.atomMem {stamp : Stamp} {op : AtomOp} {nr : Bool} {val cmp : Word} (h : s.MemForm) :
    (s.atomMem acc stamp op nr a val cmp).1.MemForm := by
  unfold State.atomMem
  dsimp only
  split
  · exact .fst h.accessFails
  · split
    · split
      · exact h
      · exact .fst h.countWrite.journal
    · exact h
    · split
      · exact .fst h.startRead
      · exact .fst (.putBytes (.countWrite (.ite h.keepBefore h)))

theorem State.MemForm.applyBytes (h : s.MemForm) : (s.applyBytes a bs).MemForm := .ite h.setReg h.putBytes

theorem State.MemForm.applyAtomics {j : List JEntry} (h : s.MemForm) : (applyAtomics s j a).MemForm :=
  h.applyBytes

theorem State.MemForm.applyJournal {j : List JEntry} (h : s.MemForm) : (s.applyJournal j).MemForm := by
  refine .foldl (.foldl h (fun _ _ ht => ?_)) (fun _ _ hu => hu.applyAtomics)
  split
  · exact ht.applyBytes
  · exact ht

/-! ## Machine.Route -/

theorem State.MemForm.setPort {x : FabPort} (h : s.MemForm) : (s.setPort p x).MemForm := h.same rfl

theorem State.MemForm.sendFlit {k : FlitKind} {f : Flit} (h : s.MemForm) : (s.sendFlit p k f).MemForm :=
  .ite h.send.setPort h.send.setPort.send

theorem State.MemForm.pumpFlits {k : Nat} (h : s.MemForm) : (pumpFlits p k s).MemForm := by
  induction k generalizing s with
  | zero => exact h
  | succ k ih =>
    unfold Machine.pumpFlits
    dsimp only
    split
    · exact h
    · exact .ite h (.ite h.sendFlit (ih h.setPort.bump.sendFlit))

theorem State.MemForm.pump (h : s.MemForm) : (s.pump p).MemForm := h.pumpFlits

theorem State.MemForm.pushBytes {vc : BitVec 4} (h : s.MemForm) : (s.pushBytes p vc bs).MemForm :=
  h.setPort.pump

theorem State.MemForm.countPort {inward : Bool} {bytes : Nat} (h : s.MemForm) :
    (s.countPort pk p inward bytes).MemForm :=
  .ite h.updDom h

theorem State.MemForm.countArrival {op : Nat} (h : s.MemForm) : (s.countArrival op pk).MemForm := by
  unfold State.countArrival
  split
  · exact h.countPort
  · exact h

theorem State.MemForm.onWire {op cls : Nat} (h : s.MemForm) : (s.onWire op cls pk).MemForm := by
  refine .ite (h.foldl (fun _ _ ht => ht.countPort.pushBytes)) ?_
  split
  · exact h.countPort.pushBytes
  · exact h

theorem State.MemForm.sendPacket (h : s.MemForm) : (s.sendPacket op pk).MemForm := h.send.onWire

theorem State.MemForm.onMgmt {dsts : List ModIx} (h : s.MemForm) : (s.onMgmt n dsts bs).MemForm :=
  .ite h h.onWire

theorem State.MemForm.sendMgmt {t : MgmtType} {dsts : List ModIx} {data : List Word} (h : s.MemForm) :
    (s.sendMgmt t dsts m data).MemForm :=
  .ite h h.send.onMgmt

theorem State.MemForm.sendExchange (h : s.MemForm) : (s.sendExchange n kind g).MemForm :=
  h.send.foldl (fun _ _ ht => ht.onWire)

theorem State.MemForm.sendRequest {kind : ReqKind} {src : Source} (h : s.MemForm) :
    (s.sendRequest op kind src pk).MemForm :=
  .sendPacket (.ite (.bump (h.same rfl)) (h.same rfl))

/-! ## Machine.TimeBase -/

theorem State.MemForm.setBound (h : s.MemForm) : (s.setBound b).MemForm := h.same rfl

theorem State.MemForm.eachEnabled {f : State → Part → State} (h : s.MemForm)
    (hf : ∀ t l, t.MemForm → (f t l).MemForm) : (s.eachEnabled f).MemForm :=
  h.foldl hf

theorem State.MemForm.holdover (h : s.MemForm) : s.holdover.MemForm :=
  .ite h (.eachEnabled (h.same rfl) (fun _ _ ht => ht.domReport))

theorem State.MemForm.becomeRoot (h : s.MemForm) : s.becomeRoot.MemForm := h.same rfl

theorem State.MemForm.takeParent {r : ModIx} (h : s.MemForm) : (s.takeParent r p k).MemForm := h.same rfl

theorem State.MemForm.takeRole (h : s.MemForm) : s.takeRole.MemForm := by
  refine .ite h.becomeRoot ?_
  split
  · exact h
  · exact h.same rfl

theorem State.MemForm.followRoot (h : s.MemForm) : s.followRoot.MemForm := by
  refine .ite (.ite h.becomeRoot (.holdover (h.same rfl))) ?_
  split
  · exact h.takeParent
  · exact .holdover (h.same rfl)

theorem State.MemForm.reviewRole (h : s.MemForm) : s.reviewRole.MemForm := by
  unfold State.reviewRole
  dsimp only
  split
  · exact h
  · exact h.takeRole
  · refine .ite (.ite h.takeRole ?_) ?_
    · split
      · exact h
      · exact h.setPort.mgmtReport
    · split
      · exact h
      · exact h.followRoot

theorem State.MemForm.parentLost (h : s.MemForm) : (s.parentLost p).MemForm :=
  .ite h (.followRoot (.holdover (h.same rfl)))

theorem State.MemForm.reviewAfterDisable (h : s.MemForm) : s.reviewAfterDisable.MemForm :=
  .ite (h.foldl (fun _ _ ht => ht.setPort)).reviewRole h

theorem State.MemForm.sendTime {ts : List Word} (h : s.MemForm) : (s.sendTime p ts).MemForm :=
  h.send.pushBytes

theorem State.MemForm.execTimeSyncSend (h : s.MemForm) : NextForm (execTimeSyncSend p s) :=
  .lift (h.when (fun _ ht => ht.sendTime))

theorem State.MemForm.timeFrom {time t1 t2 t3 bound : Word} (h : s.MemForm) :
    (s.timeFrom time t1 t2 t3 bound).MemForm :=
  h.same rfl

theorem State.MemForm.execTimeSync {time t1 t2 t3 bound : Word} (h : s.MemForm) :
    NextForm (execTimeSync p time t1 t2 t3 bound s) :=
  .lift (.ite h.timeFrom (h.when (fun _ ht => ht.sendTime)))

theorem State.MemForm.execTbUnlocked {bound : Word} (h : s.MemForm) : NextForm (execTbUnlocked bound s) :=
  .lift (.ite h.setBound (h.setBound.eachEnabled (fun _ _ ht => .ite ht ht.updDom.domReport)))

theorem State.MemForm.execTbPathFail (h : s.MemForm) : NextForm (execTbPathFail s) :=
  .lift (.ite h (.mgmtReport (h.same rfl)))

theorem State.MemForm.execPtpSync {hostTime : Word} (h : s.MemForm) : NextForm (execPtpSync hostTime s) :=
  .lift h.setReg

theorem State.MemForm.execPpsOutPulse (h : s.MemForm) : NextForm (execPpsOutPulse s) :=
  .lift (h.when (fun _ ht => ht.send))

theorem State.MemForm.execPpsInEdge (h : s.MemForm) : NextForm (execPpsInEdge s) :=
  .lift (.ite h (.setReg (h.same rfl)))

theorem State.MemForm.execTbRoleTimeout (h : s.MemForm) : NextForm (execTbRoleTimeout s) :=
  .lift (h.when (fun _ ht => ht.takeRole))

/-! ## Machine.Fabric -/

theorem State.MemForm.sendIdent (h : s.MemForm) : (s.sendIdent p).MemForm := h.sendFlit

theorem State.MemForm.identTick (h : s.MemForm) : s.identTick.MemForm := by
  refine .foldl h (fun _ _ ht => ?_)
  split
  · exact ht.when (fun _ hu => hu.sendIdent)
  · exact ht.when (fun _ hu => hu.sendIdent)
  · exact ht.when (fun _ hu => hu.sendIdent)
  · exact ht

theorem State.MemForm.flood {data : List Word} {but : Option Port} (h : s.MemForm) :
    (s.flood m data but).MemForm :=
  .ite h (h.send.foldl (fun _ _ ht => ht.pushBytes))

theorem State.MemForm.sendLinkState (h : s.MemForm) : s.sendLinkState.MemForm := .flood (h.same rfl)

theorem State.MemForm.routesChanged (h : s.MemForm) : s.routesChanged.MemForm := h.bump.mgmtReport

theorem State.MemForm.portMoved {was now : PortState} (h : s.MemForm) : (s.portMoved p was now).MemForm :=
  .ite h (.ite (.parentLost (.ite h.sendLinkState.routesChanged h)) (.ite (.ite (.takeRole (.ite
      h.sendLinkState.routesChanged h)) (.reviewRole (.ite h.sendLinkState.routesChanged h))) (.ite
      h.sendLinkState.routesChanged h)))

theorem State.MemForm.movePort {x : FabPort} (h : s.MemForm) : (s.movePort p x).MemForm :=
  h.setPort.portMoved

theorem State.MemForm.portDown {event : Bool} (h : s.MemForm) : (s.portDown p event).MemForm :=
  .ite h (.ite h.movePort.bump.mgmtReport h.movePort.bump)

theorem State.MemForm.evaluatePort {r : IdentRecord} (h : s.MemForm) : (s.evaluatePort p r).MemForm := by
  refine .ite h.movePort ?_
  split
  · exact h.movePort.mgmtReport
  · exact h.movePort.mgmtReport
  · exact h.movePort

theorem State.MemForm.takeIdent {r : IdentRecord} (h : s.MemForm) : (s.takeIdent p r).MemForm := by
  refine .ite h ?_
  split
  · exact .ite h.setPort.evaluatePort h.setPort
  · exact .ite h.setPort h.setPort.evaluatePort
  · exact .ite h.setPort h.setPort.evaluatePort
  · exact .ite h.setPort h.setPort.evaluatePort
  · exact h

theorem State.MemForm.execPortTrain (h : s.MemForm) : NextForm (execPortTrain p s) :=
  .lift (h.when (fun _ ht => ht.setPort))

theorem State.MemForm.degraded (h : s.MemForm) : (s.degraded p).MemForm := h.mgmtReport

theorem State.MemForm.execTrainStageComplete {f : TrainFind} (h : s.MemForm) :
    NextForm (execTrainStageComplete p f s) := by
  refine .lift (.ite h ?_)
  dsimp only
  split
  · exact h.setPort
  · split
    · exact h.portDown
    · exact .ite h.setPort.degraded h.setPort
  · exact h.setPort.sendIdent
  · exact h

theorem State.MemForm.execTrainStageTimeout (h : s.MemForm) : NextForm (execTrainStageTimeout p s) :=
  .lift (h.when (fun _ ht => ht.portDown))

theorem State.MemForm.writeRetrain (h : s.MemForm) : (s.writeRetrain p value).MemForm :=
  h.when (fun _ ht => ht.portDown)

theorem State.MemForm.execFabPortRetrain (h : s.MemForm) : NextForm (execFabPortRetrain p value s) :=
  .lift h.writeRetrain

theorem State.MemForm.writePortCtrl (h : s.MemForm) : (s.writePortCtrl p value).MemForm :=
  .ite (.ite h.setReg.setPort h.setReg) h.setReg.portDown.movePort

theorem State.MemForm.execFabPortCtrlWrite (h : s.MemForm) : NextForm (execFabPortCtrlWrite p value s) :=
  .lift h.writePortCtrl

theorem State.MemForm.sendLaneCtl {lane spare pair : Nat} (h : s.MemForm) :
    (s.sendLaneCtl p lane spare pair).MemForm :=
  h.sendFlit

theorem State.MemForm.retireLane {lane : Nat} (h : s.MemForm) : (s.retireLane p lane).MemForm := by
  unfold State.retireLane
  dsimp only
  split
  · exact h.fresh.setPort.writeRepair.sendLaneCtl.mgmtReport
  · split
    · exact h.portDown
    · exact h.setPort.writeRepair.degraded

theorem State.MemForm.execLaneSerWindow {lane : Fin 18} {count : Nat} (h : s.MemForm) :
    NextForm (execLaneSerWindow p lane count s) :=
  .lift (h.bump.when (fun _ ht => ht.retireLane))

theorem State.MemForm.execLaneLockLoss {lane : Fin 18} (h : s.MemForm) : NextForm (execLaneLockLoss p lane s) :=
  .lift (h.when (fun _ ht => ht.retireLane))

theorem State.MemForm.execLaneMoveTimeout (h : s.MemForm) : NextForm (execLaneMoveTimeout p s) :=
  .lift (h.when (fun _ ht => ht.portDown))

theorem State.MemForm.noteAck {f : Flit} (h : s.MemForm) : (s.noteAck p f).MemForm := h.setPort

theorem State.MemForm.takeAck {f : Flit} (h : s.MemForm) : (s.takeAck p f).MemForm := h.noteAck.pump

theorem State.MemForm.sendNak (h : s.MemForm) : (s.sendNak p).MemForm := .ite h h.setPort.bump.sendFlit

theorem State.MemForm.badFlit {f : Flit} (h : s.MemForm) : (s.badFlit p f).MemForm := h.bump.sendNak

theorem State.MemForm.execDataFlit (h : s.MemForm) : NextForm (execDataFlit p fl s) :=
  .lift (.ite h (.ite h.badFlit (.ite h (.ite h.setPort.bump.takeAck.sendFlit h.sendNak))))

theorem State.MemForm.execNak (h : s.MemForm) : NextForm (execNak p fl s) :=
  .lift (.ite h (.ite h.badFlit (h.noteAck.foldl (fun _ _ ht => ht.bump.sendFlit)).pump))

theorem State.MemForm.execIdleFlit (h : s.MemForm) : NextForm (execIdleFlit p fl s) :=
  .lift (.ite h (.ite h.badFlit h.takeAck))

theorem State.MemForm.execIdent (h : s.MemForm) : NextForm (execIdent p fl s) :=
  .lift (.ite h.badFlit (h.takeIdent.when (fun _ ht => ht.takeAck)))

theorem State.MemForm.execLaneCtl {lane : Fin 16} {spare : Fin 18} {c : LaneCtlFlit} (h : s.MemForm) :
    NextForm (execLaneCtl p lane spare c s) :=
  .lift (.ite h (.ite h.badFlit (h.takeAck.when (fun _ ht => ht.setPort.mgmtReport))))

theorem State.MemForm.execLinkNakLimit (h : s.MemForm) : NextForm (execLinkNakLimit p s) :=
  .lift (h.when (fun _ ht => ht.portDown))

theorem State.MemForm.execLinkRxTimeout (h : s.MemForm) : NextForm (execLinkRxTimeout p s) :=
  .lift (h.when (fun _ ht => ht.portDown))

theorem State.MemForm.execLinkState {seqNo : Word} {ports : List Word} (h : s.MemForm) :
    NextForm (execLinkState m seqNo ports s) :=
  .lift (.ite h (.ite h (.ite (.flood (h.same rfl)) (.reviewRole (.routesChanged (.flood (h.same rfl)))))))

theorem State.MemForm.execLinkStateTimer (h : s.MemForm) : NextForm (execLinkStateTimer s) :=
  .lift h.sendLinkState

theorem State.MemForm.installMap (h : s.MemForm) : (s.installMap bs).MemForm := by
  refine .foldl (h.same rfl) (fun _ _ ht => .ite (.ite ht ht.portDown.movePort) ?_)
  split
  · exact .ite ht.setPort ht
  · exact ht.evaluatePort
  · exact ht.evaluatePort
  · exact ht.evaluatePort
  · exact ht

/-! ## Machine.Cadence -/

theorem State.MemForm.idle (h : s.MemForm) : (idle s).MemForm := .ite (.identTick (h.same rfl)) h

/-! ## Machine.Operands -/

theorem State.MemForm.advance {n : Nat} (h : s.MemForm) : (s.advance c n).MemForm := by
  unfold State.advance
  dsimp only
  split
  · exact h.setCore
  · exact h.kill

theorem State.MemForm.jump {pc : Nat} (h : s.MemForm) : (s.jump c pc).MemForm := h.updCore

theorem State.MemForm.issue {i : IssueForm} {skip : Nat} {body : State → State}
    (hbody : ∀ t, t.MemForm → (body t).MemForm) (h : s.MemForm) : (issue c i skip body s).MemForm :=
  .ite h (.ite h.kill (.ite h.kill (.ite h.advance (.ite h.kill (.ite h (hbody _ h))))))

theorem State.MemForm.onCore {words : Nat} {f : Core → Core} (h : s.MemForm) : (onCore c words f s).MemForm :=
  h.updCore.advance

theorem State.MemForm.issue1 {guard : BitVec 4} {reserved inAudit : Bool} {reads : List Dest}
    {body : State → State} (hbody : ∀ t, t.MemForm → (body t).MemForm) (h : s.MemForm) :
    (issue1 c guard reserved inAudit reads body s).MemForm :=
  .issue hbody h

/-! ## Machine.Lx -/

theorem State.MemForm.deliver (h : s.MemForm) : (s.deliver c tag bs).MemForm := h.updCore

theorem State.MemForm.coreRead {n : Nat} (h : s.MemForm) : (s.coreRead c a n).1.MemForm := by
  unfold State.coreRead
  dsimp only
  split
  · exact .fst h.readMem.bump
  · exact .fst h.readMem

theorem State.MemForm.coreWrite (h : s.MemForm) : (s.coreWrite c a bs).1.MemForm := by
  unfold State.coreWrite
  dsimp only
  split
  · exact .fst h.writeMem.bump
  · exact .fst h.writeMem

theorem State.MemForm.orKill {α : Type} {r : State × Except Code α} {f : State → α → State} (h : r.1.MemForm)
    (hf : ∀ t l, t.MemForm → (f t l).MemForm) : (orKill c r f).MemForm := by
  unfold Machine.orKill
  split
  · exact hf _ _ h
  · exact h.kill

theorem State.MemForm.coreRequest {kind : ReqKind} {dst : ModIx} {nr : Bool} (h : s.MemForm) :
    (s.coreRequest c op kind dst a len nr payload).1.MemForm := by
  unfold State.coreRequest
  dsimp only
  split
  · exact .fst (.ite h.bump h)
  · exact .fst h.sendRequest.bump

theorem State.MemForm.readLocal {acc : State × Except Code (List Piece)} {p : Piece} (h : acc.1.MemForm) :
    (State.readLocal c acc p).1.MemForm := by
  unfold State.readLocal
  dsimp only
  split
  · exact h
  · split
    · exact h
    · exact .fst h.coreRead

theorem State.MemForm.poisonResult {kind : ReqKind} (h : s.MemForm) : (s.poisonResult c kind len).MemForm := by
  unfold State.poisonResult
  split
  · exact h.deliver
  · exact .ite h h.deliver
  · exact h

theorem State.MemForm.askPiece {acc : State × Except Code (List Piece)} {p : Piece} (h : acc.1.MemForm) :
    (State.askPiece c acc p).1.MemForm := by
  unfold State.askPiece
  dsimp only
  split
  · exact h
  · exact h
  · split
    · exact h
    · split <;> exact .fst h.coreRequest

theorem State.MemForm.sendWrites {l : List (Option ModIx × Nat × List Byte)} (h : s.MemForm) :
    (State.sendWrites c l s).1.MemForm := by
  induction l generalizing s with
  | nil => exact h
  | cons w l ih =>
    obtain ⟨_ | m, a, bs⟩ := w
    all_goals
      unfold State.sendWrites
      dsimp only
    · split
      · exact h.coreWrite
      · exact ih h.coreWrite
    · split
      · exact h
      · split
        · exact h.coreRequest
        · exact ih h.coreRequest.bump

theorem State.MemForm.keepRun {r : LxRun} (h : s.MemForm) : (s.keepRun c r).MemForm := h.updCore

theorem State.MemForm.finishRun {r : LxRun} (h : s.MemForm) : (s.finishRun c r).MemForm := by
  unfold State.finishRun
  dsimp only
  split
  · split
    · exact .done h.kill
    · trivial
    · exact .done h.updCore
  · exact .done h.updCore

theorem State.MemForm.progress {k : Nat} {r : LxRun} (h : s.MemForm) : (State.progress c k r s).MemForm := by
  induction k generalizing s r with
  | zero => exact .done h.keepRun
  | succ k ih =>
    have hl : (r.pieces.foldl (State.readLocal c) (s, .ok [])).1.MemForm :=
      .foldl_fst h (fun _ _ hq => hq.readLocal)
    unfold State.progress
    generalize r.pieces.foldl (State.readLocal c) (s, .ok []) = l at hl ⊢
    dsimp only
    split
    · exact .done hl.kill
    · refine .ite ?_ ?_
      · refine .ite (.done hl.kill) (.ite (ih hl) (.ite (ih hl) (.ite ?_ hl.finishRun)))
        split
        · exact .done hl.sendWrites.kill
        · exact hl.sendWrites.finishRun
        · exact .done hl.sendWrites.keepRun
      · have hw (ps : List Piece) : (ps.foldl (State.askPiece c) (l.1, .ok [])).1.MemForm :=
          .foldl_fst hl (fun _ _ hq => hq.askPiece)
        split
        · exact .done (hw _).kill
        · exact .done (hw _).keepRun

theorem State.MemForm.recordReplay {id : Nat} {t : Tile} (h : s.MemForm) : (s.recordReplay c id t).MemForm :=
  h.same rfl

theorem State.MemForm.recordStored {id : Nat} {t : Tile} (h : s.MemForm) : (s.recordStored c id t).MemForm := by
  unfold State.recordStored
  split
  · exact .ite h.updCore h.recordReplay
  · exact h.recordReplay

theorem State.MemForm.scalarRequest {kind : ReqKind} {dst : ModIx} {nr : Bool} (h : s.MemForm) :
    (s.scalarRequest c op kind dst a len nr payload).MemForm := by
  refine .ite trivial ?_
  dsimp only
  split
  · exact .done (.kill (.ite h.coreRequest.poisonResult h.coreRequest))
  · exact .done h.coreRequest

theorem State.MemForm.runLx {cmd : StCmd} (h : s.MemForm) : (s.runLx c cmd).MemForm := by
  unfold State.runLx
  dsimp only
  split
  · split
    · exact .done (h.coreRead.orKill (fun _ _ ht => ht.deliver))
    · exact h.scalarRequest
  · split
    · exact .done (h.coreRead.orKill (fun _ _ ht => ht.deliver))
    · exact h.scalarRequest
  · split
    · exact .done (h.coreWrite.orKill (fun _ _ ht => ht))
    · exact h.scalarRequest
  · split
    · exact .done (h.coreWrite.orKill (fun _ _ ht => ht))
    · exact h.scalarRequest
  · split
    · exact .done (h.atomMem.orKill (fun _ _ ht => ht.deliver))
    · exact h.scalarRequest
  · split
    · exact .done h.kill
    · exact h.progress
  · split
    · trivial
    · split
      · exact .done h.kill
      · refine State.MemForm.progress ?_
        split
        · exact h.updCore.recordStored
        · exact h.updCore
  · split
    · exact .done h.kill
    · exact h.progress
  · exact .done h

/-! ## Machine.Derailleur -/

theorem State.MemForm.derReport (h : s.MemForm) : (s.derReport code detail).MemForm := h.mgmtReport

theorem State.MemForm.intCode (h : s.MemForm) : (s.intCode code).MemForm := h.setReg

theorem State.MemForm.snapshot {k : SnapHead} {area : List Byte} (h : s.MemForm) : (s.snapshot k area).MemForm :=
  .ite (.mgmtReport (.bump (h.same rfl))) (.bump (h.same rfl))

theorem State.MemForm.coreReset (h : s.MemForm) : (s.coreReset i).MemForm := .blurred h rfl

theorem State.MemForm.power (h : s.MemForm) : (s.power i).MemForm := h.same rfl

theorem State.MemForm.serve {k : Fin 144} {old : Option SiteId} (h : s.MemForm) : (s.serve i k old).MemForm := by
  unfold State.serve
  dsimp only
  split
  · refine .writeRepair (.power ?_)
    split
    · exact h.setSite.complete
    · exact h.setSite
  · refine .copied (.writeRepair (.power ?_))
    split
    · exact h.setSite.complete
    · exact h.setSite

theorem State.MemForm.moveSlot (h : s.MemForm) : (s.moveSlot i).MemForm := by
  unfold State.moveSlot
  dsimp only
  split
  · exact h
  · split
    · exact h.setSite.serve
    · exact h.setSite.writeRepair.derReport

theorem State.MemForm.quarantine (h : s.MemForm) : (s.quarantine i).MemForm := by
  refine .foldl (.ite (.writeRepair (.ite h.setSite.moveSlot.setSite.update.bump.derReport
      h.setSite.moveSlot.setSite.update.bump.derReport)) (.ite h.setSite.moveSlot.setSite.update.bump.derReport
      h.setSite.moveSlot.setSite.update.bump.derReport)) (fun _ _ ht => ?_)
  split
  · exact ht.complete
  · exact ht

theorem State.MemForm.fillVacant (h : s.MemForm) : (s.fillVacant d).MemForm := by
  unfold State.fillVacant
  split
  · exact h.serve
  · exact h

theorem State.MemForm.quarantineLater {f : Option Frame} (h : s.MemForm) : (s.quarantineLater i f).MemForm := by
  unfold State.quarantineLater
  dsimp only
  split
  · exact .quarantine (h.same rfl)
  · exact h.same rfl

theorem State.MemForm.returnSlot (h : s.MemForm) : (s.returnSlot i).MemForm := by
  unfold State.returnSlot
  dsimp only
  split
  · exact h.same rfl
  · refine .ite (h.same rfl) ?_
    split
    · exact .writeRepair (.setSite (h.same rfl))
    · exact .coreReset (.copied (.writeRepair (.setSite (.setSite (h.same rfl)))))

theorem State.MemForm.rotate (h : s.MemForm) : (s.rotate i).MemForm :=
  .ite h (.ite (h.same rfl) (.bump (.setSite (.moveSlot (h.same rfl)))))

theorem State.MemForm.derMoves {mine back : State → SiteId → Bool} (h : s.MemForm) :
    (s.derMoves mine back).MemForm :=
  ((h.foldl (fun _ _ ht => .ite ht.quarantine ht)).foldl (fun _ _ hu => hu.returnSlot)).foldl (fun _ _ hv =>
      hv.rotate)

theorem State.MemForm.derFree (h : s.MemForm) : s.derFree.MemForm := h.derMoves

theorem State.MemForm.derCommit (h : s.MemForm) : (s.derCommit n).MemForm := by
  unfold State.derCommit
  exact h.derMoves

theorem State.MemForm.derRestore (h : s.MemForm) : (s.derRestore n j).MemForm :=
  .foldl (h.same rfl) (fun _ _ ht => .ite ht.quarantine ht)

theorem State.MemForm.injectedMismatch (h : s.MemForm) : (s.injectedMismatch c).MemForm := by
  unfold State.injectedMismatch
  dsimp only
  split
  · exact h.setReg.bump.bump
  · exact h.setReg.bump.bump.segError.intCode

theorem State.MemForm.residueMismatch {w a : TileView} {e : ResidueErr} (h : s.MemForm) :
    (s.residueMismatch c w a e).MemForm := by
  unfold State.residueMismatch
  dsimp only
  split
  · exact h.bump.bump.snapshot.intCode.update.segError.update
  · exact h.bump.bump

theorem State.MemForm.ballastMismatch {e : BallastErr} (h : s.MemForm) : (s.ballastMismatch e).MemForm :=
  h.bump.bump.snapshot.update.mgmtReport.quarantineLater

theorem State.MemForm.drawSample (h : s.MemForm) : (s.drawSample c).1.MemForm := by
  unfold State.drawSample
  dsimp only
  split
  all_goals
    split
    all_goals
      split
      · exact h
      · split
        · exact .fst h.fresh
        · split <;> exact .fst h.fresh.bump

theorem State.MemForm.openUnit {unit : BitVec 16} (h : s.MemForm) : (s.openUnit c unit).MemForm :=
  h.drawSample.setCore

theorem State.MemForm.closeUnit (h : s.MemForm) : (s.closeUnit c).MemForm := by
  unfold State.closeUnit
  dsimp only
  split
  · exact h
  · split
    · exact h.setCore.bump.update
    · exact h.setCore.bump

theorem State.MemForm.cancelReplays (h : s.MemForm) : (s.cancelReplays n j).MemForm := h.same rfl

theorem State.MemForm.setReplays {l : List Replay} (h : s.MemForm) : (s.setReplays d l).MemForm := h.same rfl

theorem State.MemForm.startReplay (h : s.MemForm) : (s.startReplay d).MemForm := by
  unfold State.startReplay
  split
  · exact h
  · exact h.setReplays.bump

theorem State.MemForm.originalAtFault {r : Replay} (h : s.MemForm) : (s.originalAtFault r i).MemForm :=
  h.segError.intCode.update

theorem State.MemForm.judge {r : Replay} (h : s.MemForm) (e : s.judge d r = some t) : t.MemForm := by
  unfold State.judge at e
  dsimp only at e
  split at e
  · split at e
    · cases e
      exact h
    · cases e
  · split at e
    · cases e
      exact h.snapshot.mgmtReport.quarantineLater
    · split at e
      · cases e
        exact h.snapshot.originalAtFault
      · cases e
        split
        · exact h.snapshot.originalAtFault.quarantineLater
        · exact h.snapshot.originalAtFault.update
  · cases e
    exact h

theorem State.MemForm.endReplay {digest : Option (List Byte)} (h : s.MemForm) : (s.endReplay d digest).MemForm := by
  unfold State.endReplay
  dsimp only
  split
  · exact h
  · split
    · exact h
    · have hb {p : Prop} {i : Decidable p} : (if p then s.bump .intAuditMismatches 0 0 1 else s).MemForm := .ite
        h.bump h
      split
      · exact hb.setReplays
      · exact (hb.judge ‹_›).setReplays

theorem State.MemForm.startScan (h : s.MemForm) : (s.startScan d).MemForm := by
  refine .ite h ?_
  split
  · exact h
  · exact h.setSite

theorem State.MemForm.scanAnswer {f : Option Frame} {pass : Bool} (h : s.MemForm) :
    (s.scanAnswer f pass).MemForm := by
  unfold State.scanAnswer
  split
  · exact h
  · exact h.complete

theorem State.MemForm.scanPassed (h : s.MemForm) : (s.scanPassed i).MemForm := by
  refine .ite h.coreReset.setSite.fillVacant ?_
  dsimp only
  split
  · exact h.coreReset.setSite.derReport.fillVacant
  · split
    · exact h.setSite.power.derReport.returnSlot
    · exact h.setSite.power.derReport.update

theorem State.MemForm.scanFailed (h : s.MemForm) : (s.scanFailed i).MemForm :=
  h.setSite.bump.bump.derReport.writeRepair

theorem State.MemForm.endScan {pass : Bool} (h : s.MemForm) : (s.endScan d pass).MemForm := by
  unfold State.endScan
  dsimp only
  split
  · exact h
  · exact .scanAnswer (.ite h.bump.scanPassed h.bump.scanFailed)

theorem State.MemForm.planRotation (h : s.MemForm) : (s.planRotation d).MemForm := by
  refine .ite h ?_
  split
  · exact h
  · refine .ite h ?_
    split
    · exact .rotate (h.same rfl)
    · exact h.same rfl

theorem State.MemForm.killDie {d : Nat} (h : s.MemForm) : (s.killDie d).MemForm :=
  h.foldl (fun _ _ ht => .ite ht.kill ht)

theorem State.MemForm.pllLost {d : Fin 20} (h : s.MemForm) : (s.pllLost d).MemForm := by
  unfold State.pllLost
  dsimp only
  split <;> exact .derReport (.ite h.setReg.snapshot.bump.killDie.intCode h.setReg)

/-! ## Machine.Coll -/

theorem State.MemForm.setInsts {l : List CollInst} (h : s.MemForm) : (s.setInsts l).MemForm := h.same rfl

theorem State.MemForm.putInst {x : CollInst} (h : s.MemForm) : (s.putInst x).MemForm :=
  .ite h.setInsts h.setInsts

theorem State.MemForm.dropInst {k : CollKey} (h : s.MemForm) : (s.dropInst k).MemForm := h.setInsts

theorem State.MemForm.allCes {f : State → Nat → State} (h : s.MemForm) (hf : ∀ t l, t.MemForm → (f t l).MemForm) :
    (s.allCes f).MemForm :=
  h.foldl hf

theorem State.MemForm.collFault {k : CollKey} (h : s.MemForm) : (s.collFault k code).MemForm := by
  unfold State.collFault
  dsimp only
  split
  · exact h
  · exact (h.putInst.allCes (fun _ _ ht => ht.setReg)).foldl (fun _ _ hu => .ite hu hu.kill)

theorem State.MemForm.sendShare {k : CollKey} (h : s.MemForm) : (s.sendShare k).MemForm := by
  unfold State.sendShare
  dsimp only
  split
  · exact h
  · refine .foldl h.putInst (fun _ _ ht => ?_)
    split
    · exact .collFault (.ite ht.bump ht)
    · exact ht.foldl (fun _ _ hu => .ite hu.sendPacket.bump hu.sendPacket)

theorem State.MemForm.collWrite {c : Contribution} {t : Tile} (h : s.MemForm) :
    (s.collWrite n seg c t).1.MemForm := by
  unfold State.collWrite
  dsimp only
  split
  · exact h
  · split
    · exact h
    · refine .foldl_fst h (fun _ _ ht => ?_)
      split
      · exact ht
      · exact .fst ht.writeMem
      · split
        · exact .fst (.ite ht.bump ht)
        · exact .fst ht.sendRequest

theorem State.MemForm.deliverColl {x : CollInst} {t : Tile} {all i : Nat} {c : Contribution} (h : s.MemForm) :
    (s.deliverColl x t all i c).MemForm := by
  refine .ite h (.ite h.updCore ?_)
  dsimp only
  split
  · exact (h.collWrite.allCes (fun _ _ ht => ht.setReg)).kill
  · exact .updCore (.ite (.allCes (.ite (h.collWrite.allCes (fun _ _ hu => hu.bump)) h.collWrite) (fun _ _ hv =>
      hv.bump)) (.ite (h.collWrite.allCes (fun _ _ hw => hw.bump)) h.collWrite))

theorem State.MemForm.finishInst {x : CollInst} {t : Tile} {bytes : Nat} (h : s.MemForm) :
    (s.finishInst x t bytes).MemForm :=
  ((h.foldl (fun _ _ ht => ht.deliverColl)).allCes (fun _ _ hu => hu.bump.bump)).dropInst

theorem State.MemForm.collStep {k : CollKey} (h : s.MemForm) : (s.collStep k).MemForm := by
  unfold State.collStep
  dsimp only
  split
  · exact h
  · refine .ite h ?_
    split
    · exact h.collFault.sendShare
    · split
      · exact .ite h.sendShare h
      · split <;> exact .ite (.finishInst (.ite h.sendShare h)) (.ite h.sendShare h)

theorem State.MemForm.contribute {r : CollRun} {g : List Byte} {t : Tile} (h : s.MemForm) :
    (s.contribute c r g t).MemForm :=
  .ite h.kill (.ite h.updCore.kill (.ite h.updCore.kill (.ite h.updCore.putInst.collFault.sendShare (.ite
      h.updCore.putInst.collStep.updCore h.updCore.putInst.collStep))))

theorem State.MemForm.collPiece {acc : State × Except Code (List Piece)} {p : Piece} (h : acc.1.MemForm) :
    (State.collPiece c acc p).1.MemForm := by
  unfold State.collPiece
  dsimp only
  split
  · exact h
  · split
    · exact h
    · split
      · exact .fst h.readMem
      · split
        · exact h
        · split
          · exact .fst (.ite h.bump h)
          · exact .fst h.sendRequest

theorem State.MemForm.carryColl {k : Nat} (h : s.MemForm) (e : State.carryColl c k s = some t) : t.MemForm := by
  induction k generalizing s with
  | zero => cases e
  | succ k ih =>
    unfold State.carryColl at e
    split at e
    · cases e
    next r rest _ =>
      have hl : (r.pieces.foldl (State.collPiece c) (s, .ok [])).1.MemForm :=
        .foldl_fst h (fun _ _ hq => hq.collPiece)
      generalize r.pieces.foldl (State.collPiece c) (s, .ok []) = l at hl e
      dsimp only at e
      split at e
      · cases e
        exact hl.kill
      · split at e
        · split at e
          · exact ih hl.updCore e
          · cases e
            exact hl.updCore.contribute
        · split at e
          · cases e
          · cases e
            exact hl.updCore

/-! ## Machine.MxStation -/

theorem State.MemForm.updMx {f : Mx → Mx} (h : s.MemForm) : (s.updMx c f).MemForm := h.updCore

theorem State.MemForm.countLoad {v : TileView} {ocap : Nat} (h : s.MemForm) : (s.countLoad c v ocap).MemForm :=
  h.health.health

theorem State.MemForm.runMxld {earlier : List StCmd} (h : s.MemForm) : (s.runMxld c q earlier).MemForm := by
  unfold State.runMxld
  dsimp only
  split
  · exact .ite trivial (.done h.kill)
  · split
    · trivial
    · split
      · exact .done h.kill
      · exact .done h.updCore.countLoad

theorem State.MemForm.mxPass {w a : TileView} {ocap : Nat} {acc : Bool} {anchor : BitVec 16} (h : s.MemForm) :
    (s.mxPass c w a ocap set acc anchor err).1.MemForm := by
  unfold State.mxPass
  dsimp only
  split
  · exact h
  · split
    · exact h
    · split
      all_goals
        refine .fst ?_
        split
        · exact (h.updCore.bump.bump.bump.when (fun _ ht => ht.injectedMismatch)).when (fun _ hu =>
            hu.residueMismatch)
        · exact h.updCore.bump.bump.bump.when (fun _ hu => hu.injectedMismatch)

theorem State.MemForm.runMxrun {acc rel : Bool} {earlier : List StCmd} (h : s.MemForm) :
    (s.runMxrun c q td set acc rel err earlier).MemForm := by
  unfold State.runMxrun
  dsimp only
  split
  · exact .ite trivial (.done h.kill)
  · refine .ite trivial ?_
    split
    · trivial
    · split
      · exact .done h.kill
      · split
        · exact .done h.kill
        · split
          · exact .done h.updCore.mxPass.kill
          · exact .done (.ite h.updCore.mxPass.updMx h.updCore.mxPass)

theorem State.MemForm.countReadout {r : Readout} (h : s.MemForm) : (s.countReadout c r).MemForm :=
  h.health.health.health.health

theorem State.MemForm.runMxout (h : s.MemForm) : (s.runMxout c q td set).MemForm := by
  unfold State.runMxout
  dsimp only
  split
  · exact .done h.kill
  · split
    · exact .done h.kill
    · trivial
    · exact .done h.updCore.countReadout

theorem State.MemForm.runMxsave (h : s.MemForm) : (s.runMxsave c addr set).MemForm :=
  .done (h.coreWrite.orKill (fun _ _ ht => ht.updMx))

theorem State.MemForm.runMxrst (h : s.MemForm) : (s.runMxrst c addr td set).MemForm := by
  unfold State.runMxrst
  split
  · exact .done h.kill
  · refine .done (h.coreRead.orKill (fun t bs ht => ?_))
    split
    · exact ht.kill
    · exact ht.updMx

theorem State.MemForm.readTile {d : Desc} (h : s.MemForm) : (s.readTile c d).1.MemForm := by
  unfold State.readTile
  dsimp only
  split
  · refine .fst (.foldl_fst h (fun _ _ ht => ?_))
    split
    · exact ht
    · exact .fst ht.coreRead
  · split
    · split
      · refine .fst (.foldl_fst h (fun _ _ hu => ?_))
        split
        · exact hu
        · exact .fst hu.coreRead
      · refine .fst (.coreRead (.fst (.foldl_fst h (fun _ _ hv => ?_))))
        split
        · exact hv
        · exact .fst hv.coreRead
    · refine .fst (.foldl_fst h (fun _ _ hw => ?_))
      split
      · exact hw
      · exact .fst hw.coreRead

/-- The checks of the descriptor are taken apart before anything is reduced: they are sums with powers of two that do not
reduce. -/
theorem State.MemForm.walkTile {act : TileView} {e : GroupEntry} {row m n k : Nat} {acc : State × Option Code}
    (h : acc.1.MemForm) :
    (State.walkTile c td act err e set row m n acc k).1.MemForm := by
  unfold State.walkTile
  extract_lets +onlyGivenNames d
  have hr : (acc.1.readTile c d).1.MemForm := h.readTile
  generalize acc.1.readTile c d = r at hr ⊢
  clear_value d
  obtain ⟨v, code | t⟩ := r <;> rcases descCheck d true with _ | code'
  all_goals
    dsimp only at hr ⊢
    split
    · exact h
  · exact hr
  · exact h
  · split
    · exact .fst hr
    · split
      · exact .fst hr
      · exact hr.countLoad.mxPass
  · exact h

theorem State.MemForm.walkOut {e : GroupEntry} {f : Fmt} {tok n : Nat} (h : s.MemForm) :
    (s.walkOut c td e f set tok n).1.MemForm := by
  refine .countReadout (.updMx (.foldl_fst h (fun _ _ ht => ?_)))
  dsimp only
  split
  · exact ht
  · split <;> exact .fst ht.coreWrite

theorem State.MemForm.walkPair {act : TileView} {e : GroupEntry} {f : Fmt} {acc : State × Option Code × Bool}
    {gn : Nat × Nat} (h : acc.1.MemForm) : (State.walkPair c td act err e f acc gn).1.MemForm := by
  unfold State.walkPair
  dsimp only
  split
  · exact h
  · split
    · exact .fst (.foldl_fst (.fst h.updMx) (fun _ _ ht => ht.walkTile))
    · exact .fst (.walkOut (.foldl_fst (.fst h.updMx) (fun _ _ hu => hu.walkTile)))

theorem State.MemForm.walkFrom {act : TileView} {f : Fmt} {table k pos : Nat} (h : s.MemForm) :
    (State.walkFrom c td act err f table k pos set s).1.MemForm := by
  induction k generalizing s pos set with
  | zero => exact h
  | succ k ih =>
    have hr := (h.setReg (r := .mxWalkPos) (i := s.coreIx c) (j := 0) (v := BitVec.ofNat 64 pos)).coreRead
      (c := c) (a := table + 32 * pos) (n := 32)
    unfold State.walkFrom
    dsimp only
    split
    · exact hr
    · split
      · exact hr
      next e _ =>
        split
        · exact hr
        · have ho (u : State) (hu : u.MemForm) :
              (e.pairs.foldl (State.walkPair c td act err e f) (u, none, set)).1.MemForm :=
            .foldl_fst hu (fun _ _ hq => hq.walkPair)
          split
          · exact ho _ hr.updMx
          · split
            · exact ho _ hr.updMx
            · exact ih (ho _ hr.updMx)

/-- The checks of the descriptor are taken apart before anything is reduced: they are sums with powers of two that do not
reduce. -/
theorem State.MemForm.runMxwalk (h : s.MemForm) : (s.runMxwalk c q td addr err tag).MemForm := by
  unfold State.runMxwalk
  rcases readoutCheck (descSet 0 56 4 (Config.walkFormat td)) with _ | code <;>
    rcases Fmt.ofCode (descFmt td) with _ | f
  all_goals
    dsimp only
    split
    · trivial
    · trivial
    refine .ite trivial ?_
  · exact .done h.kill
  · refine .ite (.done h.kill) (.ite (.done h.kill) (.ite (.done h.kill) (.ite (.done h.kill) (.done ?_))))
    split
    · exact h.updCore.walkFrom.kill
    · exact h.updCore.walkFrom
  · exact .done h.kill
  · exact .ite (.done h.kill) (.ite (.done h.kill) (.ite (.done h.kill) (.ite (.done h.kill) (.done h.kill))))

theorem State.MemForm.claim (h : s.MemForm) : (s.claim c a).1.MemForm := by
  unfold State.claim
  dsimp only
  split
  · exact .fst h.readMem
  · split
    · exact .fst h.readMem.updMx
    · split
      · exact .fst h.readMem.writeMem.writeMem.readMem
      · exact .fst h.readMem.writeMem.writeMem.readMem
      · exact .fst h.readMem.writeMem.writeMem.readMem
      · split
        · exact .fst h.readMem.writeMem.writeMem.readMem.update.bump
        · exact .fst h.readMem.writeMem.writeMem.readMem.update.bump.updMx

theorem State.MemForm.restoreClaims (h : s.MemForm) : (s.restoreClaims n j).MemForm :=
  (h.foldl (fun _ _ ht => ht.putBytes)).update

theorem State.MemForm.runMx {earlier : List StCmd} {cmd : StCmd} (h : s.MemForm) :
    (s.runMx c earlier cmd).MemForm := by
  unfold State.runMx
  split
  · exact h.runMxld
  · exact h.runMxrun
  · exact .ite trivial h.runMxout
  · exact h.runMxsave
  · exact h.runMxrst
  · exact h.runMxwalk
  · exact .done h

/-! ## Machine.Kv -/

theorem State.MemForm.stationFault (h : s.MemForm) : (s.stationFault r c code).MemForm := by
  unfold State.stationFault
  exact .kill (.ite h.setReg h)

theorem State.MemForm.setPool {p : KvPool} (h : s.MemForm) : (s.setPool d n p).MemForm := h.same rfl

theorem State.MemForm.restOf {α : Type} {r : State × Except Code α} (h : r.1.MemForm) : (restOf r).MemForm := by
  unfold Machine.restOf
  split
  · exact h
  · exact h.lastCode

theorem State.MemForm.putMapWord {ix v : Nat} (h : s.MemForm) : (s.putMapWord d n e ix v).MemForm :=
  h.writeMem.restOf

theorem State.MemForm.clearMap (h : s.MemForm) : (State.clearMap n e s d).MemForm := h.writeMem.restOf

theorem State.MemForm.enterMap {acc : State × Option Code} {x : Nat × Nat × Nat × Nat} (h : acc.1.MemForm) :
    (State.enterMap n d acc x).1.MemForm := by
  unfold State.enterMap
  dsimp only
  split
  · exact h
  · split
    all_goals
      refine .fst (.writeMem ?_)
      split
      · exact h.keepBefore
      · exact h

theorem State.MemForm.updBatch {f : Batch → Batch} (h : s.MemForm) : (s.updBatch n f).MemForm := h.setSvPart

theorem State.MemForm.addShared {station fn : Nat} {a r : Word} (h : s.MemForm) :
    (s.addShared d n station fn a b seg r).MemForm :=
  h.updBatch

theorem State.MemForm.answerAlloc {rows : List Nat} {r : Word} (h : s.MemForm) :
    (s.answerAlloc c n tag rows r).MemForm := by
  unfold State.answerAlloc
  dsimp only
  split
  · exact h.deliver
  · exact h.setPool

theorem State.MemForm.kvAlloc {a : Word} (h : s.MemForm) : (s.kvAlloc c n tag a b).MemForm := by
  unfold State.kvAlloc
  dsimp only
  split
  · exact h.answerAlloc
  · refine .ite h.deliver ?_
    split
    · exact h.stationFault
    · split
      · exact .stationFault (.foldl_fst (.fst h.setPool.bump) (fun _ _ ht => ht.enterMap))
      · exact .answerAlloc (.addShared (.updBatch (.foldl_fst (.fst h.setPool.bump) (fun _ _ hu => hu.enterMap))))

theorem State.MemForm.kvPageCmd {a : Word} (h : s.MemForm) : (s.kvPageCmd c n tag a b).MemForm := h.deliver

theorem State.MemForm.copyPage {p : Nat × Nat} (h : s.MemForm) : (State.copyPage d n s p).MemForm := by
  unfold State.copyPage
  dsimp only
  split
  · exact h.readMem.lastCode
  · exact h.readMem.writeMem.restOf

theorem State.MemForm.copyPages {l : List (Nat × Nat)} (h : s.MemForm) : (s.copyPages d n l).MemForm :=
  h.foldl (fun _ _ ht => ht.copyPage)

theorem State.MemForm.pageCopyDone (h : s.MemForm) : (s.pageCopyDone d n e).MemForm :=
  h.setPool.foldl (fun _ _ ht => ht.deliver)

theorem State.MemForm.kvRewindDie (h : s.MemForm) : (State.kvRewindDie n j s d).MemForm :=
  .ite h (h.setPool.foldl (fun _ _ ht => ht.putMapWord))

theorem State.MemForm.kvRewind (h : s.MemForm) : (s.kvRewind n j).MemForm :=
  h.foldl (fun _ _ ht => ht.kvRewindDie)

theorem State.MemForm.freeList {ixs : List Nat} (h : s.MemForm) : (s.freeList d n e ixs).MemForm :=
  h.setPool.foldl (fun _ _ ht => ht.putMapWord)

theorem State.MemForm.freeEntry (h : s.MemForm) : (State.freeEntry n e s d).MemForm :=
  .ite h.freeList.setPool h.freeList

theorem State.MemForm.kvPublishDie (h : s.MemForm) : (State.kvPublishDie n s d).MemForm :=
  .ite h (h.setPool.foldl (fun _ _ ht => .ite ht.freeList ht))

theorem State.MemForm.kvPublish (h : s.MemForm) : (s.kvPublish n).MemForm :=
  h.foldl (fun _ _ ht => ht.kvPublishDie)

theorem State.MemForm.demoteDie (h : s.MemForm) : (State.demoteDie n e s d).MemForm := by
  refine .ite h ?_
  split
  · exact h.partReport
  · exact h.copyPages.setPool.foldl (fun _ _ ht => ht.putMapWord)

theorem State.MemForm.promoteDie (h : s.MemForm) : (State.promoteDie n e tick s d).MemForm := by
  refine .ite h ?_
  split
  · exact h
  · exact h.setPool

theorem State.MemForm.switchDie (h : s.MemForm) : (State.switchDie n tick s d).MemForm :=
  h.foldl (fun _ _ ht => ht.copyPages.setPool.foldl (fun _ _ hu => hu.putMapWord))

theorem State.MemForm.cutDie (h : s.MemForm) : (State.cutDie n e s d).MemForm := .ite h h.setPool

/-! ## Machine.Vx -/

theorem State.MemForm.runVx {fn : BitVec 8} {q3 rfmt : BitVec 4} {bm cm : BitVec 2} {sx sy : Word} (h : s.MemForm) :
    (s.runVx c fn q0 q1 q2 q3 rfmt bm cm sx sy).MemForm := by
  unfold State.runVx
  dsimp only
  split
  · refine .ite (.done h.kill) (.ite (.done h.kill) (.ite (.done h.kill) ?_))
    split
    · exact .done h.kill
    · trivial
    · exact .done (.ite h.setCore.bump.bump.bump h.setCore.bump.bump)
  · trivial

/-! ## Machine.Sampler -/

theorem State.MemForm.setEntry {x : Entry} (h : s.MemForm) : (s.setEntry e x).MemForm := h.same rfl

theorem State.MemForm.tableWrite {off : Nat} (h : s.MemForm) : (s.tableWrite off bs).MemForm :=
  .ite h.lastCode h.putBytes

theorem State.MemForm.putEntry {x : Entry} (h : s.MemForm) : (s.putEntry e x).MemForm :=
  h.setEntry.tableWrite

theorem State.MemForm.svSend {addr : Nat} {m : ModIx} (h : s.MemForm) : (s.svSend c n addr bs m).MemForm := by
  unfold State.svSend
  dsimp only
  split
  · exact .kill (.ite h.bump h)
  · exact h.sendRequest

theorem State.MemForm.checkSeq (h : s.MemForm) : (s.checkSeq c n e).MemForm := by
  unfold State.checkSeq
  dsimp only
  split
  · exact h
  · exact .ite h (h.updBatch.foldl (fun _ _ ht => ht.svSend))

theorem State.MemForm.stopchk {first count : Nat} (h : s.MemForm) : (s.stopchk c n first count).MemForm :=
  h.foldl (fun _ _ ht => ht.checkSeq)

theorem State.MemForm.checkAtEnd (h : s.MemForm) : (s.checkAtEnd c n).MemForm :=
  h.foldl (fun _ _ ht => ht.checkSeq)

theorem State.MemForm.feedRow {mode vocab k : Nat} {codes : List Nat} (h : s.MemForm)
    (e : s.feedRow c n mode vocab codes k = some t) : t.MemForm := by
  unfold State.feedRow at e
  dsimp only at e
  split at e
  · cases e
  · split at e
    · cases e
      exact h
    · split at e
      · cases e
      · cases e
        exact h.updBatch

theorem State.MemForm.feedRows {mode vocab row : Nat} {codes : List (List Nat)} {l : List Nat} {o : Option State}
    (h : ∀ u, o = some u → u.MemForm)
    (e : l.foldl (fun acc i => acc.bind (fun u => u.feedRow c n mode vocab (codes.getD i []) (row + i))) o = some t) :
    t.MemForm := by
  induction l generalizing o with
  | nil => exact h t e
  | cons i l ih =>
    refine ih (fun u hu => ?_) e
    obtain ⟨v, hv, huv⟩ := Option.bind_eq_some_iff.1 hu
    exact (h v hv).feedRow huv

theorem State.MemForm.sampleRow {mode : Nat} {r : BatchRow} {e : Entry} (h : s.MemForm) :
    (s.sampleRow c n mode k r e).MemForm := by
  refine .ite (.foldl (.updBatch (.bump (.ite (.bump (.bump ?_)) (.bump ?_)))) (fun _ _ ht => ht.svSend))
      (.updBatch (.ite (.bump (.bump ?_)) (.bump ?_)))
  all_goals
    split
    · exact h
    · exact h.fresh

theorem State.MemForm.runSample {outp last : Bool} {mode row vocab : Nat} (h : s.MemForm) :
    (s.runSample c q0 q1 outp mode last row vocab).MemForm := by
  unfold State.runSample
  split
  · trivial
  · refine .ite trivial (.ite (.done h.kill) ?_)
    dsimp only
    split
    next u hfed _ =>
      have hu : u.MemForm := .feedRows (fun v hv => by cases hv; exact h.updCore) hfed
      refine .ite (.done hu) (.ite (.done hu.stationFault) ?_)
      have hsample : ∀ (t : State) (p : Nat × BatchRow), t.MemForm → (match t.entry? p.2.entry with
          | some e => if takesSample mode p.2 p.1 then t.sampleRow c ((s.partOf c).getD 0) mode p.1 p.2 e else t
          | none => t).MemForm := fun t p ht => by
        split
        · exact .ite ht.sampleRow ht
        · exact ht
      exact .ite (.done (.foldl (hu.foldl hsample) fun _ _ ht => ht.bump.updBatch))
        (.done (.updCore (.foldl (hu.foldl hsample) fun _ _ ht => ht.bump.updBatch)))
    · exact .done h.updCore.stationFault

theorem State.MemForm.draftsync {a : Word} (h : s.MemForm) : (s.draftsync c n tag a b).MemForm :=
  .ite h.deliver (.ite h.deliver h.updBatch)

theorem State.MemForm.wakeSyncs (h : s.MemForm) : (s.wakeSyncs n).MemForm :=
  .ite (h.updBatch.foldl (fun _ _ ht => ht.deliver)) h

theorem State.MemForm.svYield {a : Word} (h : s.MemForm) : (s.svYield c n tag a).MemForm := h.deliver

theorem State.MemForm.svReceive {addr : Nat} (h : s.MemForm) : (s.svReceive n d seg addr bs).MemForm :=
  .ite h.updBatch (.ite h.updBatch.wakeSyncs h)

/-! ## Machine.Tx -/

theorem State.MemForm.mergeAt {q : QCounts} (h : s.MemForm) : (s.mergeAt c td q).1.MemForm := by
  unfold State.mergeAt
  dsimp only
  split
  · exact .fst h.readMem
  · exact h.readMem.writeMem

theorem State.MemForm.txEmit {indexed : Bool} {src r : Tile} (h : s.MemForm) :
    (s.txEmit c q0 q1 q2 indexed td src r).MemForm := by
  unfold State.txEmit
  dsimp only
  split
  · exact .done h.kill
  · trivial
  · exact .done h.setCore.bump

theorem State.MemForm.runQuant {src : Tile} (h : s.MemForm) : (s.runQuant c q0 q1 q2 td src).MemForm := by
  unfold State.runQuant
  dsimp only
  refine .ite (.done h.kill) (.ite (.done h.kill) ?_)
  split
  · trivial
  · trivial
  next s1 e =>
    have h1 : s1.MemForm := h.txEmit.of_done e
    refine .ite (.done h1) (.ite (.done h1.health.health.health.health.kill) (.done ?_))
    split
    · exact h1.health.health.health.health.mergeAt.kill
    · exact h1.health.health.health.health.mergeAt

theorem State.MemForm.runTx {fn : BitVec 8} {rows : Word} (h : s.MemForm) :
    (s.runTx c fn q0 q1 q2 td rows).MemForm := by
  unfold State.runTx
  dsimp only
  split
  · split
    · exact .done h.kill
    · refine .ite (.done h.kill) (.ite h.runQuant ?_)
      split
      · exact .done h.kill
      · split
        · trivial
        · trivial
        next s1 e => exact .done (.ite (h.txEmit.of_done e).health (h.txEmit.of_done e))
  · trivial

/-! ## Machine.Settle -/

theorem State.MemForm.firstRun {run : List StCmd → StCmd → Ran} {busy conflict : StCmd → StCmd → Bool}
    {before l : List StCmd} {r : State × List StCmd}
    (hrun : ∀ ys x, (run ys x).MemForm)
    (e : firstRun run busy conflict before l = some r) : r.1.MemForm := by
  induction l generalizing before with
  | nil => cases e
  | cons x l ih =>
    unfold Machine.firstRun at e
    split at e
    · cases e
    · split at e
      · exact ih e
      · have hx := hrun before x
        split at e
        next hd =>
          cases e
          exact hx.of_done hd
        · exact ih e
        · cases e

theorem State.MemForm.vxCmd {cmd : StCmd} (h : s.MemForm) : (s.vxCmd c cmd).MemForm := by
  unfold State.vxCmd
  split
  · exact .ite trivial h.runVx
  · exact .done h

theorem State.MemForm.txCmd {cmd : StCmd} (h : s.MemForm) : (s.txCmd c cmd).MemForm := by
  unfold State.txCmd
  split
  · exact .ite trivial h.runTx
  · exact .done h

theorem State.MemForm.svCmd {cmd : StCmd} (h : s.MemForm) : (s.svCmd c cmd).MemForm := by
  unfold State.svCmd
  split
  · exact h.runSample
  · exact .done h

theorem State.MemForm.lxCmd {y : StCmd} (h : s.MemForm) : (s.lxCmd c y).MemForm := by
  unfold State.lxCmd
  dsimp only
  split
  · exact .ite trivial h.runLx
  · exact .ite trivial (.ite trivial h.runLx)

theorem State.MemForm.putQueue {f : Core → List StCmd → Core} {r : State × List StCmd} (h : r.1.MemForm) :
    (putQueue c f r).MemForm :=
  h.updCore

theorem State.MemForm.carryOn (h : s.MemForm) (e : s.carryOn c = some t) : t.MemForm := by
  obtain ⟨r, -, hr⟩ := List.exists_of_findSome?_eq_some e
  have hp : (State.progress c 4 r s).MemForm := h.progress
  split at hr
  next hd =>
    split at hr
    · cases hr
    · cases hr
      exact hp.of_done hd
  all_goals cases hr

theorem State.MemForm.settleOnce (h : s.MemForm) (e : s.settleOnce c = some t) : t.MemForm := by
  unfold State.settleOnce at e
  dsimp only at e
  split at e
  · cases e
  split at e
  next hr =>
    cases e
    exact (State.MemForm.firstRun (fun _ _ => h.runMx) hr).putQueue
  split at e
  next hr =>
    cases e
    exact (State.MemForm.firstRun (fun _ _ => h.vxCmd) hr).putQueue
  split at e
  next hr =>
    cases e
    exact (State.MemForm.firstRun (fun _ _ => h.txCmd) hr).putQueue
  split at e
  next hr =>
    cases e
    exact h.carryOn hr
  split at e
  next hr =>
    cases e
    exact (State.MemForm.firstRun (fun _ _ => h.lxCmd) hr).putQueue
  split at e
  next hr =>
    cases e
    exact (State.MemForm.firstRun (fun _ _ => h.svCmd) hr).putQueue
  · exact h.carryColl e

theorem State.MemForm.drain {k : Nat} (h : s.MemForm) : (State.drain c k s).MemForm := by
  induction k generalizing s with
  | zero => exact h
  | succ k ih =>
    unfold State.drain
    split
    · exact h
    · exact ih (h.settleOnce ‹_›)

theorem State.MemForm.endSegment {pc : Nat} (h : s.MemForm) : (s.endSegment c n pc).MemForm :=
  .ite h.kill (.ite h.setReg.kill (.setCore (.ite h.updDom h)))

theorem State.MemForm.segendDone (h : s.MemForm) : (s.segendDone c n).MemForm :=
  .ite h.updCore.advance (.ite h.updCore.advance.endSegment h.updCore.advance.endSegment.updCore)

theorem State.MemForm.stependDone {k : Nat} (h : s.MemForm) : (State.stependDone c n k s).MemForm := by
  induction k generalizing s with
  | zero => exact h
  | succ k ih =>
    unfold State.stependDone
    exact .ite h (.ite h.endSegment.updCore (ih h.endSegment))

theorem State.MemForm.resume (h : s.MemForm) : (s.resume c).MemForm := h.updCore.advance

theorem State.MemForm.wake (h : s.MemForm) : (State.wake c s).MemForm := by
  refine .ite h ?_
  split
  · exact h
  · split
    · exact .ite h.resume h
    · exact .ite h.resume h
    · exact .ite h.setCore.resume h
    · exact .ite h.setCore.resume h
    · exact .ite h.resume h
    · exact .ite h.segendDone h
    · exact .ite h.checkAtEnd.stependDone h
    · exact .ite h.updCore h
    · exact h
    · exact h
    · exact h

theorem State.MemForm.releaseGroup {g : List CoreId} (h : s.MemForm) : (State.releaseGroup k s g).MemForm :=
  h.foldl (fun _ _ ht => .ite ht.resume ht)

theorem State.MemForm.releaseBar {key : Fin 8 × Part × Nat} (h : s.MemForm) : (s.releaseBar key).MemForm := by
  unfold State.releaseBar
  dsimp only
  split
  · exact h
  · exact .ite h (.foldl (h.same rfl) (fun _ _ ht => ht.releaseGroup))

theorem State.MemForm.releaseBars (h : s.MemForm) : (s.releaseBars c).MemForm :=
  h.foldl (fun _ _ ht => ht.releaseBar)

theorem State.MemForm.wakeAll (h : s.MemForm) : (s.wakeAll n).MemForm :=
  h.wakeSyncs.foldl (fun _ _ ht => ht.wake.releaseBars)

theorem State.MemForm.settle (h : s.MemForm) : (State.settle c s).MemForm := h.drain.wakeAll

theorem State.MemForm.thenNext {f : State → State} (hf : ∀ t, t.MemForm → (f t).MemForm) (h : s.MemForm) :
    (State.thenNext c f s).MemForm :=
  .ite (.settle (hf _ h)) (.advance (.settle (hf _ h)))

/-! ## Machine.Stations -/

theorem State.MemForm.issued {checks : List (Option Code)} {f : State → State}
    (hf : ∀ t, t.MemForm → (f t).MemForm) (h : s.MemForm) : (issued c checks f s).MemForm := by
  unfold Machine.issued
  split
  · exact h.kill
  · exact .thenNext hf h

theorem State.MemForm.enqueue {len : Core → Nat} {put : Core → Core} {checks : List (Option Code)} (h : s.MemForm) :
    (enqueue c len put checks s).MemForm := by
  unfold Machine.enqueue
  split
  · exact h.kill
  · exact .ite h (.thenNext (fun _ ht => ht.updCore) h)

theorem State.MemForm.toMx {k : StCmd} {x : List (Option Code)} (h : s.MemForm) : (toMx c k x s).MemForm :=
  h.enqueue

theorem State.MemForm.toVx {k : StCmd} {x : List (Option Code)} (h : s.MemForm) : (toVx c k x s).MemForm :=
  h.enqueue

theorem State.MemForm.toTx {k : StCmd} {x : List (Option Code)} (h : s.MemForm) : (toTx c k x s).MemForm :=
  h.enqueue

theorem State.MemForm.toLx {k : StCmd} {x : List (Option Code)} (h : s.MemForm) : (toLx c k x s).MemForm :=
  h.enqueue

theorem State.MemForm.toSv {k : StCmd} {x : List (Option Code)} (h : s.MemForm) : (toSv c k x s).MemForm :=
  h.enqueue

theorem State.MemForm.toLxLate {d : Dest} {k : Nat → StCmd} {checks : List (Option Code)} (h : s.MemForm) :
    (toLxLate c d k checks s).MemForm :=
  h.enqueue

theorem State.MemForm.startWait {w : Wait} (h : s.MemForm) : (startWait c w s).MemForm := h.updCore.settle

theorem State.MemForm.execQopen {f : FmtQ} (h : s.MemForm) : NextForm (execQopen c f s) :=
  .lift (.issue1 (fun _ ht => .ite ht.kill (.ite ht.startWait (.issued (fun _ hu => hu.updCore) ht))) h)

theorem State.MemForm.execQclose {f : FmtT} (h : s.MemForm) : NextForm (execQclose c f s) :=
  .lift (.issue1 (fun _ ht => .ite ht.kill ht.startWait) h)

theorem State.MemForm.execQsync {f : FmtT} (h : s.MemForm) : NextForm (execQsync c f s) :=
  .lift (.issue1 (fun _ ht => .ite ht.kill ht.startWait) h)

theorem State.MemForm.execQstat {f : FmtT} (h : s.MemForm) : NextForm (execQstat c f s) :=
  .lift (.issue1 (fun _ ht => ht.onCore) h)

theorem State.MemForm.execMxld {f : FmtT} (h : s.MemForm) : NextForm (execMxld c f s) :=
  .lift (.issue1 (fun _ ht => ht.toMx) h)

theorem State.MemForm.execMxLoadComplete {bank : Bool} (h : s.MemForm) : NextForm (execMxLoadComplete c bank s) :=
  .lift h.updMx.settle

theorem State.MemForm.execMxrun {f : MxIssue} (h : s.MemForm) : NextForm (execMxrun c f s) :=
  .lift (.issue1 (fun _ ht => ht.toMx) h)

theorem State.MemForm.execMxout {f : FmtT} (h : s.MemForm) : NextForm (execMxout c f s) :=
  .lift (.issue1 (fun _ ht => ht.toMx) h)

theorem State.MemForm.execMxsave {f : FmtT} (h : s.MemForm) : NextForm (execMxsave c f s) :=
  .lift (.issue1 (fun _ ht => ht.toMx) h)

theorem State.MemForm.execMxrst {f : FmtT} (h : s.MemForm) : NextForm (execMxrst c f s) :=
  .lift (.issue1 (fun _ ht => ht.toMx) h)

theorem State.MemForm.execMxwalk {f : MxIssue} (h : s.MemForm) : NextForm (execMxwalk c f s) :=
  .lift (.issue1 (fun _ ht => ht.enqueue) h)

theorem State.MemForm.vxop {f : FmtT} (h : s.MemForm) : (vxop c f s).MemForm :=
  .issue1 (fun _ ht => ht.toVx) h

theorem State.MemForm.execVxFp32Op {f : FmtT} (h : s.MemForm) : NextForm (execVxFp32Op c f s) := .lift h.vxop

theorem State.MemForm.execVxInt32Op {f : FmtT} (h : s.MemForm) : NextForm (execVxInt32Op c f s) :=
  .lift h.vxop

theorem State.MemForm.execVxTranscendental {f : FmtT} (h : s.MemForm) : NextForm (execVxTranscendental c f s) :=
  .lift h.vxop

theorem State.MemForm.execVxRowReduction {f : FmtT} (h : s.MemForm) : NextForm (execVxRowReduction c f s) :=
  .lift h.vxop

theorem State.MemForm.execVxCvt {f : FmtT} (h : s.MemForm) : NextForm (execVxCvt c f s) := .lift h.vxop

theorem State.MemForm.execVxLadd {f : FmtT} (h : s.MemForm) : NextForm (execVxLadd c f s) := .lift h.vxop

theorem State.MemForm.txop {f : FmtT} (h : s.MemForm) : (txop c f s).MemForm :=
  .issue1 (fun _ ht => ht.toTx) h

theorem State.MemForm.execQuant {f : FmtT} (h : s.MemForm) : NextForm (execQuant c f s) := .lift h.txop

theorem State.MemForm.execDequant {f : FmtT} (h : s.MemForm) : NextForm (execDequant c f s) := .lift h.txop

theorem State.MemForm.execConvert {f : FmtT} (h : s.MemForm) : NextForm (execConvert c f s) := .lift h.txop

theorem State.MemForm.execTranspose {f : FmtT} (h : s.MemForm) : NextForm (execTranspose c f s) :=
  .lift h.txop

theorem State.MemForm.execGather {f : FmtT} (h : s.MemForm) : NextForm (execGather c f s) := .lift h.txop

theorem State.MemForm.execScatter {f : FmtT} (h : s.MemForm) : NextForm (execScatter c f s) := .lift h.txop

theorem State.MemForm.execTld {f : FmtT} (h : s.MemForm) : NextForm (execTld c f s) :=
  .lift (.issue1 (fun _ ht => ht.toLx) h)

theorem State.MemForm.execTst {f : FmtT} (h : s.MemForm) : NextForm (execTst c f s) :=
  .lift (.issue1 (fun _ ht => ht.toLx) h)

theorem State.MemForm.execLd {f : FmtI} (h : s.MemForm) : NextForm (execLd c f s) :=
  .lift (.issue1 (fun _ ht => ht.toLxLate) h)

theorem State.MemForm.execSt {f : FmtI} (h : s.MemForm) : NextForm (execSt c f s) :=
  .lift (.issue1 (fun _ ht => ht.toLx) h)

theorem State.MemForm.execAtom {f : FmtR} (h : s.MemForm) : NextForm (execAtom c f s) :=
  .lift (.issue1 (fun _ ht => ht.toLxLate) h)

theorem State.MemForm.execTdld {f : FmtI} (h : s.MemForm) : NextForm (execTdld c f s) :=
  .lift (.issue1 (fun _ ht => ht.toLxLate) h)

theorem State.MemForm.execTdst {f : FmtI} (h : s.MemForm) : NextForm (execTdst c f s) :=
  .lift (.issue1 (fun _ ht => ht.toLx) h)

theorem State.MemForm.execDigest {f : FmtR} (h : s.MemForm) : NextForm (execDigest c f s) :=
  .lift (.issue1 (fun _ ht => ht.toLx) h)

theorem State.MemForm.execFence {f : FmtR} (h : s.MemForm) : NextForm (execFence c f s) :=
  .lift (.issue1 (fun _ ht => ht.startWait) h)

theorem State.MemForm.execBar {f : FmtR} (h : s.MemForm) : NextForm (execBar c f s) :=
  .lift (.issue1 (fun _ ht => .ite ht.kill (.startWait (ht.same rfl))) h)

theorem State.MemForm.pollWait (h : s.MemForm) : (s.pollWait c).MemForm := by
  unfold State.pollWait
  dsimp only
  split
  · split
    · exact h.coreRead.orKill (fun _ _ ht => .ite ht.resume.settle ht)
    · refine .ite h ?_
      split
      · exact h.coreRequest.kill
      · exact h.coreRequest
  · exact h

theorem State.MemForm.execWaitv {f : FmtR} (h : s.MemForm) : NextForm (execWaitv c f s) := by
  refine .lift (.issue1 (fun _ ht => ?_) h)
  dsimp only
  split
  · exact ht.kill
  · exact ht.setCore.pollWait

theorem State.MemForm.execWaitvPoll (h : s.MemForm) : NextForm (execWaitvPoll c s) := .lift h.pollWait

theorem State.MemForm.execCwait {f : FmtR} (h : s.MemForm) : NextForm (execCwait c f s) :=
  .lift (.issue1 (fun _ ht => .ite ht.kill ht.startWait) h)

theorem State.MemForm.execClaim {f : FmtR} (h : s.MemForm) : NextForm (execClaim c f s) := by
  refine .lift (.issue1 (fun _ ht => ?_) h)
  dsimp only
  split
  · split
    · exact ht.claim.kill
    · exact ht.claim.onCore
  · exact ht.kill

theorem State.MemForm.execStreamStall {st : Station} (h : s.MemForm) : NextForm (execStreamStall c st s) :=
  .lift (h.when (fun _ ht => ht.kill))

theorem State.MemForm.execWaitLimit (h : s.MemForm) : NextForm (execWaitLimit c s) :=
  .lift (h.when (fun _ ht => ht.kill))

theorem State.MemForm.execSample {f : FmtT} (h : s.MemForm) : NextForm (execSample c f s) :=
  .lift (.issue1 (fun _ ht => ht.toSv) h)

theorem State.MemForm.execStopchk {f : FmtT} (h : s.MemForm) : NextForm (execStopchk c f s) :=
  .lift (.issue1 (fun _ ht => .issued (fun _ hu => hu.stopchk) ht) h)

theorem State.MemForm.execAudb {f : FmtI} (h : s.MemForm) : NextForm (execAudb c f s) :=
  .lift (.issue1 (fun _ ht => ht.advance.openUnit) h)

theorem State.MemForm.execAude {f : FmtJ} (h : s.MemForm) : NextForm (execAude c f s) :=
  .lift (.issue1 (fun _ ht => .ite ht.kill ht.advance.closeUnit) h)

theorem State.MemForm.execSegend {f : FmtJ} (h : s.MemForm) : NextForm (execSegend c f s) :=
  .lift (.issue1 (fun _ ht => .ite ht.kill ht.startWait) h)

theorem State.MemForm.execStepend {f : FmtJ} (h : s.MemForm) : NextForm (execStepend c f s) :=
  .lift (.issue1 (fun _ ht => ht.startWait) h)

/-! ## Machine.MemCmds -/

theorem State.MemForm.frameEvent {f : FrameId} (h : s.MemForm) : (s.frameEvent code f).MemForm :=
  h.mgmtReport

theorem State.MemForm.retireFrame (h : s.MemForm) : (s.retireFrame a).MemForm := by
  refine .ite h ?_
  split
  · exact .ite (h.same rfl) h.frameEvent
  · exact h.frameEvent

theorem State.MemForm.corrected (h : s.MemForm) : (s.corrected a).MemForm :=
  .ite h.bump.setReg.update.retireFrame h.bump.setReg.update

theorem State.MemForm.uncorrectable (h : s.MemForm) : (s.uncorrectable a).MemForm :=
  h.bump.setReg.update.retireFrame

theorem State.MemForm.execMemScrub {unit : BitVec 50} {bad : Nat} (h : s.MemForm) :
    NextForm (execMemScrub unit bad s) := by
  refine .lift ?_
  dsimp only
  have h1 : State.MemForm (if unit.toNat / 64 * 64 = 0 then { s with ms := { s.ms with ceCount := [] } } else s) :=
    .ite (h.same rfl) h
  refine .ite h1 ?_
  split
  · exact h1
  · exact h1.corrected
  · exact h1.uncorrectable
  · exact .ite h1.fresh.uncorrectable (.corrected (h1.fresh.blurred rfl))

theorem State.MemForm.execFrameRetireCopyDone {md : Fin 4} {frame : Nat} (h : s.MemForm) :
    NextForm (execFrameRetireCopyDone md frame s) := by
  refine .lift ?_
  split
  · exact h
  · exact .frameEvent (.writeRepair (.bump (h.same rfl)))

theorem State.MemForm.memRefused (h : s.MemForm) : s.memRefused.MemForm := h.setReg

theorem State.MemForm.writeMemCtrl (h : s.MemForm) : (s.writeMemCtrl value).MemForm :=
  .ite h.memRefused (.ite h (.blurred h.setReg.setReg.setReg.pnInvalidate rfl))

theorem State.MemForm.execMemCtrlWrite (h : s.MemForm) : NextForm (execMemCtrlWrite value s) :=
  .lift h.writeMemCtrl

theorem State.MemForm.writeIlvSize (h : s.MemForm) : (s.writeIlvSize value).MemForm :=
  .ite h.memRefused (.ite h (.blurred h.setReg rfl))

theorem State.MemForm.execMemIlvSizeWrite (h : s.MemForm) : NextForm (execMemIlvSizeWrite value s) :=
  .lift h.writeIlvSize

theorem State.MemForm.execMemClearDone (h : s.MemForm) : NextForm (execMemClearDone s) :=
  .lift (h.when (fun _ ht => ht.setReg))

theorem State.MemForm.setCxlRate (h : s.MemForm) : s.setCxlRate.MemForm := h.setReg

theorem State.MemForm.setCxl {p : Fin 4} {x : CxlPort} (h : s.MemForm) : (s.setCxl p x).MemForm :=
  .setCxlRate (h.same rfl)

theorem State.MemForm.cxlReport {p : Fin 4} (h : s.MemForm) : (s.cxlReport p code).MemForm :=
  h.setReg.mgmtEvent

theorem State.MemForm.execCxlTrained {p : Fin 4} {dev : CxlDevice} (h : s.MemForm) :
    NextForm (execCxlTrained p dev s) :=
  .lift (.ite h (.ite h.setCxl.cxlReport (.ite h.setCxl.cxlReport h.setCxl)))

theorem State.MemForm.execCxlLinkDown {p : Fin 4} (h : s.MemForm) : NextForm (execCxlLinkDown p s) :=
  .lift (h.when (fun _ ht => ht.setCxl.bump))

theorem State.MemForm.execCxlTimeout {p : Fin 4} {user : CxlUser} (h : s.MemForm) :
    NextForm (execCxlTimeout p user s) := by
  refine .lift ?_
  split
  · exact h.setReg.setReg.when (fun _ ht => ht.kill)
  · exact h.setReg.setReg.when (fun _ ht => ht.segError)
  · exact h.setReg.setReg

theorem State.MemForm.execTcEpochEnd (h : s.MemForm) : NextForm (execTcEpochEnd s) := .lift (h.same rfl)

theorem State.MemForm.execTcCopyDone {frame : Nat} (h : s.MemForm) : NextForm (execTcCopyDone frame s) :=
  .lift (.ite (.bump (h.same rfl)) h)

theorem State.MemForm.execTcHitFallback {frame : Nat} (h : s.MemForm) : NextForm (execTcHitFallback frame s) := by
  refine .lift ?_
  split
  · exact h
  · exact .bump (.setReg (h.same rfl))

theorem State.MemForm.execPnFillComplete (h : s.MemForm) : NextForm (execPnFillComplete die s) := by
  refine .lift ?_
  dsimp only
  split
  · exact h
  · split
    · exact h.startRead.setPn.bump
    · exact h.startRead.setPn.setReg

theorem State.MemForm.pnRefused (h : s.MemForm) : (s.pnRefused d).MemForm := h.setReg

theorem State.MemForm.writePnSize (h : s.MemForm) : (s.writePnSize die value).MemForm :=
  .ite h.pnRefused h.setReg

theorem State.MemForm.execPnSizeWrite (h : s.MemForm) : NextForm (execPnSizeWrite die value s) :=
  .lift h.writePnSize

theorem State.MemForm.writePnQuota (h : s.MemForm) : (s.writePnQuota die n value).MemForm :=
  .ite h.pnRefused h.setReg

theorem State.MemForm.execPnPQuotaWrite (h : s.MemForm) : NextForm (execPnPQuotaWrite die n value s) :=
  .lift h.writePnQuota

theorem State.MemForm.pnEnter {r : PnRecord} (h : s.MemForm) : (s.pnEnter n r d).1.MemForm := by
  unfold State.pnEnter
  dsimp only
  split
  · exact .fst h.setPn
  · split
    · exact h
    · split
      · exact h
      · exact .fst h.setPn.bump

theorem State.MemForm.pnLoadAll {rs : List PnRecord} (h : s.MemForm) : (s.pnLoadAll n rs).1.MemForm := by
  unfold State.pnLoadAll
  dsimp only
  split
  · exact .fst (h.foldl (fun _ _ ht => ht.setReg))
  · refine .foldl_fst h (fun _ _ ht => ?_)
    split
    · exact ht
    · split
      · exact .fst ht.pnEnter
      · exact .fst ht.pnEnter.setReg

theorem State.MemForm.pnSetPin {src bytes : Nat} {m : Byte} {pin : Bool} (h : s.MemForm) :
    (s.pnSetPin n src bytes m pin).1.MemForm := by
  unfold State.pnSetPin
  dsimp only
  split
  · exact h
  · exact .fst (h.foldl (fun _ _ ht => ht.setPn))

theorem State.MemForm.pnDropAll {range : Option (Nat × Nat)} {m : Byte} (h : s.MemForm) :
    (s.pnDropAll n range version m).1.MemForm := by
  unfold State.pnDropAll
  dsimp only
  split
  all_goals
    split
    · exact h
    · exact .fst (h.foldl (fun _ _ ht => ht.setPn))

/-! ## Machine.Transport -/

theorem State.MemForm.setHp {k : HostPort} (h : s.MemForm) : (s.setHp k).MemForm := h.same rfl

theorem State.MemForm.frameIn {prot : Bool} {f : State → State} (h : s.MemForm)
    (hf : ∀ t, t.MemForm → (f t).MemForm) : (s.frameIn prot f).MemForm :=
  .ite h (.ite h.bump.bump (hf _ h.bump))

theorem State.MemForm.execHostLaneFail {lane : Fin 5} (h : s.MemForm) : NextForm (execHostLaneFail lane s) :=
  .lift (.ite h (.ite h.setHp.send.mgmtReport h.setHp.mgmtReport))

theorem State.MemForm.execHostPortTrained (h : s.MemForm) : NextForm (execHostPortTrained s) :=
  .lift (.ite h (.ite h.setHp.update.mgmtReport h.setHp))

theorem State.MemForm.execArpRequest {x : Protected Ip4} (h : s.MemForm) : NextForm (execArpRequest x s) :=
  .lift (h.frameIn (fun _ ht => ht.when (fun _ hu => hu.send.bump)))

theorem State.MemForm.execNeighborSolicitation {x : Protected Ip6} (h : s.MemForm) :
    NextForm (execNeighborSolicitation x s) :=
  .lift (h.frameIn (fun _ ht => ht.when (fun _ hu => hu.send.bump)))

theorem State.MemForm.execEchoRequest {v6 : Bool} {dst : Ip6} {x : Protected Octets} (h : s.MemForm) :
    NextForm (execEchoRequest v6 dst x s) :=
  .lift (h.frameIn (fun _ ht => ht.when (fun _ hu => hu.send.bump)))

theorem State.MemForm.execMkaFrame {agreed : Bool} (h : s.MemForm) : NextForm (execMkaFrame agreed s) :=
  .lift (.ite h (.ite h.bump.setHp h.bump))

theorem State.MemForm.badFrame (h : s.MemForm) : s.badFrame.MemForm := h.bump

theorem State.MemForm.openAnswer {src : BitVec 128} {n maxLen : Nat} (h : s.MemForm) :
    (s.openAnswer src n status maxLen).MemForm :=
  h.send.bump.lastCode

theorem State.MemForm.execOpenReq {src : BitVec 128} {v4 : Bool} {k : BrosinHdr} (h : s.MemForm) :
    NextForm (execOpenReq src v4 k payload s) := by
  refine .lift (.frameIn h (fun _ ht => .ite ht.badFrame ?_))
  dsimp only
  split
  · exact ht.openAnswer
  · exact .ite ht.openAnswer ht.setSession.setHp.openAnswer

theorem State.MemForm.dropSession {n : Nat} (h : s.MemForm) : (s.dropSession n).MemForm := h.setHp

theorem State.MemForm.nxSetCounter {off v : Nat} (h : s.MemForm) : (s.nxSetCounter n a off v).MemForm :=
  h.writeMem

theorem State.MemForm.nxCons (h : s.MemForm) : (s.nxCons n).MemForm := h.nxSetCounter

theorem State.MemForm.netSend (h : s.MemForm) : (s.netSend peer).MemForm := by
  unfold State.netSend
  dsimp only
  split
  · exact h
  · refine .ite h (.setHp (.foldl_snd h (fun _ _ ht => ?_)))
    split
    · exact ht
    · exact .snd ht.sessionSend

theorem State.MemForm.netOpen (h : s.MemForm) : (s.netOpen peer).MemForm :=
  .ite h.netSend h.setSession.setHp.send.bump

theorem State.MemForm.nxTake (h : s.MemForm) : (s.nxTake n).MemForm := by
  refine .ite h (.nxCons (.setHp (.foldl h (fun _ _ ht => ?_))))
  split
  · exact ht.setReg.bump.partEvent
  · exact ht.setHp.netOpen

theorem State.MemForm.netAcked {ack : BitVec 32} (h : s.MemForm) : (s.netAcked peer ack).MemForm :=
  h.setHp.bump.foldl (fun _ _ ht => ht.nxCons)

theorem State.MemForm.netLost (h : s.MemForm) : (s.netLost peer).MemForm :=
  h.setHp.foldl (fun _ _ ht => ht.nxCons.bump.setReg.partEvent)

theorem State.MemForm.takeBrosinAck {n : Nat} {k : BrosinHdr} (h : s.MemForm) : (s.takeBrosinAck n k).MemForm := by
  unfold State.takeBrosinAck
  dsimp only
  split
  · exact h
  · refine .pumpSession ?_
    split
    · exact h.setSession.netAcked
    · exact h.setSession

theorem State.MemForm.sessionIn {k : BrosinHdr} {f : State → Session → State} (h : s.MemForm)
    (hf : ∀ t l, t.MemForm → (f t l).MemForm) : (s.sessionIn k payload f).MemForm := by
  refine .frameIn h (fun _ ht => ?_)
  dsimp only
  split
  · exact ht
  · refine .ite ht.badFrame ?_
    split
    · exact ht.takeBrosinAck
    · exact hf _ _ ht.takeBrosinAck

theorem State.MemForm.enqueueFrame {x : Session} (h : s.MemForm) : (s.enqueueFrame x cmd f).MemForm :=
  .ite h.answerCmd h.setQueue

theorem State.MemForm.takeFrames {n k : Nat} (h : s.MemForm) : (takeFrames n k s).MemForm := by
  induction k generalizing s with
  | zero => exact h
  | succ k ih =>
    unfold Machine.takeFrames
    split
    · exact h
    · exact .ite h (.ite h.setSession.answerCmd (.ite h (ih h.setSession.enqueueFrame)))

theorem State.MemForm.ringWrite {pos : Nat} (h : s.MemForm) : (s.ringWrite n pos bs).MemForm :=
  h.writeMem.writeMem

theorem State.MemForm.nxStore (h : s.MemForm) : (s.nxStore n bs).MemForm :=
  .ite h.ringWrite.bump.setHp h.ringWrite.bump.setHp.nxSetCounter

theorem State.MemForm.nxPublish (h : s.MemForm) : (s.nxPublish n).MemForm := by
  unfold State.nxPublish
  split
  · exact h
  · exact h.nxSetCounter

theorem State.MemForm.netDeliver {n : Nat} {x : Session} (h : s.MemForm) : (s.netDeliver n x bs).MemForm :=
  .ite h.setSession h.setSession.nxStore

theorem State.MemForm.deliverPacket {take : SpdmTaker} {n : Nat} {x : Session} {q : BitVec 32} {typ : BrosinType}
    (htake : ∀ k l t, t.MemForm → (take k l t).MemForm) (h : s.MemForm) :
    (State.deliverPacket take s n x q typ bs).1.MemForm := by
  unfold State.deliverPacket
  dsimp only
  split
  · exact .fst h.setSession.takeFrames
  · split
    · exact .fst h.setSession.netDeliver
    · exact h
  · exact .fst (htake _ _ _ h.setSession)

theorem State.MemForm.deliverEarly {take : SpdmTaker} {n k : Nat}
    (htake : ∀ k l t, t.MemForm → (take k l t).MemForm) (h : s.MemForm) : (deliverEarly take n k s).MemForm := by
  induction k generalizing s with
  | zero => exact h
  | succ k ih =>
    unfold Machine.deliverEarly
    split
    · exact h
    · split
      · exact h
      · exact .ite (ih (h.deliverPacket htake)) h

theorem State.MemForm.sequenced {own take : SpdmTaker} {k : BrosinHdr} {typ : BrosinType} (h : s.MemForm)
    (hown : ∀ k l t, t.MemForm → (own k l t).MemForm) (htake : ∀ k l t, t.MemForm → (take k l t).MemForm) :
    (s.sequenced own take k typ payload).MemForm :=
  h.sessionIn (fun _ _ ht => .ite ht.setSession (.ite (.ite (.deliverEarly htake (.deliverPacket hown ht)) ht)
      (.ite ht.setSession ht.setSession)))

theorem State.MemForm.execOpenOk {k : BrosinHdr} (h : s.MemForm) : NextForm (execOpenOk k payload s) := by
  refine .lift (.frameIn h (fun _ ht => .ite ht.badFrame ?_))
  split
  · exact ht
  · refine .ite ?_ ?_
    · split
      · exact ht.dropSession.netLost
      · exact ht.dropSession
    · split
      · exact ht.dropSession.setSession.netSend
      · exact ht.dropSession.setSession

theorem State.MemForm.execClose {k : BrosinHdr} (h : s.MemForm) : NextForm (execClose k payload s) := by
  refine .lift (.sessionIn h (fun _ _ ht => ?_))
  split
  · exact ht.dropSession.netLost
  · exact ht.dropSession

theorem State.MemForm.execAck {k : BrosinHdr} (h : s.MemForm) : NextForm (execAck k payload s) :=
  .lift (h.sessionIn (fun _ _ ht => ht))

theorem State.MemForm.execKeepalive {k : BrosinHdr} (h : s.MemForm) : NextForm (execKeepalive k payload s) :=
  .lift (h.sessionIn (fun _ _ ht => ht))

theorem State.MemForm.execEventAck {k : BrosinHdr} {_payload : List Byte} (h : s.MemForm) :
    NextForm (execEventAck k _payload s) := by
  refine .lift (.frameIn h (fun _ ht => .ite ht.badFrame ?_))
  split
  · exact ht
  · exact ht.setChan

theorem State.MemForm.execAckTimer (h : s.MemForm) : NextForm (execAckTimer session s) := by
  refine .lift ?_
  split
  · exact h
  · exact .ite h.setSession.sendBrosin h

theorem State.MemForm.resendEvent {c : Nat} (h : s.MemForm) : (s.resendEvent c).MemForm := by
  unfold State.resendEvent
  split
  · exact h.send.bump.bump
  · exact h

theorem State.MemForm.execBrosinRto (h : s.MemForm) : NextForm (execBrosinRto session s) := by
  refine .lift (.ite h.resendEvent ?_)
  split
  · exact h
  · split
    · exact h
    · exact h.setSession.sendBrosin.bump

theorem State.MemForm.execKeepaliveTimer (h : s.MemForm) : NextForm (execKeepaliveTimer session s) := by
  refine .lift ?_
  split
  · exact h
  · exact .ite h.setSession.sendBrosin h

theorem State.MemForm.execSessionTimeout (h : s.MemForm) : NextForm (execSessionTimeout session s) := by
  refine .lift ?_
  split
  · exact h
  · split
    · exact h.dropSession.mgmtReport.netLost
    · exact h.dropSession.mgmtReport

/-! ## Machine.Command -/

theorem State.MemForm.startCmd {kind : SessKind} {run : State → SessOwner → State} (h : s.MemForm)
    (hrun : ∀ t l, t.MemForm → (run t l).MemForm) : (s.startCmd cmd f kind run).MemForm := by
  refine .ite h ?_
  split
  · exact h
  · exact h
  · exact .ite (.ite h (.ite h.answerCmd h.setQueue)) (.ite h.setQueue.complete (.ite h.setQueue.complete (.ite
      h.setQueue.complete (hrun _ _ h.setQueue))))

theorem State.MemForm.partCmd {run : State → Part → State} (h : s.MemForm)
    (hrun : ∀ t l, t.MemForm → (run t l).MemForm) : (s.partCmd cmd f run).MemForm := by
  refine .startCmd h (fun _ _ ht => ?_)
  split
  · exact hrun _ _ ht
  · exact ht

theorem State.MemForm.mgmtCmd {run : State → State} (h : s.MemForm) (hrun : ∀ t, t.MemForm → (run t).MemForm) :
    (s.mgmtCmd cmd f run).MemForm :=
  h.startCmd (fun _ _ ht => hrun _ ht)

theorem State.MemForm.execHostNop (h : s.MemForm) : NextForm (execHostNop f s) :=
  .lift (h.startCmd (fun _ _ ht => ht.complete))

theorem State.MemForm.execUnknownCommand (h : s.MemForm) : NextForm (execUnknownCommand cmd f s) :=
  .lift (h.startCmd (fun _ _ ht => ht.complete))

theorem State.MemForm.execMemRead (h : s.MemForm) : NextForm (execMemRead f s) := by
  refine .lift (.partCmd h (fun _ _ ht => .ite ht.complete (.ite ht.complete ?_)))
  dsimp only
  split <;> exact ht.readMem.complete

theorem State.MemForm.execMemWrite (h : s.MemForm) : NextForm (execMemWrite f s) := by
  refine .lift (.partCmd h (fun _ _ ht => .ite ht.complete (.ite ht.complete (.ite ht.complete ?_))))
  dsimp only
  split
  · exact ht.accessFails.complete
  · refine .ite ht.complete ?_
    split <;> exact ht.writeMem.complete

theorem State.MemForm.execChannelOpen (h : s.MemForm) : NextForm (execChannelOpen f s) :=
  .lift (h.startCmd (fun _ _ ht => .ite ht.complete (.ite ht.complete ht.setChan.complete)))

theorem State.MemForm.execChannelClose (h : s.MemForm) : NextForm (execChannelClose f s) :=
  .lift (h.startCmd (fun _ _ ht => .ite ht.complete (.ite ht.complete ht.setHp.complete)))

theorem State.MemForm.execFabricMap (h : s.MemForm) : NextForm (execFabricMap f s) :=
  .lift (h.mgmtCmd (fun _ ht => .ite ht.setReg.complete (.ite ht.complete ht.installMap.complete)))

theorem State.MemForm.execPnLoad (h : s.MemForm) : NextForm (execPnLoad f s) :=
  .lift (h.partCmd (fun _ _ ht => .ite ht.complete ht.pnLoadAll.complete))

theorem State.MemForm.execPnPin (h : s.MemForm) : NextForm (execPnPin f s) :=
  .lift (h.partCmd (fun _ _ ht => .ite ht.complete ht.pnSetPin.complete))

theorem State.MemForm.execPnUnpin (h : s.MemForm) : NextForm (execPnUnpin f s) :=
  .lift (h.partCmd (fun _ _ ht => .ite ht.complete ht.pnSetPin.complete))

theorem State.MemForm.execPnDrop (h : s.MemForm) : NextForm (execPnDrop f s) :=
  .lift (h.partCmd (fun _ _ ht => .ite ht.complete ht.pnDropAll.complete))

theorem State.MemForm.execPnQuery (h : s.MemForm) : NextForm (execPnQuery f s) := by
  refine .lift (.partCmd h (fun _ _ ht => ?_))
  dsimp only
  split <;> exact ht.complete

/-! ## Machine.Weights -/

theorem State.MemForm.setVer {i : Fin 8} (h : s.MemForm) : (s.setVer n i v).MemForm := h.same rfl

theorem State.MemForm.updVer {f : Version → Version} (h : s.MemForm) : (s.updVer n number f).MemForm := by
  unfold State.updVer
  split
  · exact h
  · exact h.setVer

theorem State.MemForm.pnForget (h : s.MemForm) : (s.pnForget n number).MemForm :=
  h.foldl (fun _ _ ht => ht.setPn)

theorem State.MemForm.freeVer {i : Fin 8} (h : s.MemForm) : (s.freeVer n i number).MemForm :=
  .pnForget (h.same rfl)

theorem State.MemForm.applyLoad {k : HostCmd} (h : s.MemForm) : (s.applyLoad k number).MemForm := by
  unfold State.applyLoad
  dsimp only
  split
  · exact h
  · refine .ite (.completeFwd (h.same rfl)) ?_
    split
    · exact .completeFwd (h.same rfl)
    · exact .completeFwd (.setVer (h.same rfl))

theorem State.MemForm.cutEntries (h : s.MemForm) : (s.cutEntries n number).MemForm :=
  h.foldl (fun _ _ ht => ht.putEntry.foldl (fun _ _ hu => hu.cutDie))

theorem State.MemForm.applyActivate {k : HostCmd} {policy : Nat} (h : s.MemForm) :
    (s.applyActivate k number policy).MemForm := by
  unfold State.applyActivate
  dsimp only
  split
  · exact h.completeFwd
  · split
    · exact h.completeFwd
    · exact h.completeFwd
    · exact h.completeFwd
    · refine .completeFwd (.ite (.setSvPart (.ite (.cutEntries (.setVer ?_)) (.setVer ?_))) (.partEvent (.ite
        (.cutEntries (.setVer ?_)) (.setVer ?_))))
      all_goals
        split
        · exact h
        · exact h.setVer

theorem State.MemForm.applyDrop {k : HostCmd} (h : s.MemForm) : (s.applyDrop k number).MemForm := by
  unfold State.applyDrop
  split
  · exact h.completeFwd
  · split
    · exact h.completeFwd
    · exact h.completeFwd
    · exact .completeFwd (.ite h.freeVer h.setVer)

theorem State.MemForm.applyReady (h : s.MemForm) : (s.applyReady n number).MemForm := by
  unfold State.applyReady
  split
  · exact .ite h.setVer.partEvent h
  · exact h

theorem State.MemForm.applyFailed (h : s.MemForm) : (s.applyFailed n number shard).MemForm := by
  unfold State.applyFailed
  split
  · exact .ite h.setVer.partEvent h
  · exact h

theorem State.MemForm.applyVersion {k : HostCmd} (h : s.MemForm) : (s.applyVersion k).MemForm :=
  .ite h.applyLoad (.ite h.applyActivate (.ite h.applyDrop (.ite h.applyReady h.applyFailed)))

theorem State.MemForm.sendIntake {cmds : List HostCmd} (h : s.MemForm) : (s.sendIntake n m cmds).MemForm :=
  .ite h h.send.onMgmt

theorem State.MemForm.masterTake {k : HostCmd} (h : s.MemForm) : (s.masterTake k).MemForm :=
  .ite h.setSvPart (.ite h.sendIntake.applyVersion h.setSvPart)

theorem State.MemForm.flushVersions (h : s.MemForm) : (s.flushVersions n).MemForm :=
  .foldl (.ite h.setSvPart h.setSvPart.sendIntake) (fun _ _ ht => ht.applyVersion)

theorem State.MemForm.masterChange (h : s.MemForm) : (s.masterChange n code number shard).MemForm :=
  h.masterTake

theorem State.MemForm.loadRefused (h : s.MemForm) : (s.loadRefused n number).MemForm := by
  unfold State.loadRefused
  dsimp only
  split
  · exact .ite (.complete (h.same rfl)) (h.same rfl)
  · exact h.same rfl

theorem State.MemForm.loadReported (h : s.MemForm) : (s.loadReported n number).MemForm := by
  unfold State.loadReported
  split
  · exact h
  · split
    · exact h
    · exact .ite h (.ite h.masterTake h.sendMgmt.loadRefused)

theorem State.MemForm.endRepair {i : Fin 8} (h : s.MemForm) : (s.endRepair n i v shard).MemForm :=
  .ite h.freeVer h.setVer

theorem State.MemForm.heardReader {i : Fin 8} {k : Shard} (h : s.MemForm) :
    (s.heardReader n i v shard k x code).MemForm :=
  .ite h (.ite h.setVer (.ite h.setVer (.ite h.setVer.send h.setVer)))

theorem State.MemForm.fromReader {from_ : ModIx} (h : s.MemForm) :
    (s.fromReader n from_ code number shard).MemForm := by
  unfold State.fromReader
  split
  · exact h
  · split
    · exact .ite h.heardReader h
    · exact h

theorem State.MemForm.shardReported {from_ : ModIx} (h : s.MemForm) :
    (s.shardReported n from_ code number shard).MemForm := by
  unfold State.shardReported
  dsimp only
  split
  · exact h
  · split
    · exact .ite (.ite h.endRepair.partEvent h.endRepair) (.ite (.ite h.endRepair.partEvent h.endRepair) h.setVer)
    · exact .ite h (.ite h.masterChange (.ite h.setVer.masterChange h.setVer))

theorem State.MemForm.takeReport {from_ : ModIx} (h : s.MemForm) :
    (s.takeReport n from_ code number shard).MemForm :=
  .ite (.ite (.ite h.loadRefused h) (.loadReported (h.same rfl))) (.ite h.fromReader h.fromReader.shardReported)

theorem State.MemForm.report {all : Bool} (h : s.MemForm) : (s.report n code number shard all).MemForm :=
  h.sendMgmt.takeReport

theorem State.MemForm.takeManifest {b : List Byte} {timeout : Nat} (h : s.MemForm) :
    (s.takeManifest n b timeout).MemForm :=
  .report (h.same rfl)

theorem State.MemForm.masterLoad {k : HostCmd} (h : s.MemForm) : (s.masterLoad k).MemForm :=
  .loadReported (.ite (h.same rfl) (h.same rfl))

theorem State.MemForm.forwardTo {k : HostCmd} {take : State → State} (h : s.MemForm)
    (htake : ∀ t, t.MemForm → (take t).MemForm) : (s.forwardTo k take).MemForm :=
  .ite (htake _ h) h.send.onMgmt

theorem State.MemForm.forwardCmd (h : s.MemForm) : (s.forwardCmd cmd f n).MemForm :=
  h.popCmd.forwardTo (fun _ ht => ht.masterTake)

theorem State.MemForm.execModelLoad (h : s.MemForm) : NextForm (execModelLoad f s) := by
  refine .lift (.partCmd h (fun _ _ ht => .ite ht.complete ?_))
  dsimp only
  split
  · exact ht.readMem.complete
  · exact .ite ht.readMem.complete (.ite ht.readMem.complete (.ite ht.readMem.complete (.ite ht.readMem.complete
      (.takeManifest (.update (.forwardTo (.popCmd (.ite ht.readMem ht.readMem.send.onMgmt)) (fun _ hu =>
      hu.masterLoad)))))))

theorem State.MemForm.execManifestReceive {manifest : List Byte} {timeout : Word} (h : s.MemForm) :
    NextForm (execManifestReceive m manifest timeout s) :=
  .lift h.takeManifest

theorem State.MemForm.execReport (h : s.MemForm) : NextForm (execReport m version shard s) :=
  .lift h.takeReport

theorem State.MemForm.setFetch (h : s.MemForm) : (s.setFetch n number shard x).MemForm := h.updVer

theorem State.MemForm.askSource {k : Shard} (h : s.MemForm) : (s.askSource n v shard k x).MemForm :=
  .ite h h.send

theorem State.MemForm.startTry {k : Shard} (h : s.MemForm) : (s.startTry n v shard k x).MemForm :=
  h.setFetch.askSource

theorem State.MemForm.noticeRetry {k : Shard} (h : s.MemForm) : (s.noticeRetry n number shard k).MemForm :=
  h.sendMgmt

theorem State.MemForm.sendShard {k : Shard} {dst : List ModIx} (h : s.MemForm) :
    (s.sendShard n number shard k dst bs).MemForm :=
  .ite h (h.send.foldl (fun _ _ ht => ht.onWire))

theorem State.MemForm.tryFailed {s0 : State} {k : Shard} (h : s0.MemForm) : (s0.tryFailed n v shard k x).MemForm :=
  .ite h.noticeRetry.setFetch (.ite h.noticeRetry.partEvent.setFetch.report h.noticeRetry.partEvent.startTry)

theorem State.MemForm.execShardFetchStart (h : s.MemForm) : NextForm (execShardFetchStart n version shard s) := by
  refine .lift ?_
  split
  · exact h
  · exact .ite h.startTry h

theorem State.MemForm.poisonUnit (h : s.MemForm) : (s.poisonUnit a).MemForm := .ite (h.same rfl) (h.same rfl)

theorem State.MemForm.ingest {k : Shard} {repair : Bool} (h : s.MemForm) : (s.ingest n k bs repair).1.MemForm := by
  unfold State.ingest
  dsimp only
  split
  · refine .foldl_fst h (fun _ _ ht => ?_)
    split
    · exact ht
    · exact .fst ht.writeMem
  · exact .fst h.writeMem

theorem State.MemForm.tryBytes {k : Shard} {bytes : List Byte} (h : s.MemForm) :
    (s.tryBytes n v k x bytes).1.MemForm := by
  unfold State.tryBytes
  split
  · split
    · exact h.readMem
    · exact h
  · exact h

theorem State.MemForm.badTry {k : Shard} (h : s.MemForm) : (s.badTry n v shard k x).MemForm :=
  .ite h.tryFailed (.ite h.setFetch (.ite h.setFetch.send h.setFetch))

theorem State.MemForm.execShardVerify {bytes : List Byte} (h : s.MemForm) :
    NextForm (execShardVerify n version shard bytes s) := by
  refine .lift ?_
  dsimp only
  split
  · exact h
  · refine .ite h ?_
    split
    · exact h.tryBytes.badTry
    · split
      · exact h.tryBytes.sendShard.ingest.badTry
      · exact .ite h.tryBytes.sendShard.ingest.setFetch.report (h.tryBytes.sendShard.ingest.foldl (fun _ _ ht =>
          ht.poisonUnit)).badTry

theorem State.MemForm.execShardFetchTimeout (h : s.MemForm) : NextForm (execShardFetchTimeout n version shard s) := by
  refine .lift ?_
  split
  · exact h
  · exact .ite h (.ite h.tryFailed h.setFetch)

theorem State.MemForm.execShardRetryTimer (h : s.MemForm) : NextForm (execShardRetryTimer n version shard s) := by
  refine .lift ?_
  split
  · exact h
  · exact .ite h.startTry h

theorem State.MemForm.execShardResendRequest {target : ModIx} (h : s.MemForm) :
    NextForm (execShardResendRequest n version shard target s) := by
  refine .lift ?_
  dsimp only
  split
  · exact h
  · refine .ite ?_ h
    split
    · exact h.readMem.sendShard
    · exact h.readMem

theorem State.MemForm.startRepair (h : s.MemForm) : (s.startRepair n number shard).MemForm := by
  unfold State.startRepair
  dsimp only
  split
  · exact h
  · split
    · exact h
    · exact h.setVer

theorem State.MemForm.execModelRepair (h : s.MemForm) : NextForm (execModelRepair f s) := by
  refine .lift (.partCmd h (fun _ _ ht => .ite ht.complete ?_))
  split
  · exact ht.complete
  · exact .ite ht.complete (.ite ht.complete (ht.foldl (fun _ _ hu => hu.send)).onMgmt.startRepair.complete)

theorem State.MemForm.execModelActivate (h : s.MemForm) : NextForm (execModelActivate f s) :=
  .lift (h.partCmd (fun _ _ ht => .ite ht.complete ht.forwardCmd))

theorem State.MemForm.execModelDrop (h : s.MemForm) : NextForm (execModelDrop f s) :=
  .lift (h.partCmd (fun _ _ ht => .ite ht.complete ht.forwardCmd))

theorem State.MemForm.execModelQuery (h : s.MemForm) : NextForm (execModelQuery f s) :=
  .lift (h.partCmd (fun _ _ ht => .ite ht.complete ht.complete))

theorem State.MemForm.retireVersions (h : s.MemForm) : (s.retireVersions n).MemForm := by
  refine .foldl h (fun _ _ ht => ?_)
  split
  · exact ht
  · exact .ite ht.freeVer.partEvent ht

/-! ## Machine.Serving -/

theorem State.MemForm.latchCfg (h : s.MemForm) : (s.latchCfg n).MemForm := .setReg (h.same rfl)

theorem State.MemForm.applySubmit {w : HostCmd} (h : s.MemForm) : (s.applySubmit w k).MemForm := by
  refine .ite h.completeFwd (.ite h.completeFwd (.ite h.completeFwd ?_))
  dsimp only
  split
  · exact h.completeFwd
  · split
    · exact h.completeFwd
    · split
      · exact h.completeFwd
      · exact .ite h.domReport.completeFwd (h.setSvPart.putBytes.putEntry.foldl (fun _ _ ht =>
          ht.clearMap)).completeFwd

theorem State.MemForm.execSubmit (h : s.MemForm) : NextForm (execSubmit f s) :=
  .lift (h.partCmd (fun _ _ ht => .ite ht.complete (.ite ht.complete ht.forwardCmd)))

theorem State.MemForm.applyCancel {k : HostCmd} (h : s.MemForm) : (s.applyCancel k).MemForm := by
  unfold State.applyCancel
  split
  · exact h.completeFwd
  · exact .ite h.completeFwd h.putEntry.completeFwd

theorem State.MemForm.execCancel (h : s.MemForm) : NextForm (execCancel f s) :=
  .lift (h.partCmd (fun _ _ ht => .ite ht.complete ht.forwardCmd))

theorem State.MemForm.execResultRead (h : s.MemForm) : NextForm (execResultRead f s) := by
  refine .lift (.partCmd h (fun _ _ ht => .ite ht.complete ?_))
  split
  · exact ht.complete
  · exact .ite ht.complete (.complete (ht.same rfl))

theorem State.MemForm.applyResultAck {k : HostCmd} (h : s.MemForm) : (s.applyResultAck k).MemForm := by
  unfold State.applyResultAck
  dsimp only
  split
  · exact h.completeFwd
  · exact .ite h.completeFwd h.putEntry.setSvPart.update.completeFwd

theorem State.MemForm.execResultAck (h : s.MemForm) : NextForm (execResultAck f s) :=
  .lift (h.partCmd (fun _ _ ht => .ite ht.complete ht.forwardCmd))

theorem State.MemForm.applyInstall {k : HostCmd} (h : s.MemForm) : (s.applyInstall k).MemForm := by
  unfold State.applyInstall
  split
  · exact h.completeFwd
  · exact .ite h.completeFwd (.completeFwd (h.same rfl))

theorem State.MemForm.applyRemove {k : HostCmd} (h : s.MemForm) : (s.applyRemove k).MemForm :=
  .ite h.completeFwd (.completeFwd (h.same rfl))

theorem State.MemForm.execProgramInstall (h : s.MemForm) : NextForm (execProgramInstall f s) :=
  .lift (h.partCmd (fun _ _ ht => ht.forwardCmd))

theorem State.MemForm.execProgramRemove (h : s.MemForm) : NextForm (execProgramRemove f s) :=
  .lift (h.partCmd (fun _ _ ht => .ite ht.complete ht.forwardCmd))

theorem State.MemForm.applyCmd {w : HostCmd} (h : s.MemForm) : (State.applyCmd k s w).MemForm :=
  .ite h.applySubmit (.ite h.applyCancel (.ite h.applyResultAck (.ite h.applyInstall (.ite h.applyRemove (.ite
      h.applyVersion h)))))

theorem State.MemForm.execForward {f : HostCmd} (h : s.MemForm) : NextForm (execForward m f s) :=
  .lift (.ite h.startRepair (.ite h (.ite h.masterLoad h.masterTake)))

theorem State.MemForm.execIntake {cmds : List HostCmd} (h : s.MemForm) : NextForm (execIntake m cmds s) :=
  .lift (.ite h.setSvPart (h.foldl (fun _ _ ht => ht.applyVersion)))

theorem State.MemForm.applyIntake (h : s.MemForm) : (s.applyIntake n k).MemForm :=
  .ite (h.setSvPart.sendIntake.foldl (fun _ _ ht => ht.applyCmd)) (.ite h.setSvPart (h.setSvPart.foldl (fun _ _ hu
      => hu.applyCmd)))

/-! ## Machine.Batch -/

theorem State.MemForm.evalIssueLevel (h : s.MemForm) : (s.evalIssueLevel n).MemForm := h.setReg.setReg

theorem State.MemForm.ite_build {p : Prop} {i : Decidable p} {y z : Build} (h : y.s.MemForm) (h' : z.s.MemForm) :
    (if p then y else z).s.MemForm := by
  split
  · exact h
  · exact h'

/-- A candidate leaves the build's memory in its canonical form. -/
theorem State.MemForm.buildStep {prog : Program} {prev : Batch} {k : Nat} {y : Build} {z : Planned}
    (h : y.s.MemForm) : (y.step n prog prev k z).s.MemForm := by
  unfold Build.step
  refine .ite_build h (.ite_build (h.foldl fun _ _ ht => ht.promoteDie) ?_)
  refine .ite_build (.ite_build h h) (.ite_build h ?_)
  split
  · exact h
  · exact h

theorem State.MemForm.buildBatch {k : Nat} (h : s.MemForm) : (s.buildBatch n k).MemForm := by
  unfold State.buildBatch
  split
  · exact .ite h.setSvPart (.ite h.setSvPart (.setSvPart
      (List.foldlRecOn (motive := fun y : Build => y.s.MemForm) _ _ h fun _ hy _ _ => hy.buildStep)))
  · exact h.setSvPart
  · exact h.setSvPart

theorem State.MemForm.finaliseSeq {active : Code} {acc : State × List BatchRow} {q : PlanSeq} (h : acc.1.MemForm) :
    (finaliseSeq active acc q).1.MemForm := by
  unfold Machine.finaliseSeq
  dsimp only
  split
  · exact h
  · split
    · exact h
    · exact .fst (.ite h.putEntry h)

theorem State.MemForm.finalise (h : s.MemForm) : (s.finalise n).MemForm := by
  unfold State.finalise
  dsimp only
  split
  · exact h.setSvPart
  · exact (h.foldl_fst (fun _ _ ht => ht.finaliseSeq)).setSvPart.setReg

theorem State.MemForm.countLatency {y : Yielded} {us : Nat} (h : s.MemForm) : (s.countLatency n y us).MemForm :=
  .ite h.bump (.ite h.bump.bump.setReg h.bump.bump.setReg)

theorem State.MemForm.missLimit {x : Entry} (h : s.MemForm) : (s.missLimit n x tick).1.MemForm := by
  unfold State.missLimit
  dsimp only
  split
  · exact h
  · exact .fst (.ite h.partEventAt h)

theorem State.MemForm.commitEntry {apply : Word} {tickLate bound : Bool} (h : s.MemForm) :
    (State.commitEntry n tick apply tickLate bound s e).MemForm := by
  unfold State.commitEntry
  dsimp only
  split
  · exact h
  · exact .ite h (.ite (.eventOn (.ite h.missLimit.putEntry.countLatency.update
      h.missLimit.putEntry.countLatency.update.tableWrite)) (.ite h.missLimit.putEntry.countLatency.update
      h.missLimit.putEntry.countLatency.update.tableWrite))

theorem State.MemForm.idleAgain (h : s.MemForm) : (s.idleAgain e).MemForm := by
  unfold State.idleAgain
  split
  · exact h.setEntry
  · exact h

theorem State.MemForm.commitRequests {apply : Word} {late bound : Bool} (h : s.MemForm) :
    (s.commitRequests n tick apply late bound).MemForm :=
  ((((h.foldl (fun _ _ ht => ht.commitEntry)).kvPublish.foldl (fun _ _ hu => hu.foldl (fun _ _ hv =>
      hv.freeEntry))).foldl (fun _ _ hw => hw.idleAgain)).foldl (fun _ _ hx => hx.switchDie)).foldl (fun _ _ hy =>
      hy.foldl (fun _ _ hx => hx.demoteDie))

theorem State.MemForm.announceSwitches (h : s.MemForm) : (s.announceSwitches n).MemForm :=
  h.setSvPart.foldl (fun _ _ ht => ht.partEvent)

/-! ## Machine.Cap -/

theorem State.MemForm.setPw {p : Power} (h : s.MemForm) : (s.setPw p).MemForm := h.same rfl

theorem State.MemForm.pwrReport (h : s.MemForm) : (s.pwrReport code detail).MemForm := h.mgmtReport

theorem State.MemForm.endTracking (h : s.MemForm) : s.endTracking.MemForm := h.setPw.pwrReport

theorem State.MemForm.track {old : Nat} (h : s.MemForm) : (s.track old).MemForm :=
  .ite (.ite h.endTracking h) (.ite h.setPw.pwrReport h)

theorem State.MemForm.recap (h : s.MemForm) : s.recap.MemForm :=
  .track (.ite h.setReg h.setReg.setPw.pwrReport)

theorem State.MemForm.storeCap {w : Nat} (h : s.MemForm) : (s.storeCap w).MemForm :=
  .ite h.setReg.pwrReport h.setReg

/-! ## Machine.Change -/

theorem State.MemForm.setTrust {t : Trust} (h : s.MemForm) : (s.setTrust t).MemForm := h.same rfl

theorem State.MemForm.secCode (h : s.MemForm) : (s.secCode code).MemForm := h.setReg

theorem State.MemForm.putItem {i : ChangeItem} (h : s.MemForm) : (s.putItem i).MemForm := by
  unfold State.putItem
  dsimp only
  split
  · exact h.setReg
  · exact h.setReg.setReg
  · exact h.setTrust
  · exact h.setTrust
  · exact h.setReg
  · exact h.setTrust
  · exact .ite h.setTrust h.setTrust

theorem State.MemForm.putItems {l : List ChangeItem} (h : s.MemForm) : (s.putItems l).MemForm :=
  h.foldl (fun _ _ ht => ht.putItem)

theorem State.MemForm.recodeRange {b : Nat} {old new : List Byte} (h : s.MemForm) :
    (s.recodeRange a b old new).MemForm :=
  .ite h (.recoded h rfl)

theorem State.MemForm.rekey {old : State} (h : s.MemForm) : (s.rekey old).MemForm :=
  h.foldl (fun _ _ ht => ht.recodeRange)

theorem State.MemForm.applyItems {l : List ChangeItem} (h : s.MemForm) : (s.applyItems l f).MemForm :=
  .complete (.flashWrite (.mgmtEvent (.secCode (.ite (.ite h.putItems.derFree.setTrust.rekey
      h.putItems.derFree.setTrust.rekey.secCode.mgmtEvent) (.recap (.storeCap (.ite
      h.putItems.derFree.setTrust.rekey h.putItems.derFree.setTrust.rekey.secCode.mgmtEvent)))))))

theorem State.MemForm.applyChange (h : s.MemForm) : (s.applyChange n).MemForm := by
  unfold State.applyChange
  split
  · exact h
  · exact .ite h.applyItems h

/-! ## Machine.Records -/

theorem State.MemForm.setImage {b : Bool} {x : Image} (h : s.MemForm) : (s.setImage b x).MemForm :=
  h.same rfl

/-! ## Machine.Ex -/

theorem State.MemForm.setLayer {x : ExLayer} (h : s.MemForm) : (s.setLayer d n x).MemForm := h.same rfl

theorem State.MemForm.updLayer {f : ExLayer → ExLayer} (h : s.MemForm) : (s.updLayer d n f).MemForm := by
  unfold State.updLayer
  split
  · exact h
  · exact h.setLayer

theorem State.MemForm.exCode (h : s.MemForm) : (s.exCode d n seg code).MemForm := .ite h.setReg h

theorem State.MemForm.exFault (h : s.MemForm) : (s.exFault d n seg code).MemForm :=
  .ite h.exCode.segError (h.exCode.foldl (fun _ _ ht => ht.kill))

theorem State.MemForm.exWrites {l : List (Nat × List Byte)} (h : s.MemForm) : (s.exWrites d n seg l).MemForm := by
  unfold State.exWrites
  dsimp only
  split
  · refine .foldl_fst h (fun _ _ ht => ?_)
    split
    · exact ht
    · split <;> exact .fst ht.writeMem
  · refine .exFault (.foldl_fst h (fun _ _ hu => ?_))
    split
    · exact hu
    · split <;> exact .fst hu.writeMem

theorem State.MemForm.exReads {l : List (Nat × Nat)} (h : s.MemForm) : (s.exReads d n l).1.MemForm := by
  refine .foldl_fst h (fun _ _ ht => ?_)
  split
  · exact ht
  · exact .fst ht.readMem

theorem State.MemForm.exTile (h : s.MemForm) : (s.exTile d n td).1.MemForm := by
  unfold State.exTile
  dsimp only
  split
  · exact h
  · split
    · exact h
    · exact .fst h.exReads

theorem State.MemForm.exSendAway (h : s.MemForm) : (s.exSendAway n d kind g).MemForm := by
  unfold State.exSendAway
  split
  · exact h.exFault
  · exact h.sendExchange

theorem State.MemForm.takeDispatch {x : ExLayer} (h : s.MemForm) : (s.takeDispatch n g x).MemForm :=
  .ite h.exFault h.setLayer.bump

theorem State.MemForm.takeReturn {x : ExLayer} (h : s.MemForm) : (s.takeReturn n g x).1.MemForm := by
  unfold State.takeReturn
  dsimp only
  split
  · exact .fst h.exFault
  · exact .fst h.setLayer

theorem State.MemForm.takeShip {x : ExLayer} (h : s.MemForm) : (s.takeShip n g x).MemForm := by
  unfold State.takeShip
  dsimp only
  split
  · exact .ite h.exFault h.exWrites.bump.updLayer
  · exact h.exFault

theorem State.MemForm.takeCount {x : ExLayer} (h : s.MemForm) : (s.takeCount n g x).MemForm :=
  .ite h.exFault (.ite h.exFault (.ite h.exFault (h.foldl (fun _ _ ht => ht.updLayer))))

theorem State.MemForm.exTake (h : s.MemForm) : (s.exTake n kind g).1.MemForm := by
  unfold State.exTake
  split
  · exact .fst h.exFault
  · split
    · exact .fst h.takeCount
    · exact .fst h.takeDispatch
    · exact h.takeReturn
    · exact .fst h.takeShip

theorem State.MemForm.exSend {k : Nat} (h : s.MemForm) : (State.exSend n k s kind g).MemForm := by
  induction k generalizing s kind g with
  | zero => exact h
  | succ k ih =>
    unfold State.exSend
    refine .ite (.ite ?_ (h.same rfl)) h.exSendAway
    dsimp only
    split
    · exact ih h.exTake.bump
    · exact h.exTake

theorem State.MemForm.exDispatch (h : s.MemForm) : (s.exDispatch n d g).MemForm := h.bump.exSend

theorem State.MemForm.exAnswer {p : ExCmd → Bool} {r : Word} (h : s.MemForm) : (s.exAnswer d n p r).MemForm := by
  unfold State.exAnswer
  dsimp only
  split
  · exact h
  · exact h.setLayer.foldl (fun _ _ ht => ht.deliver)

theorem State.MemForm.exShareCounts (h : s.MemForm) : (s.exShareCounts n).MemForm := by
  unfold State.exShareCounts
  dsimp only
  split
  · exact h
  · refine .ite h ?_
    split
    · exact h.exFault
    · exact (h.foldl (fun _ _ ht => ht.updLayer)).foldl (fun _ _ hu => hu.exSendAway)

theorem State.MemForm.exShip (h : s.MemForm) : (State.exShip n d s e).MemForm := by
  unfold State.exShip
  dsimp only
  split
  · exact h
  · split
    · exact h
    · refine .ite h ?_
      split
      · exact h.exReads.exFault
      · exact .ite h.exReads.bump h.exReads.bump.exSendAway

theorem State.MemForm.exCount (h : s.MemForm) : (State.exCount n s d).MemForm := by
  unfold State.exCount
  dsimp only
  split
  · exact h
  · exact .ite h (.foldl (.foldl (.ite h.exWrites.setLayer.bump.setReg.exCode.partEvent.updDom
      h.exWrites.setLayer.bump.setReg) (fun _ _ ht => ht.exCode.partEvent)) (fun _ _ hu => hu.exShip))

theorem State.MemForm.exStart (h : s.MemForm) : (State.exStart n s d).MemForm := by
  unfold State.exStart
  dsimp only
  split
  · exact h
  · exact .ite h (h.setLayer.foldl (fun _ _ ht => ht.exDispatch)).exAnswer.exAnswer

theorem State.MemForm.exWaitin (h : s.MemForm) : (State.exWaitin n s d).MemForm := by
  unfold State.exWaitin
  dsimp only
  split
  · exact h
  · exact .ite h h.exWrites.bump.updLayer.exAnswer

theorem State.MemForm.exCombine (h : s.MemForm) : (State.exCombine n s d).MemForm := by
  unfold State.exCombine
  dsimp only
  split
  · exact h
  · split
    · exact h
    · exact .ite h h.exWrites.updLayer.exAnswer

theorem State.MemForm.exHeld (h : s.MemForm) : (s.exHeld n).MemForm :=
  .foldl (h.same rfl) (fun _ _ ht => ht.exSend)

theorem State.MemForm.exPass (h : s.MemForm) : (State.exPass n s).MemForm :=
  (((h.exShareCounts.foldl (fun _ _ ht => ht.exCount)).exHeld.foldl (fun _ _ hu => hu.exStart)).foldl (fun _ _ hv
      => hv.exWaitin)).foldl (fun _ _ hw => hw.exCombine)

theorem State.MemForm.exRun (h : s.MemForm) : (s.exRun n).MemForm := h.exPass.exPass.exPass.wakeAll

theorem State.MemForm.joinCmd {k : ExCmd} (h : s.MemForm) : (s.joinCmd c n tag k).MemForm := by
  unfold State.joinCmd
  dsimp only
  split
  · exact h.updLayer.deliver
  · exact h.updLayer

theorem State.MemForm.exStatus (h : s.MemForm) : (s.exStatus c tag code).MemForm := h.deliver

theorem State.MemForm.exRoute {a : Word} (h : s.MemForm) : (s.exRoute c n tag a b).MemForm := by
  unfold State.exRoute
  dsimp only
  split
  · exact h.joinCmd
  · refine .ite h.exStatus ?_
    split
    · split
      · exact h.readMem.kill
      · refine .ite h.exStatus ?_
        split
        · refine .kill (.readMem ?_)
          split
          · exact .fst h.readMem.readMem
          · exact h.readMem.readMem.readMem
        · refine .kill (.readMem ?_)
          split
          · exact .fst h.readMem.readMem
          · exact h.readMem.readMem.readMem
        · refine .kill (.readMem ?_)
          split
          · exact .fst h.readMem.readMem
          · exact h.readMem.readMem.readMem
        · refine .ite h.exStatus ?_
          split
          · refine .kill (.exTile (.readMem ?_))
            split
            · exact .fst h.readMem.readMem
            · exact h.readMem.readMem.readMem
          · refine .ite (.kill (.exTile (.readMem ?_))) (.exRun (.exWrites (.deliver (.bump (.setLayer (.exTile
              (.readMem ?_)))))))
            all_goals
              split
              · exact .fst h.readMem.readMem
              · exact h.readMem.readMem.readMem
    · exact h.kill

theorem State.MemForm.exDispatchCmd {a : Word} (h : s.MemForm) : (s.exDispatchCmd c n tag a b).MemForm := by
  unfold State.exDispatchCmd
  dsimp only
  split
  · exact h.exStatus
  · split
    · exact h.joinCmd
    · refine .ite h.exStatus ?_
      split
      · exact h.kill
      · split
        · exact h.readMem.kill
        · split
          · exact h.readMem.exTile.kill
          · exact .ite h.readMem.exTile.kill h.readMem.exTile.setLayer.exRun

theorem State.MemForm.exWaitinCmd {a : Word} (h : s.MemForm) : (s.exWaitinCmd c n tag a b).MemForm := by
  unfold State.exWaitinCmd
  dsimp only
  split
  · exact h.exStatus
  · split
    · exact h.joinCmd
    · exact .ite h.exStatus h.setLayer.exRun

theorem State.MemForm.exReturnCmd {a : Word} (h : s.MemForm) : (s.exReturnCmd c n tag a b).MemForm := by
  unfold State.exReturnCmd
  dsimp only
  split
  · exact h.exStatus
  · split
    · exact h.joinCmd
    · refine .ite h.exStatus ?_
      split
      · exact h.exReads.exFault
      · exact (h.exReads.setLayer.deliver.foldl (fun _ _ ht => ht.exSend)).exRun

theorem State.MemForm.exCombineCmd {a : Word} (h : s.MemForm) : (s.exCombineCmd c n tag a b).MemForm := by
  unfold State.exCombineCmd
  dsimp only
  split
  · exact h.exStatus
  · split
    · exact h.joinCmd
    · refine .ite h.exStatus ?_
      split
      · exact h.kill
      · split
        · exact h.readMem.kill
        · split
          · exact h.readMem.kill
          · exact .ite h.readMem.kill h.readMem.setLayer.exRun

theorem State.MemForm.exQueryCmd {a : Word} (h : s.MemForm) : (s.exQueryCmd c n tag a b).MemForm := by
  unfold State.exQueryCmd
  split
  · exact h.exStatus
  · exact .ite h.exStatus h.deliver

theorem State.MemForm.dieCommand {station fn : Nat} {a : Word} (h : s.MemForm) :
    (s.dieCommand c n station fn tag a b).MemForm := by
  unfold State.dieCommand
  split
  · exact h.kvAlloc
  · exact h.kvPageCmd
  · exact h.exRoute
  · exact h.exDispatchCmd
  · exact h.exWaitinCmd
  · exact h.exReturnCmd
  · exact h.exCombineCmd
  · exact h.exQueryCmd
  · exact h.draftsync
  · exact h.svYield
  · exact h.kill

theorem State.MemForm.dcmd {f : FmtR} (h : s.MemForm) : (dcmd c f s).MemForm :=
  .issue1 (fun _ ht => .thenNext (fun _ hu => hu.updCore.dieCommand) ht) h

theorem State.MemForm.execAlloc {f : FmtR} (h : s.MemForm) : NextForm (execAlloc c f s) := .lift h.dcmd

theorem State.MemForm.execKvPage {f : FmtR} (h : s.MemForm) : NextForm (execKvPage c f s) := .lift h.dcmd

theorem State.MemForm.execDraftsync {f : FmtR} (h : s.MemForm) : NextForm (execDraftsync c f s) :=
  .lift h.dcmd

theorem State.MemForm.execYield {f : FmtR} (h : s.MemForm) : NextForm (execYield c f s) := .lift h.dcmd

theorem State.MemForm.execRoute {f : FmtR} (h : s.MemForm) : NextForm (execRoute c f s) := .lift h.dcmd

theorem State.MemForm.execDispatch {f : FmtR} (h : s.MemForm) : NextForm (execDispatch c f s) := .lift h.dcmd

theorem State.MemForm.execWaitin {f : FmtR} (h : s.MemForm) : NextForm (execWaitin c f s) := .lift h.dcmd

theorem State.MemForm.execReturnRows {f : FmtR} (h : s.MemForm) : NextForm (execReturnRows c f s) :=
  .lift h.dcmd

theorem State.MemForm.execCombine {f : FmtR} (h : s.MemForm) : NextForm (execCombine c f s) := .lift h.dcmd

theorem State.MemForm.execExQuery {f : FmtR} (h : s.MemForm) : NextForm (execExQuery c f s) := .lift h.dcmd

theorem State.MemForm.exArrive (h : s.MemForm) : (s.exArrive n kind g).MemForm := by
  refine .ite (.ite (h.foldl (fun _ _ ht => ht.countArrival)).sendExchange (h.foldl (fun _ _ hu =>
      hu.countArrival))) ?_
  split
  · exact .ite (h.foldl (fun _ _ hv => hv.countArrival)).sendExchange (h.foldl (fun _ _ ht => ht.countArrival))
  · exact .bump (.ite (h.foldl (fun _ _ hw => hw.countArrival)).sendExchange (h.foldl (fun _ _ hv =>
      hv.countArrival)))
  · exact .update (.ite (h.foldl (fun _ _ hw => hw.countArrival)).sendExchange (h.foldl (fun _ _ hv =>
      hv.countArrival)))
  · exact .exRun (.exSend (.ite (h.foldl (fun _ _ hx => hx.countArrival)).sendExchange (h.foldl (fun _ _ hw =>
      hw.countArrival))))

theorem State.MemForm.execCountRecord {x : ExSegment} (h : s.MemForm) : NextForm (execCountRecord n x s) :=
  .lift h.exArrive

theorem State.MemForm.execDispatchSegment {x : ExSegment} (h : s.MemForm) : NextForm (execDispatchSegment n x s) :=
  .lift h.exArrive

theorem State.MemForm.execReturnSegment {x : ExSegment} (h : s.MemForm) : NextForm (execReturnSegment n x s) :=
  .lift h.exArrive

theorem State.MemForm.execShipSegment {x : ExSegment} (h : s.MemForm) : NextForm (execShipSegment n x s) :=
  .lift h.exArrive

theorem State.MemForm.execExCountTimeout (h : s.MemForm) : NextForm (execExCountTimeout die n s) := by
  refine .lift ?_
  split
  · exact h
  · exact h.when (fun _ ht => ht.exFault)

theorem State.MemForm.execExDataTimeout (h : s.MemForm) : NextForm (execExDataTimeout die n s) := by
  refine .lift ?_
  split
  · exact h
  · exact h.when (fun _ ht => ht.exFault)

theorem State.MemForm.exClear (h : s.MemForm) : (s.exClear n).MemForm := .update (h.same rfl)

/-! ## Machine.Packets -/

theorem State.MemForm.collIssue {f : FmtT} (h : s.MemForm) : (collIssue c f s).MemForm := by
  refine .issue1 (fun _ ht => ?_) h
  dsimp only
  split
  · exact ht.kill
  · split
    · exact ht
    · exact .issued (fun _ hu => hu.updCore) ht

theorem State.MemForm.execAllreduceSum {f : FmtT} (h : s.MemForm) : NextForm (execAllreduceSum c f s) :=
  .lift h.collIssue

theorem State.MemForm.execReduceSum {f : FmtT} (h : s.MemForm) : NextForm (execReduceSum c f s) :=
  .lift h.collIssue

theorem State.MemForm.execReduceScatterSum {f : FmtT} (h : s.MemForm) : NextForm (execReduceScatterSum c f s) :=
  .lift h.collIssue

theorem State.MemForm.execAllreduceMax {f : FmtT} (h : s.MemForm) : NextForm (execAllreduceMax c f s) :=
  .lift h.collIssue

theorem State.MemForm.execAllgather {f : FmtT} (h : s.MemForm) : NextForm (execAllgather c f s) :=
  .lift h.collIssue

theorem State.MemForm.execBroadcast {f : FmtT} (h : s.MemForm) : NextForm (execBroadcast c f s) :=
  .lift h.collIssue

theorem State.MemForm.execBarrier {f : FmtT} (h : s.MemForm) : NextForm (execBarrier c f s) :=
  .lift h.collIssue

theorem State.MemForm.answerCore {r : Request} (h : s.MemForm) : (s.answerCore c r bs).MemForm := by
  unfold State.answerCore
  dsimp only
  split
  · exact h.bump.deliver
  · exact h.deliver
  · split
    · exact .ite h.resume h
    · exact h
  · exact .updCore (.ite h.bump h)
  · exact h

theorem State.MemForm.requestFails {r : Request} (h : s.MemForm) : (s.requestFails r code).MemForm := by
  unfold State.requestFails
  split
  · exact .ite h.kill h
  · exact .ite h.segError h.lastCode
  · exact h

theorem State.MemForm.afterAnswer {r : Request} (h : s.MemForm) : (s.afterAnswer r).MemForm := by
  unfold State.afterAnswer
  split
  · exact h.settle
  · exact h.wakeAll

theorem State.MemForm.dropRequest {tag : Code} (h : s.MemForm) : (s.dropRequest tag).MemForm := h.same rfl

theorem State.MemForm.responseIn (h : s.MemForm) : (s.responseIn pk).MemForm := by
  unfold State.responseIn
  dsimp only
  split
  · exact h.bump
  · refine .ite (h.same rfl) (.afterAnswer (.ite h.dropRequest.requestFails ?_))
    split
    · exact h.dropRequest.answerCore
    · exact h.dropRequest

theorem State.MemForm.requestDead {r : Request} (h : s.MemForm) : (s.requestDead r).MemForm := by
  refine .afterAnswer (.requestFails ?_)
  split
  · exact h.dropRequest.bump.setReg.answerCore
  · exact h.dropRequest.bump.setReg.answerCore
  · exact h.dropRequest.bump.setReg.answerCore
  · exact .ite h.dropRequest.bump.setReg h.dropRequest.bump.setReg.answerCore
  · exact h.dropRequest.bump.setReg

theorem State.MemForm.respond {poison : Bool} (h : s.MemForm) : (s.respond op pk status poison payload).MemForm :=
  h.sendPacket

theorem State.MemForm.serveRead (h : s.MemForm) : (s.serveRead pk).MemForm := by
  unfold State.serveRead
  dsimp only
  split
  · exact h.readMem.respond
  · exact h.readMem.lastCode.respond

theorem State.MemForm.poisonRange {p : Place} (h : s.MemForm) : (s.poisonRange p len).MemForm :=
  .ite (h.same rfl) h

theorem State.MemForm.serveWrite (h : s.MemForm) : (s.serveWrite pk).MemForm := by
  refine .ite h.svReceive.respond.wakeAll (.ite h.respond ?_)
  dsimp only
  split
  · refine .respond ?_
    split
    · exact h.writeMem.poisonRange
    · exact h.writeMem
  · exact h.writeMem.lastCode.respond

theorem State.MemForm.serveAtom {op : AtomOp} (h : s.MemForm) : (s.serveAtom op pk).MemForm := by
  unfold State.serveAtom
  dsimp only
  split
  · exact h.atomMem.respond
  · exact h.atomMem.lastCode.respond

theorem State.MemForm.collIn {isResult : Bool} (h : s.MemForm) : (s.collIn isResult pk).MemForm :=
  h.putInst.collStep.wakeAll

theorem State.MemForm.effect (h : s.MemForm) : (s.effect op pk).MemForm := by
  unfold State.effect
  split
  · exact h.serveRead
  · exact h.serveWrite
  · exact h.serveAtom
  · exact h.serveAtom
  · exact h.serveAtom
  · exact h.serveAtom
  · exact h.serveAtom
  · exact h.responseIn
  · exact h.responseIn
  · exact h.responseIn
  · exact h.collIn
  · exact h.collIn

theorem State.MemForm.underStamp (h : s.MemForm) : (s.underStamp op pk).MemForm := by
  refine .ite h.effect ?_
  split
  · exact h
  · exact h.bump
  · exact h.effect
  · exact h.same rfl

theorem State.MemForm.badPacket (h : s.MemForm) : s.badPacket.MemForm := h.bump.mgmtReport

theorem State.MemForm.packetIn {s0 : State} (h : s0.MemForm) : (s0.packetIn op pk).MemForm :=
  .ite h.badPacket (.ite (.ite (.underStamp (.ite h.countArrival.sendPacket h.countArrival)) (.ite
      h.countArrival.sendPacket h.countArrival)) (.ite h.countArrival.sendPacket h.countArrival.underStamp))

theorem State.MemForm.execRead (h : s.MemForm) : NextForm (execRead pk s) := .lift h.packetIn

theorem State.MemForm.execWrite (h : s.MemForm) : NextForm (execWrite pk s) := .lift h.packetIn

theorem State.MemForm.execAtomAdd (h : s.MemForm) : NextForm (execAtomAdd pk s) := .lift h.packetIn

theorem State.MemForm.execAtomMax (h : s.MemForm) : NextForm (execAtomMax pk s) := .lift h.packetIn

theorem State.MemForm.execAtomCas (h : s.MemForm) : NextForm (execAtomCas pk s) := .lift h.packetIn

theorem State.MemForm.execAtomSwap (h : s.MemForm) : NextForm (execAtomSwap pk s) := .lift h.packetIn

theorem State.MemForm.execAtomLadd (h : s.MemForm) : NextForm (execAtomLadd pk s) := .lift h.packetIn

theorem State.MemForm.execReadResp (h : s.MemForm) : NextForm (execReadResp pk s) := .lift h.packetIn

theorem State.MemForm.execWriteAck (h : s.MemForm) : NextForm (execWriteAck pk s) := .lift h.packetIn

theorem State.MemForm.execAtomResp (h : s.MemForm) : NextForm (execAtomResp pk s) := .lift h.packetIn

theorem State.MemForm.execCollPart (h : s.MemForm) : NextForm (execCollPart pk s) := .lift h.packetIn

theorem State.MemForm.execCollResult (h : s.MemForm) : NextForm (execCollResult pk s) := .lift h.packetIn

theorem State.MemForm.execFabDeadTimeout {tag : Code} (h : s.MemForm) : NextForm (execFabDeadTimeout tag s) := by
  refine .lift ?_
  split
  · exact h
  · exact h.requestDead

theorem State.MemForm.execFabHeldTimeout {tag : Code} (h : s.MemForm) : NextForm (execFabHeldTimeout tag s) :=
  .lift (.ite (h.same rfl) (h.same rfl))

theorem State.MemForm.execCeCollTimeout {group : Code} {inst : Nat} (h : s.MemForm) :
    NextForm (execCeCollTimeout n group inst s) := by
  refine .lift ?_
  split
  · exact h
  · exact h.collFault

theorem State.MemForm.releaseHeld (h : s.MemForm) : (s.releaseHeld n).MemForm :=
  .foldl (h.same rfl) (fun _ _ ht => ht.underStamp)

theorem State.MemForm.dropRun (h : s.MemForm) : (s.dropRun n).MemForm := h.same rfl

/-! ## Machine.Rewind -/

theorem State.MemForm.mapCores {f : CoreId → Core → Core} (h : s.MemForm) : (s.mapCores n f).MemForm :=
  h.same rfl

theorem State.MemForm.stopCores (h : s.MemForm) : (s.stopCores n).MemForm := h.mapCores

theorem State.MemForm.discardFrom (h : s.MemForm) : (s.discardFrom n j).MemForm :=
  h.exClear.kvRewind.updBatch.cancelReplays.restoreClaims.update.dropRun.updDom

theorem State.MemForm.trapEvents {first last : Nat} (h : s.MemForm) : (s.trapEvents n first last).MemForm :=
  h.updDom.foldl (fun _ _ ht => ht.partEvent)

theorem State.MemForm.mismatched (h : s.MemForm) : (s.mismatched n).MemForm :=
  .ite (h.foldl (fun _ _ ht => ht.setReg)).segError h

theorem State.MemForm.rewind {run : Nat} {preempt : Bool} (h : s.MemForm) : (s.rewind n j run preempt).MemForm :=
  .ite (.mismatched (.mapCores (.ite h.trapEvents.discardFrom.updDom h.trapEvents.discardFrom.updDom.derRestore)))
      (.mapCores (.ite h.trapEvents.discardFrom.updDom h.trapEvents.discardFrom.updDom.derRestore))

theorem State.MemForm.undoAppend (h : s.MemForm) : (s.undoAppend n).MemForm :=
  h.updDom.foldl (fun _ _ ht => ht.store)

theorem State.MemForm.discardTick (h : s.MemForm) : (s.discardTick n).MemForm := by
  unfold State.discardTick
  exact h.trapEvents.discardFrom.undoAppend.derRestore.mapCores.setSvPart.update.updDom

theorem State.MemForm.beginTick (h : s.MemForm) : (s.beginTick n).MemForm :=
  (h.updDom.dropRun.foldl (fun _ _ ht => ht.setReg)).update.mapCores.mismatched.releaseHeld

theorem State.MemForm.startTick (h : s.MemForm) : (s.startTick n).MemForm :=
  .ite h.beginTick.stopCores.updDom h.beginTick

theorem State.MemForm.releaseStart (h : s.MemForm) : (s.releaseStart n).MemForm :=
  .ite (.ite h.updDom h.updDom.mapCores) h

/-! ## Machine.Commit -/

theorem State.MemForm.reportTraffic (h : s.MemForm) : (s.reportTraffic n).MemForm := by
  unfold State.reportTraffic
  dsimp only
  split
  · exact h.setReg.setReg
  · exact .ite (.partReport (.ite h.setReg.setReg.partReport h.setReg.setReg)) (.ite h.setReg.setReg.partReport
      h.setReg.setReg)

theorem State.MemForm.reportHealth (h : s.MemForm) : (s.reportHealth n).MemForm := h.eventOn

theorem State.MemForm.reportSlowdown (h : s.MemForm) : (s.reportSlowdown n).MemForm :=
  .ite (.partReport (.setReg (h.same rfl))) (h.same rfl)

theorem State.MemForm.commitWork {apply : Word} (h : s.MemForm) : (s.commitWork n apply).MemForm := by
  unfold State.commitWork
  exact .updDom (.setReg (.nxPublish (.nxTake (.applyChange (.derCommit (.announceSwitches (.reportSlowdown
      (.reportTraffic (.reportHealth (.commitRequests (.updDom (.applyJournal (.ite (.domReport (.ite
      h.setReg.bump.domReport h)) (.ite h.setReg.bump.domReport h))))))))))))))

theorem State.MemForm.partReset (h : s.MemForm) : (s.partReset n).MemForm :=
  .foldl (.update (.mapCores (h.same rfl))) (fun _ _ ht => ht.complete)

theorem State.MemForm.retireAfter (h : s.MemForm) : (s.retireAfter n).MemForm := h.updBatch.retireVersions

theorem State.MemForm.disable (h : s.MemForm) : (s.disable n).MemForm :=
  .ite h (.ite (.partReset (.reviewAfterDisable (.latchCfg (.applyChange (.flushVersions (.setSvPart (.mapCores
      (.updDom (.setReg (.ite h.commitWork.retireAfter (.ite h.discardTick h))))))))))) (.reviewAfterDisable
      (.latchCfg (.applyChange (.flushVersions (.setSvPart (.mapCores (.updDom (.setReg (.ite
      h.commitWork.retireAfter (.ite h.discardTick h)))))))))))

theorem State.MemForm.execDomDisable (h : s.MemForm) : NextForm (execDomDisable n s) := .lift h.disable

/-! ## Machine.Vote -/

theorem State.MemForm.broadcast {t : MgmtType} (h : s.MemForm) : (s.broadcast n t m).MemForm := h.sendMgmt

theorem State.MemForm.updTally {f : Tally → Tally} (h : s.MemForm) : (s.updTally n f).MemForm := h.updDom

theorem State.MemForm.doPass (h : s.MemForm) : (s.doPass n j).MemForm := h.updDom.wakeAll

theorem State.MemForm.doAbort (h : s.MemForm) : (s.doAbort n).MemForm := by
  unfold State.doAbort
  exact .ite h.discardTick.updDom.domReport.disable h.discardTick.updDom.domReport

theorem State.MemForm.doCommit {time : Word} (h : s.MemForm) : (s.doCommit n time).MemForm := h.updDom

theorem State.MemForm.startHold {module : Nat} (h : s.MemForm) : (s.startHold n j module).MemForm := by
  unfold State.startHold
  exact h.partReport.bump.stopCores.updDom

theorem State.MemForm.recordAck {m : ModIx} (h : s.MemForm) : (s.recordAck n m).MemForm := h.updTally

theorem State.MemForm.keepHeld (h : s.MemForm) : (s.keepHeld n).MemForm := .ite h.stopCores h

theorem State.MemForm.doRetract {run module : Nat} (h : s.MemForm) : (s.doRetract n j run code module).MemForm :=
  .wakeAll (.keepHeld (.releaseHeld (.ite (.startHold (.ite (.updDom (.rewind (.ite (.bump (.bump (.ite h.domReport
      h.domReport))) (.bump (.ite h.domReport h.domReport))))) (.ite (.recordAck (.sendMgmt (.updDom (.rewind (.ite
      (.bump (.bump (.ite h.domReport h.domReport))) (.bump (.ite h.domReport h.domReport))))))) (.sendMgmt
      (.updDom (.rewind (.ite (.bump (.bump (.ite h.domReport h.domReport))) (.bump (.ite h.domReport
      h.domReport))))))))) (.ite (.updDom (.rewind (.ite (.bump (.bump (.ite h.domReport h.domReport))) (.bump
      (.ite h.domReport h.domReport))))) (.ite (.recordAck (.sendMgmt (.updDom (.rewind (.ite (.bump (.bump (.ite
      h.domReport h.domReport))) (.bump (.ite h.domReport h.domReport))))))) (.sendMgmt (.updDom (.rewind (.ite
      (.bump (.bump (.ite h.domReport h.domReport))) (.bump (.ite h.domReport h.domReport)))))))))))

theorem State.MemForm.abortAll (h : s.MemForm) : (s.abortAll n).MemForm := h.broadcast.doAbort

theorem State.MemForm.retractAll {module : ModIx} (h : s.MemForm) : (s.retractAll n j code module).MemForm :=
  .ite h.abortAll h.broadcast.doRetract

theorem State.MemForm.commitAll (h : s.MemForm) : (s.commitAll n).MemForm := h.broadcast.doCommit

theorem State.MemForm.resolve {k : Nat} (h : s.MemForm) : (State.resolve n k s).MemForm := by
  induction k generalizing s with
  | zero => exact h
  | succ k ih =>
    unfold State.resolve
    refine .ite h ?_
    dsimp only
    split
    · exact h.retractAll
    · exact .ite h.broadcast.doPass.commitAll (ih h.broadcast.doPass)

theorem State.MemForm.takeVote (h : s.MemForm) : (s.takeVote m).MemForm :=
  .ite h (.ite (.ite h h.updTally.resolve) (.ite h.updDom h))

theorem State.MemForm.takeEarly (h : s.MemForm) : (s.takeEarly n).MemForm :=
  h.updDom.foldl (fun _ _ ht => ht.takeVote)

theorem State.MemForm.castVote (h : s.MemForm) : (s.castVote n code).MemForm :=
  h.trapEvents.updDom.sendMgmt.takeVote.takeEarly

theorem State.MemForm.execVoteCast (h : s.MemForm) : NextForm (execVoteCast n s) :=
  .lift (h.when (fun _ ht => ht.castVote))

theorem State.MemForm.execVote (h : s.MemForm) : NextForm (execVote m s) := .lift h.takeVote.takeEarly

theorem State.MemForm.takeWait (h : s.MemForm) : (s.takeWait m).MemForm := .ite h.updTally h

theorem State.MemForm.execWaitFrameSend (h : s.MemForm) : NextForm (execWaitFrameSend n s) :=
  .lift (.ite h h.sendMgmt.takeWait)

theorem State.MemForm.execWait (h : s.MemForm) : NextForm (execWait m s) := .lift h.takeWait

theorem State.MemForm.execPass (h : s.MemForm) : NextForm (execPass m s) :=
  .lift (h.when (fun _ ht => ht.doPass))

theorem State.MemForm.newMaster (h : s.MemForm) : (s.newMaster m).MemForm := .ite h.updDom h

theorem State.MemForm.execRetract (h : s.MemForm) : NextForm (execRetract m s) :=
  .lift (h.newMaster.when (fun _ ht => ht.doRetract.takeEarly))

theorem State.MemForm.execRetractAck (h : s.MemForm) : NextForm (execRetractAck m s) :=
  .lift (h.when (fun _ ht => ht.recordAck))

theorem State.MemForm.execAbort (h : s.MemForm) : NextForm (execAbort m s) :=
  .lift (h.when (fun _ ht => ht.doAbort))

theorem State.MemForm.execCommit (h : s.MemForm) : NextForm (execCommit m s) :=
  .lift (h.when (fun _ ht => ht.doCommit))

theorem State.MemForm.execSilentTimeout {silent : ModIx} (h : s.MemForm) :
    NextForm (execSilentTimeout n silent s) :=
  .lift (.ite h (.ite h.retractAll.updTally h.retractAll))

theorem State.MemForm.execRejoinTimeout (h : s.MemForm) : NextForm (execRejoinTimeout n s) :=
  .lift (h.when (fun _ ht => ht.abortAll))

theorem State.MemForm.execMasterFailover (h : s.MemForm) : NextForm (execMasterFailover n s) :=
  .lift (.ite h (.ite h.updDom.domReport.retractAll.updTally h.updDom.domReport.retractAll))

theorem State.MemForm.compareSettings (h : s.MemForm) : (s.compareSettings n).MemForm :=
  .ite h (.ite (.ite (h.foldl (fun _ _ ht => ht.sendMgmt)) h) (.disable (.domReport (.ite (h.foldl (fun _ _ hu =>
      hu.sendMgmt)) h))))

theorem State.MemForm.enable (h : s.MemForm) : (s.enable n).MemForm :=
  .ite h (.ite h.domReport (.compareSettings (.ite (h.setReg.foldl (fun _ _ ht => ht.setReg)).updDom
      (h.setReg.foldl (fun _ _ hu => hu.setReg)).updDom.sendMgmt)))

theorem State.MemForm.execDomEnable (h : s.MemForm) : NextForm (execDomEnable n s) := .lift h.enable

theorem State.MemForm.execSettings {d : Settings} (h : s.MemForm) : NextForm (execSettings m d s) :=
  .lift (.ite h h.updTally.compareSettings)

theorem State.MemForm.execTickStart (h : s.MemForm) : NextForm (execTickStart n s) :=
  .lift (h.when (fun _ ht => ht.finalise.startTick.takeEarly.wakeAll))

theorem State.MemForm.afterApply (h : s.MemForm) : (s.afterApply n).MemForm :=
  .ite h.disable (.ite h.setSvPart.retireVersions.updDom.mapCores
      h.finalise.retireVersions.startTick.takeEarly.wakeAll)

theorem State.MemForm.apply (h : s.MemForm) : (s.apply n).MemForm := by
  unfold State.apply
  dsimp only
  split
  · exact h
  · exact .ite h (.ite h.updDom h.commitWork.afterApply)

theorem State.MemForm.execCommitApply (h : s.MemForm) : NextForm (execCommitApply n s) := .lift h.apply

theorem State.MemForm.execKvPageCopyDone {entry : Nat} (h : s.MemForm) :
    NextForm (execKvPageCopyDone die n entry s) :=
  .lift (.ite h.pageCopyDone.wakeAll.apply h.pageCopyDone.wakeAll)

theorem State.MemForm.execPreemptHoldEnd (h : s.MemForm) : NextForm (execPreemptHoldEnd n s) :=
  .lift (h.when (fun _ ht => ht.updDom.mapCores.keepHeld.wakeAll))

theorem State.MemForm.execAdmissionClose (h : s.MemForm) : NextForm (execAdmissionClose n s) :=
  .lift (.ite h (.ite h.latchCfg.evalIssueLevel.applyIntake.setSvPart
      h.latchCfg.evalIssueLevel.applyIntake.buildBatch))

/-! ## Machine.Arb -/

theorem State.MemForm.setArb {a : Fin 14} {x : Arbiter} (h : s.MemForm) : (s.setArb a x).MemForm :=
  h.same rfl

theorem State.MemForm.execArbWindowEnd {a : Fin 14} {load : ArbLoad} (h : s.MemForm) :
    NextForm (execArbWindowEnd a load s) :=
  .lift (.ite (.mgmtReport (.ite (h.bump.bump.bump.bump.bump.foldl (fun _ _ ht => ht.bump)).setArb.bump
      (h.bump.bump.bump.bump.bump.foldl (fun _ _ hu => hu.bump)).setArb)) (.ite (h.bump.bump.bump.bump.bump.foldl
      (fun _ _ hu => hu.bump)).setArb.bump (h.bump.bump.bump.bump.bump.foldl (fun _ _ hv => hv.bump)).setArb))

theorem State.MemForm.execAgentDeadline {a : Fin 14} {agent : Agent} (h : s.MemForm) :
    NextForm (execAgentDeadline a agent s) :=
  .lift (.ite (.ite h h.setArb) h.setArb)

theorem State.MemForm.execGddr7Refresh {md : Fin 4} {device : Fin 12} (h : s.MemForm) :
    NextForm (execGddr7Refresh md device s) :=
  .lift h.setArb

theorem State.MemForm.preempt (h : s.MemForm) : (s.preempt n).MemForm := .ite h h.stopCores.updDom.castVote

theorem State.MemForm.execPartQuery (h : s.MemForm) : NextForm (execPartQuery f s) := by
  refine .lift (.startCmd h (fun _ _ ht => .ite ht.complete (.ite ht.complete ?_)))
  split
  · exact ht.complete
  · exact .ite ht.complete ht.complete

theorem State.MemForm.execPreempt (h : s.MemForm) : NextForm (execPreempt f s) := by
  refine .lift (.mgmtCmd h (fun _ ht => .ite ht.complete ?_))
  split
  · exact ht.complete
  · exact .ite ht.complete (.ite ht.complete ht.preempt.complete)

/-! ## Machine.IntCmds -/

theorem State.MemForm.execIntSnapshotRead (h : s.MemForm) : NextForm (execIntSnapshotRead f s) := by
  refine .lift (.mgmtCmd h (fun _ ht => .ite ht.complete ?_))
  split <;> exact ht.complete

theorem State.MemForm.execIntSnapshotClear (h : s.MemForm) : NextForm (execIntSnapshotClear f s) :=
  .lift (h.mgmtCmd (fun _ ht => .ite ht.complete (.complete (.flashWrite (ht.same rfl)))))

theorem State.MemForm.execDerQuery (h : s.MemForm) : NextForm (execDerQuery f s) := by
  refine .lift (.startCmd h (fun _ _ ht => ?_))
  dsimp only
  split <;> exact ht.complete

theorem State.MemForm.execDerQuarantine (h : s.MemForm) : NextForm (execDerQuarantine f s) := by
  refine .lift (.mgmtCmd h (fun _ ht => ?_))
  split
  · exact ht.complete
  · exact .ite ht.complete (.ite ht.complete ht.quarantineLater)

theorem State.MemForm.execDerScan (h : s.MemForm) : NextForm (execDerScan f s) := by
  refine .lift (.mgmtCmd h (fun _ ht => ?_))
  split
  · exact ht.complete
  · exact .ite ht.complete ht.setSite

/-! ## Machine.Reset -/

theorem State.MemForm.emptied : (s.emptied).MemForm := ⟨State.wf_reset⟩

theorem State.MemForm.loseStores {from_ : Nat} (h : s.MemForm) : (s.loseStores from_).MemForm :=
  .blurred h rfl

theorem State.MemForm.leaveStandby (h : s.MemForm) : s.leaveStandby.MemForm := .ite (h.same rfl) h

theorem State.MemForm.dropSlots (h : s.MemForm) : s.dropSlots.MemForm :=
  h.foldl (fun _ _ ht => .ite ht.moveSlot ht)

theorem State.MemForm.coldReset {st : PwrState} : (s.coldReset cause st).MemForm :=
  .leaveStandby (.loseStores (.dropSlots (.update .emptied)))

theorem State.MemForm.stopIssue (h : s.MemForm) : s.stopIssue.MemForm := h.foldl (fun _ _ ht => ht.stopCores)

theorem State.MemForm.rampDown {d : DownTo} (h : s.MemForm) : (s.rampDown d).MemForm := h.stopIssue.update

theorem State.MemForm.warmReset (h : s.MemForm) : (s.warmReset cause).MemForm :=
  .loseStores (.setReg (h.same rfl))

theorem State.MemForm.beginReset {cold : Bool} (h : s.MemForm) : (s.beginReset cold cause).MemForm :=
  .ite (.ite (.rampDown (h.same rfl)) .coldReset) (.ite (.rampDown (.update (h.same rfl))) (.warmReset (h.same rfl)))

theorem State.MemForm.startReset {cold : Bool} (h : s.MemForm) : (s.startReset cold cause).MemForm := by
  refine .ite h.beginReset ?_
  split
  · exact h
  · exact h.same rfl

theorem State.MemForm.endDown (h : s.MemForm) : s.endDown.MemForm := by
  unfold State.endDown
  split
  · exact h
  · exact .coldReset
  · exact h.warmReset

theorem State.MemForm.trip (h : s.MemForm) : (s.trip code).MemForm := .ite h (.loseStores (.update .emptied))

/-! ## Machine.Power -/

theorem State.MemForm.preemptBest (h : s.MemForm) : s.preemptBest.MemForm :=
  h.foldl (fun _ _ ht => .ite ht.bump.preempt ht)

theorem State.MemForm.newCaps (h : s.MemForm) : s.newCaps.MemForm := .ite h.recap.preemptBest h.recap

theorem State.MemForm.heartbeat (h : s.MemForm) : s.heartbeat.MemForm := .ite h.setPw.newCaps h.setPw

theorem State.MemForm.pwrRefused (h : s.MemForm) : s.pwrRefused.MemForm := h.setReg

theorem State.MemForm.writeCap (h : s.MemForm) : (s.writeCap i3c value).MemForm :=
  .ite h.pwrRefused (.ite h.storeCap.newCaps.heartbeat h.storeCap.newCaps)

theorem State.MemForm.execPwrCapWrite (h : s.MemForm) : NextForm (execPwrCapWrite i3c value s) :=
  .lift h.writeCap

theorem State.MemForm.execPwrHeartbeatWrite {_value : Word} (h : s.MemForm) :
    NextForm (execPwrHeartbeatWrite _value s) :=
  .lift h.heartbeat

theorem State.MemForm.writeHbCtrl (h : s.MemForm) : (s.writeHbCtrl value).MemForm :=
  .ite h.pwrRefused h.setReg.setPw

theorem State.MemForm.execPwrHbCtrlWrite (h : s.MemForm) : NextForm (execPwrHbCtrlWrite value s) :=
  .lift h.writeHbCtrl

theorem State.MemForm.execHeartbeatTimeout (h : s.MemForm) : NextForm (execHeartbeatTimeout s) :=
  .lift (.ite h h.setPw.pwrReport.newCaps)

theorem State.MemForm.execPwrCap (h : s.MemForm) : NextForm (execPwrCap f s) :=
  .lift (h.mgmtCmd (fun _ ht => .ite ht.complete (.ite ht.complete ht.writeCap.heartbeat.complete)))

theorem State.MemForm.execPwrHeartbeat (h : s.MemForm) : NextForm (execPwrHeartbeat f s) :=
  .lift (h.mgmtCmd (fun _ ht => .ite ht.heartbeat.complete ht.complete))

theorem State.MemForm.execPwrQuery (h : s.MemForm) : NextForm (execPwrQuery f s) :=
  .lift (h.startCmd (fun _ _ ht => .ite ht.complete ht.complete))

theorem State.MemForm.clampLevels (h : s.MemForm) : s.clampLevels.MemForm := h.setPw

theorem State.MemForm.control (h : s.MemForm) : s.control.MemForm := .ite h h.fresh.setPw.clampLevels

theorem State.MemForm.excessPreempt {aboveUs : Nat} (h : s.MemForm) : (s.excessPreempt aboveUs).MemForm :=
  .ite h.setPw (.ite h h.setPw.preemptBest)

theorem State.MemForm.unreachable (h : s.MemForm) : s.unreachable.MemForm :=
  .ite h.setPw (.ite h h.setPw.pwrReport)

theorem State.MemForm.slopeUnheld (h : s.MemForm) : s.slopeUnheld.MemForm :=
  .ite h.bump.setPw.setReg.mgmtEvent h.bump

theorem State.MemForm.account (h : s.MemForm) : (s.account e).MemForm := .bump (.setPw (.ite h.fresh h))

theorem State.MemForm.endHeld (h : s.MemForm) : s.endHeld.MemForm :=
  .ite h (h.foldl (fun _ _ ht => ht.releaseStart))

theorem State.MemForm.ballastCycles {e : EstimateInput} (h : s.MemForm) : (s.ballastCycles e).MemForm :=
  (h.foldl (fun _ _ ht => ht.when (fun _ hu => hu.bump))).foldl (fun _ _ hv => hv.when (fun _ ht =>
      ht.ballastMismatch))

theorem State.MemForm.execPowerEstimate {e : EstimateInput} (h : s.MemForm) : NextForm (execPowerEstimate e s) :=
  .lift (.endHeld (.unreachable (.excessPreempt (.control (.ite (.slopeUnheld (.ite
      h.ballastCycles.account.endTracking h.ballastCycles.account)) (.ite h.ballastCycles.account.endTracking
      h.ballastCycles.account))))))

theorem State.MemForm.estFails (h : s.MemForm) : s.estFails.MemForm := .ite h.setPw h.setPw.pwrReport

theorem State.MemForm.adjustGain {measured mean : Nat} (h : s.MemForm) : (s.adjustGain measured mean).MemForm :=
  .ite h h.fresh.setPw

theorem State.MemForm.execCalibration {measured : Option Nat} {meanE vin : Nat} (h : s.MemForm) :
    NextForm (execCalibration measured meanE vin s) := by
  refine .lift ?_
  split
  · exact .ite h.setPw.estFails h.setPw
  · exact .ite h.setReg.adjustGain.setPw (.ite h.setReg.adjustGain.setPw.estFails h.setReg.adjustGain.setPw)

theorem State.MemForm.throttle {tj : List ℤ} (h : s.MemForm) : (s.throttle tj).MemForm :=
  .clampLevels (.ite h.setPw h.setPw.pwrReport)

theorem State.MemForm.thermalHold {tj : List ℤ} (h : s.MemForm) : (s.thermalHold tj).MemForm :=
  .ite h.setPw.pwrReport.preemptBest (.ite h.setPw.endHeld h)

theorem State.MemForm.coolant {inlet outlet : ℤ} (h : s.MemForm) : (s.coolant inlet outlet).MemForm :=
  .ite h.setReg.setPw.pwrReport h.setReg.setPw

theorem State.MemForm.execThermalSample {x : ThermalInput} (h : s.MemForm) : NextForm (execThermalSample x s) :=
  .lift (.ite h (.ite h.coolant.throttle.thermalHold.trip h.coolant.throttle.thermalHold))

theorem State.MemForm.execSiteUnparkDone (h : s.MemForm) : NextForm (execSiteUnparkDone i s) :=
  .lift (.ite (h.same rfl) h.power)

theorem State.MemForm.shelfDown (h : s.MemForm) : s.shelfDown.MemForm :=
  .ite h (.ite h.setPw h.setPw.pwrReport.recap.preemptBest)

theorem State.MemForm.execShelfAlert (h : s.MemForm) : NextForm (execShelfAlert s) := .lift h.shelfDown

theorem State.MemForm.execShelfAlertClear (h : s.MemForm) : NextForm (execShelfAlertClear s) :=
  .lift (.ite h.setPw.newCaps h.setPw)

theorem State.MemForm.execInputLow (h : s.MemForm) : NextForm (execInputLow s) :=
  .lift (.ite h h.pwrReport.shelfDown)

theorem State.MemForm.execInputFail : NextForm (execInputFail s) := .lift .coldReset

theorem State.MemForm.execInputRise (h : s.MemForm) : NextForm (execInputRise s) :=
  .lift (.ite h.setPw.leaveStandby h)

theorem State.MemForm.execInputHigh (h : s.MemForm) : NextForm (execInputHigh s) := .lift h.trip

theorem State.MemForm.execPwrEnRise {straps : BitVec 6} (h : s.MemForm) : NextForm (execPwrEnRise straps s) :=
  .lift h.setPw.leaveStandby

theorem State.MemForm.execPwrEnFall (h : s.MemForm) : NextForm (execPwrEnFall s) := by
  refine .lift ?_
  split
  · exact h.setPw
  · exact h.setPw
  · exact .ite h.setPw h.setPw.startReset
  · exact .ite h.setPw h.setPw.startReset
  · exact .ite h.setPw h.setPw.startReset
  · exact .ite h.setPw h.setPw.startReset

theorem State.MemForm.execStaggerEnd (h : s.MemForm) : NextForm (execStaggerEnd s) :=
  .lift (.ite h (h.same rfl))

theorem State.MemForm.execRampDownDone (h : s.MemForm) : NextForm (execRampDownDone s) := by
  refine .lift ?_
  split
  · exact h
  · exact .ite h.endDown (h.same rfl)

theorem State.MemForm.execFlashRecordWritten (h : s.MemForm) : NextForm (execFlashRecordWritten s) := by
  refine .lift ?_
  dsimp only
  split
  · exact .ite (h.same rfl) (.ite (.endDown (h.same rfl)) (.beginReset (h.same rfl)))
  · exact h.same rfl

theorem State.MemForm.execModReset (h : s.MemForm) : NextForm (execModReset s) :=
  .lift (.ite h.setPw h.setPw.startReset)

theorem State.MemForm.execModResetNRelease (h : s.MemForm) : NextForm (execModResetNRelease s) :=
  .lift h.setPw.leaveStandby

/-! ## Machine.Trust -/

theorem State.MemForm.execSecEnroll (h : s.MemForm) : NextForm (execSecEnroll f s) :=
  .lift (h.mgmtCmd (fun _ ht => .ite ht.complete (.ite ht.complete (.ite ht.secCode.complete
      ht.setTrust.flashWrite.complete))))

theorem State.MemForm.execSecChange (h : s.MemForm) : NextForm (execSecChange f s) := by
  refine .lift (.mgmtCmd h (fun _ ht => ?_))
  split
  · exact .complete (.ite ht.secCode ht)
  · split
    · exact ht.setTrust
    · exact ht.applyItems

theorem State.MemForm.execSecQuery (h : s.MemForm) : NextForm (execSecQuery f s) :=
  .lift (h.startCmd (fun _ _ ht => .ite ht.complete ht.complete))

theorem State.MemForm.loadKey {key : List Byte} (h : s.MemForm) : (s.loadKey k key).MemForm :=
  h.setTrust.rekey

theorem State.MemForm.execSecKeyLoad (h : s.MemForm) : NextForm (execSecKeyLoad f s) := by
  refine .lift (.startCmd h (fun _ _ ht => .ite ht.complete (.ite ht.secCode.complete (.ite ht.complete ?_))))
  split
  · exact ht.secCode.complete
  · exact .ite ht.secCode.complete ht.loadKey.complete

theorem State.MemForm.execSecKeyErase (h : s.MemForm) : NextForm (execSecKeyErase f s) :=
  .lift (h.startCmd (fun _ _ ht => .ite ht.complete (.ite ht.secCode.complete (.ite ht.complete
      ht.setTrust.rekey.complete))))

theorem State.MemForm.execSecRecordRead (h : s.MemForm) : NextForm (execSecRecordRead f s) := by
  refine .lift (.startCmd h (fun _ _ ht => .ite ht.complete (.ite ht.complete ?_)))
  split <;> exact ht.complete

theorem State.MemForm.execSecReport (h : s.MemForm) : NextForm (execSecReport f s) :=
  .lift (h.startCmd (fun _ _ ht => .ite ht.complete (.ite ht.secCode.complete ht.setTrust.complete)))

theorem State.MemForm.loadRecord {r : List Byte} (h : s.MemForm) : (s.loadRecord r).2.MemForm := by
  unfold State.loadRecord
  dsimp only
  split
  · split
    · exact h
    · exact .snd h.setTrust
  · split
    · exact h
    · split
      · exact h
      · exact .snd h.setTrust

theorem State.MemForm.loadPair {v i : List Byte} (h : s.MemForm) : (s.loadPair v i).2.MemForm := by
  unfold State.loadPair
  dsimp only
  split
  · exact h
  · split
    · exact h
    · split
      · exact h
      · split
        · exact h
        · exact .snd h.setTrust

theorem State.MemForm.execSecRecordLoad (h : s.MemForm) : NextForm (execSecRecordLoad f s) := by
  refine .lift (.mgmtCmd h (fun _ ht => .complete (.ite (.flashWrite ?_) ht.secCode)))
  split
  · exact ht.loadRecord
  · split
    · exact ht.loadPair
    · exact ht

/-! ## Machine.Boot -/

theorem State.MemForm.bootCode (h : s.MemForm) : (s.bootCode code).MemForm := h.setReg

theorem State.MemForm.markBad {reason : Nat} (h : s.MemForm) : (s.markBad reason).MemForm :=
  h.setImage.update.flashWrite.mgmtReport

theorem State.MemForm.stageCode {stage : Nat} (h : s.MemForm) : (s.stageCode code stage).MemForm :=
  .ite h.setReg (.ite h.derReport h.bootCode)

theorem State.MemForm.rollback (h : s.MemForm) : s.rollback.MemForm :=
  .ite h.markBad.warmReset h.markBad.update.leaveStandby

theorem State.MemForm.failStage {stage : Nat} (h : s.MemForm) : (s.failStage code stage).MemForm :=
  .ite (.rollback (.ite h.stageCode.setReg h.stageCode)) (.update (.ite h.stageCode.setReg h.stageCode))

theorem State.MemForm.execTrialReadyTimeout (h : s.MemForm) : NextForm (execTrialReadyTimeout s) :=
  .lift (.ite h.rollback h)

theorem State.MemForm.execTrialTimeout (h : s.MemForm) : NextForm (execTrialTimeout s) :=
  .lift (.ite h.markBad h)

theorem State.MemForm.signAlias (h : s.MemForm) : s.signAlias.MemForm :=
  .ite h (.ite (.mgmtEvent (.secCode (.ite h.setTrust h.setTrust.flashWrite))) (.ite h.setTrust
      h.setTrust.flashWrite))

theorem State.MemForm.startTbc (h : s.MemForm) : s.startTbc.MemForm := h.same rfl

theorem State.MemForm.packageRepair (h : s.MemForm) : s.packageRepair.MemForm := h.same rfl

theorem State.MemForm.memoryUp {rates : List Nat} (h : s.MemForm) : (s.memoryUp rates).MemForm :=
  .ite (h.foldl (fun _ _ ht => .ite ht.setReg.mgmtReport ht.setReg)).setReg.setReg (.packageRepair (.blurred
      (h.foldl (fun _ _ hu => .ite hu.setReg.mgmtReport hu.setReg)).setReg.setReg rfl))

theorem State.MemForm.trainPorts (h : s.MemForm) : s.trainPorts.MemForm :=
  .foldl (.foldl (.ite h.setHp h) (fun _ _ ht => .ite ht.setCxl ht.setCxl)) (fun _ _ hu => .ite hu.setPort hu)

theorem State.MemForm.enterOn {timeUs : Nat} (h : s.MemForm) : (s.enterOn timeUs).MemForm :=
  .foldl (.trainPorts (h.same rfl)) (fun _ _ ht => ht.pwrReport)

theorem State.MemForm.runPoint (h : s.MemForm) : (s.runPoint k).MemForm := h.setPw

theorem State.MemForm.nextStage {r : StageResult} (h : s.MemForm) : (s.nextStage r).MemForm := by
  unfold State.nextStage
  dsimp only
  split
  · exact h.runPoint.update
  · exact h.same rfl
  · exact h.signAlias.startTbc.update
  · exact h.runPoint.update
  · exact h.memoryUp.update
  · exact h.enterOn

theorem State.MemForm.execRampStageComplete {r : StageResult} (h : s.MemForm) :
    NextForm (execRampStageComplete r s) := by
  refine .lift (.ite h ?_)
  split
  · exact .ite h.nextStage h.failStage
  · exact .ite h h.failStage
  · exact .ite h h.failStage
  · exact h

theorem State.MemForm.execBringupStageTimeout (h : s.MemForm) : NextForm (execBringupStageTimeout s) := by
  refine .lift (.ite h ?_)
  split
  · exact h.failStage
  · exact h.failStage
  · exact h

theorem State.MemForm.execUartStageLine (h : s.MemForm) : NextForm (execUartStageLine s) := by
  refine .lift ?_
  split
  · exact h
  · exact h.send

theorem State.MemForm.execBootFwWrite (h : s.MemForm) : NextForm (execBootFwWrite f s) := by
  refine .lift (.mgmtCmd h (fun _ ht => ?_))
  split
  · exact ht.complete
  · exact .ite ht.complete (.ite ht.complete ht.setImage.complete)

theorem State.MemForm.execBootFwActivate (h : s.MemForm) : NextForm (execBootFwActivate f s) := by
  refine .lift (.mgmtCmd h (fun _ ht => ?_))
  split
  · exact ht.complete
  · refine .ite ht.complete (.ite ht.complete ?_)
    split
    · exact ht.bootCode.complete
    · exact ht.setImage.flashWrite.complete

theorem State.MemForm.execBootFwCommit (h : s.MemForm) : NextForm (execBootFwCommit f s) :=
  .lift (h.mgmtCmd (fun _ ht => .ite ht.complete (.ite ht.complete ht.setImage.setImage.update.flashWrite.complete)))

theorem State.MemForm.resetCmd (h : s.MemForm) : (s.resetCmd f).MemForm :=
  h.mgmtCmd (fun _ ht => .ite ht.complete (.ite ht.complete ht.complete.startReset))

theorem State.MemForm.execBootResetCold (h : s.MemForm) : NextForm (execBootResetCold f s) :=
  .lift h.resetCmd

theorem State.MemForm.execBootResetWarm (h : s.MemForm) : NextForm (execBootResetWarm f s) :=
  .lift h.resetCmd

theorem State.MemForm.execBootPartReset (h : s.MemForm) : NextForm (execBootPartReset f s) := by
  refine .lift (.mgmtCmd h (fun _ ht => .ite ht.complete ?_))
  split
  · exact ht.complete
  · exact .ite ht.complete (.ite (.partReset (ht.same rfl)) (.ite (.updDom (ht.same rfl)) (.disable (ht.same rfl))))

theorem State.MemForm.execBootCoreReset (h : s.MemForm) : NextForm (execBootCoreReset f s) := by
  refine .lift (.mgmtCmd h (fun _ ht => ?_))
  split
  · exact ht.complete
  · exact .ite ht.complete ht.coreReset.complete

/-! ## Machine.Integrity -/

theorem State.MemForm.execReplayStart (h : s.MemForm) : NextForm (execReplayStart die s) :=
  .lift h.startReplay

theorem State.MemForm.execReplayComplete {digest : Option (List Byte)} (h : s.MemForm) :
    NextForm (execReplayComplete die digest s) :=
  .lift h.endReplay

theorem State.MemForm.execScanStart (h : s.MemForm) : NextForm (execScanStart die s) := .lift h.startScan

theorem State.MemForm.execScanComplete {pass : Bool} (h : s.MemForm) : NextForm (execScanComplete die pass s) :=
  .lift h.endScan

theorem State.MemForm.execWatchExpire (h : s.MemForm) : NextForm (execWatchExpire i s) := .lift h.setSite

theorem State.MemForm.execSpareScanDue (h : s.MemForm) : NextForm (execSpareScanDue i s) :=
  .lift (h.when (fun _ ht => ht.setSite))

theorem State.MemForm.execRotateDue (h : s.MemForm) : NextForm (execRotateDue die s) := .lift h.planRotation

theorem State.MemForm.execPllLockLoss {d : Fin 20} (h : s.MemForm) : NextForm (execPllLockLoss d s) :=
  .lift h.pllLost

/-! ## Machine.RegWrite -/

theorem State.MemForm.discard {k : RegKey} (h : s.MemForm) : (s.discard k).MemForm := by
  unfold State.discard
  split
  · exact h.setReg
  · exact h.setReg
  · exact h.setReg
  · exact h.setReg
  · exact h.setReg
  · exact h.setReg
  · exact h.setReg
  · exact h

theorem State.MemForm.clearRegs {f : RegKey → Bool} (h : s.MemForm) : (s.clearRegs f).MemForm := h.same rfl

theorem State.MemForm.clearIf {f : RegKey → Bool} (h : s.MemForm) : (s.clearIf value f).MemForm :=
  h.when (fun _ ht => ht.clearRegs)

theorem State.MemForm.clearMx {i : Nat} (h : s.MemForm) : (s.clearMx i value).MemForm := h.clearIf

theorem State.MemForm.clearVx {i : Nat} (h : s.MemForm) : (s.clearVx i value).MemForm := h.clearIf

theorem State.MemForm.clearTx {i : Nat} (h : s.MemForm) : (s.clearTx i value).MemForm := h.clearIf

theorem State.MemForm.clearLx {i : Nat} (h : s.MemForm) : (s.clearLx i value).MemForm := h.clearIf

theorem State.MemForm.clearEx {d : Nat} (h : s.MemForm) : (s.clearEx d value).MemForm := h.clearIf

theorem State.MemForm.clearSv {d : Nat} (h : s.MemForm) : (s.clearSv d value).MemForm := h.clearIf

theorem State.MemForm.clearSvPart {n : Nat} (h : s.MemForm) : (s.clearSvPart n value).MemForm := h.clearIf

theorem State.MemForm.clearKv {d : Nat} (h : s.MemForm) : (s.clearKv d value).MemForm := h.clearIf

theorem State.MemForm.clearMem (h : s.MemForm) : (s.clearMem value).MemForm := h.clearIf

theorem State.MemForm.clearCxl {p : Nat} (h : s.MemForm) : (s.clearCxl p value).MemForm := h.clearIf

theorem State.MemForm.clearPn {d : Nat} (h : s.MemForm) : (s.clearPn d value).MemForm := h.clearIf

theorem State.MemForm.clearFab (h : s.MemForm) : (s.clearFab value).MemForm := h.clearIf

theorem State.MemForm.clearCe {p : Nat} (h : s.MemForm) : (s.clearCe p value).MemForm := h.clearIf

theorem State.MemForm.clearHp (h : s.MemForm) : (s.clearHp value).MemForm := h.clearIf

theorem State.MemForm.clearNx (h : s.MemForm) : (s.clearNx value).MemForm := h.clearIf

theorem State.MemForm.clearArb (h : s.MemForm) : (s.clearArb value).MemForm := h.clearIf

theorem State.MemForm.clearInt (h : s.MemForm) : (s.clearInt value).MemForm := h.clearIf

theorem State.MemForm.clearDer (h : s.MemForm) : (s.clearDer value).MemForm := h.clearIf

theorem State.MemForm.clearPwr (h : s.MemForm) : (s.clearPwr value).MemForm :=
  h.when (fun _ ht => ht.clearRegs.setPw)

theorem State.MemForm.clearFwl (h : s.MemForm) : (s.clearFwl value).MemForm :=
  h.when (fun _ ht => ht.clearRegs.setPw)

theorem State.MemForm.execMxCtrClear (h : s.MemForm) : NextForm (execMxCtrClear i value s) := .lift h.clearMx

theorem State.MemForm.execVxCtrClear (h : s.MemForm) : NextForm (execVxCtrClear i value s) := .lift h.clearVx

theorem State.MemForm.execTxCtrClear (h : s.MemForm) : NextForm (execTxCtrClear i value s) := .lift h.clearTx

theorem State.MemForm.execLxCtrClear (h : s.MemForm) : NextForm (execLxCtrClear i value s) := .lift h.clearLx

theorem State.MemForm.execExCtrClear (h : s.MemForm) : NextForm (execExCtrClear die value s) :=
  .lift h.clearEx

theorem State.MemForm.execSvCtrClear (h : s.MemForm) : NextForm (execSvCtrClear die value s) :=
  .lift h.clearSv

theorem State.MemForm.execSvPCtrClear {_die : Fin 8} (h : s.MemForm) : NextForm (execSvPCtrClear _die n value s) :=
  .lift h.clearSvPart

theorem State.MemForm.execKvCtrClear (h : s.MemForm) : NextForm (execKvCtrClear die value s) :=
  .lift h.clearKv

theorem State.MemForm.execMemCtrClear (h : s.MemForm) : NextForm (execMemCtrClear value s) :=
  .lift h.clearMem

theorem State.MemForm.execCxlCtrClear {p : Fin 4} (h : s.MemForm) : NextForm (execCxlCtrClear p value s) :=
  .lift h.clearCxl

theorem State.MemForm.execPnCtrClear (h : s.MemForm) : NextForm (execPnCtrClear die value s) :=
  .lift h.clearPn

theorem State.MemForm.execFabCtrClear (h : s.MemForm) : NextForm (execFabCtrClear value s) :=
  .lift h.clearFab

theorem State.MemForm.execCeCtrClear (h : s.MemForm) : NextForm (execCeCtrClear p value s) := .lift h.clearCe

theorem State.MemForm.execHpCtrClear (h : s.MemForm) : NextForm (execHpCtrClear value s) := .lift h.clearHp

theorem State.MemForm.execNxCtrClear (h : s.MemForm) : NextForm (execNxCtrClear value s) := .lift h.clearNx

theorem State.MemForm.execArbCtrClear (h : s.MemForm) : NextForm (execArbCtrClear value s) :=
  .lift h.clearArb

theorem State.MemForm.execIntCtrClear (h : s.MemForm) : NextForm (execIntCtrClear value s) :=
  .lift h.clearInt

theorem State.MemForm.execDerCtrClear (h : s.MemForm) : NextForm (execDerCtrClear value s) :=
  .lift h.clearDer

theorem State.MemForm.execPwrCtrClear (h : s.MemForm) : NextForm (execPwrCtrClear value s) :=
  .lift h.clearPwr

theorem State.MemForm.execFwlCtrClear (h : s.MemForm) : NextForm (execFwlCtrClear value s) :=
  .lift h.clearFwl

theorem State.MemForm.writeInject {i : Nat} (h : s.MemForm) : (s.writeInject i value).MemForm :=
  .ite h h.setRaw

theorem State.MemForm.writeQstat {i q : Nat} (h : s.MemForm) : (s.writeQstat i q value).MemForm := by
  unfold State.writeQstat
  dsimp only
  split
  · exact h
  · split
    · exact h
    · exact h.updCore

theorem State.MemForm.execMxResidueInject (h : s.MemForm) : NextForm (execMxResidueInject i value s) :=
  .lift h.writeInject

theorem State.MemForm.execLxQstatClear {q : Fin 16} (h : s.MemForm) : NextForm (execLxQstatClear i q value s) :=
  .lift h.writeQstat

theorem State.MemForm.writeServing {k : RegKey} (h : s.MemForm) : (s.writeServing k w).MemForm :=
  .setRaw (.ite (h.same rfl) h)

theorem State.MemForm.writeCxlCtrl {p : Fin 4} (h : s.MemForm) : (s.writeCxlCtrl p w).MemForm :=
  .ite h.setReg.setCxl (.ite h.setReg.setCxl h.setReg)

theorem State.MemForm.writeHpCtrl (h : s.MemForm) : (s.writeHpCtrl w).MemForm :=
  .ite h.setReg.setHp (.ite h.setReg.setHp h.setReg)

theorem State.MemForm.storeReg {k : RegKey} (h : s.MemForm) : (s.storeReg k w).MemForm := by
  unfold State.storeReg
  dsimp only
  split
  · exact h.setRaw.update
  · exact h.setRaw.update
  · exact h.setRaw.newCaps
  · exact h.setRaw.newCaps
  · exact .ite h.writeServing h.setRaw

theorem State.MemForm.writeRw {k : RegKey} {v : Word} (h : s.MemForm) : (s.writeRw k v).MemForm :=
  .ite h.domReport (.ite h.discard h.storeReg)

theorem State.MemForm.writeKey {k : RegKey} {v : Word} (h : s.MemForm) : (s.writeKey i3c k v).MemForm := by
  unfold State.writeKey
  dsimp only
  split
  · exact .ite h.enable h.disable
  · exact h.writeInject
  · exact h.writeQstat
  · exact h.clearMx
  · exact h.clearVx
  · exact h.clearTx
  · exact h.clearLx
  · exact h.clearEx
  · exact h.clearSv
  · exact h.clearSvPart
  · exact h.clearKv
  · exact h.clearMem
  · exact h.clearCxl
  · exact h.clearPn
  · exact h.clearFab
  · exact h.clearCe
  · exact h.clearHp
  · exact h.clearNx
  · exact h.clearArb
  · exact h.clearInt
  · exact h.clearDer
  · exact h.clearPwr
  · exact h.clearFwl
  · exact h.writeMemCtrl
  · exact h.writeIlvSize
  · exact h.writePnSize
  · exact h.writePnQuota
  · exact h.writeRetrain
  · exact h.writePortCtrl
  · exact h.writeCxlCtrl
  · exact h.writeHpCtrl
  · exact h.writeCap
  · exact h.heartbeat
  · exact h.writeHbCtrl
  · split
    · exact h.writeRw
    · exact h.discard
    · exact h
    · exact h
    · exact h

theorem State.MemForm.writeAddr {v : Word} (h : s.MemForm) : (s.writeAddr i3c a v).MemForm := by
  unfold State.writeAddr
  split
  · exact h.writeKey
  · exact h

theorem State.MemForm.execRegisterWrite (h : s.MemForm) : NextForm (execRegisterWrite addr value s) :=
  .lift h.writeAddr

theorem State.MemForm.execRegRead (h : s.MemForm) : NextForm (execRegRead f s) :=
  .lift (h.mgmtCmd (fun _ ht => .ite ht.complete ht.complete))

theorem State.MemForm.execRegWrite (h : s.MemForm) : NextForm (execRegWrite f s) :=
  .lift (h.mgmtCmd (fun _ ht => .ite ht.complete ht.writeAddr.complete))

theorem State.MemForm.setBoot {b : Boot} (h : s.MemForm) : (s.setBoot b).MemForm := h.same rfl

theorem State.MemForm.execI3cSetdasa {addr : BitVec 7} (h : s.MemForm) : NextForm (execI3cSetdasa addr s) :=
  .lift (.ite h h.setBoot)

theorem State.MemForm.execI3cEntdaa {addr : BitVec 7} (h : s.MemForm) : NextForm (execI3cEntdaa addr s) :=
  .lift (.ite h h.setBoot)

theorem State.MemForm.execI3cRegisterRead {k : I3cHead} (h : s.MemForm) : NextForm (execI3cRegisterRead k s) :=
  .lift (.ite h (.ite h.setBoot h.setBoot))

theorem State.MemForm.execI3cRegisterWrite {k : I3cHead} (h : s.MemForm) :
    NextForm (execI3cRegisterWrite k value s) :=
  .lift (.ite h (.ite h.writeAddr.setBoot h.setBoot))

theorem State.MemForm.execI3cPrivateRead (h : s.MemForm) : NextForm (execI3cPrivateRead s) :=
  .lift (.ite h h.send)

/-! ## Machine.Scalar -/

theorem State.MemForm.scalarRR {f : FmtR} {op : Word → Word → Word} (h : s.MemForm) :
    (scalarRR c f op s).MemForm :=
  .issue1 (fun _ ht => ht.onCore) h

theorem State.MemForm.execNop {f : FmtJ} (h : s.MemForm) : NextForm (execNop c f s) :=
  .lift (.issue1 (fun _ ht => ht.onCore) h)

theorem State.MemForm.execBr {f : FmtJ} (h : s.MemForm) : NextForm (execBr c f s) :=
  .lift (.issue1 (fun _ ht => ht.jump) h)

theorem State.MemForm.execCall {f : FmtJ} (h : s.MemForm) : NextForm (execCall c f s) :=
  .lift (.issue1 (fun _ ht => .ite ht.kill ht.setCore) h)

theorem State.MemForm.execRet {f : FmtJ} (h : s.MemForm) : NextForm (execRet c f s) := by
  refine .lift (.issue1 (fun _ ht => ?_) h)
  dsimp only
  split
  · exact ht.kill
  · refine .ite ht.kill ?_
    split
    · exact ht.setCore
    · exact ht.kill

theorem State.MemForm.execLoop {f : FmtL} (h : s.MemForm) : NextForm (execLoop c f s) :=
  .lift (.issue (fun _ ht => .ite ht.setCore.advance (.ite ht.kill ht.setCore)) h)

theorem State.MemForm.execLoopw {f : FmtL} (h : s.MemForm) : NextForm (execLoopw c f s) :=
  .lift (.issue (fun _ ht => .ite ht.kill ht.setCore) h)

theorem State.MemForm.execBreakLoop {f : FmtJ} (h : s.MemForm) : NextForm (execBreakLoop c f s) := by
  refine .lift (.issue1 (fun _ ht => ?_) h)
  dsimp only
  split
  · exact ht.kill
  · split
    · exact ht.setCore
    · exact ht.kill

theorem State.MemForm.execTrap {f : FmtI} (h : s.MemForm) : NextForm (execTrap c f s) :=
  .lift (.issue1 (fun _ ht => ht.updDom.kill) h)

theorem State.MemForm.execIllegalOpcode (h : s.MemForm) : NextForm (execIllegalOpcode c w s) :=
  .lift (.ite h.kill h)

theorem State.MemForm.execAdd {f : FmtR} (h : s.MemForm) : NextForm (execAdd c f s) := .lift h.scalarRR

theorem State.MemForm.execSub {f : FmtR} (h : s.MemForm) : NextForm (execSub c f s) := .lift h.scalarRR

theorem State.MemForm.execMul {f : FmtR} (h : s.MemForm) : NextForm (execMul c f s) := .lift h.scalarRR

theorem State.MemForm.execMulh {f : FmtR} (h : s.MemForm) : NextForm (execMulh c f s) := .lift h.scalarRR

theorem State.MemForm.execAnd {f : FmtR} (h : s.MemForm) : NextForm (execAnd c f s) := .lift h.scalarRR

theorem State.MemForm.execOr {f : FmtR} (h : s.MemForm) : NextForm (execOr c f s) := .lift h.scalarRR

theorem State.MemForm.execXor {f : FmtR} (h : s.MemForm) : NextForm (execXor c f s) := .lift h.scalarRR

theorem State.MemForm.execShl {f : FmtR} (h : s.MemForm) : NextForm (execShl c f s) := .lift h.scalarRR

theorem State.MemForm.execShr {f : FmtR} (h : s.MemForm) : NextForm (execShr c f s) := .lift h.scalarRR

theorem State.MemForm.execSra {f : FmtR} (h : s.MemForm) : NextForm (execSra c f s) := .lift h.scalarRR

theorem State.MemForm.execMin {f : FmtR} (h : s.MemForm) : NextForm (execMin c f s) := .lift h.scalarRR

theorem State.MemForm.execMax {f : FmtR} (h : s.MemForm) : NextForm (execMax c f s) := .lift h.scalarRR

theorem State.MemForm.execClz {f : FmtR} (h : s.MemForm) : NextForm (execClz c f s) :=
  .lift (.issue1 (fun _ ht => ht.onCore) h)

theorem State.MemForm.execAddi {f : FmtI} (h : s.MemForm) : NextForm (execAddi c f s) :=
  .lift (.issue1 (fun _ ht => ht.onCore) h)

theorem State.MemForm.execLi {f : FmtI} {literal : Word} (h : s.MemForm) : NextForm (execLi c f literal s) :=
  .lift (.issue (fun _ ht => ht.onCore) h)

theorem State.MemForm.execSel {f : FmtR} (h : s.MemForm) : NextForm (execSel c f s) :=
  .lift (.issue1 (fun _ ht => ht.onCore) h)

theorem State.MemForm.execCmp {f : FmtR} (h : s.MemForm) : NextForm (execCmp c f s) :=
  .lift (.issue1 (fun _ ht => ht.onCore) h)

theorem State.MemForm.execPlog {f : FmtR} (h : s.MemForm) : NextForm (execPlog c f s) :=
  .lift (.issue1 (fun _ ht => ht.onCore) h)

theorem State.MemForm.execTdmov {f : FmtR} (h : s.MemForm) : NextForm (execTdmov c f s) :=
  .lift (.issue1 (fun _ ht => ht.onCore) h)

theorem State.MemForm.putField {d : BitVec 5} {fld : Nat × Nat × Bool} {words : Nat} {v : ℤ} (h : s.MemForm) :
    (putField c d fld words v s).MemForm :=
  .ite h.onCore h.kill

theorem State.MemForm.execTdset {f : FmtR} (h : s.MemForm) : NextForm (execTdset c f s) :=
  .lift (.issue1 (fun _ ht => ht.putField) h)

theorem State.MemForm.execTdget {f : FmtR} (h : s.MemForm) : NextForm (execTdget c f s) :=
  .lift (.issue1 (fun _ ht => ht.onCore) h)

theorem State.MemForm.execTdadd {f : FmtR} (h : s.MemForm) : NextForm (execTdadd c f s) :=
  .lift (.issue1 (fun _ ht => ht.putField) h)

theorem State.MemForm.execTdseti {f : FmtR} {literal : Word} (h : s.MemForm) :
    NextForm (execTdseti c f literal s) :=
  .lift (.issue (fun _ ht => ht.putField) h)

theorem State.MemForm.execRdsr {f : FmtI} (h : s.MemForm) : NextForm (execRdsr c f s) :=
  .lift (.issue1 (fun _ ht => ht.onCore) h)

/-! ## Machine.Spdm -/

theorem State.MemForm.setSpdm {n : Nat} {x : Spdm} (h : s.MemForm) : (s.setSpdm n x).MemForm := h.setHp

theorem State.MemForm.nonce (h : s.MemForm) : s.nonce.2.MemForm := h.fresh.fresh.fresh.fresh

theorem State.MemForm.record {n : Nat} {rsp : List Byte} (h : s.MemForm) : (s.record n msg rsp).MemForm :=
  h.setSpdm

theorem State.MemForm.answerVersion {n : Nat} (h : s.MemForm) : (s.answerVersion n msg).2.MemForm := by
  unfold State.answerVersion
  dsimp only
  split
  · exact h
  · exact .snd h.setSpdm

theorem State.MemForm.answerCapabilities {n : Nat} (h : s.MemForm) : (s.answerCapabilities n msg).2.MemForm := by
  unfold State.answerCapabilities
  dsimp only
  split
  · exact h
  · split
    · exact h
    · exact .snd h.fresh.setSpdm

theorem State.MemForm.answerAlgorithms {n : Nat} (h : s.MemForm) : (s.answerAlgorithms n msg).2.MemForm := by
  unfold State.answerAlgorithms
  dsimp only
  split
  · exact h
  · split
    · exact h
    · exact .snd h.setSpdm

theorem State.MemForm.answerDigests {n : Nat} (h : s.MemForm) : (s.answerDigests n msg).2.MemForm := by
  unfold State.answerDigests
  dsimp only
  split
  · exact h
  · split
    · exact h
    · exact .snd h.record

theorem State.MemForm.answerCertificate {n : Nat} (h : s.MemForm) : (s.answerCertificate n msg).2.MemForm := by
  unfold State.answerCertificate
  dsimp only
  split
  · exact h
  · split
    · exact h
    · split
      · exact h
      · exact .snd h.record

theorem State.MemForm.answerChallenge {n : Nat} (h : s.MemForm) : (s.answerChallenge n msg).2.MemForm := by
  unfold State.answerChallenge
  dsimp only
  split
  · exact h
  · split
    · exact h
    · split
      · exact h
      · exact .snd h.nonce.setSpdm

theorem State.MemForm.answerMeasurements {n : Nat} (h : s.MemForm) : (s.answerMeasurements n msg).2.MemForm := by
  unfold State.answerMeasurements
  dsimp only
  split
  · split
    · exact h
    · split
      · exact h
      · split
        · exact h
        · exact .snd h.nonce.setSpdm
  · split
    · exact h
    · split
      · exact h
      · split
        · exact h
        · exact .snd h.nonce.record

theorem State.MemForm.answer {n : Nat} (h : s.MemForm) : (s.answer n msg).2.MemForm := by
  unfold State.answer
  split
  · exact h.answerVersion
  · exact h.answerCapabilities
  · exact h.answerAlgorithms
  · exact h.answerDigests
  · exact h.answerCertificate
  · exact h.answerChallenge
  · exact h.answerMeasurements
  · exact h

theorem State.MemForm.spdmReply {n : Nat} {r : SpdmOut} (h : r.2.MemForm) : (State.spdmReply n r).MemForm :=
  .sessionSend (.send (.ite h.setSpdm h))

theorem State.MemForm.spdmIn {n : Nat} {f : State → SpdmOut} (h : s.MemForm)
    (hf : ∀ t, t.MemForm → (f t).2.MemForm) : (s.spdmIn n f).MemForm :=
  h.when (fun _ ht => .spdmReply (hf _ ht))

theorem State.MemForm.answerChunk {n : Nat} (h : s.MemForm) : (s.answerChunk n msg).2.MemForm := by
  unfold State.answerChunk
  dsimp only
  split
  all_goals
    split
    · exact h
    · split
      · exact .snd h.setSpdm
      · exact .snd h.setSpdm.answer

theorem State.MemForm.answerChunkGet {n : Nat} (h : s.MemForm) : (s.answerChunkGet n msg).2.MemForm := by
  unfold State.answerChunkGet
  dsimp only
  split
  · exact h
  · split
    · exact h
    · exact .snd (.ite h.setSpdm h)

theorem State.MemForm.spdmTake {n : Nat} (h : s.MemForm) : (State.spdmTake n msg s).MemForm := by
  refine .spdmIn h (fun _ ht => ?_)
  split
  · exact ht.answerChunk
  · exact ht.answerChunkGet
  · exact ht.answer

theorem State.MemForm.spdmPacket {k : BrosinHdr} {f : State → Nat → List Byte → SpdmOut} (h : s.MemForm)
    (hf : ∀ t k l, t.MemForm → (f t k l).2.MemForm) : (s.spdmPacket k msg f).MemForm :=
  h.sequenced (fun _ _ _ ht => ht.spdmIn (fun _ hu => hf _ _ _ hu)) (fun _ _ _ ht => ht.spdmTake)

theorem State.MemForm.execData {k : BrosinHdr} (h : s.MemForm) : NextForm (execData k payload s) :=
  .lift (h.sequenced (fun _ _ _ ht => ht.spdmTake) (fun _ _ _ ht => ht.spdmTake))

theorem State.MemForm.execNet {k : BrosinHdr} (h : s.MemForm) : NextForm (execNet k payload s) :=
  .lift (h.sequenced (fun _ _ _ ht => ht.spdmTake) (fun _ _ _ ht => ht.spdmTake))

theorem State.MemForm.execGetVersion {k : BrosinHdr} (h : s.MemForm) : NextForm (execGetVersion k msg s) :=
  .lift (h.spdmPacket (fun _ _ _ ht => ht.answerVersion))

theorem State.MemForm.execGetCapabilities {k : BrosinHdr} (h : s.MemForm) :
    NextForm (execGetCapabilities k msg s) :=
  .lift (h.spdmPacket (fun _ _ _ ht => ht.answerCapabilities))

theorem State.MemForm.execNegotiateAlgorithms {k : BrosinHdr} (h : s.MemForm) :
    NextForm (execNegotiateAlgorithms k msg s) :=
  .lift (h.spdmPacket (fun _ _ _ ht => ht.answerAlgorithms))

theorem State.MemForm.execGetDigests {k : BrosinHdr} (h : s.MemForm) : NextForm (execGetDigests k msg s) :=
  .lift (h.spdmPacket (fun _ _ _ ht => ht.answerDigests))

theorem State.MemForm.execGetCertificate {k : BrosinHdr} (h : s.MemForm) : NextForm (execGetCertificate k msg s) :=
  .lift (h.spdmPacket (fun _ _ _ ht => ht.answerCertificate))

theorem State.MemForm.execChallenge {k : BrosinHdr} (h : s.MemForm) : NextForm (execChallenge k msg s) :=
  .lift (h.spdmPacket (fun _ _ _ ht => ht.answerChallenge))

theorem State.MemForm.execGetMeasurements {k : BrosinHdr} (h : s.MemForm) :
    NextForm (execGetMeasurements k msg s) :=
  .lift (h.spdmPacket (fun _ _ _ ht => ht.answerMeasurements))

theorem State.MemForm.execChunkSend {k : BrosinHdr} (h : s.MemForm) : NextForm (execChunkSend k msg s) :=
  .lift (h.spdmPacket (fun _ _ _ ht => ht.answerChunk))

theorem State.MemForm.execChunkGet {k : BrosinHdr} (h : s.MemForm) : NextForm (execChunkGet k msg s) :=
  .lift (h.spdmPacket (fun _ _ _ ht => ht.answerChunkGet))

theorem State.MemForm.execSpdmUnsupportedRequest {k : BrosinHdr} (h : s.MemForm) :
    NextForm (execSpdmUnsupportedRequest k msg s) :=
  .lift (h.spdmPacket (fun _ _ _ ht => ht))

/-! ## The step -/

theorem State.MemForm.exec {i : Instr} (h : s.MemForm) : NextForm (exec i s) :=
  match i with
  | .registerWrite .. => h.execRegisterWrite
  | .domEnable .. => h.execDomEnable
  | .domDisable .. => h.execDomDisable
  | .mxResidueInject .. => h.execMxResidueInject
  | .lxQstatClear .. => h.execLxQstatClear
  | .mxCtrClear .. => h.execMxCtrClear
  | .vxCtrClear .. => h.execVxCtrClear
  | .txCtrClear .. => h.execTxCtrClear
  | .lxCtrClear .. => h.execLxCtrClear
  | .exCtrClear .. => h.execExCtrClear
  | .svCtrClear .. => h.execSvCtrClear
  | .svPCtrClear die _ _ => h.execSvPCtrClear (_die := die)
  | .kvCtrClear .. => h.execKvCtrClear
  | .memCtrClear .. => h.execMemCtrClear
  | .cxlCtrClear .. => h.execCxlCtrClear
  | .pnCtrClear .. => h.execPnCtrClear
  | .fabCtrClear .. => h.execFabCtrClear
  | .ceCtrClear .. => h.execCeCtrClear
  | .hpCtrClear .. => h.execHpCtrClear
  | .nxCtrClear .. => h.execNxCtrClear
  | .arbCtrClear .. => h.execArbCtrClear
  | .intCtrClear .. => h.execIntCtrClear
  | .derCtrClear .. => h.execDerCtrClear
  | .pwrCtrClear .. => h.execPwrCtrClear
  | .fwlCtrClear .. => h.execFwlCtrClear
  | .memCtrlWrite .. => h.execMemCtrlWrite
  | .memIlvSizeWrite .. => h.execMemIlvSizeWrite
  | .memClearDone => h.execMemClearDone
  | .pnSizeWrite .. => h.execPnSizeWrite
  | .pnPQuotaWrite .. => h.execPnPQuotaWrite
  | .fabPortRetrain .. => h.execFabPortRetrain
  | .fabPortCtrlWrite .. => h.execFabPortCtrlWrite
  | .pwrCapWrite .. => h.execPwrCapWrite
  | .pwrHeartbeatWrite value => h.execPwrHeartbeatWrite (_value := value)
  | .pwrHbCtrlWrite .. => h.execPwrHbCtrlWrite
  | .timeSyncSend .. => h.execTimeSyncSend
  | .timeSync .. => h.execTimeSync
  | .tbUnlocked .. => h.execTbUnlocked
  | .tbPathFail => h.execTbPathFail
  | .ptpSync .. => h.execPtpSync
  | .ppsOutPulse => h.execPpsOutPulse
  | .ppsInEdge => h.execPpsInEdge
  | .tickStart .. => h.execTickStart
  | .voteCast .. => h.execVoteCast
  | .waitFrameSend .. => h.execWaitFrameSend
  | .vote .. => h.execVote
  | .wait .. => h.execWait
  | .pass .. => h.execPass
  | .retract .. => h.execRetract
  | .retractAck .. => h.execRetractAck
  | .abort .. => h.execAbort
  | .commit .. => h.execCommit
  | .commitApply .. => h.execCommitApply
  | .silentTimeout .. => h.execSilentTimeout
  | .rejoinTimeout .. => h.execRejoinTimeout
  | .masterFailover .. => h.execMasterFailover
  | .settings .. => h.execSettings
  | .admissionClose .. => h.execAdmissionClose
  | .nop .. => h.execNop
  | .br .. => h.execBr
  | .call .. => h.execCall
  | .ret .. => h.execRet
  | .loop .. => h.execLoop
  | .loopw .. => h.execLoopw
  | .breakLoop .. => h.execBreakLoop
  | .segend .. => h.execSegend
  | .stepend .. => h.execStepend
  | .trap .. => h.execTrap
  | .illegalOpcode .. => h.execIllegalOpcode
  | .add .. => h.execAdd
  | .sub .. => h.execSub
  | .mul .. => h.execMul
  | .mulh .. => h.execMulh
  | .and .. => h.execAnd
  | .or .. => h.execOr
  | .xor .. => h.execXor
  | .shl .. => h.execShl
  | .shr .. => h.execShr
  | .sra .. => h.execSra
  | .min .. => h.execMin
  | .max .. => h.execMax
  | .clz .. => h.execClz
  | .addi .. => h.execAddi
  | .li .. => h.execLi
  | .sel .. => h.execSel
  | .cmp .. => h.execCmp
  | .plog .. => h.execPlog
  | .ld .. => h.execLd
  | .st .. => h.execSt
  | .atom .. => h.execAtom
  | .rdsr .. => h.execRdsr
  | .waitv .. => h.execWaitv
  | .waitvPoll .. => h.execWaitvPoll
  | .tdld .. => h.execTdld
  | .tdst .. => h.execTdst
  | .tdmov .. => h.execTdmov
  | .tdset .. => h.execTdset
  | .tdget .. => h.execTdget
  | .tdadd .. => h.execTdadd
  | .tdseti .. => h.execTdseti
  | .qopen .. => h.execQopen
  | .qclose .. => h.execQclose
  | .qsync .. => h.execQsync
  | .qstat .. => h.execQstat
  | .streamStall .. => h.execStreamStall
  | .waitLimit .. => h.execWaitLimit
  | .mxld .. => h.execMxld
  | .mxLoadComplete .. => h.execMxLoadComplete
  | .mxrun .. => h.execMxrun
  | .mxout .. => h.execMxout
  | .mxsave .. => h.execMxsave
  | .mxrst .. => h.execMxrst
  | .mxwalk .. => h.execMxwalk
  | .vxFp32Op .. => h.execVxFp32Op
  | .vxInt32Op .. => h.execVxInt32Op
  | .vxTranscendental .. => h.execVxTranscendental
  | .vxRowReduction .. => h.execVxRowReduction
  | .vxCvt .. => h.execVxCvt
  | .vxLadd .. => h.execVxLadd
  | .quant .. => h.execQuant
  | .dequant .. => h.execDequant
  | .convert .. => h.execConvert
  | .transpose .. => h.execTranspose
  | .gather .. => h.execGather
  | .scatter .. => h.execScatter
  | .tld .. => h.execTld
  | .tst .. => h.execTst
  | .route .. => h.execRoute
  | .dispatch .. => h.execDispatch
  | .waitin .. => h.execWaitin
  | .returnRows .. => h.execReturnRows
  | .combine .. => h.execCombine
  | .exQuery .. => h.execExQuery
  | .countRecord .. => h.execCountRecord
  | .dispatchSegment .. => h.execDispatchSegment
  | .returnSegment .. => h.execReturnSegment
  | .shipSegment .. => h.execShipSegment
  | .exCountTimeout .. => h.execExCountTimeout
  | .exDataTimeout .. => h.execExDataTimeout
  | .alloc .. => h.execAlloc
  | .kvPage .. => h.execKvPage
  | .draftsync .. => h.execDraftsync
  | .yield .. => h.execYield
  | .kvPageCopyDone .. => h.execKvPageCopyDone
  | .sample .. => h.execSample
  | .stopchk .. => h.execStopchk
  | .claim .. => h.execClaim
  | .fence .. => h.execFence
  | .bar .. => h.execBar
  | .allreduceSum .. => h.execAllreduceSum
  | .reduceSum .. => h.execReduceSum
  | .reduceScatterSum .. => h.execReduceScatterSum
  | .allreduceMax .. => h.execAllreduceMax
  | .allgather .. => h.execAllgather
  | .broadcast .. => h.execBroadcast
  | .barrier .. => h.execBarrier
  | .cwait .. => h.execCwait
  | .digest .. => h.execDigest
  | .audb .. => h.execAudb
  | .aude .. => h.execAude
  | .memScrub .. => h.execMemScrub
  | .frameRetireCopyDone .. => h.execFrameRetireCopyDone
  | .cxlTrained .. => h.execCxlTrained
  | .cxlLinkDown .. => h.execCxlLinkDown
  | .cxlTimeout .. => h.execCxlTimeout
  | .pnFillComplete .. => h.execPnFillComplete
  | .tcEpochEnd => h.execTcEpochEnd
  | .tcCopyDone .. => h.execTcCopyDone
  | .tcHitFallback .. => h.execTcHitFallback
  | .modelLoad .. => h.execModelLoad
  | .manifestReceive .. => h.execManifestReceive
  | .report .. => h.execReport
  | .shardFetchStart .. => h.execShardFetchStart
  | .shardVerify .. => h.execShardVerify
  | .shardFetchTimeout .. => h.execShardFetchTimeout
  | .shardRetryTimer .. => h.execShardRetryTimer
  | .shardResendRequest .. => h.execShardResendRequest
  | .modelActivate .. => h.execModelActivate
  | .modelDrop .. => h.execModelDrop
  | .modelRepair .. => h.execModelRepair
  | .modelQuery .. => h.execModelQuery
  | .laneSerWindow .. => h.execLaneSerWindow
  | .laneLockLoss .. => h.execLaneLockLoss
  | .laneCtl .. => h.execLaneCtl
  | .laneMoveTimeout .. => h.execLaneMoveTimeout
  | .dataFlit .. => h.execDataFlit
  | .nak .. => h.execNak
  | .idleFlit .. => h.execIdleFlit
  | .linkNakLimit .. => h.execLinkNakLimit
  | .linkRxTimeout .. => h.execLinkRxTimeout
  | .portTrain .. => h.execPortTrain
  | .trainStageComplete .. => h.execTrainStageComplete
  | .trainStageTimeout .. => h.execTrainStageTimeout
  | .ident .. => h.execIdent
  | .fabricMap .. => h.execFabricMap
  | .linkState .. => h.execLinkState
  | .linkStateTimer => h.execLinkStateTimer
  | .read .. => h.execRead
  | .write .. => h.execWrite
  | .atomAdd .. => h.execAtomAdd
  | .atomMax .. => h.execAtomMax
  | .atomCas .. => h.execAtomCas
  | .atomSwap .. => h.execAtomSwap
  | .atomLadd .. => h.execAtomLadd
  | .readResp .. => h.execReadResp
  | .writeAck .. => h.execWriteAck
  | .atomResp .. => h.execAtomResp
  | .collPart .. => h.execCollPart
  | .collResult .. => h.execCollResult
  | .fabDeadTimeout .. => h.execFabDeadTimeout
  | .fabHeldTimeout .. => h.execFabHeldTimeout
  | .ceCollTimeout .. => h.execCeCollTimeout
  | .hostLaneFail .. => h.execHostLaneFail
  | .arpRequest .. => h.execArpRequest
  | .neighborSolicitation .. => h.execNeighborSolicitation
  | .echoRequest .. => h.execEchoRequest
  | .mkaFrame .. => h.execMkaFrame
  | .openReq .. => h.execOpenReq
  | .openOk .. => h.execOpenOk
  | .close .. => h.execClose
  | .data .. => h.execData
  | .ack .. => h.execAck
  | .keepalive .. => h.execKeepalive
  | .eventAck _ bs => h.execEventAck (_payload := bs)
  | .net .. => h.execNet
  | .ackTimer .. => h.execAckTimer
  | .brosinRto .. => h.execBrosinRto
  | .keepaliveTimer .. => h.execKeepaliveTimer
  | .sessionTimeout .. => h.execSessionTimeout
  | .hostNop .. => h.execHostNop
  | .unknownCommand .. => h.execUnknownCommand
  | .submit .. => h.execSubmit
  | .cancel .. => h.execCancel
  | .forward .. => h.execForward
  | .intake .. => h.execIntake
  | .resultRead .. => h.execResultRead
  | .resultAck .. => h.execResultAck
  | .programInstall .. => h.execProgramInstall
  | .programRemove .. => h.execProgramRemove
  | .pnLoad .. => h.execPnLoad
  | .pnPin .. => h.execPnPin
  | .pnUnpin .. => h.execPnUnpin
  | .pnDrop .. => h.execPnDrop
  | .pnQuery .. => h.execPnQuery
  | .memRead .. => h.execMemRead
  | .memWrite .. => h.execMemWrite
  | .regRead .. => h.execRegRead
  | .regWrite .. => h.execRegWrite
  | .channelOpen .. => h.execChannelOpen
  | .channelClose .. => h.execChannelClose
  | .getVersion .. => h.execGetVersion
  | .getCapabilities .. => h.execGetCapabilities
  | .negotiateAlgorithms .. => h.execNegotiateAlgorithms
  | .getDigests .. => h.execGetDigests
  | .getCertificate .. => h.execGetCertificate
  | .challenge .. => h.execChallenge
  | .getMeasurements .. => h.execGetMeasurements
  | .chunkSend .. => h.execChunkSend
  | .chunkGet .. => h.execChunkGet
  | .spdmUnsupportedRequest .. => h.execSpdmUnsupportedRequest
  | .arbWindowEnd .. => h.execArbWindowEnd
  | .agentDeadline .. => h.execAgentDeadline
  | .partQuery .. => h.execPartQuery
  | .preempt .. => h.execPreempt
  | .preemptHoldEnd .. => h.execPreemptHoldEnd
  | .replayStart .. => h.execReplayStart
  | .replayComplete .. => h.execReplayComplete
  | .scanStart .. => h.execScanStart
  | .scanComplete .. => h.execScanComplete
  | .watchExpire .. => h.execWatchExpire
  | .spareScanDue .. => h.execSpareScanDue
  | .rotateDue .. => h.execRotateDue
  | .pllLockLoss .. => h.execPllLockLoss
  | .intSnapshotRead .. => h.execIntSnapshotRead
  | .intSnapshotClear .. => h.execIntSnapshotClear
  | .derQuery .. => h.execDerQuery
  | .derQuarantine .. => h.execDerQuarantine
  | .derScan .. => h.execDerScan
  | .inputRise => h.execInputRise
  | .inputLow => h.execInputLow
  | .inputFail => State.MemForm.execInputFail
  | .inputHigh => h.execInputHigh
  | .pwrEnRise .. => h.execPwrEnRise
  | .pwrEnFall => h.execPwrEnFall
  | .rampDownDone => h.execRampDownDone
  | .staggerEnd => h.execStaggerEnd
  | .modReset => h.execModReset
  | .shelfAlert => h.execShelfAlert
  | .shelfAlertClear => h.execShelfAlertClear
  | .powerEstimate .. => h.execPowerEstimate
  | .calibration .. => h.execCalibration
  | .thermalSample .. => h.execThermalSample
  | .heartbeatTimeout => h.execHeartbeatTimeout
  | .siteUnparkDone .. => h.execSiteUnparkDone
  | .pwrCap .. => h.execPwrCap
  | .pwrHeartbeat .. => h.execPwrHeartbeat
  | .pwrQuery .. => h.execPwrQuery
  | .secEnroll .. => h.execSecEnroll
  | .secChange .. => h.execSecChange
  | .secQuery .. => h.execSecQuery
  | .secKeyLoad .. => h.execSecKeyLoad
  | .secKeyErase .. => h.execSecKeyErase
  | .secRecordRead .. => h.execSecRecordRead
  | .secReport .. => h.execSecReport
  | .secRecordLoad .. => h.execSecRecordLoad
  | .rampStageComplete .. => h.execRampStageComplete
  | .bringupStageTimeout => h.execBringupStageTimeout
  | .tbRoleTimeout => h.execTbRoleTimeout
  | .uartStageLine => h.execUartStageLine
  | .bootFwWrite .. => h.execBootFwWrite
  | .bootFwActivate .. => h.execBootFwActivate
  | .bootFwCommit .. => h.execBootFwCommit
  | .bootResetCold .. => h.execBootResetCold
  | .bootResetWarm .. => h.execBootResetWarm
  | .bootPartReset .. => h.execBootPartReset
  | .bootCoreReset .. => h.execBootCoreReset
  | .trialReadyTimeout => h.execTrialReadyTimeout
  | .trialTimeout => h.execTrialTimeout
  | .i3cSetdasa .. => h.execI3cSetdasa
  | .i3cEntdaa .. => h.execI3cEntdaa
  | .i3cRegisterRead .. => h.execI3cRegisterRead
  | .i3cRegisterWrite .. => h.execI3cRegisterWrite
  | .i3cPrivateRead => h.execI3cPrivateRead
  | .modResetNRelease => h.execModResetNRelease
  | .hostPortTrained => h.execHostPortTrained
  | .flashRecordWritten => h.execFlashRecordWritten
  | .gddr7Refresh .. => h.execGddr7Refresh

/-- Settles O4: whatever command stands at the front of the queue, its effect is made of writes that keep memory's
canonical form; an empty queue idles. -/
theorem stepKeepsTheMemoryForm : Obligations.StepKeepsTheMemoryForm := by
  unfold Obligations.StepKeepsTheMemoryForm
  intro s t hwf ht
  have h : s.MemForm := ⟨hwf⟩
  unfold step at ht
  split at ht
  · cases ht
    exact h.idle.wf
  next c rest _ =>
    have hrest : State.MemForm { s with pending := rest } := h.same rfl
    exact (hrest.exec t ht).wf

end Sys2Proof.Machine
end

section
/-! # Weight supply: model commands, shard supply and shard verification (R354 to R374)

Support: what a write by no work of a tick can do and leaves; how a try's outcome is judged; what a keeper that is not the
reader does when its copy fails. -/

namespace Sys2Proof.Machine

open Sys2Proof.Claims

/-! ## What supply leaves of the module's own place (R325, R359) -/

/-- What a write does that is no work of a tick: nothing where it has no byte; a refusal; or its bytes, counted and written at
the place its checks give (R315, R325). -/
theorem State.writeMem_untimed (s : State) (acc : Accessor) (a : Nat) (bs : List Byte) :
    (bs = [] ∧ s.writeMem acc none a bs = (s, .ok ()))
      ∨ (∃ e, s.writeMem acc none a bs = (s.accessFails a e, .error e))
      ∨ ∃ p, s.place acc a bs.length true = .ok p
          ∧ s.writeMem acc none a bs = ((s.countWrite acc p bs.length).putBytes p bs, .ok ()) := by
  by_cases hbs : bs = []
  · subst hbs
    exact .inl ⟨rfl, rfl⟩
  · cases hp : s.place acc a bs.length true with
    | error e => exact .inr (.inl ⟨e, State.writeMem_refused hbs hp⟩)
    | ok p =>
      unfold State.writeMem
      rw [if_neg (by simpa using hbs), hp]
      dsimp only
      split
      · exact .inr (.inl ⟨0x0603, by rw [State.accessFails, if_neg (by decide)]⟩)
      · exact .inr (.inr ⟨p, rfl, rfl⟩)

@[simp] theorem State.accessFails_self (s : State) (a : Nat) (e : Code) : (s.accessFails a e).self = s.self := by
  unfold State.accessFails
  split <;> rfl

@[simp] theorem State.measure_self (s : State) (acc : Accessor) (p : Place) (len : Nat) :
    (s.measure acc p len).self = s.self := by
  unfold State.measure
  split <;> rfl

@[simp] theorem State.countWrite_self (s : State) (acc : Accessor) (p : Place) (len : Nat) :
    (s.countWrite acc p len).self = s.self := by
  unfold State.countWrite
  dsimp only
  split
  · exact s.measure_self acc p len
  · exact s.measure_self acc p len

@[simp] theorem State.putBytes_self (s : State) (p : Place) (bs : List Byte) : (s.putBytes p bs).self = s.self :=
  State.pnInvalidate_keeps State.self (fun _ _ _ _ => rfl) s _ _

/-- A write leaves the module its place. -/
theorem State.writeMem_self {s w : State} {acc : Accessor} {a : Nat} {bs : List Byte} {r : Except Code Unit}
    (h : s.writeMem acc none a bs = (w, r)) : w.self = s.self := by
  rcases s.writeMem_untimed acc a bs with ⟨-, hw⟩ | ⟨e, hw⟩ | ⟨p, -, hw⟩ <;> rw [hw] at h <;> cases h
  · rfl
  · exact s.accessFails_self a e
  · exact (State.putBytes_self _ _ _).trans (State.countWrite_self _ _ _ _)

/-- Bytes that a write puts at their place are read back there, and every other byte is as before (R359). -/
theorem State.writeMem_written {s w : State} {acc : Accessor} {a : Nat} {bs : List Byte} {p : Place}
    (h : s.writeMem acc none a bs = (w, .ok ())) (hp : s.place acc a bs.length true = .ok p) :
    w.load p.phys bs.length = bs
      ∧ ∀ b, b < p.phys ∨ p.phys + bs.length ≤ b → w.mem.read b = s.mem.read b := by
  rcases s.writeMem_untimed acc a bs with ⟨hbs, hw⟩ | ⟨e, hw⟩ | ⟨q, hq, hw⟩ <;> rw [hw] at h <;> cases h
  · subst hbs
    exact ⟨rfl, fun _ _ => rfl⟩
  · cases hp.symm.trans hq
    refine ⟨State.putBytes_load _ _ _, fun b hb => ?_⟩
    rw [State.putBytes_read_ne _ _ _ hb, (State.countWrite_leaves s acc p bs.length).2.1]

/-- What a shard sent to keepers leaves (R359, R404). -/
theorem sendShard_wireOnly (s : State) (n : Part) (number : Code) (shard : Nat) (k : Shard) (dst : List ModIx)
    (bs : List Byte) : WireOnly s (s.sendShard n number shard k dst bs) := by
  unfold State.sendShard
  dsimp only
  split
  · exact .refl s
  · exact (WireOnly.ofLink (LinkOnly.send _ _)).trans (foldl_wireOnly (fun t _ => onWire_wireOnly t _ _ _) _ _)

/-- A shard is sent to no module that cannot be reached (R413). -/
theorem State.sendShard_unreachable {s : State} {n : Part} {dst : List ModIx} (h : ∀ m ∈ dst, s.route n m = .none)
    (number : Code) (shard : Nat) (k : Shard) (bs : List Byte) : s.sendShard n number shard k dst bs = s := by
  have hnone : dst.filter (fun m => decide (s.route n m ≠ .none)) = [] := by
    simpa [List.filter_eq_nil_iff] using h
  unfold State.sendShard
  dsimp only
  rw [hnone]
  rfl

/-- Who reads a shard's sources turns on the module's place alone. -/
theorem State.reads_congr {s t : State} (h : t.self = s.self) (k : Shard) (x : Fetch) : t.reads k x = s.reads k x := by
  unfold State.reads
  rw [h]

/-- A module that does not read the sources serves no keeper (R362). -/
theorem State.shardReaders_of_not_reads {s : State} {k : Shard} {x : Fetch} (h : s.reads k x = false) :
    s.shardReaders k = [] := by
  have hr : k.reader ≠ s.self.val := by
    intro he
    simp [State.reads, he] at h
  exact if_neg hr

/-! ## The commands about a shard that this module fetches (R359, R361, R362) -/

/-- A fetch changes its version alone. -/
theorem State.setFetch_frame (s : State) (n : Part) (number : Code) (shard : Nat) (x : Fetch) :
    s.setFetch n number shard x = { s with wt := (s.setFetch n number shard x).wt } := by
  unfold State.setFetch State.updVer
  split <;> rfl

theorem State.setFetch_pending (s : State) (n : Part) (number : Code) (shard : Nat) (x : Fetch) :
    (s.setFetch n number shard x).pending = s.pending := by rw [State.setFetch_frame]

section
variable {s : State} {n : Part} {number : Code} {shard : Nat} {v : Version} {k : Shard} {x : Fetch}
  (hf : s.fetchOf n number shard = some (v, k, x))
include hf

/-- A queued shard is read when it is the first of its version and fewer than 16 are in progress (R359). -/
theorem exec_shardFetchStart : exec (.shardFetchStart n number shard) s = lift (fun t =>
    if x.phase = .queued ∧ (∀ y ∈ v.fetches, y.2.phase = .queued → shard ≤ y.1) ∧ t.fetching < 16
    then t.startTry n v shard k x else t) s := by
  show execShardFetchStart n number shard s = _
  unfold execShardFetchStart
  refine lift_congr ?_
  simp only [hf]
  exact if_congr (and_congr_right fun _ => and_congr_left fun _ => by simp) rfl rfl

theorem exec_shardRetryTimer : exec (.shardRetryTimer n number shard) s = lift (fun t =>
    if x.phase = .delay then t.startTry n v shard k x else t) s := by
  show execShardRetryTimer n number shard s = _
  unfold execShardRetryTimer
  refine lift_congr ?_
  simp only [hf]

/-- A try without bytes fails at a reader; another keeper then queues the shard to read it itself (R361, R362). -/
theorem exec_shardFetchTimeout : exec (.shardFetchTimeout n number shard) s = lift (fun t =>
    if x.phase ≠ .reading then t
    else if t.reads k x then t.tryFailed n v shard k x
    else t.setFetch n number shard { x with own := true, phase := .queued }) s := by
  show execShardFetchTimeout n number shard s = _
  unfold execShardFetchTimeout
  refine lift_congr ?_
  simp only [hf]

/-- A reader sends its verified copy again, as memory holds it (R362). -/
theorem exec_shardResendRequest {target : ModIx} {u : State} {bs : List Byte} (hk : k.reader = s.self.val)
    (hx : x.phase = .verified) (hread : s.readMem (hostAcc n) k.dest k.bytes = (u, .ok bs)) :
    exec (.shardResendRequest n number shard target) s = lift (fun _ => u.sendShard n number shard k [target] bs) s := by
  show execShardResendRequest n number shard target s = _
  unfold execShardResendRequest
  refine lift_congr ?_
  simp only [hf, hread]
  exact if_pos ⟨hk, hx⟩

end

/-- A try that starts asks the storage endpoint for the shard, unless its source is on a module (R359). -/
theorem State.startTry_asks {s : State} {n : Part} {v : Version} {shard : Nat} {k : Shard} {x : Fetch}
    (h : (v.sources[sourceIx v k x]?).any (·.onModule) = false) :
    s.startTry n v shard k x = (s.setFetch n v.number shard { x with phase := .reading }).send
      (.shardFetch n v.number shard (sourceIx v k x)) := if_neg (by simp [h])

/-- The first queued shard of its version starts to be read while fewer than 16 are in progress, and its storage endpoint is
asked (R359). -/
theorem shardFetchStart_starts {s : State} {n : Part} {number : Code} {shard : Nat} {v : Version} {k : Shard} {x : Fetch}
    (hf : s.fetchOf n number shard = some (v, k, x)) (hq : x.phase = .queued)
    (hfirst : ∀ y ∈ v.fetches, y.2.phase = .queued → shard ≤ y.1) (hfew : s.fetching < 16) :
    exec (.shardFetchStart n number shard) s = .next (after (fun t => t.startTry n v shard k x) s)
      ∧ ((v.sources[sourceIx v k x]?).any (·.onModule) = false → ∃ t, exec (.shardFetchStart n number shard) s = .next t
          ∧ t.tx = .shardFetch n v.number shard (sourceIx v k x) :: s.tx ∧ t = { s with wt := t.wt, tx := t.tx }) := by
  have hgo : exec (.shardFetchStart n number shard) s = .next (after (fun t => t.startTry n v shard k x) s) :=
    exec_after (exec_shardFetchStart hf) (if_pos ⟨hq, hfirst, hfew⟩)
  refine ⟨hgo, fun hsrc => ⟨_, hgo, ?_⟩⟩
  rw [after, State.startTry_asks hsrc, State.setFetch_frame]
  exact ⟨rfl, rfl⟩

/-! ## Reports (R357, R362, R363) -/

section
variable {s : State} {n : Part} {m : ModIx} {code number : Code} {shard : Nat}

/-- A module that does not order the partition's changes takes no part in a load's placement, but for the refusal by the module
that does (R357). -/
theorem State.takeReport_placement (hm : s.orders n ≠ s.self) (h : code = 0 ∨ (code = 0x0703 ∧ m ≠ s.orders n)) :
    s.takeReport n m code number shard = s := by
  unfold State.takeReport
  rw [if_pos (h.imp_right And.left), if_pos hm, if_neg]
  rintro ⟨hc, hfrom⟩
  rcases h with h | ⟨-, hne⟩
  · exact absurd (h.symm.trans hc) (by decide)
  · exact hne hfrom

/-- A report by a module that does not read the shard for others leaves this module's fetch (R362). -/
theorem State.fromReader_other {i : Fin 8} {v : Version} (hslot : s.slotOf n number = some (i, v))
    (h : ∀ k, v.shards[shard]? = some k → k.reader ≠ m.val) : s.fromReader n m code number shard = s := by
  unfold State.fromReader
  rw [hslot]
  dsimp only
  split
  · next k x hk hx => exact if_neg fun hc => h k hk hc.1
  · rfl

/-- The master's tally of a verified shard of a LOADING version that is not complete by it (R363). -/
theorem State.shardReported_tallied {i : Fin 8} {v : Version} (hm : s.orders n = s.self)
    (hslot : s.slotOf n number = some (i, v)) (hrep : Assoc.find shard v.repairs = none) (hload : v.state = .loading)
    (hpart : Version.complete { v with verified := v.verified ++ [(m, shard)] } = false) (hnew : (m, shard) ∉ v.verified) :
    s.shardReported n m 0x0708 number shard = s.setVer n i { v with verified := v.verified ++ [(m, shard)] } := by
  unfold State.shardReported
  simp only [hslot, hrep]
  rw [if_neg (by simp [hm, hload]), if_neg (by decide), show v.verified.contains (m, shard) = false by simpa using hnew]
  exact if_neg (by simp [hpart])

end

/-! ## Model commands (R357, R366, R367, R373, R374) -/

/-- The version number that MODEL_LOAD appends to its frame is read back from it (log 45). -/
theorem fieldNat_append_natBytes {body : List Byte} (h : body.length = 16) (v : Code) :
    BitVec.ofNat 16 (fieldNat (body ++ natBytes 2 v.toNat) 16 2) = v := by
  have htail : ((body ++ natBytes 2 v.toNat).drop 16).take 2 = natBytes 2 v.toNat := by
    rw [List.drop_left' h]
    exact List.take_of_length_le (by simp)
  unfold fieldNat
  rw [htail, bytesNat_natBytes]
  exact BitVec.eq_of_toNat_eq (by simp [Nat.mod_eq_of_lt v.isLt])

/-- A load waits while a module of the slice has not reported its placement (R357). -/
theorem State.loadReported_waits {s : State} {n : Part} {number : Code} {l : Load} {m : ModIx}
    (hl : s.loads.find? (fun l => decide (l.part = n ∧ l.number = number)) = some l) (hm : m ∈ s.members n)
    (hnot : ∀ r ∈ l.reports, r.1 ≠ m) : s.loadReported n number = s := by
  unfold State.loadReported
  rw [hl]
  dsimp only
  split
  · rfl
  · have hwait : (s.members n).all (fun m => l.reports.any (fun r => decide (r.1 = m))) = false :=
      List.all_eq_false.2 ⟨m, hm, by simpa using fun c hr => hnot (m, c) hr rfl⟩
    exact if_pos (by rw [hwait]; rfl)

/-- The master that learns of a load of which it has heard nothing waits for the reports (R357). -/
theorem State.masterLoad_waits {s : State} {h : HostCmd} {v : Code} (hv : BitVec.ofNat 16 (fieldNat h.frame.body 16 2) = v)
    (hself : s.self ∈ s.members h.part) (hnew : ∀ l ∈ s.loads, ¬(l.part = h.part ∧ l.number = v)) :
    s.masterLoad h = { s with loads := s.loads ++ [⟨h.part, v, [], 0, some h, []⟩] } := by
  have hany : s.loads.any (fun l => decide (l.part = h.part ∧ l.number = v)) = false := by
    simpa using hnew
  have hnone : s.loads.find? (fun l => decide (l.part = h.part ∧ l.number = v)) = none := by
    simpa using hnew
  unfold State.masterLoad
  dsimp only
  rw [hv, hany, if_neg Bool.false_ne_true]
  refine State.loadReported_waits (l := ⟨h.part, v, [], 0, some h, []⟩) ?_ hself (by simp)
  rw [List.find?_append, hnone]
  simp

/-- What MODEL_REPAIR does, by the slot of the version (R366). -/
theorem modelRepair_answers (f : Frame) (n : Part) (s : State) (hlen : f.body.length = 8) :
    let v := BitVec.ofNat 16 (fieldNat f.body 0 4)
    let shard := fieldNat f.body 4 4
    (s.slotOf n v = none → Answers (.modelRepair f) 0x0033 f (.part n) .part s 0x0706)
      ∧ ∀ i x, s.slotOf n v = some (i, x) →
        (x.state = .loading ∨ x.state = .failed → Answers (.modelRepair f) 0x0033 f (.part n) .part s 0x0903)
        ∧ (x.state ≠ .loading → x.state ≠ .failed →
          (x.shards.length ≤ shard → Answers (.modelRepair f) 0x0033 f (.part n) .part s 0x0701)
          ∧ (shard < x.shards.length → s.otherMembers n = [] →
              Answers (.modelRepair f) 0x0033 f (.part n) .part s 0 [] (fun t => t.startRepair n v shard))) := by
  intro v shard
  have hx : exec (.modelRepair f) s = lift (fun t => t.partCmd 0x0033 f _) s := rfl
  have hslot : (started s 0x0033 f (.part n)).slotOf n v = s.slotOf n v := rfl
  have hbody : ¬ f.body.length ≠ 8 := not_not.2 hlen
  refine ⟨fun hnone => effect_of_partCmd hx ((if_neg hbody).trans ?_), fun i x hsome =>
    ⟨fun hbad => effect_of_partCmd hx ((if_neg hbody).trans ?_), fun hl hfl =>
      ⟨fun hout => effect_of_partCmd hx ((if_neg hbody).trans ?_),
        fun hin halone => effect_of_partCmd hx ((if_neg hbody).trans ?_)⟩⟩⟩
  · rw [hslot, hnone]
    rfl
  · rw [hslot, hsome]
    exact if_pos hbad
  · rw [hslot, hsome]
    exact (if_neg (by simp [hl, hfl])).trans (if_pos hout)
  · rw [hslot, hsome]
    refine (if_neg (by simp [hl, hfl])).trans ((if_neg (Nat.not_le.2 hin)).trans ?_)
    dsimp only
    rw [show (started s 0x0033 f (.part n)).otherMembers n = [] from halone]
    rfl

/-- What MODEL_LOAD does with a manifest that passes its checks (R357, R358). -/
def State.loadAccepted (u : State) (f : Frame) (n : Part) (b : List Byte) : State :=
  let v := BitVec.ofNat 16 (fieldNat b 6 2)
  let tm := if fieldNat f.body 12 4 = 0 then 2000 else fieldNat f.body 12 4
  let dst := u.otherMembers n
  let g := { u.mgmt n with module := u.self.val }
  let s1 := if dst.isEmpty then u
    else (u.send (.manifest dst g b (BitVec.ofNat 64 tm))).onMgmt n dst (mgmtBody .forward g ++ b)
  let h : HostCmd := ⟨0x0030, n, u.self, u.arrivedAt 0x0030 f, { f with body := f.body ++ natBytes 2 v.toNat }⟩
  let s2 := (s1.popCmd 0x0030 f).forwardTo h (fun t => t.masterLoad h)
  let s3 := { s2 with loads := if s2.loads.any (fun l => decide (l.part = n ∧ l.number = v)) then s2.loads
                               else s2.loads ++ [(⟨n, v, [], 0, some h, []⟩ : Load)] }
  s3.takeManifest n b tm

/-- What MODEL_LOAD does with what the read of its manifest gives (R357). -/
def State.manifestRead (f : Frame) (n : Part) (u : State) : Except Code (List Byte) → State
  | .error e => u.complete 0x0030 f e
  | .ok b =>
    if manifestBad (u.sliceReg n) b then u.complete 0x0030 f 0x0701
    else if !u.manifestSigned n b then u.complete 0x0030 f 0x0702
    else if (u.slotOf n (BitVec.ofNat 16 (fieldNat b 6 2))).isSome then u.complete 0x0030 f 0x0903
    else if (u.freeSlot n).isNone then u.complete 0x0030 f 0x0705
    else u.loadAccepted f n b

/-- What MODEL_LOAD does with a body that is well formed, by the manifest it reads. -/
theorem effect_modelLoad {f : Frame} {n : Part} {s u : State} {b : List Byte} {run : State → State}
    (hlen : f.body.length = 16) (htmo : fieldNat f.body 12 4 = 0 ∨ (10 ≤ fieldNat f.body 12 4 ∧ fieldNat f.body 12 4 ≤ 60000))
    (hread : (started s 0x0030 f (.part n)).readMem (hostAcc n) (fieldNat f.body 0 8) (fieldNat f.body 8 4) = (u, .ok b))
    (h : State.manifestRead f n u (.ok b) = run (started s 0x0030 f (.part n))) :
    Effect (.modelLoad f) 0x0030 f (.part n) .part s run := by
  refine effect_of_partCmd (show execModelLoad f s = lift (fun t => t.partCmd 0x0030 f _) s from rfl)
    ((if_neg (by omega)).trans ?_)
  let r := (started s 0x0030 f (.part n)).readMem (hostAcc n) (fieldNat f.body 0 8) (fieldNat f.body 8 4)
  show State.manifestRead f n r.1 r.2 = _
  rw [← h, show r = (u, .ok b) from hread]

/-- The master of a slice of one module that accepts a load tells no other module, and learns of the load itself (R357, R358). -/
theorem State.loadAccepted_alone {u : State} {f : Frame} {n : Part} {b : List Byte} (hlen : f.body.length = 16)
    (halone : u.otherMembers n = []) (hm : u.orders n = u.self) (hself : u.self ∈ u.members n)
    (hnew : ∀ l ∈ u.loads, ¬(l.part = n ∧ l.number = BitVec.ofNat 16 (fieldNat b 6 2))) :
    u.loadAccepted f n b = ((u.popCmd 0x0030 f).masterLoad ⟨0x0030, n, u.self, u.arrivedAt 0x0030 f,
      { f with body := f.body ++ natBytes 2 (BitVec.ofNat 16 (fieldNat b 6 2)).toNat }⟩).takeManifest n b
        (if fieldNat f.body 12 4 = 0 then 2000 else fieldNat f.body 12 4) := by
  unfold State.loadAccepted
  extract_lets v tm dst m g s1 h s2 s3
  have h1 : s1 = u := if_pos (by simp [dst, halone])
  have h2 : s2 = (u.popCmd 0x0030 f).masterLoad h := by
    show (s1.popCmd 0x0030 f).forwardTo h _ = _
    rw [h1]
    exact State.forwardTo_self (by simpa [h] using hm) _
  have hmem : (u.popCmd 0x0030 f).members n = u.members n := State.popCmd_reads (g := (·.members n)) (fun _ => rfl) _ _
  have hloads : (u.popCmd 0x0030 f).loads = u.loads := State.popCmd_reads (g := (·.loads)) (fun _ => rfl) _ _
  have hwait := State.masterLoad_waits (s := u.popCmd 0x0030 f) (h := h) (v := v) (fieldNat_append_natBytes hlen v)
    (by rw [State.popCmd_self]; exact hmem ▸ hself) (by rw [hloads]; exact hnew)
  have h3 : s3 = s2 := by
    show { s2 with loads := _ } = s2
    rw [if_pos]
    rw [h2, hwait]
    simp [h]
  rw [h3, h2]

/-- What MODEL_LOAD answers to each fault of its manifest, and what it does with a good one (R357, R358). -/
theorem modelLoad_answers (f : Frame) (n : Part) (s : State) :
    let tmo := fieldNat f.body 12 4
    (f.body.length ≠ 16 ∨ 60000 < tmo ∨ (0 < tmo ∧ tmo < 10) → Answers (.modelLoad f) 0x0030 f (.part n) .part s 0x0901)
    ∧ (f.body.length = 16 → tmo = 0 ∨ (10 ≤ tmo ∧ tmo ≤ 60000) → ∀ u b,
       (started s 0x0030 f (.part n)).readMem (hostAcc n) (fieldNat f.body 0 8) (fieldNat f.body 8 4) = (u, .ok b) →
       let v := BitVec.ofNat 16 (fieldNat b 6 2)
       (manifestBad (u.sliceReg n) b = true → Answers (.modelLoad f) 0x0030 f (.part n) .part s 0x0701 [] (fun _ => u))
       ∧ (manifestBad (u.sliceReg n) b = false →
         (u.manifestSigned n b = false → Answers (.modelLoad f) 0x0030 f (.part n) .part s 0x0702 [] (fun _ => u))
         ∧ (u.manifestSigned n b = true →
           ((u.slotOf n v).isSome = true → Answers (.modelLoad f) 0x0030 f (.part n) .part s 0x0903 [] (fun _ => u))
           ∧ (u.slotOf n v = none → u.freeSlot n = none → Answers (.modelLoad f) 0x0030 f (.part n) .part s 0x0705 [] (fun _ => u))
           ∧ (u.slotOf n v = none → (u.freeSlot n).isSome = true → u.otherMembers n = [] → u.orders n = u.self →
               u.self ∈ u.members n → (∀ l ∈ u.loads, ¬(l.part = n ∧ l.number = v)) →
               Effect (.modelLoad f) 0x0030 f (.part n) .part s (fun _ =>
                 ((u.popCmd 0x0030 f).masterLoad ⟨0x0030, n, u.self, u.arrivedAt 0x0030 f,
                   { f with body := f.body ++ natBytes 2 v.toNat }⟩).takeManifest n b (if tmo = 0 then 2000 else tmo)))))) := by
  intro tmo
  refine ⟨fun h => effect_of_partCmd rfl (if_pos (by omega)), fun hlen htmo u b hread => ?_⟩
  intro v
  refine ⟨fun hbad => effect_modelLoad hlen htmo hread (if_pos hbad), fun hgood => ?_⟩
  have hwell : ¬ manifestBad (u.sliceReg n) b = true := by simp [hgood]
  refine ⟨fun hsig => effect_modelLoad hlen htmo hread ((if_neg hwell).trans (if_pos (by simp [hsig]))), fun hsig => ?_⟩
  have hsigned : ¬ (!u.manifestSigned n b) = true := by simp [hsig]
  refine ⟨fun hold => effect_modelLoad hlen htmo hread ((if_neg hwell).trans ((if_neg hsigned).trans (if_pos hold))), ?_⟩
  have hgo {run : State → State} (hnew : u.slotOf n v = none)
      (h : (if (u.freeSlot n).isNone then u.complete 0x0030 f 0x0705 else u.loadAccepted f n b)
        = run (started s 0x0030 f (.part n))) : Effect (.modelLoad f) 0x0030 f (.part n) .part s run := by
    refine effect_modelLoad hlen htmo hread ((if_neg hwell).trans ((if_neg hsigned).trans ((if_neg ?_).trans h)))
    show ¬ (u.slotOf n v).isSome = true
    simp [hnew]
  refine ⟨fun hnew hfull => hgo hnew (if_pos (by simp [hfull])), fun hnew hfree halone hm hself hl =>
    hgo hnew ((if_neg ?_).trans (State.loadAccepted_alone hlen halone hm hself hl))⟩
  rw [Option.isNone_iff_eq_none, ← Option.not_isSome_iff_eq_none]
  exact not_not.2 hfree

/-- The model commands where they arrive: MODEL_ACTIVATE and MODEL_DROP on their way to the master, the answers of MODEL_QUERY,
MODEL_REPAIR and MODEL_LOAD. -/
theorem modelCommands : ModelCommands := by
  intro f n s
  exact ⟨fun hlen hpol => effect_of_partCmd rfl (if_neg (by omega)), fun h => effect_of_partCmd rfl (if_pos h),
    fun h => effect_of_partCmd rfl (if_neg (not_not.2 h)), fun h => effect_of_partCmd rfl (if_pos h),
    fun h => effect_of_partCmd rfl (if_pos (by simp [h])), fun h => effect_of_partCmd rfl (if_neg (by simpa using h)),
    modelRepair_answers f n s, modelLoad_answers f n s⟩

/-! ## Manifests, reports and fetches (R358 to R363) -/

/-- What a module does with a manifest and with a report, and with each command about a shard that it fetches. -/
theorem shardSupply : ShardSupply := by
  refine ⟨fun s m b t => ⟨rfl, fun v shard => ⟨rfl, fun hm h => ?_, fun i x hm hcode hslot hrep hload hpart hnew hreader => ?_⟩⟩,
    fun s n number shard v k x hf => ?_⟩
  · exact exec_stays (show execReport m v shard s = lift _ s from rfl) (State.takeReport_placement hm h)
  · refine exec_next (show execReport m v shard s = lift _ s from rfl) ?_ rfl
    rw [hcode]
    show State.shardReported (s.fromReader m.dom m.src 0x0708 v shard) m.dom m.src 0x0708 v shard = _
    rw [State.fromReader_other hslot hreader]
    exact State.shardReported_tallied hm hslot hrep hload hpart hnew
  · have htimer := exec_shardRetryTimer hf
    have htimeout := exec_shardFetchTimeout hf
    refine ⟨shardFetchStart_starts hf, fun h => exec_stays (exec_shardFetchStart hf) (if_neg ?_),
      fun h => exec_after htimer (if_pos h), fun h => exec_stays htimer (if_neg h), fun h => exec_stays htimeout (if_pos h),
      fun hx => ?_, fun target u bs hk hx hread => ?_⟩
    · rintro ⟨hq, -, hfew⟩
      rcases h with h | h
      · exact h hq
      · omega
    · have hreading : ¬ x.phase ≠ .reading := not_not.2 hx
      refine ⟨fun hr => ?_, fun hr htries => ?_, fun hr _ => exec_after htimeout ((if_neg hreading).trans (if_pos hr))⟩
      · exact exec_next htimeout ((if_neg hreading).trans (if_neg (by simp [hr]))) (State.setFetch_pending _ _ _ _ _)
      · exact exec_after htimeout ((if_neg hreading).trans ((if_pos hr).trans (if_pos htries)))
    · have hsend := exec_shardResendRequest hf (target := target) hk hx hread
      refine ⟨exec_after hsend rfl, fun hroute hu => ?_⟩
      subst hu
      exact exec_stays hsend (State.sendShard_unreachable (by simpa using hroute) _ _ _ _)

/-! ## Shard verification (R359 to R363, R366) -/

section
variable {s : State} {n : Part} {v : Version} {shard : Nat} {k : Shard} {x : Fetch}

/-- The bytes of a try are those that arrived, but at a reader whose source is on a module (R359). -/
theorem State.tryBytes_arrived (h : s.reads k x = false ∨ (v.sources[sourceIx v k x]?).any (·.onModule) = false)
    (bytes : List Byte) : s.tryBytes n v k x bytes = (s, .ok bytes) := by
  unfold State.tryBytes
  split
  · next q hq =>
    rw [hq] at h
    exact if_neg (by simpa [Decidable.imp_iff_not_or] using h)
  · rfl

/-- A reader whose try's bytes are bad has failed the try (R361). -/
theorem State.badTry_reader (h : s.reads k x = true) : s.badTry n v shard k x = s.tryFailed n v shard k x := if_pos h

/-- What another keeper does whose copy fails (R362): it waits to hear of the reader's, asks for it again, or queues the shard to
read it itself. -/
theorem State.badTry_keeper (h : s.reads k x = false) :
    (x.passed = false → s.badTry n v shard k x = s.setFetch n v.number shard { x with bad := true })
    ∧ (x.passed = true → x.resends < 3 → s.badTry n v shard k x =
      (s.setFetch n v.number shard { x with resends := x.resends + 1 }).send (.shardResend (Fin.ofNat 64 k.reader) n v.number shard))
    ∧ (x.passed = true → 3 ≤ x.resends →
      s.badTry n v shard k x = s.setFetch n v.number shard { x with own := true, phase := .queued }) := by
  have hr : ¬ s.reads k x = true := by simp [h]
  refine ⟨fun hp => (if_neg hr).trans (if_pos (by simp [hp])), fun hp hlt => (if_neg hr).trans ((if_neg (by simp [hp])).trans
    (if_pos hlt)), fun hp hge => (if_neg hr).trans ((if_neg (by simp [hp])).trans (if_neg (Nat.not_lt.2 hge)))⟩

/-- How a try ends whose bytes were written with an outcome: VERIFIED and reported with the manifest's length and digest, and
bad otherwise (R360, R361, R363). -/
def State.tryJudged (w : State) (n : Part) (number : Code) (v : Version) (shard : Nat) (k : Shard) (x : Fetch)
    (bytes : List Byte) : Except Code Unit → State
  | .error _ => w.badTry n v shard k x
  | .ok () =>
    if bytes.length = k.bytes ∧ sha384 bytes = k.digest then
      (w.setFetch n number shard { x with phase := .verified }).report n 0x0708 number shard (!(w.shardReaders k).isEmpty)
    else w.badTry n v shard k x

theorem State.tryJudged_right {number : Code} {bytes : List Byte} (h : bytes.length = k.bytes ∧ sha384 bytes = k.digest) :
    s.tryJudged n number v shard k x bytes (.ok ())
      = (s.setFetch n number shard { x with phase := .verified }).report n 0x0708 number shard (!(s.shardReaders k).isEmpty) :=
  if_pos h

theorem State.tryJudged_wrong {number : Code} {bytes : List Byte} (h : ¬(bytes.length = k.bytes ∧ sha384 bytes = k.digest)) :
    s.tryJudged n number v shard k x bytes (.ok ()) = s.badTry n v shard k x := if_neg h

/-- A try whose bytes arrive, of a shard that is not under repair, is sent to the keepers that wait for it, written here, and
judged (R359 to R363). -/
theorem exec_shardVerify {number : Code} {bytes : List Byte} {w t : State} {r : Except Code Unit}
    (hf : s.fetchOf n number shard = some (v, k, x)) (hx : x.phase = .reading) (hrep : Assoc.find shard v.repairs = none)
    (hsrc : s.reads k x = false ∨ (v.sources[sourceIx v k x]?).any (·.onModule) = false)
    (hput : (s.sendShard n number shard k (s.shardReaders k) bytes).writeMem (hostAcc n) none k.dest (bytes.take k.bytes) = (w, r))
    (ht : w.tryJudged n number v shard k x bytes r = t) :
    exec (.shardVerify n number shard bytes) s = .next (after (fun _ => t) s) := by
  refine exec_after (show execShardVerify n number shard bytes s = lift _ s from rfl) ?_
  have hingest : (s.sendShard n number shard k (s.shardReaders k) bytes).ingest n k (bytes.take k.bytes) false
      = (w, r.map (fun _ => [])) := by
    unfold State.ingest
    simp [hput]
  simp only [hf, State.tryBytes_arrived hsrc, hrep, Option.isSome_none, hingest, Bool.false_or]
  rw [if_neg (not_not.2 hx), ← ht]
  cases r <;> rfl

end

/-- How a try of a shard that is not under repair ends, at the reader and at another keeper. -/
theorem shardVerification : ShardVerification := by
  intro s n number shard v k x bytes hf hx hrep right put
  refine ⟨fun hr => ?_, fun hr hsrc => ?_⟩
  · have hgo {w t : State} {r : Except Code Unit} (hw : put s = (w, r)) (ht : w.tryJudged n number v shard k x bytes r = t) :=
      exec_shardVerify hf hx hrep (.inl hr)
        (by rw [State.shardReaders_of_not_reads hr, State.sendShard_unreachable (by simp)]; exact hw) ht
    have hreads {w : State} {r : Except Code Unit} (hw : put s = (w, r)) : w.reads k x = false :=
      (State.reads_congr (State.writeMem_self hw) k x).trans hr
    refine ⟨fun w hw => ⟨fun hright => hgo hw ((State.tryJudged_right hright).trans ?_), fun hwrong => ?_,
      fun p hp => State.writeMem_written hw hp⟩, fun w e hw => hgo hw rfl⟩
    · rw [State.shardReaders_of_not_reads (hreads hw)]
      rfl
    · obtain ⟨hwaits, hasks, hqueues⟩ := State.badTry_keeper (n := n) (v := v) (shard := shard) (hreads hw)
      have hbad := State.tryJudged_wrong (s := w) (n := n) (number := number) (v := v) (shard := shard) (x := x) hwrong
      exact ⟨fun hp => hgo hw (hbad.trans (hwaits hp)), fun hp hlt => hgo hw (hbad.trans (hasks hp hlt)),
        fun hp hge => hgo hw (hbad.trans (hqueues hp hge))⟩
  · intro u
    have hreads {w : State} {r : Except Code Unit} (hw : put u = (w, r)) : w.reads k x = true :=
      (State.reads_congr ((State.writeMem_self hw).trans (sendShard_wireOnly s n number shard k _ bytes).self) k x).trans hr
    refine ⟨fun w hw => ⟨fun hright => exec_shardVerify hf hx hrep (.inr hsrc) hw (State.tryJudged_right hright), fun hwrong => ?_⟩,
      fun w e hw => exec_shardVerify hf hx hrep (.inr hsrc) hw (State.badTry_reader (hreads hw))⟩
    exact exec_shardVerify hf hx hrep (.inr hsrc) hw ((State.tryJudged_wrong hwrong).trans (State.badTry_reader (hreads hw)))

/-- Settles O32: the commands' answers, the shard's way from queue to try and retry, and the judging of a try. -/
theorem modelVersions : Obligations.ModelVersions := ⟨modelCommands, shardSupply, shardVerification⟩

end Sys2Proof.Machine
end

section
/-! # What flits sent, reports and changes of role leave of the torus ports (R379 to R387, R398, R585)

Support for the statements about lanes, flits, training and link states. -/

namespace Sys2Proof.Machine

open Sys2Proof.Claims

/-! ## Ports -/

theorem State.port_setPort_ne (s : State) {p q : Port} (h : p ≠ q) (x : FabPort) : (s.setPort p x).port q = s.port q := by
  simp [State.port, State.setPort, Assoc.getD_put_ne h]

theorem State.port_congr {s t : State} (h : t.fab = s.fab) (p : Port) : t.port p = s.port p := by
  unfold State.port
  rw [h]

theorem EventOnly.fab {s t : State} (h : EventOnly s t) : t.fab = s.fab := by rw [h.frame]

/-- An UP port carries every class (R395). -/
theorem State.portCarries_up {s : State} {p : Port} (h : (s.port p).state = .up) : s.portCarries p = true := by
  simp [State.portCarries, FabPort.carriesClass, h]

/-- A port with nothing waiting sends nothing. -/
theorem State.pump_empty {s : State} {p : Port} (h : (s.port p).waiting = []) : s.pump p = s := by
  unfold State.pump
  rw [h]
  rfl

theorem State.takeAck_empty {s : State} {p : Port} (h : (s.port p).waiting = []) (f : Flit) : s.takeAck p f = s.noteAck p f :=
  State.pump_empty (by rw [State.noteAck, State.port_setPort_self]; exact h)

/-! ## A flit sent (R381, R382) -/

/-- Registers, the fabric and what was sent change, and nothing else. -/
def OnLink (s t : State) : Prop := t = { s with regs := t.regs, fab := t.fab, tx := t.tx }

theorem OnLink.trans {s t u : State} (h : OnLink s t) (h' : OnLink t u) : OnLink s u := by
  unfold OnLink at *
  conv_lhs => rw [h', h]

/-- A change of registers and the fabric alone may come first. -/
theorem OnLink.onto {s t u : State} (h : OnLink t u) (h0 : OnLink s t := by exact rfl) : OnLink s u := h0.trans h

theorem OnLink.after {f : State → State} {s : State} (h : OnLink s (f s)) : OnLink s (after f s) := by
  unfold OnLink at *
  conv_lhs => rw [Claims.after, h]
  rfl

section
variable {s t : State} (h : OnLink s t)
include h

theorem OnLink.frame : t = { s with regs := t.regs, fab := t.fab, tx := t.tx } := h
theorem OnLink.mem : t.mem = s.mem := by rw [h.frame]
theorem OnLink.cores : t.cores = s.cores := by rw [h.frame]
theorem OnLink.trust : t.trust = s.trust := by rw [h.frame]

end

theorem flitBytes_length (f : Flit) : (flitBytes f).length = 256 := by
  unfold flitBytes flitBody
  rw [List.length_append, List.length_append, List.length_take, List.length_append, List.length_replicate, natBytes_length,
    natBytes_length]
  omega

/-- The sending of a flit changes its port's stream and what was sent. -/
structure FlitSent (s : State) (p : Port) (k : FlitKind) (f : Flit) (t : State) : Prop where
  frame : t = State.setPort { s with tx := t.tx } p { s.port p with stream := (t.port p).stream }
  plain : plainOf t.tx = .flit p k f :: plainOf s.tx

/-- A flit that does not fill the codewords of a pair joins the stream. -/
theorem State.sendFlit_joins {s : State} {p : Port} (h : (s.port p).stream.length < 1024) (k : FlitKind) (f : Flit) :
    s.sendFlit p k f = (s.send (.flit p k f)).setPort p { s.port p with stream := (s.port p).stream ++ flitBytes f } :=
  if_pos (by rw [List.length_append, flitBytes_length]; omega)

/-- The fifth flit of a pair sends its two codewords. -/
theorem State.sendFlit_fills {s : State} {p : Port} (h : 1024 ≤ (s.port p).stream.length) (k : FlitKind) (f : Flit) :
    let c := codewordPair ((s.port p).stream ++ flitBytes f)
    s.sendFlit p k f = ((s.send (.flit p k f)).setPort p { s.port p with stream := [] }).send
      (.codewords p (laneSymbols (s.port p).lanes c.1) (laneSymbols (s.port p).lanes c.2)) :=
  if_neg (by rw [List.length_append, flitBytes_length]; omega)

theorem sendFlit_sent (s : State) (p : Port) (k : FlitKind) (f : Flit) : FlitSent s p k f (s.sendFlit p k f) := by
  rcases Nat.lt_or_ge (s.port p).stream.length 1024 with h | h
  · rw [State.sendFlit_joins h]
    exact ⟨by rw [State.port_setPort_self]; rfl, rfl⟩
  · rw [State.sendFlit_fills h]
    refine ⟨?_, rfl⟩
    rw [show ∀ m, ((((s.send (.flit p k f)).setPort p { s.port p with stream := [] }).send m).port p).stream = [] from
      fun _ => congrArg FabPort.stream (State.port_setPort_self _ _ _)]
    rfl

namespace FlitSent

variable {s t : State} {p : Port} {k : FlitKind} {f : Flit} (h : FlitSent s p k f t)
include h

theorem port : t.port p = { s.port p with stream := (t.port p).stream } := by
  conv_lhs => rw [h.frame, State.port_setPort_self]

theorem port_ne {q : Port} (hq : p ≠ q) : t.port q = s.port q := by
  rw [h.frame]
  exact State.port_setPort_ne _ hq _

theorem regs : t.regs = s.regs := by rw [h.frame]; rfl

theorem reg (r : Reg) (i j : Nat) : t.reg r i j = s.reg r i j := by
  unfold State.reg State.raw
  rw [h.regs]

theorem onLink : OnLink s t := by
  unfold OnLink
  rw [h.frame]
  rfl

/-- The flit is among the messages sent. -/
theorem mem : Msg.flit p k f ∈ t.tx :=
  (List.mem_filter.1 (show _ ∈ plainOf t.tx by rw [h.plain]; exact List.mem_cons_self)).1

end FlitSent

/-! ## What sending leaves of a port -/

/-- What flits sent and a port kept off the time base leave of a port: all but the flits under way, the credits, the stream and
that mark. -/
def FabPort.Sends (x y : FabPort) : Prop :=
  y = { x with txSeq := y.txSeq, retry := y.retry, waiting := y.waiting, credits := y.credits, stream := y.stream,
               turn := y.turn, noTime := y.noTime }

theorem FabPort.Sends.refl (x : FabPort) : x.Sends x := rfl

theorem FabPort.Sends.trans {x y z : FabPort} (h : x.Sends y) (h' : y.Sends z) : x.Sends z := by
  unfold FabPort.Sends at *
  conv_lhs => rw [h', h]

section
variable {x y : FabPort} (h : x.Sends y)
include h

theorem FabPort.Sends.state : y.state = x.state := by rw [h]
theorem FabPort.Sends.reason : y.reason = x.reason := by rw [h]
theorem FabPort.Sends.lanes : y.lanes = x.lanes := by rw [h]
theorem FabPort.Sends.failed : y.failed = x.failed := by rw [h]

end

/-- A flit sent changes the stream of its port alone. -/
theorem FlitSent.port_sends {s t : State} {p : Port} {k : FlitKind} {f : Flit} (h : FlitSent s p k f t) :
    (s.port p).Sends (t.port p) := by
  rw [h.port]
  rfl

/-- What the next of the flits that can go does: nothing can go; the retry buffer is full, and an IDLE flit goes; or a flit
goes, against a credit (R379, R384, R386). -/
theorem pumpFlits_cases (p : Port) (k : Nat) (s : State) :
    pumpFlits p (k + 1) s = s ∨ (∃ g, pumpFlits p (k + 1) s = s.sendFlit p .idle g)
      ∨ ∃ x g, (s.port p).Sends x
        ∧ pumpFlits p (k + 1) s = pumpFlits p k (((s.setPort p x).bump .fabTxFlits 0 p.val 1).sendFlit p .data g) := by
  conv in (occs := *) pumpFlits p (k + 1) s => unfold pumpFlits
  dsimp only
  split
  · exact .inl rfl
  · split
    · exact .inl rfl
    · split
      · exact .inr (.inl ⟨_, rfl⟩)
      · refine .inr (.inr ⟨_, _, ?_, rfl⟩)
        rfl

/-- The flits that go out of a port leave the others, and of their own all but what sending changes. -/
theorem pumpFlits_port (p : Port) (k : Nat) (s : State) :
    (s.port p).Sends ((pumpFlits p k s).port p) ∧ ∀ q, p ≠ q → (pumpFlits p k s).port q = s.port q := by
  induction k generalizing s with
  | zero => exact ⟨.refl _, fun _ _ => rfl⟩
  | succ k ih =>
    rcases pumpFlits_cases p k s with h | ⟨g, h⟩ | ⟨x, g, hx, h⟩ <;> rw [h]
    · exact ⟨.refl _, fun _ _ => rfl⟩
    · exact ⟨(sendFlit_sent s p .idle g).port_sends, fun q hq => (sendFlit_sent s p .idle g).port_ne hq⟩
    · have hsent := sendFlit_sent ((s.setPort p x).bump .fabTxFlits 0 p.val 1) p .data g
      obtain ⟨hself, hother⟩ := ih (((s.setPort p x).bump .fabTxFlits 0 p.val 1).sendFlit p .data g)
      have hx1 : ((s.setPort p x).bump .fabTxFlits 0 p.val 1).port p = x := State.port_setPort_self s p x
      refine ⟨(hx.trans ?_).trans hself, fun q hq => ?_⟩
      · have hsends := hsent.port_sends
        rwa [hx1] at hsends
      · rw [hother q hq, hsent.port_ne hq]
        exact State.port_setPort_ne s hq x

/-- What sends over one port leaves the others, and of its own all but what sending changes. -/
theorem pump_port (p : Port) (s : State) :
    (s.port p).Sends ((s.pump p).port p) ∧ ∀ q, p ≠ q → (s.pump p).port q = s.port q := pumpFlits_port p _ s

theorem pushBytes_port (s : State) (p : Port) (vc : BitVec 4) (bs : List Byte) :
    (s.port p).Sends ((s.pushBytes p vc bs).port p) ∧ ∀ q, p ≠ q → (s.pushBytes p vc bs).port q = s.port q := by
  unfold State.pushBytes
  dsimp only
  generalize (runsOf 240 bs).map _ = fl
  obtain ⟨hself, hother⟩ := pump_port p (s.setPort p { s.port p with waiting := (s.port p).waiting ++ fl })
  refine ⟨FabPort.Sends.trans ?_ hself, fun q hq => (hother q hq).trans (State.port_setPort_ne s hq _)⟩
  rw [State.port_setPort_self]
  rfl

/-! ## What a port's entering or leaving UP sets off (R31, R398, R585, R586) -/

/-- The registers that floods, reports and changes of role change. -/
def Reg.ofMoves : List Reg := [.fabTxFlits, .fabRouteEpoch, .fabCode, .bootCode, .cadDomCode] ++ Reg.ofEvents

/-- What floods, reports and changes of role leave: they send, report and move the time base; of a port they change what sending
changes, and of one that is not UP its mark of the time base alone. -/
structure LinkMoved (s t : State) : Prop where
  frame : t = { s with tx := t.tx, regs := t.regs, hp := t.hp, tb := t.tb,
                       fab := { s.fab with ports := t.fab.ports, lsSeq := t.fab.lsSeq } }
  regs : ∀ k : RegKey, k.reg ∉ Reg.ofMoves → t.raw k = s.raw k
  port : ∀ q, (s.port q).Sends (t.port q)
  still : ∀ q, (s.port q).state ≠ .up → t.port q = { s.port q with noTime := (t.port q).noTime }

namespace LinkMoved

/-- What leaves the registers and the ports, but for the number of the module's LINK_STATE. -/
theorem of {s t : State} (h : t = { s with tx := t.tx, hp := t.hp, tb := t.tb, fab := { s.fab with lsSeq := t.fab.lsSeq } }) :
    LinkMoved s t := by
  have hport (q : Port) : t.port q = s.port q := by unfold State.port; rw [h]
  refine ⟨?_, fun k _ => ?_, fun q => ?_, fun q _ => ?_⟩
  · conv_lhs => rw [h]
    rw [h]
  · unfold State.raw
    rw [h]
  · rw [hport]
    exact .refl _
  · rw [hport]

theorem refl (s : State) : LinkMoved s s := of rfl

theorem trans {s t u : State} (h : LinkMoved s t) (h' : LinkMoved t u) : LinkMoved s u := by
  refine ⟨?_, fun k hk => (h'.regs k hk).trans (h.regs k hk), fun q => (h.port q).trans (h'.port q), fun q hq => ?_⟩
  · conv_lhs => rw [h'.frame, h.frame]
  · rw [h'.still q (by rwa [(h.port q).state]), h.still q hq]

theorem foldl {α : Type} {f : State → α → State} (h : ∀ t x, LinkMoved t (f t x)) (l : List α) (s : State) :
    LinkMoved s (l.foldl f s) := by
  induction l generalizing s with
  | nil => exact refl s
  | cons x l ih => exact (h s x).trans (ih _)

theorem setReg (s : State) (r : Reg) (i j : Nat) (v : Word) (hr : r ∈ Reg.ofMoves := by decide) :
    LinkMoved s (s.setReg r i j v) :=
  ⟨rfl, fun _ hk => State.raw_setRaw_ne _ (fun e => hk (by rw [← e, rk_reg]; exact hr)) _, fun _ => .refl _, fun _ _ => rfl⟩

theorem ofEvent {s t : State} (h : EventOnly s t) : LinkMoved s t := by
  have hport (q : Port) : t.port q = s.port q := State.port_congr h.fab q
  refine ⟨?_, fun k hk => h.regs k (fun he => hk (List.mem_append_right _ he)), fun q => ?_, fun q _ => ?_⟩
  · conv_lhs => rw [h.frame]
    rw [h.tb, h.fab]
  · rw [hport]
    exact .refl _
  · rw [hport]

/-- Bytes put on an UP port. -/
theorem pushBytes {s : State} {p : Port} (h : (s.port p).state = .up) (vc : BitVec 4) (bs : List Byte) :
    LinkMoved s (s.pushBytes p vc bs) := by
  have hlink := pushBytes_linkOnly s p vc bs
  obtain ⟨hself, hother⟩ := pushBytes_port s p vc bs
  refine ⟨?_, fun k hk => ?_, fun q => ?_, fun q hq => ?_⟩
  · conv_lhs => rw [hlink.frame]
    rw [hlink.tb, show (s.pushBytes p vc bs).hp = s.hp by rw [hlink.frame],
      show (s.pushBytes p vc bs).fab.lsSeq = s.fab.lsSeq by rw [hlink.frame]]
  · unfold State.raw Assoc.getD
    rw [hlink.regs k (fun e => hk (by rw [e]; decide))]
  · by_cases hpq : p = q
    · rw [← hpq]
      exact hself
    · rw [hother q hpq]
      exact .refl _
  · rw [hother q (fun e => hq (e ▸ h))]

/-- A port keeps off the time base (R586). -/
theorem setNoTime (s : State) (p : Port) (b : Bool) : LinkMoved s (s.setPort p { s.port p with noTime := b }) := by
  have hport (q : Port) : (s.setPort p { s.port p with noTime := b }).port q
      = { s.port q with noTime := ((s.setPort p { s.port p with noTime := b }).port q).noTime } := by
    by_cases hpq : p = q
    · subst hpq
      rw [State.port_setPort_self]
    · rw [State.port_setPort_ne s hpq]
  exact ⟨rfl, fun _ _ => rfl, fun q => by rw [hport q]; rfl, fun q _ => hport q⟩

section
variable {s t : State} (h : LinkMoved s t)
include h

theorem pending : t.pending = s.pending := by rw [h.frame]
theorem mem : t.mem = s.mem := by rw [h.frame]
theorem cores : t.cores = s.cores := by rw [h.frame]

theorem reg {r : Reg} (hr : r ∉ Reg.ofMoves) (i j : Nat) : t.reg r i j = s.reg r i j := h.regs _ (by rwa [rk_reg])

end

theorem domReport (s : State) (n : Part) (code : Code) (d : List Byte) : LinkMoved s (s.domReport n code d) :=
  (setReg s .cadDomCode 0 n.val _).trans (ofEvent (eventOn_eventOnly _ _ _ _ _ _))

theorem mgmtReport (s : State) (r : Reg) (code : Code) (d : List Byte) (hr : r ∈ Reg.ofMoves := by decide) :
    LinkMoved s (s.mgmtReport r code d) :=
  (setReg s r 0 0 _ hr).trans (ofEvent (mgmtReport_eventOnly s r code d))

theorem routesChanged (s : State) : LinkMoved s s.routesChanged := (setReg s .fabRouteEpoch 0 0 _).trans (mgmtReport _ _ _ _)

/-- Bytes put on several UP ports. -/
theorem pushAll (g : State → Port → List Byte) (l : List Port) {s : State} (h : ∀ p ∈ l, (s.port p).state = .up) :
    LinkMoved s (l.foldl (fun t p => t.pushBytes p 0 (g t p)) s) := by
  induction l generalizing s with
  | nil => exact refl s
  | cons p l ih =>
    have hp := pushBytes (h p List.mem_cons_self) 0 (g s p)
    exact hp.trans (ih (fun q hq => (hp.port q).state.trans (h q (List.mem_cons_of_mem _ hq))))

theorem flood (s : State) (m : Mgmt) (data : List Word) (but : Option Port) : LinkMoved s (s.flood m data but) := by
  unfold State.flood
  dsimp only
  split
  · exact refl s
  · refine trans (of rfl : LinkMoved s (s.send _)) (pushAll _ _ (fun p hp => ?_))
    exact of_decide_eq_true (Bool.and_eq_true_iff.1 (List.mem_filter.1 hp).2).1

theorem sendLinkState (s : State) : LinkMoved s s.sendLinkState := trans (of rfl) (flood _ _ _ _)

theorem holdover (s : State) : LinkMoved s s.holdover := by
  unfold State.holdover
  split
  · exact refl s
  · exact trans (of rfl) (foldl (fun t n => domReport t n _ _) _ _)

theorem becomeRoot (s : State) : LinkMoved s s.becomeRoot := of rfl

theorem takeRole (s : State) : LinkMoved s s.takeRole := by
  unfold State.takeRole
  dsimp only
  split
  · exact becomeRoot s
  · split
    · exact refl s
    · exact of rfl

theorem followRoot (s : State) : LinkMoved s s.followRoot := by
  unfold State.followRoot
  dsimp only
  split
  · split
    · exact becomeRoot s
    · exact trans (of rfl) (holdover _)
  · split
    · exact of rfl
    · exact trans (of rfl) (holdover _)

theorem parentLost (s : State) (p : Port) : LinkMoved s (s.parentLost p) := by
  unfold State.parentLost
  split
  · exact refl s
  · exact trans (of rfl) ((holdover _).trans (followRoot _))

theorem reviewRole (s : State) : LinkMoved s s.reviewRole := by
  unfold State.reviewRole
  split
  · exact refl s
  · exact takeRole s
  · dsimp only
    split
    · split
      · exact takeRole s
      · split
        · exact refl s
        · exact (setNoTime s _ true).trans (mgmtReport _ _ _ _)
    · split
      · exact refl s
      · exact followRoot s

theorem portMoved (s : State) (p : Port) (was now : PortState) : LinkMoved s (s.portMoved p was now) := by
  unfold State.portMoved
  split
  · exact refl s
  · extract_lets s1
    have h1 : LinkMoved s s1 := by
      unfold s1
      split
      · exact (sendLinkState s).trans (routesChanged _)
      · exact refl s
    split
    · exact h1.trans (parentLost _ p)
    · split
      · split
        · exact h1.trans (takeRole _)
        · exact h1.trans (reviewRole _)
      · exact h1

/-- A port that changes, with what follows. -/
theorem movePort (s : State) (p : Port) (x : FabPort) : LinkMoved (s.setPort p x) (s.movePort p x) := portMoved _ _ _ _

end LinkMoved

/-! ## Reports -/

/-- What was sent before an event was sent before it. -/
theorem State.pushEvent_tx {s : State} {m : Msg} (h : m ∈ s.tx) (c : Nat) (kind code : Code) (tick : Word) (body : List Byte) :
    m ∈ (s.pushEvent c kind code tick body).1.tx := by
  unfold State.pushEvent
  split
  · exact h
  · exact List.mem_cons_of_mem _ h

theorem State.mgmtReport_tx {s : State} {m : Msg} (h : m ∈ s.tx) (r : Reg) (code : Code) (d : List Byte) :
    m ∈ (s.mgmtReport r code d).tx := by
  unfold State.mgmtReport State.mgmtEvent State.eventOn
  have hs : m ∈ (s.setReg r 0 0 (codeWord code)).tx := h
  dsimp only
  split
  · exact State.pushEvent_tx hs _ _ _ _ _
  · exact State.pushEvent_tx (s := State.setReg _ _ _ _ _) (State.pushEvent_tx hs _ _ _ _ _) _ _ _ _ _

/-- A report keeps its code. -/
theorem State.mgmtReport_code (s : State) {r : Reg} (hr : r ∉ Reg.ofEvents) (code : Code) (d : List Byte) :
    (s.mgmtReport r code d).reg r = codeWord code :=
  ((mgmtReport_eventOnly s r code d).reg hr 0 0).trans (State.reg_setReg_self _ _ _ _ _)

theorem State.mgmtReport_fab (s : State) (r : Reg) (code : Code) (d : List Byte) : (s.mgmtReport r code d).fab = s.fab :=
  (mgmtReport_eventOnly s r code d).fab

/-- A report leaves the registers but its own and those of events. -/
theorem State.mgmtReport_reg_ne (s : State) {r q : Reg} (hr : r ≠ q) (hq : q ∉ Reg.ofEvents) (code : Code) (d : List Byte)
    (i j : Nat) : (s.mgmtReport r code d).reg q i j = s.reg q i j :=
  ((mgmtReport_eventOnly s r code d).reg hq i j).trans (State.reg_setReg_ne s hr _ _ _ _ _)

end Sys2Proof.Machine
end

section
/-! # The flit exchange and the lanes of a torus port (R379 to R386, R426)

Support: what an accepted flit, a request for retransmission and flits sent again do to their port; what a retired lane
leaves. -/

namespace Sys2Proof.Machine

open Sys2Proof.Claims

/-! ## Codewords (R381) -/

theorem chunksOf_length {α : Type} {n : Nat} (hn : 0 < n) (k : Nat) {fuel : Nat} {l : List α} (hl : l.length = n * k)
    (hf : k ≤ fuel) : (chunksOf n fuel l).length = k := by
  induction k generalizing fuel l with
  | zero =>
    obtain rfl : l = [] := List.length_eq_zero_iff.1 hl
    cases fuel <;> rfl
  | succ k ih =>
    obtain ⟨fuel, rfl⟩ : ∃ m, fuel = m + 1 := ⟨fuel - 1, by omega⟩
    have hpos : 0 < l.length := by rw [hl]; positivity
    have hne : (l.isEmpty || n == 0) = false := by
      simp [List.ne_nil_of_length_pos hpos, hn.ne']
    rw [chunksOf, hne, if_neg Bool.false_ne_true, List.length_cons,
      ih (by rw [List.length_drop, hl, Nat.mul_succ]; omega) (by omega)]

theorem codewordMessage_length (pair : Bool) {piece : List Byte} (h : piece.length = 640) :
    (codewordMessage pair piece).length = 514 := by
  have hbits : ((List.range 20).map (codewordHeader pair).getLsbD
      ++ piece.flatMap (fun b => (List.range 8).map b.getLsbD)).length = 10 * 514 := by
    simp only [List.length_append, List.length_flatMap, List.length_map, List.length_range, List.map_const', List.sum_replicate,
      smul_eq_mul, h]
  unfold codewordMessage
  rw [List.length_map]
  exact chunksOf_length (by decide) 514 hbits (by rw [hbits]; decide)

/-- A codeword is its message, then the parity of that. -/
theorem codeword_parts (pair : Bool) {piece : List Byte} (h : piece.length = 640) :
    (codeword pair piece).take 514 = codewordMessage pair piece
      ∧ (codeword pair piece).drop 514 = rsParity ((codeword pair piece).take 514) := by
  have hlen := codewordMessage_length pair h
  have htake : (codeword pair piece).take 514 = codewordMessage pair piece := List.take_left' hlen
  exact ⟨htake, by rw [htake]; exact List.drop_left' hlen⟩

/-! ## The next data flit (R384, R386) -/

/-- The IDLE flit that acknowledges a data flit and returns its credit (R384, R386). -/
def idleFor (fl : Flit) : Flit := flitWithCrc .idle { flitEmpty with ack := fl.seq, creditVc := fl.vc, credits := 1 }

/-- What an acknowledgement leaves of a port (R384, R386). -/
def FabPort.acked (x : FabPort) (f : Flit) : FabPort :=
  { x with retry := afterAck f.ack x.retry, moving := false,
           credits := Assoc.put f.creditVc (x.credit f.creditVc + f.credits.toNat) x.credits }

theorem State.noteAck_eq (s : State) (p : Port) (f : Flit) : s.noteAck p f = s.setPort p ((s.port p).acked f) := rfl

/-- An acknowledgement gives the credits it brings (R386). -/
theorem FabPort.acked_credit (x : FabPort) (f : Flit) :
    (x.acked f).credit f.creditVc = x.credit f.creditVc + f.credits.toNat := Assoc.getD_put_self _ _ _ _

/-- A data flit that is taken: counted, with its acknowledgement. -/
def State.tookFlit (s : State) (p : Port) (fl : Flit) : State :=
  ((s.setPort p { s.port p with rxSeq := fl.seq, naked := false }).bump .fabRxFlits 0 p.val 1).noteAck p fl

theorem State.tookFlit_port (s : State) (p : Port) (fl : Flit) :
    (s.tookFlit p fl).port p = FabPort.acked { s.port p with rxSeq := fl.seq, naked := false } fl := by
  refine (State.port_setPort_self _ _ _).trans ?_
  exact congrArg (fun x => FabPort.acked x fl) (State.port_setPort_self s p _)

/-- The fifth flit of a pair empties the stream and sends the two codewords, each its message, then the parity (R381). -/
theorem codewords_sent {s : State} {p : Port} {k : FlitKind} {f : Flit} (h : (s.port p).stream.length = 1024) :
    ((s.sendFlit p k f).port p).stream = []
      ∧ ∃ c d : List (BitVec 10), (s.sendFlit p k f).tx
            = .codewords p (laneSymbols (s.port p).lanes c) (laneSymbols (s.port p).lanes d) :: .flit p k f :: s.tx
          ∧ c.take 514 = codewordMessage false (((s.port p).stream ++ flitBytes f).take 640)
          ∧ d.take 514 = codewordMessage true (((s.port p).stream ++ flitBytes f).drop 640)
          ∧ c.drop 514 = rsParity (c.take 514) ∧ d.drop 514 = rsParity (d.take 514) := by
  have hlen : ((s.port p).stream ++ flitBytes f).length = 1280 := by rw [List.length_append, flitBytes_length, h]
  obtain ⟨hc, hc'⟩ := codeword_parts false (piece := ((s.port p).stream ++ flitBytes f).take 640)
    (by rw [List.length_take, hlen]; rfl)
  obtain ⟨hd, hd'⟩ := codeword_parts true (piece := ((s.port p).stream ++ flitBytes f).drop 640)
    (by rw [List.length_drop, hlen])
  rw [State.sendFlit_fills h.ge]
  exact ⟨congrArg FabPort.stream (State.port_setPort_self _ _ _), _, _, rfl, hc, hd, hc', hd'⟩

/-! ## Flits that are not taken (R384, R426) -/

/-- What a request for retransmission leaves: the port has asked, once, and the NAK is counted. -/
structure AsksAgain (s : State) (p : Port) (t : State) : Prop where
  rxSeq : (t.port p).rxSeq = (s.port p).rxSeq
  retry : (t.port p).retry = (s.port p).retry
  naked : (t.port p).naked = true
  naks : t.reg .fabNaks 0 p.val = s.reg .fabNaks 0 p.val + 1
  plain : plainOf t.tx = .flit p .nak (flitWithCrc .nak { flitEmpty with ack := (s.port p).rxSeq }) :: plainOf s.tx
  reg : ∀ r, r ≠ .fabNaks → ∀ i j, t.reg r i j = s.reg r i j
  onLink : OnLink s t

/-- The rows that carry a flit: one that is not accepted is answered with a NAK (R383, R384). -/
theorem exec_badFlit {i : Instr} {s : State} {p : Port} {fl : Flit} {k : FlitKind} (hi : flitOf i = some (p, fl, k))
    (hup : (s.port p).state = .up) (hbad : flitOk k fl = false) :
    exec i s = .next (after (fun t => t.badFlit p fl) s) := by
  have hcarries := State.portCarries_up hup
  have hport : s.portUp p = true := decide_eq_true hup
  cases i <;> cases hi
  case laneCtl lane spare x => exact exec_after (show execLaneCtl p lane spare x s = lift _ s from rfl) (by simp [hport, hbad])
  case dataFlit => exact exec_after (show execDataFlit p fl s = lift _ s from rfl) (by simp [hcarries, hbad])
  case nak => exact exec_after (show execNak p fl s = lift _ s from rfl) (by simp [hcarries, hbad])
  case idleFlit => exact exec_after (show execIdleFlit p fl s = lift _ s from rfl) (by simp [hcarries, hbad])
  case ident => exact exec_after (show execIdent p fl s = lift _ s from rfl) (by simp [hbad])

/-! ## Flits sent again (R384) -/

/-- The flits that go again after a NAK. -/
def State.resend (s : State) (p : Port) (l : List Flit) : State :=
  l.foldl (fun t g => (t.bump .fabTxFlits 0 p.val 1).sendFlit p .data g) s

/-- Flits sent again are sent in order and counted, and change the stream of their port alone. -/
theorem State.resend_sends (s : State) (p : Port) (l : List Flit) :
    (s.resend p l).port p = { s.port p with stream := ((s.resend p l).port p).stream }
      ∧ plainOf (s.resend p l).tx = (l.map (fun g => Msg.flit p .data g)).reverse ++ plainOf s.tx
      ∧ (s.resend p l).reg .fabTxFlits 0 p.val = s.reg .fabTxFlits 0 p.val + BitVec.ofNat 64 l.length
      ∧ OnLink s (s.resend p l) := by
  induction l generalizing s with
  | nil => exact ⟨rfl, rfl, by simp [State.resend], rfl⟩
  | cons g l ih =>
    have hsent := sendFlit_sent (s.bump .fabTxFlits 0 p.val 1) p .data g
    obtain ⟨hport, hplain, hcount, hlink⟩ := ih ((s.bump .fabTxFlits 0 p.val 1).sendFlit p .data g)
    have hcons : s.resend p (g :: l) = ((s.bump .fabTxFlits 0 p.val 1).sendFlit p .data g).resend p l := rfl
    rw [hcons]
    refine ⟨?_, ?_, ?_, ?_⟩
    · conv_lhs => rw [hport, hsent.port]
      rfl
    · rw [hplain, hsent.plain, List.map_cons, List.reverse_cons, List.append_assoc]
      rfl
    · rw [hcount, hsent.reg, State.reg_bump_self, List.length_cons, BitVec.add_assoc, ← BitVec.ofNat_add, Nat.add_comm]
    · exact (hsent.onLink.trans hlink).onto

section
variable {s : State} {p : Port} {fl : Flit} (hup : (s.port p).state = .up)
include hup

/-- The next data flit in sequence is taken and answered with an IDLE flit. -/
theorem exec_dataFlit_next (hok : flitOk .data fl = true) (hseq : fl.seq = (s.port p).rxSeq + 1)
    (hwait : (s.port p).waiting = []) :
    exec (.dataFlit p fl) s = .next (after (fun _ => (s.tookFlit p fl).sendFlit p .idle (idleFor fl)) s) := by
  refine exec_after (show execDataFlit p fl s = lift _ s from rfl) ?_
  have hclass : (s.port p).carriesClass (vcClass fl.vc) = true := by simp [FabPort.carriesClass, hup]
  simp only [State.portCarries_up hup, hok, hclass, Bool.not_true, Bool.false_eq_true, if_false, if_pos hseq]
  rw [State.takeAck_empty]
  · rfl
  · exact (congrArg FabPort.waiting (State.port_setPort_self s p _)).trans hwait

/-- A data flit out of sequence is discarded with its acknowledgement. -/
theorem exec_dataFlit_gap (hok : flitOk .data fl = true) (hseq : fl.seq ≠ (s.port p).rxSeq + 1) :
    exec (.dataFlit p fl) s = .next (after (fun t => t.sendNak p) s) := by
  refine exec_after (show execDataFlit p fl s = lift _ s from rfl) ?_
  have hclass : (s.port p).carriesClass (vcClass fl.vc) = true := by simp [FabPort.carriesClass, hup]
  simp only [State.portCarries_up hup, hok, hclass, Bool.not_true, Bool.false_eq_true, if_false, if_neg hseq]

/-- A port that has not asked yet asks for retransmission. -/
theorem State.sendNak_asks (hn : (s.port p).naked = false) : AsksAgain s p (s.sendNak p) := by
  have heq : s.sendNak p = ((s.setPort p { s.port p with naked := true }).bump .fabNaks 0 p.val 1).sendFlit p .nak
      (flitWithCrc .nak { flitEmpty with ack := (s.port p).rxSeq }) :=
    if_neg (by simp [hn, State.portCarries_up hup])
  have hsent := sendFlit_sent ((s.setPort p { s.port p with naked := true }).bump .fabNaks 0 p.val 1) p .nak
    (flitWithCrc .nak { flitEmpty with ack := (s.port p).rxSeq })
  rw [← heq] at hsent
  have hport : (s.sendNak p).port p = { s.port p with naked := true, stream := ((s.sendNak p).port p).stream } := by
    conv_lhs => rw [hsent.port]
    rw [show ((s.setPort p { s.port p with naked := true }).bump .fabNaks 0 p.val 1).port p = _ from State.port_setPort_self s p _]
  refine ⟨by rw [hport], by rw [hport], by rw [hport], ?_, hsent.plain, fun r hr i j => ?_, ?_⟩
  · exact (hsent.reg _ _ _).trans (State.reg_bump_self _ _ _ _ _)
  · exact (hsent.reg _ _ _).trans (State.reg_bump_ne _ hr.symm _ _ _ _ _)
  · exact hsent.onLink.onto

/-- An IDLE flit brings an acknowledgement and credits. -/
theorem exec_idleFlit_ok (hok : flitOk .idle fl = true) (hwait : (s.port p).waiting = []) :
    exec (.idleFlit p fl) s = .next (s.noteAck p fl) := by
  refine exec_next (show execIdleFlit p fl s = lift _ s from rfl) ?_ rfl
  simp only [State.portCarries_up hup, hok, Bool.not_true, Bool.false_eq_true, if_false, State.takeAck_empty hwait]

/-- A NAK brings an acknowledgement, and every flit beyond it goes again. -/
theorem exec_nak_ok (hok : flitOk .nak fl = true) (hwait : (s.port p).waiting = []) :
    exec (.nak p fl) s = .next (after (fun t => (t.noteAck p fl).resend p (afterAck fl.ack (s.port p).retry)) s) := by
  refine exec_after (show execNak p fl s = lift _ s from rfl) ?_
  simp only [State.portCarries_up hup, hok, Bool.not_true, Bool.false_eq_true, if_false]
  refine State.pump_empty (s := (s.noteAck p fl).resend p (afterAck fl.ack (s.port p).retry)) ?_
  rw [((s.noteAck p fl).resend_sends p _).1, State.noteAck_eq, State.port_setPort_self]
  exact hwait

end

/-- Data flits, NAK and IDLE flits at an UP port. -/
theorem flitExchange : FlitExchange := by
  intro s p fl x hup
  refine ⟨fun hok hseq hwait => ?_, fun hok hseq hn => ?_, fun i k hi hbad hn => ?_, fun hok hwait => ?_,
    fun hok hwait => ?_⟩
  · have hsent := sendFlit_sent (s.tookFlit p fl) p .idle (idleFor fl)
    have htook := s.tookFlit_port p fl
    have hport := hsent.port
    rw [htook] at hport
    have hstream : ((s.tookFlit p fl).port p).stream = x.stream := by rw [htook]; rfl
    have hlanes : ((s.tookFlit p fl).port p).lanes = x.lanes := by rw [htook]; rfl
    refine ⟨_, exec_dataFlit_next hup hok hseq hwait, ?_, ?_, ?_, ?_, ⟨hsent.plain, fun hlt => ?_, fun hfull => ?_⟩, ?_⟩
    · exact congrArg FabPort.rxSeq hport
    · exact congrArg FabPort.naked hport
    · exact congrArg FabPort.retry hport
    · exact (hsent.reg _ _ _).trans (State.reg_bump_self _ _ _ _ _)
    · rw [← hstream] at hlt ⊢
      rw [after, State.sendFlit_joins hlt]
      exact ⟨congrArg FabPort.stream (State.port_setPort_self _ _ _), rfl⟩
    · rw [← hstream] at hfull ⊢
      rw [← hlanes]
      exact codewords_sent hfull
    · exact OnLink.after hsent.onLink.onto
  · have h := State.sendNak_asks hup hn
    refine ⟨_, exec_dataFlit_gap hup hok hseq, h.rxSeq, h.retry, h.naked, h.plain, h.naks, OnLink.after h.onLink⟩
  · have h : AsksAgain _ p (s.badFlit p fl) :=
      State.sendNak_asks (s := s.bump .fabFecUncorrected 0 p.val (fl.errs.filter (fun e => decide (rsCorrects < e))).length) hup hn
    refine ⟨_, exec_badFlit hi hup hbad, h.rxSeq, h.retry, h.naked, ?_, ?_, h.plain,
      OnLink.after (f := fun t => t.badFlit p fl) h.onLink.onto⟩
    · exact h.naks.trans (congrArg (· + 1) (State.reg_bump_ne s (by decide) _ _ _ _ _))
    · exact (h.reg _ (by decide) _ _).trans (State.reg_bump_self _ _ _ _ _)
  · have hport : (s.noteAck p fl).port p = x.acked fl := State.port_setPort_self s p _
    exact ⟨_, exec_idleFlit_ok hup hok hwait, by rw [hport]; rfl, by rw [hport]; rfl,
      by rw [hport]; exact FabPort.acked_credit x fl, rfl⟩
  · obtain ⟨hport, hplain, hcount, hlink⟩ := (s.noteAck p fl).resend_sends p (afterAck fl.ack x.retry)
    rw [show (s.noteAck p fl).port p = x.acked fl from State.port_setPort_self s p _] at hport
    refine ⟨_, exec_nak_ok hup hok hwait, congrArg FabPort.retry hport, hplain, hcount,
      OnLink.after (f := fun t => (t.noteAck p fl).resend p _) hlink.onto⟩

end Sys2Proof.Machine
end

section
/-! # Lanes of a torus port (R379, R380, R385)

Support: what a lane that moves to a spare leaves, at the end that retires it and at its partner, and what a port that goes
DOWN loses. -/

namespace Sys2Proof.Machine

open Sys2Proof.Claims

/-! ## A port that goes DOWN (R385, R426) -/

/-- A port that goes DOWN loses what its buffers hold, and is counted. -/
theorem State.portDown_drops {s : State} {p : Port} (hdown : (s.port p).state ≠ .down) (hdis : (s.port p).state ≠ .disabled)
    (event : Bool) :
    let t := s.portDown p event
    t.port p = { (s.port p).dropped .down with noTime := (t.port p).noTime }
      ∧ t.reg .fabLinkDowns 0 p.val = s.reg .fabLinkDowns 0 p.val + 1 ∧ t.mem = s.mem := by
  let u := s.movePort p ((s.port p).dropped .down)
  have hu : LinkMoved (s.setPort p ((s.port p).dropped .down)) u := LinkMoved.movePort s p _
  have ht : LinkMoved (u.bump .fabLinkDowns 0 p.val 1) (s.portDown p event) := by
    unfold State.portDown
    rw [if_neg (by simp [hdown, hdis])]
    dsimp only
    split
    · exact .mgmtReport _ _ _ _
    · exact .refl _
  have hport : u.port p = { (s.port p).dropped .down with noTime := (u.port p).noTime } := by
    have h := hu.still p (by rw [State.port_setPort_self]; exact PortState.noConfusion)
    rwa [State.port_setPort_self] at h
  have hstate : ((u.bump .fabLinkDowns 0 p.val 1).port p).state ≠ .up := by
    rw [show (u.bump .fabLinkDowns 0 p.val 1).port p = _ from hport]
    exact PortState.noConfusion
  refine ⟨?_, ?_, ht.mem.trans hu.mem⟩
  · have h := ht.still p hstate
    rwa [show (u.bump .fabLinkDowns 0 p.val 1).port p = _ from hport] at h
  · refine (ht.reg (by decide) _ _).trans ((State.reg_bump_self _ _ _ _ _).trans ?_)
    exact congrArg (· + 1) (hu.reg (by decide) 0 p.val)

/-! ## A lane moves to a spare (R379) -/

/-- A port whose logical lane moves off a physical lane onto a spare. -/
def FabPort.moved (x : FabPort) (lane k : Nat) : FabPort :=
  { x with failed := x.failed ||| BitVec.ofNat 18 (2 ^ lane), lanes := x.lanes.map (fun l => if l = lane then k else l),
           moving := true }

/-- What the move of a lane to a spare leaves: the partner is told, a REPAIR record is written and 0x0805 is reported. -/
structure LaneMoved (s : State) (p : Port) (lane k : Nat) (t : State) : Prop where
  port : t.port p = { (s.port p).moved lane k with stream := (t.port p).stream }
  told : ∃ pair, Msg.flit p .laneCtl (flitWithCrc .laneCtl { flitEmpty with ack := (s.port p).rxSeq, payload :=
    ((List.range 240).map (Config.laneCtlByte ((s.port p).lanes.idxOf lane) k pair)) }) ∈ t.tx
  code : t.reg .fabCode = 0x0805
  repairs : t.trust.repairs = s.trust.repairs + 1
  mem : t.mem = s.mem
  cores : t.cores = s.cores
  reg : ∀ r, r ≠ .fabCode → r ∉ Reg.ofEvents → ∀ i j, t.reg r i j = s.reg r i j

/-- With a free spare the lane moves. -/
theorem State.retireLane_moves {s : State} {p : Port} {lane k : Nat}
    (hfree : (List.range 18).find? (fun k => (s.port p).healthy.getLsbD k
      && !((s.port p).failed ||| BitVec.ofNat 18 (2 ^ lane)).getLsbD k && !(s.port p).lanes.contains k) = some k) :
    LaneMoved s p lane k (s.retireLane p lane) := by
  let u := (s.fresh.2.setPort p ((s.port p).moved lane k)).writeRepair
  let f := flitWithCrc .laneCtl { flitEmpty with ack := (s.port p).rxSeq, payload :=
    ((List.range 240).map (Config.laneCtlByte ((s.port p).lanes.idxOf lane) k s.fresh.1.toNat)) }
  have hu : u.port p = (s.port p).moved lane k := State.port_setPort_self s p _
  have heq : s.retireLane p lane = (u.sendFlit p .laneCtl f).mgmtReport .fabCode 0x0805
      [BitVec.ofNat 8 p.val, BitVec.ofNat 8 lane, BitVec.ofNat 8 k] := by
    have hctl : u.sendLaneCtl p ((s.port p).lanes.idxOf lane) k s.fresh.1.toNat = u.sendFlit p .laneCtl f := by
      unfold State.sendLaneCtl
      rw [show (u.port p).rxSeq = (s.port p).rxSeq from (congrArg FabPort.rxSeq hu).trans rfl]
    rw [← hctl]
    unfold State.retireLane
    simp only [hfree]
    rfl
  have hsent := sendFlit_sent u p .laneCtl f
  have hevent := mgmtReport_eventOnly (u.sendFlit p .laneCtl f) .fabCode 0x0805
    [BitVec.ofNat 8 p.val, BitVec.ofNat 8 lane, BitVec.ofNat 8 k]
  rw [heq]
  refine ⟨?_, ⟨_, State.mgmtReport_tx hsent.mem _ _ _⟩, State.mgmtReport_code _ (by decide) _ _,
    congrArg Trust.repairs (hevent.trust.trans hsent.onLink.trust), hevent.mem.trans hsent.onLink.mem,
    hevent.cores.trans hsent.onLink.cores,
    fun r hr he i j => ?_⟩
  · rw [State.port_congr (State.mgmtReport_fab _ _ _ _), ← hu]
    exact hsent.port
  · exact (State.mgmtReport_reg_ne _ hr.symm he _ _ _ _).trans (hsent.reg _ _ _)

section
variable {s : State} {p : Port} (hup : (s.port p).state = .up)
include hup

/-- A lane in use that loses its codeword lock is retired. -/
theorem exec_laneLockLoss_used {lane : Fin 18} (hl : lane.val ∈ (s.port p).lanes) :
    exec (.laneLockLoss p lane) s = .next (after (fun t => t.retireLane p lane.val) s) :=
  exec_after (show execLaneLockLoss p lane s = lift _ s from rfl) (if_pos (by simp [hup, hl]))

/-- A lane in use with more corrected symbols than the limit is retired. -/
theorem exec_laneSerWindow_above {lane : Fin 18} {count : Nat} (hl : lane.val ∈ (s.port p).lanes)
    (hc : s.regN .fabLaneSerLimit < count) :
    exec (.laneSerWindow p lane count) s
      = .next (after (fun t => (t.bump .fabFecCorrected 0 p.val count).retireLane p lane.val) s) := by
  have hlimit : (s.bump .fabFecCorrected 0 p.val count).regN .fabLaneSerLimit = s.regN .fabLaneSerLimit :=
    congrArg BitVec.toNat (State.reg_bump_ne s (by decide) _ _ _ _ _)
  have hport : (s.bump .fabFecCorrected 0 p.val count).port p = s.port p := rfl
  exact exec_after (show execLaneSerWindow p lane count s = lift _ s from rfl)
    (if_pos (by simp [hport, hup, hl, hlimit, hc]))

/-- The partner's LANE_CTL moves a logical lane at this end too. -/
theorem exec_laneCtl_moves {fl : Flit} {lane : Fin 16} {spare : Fin 18} {pair old : Nat} (hok : flitOk .laneCtl fl = true)
    (hold : (s.port p).lanes[lane.val]? = some old) (hne : old ≠ spare.val) :
    ∃ t, exec (.laneCtl p lane spare ⟨fl, pair⟩) s = .next t
      ∧ (t.port p).lanes = modNth (fun _ => spare.val) lane.val (s.port p).lanes ∧ (t.port p).moving = true
      ∧ (t.port p).failed = (s.port p).failed ||| BitVec.ofNat 18 (2 ^ old) ∧ t.reg .fabCode = 0x0805 ∧ t.mem = s.mem := by
  let u := s.takeAck p fl
  have hsends : ((s.port p).acked fl).Sends (u.port p) := by
    have h := (pump_port p (s.noteAck p fl)).1
    rwa [State.noteAck_eq, State.port_setPort_self] at h
  have hlanes : (u.port p).lanes = (s.port p).lanes := hsends.lanes
  have hfailed : (u.port p).failed = (s.port p).failed := hsends.failed
  have hgetD (d : Nat) : (u.port p).lanes.getD lane.val d = old := by
    rw [hlanes, List.getD_eq_getElem?_getD, hold, Option.getD_some]
  have hlt : lane.val < (u.port p).lanes.length := by
    rw [hlanes]
    exact (List.getElem?_eq_some_iff.1 hold).1
  let x2 : FabPort := { u.port p with
    failed := (u.port p).failed ||| BitVec.ofNat 18 (2 ^ old), lanes := modNth (fun _ => spare.val) lane.val (u.port p).lanes,
    moving := true }
  let v := (u.setPort p x2).mgmtReport .fabCode 0x0805 [BitVec.ofNat 8 p.val, BitVec.ofNat 8 old, BitVec.ofNat 8 spare.val]
  have hv : v.port p = x2 := (State.port_congr (State.mgmtReport_fab _ _ _ _) p).trans (State.port_setPort_self u p x2)
  have hexec : exec (.laneCtl p lane spare ⟨fl, pair⟩) s = .next (after (fun _ => v) s) := by
    refine exec_after (show execLaneCtl p lane spare ⟨fl, pair⟩ s = lift _ s from rfl) ?_
    have hpu : s.portUp p = true := decide_eq_true hup
    simp only [hpu, hok, Bool.not_true, Bool.false_eq_true, if_false]
    refine (if_pos (Bool.and_eq_true_iff.2 ⟨decide_eq_true hlt, decide_eq_true ?_⟩)).trans ?_
    · exact (hgetD 99).trans_ne hne
    · simp only [show s.takeAck p fl = u from rfl, hgetD]
      rfl
  refine ⟨_, hexec, ?_, congrArg FabPort.moving hv, ?_, State.mgmtReport_code _ (by decide) _ _, ?_⟩
  · rw [← hlanes]
    exact congrArg FabPort.lanes hv
  · rw [← hfailed]
    exact congrArg FabPort.failed hv
  · exact (mgmtReport_eventOnly _ _ _ _).mem.trans (pumpFlits_linkOnly _ _ _).mem

end

/-- Lanes that are retired and moved, and what takes a port DOWN. -/
theorem laneRetirement : LaneRetirement := by
  intro s p x hup
  have hpu : s.portUp p = true := decide_eq_true hup
  have hdown : (s.port p).state ≠ .down := by rw [hup]; exact PortState.noConfusion
  have hdis : (s.port p).state ≠ .disabled := by rw [hup]; exact PortState.noConfusion
  have hnak : exec (.linkNakLimit p) s = .next (after (fun t => t.portDown p true) s) :=
    exec_after (show execLinkNakLimit p s = lift _ s from rfl) (if_pos hpu)
  refine ⟨fun lane k hl hfree => ⟨?_, fun count hc => ?_⟩, fun lane count hc => ?_, fun fl lane spare pair old hok hold hne =>
    exec_laneCtl_moves hup hok hold hne, fun hm => ⟨?_, ?_⟩, fun hm => ⟨?_, ?_⟩, hnak, ?_⟩
  · have h := State.retireLane_moves hfree
    refine ⟨_, exec_laneLockLoss_used hup hl, ?_, ?_, ?_, ?_, h.told, h.code, h.repairs, h.mem, h.cores⟩
    · exact congrArg FabPort.lanes h.port
    · exact congrArg FabPort.moving h.port
    · exact congrArg FabPort.failed h.port
    · exact (congrArg FabPort.state h.port).trans hup
  · have h := State.retireLane_moves (s := s.bump .fabFecCorrected 0 p.val count) hfree
    refine ⟨_, exec_laneSerWindow_above hup hl hc, congrArg FabPort.lanes h.port, congrArg FabPort.moving h.port, ?_, h.code⟩
    exact (h.reg _ (by decide) (by decide) _ _).trans (State.reg_bump_self _ _ _ _ _)
  · have hlimit : (s.bump .fabFecCorrected 0 p.val count).regN .fabLaneSerLimit = s.regN .fabLaneSerLimit :=
      congrArg BitVec.toNat (State.reg_bump_ne s (by decide) _ _ _ _ _)
    exact ⟨_, exec_next (show execLaneSerWindow p lane count s = lift _ s from rfl)
      (if_neg (by simp [hlimit, hc])) rfl, State.reg_bump_self _ _ _ _ _, rfl⟩
  · exact exec_after (show execLaneMoveTimeout p s = lift _ s from rfl) (if_pos hm)
  · exact exec_stays (show execLinkRxTimeout p s = lift _ s from rfl) (if_neg (by simp [show (s.port p).moving = true from hm]))
  · exact exec_stays (show execLaneMoveTimeout p s = lift _ s from rfl) (if_neg (by simp [show (s.port p).moving = false from hm]))
  · exact exec_after (show execLinkRxTimeout p s = lift _ s from rfl)
      (if_pos (by simp [hpu, show (s.port p).moving = false from hm]))
  · obtain ⟨hport, hcount, hmem⟩ := State.portDown_drops hdown hdis true
    exact ⟨_, hnak, congrArg FabPort.state hport, congrArg FabPort.retry hport, congrArg FabPort.credits hport, hcount, hmem⟩

/-- Settles O33: lanes retired, moved and lost, and the flit exchange of an UP port with its codewords. -/
theorem linkLanesAndFlits : Obligations.LinkLanesAndFlits := ⟨laneRetirement, flitExchange⟩

end Sys2Proof.Machine
end

section
/-! # Port training and the link-state database (R378, R380, R389 to R398)

Support: the lanes a lane check takes as healthy, what the evaluation of a partner's record leaves of a port, and what a
LINK_STATE changes. -/

namespace Sys2Proof.Machine

open Sys2Proof.Claims

/-! ## The lanes found healthy (R378, R380) -/

theorem sum_powers_lt (f : Nat → Bool) (n : Nat) : (((List.range n).filter f).map (fun k => 2 ^ k)).sum < 2 ^ n := by
  induction n with
  | zero => simp
  | succ n ih =>
    rw [List.range_succ, List.filter_append, List.map_append, List.sum_append, pow_succ]
    by_cases h : f n = true
    · rw [List.filter_cons_of_pos h]
      simp only [List.filter_nil, List.map_cons, List.map_nil, List.sum_cons, List.sum_nil]
      omega
    · rw [List.filter_cons_of_neg h]
      simp only [List.filter_nil, List.map_nil, List.sum_nil]
      omega

/-- The sum of the powers of the numbers below `n` that a test picks has the bits it picks. -/
theorem testBit_sum_powers (f : Nat → Bool) (n k : Nat) :
    (((List.range n).filter f).map (fun k => 2 ^ k)).sum.testBit k = (decide (k < n) && f k) := by
  induction n with
  | zero => simp
  | succ n ih =>
    have hlt := sum_powers_lt f n
    by_cases h : f n = true
    · rw [List.range_succ, List.filter_append, List.map_append, List.sum_append, List.filter_cons_of_pos h, Nat.add_comm]
      simp only [List.filter_nil, List.map_cons, List.map_nil, List.sum_cons, List.sum_nil, Nat.add_zero]
      rcases Nat.lt_trichotomy k n with hk | rfl | hk
      · rw [Nat.testBit_two_pow_add_gt hk, ih]
        simp [hk, Nat.lt_succ_of_lt hk]
      · rw [Nat.testBit_two_pow_add_eq, Nat.testBit_lt_two_pow hlt]
        simp [h]
      · rw [Nat.testBit_lt_two_pow]
        · simp [show ¬ k < n + 1 by omega]
        · calc 2 ^ n + _ < 2 ^ n + 2 ^ n := by omega
            _ = 2 ^ (n + 1) := by rw [pow_succ]; omega
            _ ≤ 2 ^ k := Nat.pow_le_pow_right (by decide) hk
    · rw [List.range_succ, List.filter_append, List.filter_cons_of_neg h, List.filter_nil, List.append_nil, ih]
      rcases Nat.lt_trichotomy k n with hk | rfl | hk
      · simp [hk, Nat.lt_succ_of_lt hk]
      · simp [h]
      · simp [show ¬ k < n + 1 by omega, show ¬ k < n by omega]

/-- The lanes taken as healthy, one by one (R378, R394). -/
theorem State.healthyLanes_eq {s : State} {x : FabPort} {f : TrainFind} {h : BitVec 18}
    (hh : ∀ k, k < 18 → h.getLsbD k = ((x.found.getD k none).isSome && decide (f.counts.getD k 0 ≤ s.regN .fabLaneSerLimit))) :
    s.healthyLanes x f = h := by
  refine BitVec.eq_of_getLsbD_eq (fun k hk => ?_)
  rw [hh k hk]
  unfold State.healthyLanes
  dsimp only
  rw [BitVec.getLsbD_ofNat, testBit_sum_powers]
  simp [hk]

/-! ## Training (R392, R394) -/

section
variable {s : State} {p : Port} {f : TrainFind} (htrain : (s.port p).state = .training)
include htrain

/-- PHY ends with the lanes found. -/
theorem exec_trainStageComplete_phy (h : (s.port p).stage = .phy) :
    exec (.trainStageComplete p f) s = .next (s.setPort p { s.port p with stage := .laneCheck, found := f.seen }) := by
  refine exec_next (show execTrainStageComplete p f s = lift _ s from rfl) ?_ rfl
  simp only [htrain, h, ne_eq, not_true_eq_false, if_false]

/-- The lane check ends with the lanes that are healthy and those in use. -/
theorem exec_trainStageComplete_lanes {l : List Nat} (h : (s.port p).stage = .laneCheck)
    (hl : lanesOf (s.healthyLanes (s.port p) f) = some l) :
    let s1 := s.setPort p { s.port p with stage := .lock, healthy := s.healthyLanes (s.port p) f, lanes := l }
    exec (.trainStageComplete p f) s = .next (after (fun _ => if l.length = 8 then s1.degraded p else s1) s) := by
  refine exec_after (show execTrainStageComplete p f s = lift _ s from rfl) ?_
  simp only [htrain, h, hl, ne_eq, not_true_eq_false, if_false]

/-- With too few healthy lanes the port starts over. -/
theorem exec_trainStageComplete_none (h : (s.port p).stage = .laneCheck)
    (hl : lanesOf (s.healthyLanes (s.port p) f) = none) :
    exec (.trainStageComplete p f) s = .next (after (fun t => t.portDown p false) s) := by
  refine exec_after (show execTrainStageComplete p f s = lift _ s from rfl) ?_
  simp only [htrain, h, hl, ne_eq, not_true_eq_false, if_false]

/-- Codeword lock ends with the port in IDENT and its record sent. -/
theorem exec_trainStageComplete_lock (h : (s.port p).stage = .lock) :
    exec (.trainStageComplete p f) s = .next (after (fun _ =>
      (s.setPort p { s.port p with state := .ident, stage := .ident, idents := [] }).sendIdent p) s) := by
  refine exec_after (show execTrainStageComplete p f s = lift _ s from rfl) ?_
  simp only [htrain, h, ne_eq, not_true_eq_false, if_false]

end

/-- A port that trains and does not reach UP starts over. -/
theorem exec_trainStageTimeout {s : State} {p : Port} (h : (s.port p).state = .training ∨ (s.port p).state = .ident) :
    exec (.trainStageTimeout p) s = .next (after (fun t => t.portDown p false) s) :=
  exec_after (show execTrainStageTimeout p s = lift _ s from rfl) (if_pos (decide_eq_true h))

/-! ## The partner's record (R394 to R397) -/

/-- An evaluation ends in VERSION_HOLD or UP without a reason, or in MISWIRED. -/
theorem State.evaluate_cases (s : State) (p : Port) (r : IdentRecord) :
    s.evaluate p r = (.versionHold, none) ∨ (∃ w, s.evaluate p r = (.miswired, w)) ∨ s.evaluate p r = (.up, none) := by
  unfold State.evaluate
  dsimp only
  split_ifs
  · exact .inl rfl
  · exact .inr (.inl ⟨_, rfl⟩)
  · exact .inr (.inl ⟨_, rfl⟩)
  · exact .inr (.inl ⟨_, rfl⟩)
  · exact .inr (.inl ⟨_, rfl⟩)
  · exact .inr (.inr rfl)

/-- What an evaluation leaves, once the port has moved to the state it gives and a report has followed. -/
theorem evaluated_leaves {s t : State} {p : Port} {x : FabPort} (h : LinkMoved (s.setPort p x) t) :
    (t.port p).state = x.state ∧ (t.port p).reason = x.reason ∧ t.mem = s.mem ∧ t.cores = s.cores := by
  have hport := h.port p
  rw [State.port_setPort_self] at hport
  exact ⟨hport.state, hport.reason, h.mem, h.cores⟩

/-- A record evaluates a port that is in IDENT. -/
theorem State.evaluatePort_leaves {s : State} {p : Port} (r : IdentRecord) (h : (s.port p).state = .ident) :
    let t := s.evaluatePort p r
    (t.port p).state = (s.evaluate p r).1 ∧ (t.port p).reason = (s.evaluate p r).2
      ∧ ((s.evaluate p r).1 = .miswired → t.reg .fabCode = 0x0803)
      ∧ ((s.evaluate p r).1 = .versionHold → t.reg .fabCode = 0x0804) ∧ t.mem = s.mem ∧ t.cores = s.cores := by
  have hmove (x : FabPort) : LinkMoved (s.setPort p x) (s.movePort p x) := LinkMoved.movePort s p x
  unfold State.evaluatePort
  rcases s.evaluate_cases p r with hv | ⟨w, hv⟩ | hv <;> simp only [hv, h, reduceCtorEq, if_false, if_true, false_and]
  · obtain ⟨hstate, hreason, hmem, hcores⟩ := evaluated_leaves ((hmove _).trans (LinkMoved.mgmtReport _ .fabCode 0x0804 _))
    exact ⟨hstate, hreason, False.elim, fun _ => State.mgmtReport_code _ (by decide) _ _, hmem, hcores⟩
  · obtain ⟨hstate, hreason, hmem, hcores⟩ := evaluated_leaves ((hmove _).trans (LinkMoved.mgmtReport _ .fabCode 0x0803 _))
    exact ⟨hstate, hreason, fun _ => State.mgmtReport_code _ (by decide) _ _, False.elim, hmem, hcores⟩
  · obtain ⟨hstate, hreason, hmem, hcores⟩ := evaluated_leaves (hmove _)
    exact ⟨hstate, hreason, False.elim, False.elim, hmem, hcores⟩

section
variable {s : State} {p : Port} {fl : Flit} {r : IdentRecord} (hok : flitOk .ident fl = true) (hr : identOf fl.payload = r)
  (hident : (s.port p).state = .ident)
include hok hr hident

/-- A port in IDENT carries no packets: its partner's record is all it takes of a flit. -/
theorem exec_ident_takes : exec (.ident p fl) s = lift (fun t => t.takeIdent p r) s := by
  have hcarries : s.portCarries p = false := by simp [State.portCarries, FabPort.carriesClass, hident]
  refine (show exec (.ident p fl) s = execIdent p fl s from rfl).trans (lift_congr ?_)
  simp only [hok, hr, hcarries, Bool.not_true, Bool.false_eq_true, if_false, State.when]

variable (hmagic : r.magic = 0x4B49)
include hmagic

/-- A record that differs from the last is the first of three. -/
theorem exec_ident_first (h : (s.port p).idents.head? ≠ some r) :
    exec (.ident p fl) s = .next (s.setPort p { s.port p with idents := [r] }) := by
  refine exec_next (exec_ident_takes hok hr hident) ?_ rfl
  unfold State.takeIdent
  simp [hmagic, hident, h]

/-- The third identical record evaluates the port. -/
theorem exec_ident_third (h : (s.port p).idents = [r, r]) (hlo : 2 ≤ r.state.toNat) (hhi : r.state.toNat ≤ 5) :
    exec (.ident p fl) s
      = .next (after (fun t => (t.setPort p { s.port p with idents := [r, r, r] }).evaluatePort p r) s) := by
  refine exec_after (exec_ident_takes hok hr hident) ?_
  unfold State.takeIdent
  simp [hmagic, hident, h, hlo, hhi]

end

/-- What the module says of itself on a port (R394). -/
theorem State.identRecord_says (s : State) (p : Port) :
    let r := s.identRecord p
    r.magic = 0x4B49 ∧ r.serial = Config.serial ∧ r.port.toNat = p.val ∧ r.level = 3 ∧ r.features = 3 := by
  refine ⟨rfl, rfl, ?_, rfl, rfl⟩
  show (BitVec.ofNat 8 p.val).toNat = p.val
  rw [BitVec.toNat_ofNat, Nat.mod_eq_of_lt (by omega)]

theorem State.sendIdent_sent (s : State) (p : Port) : FlitSent s p .ident (flitWithCrc .ident
    { flitEmpty with ack := (s.port p).rxSeq, payload := identBytes (s.identRecord p) }) (s.sendIdent p) := sendFlit_sent _ _ _ _

/-- The stages of training and the evaluation of the partner's record. -/
theorem portTraining : PortTraining := by
  intro s p x
  refine ⟨fun hdown hmay => ?_, fun hnot => ?_, fun f htrain => ⟨fun hphy => ?_, fun hcheck h hh => ⟨fun l hl hlen => ?_,
    fun l hl hlen => ?_, fun hl => ?_⟩, fun hlock => ?_⟩, fun hstage => ⟨?_, ?_⟩, fun fl r hok hr hmagic hident => ⟨fun hhead => ?_,
    fun hids hlo hhi => ?_⟩⟩
  · exact exec_next (show execPortTrain p s = lift _ s from rfl)
      (if_pos (by simp [show (s.port p).state = .down from hdown, hmay])) rfl
  · exact exec_stays (show execPortTrain p s = lift _ s from rfl)
      (if_neg (by rcases hnot with h | h <;> simp [show s.port p = x from rfl, h]))
  · exact exec_trainStageComplete_phy htrain hphy
  · obtain rfl := State.healthyLanes_eq hh
    refine (exec_trainStageComplete_lanes htrain hcheck hl).trans ?_
    rw [if_neg (by omega)]
    rfl
  · obtain rfl := State.healthyLanes_eq hh
    refine ⟨_, exec_trainStageComplete_lanes htrain hcheck hl, ?_⟩
    rw [if_pos hlen]
    exact ⟨(State.port_congr (State.mgmtReport_fab _ _ _ _) p).trans (State.port_setPort_self _ _ _),
      State.mgmtReport_code _ (by decide) _ _⟩
  · obtain rfl := State.healthyLanes_eq hh
    exact exec_trainStageComplete_none htrain hcheck hl
  · let u := s.setPort p { x with state := .ident, stage := .ident, idents := [] }
    have hu : u.port p = { x with state := .ident, stage := .ident, idents := [] } := State.port_setPort_self s p _
    have hsent := u.sendIdent_sent p
    obtain ⟨hmagic, hserial, hp, hlevel, hfeat⟩ := u.identRecord_says p
    refine ⟨_, exec_trainStageComplete_lock htrain hlock, ?_, u.identRecord p, hmagic, hserial, hp, hlevel, hfeat, ?_⟩
    · have hport := hsent.port
      rw [hu] at hport
      exact hport
    · have hmem := hsent.mem
      rw [show (u.port p).rxSeq = x.rxSeq from (congrArg FabPort.rxSeq hu).trans rfl] at hmem
      exact hmem
  · exact exec_trainStageTimeout hstage
  · have hdown : (s.port p).state ≠ .down := by rcases hstage with h | h <;> exact fun e => PortState.noConfusion (e.symm.trans h)
    have hdis : (s.port p).state ≠ .disabled := by
      rcases hstage with h | h <;> exact fun e => PortState.noConfusion (e.symm.trans h)
    obtain ⟨hport, _, hmem⟩ := State.portDown_drops hdown hdis false
    exact ⟨_, exec_trainStageTimeout hstage, congrArg FabPort.state hport, hmem⟩
  · exact exec_ident_first hok hr hident hmagic hhead
  · exact ⟨_, exec_ident_third hok hr hident hmagic hids hlo hhi,
      State.evaluatePort_leaves (s := s.setPort p { s.port p with idents := [r, r, r] }) r
        ((congrArg FabPort.state (State.port_setPort_self s p _)).trans hident)⟩

/-! ## LINK_STATE (R389, R392, R398) -/

/-- With no port UP nothing is passed on. -/
theorem State.flood_isolated {s : State} (h : ∀ p, (s.port p).state ≠ .up) (m : Mgmt) (data : List Word) (but : Option Port) :
    s.flood m data but = s := by
  unfold State.flood
  exact if_pos (by simp [h])

/-- A message that goes over the UP ports is sent. -/
theorem State.flood_sends {s : State} {p : Port} (h : (s.port p).state = .up) (m : Mgmt) (data : List Word) :
    ∃ dst, Msg.mgmt .linkState dst m data ∈ (s.flood m data none).tx := by
  unfold State.flood
  dsimp only
  rw [if_neg]
  · exact ⟨_, (foldl_linkOnly (fun t p => pushBytes_linkOnly t p _ _) _ _).sent _ List.mem_cons_self⟩
  · rw [Bool.not_eq_true, List.isEmpty_eq_false_iff_exists_mem]
    exact ⟨p, List.mem_filter.2 ⟨List.mem_finRange p, by simp [h]⟩⟩

/-- The module's own LINK_STATE carries the next number and leaves memory and the cores. -/
theorem State.sendLinkState_sends (s : State) :
    let t := s.sendLinkState
    t.fab.lsSeq = s.fab.lsSeq + 1 ∧ t.mem = s.mem ∧ t.cores = s.cores
      ∧ ((∃ p, (s.port p).state = .up) → ∃ dst m, Msg.mgmt .linkState dst m
          ((s.fab.lsSeq + 1) :: (List.finRange 6).map (fun p => (s.port p).status)) ∈ t.tx) := by
  have hlink (t : State) (m : Mgmt) (data : List Word) : LinkOnly t (t.flood m data none) := by
    unfold State.flood
    dsimp only
    split
    · exact .refl t
    · exact (LinkOnly.send t _).trans (foldl_linkOnly (fun t p => pushBytes_linkOnly t p _ _) _ _)
  have h := hlink { s with fab := { s.fab with lsSeq := s.fab.lsSeq + 1 } }
    { s.mgmt 0 with module := s.self.val, time := s.now }
    ((s.fab.lsSeq + 1) :: (List.finRange 6).map (fun p => (s.port p).status))
  refine ⟨?_, h.mem, h.cores, fun ⟨p, hp⟩ => ?_⟩
  · show (State.flood _ _ _ _).fab.lsSeq = _
    rw [h.frame]
  · obtain ⟨dst, hmem⟩ := State.flood_sends (s := { s with fab := { s.fab with lsSeq := s.fab.lsSeq + 1 } }) hp
      { s.mgmt 0 with module := s.self.val, time := s.now }
      ((s.fab.lsSeq + 1) :: (List.finRange 6).map (fun p => (s.port p).status))
    exact ⟨dst, _, hmem⟩

section
variable {s : State} {m : Mgmt} {q : Word} {ports : List Word}

/-- A LINK_STATE of the module itself changes nothing. -/
theorem exec_linkState_own (h : Fin.ofNat 64 m.module = s.self) : exec (.linkState m q ports) s = .next s :=
  exec_stays (show execLinkState m q ports s = lift _ s from rfl) (if_pos h)

variable (hself : Fin.ofNat 64 m.module ≠ s.self)
include hself

/-- A LINK_STATE with no higher number changes nothing. -/
theorem exec_linkState_old {l : LinkState} (hl : Assoc.find (Fin.ofNat 64 m.module : ModIx) s.fab.lsdb = some l)
    (h : q.toNat ≤ l.seqNo.toNat) : exec (.linkState m q ports) s = .next s := by
  refine exec_stays (show execLinkState m q ports s = lift _ s from rfl) ((if_neg hself).trans (if_pos ?_))
  rw [hl]
  exact decide_eq_true h

/-- The database with an entry replaced. -/
def State.putLinkState (s : State) (k : ModIx) (l : LinkState) : State :=
  { s with fab := { s.fab with lsdb := Assoc.put k l s.fab.lsdb } }

/-- A LINK_STATE with a higher number replaces its entry; where no port is UP it is passed on to nobody. -/
theorem exec_linkState_new (h : ∀ l, Assoc.find (Fin.ofNat 64 m.module : ModIx) s.fab.lsdb = some l → l.seqNo.toNat < q.toNat)
    (hports : ∀ p, (s.port p).state ≠ .up) :
    let u := s.putLinkState (Fin.ofNat 64 m.module) ⟨q, ports⟩
    exec (.linkState m q ports) s = .next (after (fun _ =>
      if (Assoc.find (Fin.ofNat 64 m.module : ModIx) s.fab.lsdb).map (·.ports) = some ports then u
      else u.routesChanged.reviewRole) s) := by
  refine exec_after (show execLinkState m q ports s = lift _ s from rfl) ((if_neg hself).trans ((if_neg ?_).trans ?_))
  · rw [Option.any_eq_true]
    rintro ⟨l, hl, hle⟩
    have := h l hl
    have := of_decide_eq_true hle
    omega
  · let u := s.putLinkState (Fin.ofNat 64 m.module) ⟨q, ports⟩
    have hflood : u.flood m (q :: ports) none = u := State.flood_isolated (s := u) hports _ _ _
    show (if _ then u.flood m (q :: ports) none else (u.flood m (q :: ports) none).routesChanged.reviewRole) = _
    rw [hflood]

end

/-- A LINK_STATE by its number, and the module's own. -/
theorem linkStates : LinkStates := by
  refine ⟨fun s m q ports hself => ⟨fun ⟨l, hl, hle⟩ => exec_linkState_old hself hl hle, fun hnew hports => ⟨fun hsame => ?_,
    fun hdiff hfree => ?_⟩⟩, fun s m q ports hself => exec_linkState_own hself, fun s => ?_⟩
  · refine (exec_linkState_new hself hnew hports).trans ?_
    rw [if_pos hsame]
    rfl
  · refine ⟨_, exec_linkState_new hself hnew hports, ?_⟩
    rw [if_neg hdiff]
    let u := s.putLinkState (Fin.ofNat 64 m.module) ⟨q, ports⟩
    have hevent := mgmtReport_eventOnly (u.bump .fabRouteEpoch 0 0 1) .fabCode 0x0807 []
    have hreview : u.routesChanged.reviewRole = u.routesChanged := by
      unfold State.reviewRole
      rw [show u.routesChanged.tb.state = .free by rw [show u.routesChanged.tb = _ from hevent.tb]; exact hfree]
    rw [hreview]
    refine ⟨?_, ?_, State.mgmtReport_code _ (by decide) _ _, hevent.mem⟩
    · show Assoc.find _ u.routesChanged.fab.lsdb = _
      rw [show u.routesChanged.fab = u.fab from State.mgmtReport_fab _ _ _ _]
      exact Assoc.find_put_self _ _ _
    · exact (State.mgmtReport_reg_ne _ (by decide) (by decide) _ _ _ _).trans (State.reg_bump_self _ _ _ _ _)
  · obtain ⟨hseq, hmem, hcores, hsent⟩ := s.sendLinkState_sends
    exact ⟨_, exec_after (show execLinkStateTimer s = lift _ s from rfl) rfl, hseq, hmem, hcores, hsent⟩

/-- Settles O34: the training of a port, and the link-state database. -/
theorem portsAndLinkStates : Obligations.PortsAndLinkStates := ⟨portTraining, linkStates⟩

end Sys2Proof.Machine
end

section
/-! # Responses, dead requests, held packets and collective parts (R408, R412, R414, R420 to R424)

Support: what a fault leaves beside its core whatever its code, and what an answer does at the core that waits for it. -/

namespace Sys2Proof.Machine

open Sys2Proof.Claims

/-! ## What a fault leaves beside its core (R44, R220) -/

/-- Beside the cores, the serving state and the slots, the fabric and memory stay too. -/
structure Beside (s t : State) : Prop extends Aside s t where
  fab : t.fab = s.fab
  mem : t.mem = s.mem

namespace Beside

theorem refl (s : State) : Beside s s := ⟨.refl s, rfl, rfl⟩

theorem trans {s t u : State} (h : Beside s t) (h' : Beside t u) : Beside s u :=
  ⟨h.toAside.trans h'.toAside, h'.fab.trans h.fab, h'.mem.trans h.mem⟩

theorem setReg (s : State) (r : Reg) (i j : Nat) (v : Word) (hr : r ≠ .partCfg := by decide) : Beside s (s.setReg r i j v) :=
  ⟨.setReg s hr i j v, rfl, rfl⟩

theorem setDom (s : State) (n : Part) (d : Domain) : Beside s (s.setDom n d) := ⟨.setDom s n d, rfl, rfl⟩

theorem ofEvent {s t : State} (h : EventOnly s t) : Beside s t := by
  refine ⟨⟨h.cores, ?_, h.pending, fun n => h.reg (by decide) 0 n.val⟩, h.fab, h.mem⟩
  rw [h.frame]

/-- The same change of a core on both sides. -/
theorem setCore {s t : State} (h : Beside s t) (c : CoreId) (x : Core) : Beside (s.setCore c x) (t.setCore c x) :=
  ⟨⟨congrArg (Assoc.put c x) h.cores, h.sv, h.pending, h.part⟩, h.fab, h.mem⟩

theorem foldl {α : Type} {f : State → α → State} (h : ∀ t x, Beside t (f t x)) (l : List α) (s : State) :
    Beside s (l.foldl f s) := by
  induction l generalizing s with
  | nil => exact refl s
  | cons x l ih => exact (h s x).trans (ih _)

end Beside

theorem Aside.waiters {s t : State} (h : Aside s t) (n : Part) : t.waiters n = s.waiters n := by
  unfold State.waiters
  rw [h.cores]
  congr 2
  funext p
  rw [h.partOf]

/-- What leaves the cores, the serving state and the slots leaves quiet stations quiet. -/
theorem Aside.quiet {s t : State} (h : Aside s t) {c : CoreId} {n : Part} (hq : QuietStations s c n) : QuietStations t c n := by
  unfold QuietStations
  rw [h.core, h.partOf, h.waiters, h.svPart]
  exact hq

/-- The code register of a range is none of a partition's. -/
theorem codeReg_ne_part {c : Code} {r : Reg} (h : codeReg c = some r) : r ≠ .partCfg := by
  rintro rfl
  unfold codeReg at h
  split at h <;> cases h

theorem faultReport_beside (s : State) (n : Part) (code : Code) : Beside s (s.faultReport n code) := by
  unfold State.faultReport
  split
  · exact (Beside.setReg s .cadDomCode _ _ _).trans (.ofEvent (eventOn_eventOnly _ _ _ _ _ _))
  · unfold State.lastCode
    split
    · exact .refl s
    · next r hr => exact .setReg s r _ _ _ (codeReg_ne_part hr)

theorem keepStall_beside (s : State) (st : Option Station) (i : Nat) (w : Word) : Beside s (s.keepStall st i w) := by
  unfold State.keepStall
  split
  · exact .setReg s .vxFault _ _ _
  · exact .setReg s .txFault _ _ _
  · exact .refl s

/-- A fault of a running segment stops its core, whatever the code, and leaves the rest. -/
theorem State.kill_beside {s : State} {c : CoreId} {n : Part} (h : RunsIn s c n) (code : Code) (st : Option Station) :
    Beside (s.setCore c ((s.core c).stopped code)) (s.kill c code st) := by
  obtain ⟨hpart, hrun⟩ := h
  unfold State.kill
  rw [hpart]
  simp only [hrun, Option.isSome_none, Bool.false_eq_true, if_false]
  refine (((Beside.setCore ?_ c _).trans (.setReg _ .lxFault _ _ _)).trans (.setDom _ _ _)).trans (faultReport_beside _ _ _)
  have hstall := keepStall_beside s st (s.coreIx c) (faultWord code (s.core c).seg (s.dom n).tick)
  split
  · exact hstall.trans (.setReg _ .mxFault _ _ _)
  · exact hstall

theorem State.kill_core_stopped {s : State} {c : CoreId} {n : Part} (h : RunsIn s c n) (code : Code) (st : Option Station) :
    (s.kill c code st).core c = (s.core c).stopped code :=
  ((State.kill_beside h code st).core c).trans (State.core_setCore_self _ _ _)

/-- A stopped core is at rest. -/
theorem Core.stopped_atRest (x : Core) (code : Code) : (x.stopped code).AtRest := ⟨rfl, rfl, rfl, rfl, rfl, rfl, rfl⟩

/-- After the fault of a core whose partition waits for nothing, nothing more happens. -/
theorem State.settle_kill {s : State} {c : CoreId} {n : Part} (hq : QuietStations s c n) (hk : (s.core c).killed = none)
    (code : Code) (st : Option Station) : State.settle c (s.kill c code st) = s.kill c code st := by
  obtain ⟨hpart, _, _, _, _, _, _, _, hwaiters, hsyncs⟩ := hq
  have hb := State.kill_beside ⟨hpart, hk⟩ code st
  refine State.settle_rest ?_ ((hb.partOf c).trans hpart) ?_ ?_
  · rw [State.kill_core_stopped ⟨hpart, hk⟩]
    exact Core.stopped_atRest _ _
  · rw [hb.svPart]
    exact hsyncs
  · rw [hb.waiters]
    exact (Aside.refl s).waiters_none hwaiters rfl

/-- What a fault with a code of the fabric does, that is no fault of MX, VX or TX. -/
theorem State.kill_fabric {s : State} {c : CoreId} {n : Part} (h : RunsIn s c n) :
    let w := faultWord 0x0811 (s.core c).seg (s.dom n).tick
    s.kill c 0x0811 (some .lx) = (((s.setCore c ((s.core c).stopped 0x0811)).setReg .lxFault (s.coreIx c) 0 w).segError n
      (s.core c).seg 0x0811 none).setReg .fabCode 0 0 0x0811 := by
  obtain ⟨hpart, hrun⟩ := h
  unfold State.kill
  rw [hpart]
  simp only [hrun, Option.isSome_none, Bool.false_eq_true, if_false]
  rfl

/-! ## Answers (R408, R412) -/

/-- A request that has ended is outstanding no more. -/
theorem State.request_dropRequest (s : State) (tag : Code) : (s.dropRequest tag).request tag = none := by
  unfold State.request State.dropRequest
  rw [List.find?_eq_none]
  intro r hr
  simpa using (List.mem_filter.1 hr).2

theorem dropRequest_aside (s : State) (tag : Code) : Aside s (s.dropRequest tag) := ⟨rfl, rfl, rfl, fun _ => rfl⟩

theorem State.request_tag {s : State} {tag : Code} {r : Request} (h : s.request tag = some r) : r.tag = tag :=
  of_decide_eq_true (List.find?_some (p := fun r : Request => decide (r.tag = tag)) h)

/-- A late result for a scalar register. -/
theorem Core.deliver_found {x : Core} {tag : Nat} {d : BitVec 5} (h : Assoc.find tag x.late = some (.s d)) (bs : List Byte) :
    x.deliver tag bs = { x with s := x.s.set (ix5 d).val (bytesWord bs) (ix5 d).isLt,
                                late := x.late.filter (fun p => decide (p.1 ≠ tag)) } := by
  unfold Core.deliver
  rw [h]

section
variable {s : State} {c : CoreId} {n : Part} (hq : QuietStations s c n)
include hq

/-- Where nothing waits, an answer that only ends its request sets nothing off. -/
theorem State.settle_quiet : State.settle c s = s := by
  have hrest := atRest_of_quiet hq
  obtain ⟨hpart, _, _, _, _, _, _, _, hwaiters, hsyncs⟩ := hq
  exact State.settle_rest hrest hpart hsyncs hwaiters

/-- A late result of a core whose partition waits for nothing sets nothing off. -/
theorem State.settle_deliver (tag : Nat) (bs : List Byte) : State.settle c (s.deliver c tag bs) = s.deliver c tag bs := by
  have hrest := atRest_of_quiet hq
  obtain ⟨hpart, _, _, _, _, _, _, _, hwaiters, hsyncs⟩ := hq
  refine State.settle_rest ?_ hpart hsyncs (State.waiters_deliver hwaiters c tag bs)
  rw [State.deliver, State.updCore_eq, State.core_setCore_self, Core.deliver_frame]
  exact ⟨hrest.mxq, hrest.vxq, hrest.txq, hrest.lxq, hrest.svq, hrest.lxRuns, hrest.collRuns⟩

end

section
variable {s : State} {pk : Packet} {r : Request} {c : CoreId} (hr : s.request pk.tag = some r) (hsrc : r.src = .core c)
  (hmembers : r.members = [])
include hr hsrc hmembers

/-- Data for a core reach what asked for them. -/
theorem State.responseIn_data (hst : pk.status = 0) (hpoison : pk.poison = false) :
    s.responseIn pk = State.settle c ((s.dropRequest pk.tag).answerCore c r pk.payload) := by
  unfold State.responseIn
  rw [hr]
  simp [hmembers, hst, hpoison, hsrc, State.afterAnswer, State.request_tag hr]

/-- A fault is its source's. -/
theorem State.responseIn_fault (hst : pk.status ≠ 0) (hstamped : r.stamped = true) :
    s.responseIn pk = State.settle c ((s.dropRequest pk.tag).kill c pk.status (some .lx)) := by
  have hst' : ¬ pk.status = 0#16 := hst
  unfold State.responseIn
  rw [hr]
  simp [hmembers, hst', hsrc, State.afterAnswer, State.requestFails, hstamped, State.request_tag hr]

end

/-- A response handled now completes in the state that it leaves. -/
theorem exec_response {i : Instr} {op : PacketOp} {pk : Packet} {s t : State}
    (hi : (i = .readResp pk ∧ op = .readResp) ∨ (i = .writeAck pk ∧ op = .writeAck) ∨ (i = .atomResp pk ∧ op = .atomResp))
    (h : Local s op pk) (ht : s.responseIn pk = t) (hp : t.pending = s.pending) : exec i s = .next t := by
  have hafter : after (fun u => u.responseIn pk) s = t := by rw [after, ht, ← hp]
  rw [← hafter]
  rcases hi with ⟨rfl, rfl⟩ | ⟨rfl, rfl⟩ | ⟨rfl, rfl⟩ <;> exact exec_local rfl h

section
variable {s : State} {pk : Packet} {r : Request} {c : CoreId} {n : Part} (hr : s.request pk.tag = some r)
  (hsrc : r.src = .core c) (hmembers : r.members = []) (hq : QuietStations s c n)
include hr hsrc hmembers hq

/-- An acknowledgement of a store only ends the request. -/
theorem State.responseIn_store (hst : pk.status = 0) (hpoison : pk.poison = false) (hk : r.kind = .store) :
    s.responseIn pk = s.dropRequest pk.tag := by
  have hanswer : (s.dropRequest pk.tag).answerCore c r pk.payload = s.dropRequest pk.tag := by
    unfold State.answerCore
    rw [hk]
  rw [State.responseIn_data hr hsrc hmembers hst hpoison, hanswer]
  exact State.settle_quiet (s := s.dropRequest pk.tag) hq

/-- An answer to an atomic gives the core its late result. -/
theorem State.responseIn_atom {tag : Nat} {nr : Bool} (hst : pk.status = 0) (hpoison : pk.poison = false)
    (hk : r.kind = .atom tag nr) : s.responseIn pk = (s.dropRequest pk.tag).deliver c tag pk.payload := by
  have hanswer : (s.dropRequest pk.tag).answerCore c r pk.payload = (s.dropRequest pk.tag).deliver c tag pk.payload := by
    unfold State.answerCore
    rw [hk]
  rw [State.responseIn_data hr hsrc hmembers hst hpoison, hanswer]
  exact State.settle_deliver (s := s.dropRequest pk.tag) hq tag _

/-- Data for a load are counted and given to the core as its late result. -/
theorem State.responseIn_load {tag : Nat} (hst : pk.status = 0) (hpoison : pk.poison = false) (hk : r.kind = .load tag) :
    s.responseIn pk
      = ((s.dropRequest pk.tag).bump .lxBytesLoaded (s.coreIx c) 0 pk.payload.length).deliver c tag pk.payload := by
  let u := (s.dropRequest pk.tag).bump .lxBytesLoaded (s.coreIx c) 0 pk.payload.length
  have hanswer : (s.dropRequest pk.tag).answerCore c r pk.payload = u.deliver c tag pk.payload := by
    unfold State.answerCore
    rw [hk]
    rfl
  have haside : Aside s u := (dropRequest_aside s pk.tag).trans (.bump _ (r := .lxBytesLoaded) (by decide) _ _ _)
  rw [State.responseIn_data hr hsrc hmembers hst hpoison, hanswer]
  exact State.settle_deliver (haside.quiet hq) tag _

/-- A fault stops the core's segment. -/
theorem State.responseIn_stops (hk : (s.core c).killed = none) (hst : pk.status ≠ 0) (hstamped : r.stamped = true) :
    s.responseIn pk = (s.dropRequest pk.tag).kill c pk.status (some .lx) := by
  rw [State.responseIn_fault hr hsrc hmembers hst hstamped]
  exact State.settle_kill (s := s.dropRequest pk.tag) hq hk _ _

end

/-! ## Dead requests (R412) -/

/-- A request without an answer is dropped, counted and kept in FAB.CODE. -/
def State.markDead (s : State) (tag : Code) : State :=
  ((s.dropRequest tag).bump .fabDeadCount 0 0 1).setReg .fabCode 0 0 0x0811

theorem markDead_aside (s : State) (tag : Code) : Aside s (s.markDead tag) :=
  ((dropRequest_aside s tag).trans (.bump _ (r := .fabDeadCount) (by decide) _ _ _)).trans
    (.setReg _ (r := .fabCode) (by decide) _ _ _)

/-- A store without an answer is dead, and its core stopped. -/
theorem State.requestDead_store {s : State} {r : Request} {c : CoreId} {n : Part} (hsrc : r.src = .core c) (hk : r.kind = .store)
    (hstamped : r.stamped = true) (hq : QuietStations s c n) (hkilled : (s.core c).killed = none) :
    s.requestDead r = (s.markDead r.tag).kill c 0x0811 (some .lx) := by
  have haside := markDead_aside s r.tag
  have hdead : s.requestDead r = State.settle c ((s.markDead r.tag).kill c 0x0811 (some .lx)) := by
    unfold State.requestDead State.requestFails State.afterAnswer
    simp only [hsrc, hk, hstamped, if_true]
    rfl
  rw [hdead]
  exact State.settle_kill (haside.quiet hq) ((congrArg Core.killed (haside.core c)).trans hkilled) _ _

/-- The limit on the answer to a store (R412). -/
theorem exec_fabDeadTimeout_store {s : State} {tag : Code} {r : Request} {c : CoreId} {n : Part} (hr : s.request tag = some r)
    (hsrc : r.src = .core c) (hk : r.kind = .store) (hstamped : r.stamped = true) (hq : QuietStations s c n)
    (hkilled : (s.core c).killed = none) :
    ∃ t, exec (.fabDeadTimeout tag) s = .next t ∧ t.request tag = none ∧ (t.core c).killed = some 0x0811
      ∧ t.reg .fabDeadCount = s.reg .fabDeadCount + 1 ∧ t.reg .fabCode = 0x0811 ∧ t.mem = s.mem := by
  have haside := markDead_aside s tag
  have hrun : RunsIn (s.markDead tag) c n :=
    ⟨(haside.partOf c).trans hq.1, (congrArg Core.killed (haside.core c)).trans hkilled⟩
  have hb := State.kill_beside hrun 0x0811 (some .lx)
  have hdead := State.requestDead_store hsrc hk hstamped hq hkilled
  rw [State.request_tag hr] at hdead
  refine ⟨(s.markDead tag).kill c 0x0811 (some .lx), exec_next (show execFabDeadTimeout tag s = lift _ s from rfl) ?_
    (hb.pending.trans haside.pending), ?_, ?_, ?_, ?_, hb.mem⟩
  · rw [hr]
    exact hdead
  · unfold State.request
    rw [hb.fab]
    exact s.request_dropRequest tag
  · rw [State.kill_core_stopped hrun]
    rfl
  · rw [State.kill_fabric hrun]
    refine (State.reg_setReg_ne _ (by decide) _ _ _ _ _).trans ((State.reg_setReg_ne _ (by decide) _ _ _ _ _).trans ?_)
    exact (State.reg_setReg_ne _ (by decide) _ _ _ _ _).trans (State.reg_bump_self _ _ _ _ _)
  · rw [State.kill_fabric hrun]
    exact State.reg_setReg_self _ _ _ _ _

/-! ## Held packets (R407) -/

theorem dropFirst_append {α : Type} {f : α → Bool} {a b : List α} {x : α} (hx : f x = true) (ha : ∀ y ∈ a, f y = false) :
    dropFirst f (a ++ x :: b) = a ++ b := by
  induction a with
  | nil => simp [dropFirst, hx]
  | cons y a ih =>
    rw [List.cons_append, dropFirst, ha y List.mem_cons_self, if_neg Bool.false_ne_true,
      ih (fun z hz => ha z (List.mem_cons_of_mem _ hz)), List.cons_append]

/-! ## The limit of a collective (R424) -/

/-- The fault of a collective at one of its contributors, unless the contributor's part is over (R420, R424). -/
def State.faultPart (s : State) (code : Code) (a : Contribution) : State :=
  if (Assoc.find a.handle (s.core a.core).colls).any (·.done) then s else s.kill a.core code

/-- A contributor's fault changes nothing, or stops its running segment. -/
theorem State.faultPart_cases {code : Code} (hmx : code.toNat / 256 ≠ 2) (s : State) (a : Contribution) :
    s.faultPart code a = s
      ∨ (∃ n, RunsIn s a.core n) ∧ Beside (s.setCore a.core ((s.core a.core).stopped code)) (s.faultPart code a) := by
  unfold State.faultPart
  split
  · exact .inl rfl
  · rcases State.kill_cases hmx s a.core with ⟨h, _⟩ | ⟨n, h⟩
    · exact .inl h
    · exact .inr ⟨⟨n, h⟩, State.kill_beside h code none⟩

/-- The fault of a collective stops every core of its contributors whose part is not over, and leaves memory. -/
theorem State.foldl_faultPart {code : Code} (hmx : code.toNat / 256 ≠ 2) (l : List Contribution) (s : State) :
    (l.foldl (fun t a => t.faultPart code a) s).mem = s.mem ∧ (l.foldl (fun t a => t.faultPart code a) s).pending = s.pending
      ∧ ∀ (c : CoreId) (n : Part), s.partOf c = some n → (s.core c).colls = [] →
        ((s.core c).killed = none ∧ (∃ a ∈ l, a.core = c)) ∨ (s.core c).killed = some code →
        ((l.foldl (fun t a => t.faultPart code a) s).core c).killed = some code := by
  induction l generalizing s with
  | nil => exact ⟨rfl, rfl, fun c n _ _ h => h.resolve_left (fun ⟨_, a, ha, _⟩ => nomatch ha)⟩
  | cons a l ih =>
    obtain ⟨hmem, hpending, hall⟩ := ih (s.faultPart code a)
    have hcases := State.faultPart_cases hmx s a
    refine ⟨hmem.trans ?_, hpending.trans ?_, fun c n hpart hcolls h => ?_⟩
    · rcases hcases with heq | ⟨_, hb⟩
      · rw [heq]
      · exact hb.mem
    · rcases hcases with heq | ⟨_, hb⟩
      · rw [heq]
      · exact hb.pending
    · have hpart' : (s.faultPart code a).partOf c = some n := by
        rcases hcases with heq | ⟨_, hb⟩
        · rw [heq, hpart]
        · exact (hb.partOf c).trans hpart
      by_cases hac : a.core = c
      · subst hac
        have hkill : s.faultPart code a = s.kill a.core code := if_neg (by rw [hcolls]; exact Bool.false_ne_true)
        rcases h with ⟨hrun, _⟩ | hdead
        · have hcore := State.kill_core_stopped ⟨hpart, hrun⟩ code none
          rw [← hkill] at hcore
          exact hall _ n hpart' (by rw [hcore]; exact hcolls) (.inr (by rw [hcore]; rfl))
        · rcases hcases with heq | ⟨⟨m, hm⟩, _⟩
          · exact hall _ n hpart' (by rw [heq]; exact hcolls) (.inr (by rw [heq]; exact hdead))
          · exact absurd (hdead.symm.trans hm.2) (by simp)
      · have hcore : (s.faultPart code a).core c = s.core c := by
          rcases hcases with heq | ⟨_, hb⟩
          · rw [heq]
          · exact (hb.core c).trans (State.core_setCore_ne s hac _)
        refine hall c n hpart' (by rw [hcore]; exact hcolls) ?_
        rw [hcore]
        exact h.imp_left (fun ⟨hrun, b, hb, hbc⟩ => ⟨hrun, b, (List.mem_cons.1 hb).resolve_left (fun e => hac (e ▸ hbc)), hbc⟩)

/-- A collective entered or replaced leaves what the cores rest on. -/
theorem putInst_aside (s : State) (x : CollInst) : Aside s (s.putInst x) := by
  unfold State.putInst
  split <;> exact ⟨rfl, rfl, rfl, fun _ => rfl⟩

theorem putInst_mem (s : State) (x : CollInst) : (s.putInst x).mem = s.mem := by
  unfold State.putInst
  split <;> rfl

/-- The fault of the only collective: recorded, shown at the engines, and a fault of its contributors. -/
theorem State.collFault_stops {s : State} {x : CollInst} {n : Part} {code : Code} (hmx : code.toNat / 256 ≠ 2)
    (hx : s.insts = [x]) :
    (s.collFault x.key code).mem = s.mem ∧ (s.collFault x.key code).pending = s.pending
      ∧ ∀ a ∈ x.contribs, (s.core a.core).colls = [] → RunsIn s a.core n →
        ((s.collFault x.key code).core a.core).killed = some code := by
  let u := (s.putInst { x with fault := code }).allCes
    (fun t p => t.setReg .ceFault p 0 (faultWord code x.seg (t.dom x.part).tick))
  have hinst : s.inst x.key = some x := by
    unfold State.inst
    rw [hx]
    simp
  have heq : s.collFault x.key code = x.contribs.foldl (fun t a => t.faultPart code a) u := by
    unfold State.collFault
    rw [hinst]
    rfl
  have hces : Beside (s.putInst { x with fault := code }) u := Beside.foldl (fun t p => .setReg t .ceFault p 0 _) _ _
  have haside : Aside s u := (putInst_aside s _).trans hces.toAside
  obtain ⟨hmem, hpending, hall⟩ := State.foldl_faultPart hmx x.contribs u
  rw [heq]
  refine ⟨hmem.trans (hces.mem.trans (putInst_mem s _)), hpending.trans haside.pending, fun a ha hcolls hrun => ?_⟩
  obtain ⟨hpart, hkilled⟩ := hrun
  exact hall a.core n ((haside.partOf _).trans hpart) (by rw [haside.core]; exact hcolls)
    (.inl ⟨by rw [haside.core]; exact hkilled, a, ha, rfl⟩)

/-- The limit of a collective that is not there, and of the only one. -/
theorem exec_ceCollTimeout (s : State) (n : Part) (g : Code) (k : Nat) :
    ((∀ x ∈ s.insts, ¬(x.part = n ∧ x.group = g.toNat ∧ x.n = k ∧ x.fault = 0)) → exec (.ceCollTimeout n g k) s = .next s)
      ∧ ∀ x, s.insts = [x] → x.part = n → x.group = g.toNat → x.n = k → x.fault = 0 →
        exec (.ceCollTimeout n g k) s = .next (after (fun t => t.collFault x.key 0x080C) s) := by
  refine ⟨fun hnone => exec_stays (show execCeCollTimeout n g k s = lift _ s from rfl) ?_, fun x hx hn hg hk hf =>
    exec_after (show execCeCollTimeout n g k s = lift _ s from rfl) ?_⟩
  · rw [List.find?_eq_none.2 (fun x hx => by simpa using hnone x hx)]
  · rw [hx, List.find?_cons_of_pos (by simp [hn, hg, hk, hf])]

/-- Settles O37: what each response does at its source, and the limits on answers, held packets and collectives. -/
theorem responses : Obligations.Responses := by
  refine ⟨fun i op pk s hi h => ⟨fun hnone => ?_, fun r c n hr hsrc hmembers hq hkilled _ => ⟨fun hst hpoison =>
    ⟨fun hk => ?_, fun tag d hk hd => ?_, fun tag nr d hk hd => ?_⟩, fun hst hstamped => ?_⟩⟩,
    fun s tag => ⟨fun hnone => ?_, fun r c n hr hsrc hk hstamped hq hkilled _ =>
      exec_fabDeadTimeout_store hr hsrc hk hstamped hq hkilled⟩, fun s tag a b p hheld hp ha => ?_, fun s tag hall => ?_,
    fun s pk => ⟨fun h => exec_local rfl h, fun h => exec_local rfl h⟩,
    fun s n g k => ⟨(exec_ceCollTimeout s n g k).1, fun x hx hn hg hk hf => ?_⟩⟩
  · refine ⟨s.bump .fabLateResp 0 0 1, exec_response hi h ?_ rfl, State.reg_bump_self _ _ _ _ _, rfl⟩
    unfold State.responseIn
    rw [hnone]
  · exact ⟨_, exec_response hi h (State.responseIn_store hr hsrc hmembers hq hst hpoison hk) rfl, s.request_dropRequest _, rfl⟩
  · have ht := State.responseIn_load hr hsrc hmembers hq hst hpoison hk
    have hcore := (State.core_setCore_self ((s.dropRequest pk.tag).bump .lxBytesLoaded (s.coreIx c) 0 pk.payload.length) c
      ((s.core c).deliver tag pk.payload)).trans (Core.deliver_found hd _)
    exact ⟨_, exec_response hi h ht rfl, s.request_dropRequest _, congrArg Core.s hcore, congrArg Core.late hcore, rfl,
      (congrArg Core.pc hcore).trans rfl⟩
  · have ht := State.responseIn_atom hr hsrc hmembers hq hst hpoison hk
    have hcore := (State.core_setCore_self (s.dropRequest pk.tag) c ((s.core c).deliver tag pk.payload)).trans
      (Core.deliver_found hd _)
    exact ⟨_, exec_response hi h ht rfl, s.request_dropRequest _, congrArg Core.s hcore, rfl⟩
  · have hrun : RunsIn (s.dropRequest pk.tag) c n := ⟨hq.1, hkilled⟩
    have hb := State.kill_beside hrun pk.status (some .lx)
    have hcore := State.kill_core_stopped hrun pk.status (some .lx)
    refine ⟨_, exec_response hi h (State.responseIn_stops hr hsrc hmembers hq hkilled hst hstamped) hb.pending, ?_,
      congrArg Core.killed hcore, (congrArg Core.s hcore).trans rfl, hb.mem⟩
    unfold State.request
    rw [hb.fab]
    exact s.request_dropRequest _
  · refine exec_stays (show execFabDeadTimeout tag s = lift _ s from rfl) ?_
    rw [hnone]
  · refine exec_next (show execFabHeldTimeout tag s = lift _ s from rfl) ((if_pos ?_).trans ?_) rfl
    · rw [hheld, List.any_append, List.any_cons, decide_eq_true hp, Bool.true_or, Bool.or_true]
    · rw [hheld, dropFirst_append (f := fun q : PacketOp × Packet => decide (q.2.tag = tag)) (decide_eq_true hp)
        (fun q hq => decide_eq_false (ha q hq))]
  · exact exec_next (show execFabHeldTimeout tag s = lift _ s from rfl) (if_neg (by simpa using hall)) rfl
  · obtain ⟨hmem, hpending, hkills⟩ := State.collFault_stops (s := s) (n := n) (code := 0x080C) (by decide) hx
    exact ⟨_, (exec_ceCollTimeout s n g k).2 x hx hn hg hk hf, hkills, hmem⟩

end Sys2Proof.Machine
end
